-- ==== Sys2Proof/Word.lean ====
section
/-! DEFINITION. Sys2Proof/Word.lean: bytes, 32-byte data slots, canonical sparse tables and the
little-endian and bit-field helpers every other file uses. -/

namespace Sys2Proof

/-- One byte of memory or of a message. -/
abbrev Byte := BitVec 8

/-- A string of bytes, byte 0 first. -/
abbrev Bytes := List Byte

/-- A 32-byte data slot of a Boroc message with its poison bit (R95, R384). -/
structure Slot where
  bytes : Bytes
  poison : Bool
deriving DecidableEq, Repr, Inhabited

/-- A sparse table: key and value pairs, keys strictly rising, no value equal to the default. -/
abbrev Tab (α : Type) := List (Nat × α)

/-- The value a table holds at a key; `d` is what an unlisted key reads as. -/
def Tab.get {α : Type} (d : α) : Tab α → Nat → α
  | [], _ => d
  | (k', v) :: t, k => if k' = k then v else Tab.get d t k

/-- Insert a pair in key order, dropping any earlier pair of that key. -/
def Tab.ins {α : Type} (k : Nat) (v : α) : Tab α → Tab α
  | [] => [(k, v)]
  | (k', v') :: t =>
    if k < k' then (k, v) :: (k', v') :: t
    else if k = k' then (k, v) :: t
    else (k', v') :: Tab.ins k v t

/-- Remove the pair of a key. -/
def Tab.del {α : Type} (k : Nat) : Tab α → Tab α
  | [] => []
  | (k', v') :: t => if k = k' then t else (k', v') :: Tab.del k t

/-- Write a value at a key, keeping the canonical form: writing the default removes the pair. -/
def Tab.put {α : Type} [DecidableEq α] (d : α) (t : Tab α) (k : Nat) (v : α) : Tab α :=
  if v = d then Tab.del k t else Tab.ins k v t

/-- Keep the pairs whose key and value satisfy a test. -/
def Tab.keep {α : Type} (p : Nat → α → Bool) (t : Tab α) : Tab α :=
  t.filter (fun kv => p kv.1 kv.2)

/-- All keys are above `k`, strictly rising, and no value is the default. -/
def Tab.wfFrom {α : Type} [DecidableEq α] (d : α) : Nat → Tab α → Bool
  | _, [] => true
  | k, (k', v) :: t => decide (k ≤ k') && decide (v ≠ d) && Tab.wfFrom d (k' + 1) t

/-- The canonical form of a table: keys strictly rising, no value equal to the default. -/
def Tab.wf {α : Type} [DecidableEq α] (d : α) (t : Tab α) : Bool := Tab.wfFrom d 0 t

/-- Bits [lo + w - 1 : lo] of a number. -/
def bits (x lo w : Nat) : Nat := x / 2 ^ lo % 2 ^ w

/-- Bit `i` of a number. -/
def bit (x i : Nat) : Bool := x.testBit i

/-- 1 for true, 0 for false. -/
def b2n (b : Bool) : Nat := if b then 1 else 0

/-- The number with bit `i` set. -/
def setBit (x i : Nat) : Nat := x ||| 2 ^ i

/-- The number with bit `i` cleared. -/
def clrBit (x i : Nat) : Nat := if x.testBit i then x - 2 ^ i else x

/-- The little-endian number a string of bytes spells. -/
def leNat : Bytes → Nat
  | [] => 0
  | b :: t => b.toNat + 256 * leNat t

/-- The `n` little-endian bytes of a number. -/
def natLe : Nat → Nat → Bytes
  | 0, _ => []
  | n + 1, x => BitVec.ofNat 8 x :: natLe n (x / 256)

/-- `n` zero bytes. -/
def zeros (n : Nat) : Bytes := List.replicate n 0

/-- The `n` bytes from offset `o`, zero beyond the end. -/
def slice (o n : Nat) (bs : Bytes) : Bytes :=
  let p := (bs.drop o).take n
  p ++ zeros (n - p.length)

/-- Replace the bytes from offset `o` by `new`, within the length of `bs`. -/
def splice (o : Nat) (new bs : Bytes) : Bytes :=
  (bs.take o ++ new ++ bs.drop (o + new.length)).take bs.length

/-- Pad or cut to `n` bytes. -/
def fitTo (n : Nat) (bs : Bytes) : Bytes := slice 0 n bs

/-- Division rounding up. -/
def ceilDiv (a b : Nat) : Nat := (a + b - 1) / b

/-- The bytes of a run of slots, in order. -/
def slotBytes (ss : List Slot) : Bytes := ss.flatMap (fun x => fitTo 32 x.bytes)

/-- Cut a string of bytes into clean 32-byte slots, the last padded with zeros. -/
def toSlots (bs : Bytes) : List Slot :=
  (List.range (ceilDiv bs.length 32)).map (fun i => ⟨slice (32 * i) 32 bs, false⟩)

/-- Saturating increment at `m`. -/
def satInc (m x : Nat) : Nat := if x < m then x + 1 else m

end Sys2Proof
end

