-- ==== Sys2Proof/Syntax.lean ====
section
/-! DEFINITION. Sys2Proof/Syntax.lean: the commands, one constructor per row of spec/opcode_table.json, with the operands
each carries. A row that is a message received carries the message's fields; a row that is an event inside the part
names the thing it happens to and what an outside party supplies at that moment (data, codes found, signatures checked). -/

namespace Sys2Proof

/-- The fields of a request header (R97); reserved bits are ignored (R99) and left out. -/
structure Hdr where
  agt : Nat
  tag : Nat
  can : Nat
  ctx : Nat
  cva : Nat
  len : Nat
  page : Nat
  colour : Nat
  sub : Nat
  aty : Nat
  fmtSrc : Nat
  fmtDst : Nat
  gchk : Bool
  gexp : Nat
deriving DecidableEq, Repr, Inhabited

/-- An error a DRAM read meets: the code word (PPA div 64), whether it is beyond correction, and the device or pin
it lies on (R373, R376); or, `ondie`, one that a stack's on-die ECC has corrected beneath the code (R401). -/
structure DramErr where
  cw : Nat
  ue : Bool
  dev : Nat
  ondie : Bool := false
deriving DecidableEq, Repr, Inhabited

/-- What an internal access meets at the DRAM: the errors its reads find. -/
structure Met where
  errs : List DramErr
deriving DecidableEq, Repr, Inhabited

/-- The header of a BLK message (R313) with its data slots. -/
structure Blk where
  bop : Nat
  src : Nat
  dst : Nat
  handle : Nat
  off : Nat
  xid : Nat
  part : Nat
  status : Nat
  lines : Nat
  grant : Nat
  slots : List Slot
deriving DecidableEq, Repr, Inhabited

/-- A HOST memory read the part makes within a step: the bytes returned and whether each 64-byte piece carried EP. -/
structure HostRd where
  data : Bytes
  poison : List Bool
  err : Bool
deriving DecidableEq, Repr, Inhabited

/-- One item of a Light List message (R664): scope, index, subindex, block offset, length asked and value bytes. -/
structure LlItem where
  scope : Nat
  index : Nat
  sub : Nat
  off : Nat
  length : Nat
  val : Bytes
deriving DecidableEq, Repr, Inhabited

/-- A reserved or staging write of a PF0 direct window: its offset and bytes (R66, R431). -/
structure DwWrite where
  off : Nat
  val : Bytes
deriving DecidableEq, Repr, Inhabited

/-- A flit as received (R489-R495): its header fields, its nine slots, the physical lane it came on, whether its CRC and its
GCM tag are good, and the lane flit times since the last good flit of the old key phase on that lane (R521). -/
structure Flit where
  seq : Nat
  ack : Nat
  sack : Nat
  poison : Nat
  last : Nat
  fkind : Nat
  kphase : Bool
  ctl : Bool
  slots : List Bytes
  lane : Nat
  crcOk : Bool
  tagOk : Bool
  gap : Nat
deriving DecidableEq, Repr, Inhabited

/-- A training frame (R512). -/
structure Train where
  kind : Nat
  lane : Nat
  width : Nat
  map : Nat
  expected : Nat
  kphase : Bool
  free : List Nat
  count : Nat
deriving DecidableEq, Repr, Inhabited

/-- What the key store finds when it checks a handshake message or a token: the chain reaches an anchor, the signatures
verify, the confirmation matches, the secret decrypts (R459, R471, R475). -/
structure Vouch where
  chain : Bool
  sig : Bool
  conf : Bool
  opens : Bool
deriving DecidableEq, Repr, Inhabited

/-- The commands, one constructor per row of the table, in families. -/
inductive Instr where
  /-- RDS (R191). -/
  | rds (port src : Nat) (h : Hdr)
  /-- RDX (R191). -/
  | rdx (port src : Nat) (h : Hdr)
  /-- UPG (R191). -/
  | upg (port src : Nat) (h : Hdr)
  /-- RDONCE (R104). -/
  | rdOnce (port src : Nat) (h : Hdr)
  /-- WRFULL (R117). -/
  | wrFull (port src : Nat) (h : Hdr) (slots : List Slot)
  /-- WRPART (R700). -/
  | wrPart (port src : Nat) (h : Hdr) (slots : List Slot)
  /-- EVC (R177). -/
  | evc (port src : Nat) (h : Hdr)
  /-- WBD (R177). -/
  | wbd (port src : Nat) (h : Hdr) (slots : List Slot)
  /-- ACC (R224). -/
  | acc (port src : Nat) (h : Hdr) (slots : List Slot)
  /-- ATOM_FETCH_ADD (R110). -/
  | atomFetchAdd (port src : Nat) (h : Hdr) (slots : List Slot)
  /-- ATOM_SWAP (R109). -/
  | atomSwap (port src : Nat) (h : Hdr) (slots : List Slot)
  /-- ATOM_COMPARE_SWAP (R109). -/
  | atomCompareSwap (port src : Nat) (h : Hdr) (slots : List Slot)
  /-- HINT_PREFER_HBM (R341). -/
  | hintPreferHbm (port src : Nat) (h : Hdr)
  /-- HINT_PREFER_DDR5 (R341). -/
  | hintPreferDdr5 (port src : Nat) (h : Hdr)
  /-- HINT_EXPECT_READS (R341). -/
  | hintExpectReads (port src : Nat) (h : Hdr)
  /-- DBELL (R249). -/
  | dbell (port src : Nat) (h : Hdr) (slots : List Slot)
  /-- FENCE_C (R127). -/
  | fenceC (port src : Nat) (h : Hdr)
  /-- FENCE_O (R127). -/
  | fenceO (port src : Nat) (h : Hdr)
  /-- FENCE_CLOSE (R129). -/
  | fenceClose (port agt tag : Nat)
  /-- PTC_FETCH_DONE (R63). -/
  | ptcFetchDone (port ctx vpn eccA eccB : Nat)
  /-- HOME_SLICE_SERIALISE (R122). -/
  | homeSliceSerialise (port agt tag : Nat) (errs : List DramErr) (hs : Nat)
  /-- SNOOP_EGRESS (R167). -/
  | snoopEgress (hs sid can : Nat)
  /-- RSPI (R191). -/
  | rspI (port src hs sid can : Nat)
  /-- RSPS (R564). -/
  | rspS (port src hs sid can : Nat)
  /-- RSPDI (R191). -/
  | rspDI (port src hs sid can : Nat) (dirty : Bool) (slots : List Slot)
  /-- RSPDS (R191). -/
  | rspDS (port src hs sid can : Nat) (slots : List Slot)
  /-- RSPDO (R191). -/
  | rspDO (port src hs sid can : Nat) (slots : List Slot)
  /-- RSPDK (R191). -/
  | rspDK (port src hs sid can : Nat) (dirty : Bool) (slots : List Slot)
  /-- RSPWB (R195). -/
  | rspWB (port src hs sid can : Nat)
  /-- GNTACK (R163). -/
  | gntAck (port src tag agt can : Nat)
  /-- EVICT_DATA_ACCEPTED (R178). -/
  | evictDataAccepted (line : Nat)
  /-- RECALL (R179). -/
  | recall (line : Nat)
  /-- DIRECTORY_WALK_DONE (R180). -/
  | directoryWalkDone (hs kind id : Nat)
  /-- SNOOP_TIMEOUT (R139). -/
  | snoopTimeout (hs sid can : Nat)
  /-- GNTACK_TIMEOUT (R165). -/
  | gntAckTimeout (port agt tag : Nat)
  /-- COMPLETION_EGRESS (R132). -/
  | completionEgress (port agt tag : Nat)
  /-- CENSUS_REPORT (R562). -/
  | censusReport (port src hs census can count : Nat) (last : Bool) (slots : List Slot)
  /-- ACC_FILL_ARRIVES (R228). -/
  | accFillArrives (line : Nat) (errs : List DramErr)
  /-- ACC_IDLE_FLUSH (R231). -/
  | accIdleFlush (line : Nat)
  /-- INT8_SCALE_WRITE (R243). -/
  | int8ScaleWrite (handle v : Nat)
  /-- STG_COMMIT (R68). -/
  | stgCommit (pf bank cmd : Nat) (ws : List DwWrite)
  /-- COMMIT_TURN (R79). -/
  | commitTurn (ctx : Nat)
  /-- APPLY_POINT (R73). -/
  | applyPoint (ctx : Nat)
  /-- SHOOTDOWN_DRAIN_DONE (R75). -/
  | shootdownDrainDone (ctx : Nat)
  /-- STG_READBACK (R76). -/
  | stgReadback (pf bank : Nat) (ws : List DwWrite)
  /-- STG_CLEAR (R77). -/
  | stgClear (pf bank : Nat) (ws : List DwWrite)
  /-- INTERNAL_COMMIT (R78). -/
  | internalCommit (ctx : Nat)
  /-- WINDOW_GEOMETRY_WRITE (R48). -/
  | windowGeometryWrite (ctx which v : Nat)
  /-- BINDING_WRITE (R58). -/
  | bindingWrite (agt entry v : Nat)
  /-- MOOR (R83). -/
  | moor
  /-- REVOKE (R82). -/
  | revoke
  /-- SHARE (R88). -/
  | share
  /-- UNSHARE (R82). -/
  | unshare
  /-- GRANT_REVOKE (R82). -/
  | grantRevoke
  /-- GRANT_ISSUE (R90). -/
  | grantIssue
  /-- PROBE (R314). -/
  | probe (port : Nat) (b : Blk)
  /-- PROBE_ANS (R87). -/
  | probeAns (port : Nat) (b : Blk)
  /-- JOB_DBELL (R247). -/
  | jobDbell (port vf data : Nat) (keyed : Bool)
  /-- JOB_FETCH (R250). -/
  | jobFetch (ctx q : Nat) (ecc : List (Nat × Nat × Nat)) (m : Met)
  /-- STEP (R267). -/
  | jobStep (tile : Nat) (m : Met)
  /-- REDUCE (R256). -/
  | jobReduce (tile : Nat) (m : Met)
  /-- CONVERT (R256). -/
  | jobConvert (tile : Nat) (m : Met)
  /-- FILL (R256). -/
  | jobFill (tile : Nat) (m : Met)
  /-- COPY (R256). -/
  | jobCopy (tile : Nat) (m : Met)
  /-- CHECKSUM (R280). -/
  | jobChecksum (tile : Nat) (m : Met)
  /-- NORM (R256). -/
  | jobNorm (tile : Nat) (m : Met)
  /-- PUBLISH (R287). -/
  | jobPublish (job : Nat)
  /-- PUBLISH_COMPLETE (R288). -/
  | publishComplete (job : Nat)
  /-- STRIP_START (R279). -/
  | stripStart (tile : Nat) (ecc : List (Nat × Nat × Nat)) (m : Met)
  /-- STRIP_COMMIT (R281). -/
  | stripCommit (tile : Nat)
  /-- STRIP_APPLY_DONE (R281). -/
  | stripApplyDone (tile : Nat) (m : Met)
  /-- REDUCTION_ACC_COMPLETE (R284). -/
  | reductionAccComplete (tag : Nat) (m : Met)
  /-- JOB_COMPLETE (R264). -/
  | jobComplete (job : Nat) (m : Met)
  /-- JOB_FAULT_TIMEOUT (R261). -/
  | jobFaultTimeout (kind n : Nat) (m : Met)
  /-- JQ_ENABLE_WRITE (R253). -/
  | jqEnableWrite (queue v : Nat)
  /-- RECIPE_LOAD (R272). -/
  | recipeLoad (sess : Nat)
  /-- RECIPE_UNLOAD (R275). -/
  | recipeUnload (n : Nat)
  /-- TR_DBELL (R297). -/
  | trDbell (port data : Nat)
  /-- TR_ENABLE_WRITE (R299). -/
  | trEnableWrite (ring v : Nat)
  /-- TENDER_FETCH (R298). -/
  | tenderFetch (ring : Nat) (rd : HostRd)
  /-- TENDER_COPY (R302). -/
  | tenderCopy (te : Nat) (ecc : List (Nat × Nat × Nat)) (m : Met)
  /-- MIGRATE (R305). -/
  | tenderMigrate (op te : Nat) (ecc : List (Nat × Nat × Nat))
  /-- PUT (R312). -/
  | tenderPut (te : Nat) (ecc : List (Nat × Nat × Nat)) (m : Met)
  /-- GET (R312). -/
  | tenderGet (te : Nat) (ecc : List (Nat × Nat × Nat))
  /-- HOST_IN (R309). -/
  | hostIn (te : Nat) (rd : HostRd) (m : Met)
  /-- HOST_OUT (R309). -/
  | hostOut (te : Nat) (err : Bool) (m : Met)
  /-- UNWRAP (R317). -/
  | unwrap (te : Nat) (keyOk tagOk : Bool) (plain : Bytes) (ecc : List (Nat × Nat × Nat)) (m : Met)
  /-- DRAIN (R308). -/
  | drain (op : Nat)
  /-- TENDER_CHUNK_DONE (R290). -/
  | tenderChunkDone (te op chunk : Nat) (m : Met)
  /-- TENDER_COMPLETE (R300). -/
  | tenderComplete (op : Nat)
  /-- MIGRATION_START (R306). -/
  | migrationStart (kind n : Nat)
  /-- MIGRATION_PASS_END (R307). -/
  | migrationPassEnd (frame : Nat)
  /-- MIGRATION_FINAL_PASS_END (R307). -/
  | migrationFinalPassEnd (frame : Nat) (m : Met)
  /-- MIGRATION_DONE (R307). -/
  | migrationDone (frame : Nat)
  /-- PLACEMENT_MIGRATION_START (R342). -/
  | placementMigrationStart
  /-- PLACE (R341). -/
  | place
  /-- PLACE_ENABLE_WRITE (R342). -/
  | placeEnableWrite (v : Nat)
  /-- BLK_PUT (R314). -/
  | blkPut (port : Nat) (b : Blk) (m : Met)
  /-- BLK_GET (R314). -/
  | blkGet (port : Nat) (b : Blk) (m : Met)
  /-- BLK_GET_DATA (R314). -/
  | blkGetData (port : Nat) (b : Blk) (m : Met)
  /-- MWR (R315). -/
  | blkMwr (port : Nat) (b : Blk) (m : Met)
  /-- ANS (R314). -/
  | blkAns (port : Nat) (b : Blk)
  /-- REMOTE_CHUNK_RESEND (R312). -/
  | remoteChunkResend (xid : Nat) (m : Met)
  /-- REMOTE_TIMEOUT (R312). -/
  | remoteTimeout (xid : Nat)
  /-- PM_RESYNC (R316). -/
  | pmResync (handle : Nat)
  /-- SWEEP_RECORD_TAKE (R321). -/
  | sweepRecordTake
  /-- SWEEP_CHUNK (R320). -/
  | sweepChunk (te rec : Nat) (m : Met)
  /-- SWEEP_FRAME_DONE (R328). -/
  | sweepFrameDone (rec : Nat)
  /-- ENGINE_SHOOTDOWN_ACK (R330). -/
  | engineShootdownAck (unit : Nat)
  /-- TE_ACK_TIMEOUT (R331). -/
  | teAckTimeout (unit : Nat) (m : Met)
  /-- DRAM_QUEUE_ENTER (R344). -/
  | dramQueueEnter (line cls ctx c : Nat)
  /-- CHANNEL_SERVE (R346). -/
  | channelServe (chan : Nat)
  /-- ROW_AUTO_CLOSE (R348). -/
  | rowAutoClose (chan bank : Nat)
  /-- REFRESH_DUE (R351). -/
  | refreshDue (chan bank : Nat)
  /-- REFRESH_DEBT_LIMIT (R352). -/
  | refreshDebtLimit (chan bank : Nat)
  /-- RETRAIN_PERIOD (R354). -/
  | retrainPeriod (chan : Nat)
  /-- RETRAIN_FORCE (R354). -/
  | retrainForce (chan : Nat)
  /-- RANK_POWER_DOWN (R355). -/
  | rankPowerDown (chan rank : Nat)
  /-- CHANNEL_TRAINING_DONE (R353). -/
  | channelTrainingDone (chan : Nat) (ok : Bool)
  /-- CA_PARITY_ALERT (R359). -/
  | caParityAlert (chan : Nat)
  /-- DIMM_PRESENT_CHANGE (R368). -/
  | dimmPresentChange (dimm : Nat) (present : Bool)
  /-- OFFLINE (R366). -/
  | offline (pair : Nat)
  /-- PWR_OFF (R366). -/
  | pwrOff (pair slot : Nat)
  /-- PWR_ON (R366). -/
  | pwrOn (pair slot : Nat)
  /-- DIMM_SETTLE_EXPIRY (R366). -/
  | dimmSettleExpiry (pair slot : Nat) (form : Bool) (mts cap ranks serial : Nat)
  /-- ONLINE (R366). -/
  | online (pair : Nat)
  /-- HBCH_FENCE (R361). -/
  | hbchFence (stack chan : Nat)
  /-- HBM_CHANNEL_FENCED (R364). -/
  | hbmChannelFenced (stack chan : Nat)
  /-- RELAYOUT_FRAME_DONE (R364). -/
  | relayoutFrameDone (stack : Nat)
  /-- RELAYOUT_FRAME_FREED (R364). -/
  | relayoutFrameFreed (stack : Nat)
  /-- CE_WRITEBACK (R375). -/
  | ceWriteback (cw : Nat)
  /-- UE_BUCKET_ROLL (R378). -/
  | ueBucketRoll
  /-- MERGE_HOLD_EXPIRY (R390). -/
  | mergeHoldExpiry (line : Nat) (errs : List DramErr)
  /-- SCRUB_START (R395). -/
  | scrubStart
  /-- SCRUB_CANCEL (R399). -/
  | scrubCancel
  /-- SCRUB_LINE (R397). -/
  | scrubLine (m : Met)
  /-- ALLOC (R402). -/
  | ctxAlloc (ctx : Nat)
  /-- ACTIVATE (R403). -/
  | ctxActivate (ctx : Nat)
  /-- RESET (R406). -/
  | ctxReset (ctx : Nat)
  /-- FREE (R402). -/
  | ctxFree (ctx : Nat)
  /-- CONTEXT_RESET_DRAIN_END (R406). -/
  | contextResetDrainEnd (ctx : Nat) (m : Met)
  /-- CONTEXT_RESET_DONE (R406). -/
  | contextResetDone (ctx : Nat)
  /-- CONTEXT_SWEEP_DONE (R405). -/
  | contextSweepDone (ctx : Nat)
  /-- FRZ_RELEASE (R414). -/
  | frzRelease (agt : Nat)
  /-- POLICER_REFILL (R418). -/
  | policerRefill
  /-- SHAPER_REFILL (R422). -/
  | shaperRefill
  /-- NTF_BUCKET_REFILL (R427). -/
  | ntfBucketRefill
  /-- NTF_RAISE (R425). -/
  | ntfRaise (ctx vec : Nat)
  /-- NOTIFICATION_DELIVER (R426). -/
  | notificationDeliver (ctx vec : Nat)
  /-- VF_FLR (R428). -/
  | vfFlr (port vf : Nat)
  /-- ENTER_SERVICE (R438). -/
  | enterService
  /-- ENTER_MAINTENANCE (R438). -/
  | enterMaintenance
  /-- DECOMMISSION (R440). -/
  | decommission
  /-- ARB_COMMIT (R446). -/
  | arbCommit
  /-- GENERATE (R453). -/
  | keyGenerate (ctx : Nat)
  /-- REKEY (R453). -/
  | keyRekey (ctx : Nat)
  /-- REKEY_CHUNK (R327). -/
  | rekeyChunk (te rec : Nat) (m : Met)
  /-- DM_EXTEND (R448). -/
  | dmExtend (ctx : Nat) (bs : Bytes)
  /-- ATTEST_DEVICE (R451). -/
  | attestDevice
  /-- ATTEST_CONTEXT (R451). -/
  | attestContext (ctx : Nat)
  /-- REPORT_READY (R451). -/
  | reportReady
  /-- LS_HELLO (R458). -/
  | lsHello (port : Nat) (body : Bytes) (k : Vouch)
  /-- LS_REPLY (R459). -/
  | lsReply (port : Nat) (body : Bytes) (k : Vouch)
  /-- LS_FINISH (R458). -/
  | lsFinish (port : Nat) (body : Bytes) (k : Vouch)
  /-- LS_DONE (R458). -/
  | lsDone (port : Nat) (body : Bytes) (k : Vouch)
  /-- LS_ABORT (R463). -/
  | lsAbort (port : Nat)
  /-- LINK_REKEY_DUE (R461). -/
  | linkRekeyDue (port : Nat)
  /-- LK_OFFER (R461). -/
  | lkOffer (port : Nat) (body : Bytes)
  /-- LK_ACCEPT (R461). -/
  | lkAccept (port : Nat) (body : Bytes)
  /-- OLD_KEY_EXPIRE (R461). -/
  | oldKeyExpire (port : Nat)
  /-- LANE_COUNT_LIMIT (R462). -/
  | laneCountLimit (port : Nat)
  /-- LINK_RELEASE (R463). -/
  | linkRelease (port : Nat)
  /-- SET_FORM (R471). -/
  | setForm (slot : Nat)
  /-- SET_DESTROY (R472). -/
  | setDestroy (slot : Nat)
  /-- JOIN_REQ (R471). -/
  | joinReq (src : Nat) (body : Bytes) (k : Vouch)
  /-- JOIN_ACK (R471). -/
  | joinAck (src : Nat) (body : Bytes) (k : Vouch)
  /-- JOIN_KEY (R471). -/
  | joinKey (src : Nat) (body : Bytes) (k : Vouch)
  /-- JOIN_DONE (R471). -/
  | joinDone (src : Nat) (body : Bytes)
  /-- JOIN_TIMEOUT (R471). -/
  | joinTimeout (node : Nat)
  /-- DBG_NONCE_READ (R476). -/
  | dbgNonceRead
  /-- DBG_TOKEN (R475). -/
  | dbgToken (tok : Bytes) (k : Vouch)
  /-- DBG_NONCE_EXPIRE (R476). -/
  | dbgNonceExpire
  /-- JTAG_EXTEST_SELECT (R478). -/
  | jtagExtestSelect
  /-- IDE_KM_REQUEST (R468). -/
  | ideKmRequest (port stream : Nat) (go auth : Bool)
  /-- IDLE_FLIT (R505). -/
  | idleFlit (port : Nat) (f : Flit)
  /-- DATA_FLIT (R505). -/
  | dataFlit (port : Nat) (f : Flit) (m : Met) (k : Vouch)
  /-- CONT_FLIT (R505). -/
  | contFlit (port : Nat) (f : Flit) (m : Met) (k : Vouch)
  /-- HANDSHAKE_FLIT (R457). -/
  | handshakeFlit (port : Nat) (f : Flit) (m : Met) (k : Vouch)
  /-- TRAIN_FLIT (R512). -/
  | trainFlit (port : Nat) (f : Train)
  /-- FLIT_TIME (R506). -/
  | flitTime (port : Nat)
  /-- RTX_TIMER (R506). -/
  | rtxTimer (port : Nat)
  /-- CREDIT_RETURN_DUE (R498). -/
  | creditReturnDue (port : Nat)
  /-- BEACON_IDLE (R508). -/
  | beaconIdle (port pool : Nat)
  /-- DRIFT_RETRAIN (R510). -/
  | driftRetrain (port : Nat)
  /-- FAST_RETRAIN (R514). -/
  | fastRetrain (port : Nat)
  /-- FAST_RETRAIN_DONE (R514). -/
  | fastRetrainDone (port : Nat)
  /-- RETRAIN_LIMIT_EXPIRY (R514). -/
  | retrainLimitExpiry (port : Nat)
  /-- FULL_TRAINING (R513). -/
  | fullTraining (port : Nat)
  /-- FULL_TRAINING_DONE (R513). -/
  | fullTrainingDone (port : Nat) (ok : Bool) (failed : List Nat)
  /-- LANE_FAIL (R516). -/
  | laneFail (port lane cause : Nat)
  /-- PORT_LOSS_TIMEOUT (R518). -/
  | portLossTimeout (port : Nat)
  /-- LINK_DOWN_RETRY (R511). -/
  | linkDownRetry (port : Nat)
  /-- NARROW_IDLE (R519). -/
  | narrowIdle (port : Nat)
  /-- WIDTH_CHANGE_EFFECT (R519). -/
  | widthChangeEffect (port : Nat) (tx : Bool)
  /-- PORT_FENCE (R522). -/
  | portFence (port : Nat)
  /-- PORT_REPAIR (R522). -/
  | portRepair (port : Nat)
  /-- PORT_RETRAIN (R522). -/
  | portRetrain (port : Nat)
  /-- PORT_RESTART (R518). -/
  | portRestart (port : Nat)
  /-- FAULT_RECORD_POST (R532). -/
  | faultRecordPost (ctx : Nat)
  /-- FAULT_BUDGET_REFILL (R534). -/
  | faultBudgetRefill (ctx : Nat)
  /-- FR_COAL_EXPIRY (R530). -/
  | frCoalExpiry (ring : Nat)
  /-- FR_REPOST (R535). -/
  | frRepost (ctx : Nat)
  /-- CLOSE_DONE (R541). -/
  | closeDone (slot : Nat)
  /-- DRAIN_COUNTER_FREE (R543). -/
  | drainCounterFree
  /-- REVOKE_DRAIN_DONE (R543). -/
  | revokeDrainDone (slot : Nat)
  /-- DRAIN_TIMEOUT (R543). -/
  | drainTimeout (slot : Nat)
  /-- RECALL_DONE (R544). -/
  | recallDone (slot : Nat)
  /-- AGENT_LOSS_TIME (R547). -/
  | agentLossTime (agt : Nat)
  /-- AGT_FENCE (R547). -/
  | agtFence (agt : Nat)
  /-- PURGE_WALK_DONE (R553). -/
  | purgeWalkDone (hs agt : Nat)
  /-- AGT_REJOIN (R552). -/
  | agtRejoin (agt : Nat)
  /-- SLICE_FAILOVER (R556). -/
  | sliceFailover (hs : Nat)
  /-- CENSUS_CLOSE (R563). -/
  | censusClose (hs : Nat)
  /-- FAILOVER_HOLD_END (R556). -/
  | failoverHoldEnd (hs : Nat)
  /-- UNK_RELEASE (R569). -/
  | unkRelease (hs can : Nat)
  /-- UNIT_FENCE (R576). -/
  | unitFence (kind phys : Nat) (m : Met)
  /-- ROUTER_FAILURE (R30). -/
  | routerFailure (plane router : Nat) (att : Option (Nat × Nat)) (m : Met)
  /-- ROUTE_DRAIN_DONE (R31). -/
  | routeDrainDone (plane router : Nat)
  /-- UNIT_CMD_FENCE (R577). -/
  | unitCmdFence (kind phys : Nat)
  /-- QUIESCE_DONE (R618). -/
  | quiesceDone (kind phys : Nat) (m : Met)
  /-- UNIT_CMD_REPAIR (R577). -/
  | unitCmdRepair (kind phys : Nat)
  /-- REPAIR_SELFTEST_DONE (R577). -/
  | repairSelftestDone (kind phys : Nat) (ok : Bool)
  /-- UNIT_CMD_SWAP (R578). -/
  | unitCmdSwap (kind phys dest : Nat)
  /-- SWAP_DONE (R578). -/
  | swapDone (kind phys : Nat)
  /-- KEEPER_HEARTBEAT (R580). -/
  | keeperHeartbeat (keeper : Nat)
  /-- KEEPER_FAILOVER (R580). -/
  | keeperFailover
  /-- KEEPER_SWAP (R578). -/
  | keeperSwap
  /-- KEEPER_REPAIR (R577). -/
  | keeperRepair
  /-- PORT_LOST (R585). -/
  | portLost (port : Nat)
  /-- LINK_SYNC (R586). -/
  | linkSync (port lost expected dir salt : Nat)
  /-- LINK_SYNC_TIMEOUT (R588). -/
  | linkSyncTimeout (port : Nat)
  /-- PCIE_PORT_LOST (R589). -/
  | pciePortLost (port : Nat)
  /-- FW_ERASE (R590). -/
  | fwErase
  /-- FW_BLOCK_WRITE (R590). -/
  | fwBlockWrite (bs : Bytes)
  /-- FW_VERIFY (R591). -/
  | fwVerify (sig : Bool)
  /-- FW_ACTIVATE (R591). -/
  | fwActivate
  /-- LOG_ACK (R595). -/
  | logAck (v : Nat)
  /-- PWRGOOD_AON_LOW (R598). -/
  | pwrgoodAonLow
  /-- CORE_BROWN_OUT (R598). -/
  | coreBrownOut
  /-- RST_N_INPUT (R607). -/
  | rstNInput
  /-- WATCHDOG_EXPIRY (R599). -/
  | watchdogExpiry
  /-- RST_CMD_CORE (R602). -/
  | rstCmdCore
  /-- RST_CMD_SYSTEM (R602). -/
  | rstCmdSystem
  /-- DBG_REQ (R601). -/
  | dbgReq
  /-- CLOCK_FAILURE (R598). -/
  | clockFailure
  /-- LOCKUP (R600). -/
  | lockup
  /-- PERST (R603). -/
  | perst (port : Nat)
  /-- EPISODE_END (R604). -/
  | episodeEnd (straps : Nat)
  /-- RST_N_SAMPLE (R606). -/
  | rstNSample (low : Bool)
  /-- TRIM_LOAD_DONE (R610). -/
  | trimLoadDone (ok : Bool)
  /-- OSC_DLY_WAIT_END (R634). -/
  | oscDlyWaitEnd (locks : Nat)
  /-- POWER_ON_BIST_DONE (R613). -/
  | powerOnBistDone (fails : List (Nat × Nat))
  /-- KEEPER_BOOT_DONE (R447). -/
  | keeperBootDone (sigA sigB idOk : Bool) (bad : List Nat)
  /-- PLL_LOCK_LOSS (R628). -/
  | pllLockLoss (pll : Nat)
  /-- PLL_EDGE_LOSS (R630). -/
  | pllEdgeLoss (pll : Nat)
  /-- ROOT_CMD (R628). -/
  | rootCmd
  /-- SREF_LOSS (R632). -/
  | srefLoss (n : Nat)
  /-- PCIE_REFCLK_LOSS (R633). -/
  | pcieRefclkLoss (port : Nat)
  /-- ARITH_DIV_STEP (R625). -/
  | arithDivStep
  /-- FC_START (R635). -/
  | fcStart
  /-- FC_DONE (R635). -/
  | fcDone (edges : Nat) (noEdge : Bool)
  /-- PSTATE_TARGET_WRITE (R637). -/
  | pstateTargetWrite (v : Nat) (llp : Bool)
  /-- P1_GATE_IDLE (R636). -/
  | p1GateIdle (kind phys : Nat)
  /-- P2_IDLE (R638). -/
  | p2Idle
  /-- WAKE_EVENT (R639). -/
  | wakeEvent
  /-- P3_ENTRY (R640). -/
  | p3Entry (m : Met)
  /-- P3_IDLE_TIMEOUT (R640). -/
  | p3IdleTimeout
  /-- P3_EXIT (R642). -/
  | p3Exit (fails : List (Nat × Nat))
  /-- P3_LINK_GRACE_END (R641). -/
  | p3LinkGraceEnd
  /-- THERMAL_SAMPLE (R644). -/
  | thermalSample (ts : List Nat)
  /-- THERMTRIP (R645). -/
  | thermtrip
  /-- ENERGY_BUCKET_UPDATE (R646). -/
  | energyBucketUpdate (rails : List (Bool × Nat))
  /-- GOVERNOR_TICK (R647). -/
  | governorTick
  /-- WEAR_LEDGER_TICK (R649). -/
  | wearLedgerTick (v : Nat)
  /-- READ (R664). -/
  | llRead (sess msg port : Nat) (items : List LlItem)
  /-- WRITE (R664). -/
  | llWrite (sess msg port : Nat) (items : List LlItem) (k : Vouch)
  /-- READ_BLOCK (R667). -/
  | llReadBlock (sess msg port : Nat) (items : List LlItem)
  /-- WRITE_BLOCK (R667). -/
  | llWriteBlock (sess msg port : Nat) (items : List LlItem) (k : Vouch)
  /-- SUBSCRIBE (R674). -/
  | llSubscribe (sess msg port : Nat) (items : List LlItem)
  /-- UNSUBSCRIBE (R674). -/
  | llUnsubscribe (sess msg port : Nat) (items : List LlItem)
  /-- PING (R664). -/
  | llPing (sess msg port : Nat)
  /-- ACK (R674). -/
  | llAck (sess msg : Nat)
  /-- SUBSCRIPTION_CHECK (R674). -/
  | subscriptionCheck (sess : Nat)
  /-- EVENT_RESEND (R674). -/
  | eventResend (sess msg : Nat)
  /-- ACQUIRE (R661). -/
  | leaseAcquire (sess : Nat)
  /-- RENEW (R661). -/
  | leaseRenew (sess : Nat)
  /-- RELEASE (R661). -/
  | leaseRelease (sess : Nat)
  /-- LEASE_EXPIRE (R662). -/
  | leaseExpire
  /-- SS_HELLO (R669). -/
  | ssHello (addr : Nat) (body : Bytes)
  /-- SS_FINISH (R669). -/
  | ssFinish (addr : Nat) (body : Bytes) (k : Vouch)
  /-- LLP_HANDSHAKE_TIMEOUT (R672). -/
  | llpHandshakeTimeout (addr : Nat)
  /-- LLP_IDLE_TIMEOUT (R672). -/
  | llpIdleTimeout (sess : Nat)
  /-- LLP_DATAGRAM (R670). -/
  | llpDatagram (sess ctr msg mgmt : Nat) (tagOk : Bool) (body : Bytes) (k : Vouch)
  /-- MB_CMD (R678). -/
  | mbCmd (port v : Nat) (k : Vouch)
  /-- LLM (R680). -/
  | llm (port tag agt len : Nat) (slots : List Slot) (k : Vouch)
  /-- NV_FLASH_WRITE_DONE (R654). -/
  | nvFlashWriteDone
  /-- PWRGOOD_DRAM_RISE (R689). -/
  | pwrgoodDramRise
  /-- PWRGOOD_CORE_RISE (R689). -/
  | pwrgoodCoreRise
  /-- PCIE_LINK_TRAINING (R698). -/
  | pcieLinkTraining (port : Nat) (flit : Bool) (rate width : Nat)
  /-- PWRGOOD_AON_RISE (R689). -/
  | pwrgoodAonRise (straps : Nat)
  /-- PWRGOOD_DRAM_FALL (R690). -/
  | pwrgoodDramFall
  /-- RST_N_RELEASE (R606). -/
  | rstNRelease
  /-- DBG_REQ_N_RELEASE (R604). -/
  | dbgReqNRelease
  /-- KEEPER_HEARTBEAT_TIMEOUT (R615). -/
  | keeperHeartbeatTimeout (keeper : Nat)
  /-- MGMT_LINK_DOWN (R575). -/
  | mgmtLinkDown (port : Nat)
  /-- FR_HEAD_WRITE (R528). -/
  | frHeadWrite (port ring v : Nat)
  /-- NTF_HEAD_WRITE (R430). -/
  | ntfHeadWrite (port vf v : Nat) (keyed : Bool)
  /-- MB_BUF_WRITE (R678). -/
  | mbBufWrite (port : Nat) (w : DwWrite)
deriving DecidableEq, Repr, Inhabited

end Sys2Proof
end

