-- ==== Sys2Proof/Decode.lean ====
section
/-! DEFINITION. Sys2Proof/Decode.lean: the commands that words spell. The table of this hardware gives no row any bits, so
no word spells a command: a command comes as a message, a pin or an event, whose fields are the operands of `Instr`. -/

namespace Sys2Proof

/-- The command a word of the table spells: none, since spec/opcode_table.json gives no row a field or a bit. -/
def decodeTableWord (_nbits _w : Nat) : Option Instr := none

end Sys2Proof
end

