-- ==== Sys2Proof/Config.lean ====
section
/-! DEFINITION. Sys2Proof/Config.lean: what an implementation fixes, and the free values: opaque constants
with no body, so nothing in Lean can evaluate them and no proof can rest on a value of theirs.
Each is named in a log entry (notes/assumptions). -/

namespace Sys2Proof.Config

/-- DESIGN CHOICE (log 1). Random bytes of the node's generator: byte `i` of draw `n` (R441, keys, nonces). -/
opaque freeByte : Nat → Nat → Byte

/-- DESIGN CHOICE (log 2). A number the spec leaves open (a result it does not state), for draw `n`. -/
opaque freeNat : Nat → Nat

/-- DESIGN CHOICE (log 3). What a byte reads as when its chunk was stored under another key than the one
it is read with: the address, the key stored under, the key read with. -/
opaque garble : Nat → Nat → Nat → Byte

/-- DESIGN CHOICE (log 4). A digest or tag whose algorithm is named by an outside standard and not by the spec's own
words (SHA-256, AES-CMAC, signatures): a number for the algorithm's use, the key and the message. -/
opaque digest : Nat → Nat → Bytes → Nat

/-- DESIGN CHOICE (log 5). The operand function of a tile operation whose result the spec bounds but does not state
bit for bit (R269): the operation's code and the bit patterns of its operands. -/
opaque tileFn : Nat → List Nat → Nat

/-- DESIGN CHOICE (log 6). Facts fused or measured on one part: serial number, stepping, trims, identity. -/
opaque fused : Nat → Nat

/-- DESIGN CHOICE (log 14). The organisation of a DRAM channel, which the parts fitted decide: for kind 0 the number of banks
(0 DDR5, 1 HBM), for kind 1 the row of a chunk, for kind 2 the rank of a chunk, for kind 3 the refresh debt an HBM stack
allows. -/
opaque dramFact : Nat → Nat → Nat

/-- DESIGN CHOICE (log 89). The routes of the mesh, whose bypass and path choice the spec leaves open (R29, R30): for a plane, the routers
bypassed on it, a source port and a destination slice's physical number, a number that names the route; 0 none is left. -/
opaque meshRoute : Nat → List Nat → Nat → Nat → Nat

/-- DESIGN CHOICE (log 29). The code of an event that the spec has logged without a code of its own: for the rule's number. -/
opaque eventCode : Nat → Nat

end Sys2Proof.Config
end

