-- ==== Sys2Proof/Machine/Arith.lean ====
section
/-! DEFINITION. Sys2Proof/Machine/Arith.lean: the storage formats and their exact conversions (R197-R217), MX blocks,
SB32, the stochastic-rounding generator (R215) and CRC-64/XZ (R69). -/

namespace Sys2Proof.Machine

open Sys2Proof

/-- An exact value: a dyadic number with a sign, an infinity, or a NaN (R201: every NaN is alike). -/
inductive Val where
  | fin (neg : Bool) (m : Nat) (e : Int)
  | inf (neg : Bool)
  | nan
deriving DecidableEq, Repr, Inhabited

/-- The layout of a binary floating format: exponent and mantissa bits, bias, whether all-ones exponents
are specials as in IEEE 754, and whether only the all-ones pattern is NaN (E4M3). -/
structure Fp where
  eb : Nat
  mb : Nat
  bias : Int
  ieee : Bool
  e4m3 : Bool
deriving DecidableEq, Repr

/-- The floating layouts of Table 2 of the formats chapter, by format code (R198); MX codes give the element. -/
def fpOf : Nat → Option Fp
  | 0x0 => some ⟨11, 52, 1023, true, false⟩
  | 0x1 => some ⟨8, 23, 127, true, false⟩
  | 0x2 => some ⟨8, 7, 127, true, false⟩
  | 0x3 => some ⟨5, 10, 15, true, false⟩
  | 0x4 => some ⟨4, 3, 7, false, true⟩
  | 0x5 => some ⟨5, 2, 15, true, false⟩
  | 0x6 => some ⟨4, 3, 7, false, true⟩
  | 0x7 => some ⟨3, 2, 3, false, false⟩
  | 0x8 => some ⟨2, 3, 1, false, false⟩
  | 0x9 => some ⟨2, 1, 1, false, false⟩
  | _ => none

/-- The integer formats and MXINT8 elements: their width (R198). -/
def intOf : Nat → Option Nat
  | 0xA => some 8
  | 0xB => some 32
  | 0xC => some 8
  | 0xD => some 4
  | _ => none

/-- Bits per element of a storage format (R198). -/
def fmtBits : Nat → Nat
  | 0x0 => 64 | 0x1 => 32 | 0x2 => 16 | 0x3 => 16 | 0x4 => 8 | 0x5 => 8 | 0x6 => 8 | 0x7 => 6
  | 0x8 => 6 | 0x9 => 4 | 0xA => 8 | 0xB => 32 | 0xC => 8 | 0xD => 4 | 0xE => 32 | _ => 0

/-- The format is one of the MX formats (R206). -/
def isMx (f : Nat) : Bool := decide (6 ≤ f ∧ f ≤ 0xA)

/-- Two to an integer power times a natural number, as an exact value. -/
def Val.scale : Val → Int → Val
  | .fin n m e, k => .fin n m (e + k)
  | v, _ => v

def Val.neg : Val → Val
  | .fin n m e => .fin (!n) m e
  | .inf n => .inf (!n)
  | .nan => .nan

def Val.isNeg : Val → Bool
  | .fin n _ _ => n
  | .inf n => n
  | .nan => false

def Val.isNan : Val → Bool
  | .nan => true
  | _ => false

def Val.isInf : Val → Bool
  | .inf _ => true
  | _ => false

def Val.isZero : Val → Bool
  | .fin _ 0 _ => true
  | _ => false

/-- m × 2^(e - k) for k at most e: the integer mantissa at a common exponent. -/
def alignTo (m : Nat) (e k : Int) : Nat := m * 2 ^ (e - k).toNat

/-- The exact sum of two values; opposite infinities and NaNs give NaN (R224). -/
def Val.add : Val → Val → Val
  | .nan, _ => .nan
  | _, .nan => .nan
  | .inf a, .inf b => if a = b then .inf a else .nan
  | .inf a, _ => .inf a
  | _, .inf b => .inf b
  | .fin n1 m1 e1, .fin n2 m2 e2 =>
    let k := min e1 e2
    let a : Int := alignTo m1 e1 k
    let b : Int := alignTo m2 e2 k
    let s := (if n1 then -a else a) + (if n2 then -b else b)
    if s = 0 then .fin (n1 && n2) 0 k else .fin (decide (s < 0)) s.natAbs k

/-- The exact product; zero times infinity is NaN. -/
def Val.mul : Val → Val → Val
  | .nan, _ => .nan
  | _, .nan => .nan
  | .inf a, .inf b => .inf (a != b)
  | .inf a, .fin n m _ => if m = 0 then .nan else .inf (a != n)
  | .fin n m _, .inf a => if m = 0 then .nan else .inf (a != n)
  | .fin n1 m1 e1, .fin n2 m2 e2 => .fin (n1 != n2) (m1 * m2) (e1 + e2)

/-- Numerical comparison, none when either is NaN. -/
def Val.lt? : Val → Val → Option Bool
  | .nan, _ => none
  | _, .nan => none
  | .inf a, .inf b => some (a && !b)
  | .inf a, _ => some a
  | _, .inf b => some (!b)
  | .fin n1 m1 e1, .fin n2 m2 e2 =>
    let k := min e1 e2
    let a : Int := alignTo m1 e1 k
    let b : Int := alignTo m2 e2 k
    some (decide ((if n1 then -a else a) < (if n2 then -b else b)))

/-- Floor of the base-2 logarithm of a nonzero magnitude. -/
def floorLog (m : Nat) (e : Int) : Int := (Nat.log2 m : Int) + e

/-- Rounding modes (R213): the code and, for stochastic rounding, the draw. -/
inductive Rnd where
  | rne
  | rtz
  | sr (r : Nat)
deriving DecidableEq, Repr

/-- Round m × 2^e to a whole multiple of 2^q (R213, R214). -/
def roundAt (md : Rnd) (m : Nat) (e q : Int) : Nat :=
  if q ≤ e then m * 2 ^ (e - q).toNat
  else
    let d := 2 ^ (q - e).toNat
    let k := m / d
    let r := m % d
    match md with
    | .rtz => k
    | .rne => if d < 2 * r ∨ (2 * r = d ∧ k % 2 = 1) then k + 1 else k
    | .sr x => if 2 ^ 16 ≤ 2 ^ 16 * r / d + x ∧ r ≠ 0 then k + 1 else k

/-- The result of one conversion: the encoded bits, whether it saturated or overflowed, and whether a NaN became
an integer zero (R217). -/
structure Conv where
  enc : Nat
  sat : Bool
  nanInt : Bool
deriving DecidableEq, Repr, Inhabited

/-- The largest finite encoding of a floating layout, sign aside. -/
def Fp.maxEnc (p : Fp) : Nat :=
  if p.ieee then (2 ^ p.eb - 1) * 2 ^ p.mb - 1
  else if p.e4m3 then 2 ^ (p.eb + p.mb) - 2
  else 2 ^ (p.eb + p.mb) - 1

/-- The sign bit of a floating layout, in place. -/
def Fp.sign (p : Fp) (n : Bool) : Nat := if n then 2 ^ (p.eb + p.mb) else 0

/-- The canonical NaN of a floating layout (R198, R201). -/
def Fp.nanEnc (p : Fp) : Nat :=
  if p.ieee then (2 ^ p.eb - 1) * 2 ^ p.mb + 2 ^ (p.mb - 1) else if p.e4m3 then 2 ^ (p.eb + p.mb) - 1 else 0

/-- The exact value of an encoding of a floating layout (R198, R202). -/
def Fp.decode (p : Fp) (x : Nat) : Val :=
  let man := x % 2 ^ p.mb
  let ex := x / 2 ^ p.mb % 2 ^ p.eb
  let n := x.testBit (p.eb + p.mb)
  if p.ieee && ex == 2 ^ p.eb - 1 then (if man = 0 then .inf n else .nan)
  else if p.e4m3 && x % 2 ^ (p.eb + p.mb) == 2 ^ (p.eb + p.mb) - 1 then .nan
  else if ex = 0 then .fin n man (1 - p.bias - p.mb)
  else .fin n (2 ^ p.mb + man) ((ex : Int) - p.bias - p.mb)

/-- Round a value into a floating layout; `satur` makes an overflow saturate (E4M3 and MX elements, Table 5). -/
def Fp.encode (p : Fp) (satur : Bool) (md : Rnd) : Val → Conv
  | .nan => ⟨p.nanEnc, false, false⟩
  | .inf n =>
    if satur || !p.ieee then ⟨p.sign n + p.maxEnc, true, false⟩ else ⟨p.sign n + p.maxEnc + 1, false, false⟩
  | .fin n m e =>
    if m = 0 then ⟨p.sign n, false, false⟩
    else
      let qmin := 1 - p.bias - p.mb
      let q := max (floorLog m e - p.mb) qmin
      let k := roundAt md m e q
      let enc := (q - qmin).toNat * 2 ^ p.mb + k
      if enc ≤ p.maxEnc then ⟨p.sign n + enc, false, false⟩
      else if satur || !p.ieee || md == .rtz then ⟨p.sign n + p.maxEnc, true, false⟩
      else ⟨p.sign n + p.maxEnc + 1, true, false⟩

/-- Two's complement encoding of a rounded integer, saturated to `w` bits (Table 5). -/
def intEncode (w : Nat) (md : Rnd) : Val → Conv
  | .nan => ⟨0, false, true⟩
  | .inf n => ⟨if n then 2 ^ (w - 1) else 2 ^ (w - 1) - 1, true, false⟩
  | .fin n m e =>
    let k := roundAt md m e 0
    if n then
      (if k ≤ 2 ^ (w - 1) then ⟨(2 ^ w - k) % 2 ^ w, false, false⟩ else ⟨2 ^ (w - 1), true, false⟩)
    else
      (if k < 2 ^ (w - 1) then ⟨k, false, false⟩ else ⟨2 ^ (w - 1) - 1, true, false⟩)

/-- The exact value of a two's complement integer of `w` bits. -/
def intDecode (w x : Nat) : Val :=
  let y := x % 2 ^ w
  if y < 2 ^ (w - 1) then .fin false y 0 else .fin true (2 ^ w - y) 0

/-- An MXINT8 element: two's complement times 2^-6, saturated to a magnitude of 127/64 (R198, R209). -/
def mxInt8Encode (md : Rnd) : Val → Conv
  | .nan => ⟨0, false, false⟩
  | .inf n => ⟨if n then 129 else 127, true, false⟩
  | .fin n m e =>
    let k := roundAt md m (e + 6) 0
    let s := min k 127
    ⟨if n then (256 - s) % 256 else s, decide (127 < k), false⟩

/-- The exact value of an SB32 element from its high part and residual (R204). A sum of zero keeps the sign of the high part, so that the
sign of zero survives a conversion to SB32 and back (R202). -/
def sbDecode (hi lo : Nat) : Val :=
  match fpOf 2 with
  | none => .nan
  | some p =>
    match p.decode hi with
    | .fin n m e =>
      let v := Val.add (.fin n m e) (p.decode lo)
      if v.isZero then .fin n 0 0 else v
    | v => v

/-- An SB32 element: high part and residual, and the saturation flag of the high part (R205). The residual of a
finite source whose high part overflows to infinity is not stated: a free value (log 2). -/
def sbEncode (mdHi mdLo : Rnd) (v : Val) : Nat × Nat × Bool :=
  match fpOf 2 with
  | none => (0, 0, false)
  | some p =>
    let h := p.encode false mdHi v
    match v, p.decode h.enc with
    | .fin _ _ _, .fin n m e => (h.enc, (p.encode false mdLo (Val.add v (.fin (!n) m e))).enc, h.sat)
    | .fin _ _ _, _ => (h.enc, Config.tileFn 0x5B [h.enc] % 65536, h.sat)
    | _, _ => (h.enc, 0, h.sat)

/-- The exact value of one element of a format that is not MX or SB32, by its bits. -/
def elemDecode (f x : Nat) : Val :=
  match fpOf f, intOf f with
  | some p, _ => p.decode x
  | none, some w => intDecode w x
  | none, none => .nan

/-- The conversion of a value into one element of a format that is not MX or SB32 (R212, R216). -/
def elemEncode (f : Nat) (md : Rnd) (v : Val) : Conv :=
  match fpOf f, intOf f with
  | some p, _ => p.encode false md v
  | none, some w => intEncode w md v
  | none, none => ⟨0, false, false⟩

/-- The exact value of one MX element under a block scale (R200, R206). -/
def mxDecode (f scale x : Nat) : Val :=
  if scale = 255 then .nan
  else
    let v := if f = 0xA then (intDecode 8 x).scale (-6) else match fpOf f with
      | some p => p.decode x
      | none => .nan
    v.scale ((scale : Int) - 127)

/-- The exponent of the largest normal value of an MX element format (R209). -/
def mxTop : Nat → Int
  | 6 => 8 | 7 => 4 | 8 => 2 | 9 => 2 | _ => 0

/-- The largest finite magnitude of a format as an exact value (for R210); that of SB32 is its BF16 parts'. -/
def maxFinite (f : Nat) : Val :=
  match fpOf (if f = 0xE then 2 else f) with
  | some p => p.decode p.maxEnc
  | none => .fin false 1 0

/-- The larger floor-logarithm of two magnitudes, none for zero. -/
def logMax (a : Option Int) : Val → Option Int
  | .fin _ m e => if m = 0 then a else some (match a with
    | none => floorLog m e
    | some x => max x (floorLog m e))
  | _ => a

/-- Encode a block of 32 values into an MX format (R209, R210): the scale byte and each element's conversion. The elements of a block of
zeros keep their signs (R202). `src` is the source format; `mds` gives each element's rounding. -/
def mxConvs (f src : Nat) (vs : List Val) (mds : List Rnd) : Nat × List Conv :=
  if vs.any Val.isNan then (255, vs.map (fun _ => ⟨0, false, false⟩))
  else
    let lg := vs.foldl (fun a v => logMax a (if v.isInf then maxFinite src else v)) none
    let x : Int := match lg with
      | none => 0
      | some l => max (-127) (min 127 (l - mxTop f))
    ((x + 127).toNat, (vs.zip mds).map (fun vm =>
      if f = 0xA then mxInt8Encode vm.2 (vm.1.scale (-x))
      else match fpOf f with
        | some p => p.encode true vm.2 (vm.1.scale (-x))
        | none => ⟨0, false, false⟩))

/-- The scale byte, the element bits and the saturation count of an encoded block (R209, R210). -/
def mxEncode (f src : Nat) (vs : List Val) (mds : List Rnd) : Nat × List Nat × Nat :=
  let b := mxConvs f src vs mds
  (b.1, b.2.map Conv.enc, (b.2.filter Conv.sat).length)

/-- The bits of element `i` of width `w`, packed from bit 0 upward (R199). -/
def unpack (w i : Nat) (bs : Bytes) : Nat :=
  let o := i * w
  leNat (slice (o / 8) 9 bs) / 2 ^ (o % 8) % 2 ^ w

/-- Elements of width `w` packed from bit 0 upward into bytes (R199). -/
def packElems (w : Nat) (xs : List Nat) : Bytes :=
  natLe (ceilDiv (xs.length * w) 8) (xs.foldr (fun x a => x % 2 ^ w + 2 ^ w * a) 0)

/-- One step of a tile's generator (R215). -/
def srStep (x : BitVec 64) : BitVec 64 :=
  let a := x ^^^ (x <<< 13)
  let b := a ^^^ (a >>> 7)
  b ^^^ (b <<< 17)

/-- The generator of a tile within a strip: its state and how many draws of the step are used. -/
structure SrGen where
  x : BitVec 64
  used : Nat
deriving DecidableEq, Repr, Inhabited

/-- The generator at the start of strip `k` of a job (R215). -/
def SrGen.seed (seed k : Nat) : SrGen :=
  let v : BitVec 64 := BitVec.ofNat 64 seed ^^^ BitVec.ofNat 64 (k * 0x9E3779B97F4A7C15)
  ⟨if v = 0 then 1 else v, 4⟩

/-- Take one 16-bit draw (R215). -/
def SrGen.draw (g : SrGen) : Nat × SrGen :=
  if g.used < 4 then (bits g.x.toNat (16 * g.used) 16, ⟨g.x, g.used + 1⟩)
  else
    let y := srStep g.x
    (bits y.toNat 0 16, ⟨y, 1⟩)

/-- The rounding of a code for the next element: SR takes a draw (R213, R215). -/
def SrGen.rnd (g : SrGen) (code : Nat) : Rnd × SrGen :=
  match code with
  | 0 => (.rne, g)
  | 1 => (.rtz, g)
  | _ => let d := g.draw; (.sr d.1, d.2)

/-- `n` roundings in element order. -/
def SrGen.rnds (code : Nat) : Nat → SrGen → List Rnd × SrGen
  | 0, g => ([], g)
  | n + 1, g =>
    let d := g.rnd code
    let r := SrGen.rnds code n d.2
    (d.1 :: r.1, r.2)

/-- One bit of CRC-64/XZ, reflected. -/
def crcBit (c : Nat) : Nat :=
  if c % 2 = 1 then (c / 2) ^^^ 0xC96C5795D7870F42 else c / 2

/-- One byte of CRC-64/XZ. -/
def crcByte (c : Nat) (b : Byte) : Nat :=
  crcBit (crcBit (crcBit (crcBit (crcBit (crcBit (crcBit (crcBit (c ^^^ b.toNat))))))))

/-- CRC-64/XZ over a string of bytes (R69). -/
def crc64 (bs : Bytes) : Nat := bs.foldl crcByte 0xFFFFFFFFFFFFFFFF ^^^ 0xFFFFFFFFFFFFFFFF

end Sys2Proof.Machine
end

