-- ==== Sys2Proof/Machine/Objects.lean ====
section
/-! DEFINITION. Sys2Proof/Machine/Objects.lean: every object of the Light List (R651, R652) as the object tables of the
chapters give it: index and subindex, type, access, retention class, default, plain value check, and the selector
that says which item it shows (R660). Checks that need other state are in Machine/LightList.lean. -/

namespace Sys2Proof.Machine

/-- Whose scope an object lies in: the device, each context, or each Boroc port (index base 0x4000 + 0x10 × port). -/
inductive Scope where
  | dev
  | ctx
  | port
deriving DecidableEq, Repr

/-- Object types (R652). -/
inductive OTy where
  | bool
  | u (n : Nat)
  | f32
  | oct (n : Nat)
  | cmd
deriving DecidableEq, Repr

/-- Access codes (R12). -/
inductive Acc where
  | ro
  | rw
  | wo
  | w1c
  | cmd
deriving DecidableEq, Repr

/-- Retention classes (R643). -/
inductive Cls where
  | n
  | s
  | c
  | v
  | x
deriving DecidableEq, Repr

/-- The plain check of a written value: anything, at most n, within a range, or with reserved bits ignored (R5). -/
inductive Chk where
  | any
  | upto (n : Nat)
  | rng (lo hi : Nat)
  | mask (m : Nat)
deriving DecidableEq, Repr

/-- One row of an object table. `sel` is the key of the selector that names the item shown, 0 for none;
`isSel` says the object is itself a selector, of which every session has its own copy (R660). -/
structure Obj where
  scope : Scope
  index : Nat
  lo : Nat
  hi : Nat
  ty : OTy
  acc : Acc
  cls : Cls
  dflt : Nat
  chk : Chk
  sel : Nat
  isSel : Bool
deriving DecidableEq, Repr

/-- The number under which an object is known: its index and first subindex. -/
def Obj.id (o : Obj) : Nat := o.index * 256 + o.lo

/-- The table key of one value: the object, the item `a` (context, port or selected item) and the place `b`. -/
def Obj.key (o : Obj) (a b : Nat) : Nat := (o.id * 2 ^ 24 + a) * 2 ^ 8 + b

/-- The length of a value in bytes (R652). -/
def OTy.len : OTy → Nat
  | .bool => 1
  | .u n => n
  | .f32 => 4
  | .oct n => n
  | .cmd => 4

namespace O

/-- R25. -/
def inventory_seq : Obj := ⟨.dev, 0x3000, 0x00, 0x00, .u 4, .ro, .c, 0, .any, 0, false⟩
/-- R25. -/
def hs_phys : Obj := ⟨.dev, 0x3001, 0x00, 0x23, .u 4, .ro, .c, 0, .any, 0, false⟩
/-- R25. -/
def ct_phys : Obj := ⟨.dev, 0x3002, 0x00, 0x43, .u 4, .ro, .c, 0, .any, 0, false⟩
/-- R25. -/
def te_phys : Obj := ⟨.dev, 0x3003, 0x00, 0x11, .u 4, .ro, .c, 0, .any, 0, false⟩
/-- R25. -/
def hs_map : Obj := ⟨.dev, 0x3004, 0x00, 0x1F, .u 2, .ro, .n, 0, .any, 0, false⟩
/-- R25. -/
def ct_map : Obj := ⟨.dev, 0x3005, 0x00, 0x3F, .u 2, .ro, .n, 0, .any, 0, false⟩
/-- R25. -/
def te_map : Obj := ⟨.dev, 0x3006, 0x00, 0x0F, .u 2, .ro, .n, 0, .any, 0, false⟩
/-- R93. -/
def node_number : Obj := ⟨.dev, 0x6000, 0x00, 0x00, .u 2, .rw, .n, 4095, .upto 0xFFF, 0, false⟩
/-- R93. -/
def chart_free : Obj := ⟨.dev, 0x6001, 0x00, 0x00, .u 4, .ro, .c, 524288, .any, 0, false⟩
/-- R93. -/
def chart_ecc_events : Obj := ⟨.dev, 0x6002, 0x00, 0x00, .u 4, .ro, .c, 0, .any, 0, false⟩
/-- R93. -/
def frames_free_hbm : Obj := ⟨.dev, 0x6003, 0x01, 0x01, .u 4, .ro, .c, 4088, .any, 0, false⟩
/-- R93. -/
def frames_free_ddr : Obj := ⟨.dev, 0x6003, 0x02, 0x02, .u 4, .ro, .c, 196608, .any, 0, false⟩
/-- R93. -/
def ptc_misses : Obj := ⟨.dev, 0x6004, 0x00, 0x17, .u 8, .ro, .c, 0, .any, 0, false⟩
/-- R93. -/
def ext_op : Obj := ⟨.dev, 0x6010, 0x01, 0x01, .cmd, .cmd, .c, 0, .any, 0, false⟩
/-- R93. -/
def ext_ctx : Obj := ⟨.dev, 0x6010, 0x02, 0x02, .u 2, .rw, .c, 0, .any, 0, false⟩
/-- R93. -/
def ext_count : Obj := ⟨.dev, 0x6010, 0x03, 0x03, .u 4, .rw, .c, 0, .any, 0, false⟩
/-- R93. -/
def ext_place : Obj := ⟨.dev, 0x6010, 0x04, 0x04, .u 1, .rw, .c, 0, .any, 0, false⟩
/-- R93. -/
def ext_mirror : Obj := ⟨.dev, 0x6010, 0x05, 0x05, .u 1, .rw, .c, 0, .upto 2, 0, false⟩
/-- R93. -/
def ext_peer : Obj := ⟨.dev, 0x6010, 0x06, 0x06, .oct 24, .rw, .c, 0, .any, 0, false⟩
/-- R93. -/
def ext_handle : Obj := ⟨.dev, 0x6010, 0x07, 0x07, .u 4, .rw, .c, 0, .any, 0, false⟩
/-- R93. -/
def ext_remoor : Obj := ⟨.dev, 0x6010, 0x08, 0x08, .bool, .rw, .c, 0, .any, 0, false⟩
/-- R93. -/
def ext_cap : Obj := ⟨.dev, 0x6010, 0x09, 0x09, .u 1, .rw, .c, 0, .any, 0, false⟩
/-- R93. -/
def ext_result : Obj := ⟨.dev, 0x6010, 0x0A, 0x0A, .u 1, .ro, .c, 0, .any, 0, false⟩
/-- R93. -/
def ext_select : Obj := ⟨.dev, 0x6012, 0x00, 0x00, .u 4, .rw, .c, 0, .any, 0, true⟩
/-- R93. -/
def ext_state : Obj := ⟨.dev, 0x6013, 0x01, 0x01, .u 1, .ro, .c, 0, .any, 0x601200, false⟩
/-- R93. -/
def ext_owner : Obj := ⟨.dev, 0x6013, 0x02, 0x02, .u 2, .ro, .c, 0, .any, 0x601200, false⟩
/-- R93. -/
def ext_frames : Obj := ⟨.dev, 0x6013, 0x03, 0x03, .u 4, .ro, .c, 0, .any, 0x601200, false⟩
/-- R93. -/
def ext_grant_epoch : Obj := ⟨.dev, 0x6013, 0x04, 0x04, .u 2, .ro, .c, 0, .any, 0x601200, false⟩
/-- R93. -/
def ext_sharers : Obj := ⟨.dev, 0x6013, 0x05, 0x05, .oct 16, .ro, .c, 0, .any, 0x601200, false⟩
/-- R93. -/
def ext_frame_index : Obj := ⟨.dev, 0x6013, 0x06, 0x06, .u 4, .rw, .c, 0, .any, 0, true⟩
/-- R93. -/
def ext_frame_at : Obj := ⟨.dev, 0x6013, 0x07, 0x07, .u 8, .ro, .c, 0, .any, 0x601200, false⟩
/-- R93. -/
def grant_handle : Obj := ⟨.dev, 0x6014, 0x01, 0x01, .u 4, .rw, .c, 0, .any, 0, false⟩
/-- R93; a value above 4,094 is rejected, since no node has it (R89) [DEDUCED, log 102]. -/
def grant_node : Obj := ⟨.dev, 0x6014, 0x02, 0x02, .u 2, .rw, .c, 0, .upto 4094, 0, false⟩
/-- R93. -/
def grant_rights : Obj := ⟨.dev, 0x6014, 0x03, 0x03, .u 1, .rw, .c, 0, .mask 7, 0, false⟩
/-- R93. -/
def grant_issue : Obj := ⟨.dev, 0x6014, 0x04, 0x04, .cmd, .cmd, .c, 0, .any, 0, false⟩
/-- R93. -/
def grant_out : Obj := ⟨.dev, 0x6014, 0x05, 0x05, .oct 16, .ro, .c, 0, .any, 0, false⟩
/-- R93. -/
def bind_select : Obj := ⟨.dev, 0x6020, 0x00, 0x00, .u 2, .rw, .c, 0, .upto 4095, 0, true⟩
/-- R93. -/
def binding : Obj := ⟨.dev, 0x6021, 0x01, 0x08, .u 4, .rw, .c, 0, .any, 0x602000, false⟩
/-- R93. -/
def unbind_grace : Obj := ⟨.dev, 0x6022, 0x00, 0x00, .u 4, .rw, .n, 10000, .any, 0, false⟩
/-- R93. -/
def bind_mismatches : Obj := ⟨.dev, 0x6023, 0x00, 0x00, .u 4, .ro, .c, 0, .any, 0, false⟩
/-- R94. -/
def win_base : Obj := ⟨.ctx, 0x500, 0x01, 0x01, .u 4, .rw, .c, 0, .any, 0, false⟩
/-- R94. -/
def win_count : Obj := ⟨.ctx, 0x500, 0x02, 0x02, .u 4, .rw, .c, 0, .any, 0, false⟩
/-- R94. -/
def win_gen : Obj := ⟨.ctx, 0x500, 0x03, 0x03, .u 4, .ro, .c, 0, .any, 0, false⟩
/-- R94. -/
def owner_port : Obj := ⟨.ctx, 0x500, 0x04, 0x04, .u 1, .rw, .c, 0, .upto 1, 0, false⟩
/-- R94. -/
def commits_ok : Obj := ⟨.ctx, 0x500, 0x05, 0x05, .u 4, .ro, .c, 0, .any, 0, false⟩
/-- R94. -/
def commits_rejected : Obj := ⟨.ctx, 0x500, 0x06, 0x06, .u 4, .ro, .c, 0, .any, 0, false⟩
/-- R94. -/
def last_reject : Obj := ⟨.ctx, 0x500, 0x07, 0x07, .u 4, .ro, .c, 0, .any, 0, false⟩
/-- R94. -/
def extents : Obj := ⟨.ctx, 0x500, 0x08, 0x08, .u 4, .ro, .c, 0, .any, 0, false⟩
/-- R140. -/
def agt_select : Obj := ⟨.dev, 0x50C0, 0x00, 0x00, .u 2, .rw, .c, 0, .upto 4095, 0, true⟩
/-- R140. -/
def reach_mask : Obj := ⟨.dev, 0x50C1, 0x01, 0x01, .u 4, .rw, .c, 0, .mask 0xFFFFFF, 0x50C000, false⟩
/-- R140. -/
def outstanding : Obj := ⟨.dev, 0x50C1, 0x02, 0x02, .u 2, .ro, .c, 0, .any, 0x50C000, false⟩
/-- R140. -/
def retry_early : Obj := ⟨.dev, 0x50C1, 0x03, 0x03, .u 4, .ro, .c, 0, .any, 0x50C000, false⟩
/-- R140. -/
def snoop_late : Obj := ⟨.dev, 0x50C1, 0x04, 0x04, .u 4, .ro, .c, 0, .any, 0x50C000, false⟩
/-- R140. -/
def protocol_errors : Obj := ⟨.dev, 0x50C1, 0x05, 0x05, .u 4, .ro, .c, 0, .any, 0x50C000, false⟩
/-- R140. -/
def snoop_bound : Obj := ⟨.dev, 0x50C2, 0x00, 0x00, .u 4, .rw, .n, 10, .any, 0, false⟩
/-- R140. -/
def snoop_timeout : Obj := ⟨.dev, 0x50C3, 0x00, 0x00, .u 4, .rw, .n, 100, .any, 0, false⟩
/-- R140. -/
def retry_early_limit : Obj := ⟨.dev, 0x50C4, 0x00, 0x00, .u 2, .rw, .n, 64, .any, 0, false⟩
/-- R140. -/
def protocol_errors_all : Obj := ⟨.dev, 0x50C5, 0x00, 0x00, .u 8, .ro, .c, 0, .any, 0, false⟩
/-- R196. -/
def coh_select : Obj := ⟨.dev, 0x5000, 0x00, 0x00, .u 1, .rw, .c, 0, .upto 31, 0, true⟩
/-- R196. -/
def dir_used : Obj := ⟨.dev, 0x5001, 0x01, 0x01, .u 4, .ro, .c, 0, .any, 0x500000, false⟩
/-- R196. -/
def dir_group : Obj := ⟨.dev, 0x5001, 0x02, 0x02, .u 4, .ro, .c, 0, .any, 0x500000, false⟩
/-- R196. -/
def busy_lines : Obj := ⟨.dev, 0x5001, 0x03, 0x03, .u 2, .ro, .c, 0, .any, 0x500000, false⟩
/-- R196. -/
def acc_lines : Obj := ⟨.dev, 0x5001, 0x04, 0x04, .u 4, .ro, .c, 0, .any, 0x500000, false⟩
/-- R196. -/
def dir_evictions : Obj := ⟨.dev, 0x5001, 0x05, 0x05, .u 8, .ro, .c, 0, .any, 0x500000, false⟩
/-- R196. -/
def retry_wait_full : Obj := ⟨.dev, 0x5001, 0x06, 0x06, .u 8, .ro, .c, 0, .any, 0x500000, false⟩
/-- R196. -/
def retry_set_busy : Obj := ⟨.dev, 0x5001, 0x07, 0x07, .u 8, .ro, .c, 0, .any, 0x500000, false⟩
/-- R196. -/
def snoops_sent : Obj := ⟨.dev, 0x5001, 0x08, 0x08, .u 8, .ro, .c, 0, .any, 0x500000, false⟩
/-- R196. -/
def owner_sourced : Obj := ⟨.dev, 0x5001, 0x09, 0x09, .u 8, .ro, .c, 0, .any, 0x500000, false⟩
/-- R196. -/
def name_recalls : Obj := ⟨.dev, 0x5001, 0x0A, 0x0A, .u 8, .ro, .c, 0, .any, 0x500000, false⟩
/-- R196. -/
def coh_errors : Obj := ⟨.dev, 0x5001, 0x0B, 0x0B, .u 4, .ro, .c, 0, .any, 0x500000, false⟩
/-- R196. -/
def coh_err_last : Obj := ⟨.dev, 0x5001, 0x0C, 0x0C, .oct 16, .ro, .c, 0, .any, 0x500000, false⟩
/-- R196. -/
def wait_backoff : Obj := ⟨.dev, 0x5002, 0x00, 0x00, .u 1, .rw, .n, 1, .rng 1 15, 0, false⟩
/-- R196. -/
def set_busy_backoff : Obj := ⟨.dev, 0x5003, 0x00, 0x00, .u 1, .rw, .n, 3, .rng 1 15, 0, false⟩
/-- R196. -/
def grant_records : Obj := ⟨.dev, 0x5004, 0x00, 0x17, .u 2, .ro, .c, 0, .any, 0, false⟩
/-- R196. -/
def can_select : Obj := ⟨.dev, 0x5008, 0x00, 0x00, .u 2, .rw, .c, 0, .upto 1023, 0, true⟩
/-- R196. -/
def can_agent : Obj := ⟨.dev, 0x5009, 0x01, 0x01, .u 2, .rw, .c, 0, .any, 0x500800, false⟩
/-- R243. -/
def arith_select : Obj := ⟨.dev, 0x5040, 0x00, 0x00, .u 1, .rw, .c, 0, .upto 31, 0, true⟩
/-- R243. -/
def acc_adds : Obj := ⟨.dev, 0x5041, 0x01, 0x01, .u 8, .ro, .c, 0, .any, 0x504000, false⟩
/-- R243. -/
def acc_hits : Obj := ⟨.dev, 0x5041, 0x02, 0x02, .u 8, .ro, .c, 0, .any, 0x504000, false⟩
/-- R243. -/
def acc_fills : Obj := ⟨.dev, 0x5041, 0x03, 0x03, .u 8, .ro, .c, 0, .any, 0x504000, false⟩
/-- R243. -/
def acc_writebacks : Obj := ⟨.dev, 0x5041, 0x04, 0x04, .u 8, .ro, .c, 0, .any, 0x504000, false⟩
/-- R243. -/
def acc_evictions : Obj := ⟨.dev, 0x5041, 0x05, 0x05, .u 8, .ro, .c, 0, .any, 0x504000, false⟩
/-- R243. -/
def acc_retry : Obj := ⟨.dev, 0x5041, 0x06, 0x06, .u 8, .ro, .c, 0, .any, 0x504000, false⟩
/-- R243. -/
def acc_overflow : Obj := ⟨.dev, 0x5041, 0x07, 0x07, .u 8, .ro, .c, 0, .any, 0x504000, false⟩
/-- R243. -/
def acc_nan : Obj := ⟨.dev, 0x5041, 0x08, 0x08, .u 8, .ro, .c, 0, .any, 0x504000, false⟩
/-- R243. -/
def acc_poisoned : Obj := ⟨.dev, 0x5041, 0x09, 0x09, .u 8, .ro, .c, 0, .any, 0x504000, false⟩
/-- R243. -/
def acc_lines_dirty : Obj := ⟨.dev, 0x5041, 0x0A, 0x0A, .u 4, .ro, .c, 0, .any, 0x504000, false⟩
/-- R243. -/
def view_reads : Obj := ⟨.dev, 0x5041, 0x0B, 0x0B, .u 8, .ro, .c, 0, .any, 0x504000, false⟩
/-- R243. -/
def view_bytes : Obj := ⟨.dev, 0x5041, 0x0C, 0x0C, .u 8, .ro, .c, 0, .any, 0x504000, false⟩
/-- R243. -/
def view_denied : Obj := ⟨.dev, 0x5041, 0x0D, 0x0D, .u 4, .ro, .c, 0, .any, 0x504000, false⟩
/-- R243. -/
def view_saturations : Obj := ⟨.dev, 0x5041, 0x0E, 0x0E, .u 8, .ro, .c, 0, .any, 0x504000, false⟩
/-- R243. -/
def view_nan_to_int : Obj := ⟨.dev, 0x5041, 0x0F, 0x0F, .u 8, .ro, .c, 0, .any, 0x504000, false⟩
/-- R243. -/
def acc_idle_flush : Obj := ⟨.dev, 0x5042, 0x00, 0x00, .u 4, .rw, .n, 100, .any, 0, false⟩
/-- R243. -/
def acc_backoff : Obj := ⟨.dev, 0x5043, 0x00, 0x00, .u 1, .rw, .n, 2, .rng 1 15, 0, false⟩
/-- R243. -/
def vscale_select : Obj := ⟨.dev, 0x5048, 0x00, 0x00, .u 4, .rw, .c, 0, .any, 0, true⟩
/-- R243. -/
def int8_scale : Obj := ⟨.dev, 0x5049, 0x00, 0x00, .f32, .rw, .c, 1065353216, .any, 0x504800, false⟩
/-- R289. -/
def strip_elems : Obj := ⟨.dev, 0x7000, 0x00, 0x00, .u 4, .rw, .n, 65536, .any, 0, false⟩
/-- R289. -/
def job_fault_timeout : Obj := ⟨.dev, 0x7001, 0x00, 0x00, .u 4, .rw, .n, 100000, .any, 0, false⟩
/-- R289. -/
def tile_strips : Obj := ⟨.dev, 0x7002, 0x00, 0x3F, .u 8, .ro, .c, 0, .any, 0, false⟩
/-- R289. -/
def jobs_done : Obj := ⟨.dev, 0x7003, 0x01, 0x01, .u 8, .ro, .c, 0, .any, 0, false⟩
/-- R289. -/
def jobs_failed : Obj := ⟨.dev, 0x7003, 0x02, 0x02, .u 8, .ro, .c, 0, .any, 0, false⟩
/-- R289. -/
def jobs_active : Obj := ⟨.dev, 0x7003, 0x03, 0x03, .u 2, .ro, .c, 0, .any, 0, false⟩
/-- R289. -/
def strips_rerun : Obj := ⟨.dev, 0x7003, 0x04, 0x04, .u 8, .ro, .c, 0, .any, 0, false⟩
/-- R289. -/
def strips_replayed : Obj := ⟨.dev, 0x7003, 0x05, 0x05, .u 8, .ro, .c, 0, .any, 0, false⟩
/-- R289. -/
def strips_lost : Obj := ⟨.dev, 0x7003, 0x06, 0x06, .u 8, .ro, .c, 0, .any, 0, false⟩
/-- R289. -/
def tile_saturations : Obj := ⟨.dev, 0x7003, 0x07, 0x07, .u 8, .ro, .c, 0, .any, 0, false⟩
/-- R289. -/
def tile_nan_to_int : Obj := ⟨.dev, 0x7003, 0x08, 0x08, .u 8, .ro, .c, 0, .any, 0, false⟩
/-- R289. -/
def tile_poisoned : Obj := ⟨.dev, 0x7003, 0x09, 0x09, .u 8, .ro, .c, 0, .any, 0, false⟩
/-- R289. -/
def jq_select : Obj := ⟨.dev, 0x7010, 0x00, 0x00, .u 2, .rw, .c, 0, .upto 4095, 0, true⟩
/-- R289. -/
def jq_base : Obj := ⟨.dev, 0x7011, 0x01, 0x01, .u 8, .rw, .x, 0, .any, 0x701000, false⟩
/-- R289. -/
def jq_size : Obj := ⟨.dev, 0x7011, 0x02, 0x02, .u 4, .rw, .x, 16, .any, 0x701000, false⟩
/-- R289. -/
def jq_enable : Obj := ⟨.dev, 0x7011, 0x03, 0x03, .bool, .rw, .x, 0, .any, 0x701000, false⟩
/-- R289. -/
def jq_state : Obj := ⟨.dev, 0x7011, 0x04, 0x04, .u 1, .ro, .x, 0, .any, 0x701000, false⟩
/-- R289. -/
def jq_head : Obj := ⟨.dev, 0x7011, 0x05, 0x05, .u 2, .ro, .x, 0, .any, 0x701000, false⟩
/-- R289. -/
def jq_tail : Obj := ⟨.dev, 0x7011, 0x06, 0x06, .u 2, .ro, .x, 0, .any, 0x701000, false⟩
/-- R289. -/
def jq_bad_bells : Obj := ⟨.dev, 0x7011, 0x07, 0x07, .u 4, .ro, .x, 0, .any, 0x701000, false⟩
/-- R289. -/
def rcp_select : Obj := ⟨.dev, 0x7020, 0x00, 0x00, .u 1, .rw, .c, 1, .any, 0, true⟩
/-- R289. -/
def rcp_owner : Obj := ⟨.dev, 0x7021, 0x01, 0x01, .u 2, .ro, .c, 0, .any, 0x702000, false⟩
/-- R289. -/
def rcp_digest : Obj := ⟨.dev, 0x7021, 0x02, 0x02, .oct 32, .ro, .c, 0, .any, 0x702000, false⟩
/-- R289. -/
def rcp_image : Obj := ⟨.dev, 0x7021, 0x03, 0x03, .oct 1024, .rw, .c, 0, .any, 0x702000, false⟩
/-- R289. -/
def rcp_ctx : Obj := ⟨.dev, 0x7021, 0x04, 0x04, .u 2, .rw, .c, 0, .any, 0x702000, false⟩
/-- R289. -/
def rcp_op : Obj := ⟨.dev, 0x7021, 0x05, 0x05, .cmd, .cmd, .c, 0, .any, 0x702000, false⟩
/-- R289. -/
def rcp_result : Obj := ⟨.dev, 0x7021, 0x06, 0x06, .u 1, .ro, .c, 0, .any, 0x702000, false⟩
/-- R289. -/
def rcp_per_ctx : Obj := ⟨.dev, 0x7022, 0x00, 0x00, .u 1, .rw, .n, 4, .any, 0, false⟩
/-- R332. -/
def tr_select : Obj := ⟨.dev, 0x7800, 0x00, 0x00, .u 1, .rw, .c, 0, .upto 1, 0, true⟩
/-- R332. -/
def tr_base : Obj := ⟨.dev, 0x7801, 0x01, 0x01, .u 8, .rw, .c, 0, .any, 0x780000, false⟩
/-- R332. -/
def tr_size : Obj := ⟨.dev, 0x7801, 0x02, 0x02, .u 4, .rw, .c, 16, .any, 0x780000, false⟩
/-- R332. -/
def tr_enable : Obj := ⟨.dev, 0x7801, 0x03, 0x03, .bool, .rw, .c, 0, .any, 0x780000, false⟩
/-- R332. -/
def tr_head : Obj := ⟨.dev, 0x7801, 0x04, 0x04, .u 2, .ro, .c, 0, .any, 0x780000, false⟩
/-- R332. -/
def tr_tail : Obj := ⟨.dev, 0x7801, 0x05, 0x05, .u 2, .ro, .c, 0, .any, 0x780000, false⟩
/-- R332. -/
def tr_bad_bells : Obj := ⟨.dev, 0x7801, 0x06, 0x06, .u 4, .ro, .c, 0, .any, 0x780000, false⟩
/-- R332. -/
def te_chunks : Obj := ⟨.dev, 0x7802, 0x00, 0x0F, .u 8, .ro, .c, 0, .any, 0, false⟩
/-- R332. -/
def te_restarts : Obj := ⟨.dev, 0x7803, 0x01, 0x01, .u 8, .ro, .c, 0, .any, 0, false⟩
/-- R332. -/
def te_poison_copied : Obj := ⟨.dev, 0x7803, 0x02, 0x02, .u 8, .ro, .c, 0, .any, 0, false⟩
/-- R332. -/
def blk_ports : Obj := ⟨.dev, 0x7804, 0x00, 0x00, .u 4, .rw, .n, 16777215, .mask 0xFFFFFF, 0, false⟩
/-- R332. -/
def remote_timeout : Obj := ⟨.dev, 0x7805, 0x00, 0x00, .u 4, .rw, .n, 1000, .rng 100 100000, 0, false⟩
/-- R332. -/
def mig_passes : Obj := ⟨.dev, 0x7806, 0x01, 0x01, .u 1, .rw, .n, 4, .rng 1 16, 0, false⟩
/-- R332. -/
def mig_final_chunks : Obj := ⟨.dev, 0x7806, 0x02, 0x02, .u 2, .rw, .n, 64, .upto 16384, 0, false⟩
/-- R332. -/
def mig_backoff : Obj := ⟨.dev, 0x7806, 0x03, 0x03, .u 1, .rw, .n, 1, .rng 1 15, 0, false⟩
/-- R332. -/
def migrations_done : Obj := ⟨.dev, 0x7807, 0x01, 0x01, .u 8, .ro, .c, 0, .any, 0, false⟩
/-- R332. -/
def migrations_active : Obj := ⟨.dev, 0x7807, 0x02, 0x02, .u 1, .ro, .c, 0, .any, 0, false⟩
/-- R332. -/
def sweep_backoff : Obj := ⟨.dev, 0x7808, 0x00, 0x00, .u 1, .rw, .n, 1, .rng 1 15, 0, false⟩
/-- R332. -/
def sweeps_active : Obj := ⟨.dev, 0x7809, 0x01, 0x01, .u 2, .ro, .c, 0, .any, 0, false⟩
/-- R332. -/
def sweeps_pending : Obj := ⟨.dev, 0x7809, 0x02, 0x02, .u 4, .ro, .c, 0, .any, 0, false⟩
/-- R332. -/
def zero_fills : Obj := ⟨.dev, 0x7809, 0x03, 0x03, .u 8, .ro, .c, 0, .any, 0, false⟩
/-- R332. -/
def sweep_select : Obj := ⟨.dev, 0x780A, 0x00, 0x00, .u 1, .rw, .c, 0, .any, 0, true⟩
/-- R332. -/
def sweep_rec : Obj := ⟨.dev, 0x780B, 0x00, 0x00, .u 8, .ro, .c, 0, .any, 0x780A00, false⟩
/-- R332. -/
def te_ack_timeout : Obj := ⟨.dev, 0x780C, 0x00, 0x00, .u 4, .rw, .n, 50, .rng 10 1000, 0, false⟩
/-- R332. -/
def pm_select : Obj := ⟨.dev, 0x780D, 0x00, 0x00, .u 4, .rw, .c, 0, .any, 0, true⟩
/-- R332. -/
def pm_state : Obj := ⟨.dev, 0x780E, 0x01, 0x01, .u 1, .ro, .c, 0, .any, 0x780D00, false⟩
/-- R332. -/
def pm_resync : Obj := ⟨.dev, 0x780E, 0x02, 0x02, .cmd, .cmd, .c, 0, .any, 0x780D00, false⟩
/-- R332. -/
def pm_degraded_events : Obj := ⟨.dev, 0x780E, 0x03, 0x03, .u 4, .ro, .c, 0, .any, 0x780D00, false⟩
/-- R370. -/
def place_enable : Obj := ⟨.dev, 0x3100, 0x00, 0x00, .bool, .rw, .n, 1, .any, 0, false⟩
/-- R370. -/
def place_max : Obj := ⟨.dev, 0x3101, 0x00, 0x00, .u 1, .rw, .n, 16, .rng 1 64, 0, false⟩
/-- R370. -/
def soon_reserve : Obj := ⟨.dev, 0x3102, 0x00, 0x00, .u 4, .rw, .n, 64, .any, 0, false⟩
/-- R370. -/
def place_pending : Obj := ⟨.dev, 0x3103, 0x01, 0x01, .u 4, .ro, .c, 0, .any, 0, false⟩
/-- R370. -/
def place_blocked : Obj := ⟨.dev, 0x3103, 0x02, 0x02, .u 4, .ro, .c, 0, .any, 0, false⟩
/-- R370. -/
def place_done : Obj := ⟨.dev, 0x3103, 0x03, 0x03, .u 8, .ro, .c, 0, .any, 0, false⟩
/-- R370. -/
def place_ctx : Obj := ⟨.dev, 0x3104, 0x01, 0x01, .u 2, .rw, .c, 0, .any, 0, false⟩
/-- R370. -/
def place_vpn : Obj := ⟨.dev, 0x3104, 0x02, 0x02, .u 4, .rw, .c, 0, .any, 0, false⟩
/-- R370. -/
def place_count : Obj := ⟨.dev, 0x3104, 0x03, 0x03, .u 4, .rw, .c, 0, .any, 0, false⟩
/-- R370. -/
def place_target : Obj := ⟨.dev, 0x3104, 0x04, 0x04, .u 1, .rw, .c, 0, .any, 0, false⟩
/-- R370. -/
def place_cmd : Obj := ⟨.dev, 0x3104, 0x05, 0x05, .cmd, .cmd, .c, 0, .any, 0, false⟩
/-- R370. -/
def place_result : Obj := ⟨.dev, 0x3104, 0x06, 0x06, .u 1, .ro, .c, 0, .any, 0, false⟩
/-- R370. -/
def frame_select : Obj := ⟨.dev, 0x3105, 0x00, 0x00, .u 4, .rw, .c, 0, .upto 200703, 0, true⟩
/-- R370. -/
def frame_status : Obj := ⟨.dev, 0x3106, 0x01, 0x01, .u 1, .ro, .c, 0, .any, 0x310500, false⟩
/-- R370. -/
def frame_extent : Obj := ⟨.dev, 0x3106, 0x02, 0x02, .u 4, .ro, .c, 0, .any, 0x310500, false⟩
/-- R370. -/
def frame_target : Obj := ⟨.dev, 0x3106, 0x03, 0x03, .u 1, .ro, .c, 0, .any, 0x310500, false⟩
/-- R370. -/
def lost_writes : Obj := ⟨.dev, 0x3107, 0x00, 0x00, .u 8, .ro, .c, 0, .any, 0, false⟩
/-- R370. -/
def auto_drain : Obj := ⟨.dev, 0x3108, 0x00, 0x00, .bool, .rw, .n, 1, .any, 0, false⟩
/-- R370. -/
def fog_high : Obj := ⟨.dev, 0x3110, 0x00, 0x00, .u 1, .rw, .n, 48, .rng 1 64, 0, false⟩
/-- R370. -/
def fog_low : Obj := ⟨.dev, 0x3111, 0x00, 0x00, .u 1, .rw, .n, 16, .any, 0, false⟩
/-- R370. -/
def fog_state : Obj := ⟨.dev, 0x3112, 0x00, 0x03, .bool, .ro, .c, 0, .any, 0, false⟩
/-- R370. -/
def fog_raised : Obj := ⟨.dev, 0x3113, 0x00, 0x03, .u 8, .ro, .c, 0, .any, 0, false⟩
/-- R370. -/
def fog_time : Obj := ⟨.dev, 0x3114, 0x00, 0x03, .u 8, .ro, .c, 0, .any, 0, false⟩
/-- R371. -/
def dcp_select : Obj := ⟨.dev, 0x3200, 0x00, 0x00, .u 1, .rw, .c, 0, .upto 11, 0, true⟩
/-- R371. -/
def dcp_state : Obj := ⟨.dev, 0x3201, 0x01, 0x01, .u 1, .ro, .c, 0, .any, 0x320000, false⟩
/-- R371. -/
def dcp_cause : Obj := ⟨.dev, 0x3201, 0x02, 0x02, .u 1, .ro, .c, 0, .any, 0x320000, false⟩
/-- R371. -/
def dcp_frames : Obj := ⟨.dev, 0x3201, 0x03, 0x03, .u 4, .ro, .c, 0, .any, 0x320000, false⟩
/-- R371. -/
def dimm_info : Obj := ⟨.dev, 0x3201, 0x04, 0x05, .oct 16, .ro, .c, 0, .any, 0x320000, false⟩
/-- R371. -/
def dcp_cmd : Obj := ⟨.dev, 0x3201, 0x06, 0x06, .cmd, .cmd, .c, 0, .any, 0x320000, false⟩
/-- R371. -/
def dcp_slot : Obj := ⟨.dev, 0x3201, 0x07, 0x07, .u 1, .rw, .c, 0, .upto 1, 0x320000, false⟩
/-- R371. -/
def dcp_result : Obj := ⟨.dev, 0x3201, 0x08, 0x08, .u 1, .ro, .c, 0, .any, 0x320000, false⟩
/-- R371. -/
def dimm_present : Obj := ⟨.dev, 0x3201, 0x09, 0x09, .u 1, .ro, .v, 0, .any, 0x320000, false⟩
/-- R371. -/
def dimm_pwr : Obj := ⟨.dev, 0x3201, 0x0A, 0x0A, .u 1, .ro, .v, 0, .any, 0x320000, false⟩
/-- R371. -/
def dcp_drain_result : Obj := ⟨.dev, 0x3201, 0x0B, 0x0B, .u 1, .ro, .c, 0, .any, 0x320000, false⟩
/-- R371. -/
def dc_lines : Obj := ⟨.dev, 0x3210, 0x00, 0x17, .u 8, .ro, .c, 0, .any, 0, false⟩
/-- R371. -/
def dc_row_hits : Obj := ⟨.dev, 0x3211, 0x00, 0x17, .u 8, .ro, .c, 0, .any, 0, false⟩
/-- R371. -/
def dc_refresh_forced : Obj := ⟨.dev, 0x3212, 0x00, 0x17, .u 8, .ro, .c, 0, .any, 0, false⟩
/-- R371. -/
def dc_retrain_forced : Obj := ⟨.dev, 0x3213, 0x00, 0x17, .u 4, .ro, .c, 0, .any, 0, false⟩
/-- R371. -/
def dc_ca_parity : Obj := ⟨.dev, 0x3214, 0x00, 0x17, .u 4, .ro, .c, 0, .any, 0, false⟩
/-- R371. -/
def pd_idle : Obj := ⟨.dev, 0x3220, 0x00, 0x00, .u 2, .rw, .n, 1024, .any, 0, false⟩
/-- R371. -/
def auto_close : Obj := ⟨.dev, 0x3221, 0x00, 0x00, .u 1, .rw, .n, 32, .any, 0, false⟩
/-- R371. -/
def hit_cap : Obj := ⟨.dev, 0x3222, 0x00, 0x00, .u 1, .rw, .n, 16, .rng 1 255, 0, false⟩
/-- R371. -/
def wq_high : Obj := ⟨.dev, 0x3223, 0x01, 0x01, .u 1, .rw, .n, 48, .any, 0, false⟩
/-- R371. -/
def wq_low : Obj := ⟨.dev, 0x3223, 0x02, 0x02, .u 1, .rw, .n, 16, .any, 0, false⟩
/-- R371. -/
def retrain_period : Obj := ⟨.dev, 0x3224, 0x01, 0x01, .u 4, .rw, .n, 100, .rng 10 10000, 0, false⟩
/-- R371. -/
def retrain_force : Obj := ⟨.dev, 0x3224, 0x02, 0x02, .u 4, .rw, .n, 1000, .any, 0, false⟩
/-- R371. -/
def ca_retry_limit : Obj := ⟨.dev, 0x3225, 0x00, 0x00, .u 1, .rw, .n, 8, .rng 1 255, 0, false⟩
/-- R371. -/
def dimm_settle : Obj := ⟨.dev, 0x3226, 0x01, 0x01, .u 2, .rw, .n, 20, .rng 5 1000, 0, false⟩
/-- R371. -/
def prsnt_debounce : Obj := ⟨.dev, 0x3226, 0x02, 0x02, .u 2, .rw, .n, 100, .rng 10 1000, 0, false⟩
/-- R372. -/
def hbm_select : Obj := ⟨.dev, 0x3300, 0x00, 0x00, .u 1, .rw, .c, 0, .upto 3, 0, true⟩
/-- R372. -/
def hbm_state : Obj := ⟨.dev, 0x3301, 0x01, 0x01, .u 1, .ro, .c, 0, .any, 0x330000, false⟩
/-- R372. -/
def hbm_fenced_ch : Obj := ⟨.dev, 0x3301, 0x02, 0x02, .u 1, .ro, .c, 255, .any, 0x330000, false⟩
/-- R372. -/
def hbm_relaid : Obj := ⟨.dev, 0x3301, 0x03, 0x03, .u 2, .ro, .c, 0, .any, 0x330000, false⟩
/-- R372. -/
def hbm_frames : Obj := ⟨.dev, 0x3301, 0x04, 0x04, .u 2, .ro, .c, 1022, .any, 0x330000, false⟩
/-- R372. -/
def hbch_state : Obj := ⟨.dev, 0x3302, 0x00, 0x1F, .u 1, .ro, .c, 0, .any, 0x330000, false⟩
/-- R372. -/
def hbch_lines : Obj := ⟨.dev, 0x3303, 0x00, 0x1F, .u 8, .ro, .c, 0, .any, 0x330000, false⟩
/-- R372. -/
def hbch_retrain_forced : Obj := ⟨.dev, 0x3304, 0x00, 0x1F, .u 4, .ro, .c, 0, .any, 0x330000, false⟩
/-- R372. -/
def hbch_fence : Obj := ⟨.dev, 0x3305, 0x00, 0x00, .cmd, .cmd, .c, 0, .any, 0, false⟩
/-- R372. -/
def hbch_confirm : Obj := ⟨.dev, 0x3306, 0x00, 0x00, .bool, .rw, .v, 0, .any, 0, false⟩
/-- R401. -/
def dc_ce : Obj := ⟨.dev, 0x3400, 0x00, 0x17, .u 8, .ro, .c, 0, .any, 0, false⟩
/-- R401. -/
def dc_ue : Obj := ⟨.dev, 0x3401, 0x00, 0x17, .u 8, .ro, .c, 0, .any, 0, false⟩
/-- R401. -/
def dc_poison_read : Obj := ⟨.dev, 0x3402, 0x00, 0x17, .u 8, .ro, .c, 0, .any, 0, false⟩
/-- R401. -/
def dc_bad_device : Obj := ⟨.dev, 0x3403, 0x00, 0x17, .u 1, .ro, .c, 255, .any, 0, false⟩
/-- R401. -/
def hb_ce : Obj := ⟨.dev, 0x3404, 0x00, 0x7F, .u 8, .ro, .c, 0, .any, 0, false⟩
/-- R401. -/
def hb_ue : Obj := ⟨.dev, 0x3405, 0x00, 0x7F, .u 8, .ro, .c, 0, .any, 0, false⟩
/-- R401. -/
def hb_poison_read : Obj := ⟨.dev, 0x3406, 0x00, 0x7F, .u 8, .ro, .c, 0, .any, 0, false⟩
/-- R401. -/
def hb_ondie_ce : Obj := ⟨.dev, 0x3407, 0x00, 0x7F, .u 8, .ro, .c, 0, .any, 0, false⟩
/-- R401. -/
def ue_limit : Obj := ⟨.dev, 0x3408, 0x00, 0x00, .u 2, .rw, .n, 16, .rng 1 0xFFFF, 0, false⟩
/-- R401. -/
def ue_window : Obj := ⟨.dev, 0x3409, 0x00, 0x00, .u 4, .rw, .n, 60000, .rng 1000 86400000, 0, false⟩
/-- R401. -/
def ce_notify : Obj := ⟨.dev, 0x340A, 0x00, 0x00, .u 4, .rw, .n, 1000, .any, 0, false⟩
/-- R401. -/
def bad_device_count : Obj := ⟨.dev, 0x340B, 0x00, 0x00, .u 2, .rw, .n, 64, .rng 1 0xFFFF, 0, false⟩
/-- R401. -/
def ce_writeback : Obj := ⟨.dev, 0x340C, 0x00, 0x00, .bool, .rw, .n, 1, .any, 0, false⟩
/-- R401. -/
def poison_written : Obj := ⟨.dev, 0x340D, 0x01, 0x08, .u 8, .ro, .c, 0, .any, 0, false⟩
/-- R401. -/
def repaired : Obj := ⟨.dev, 0x340E, 0x00, 0x00, .u 8, .ro, .c, 0, .any, 0, false⟩
/-- R401. -/
def merge_hold : Obj := ⟨.dev, 0x3410, 0x00, 0x00, .u 4, .rw, .n, 2000, .upto 100000, 0, false⟩
/-- R401. -/
def merge_high : Obj := ⟨.dev, 0x3411, 0x00, 0x00, .u 1, .rw, .n, 56, .rng 8 64, 0, false⟩
/-- R401. -/
def merge_backoff : Obj := ⟨.dev, 0x3412, 0x00, 0x00, .u 1, .rw, .n, 1, .rng 1 15, 0, false⟩
/-- R401. -/
def merge_select : Obj := ⟨.dev, 0x3413, 0x00, 0x00, .u 1, .rw, .c, 0, .upto 31, 0, true⟩
/-- R401. -/
def merge_rmw : Obj := ⟨.dev, 0x3414, 0x01, 0x01, .u 8, .ro, .c, 0, .any, 0x341300, false⟩
/-- R401. -/
def merge_direct : Obj := ⟨.dev, 0x3414, 0x02, 0x02, .u 8, .ro, .c, 0, .any, 0x341300, false⟩
/-- R401. -/
def merge_retry : Obj := ⟨.dev, 0x3414, 0x03, 0x03, .u 8, .ro, .c, 0, .any, 0x341300, false⟩
/-- R401. -/
def merge_entries : Obj := ⟨.dev, 0x3414, 0x04, 0x04, .u 1, .ro, .c, 0, .any, 0x341300, false⟩
/-- R401. -/
def scrub_base : Obj := ⟨.dev, 0x3420, 0x01, 0x01, .u 8, .rw, .c, 0, .any, 0, false⟩
/-- R401. -/
def scrub_len : Obj := ⟨.dev, 0x3420, 0x02, 0x02, .u 8, .rw, .c, 0, .any, 0, false⟩
/-- R401. -/
def scrub_rate : Obj := ⟨.dev, 0x3420, 0x03, 0x03, .u 4, .rw, .n, 10000, .rng 100 400000, 0, false⟩
/-- R401. -/
def scrub_cmd : Obj := ⟨.dev, 0x3420, 0x04, 0x04, .cmd, .cmd, .c, 0, .any, 0, false⟩
/-- R401. -/
def scrub_state : Obj := ⟨.dev, 0x3420, 0x05, 0x05, .u 1, .ro, .c, 0, .any, 0, false⟩
/-- R401. -/
def scrub_pos : Obj := ⟨.dev, 0x3420, 0x06, 0x06, .u 8, .ro, .c, 0, .any, 0, false⟩
/-- R401. -/
def scrub_summary : Obj := ⟨.dev, 0x3420, 0x07, 0x07, .oct 464, .ro, .c, 0, .any, 0, false⟩
/-- R432. -/
def ctx_state : Obj := ⟨.ctx, 0x100, 0x01, 0x01, .u 1, .ro, .c, 0, .any, 0, false⟩
/-- R432. -/
def ctx_cmd : Obj := ⟨.ctx, 0x100, 0x02, 0x02, .cmd, .cmd, .c, 0, .any, 0, false⟩
/-- R432. -/
def ctx_result : Obj := ⟨.ctx, 0x100, 0x03, 0x03, .u 1, .ro, .c, 0, .any, 0, false⟩
/-- R432. -/
def ctx_resets : Obj := ⟨.ctx, 0x100, 0x04, 0x04, .u 4, .ro, .c, 0, .any, 0, false⟩
/-- R432. -/
def ctx_stragglers : Obj := ⟨.ctx, 0x100, 0x05, 0x05, .u 4, .ro, .c, 0, .any, 0, false⟩
/-- R432. -/
def ctx_reset_time : Obj := ⟨.ctx, 0x100, 0x06, 0x06, .u 4, .ro, .c, 0, .any, 0, false⟩
/-- R432. -/
def cir : Obj := ⟨.ctx, 0x300, 0x01, 0x01, .u 2, .rw, .c, 65535, .any, 0, false⟩
/-- R432. -/
def pir : Obj := ⟨.ctx, 0x300, 0x02, 0x02, .u 2, .rw, .c, 65535, .any, 0, false⟩
/-- R432. -/
def cbs : Obj := ⟨.ctx, 0x300, 0x03, 0x03, .u 4, .rw, .c, 1048576, .rng 256 16777216, 0, false⟩
/-- R432. -/
def pbs : Obj := ⟨.ctx, 0x300, 0x04, 0x04, .u 4, .rw, .c, 1048576, .rng 256 16777216, 0, false⟩
/-- R432. -/
def colour_aware : Obj := ⟨.ctx, 0x300, 0x05, 0x05, .bool, .rw, .c, 0, .any, 0, false⟩
/-- R432. -/
def svc_group : Obj := ⟨.ctx, 0x300, 0x06, 0x06, .u 1, .rw, .c, 0, .upto 63, 0, false⟩
/-- R432. -/
def shp_rate : Obj := ⟨.ctx, 0x300, 0x07, 0x07, .u 2, .rw, .c, 65535, .any, 0, false⟩
/-- R432. -/
def shp_burst : Obj := ⟨.ctx, 0x300, 0x08, 0x08, .u 4, .rw, .c, 65536, .rng 4096 16777216, 0, false⟩
/-- R432. -/
def tile_quota : Obj := ⟨.ctx, 0x300, 0x09, 0x09, .u 2, .rw, .c, 65535, .any, 0, false⟩
/-- R432. -/
def tender_quota : Obj := ⟨.ctx, 0x300, 0x0A, 0x0A, .u 2, .rw, .c, 65535, .any, 0, false⟩
/-- R432. -/
def fault_budget : Obj := ⟨.ctx, 0x300, 0x0B, 0x0B, .u 2, .rw, .c, 256, .any, 0, false⟩
/-- R432. -/
def pol_green : Obj := ⟨.ctx, 0x300, 0x10, 0x10, .u 8, .ro, .x, 0, .any, 0, false⟩
/-- R432. -/
def pol_yellow : Obj := ⟨.ctx, 0x300, 0x11, 0x11, .u 8, .ro, .x, 0, .any, 0, false⟩
/-- R432. -/
def pol_red : Obj := ⟨.ctx, 0x300, 0x12, 0x12, .u 8, .ro, .x, 0, .any, 0, false⟩
/-- R432. -/
def shp_waits : Obj := ⟨.ctx, 0x300, 0x13, 0x13, .u 8, .ro, .x, 0, .any, 0, false⟩
/-- R432. -/
def ntf_func : Obj := ⟨.ctx, 0x400, 0x01, 0x01, .u 2, .rw, .c, 0, .any, 0, false⟩
/-- R432. -/
def ntf_sys_vector : Obj := ⟨.ctx, 0x400, 0x02, 0x02, .u 1, .rw, .c, 0, .upto 63, 0, false⟩
/-- R432. -/
def ntf_rate : Obj := ⟨.ctx, 0x400, 0x03, 0x03, .u 2, .rw, .c, 64, .any, 0, false⟩
/-- R432. -/
def ntf_burst : Obj := ⟨.ctx, 0x400, 0x04, 0x04, .u 2, .rw, .c, 64, .rng 1 65534, 0, false⟩
/-- R432. -/
def ntf_ring_base : Obj := ⟨.ctx, 0x400, 0x05, 0x05, .u 8, .rw, .c, 0, .any, 0, false⟩
/-- R432. -/
def ntf_ring_size : Obj := ⟨.ctx, 0x400, 0x06, 0x06, .u 4, .rw, .c, 16, .any, 0, false⟩
/-- R432. -/
def ntf_ring_en : Obj := ⟨.ctx, 0x400, 0x07, 0x07, .bool, .rw, .c, 0, .any, 0, false⟩
/-- R432. -/
def ntf_raise : Obj := ⟨.ctx, 0x400, 0x08, 0x08, .cmd, .cmd, .c, 0, .any, 0, false⟩
/-- R432. -/
def ntf_held : Obj := ⟨.ctx, 0x400, 0x09, 0x09, .u 8, .ro, .x, 0, .any, 0, false⟩
/-- R432. -/
def ntf_sent : Obj := ⟨.ctx, 0x400, 0x0A, 0x0A, .u 8, .ro, .x, 0, .any, 0, false⟩
/-- R432. -/
def ntf_vec : Obj := ⟨.ctx, 0x401, 0x00, 0x3F, .u 8, .rw, .c, 0, .any, 0, false⟩
/-- R432. -/
def ntf_coal : Obj := ⟨.ctx, 0x402, 0x00, 0x3F, .u 2, .rw, .c, 0, .any, 0, false⟩
/-- R433. -/
def sg_select : Obj := ⟨.dev, 0x8000, 0x00, 0x00, .u 1, .rw, .c, 0, .upto 63, 0, true⟩
/-- R433. -/
def sg_quantum : Obj := ⟨.dev, 0x8001, 0x01, 0x01, .u 4, .rw, .n, 4096, .rng 1024 1048576, 0x800000, false⟩
/-- R433. -/
def sg_latency : Obj := ⟨.dev, 0x8001, 0x02, 0x02, .bool, .rw, .n, 0, .any, 0x800000, false⟩
/-- R433. -/
def reset_timeout : Obj := ⟨.dev, 0x8002, 0x00, 0x00, .u 4, .rw, .n, 500, .rng 10 100000, 0, false⟩
/-- R433. -/
def frz_select : Obj := ⟨.dev, 0x8003, 0x00, 0x00, .u 2, .rw, .c, 0, .upto 4095, 0, true⟩
/-- R433. -/
def frz_state : Obj := ⟨.dev, 0x8004, 0x01, 0x01, .bool, .ro, .c, 0, .any, 0x800300, false⟩
/-- R433. -/
def frz_record : Obj := ⟨.dev, 0x8004, 0x02, 0x02, .oct 16, .ro, .c, 0, .any, 0x800300, false⟩
/-- R433. -/
def frz_release : Obj := ⟨.dev, 0x8004, 0x03, 0x03, .cmd, .cmd, .c, 0, .any, 0x800300, false⟩
/-- R433. -/
def frozen_agents : Obj := ⟨.dev, 0x8005, 0x00, 0x00, .u 2, .ro, .c, 0, .any, 0, false⟩
/-- R479. -/
def lc_state : Obj := ⟨.dev, 0x9000, 0x01, 0x01, .u 1, .ro, .c, 1, .any, 0, false⟩
/-- R479. -/
def lc_target : Obj := ⟨.dev, 0x9000, 0x02, 0x02, .u 1, .rw, .n, 1, .rng 1 2, 0, false⟩
/-- R479. -/
def lc_cmd : Obj := ⟨.dev, 0x9000, 0x03, 0x03, .cmd, .cmd, .c, 0, .any, 0, false⟩
/-- R479. -/
def lc_confirm : Obj := ⟨.dev, 0x9000, 0x04, 0x04, .u 4, .rw, .v, 0, .any, 0, false⟩
/-- R479. -/
def lc_result : Obj := ⟨.dev, 0x9000, 0x05, 0x05, .u 1, .ro, .c, 0, .any, 0, false⟩
/-- R479. -/
def id_digest : Obj := ⟨.dev, 0x9001, 0x01, 0x01, .oct 32, .ro, .n, 0, .any, 0, false⟩
/-- R479. -/
def id_cert : Obj := ⟨.dev, 0x9001, 0x02, 0x02, .oct 29936, .ro, .n, 0, .any, 0, false⟩
/-- R479. -/
def ak_cert : Obj := ⟨.dev, 0x9001, 0x03, 0x03, .oct 29936, .ro, .c, 0, .any, 0, false⟩
/-- R479. -/
def fw_version : Obj := ⟨.dev, 0x9002, 0x01, 0x01, .u 4, .ro, .c, 0, .any, 0, false⟩
/-- R479. -/
def fw_image : Obj := ⟨.dev, 0x9002, 0x02, 0x02, .u 1, .ro, .c, 0, .any, 0, false⟩
/-- R479. -/
def boot_meas : Obj := ⟨.dev, 0x9002, 0x03, 0x03, .oct 32, .ro, .c, 0, .any, 0, false⟩
/-- R479. -/
def boot_pref : Obj := ⟨.dev, 0x9002, 0x04, 0x04, .u 1, .rw, .n, 0, .upto 1, 0, false⟩
/-- R479. -/
def boot_fallbacks : Obj := ⟨.dev, 0x9002, 0x05, 0x05, .u 4, .ro, .n, 0, .any, 0, false⟩
/-- R479. -/
def arb_fused : Obj := ⟨.dev, 0x9002, 0x06, 0x06, .u 1, .ro, .n, 0, .any, 0, false⟩
/-- R479. -/
def arb_commit : Obj := ⟨.dev, 0x9002, 0x07, 0x07, .cmd, .cmd, .c, 0, .any, 0, false⟩
/-- R479. -/
def att_nonce : Obj := ⟨.dev, 0x9003, 0x01, 0x01, .oct 32, .rw, .c, 0, .any, 0, false⟩
/-- R479. -/
def att_cmd : Obj := ⟨.dev, 0x9003, 0x02, 0x02, .cmd, .cmd, .c, 0, .any, 0, false⟩
/-- R479. -/
def att_result : Obj := ⟨.dev, 0x9003, 0x03, 0x03, .u 1, .ro, .c, 0, .any, 0, false⟩
/-- R479. -/
def att_report : Obj := ⟨.dev, 0x9003, 0x04, 0x04, .oct 50112, .ro, .c, 0, .any, 0, false⟩
/-- R479. -/
def link_anchors : Obj := ⟨.dev, 0x9010, 0x01, 0x08, .oct 32, .rw, .n, 0, .any, 0, false⟩
/-- R479. -/
def link_sec_state : Obj := ⟨.dev, 0x9011, 0x00, 0x17, .u 1, .ro, .c, 0, .any, 0, false⟩
/-- R479. -/
def tag_fail : Obj := ⟨.dev, 0x9012, 0x00, 0x17, .u 8, .ro, .c, 0, .any, 0, false⟩
/-- R479. -/
def tag_fail_limit : Obj := ⟨.dev, 0x9013, 0x00, 0x00, .u 2, .rw, .n, 16, .rng 1 1024, 0, false⟩
/-- R479. -/
def setup_fail_limit : Obj := ⟨.dev, 0x9014, 0x00, 0x00, .u 1, .rw, .n, 8, .rng 1 255, 0, false⟩
/-- R479. -/
def link_rekeys : Obj := ⟨.dev, 0x9015, 0x00, 0x17, .u 8, .ro, .c, 0, .any, 0, false⟩
/-- R479. -/
def link_release : Obj := ⟨.dev, 0x9016, 0x00, 0x00, .cmd, .cmd, .c, 0, .any, 0, false⟩
/-- R479. -/
def link_partner : Obj := ⟨.dev, 0x9017, 0x00, 0x17, .oct 36, .ro, .c, 0, .any, 0, false⟩
/-- R479. -/
def ide_streams : Obj := ⟨.dev, 0x9020, 0x00, 0x01, .u 1, .ro, .c, 0, .any, 0, false⟩
/-- R479. -/
def ide_required : Obj := ⟨.dev, 0x9021, 0x00, 0x00, .bool, .rw, .n, 1, .any, 0, false⟩
/-- R479. -/
def ide_rejects : Obj := ⟨.dev, 0x9022, 0x00, 0x01, .u 8, .ro, .c, 0, .any, 0, false⟩
/-- R479. -/
def set_select : Obj := ⟨.dev, 0x9030, 0x00, 0x00, .u 1, .rw, .c, 0, .upto 15, 0, true⟩
/-- R479. -/
def set_id : Obj := ⟨.dev, 0x9031, 0x01, 0x01, .oct 16, .rw, .n, 0, .any, 0x903000, false⟩
/-- R479. -/
def set_members : Obj := ⟨.dev, 0x9031, 0x02, 0x02, .oct 128, .rw, .n, 0, .any, 0x903000, false⟩
/-- R479. -/
def set_cmd : Obj := ⟨.dev, 0x9031, 0x03, 0x03, .cmd, .cmd, .c, 0, .any, 0x903000, false⟩
/-- R479. -/
def set_result : Obj := ⟨.dev, 0x9031, 0x04, 0x04, .u 1, .ro, .c, 0, .any, 0x903000, false⟩
/-- R479. -/
def set_record : Obj := ⟨.dev, 0x9031, 0x05, 0x05, .oct 1712, .ro, .n, 0, .any, 0x903000, false⟩
/-- R479. -/
def set_state : Obj := ⟨.dev, 0x9031, 0x06, 0x06, .u 1, .ro, .n, 0, .any, 0x903000, false⟩
/-- R479. -/
def set_failed_node : Obj := ⟨.dev, 0x9031, 0x07, 0x07, .u 2, .ro, .c, 0, .any, 0x903000, false⟩
/-- R479. -/
def dbg_nonce : Obj := ⟨.dev, 0x9040, 0x01, 0x01, .oct 16, .ro, .v, 0, .any, 0, false⟩
/-- R479. -/
def dbg_token : Obj := ⟨.dev, 0x9040, 0x02, 0x02, .oct 29856, .wo, .v, 0, .any, 0, false⟩
/-- R479. -/
def dbg_state : Obj := ⟨.dev, 0x9040, 0x03, 0x03, .u 1, .ro, .s, 0, .any, 0, false⟩
/-- R479. -/
def dbg_result : Obj := ⟨.dev, 0x9040, 0x04, 0x04, .u 1, .ro, .s, 0, .any, 0, false⟩
/-- R479. -/
def dbg_owner_digest : Obj := ⟨.dev, 0x9041, 0x00, 0x00, .oct 32, .rw, .n, 0, .any, 0, false⟩
/-- R480. -/
def key_state : Obj := ⟨.ctx, 0x200, 0x01, 0x01, .u 1, .ro, .c, 0, .any, 0, false⟩
/-- R480. -/
def key_cmd : Obj := ⟨.ctx, 0x200, 0x02, 0x02, .cmd, .cmd, .c, 0, .any, 0, false⟩
/-- R480. -/
def key_result : Obj := ⟨.ctx, 0x200, 0x03, 0x03, .u 1, .ro, .c, 0, .any, 0, false⟩
/-- R480. -/
def rekey_left : Obj := ⟨.ctx, 0x200, 0x04, 0x04, .u 4, .ro, .c, 0, .any, 0, false⟩
/-- R480. -/
def rekeys : Obj := ⟨.ctx, 0x200, 0x05, 0x05, .u 4, .ro, .c, 0, .any, 0, false⟩
/-- R480. -/
def enclave : Obj := ⟨.ctx, 0x200, 0x06, 0x06, .bool, .rw, .c, 1, .any, 0, false⟩
/-- R480. -/
def dm_value : Obj := ⟨.ctx, 0x600, 0x01, 0x01, .oct 32, .ro, .c, 0, .any, 0, false⟩
/-- R480. -/
def dm_extend : Obj := ⟨.ctx, 0x600, 0x02, 0x02, .oct 32, .wo, .c, 0, .any, 0, false⟩
/-- R480. -/
def dm_count : Obj := ⟨.ctx, 0x600, 0x03, 0x03, .u 4, .ro, .c, 0, .any, 0, false⟩
/-- R480. -/
def dm_log_index : Obj := ⟨.ctx, 0x600, 0x04, 0x04, .u 4, .rw, .c, 0, .upto 1023, 0, true⟩
/-- R480. -/
def dm_log_at : Obj := ⟨.ctx, 0x600, 0x05, 0x05, .oct 64, .ro, .c, 0, .any, 0x60004, false⟩
/-- R480. -/
def dm_overflow : Obj := ⟨.ctx, 0x600, 0x06, 0x06, .bool, .ro, .c, 0, .any, 0, false⟩
/-- R480. -/
def ctx_att_nonce : Obj := ⟨.ctx, 0x600, 0x07, 0x07, .oct 32, .rw, .c, 0, .any, 0, false⟩
/-- R480. -/
def ctx_att_cmd : Obj := ⟨.ctx, 0x600, 0x08, 0x08, .cmd, .cmd, .c, 0, .any, 0, false⟩
/-- R480. -/
def ctx_att_result : Obj := ⟨.ctx, 0x600, 0x09, 0x09, .u 1, .ro, .c, 0, .any, 0, false⟩
/-- R480. -/
def ctx_att_report : Obj := ⟨.ctx, 0x600, 0x0A, 0x0A, .oct 50112, .ro, .c, 0, .any, 0, false⟩
/-- R522. -/
def link_state : Obj := ⟨.port, 0x4000, 0x01, 0x01, .u 1, .ro, .c, 0, .any, 0, false⟩
/-- R522. -/
def width : Obj := ⟨.port, 0x4000, 0x02, 0x02, .u 1, .ro, .c, 0, .any, 0, false⟩
/-- R522. -/
def port_state : Obj := ⟨.port, 0x4000, 0x03, 0x03, .u 1, .ro, .c, 0, .any, 0, false⟩
/-- R522. -/
def port_cmd : Obj := ⟨.port, 0x4000, 0x04, 0x04, .cmd, .cmd, .c, 0, .any, 0, false⟩
/-- R522. -/
def rx_map : Obj := ⟨.port, 0x4000, 0x05, 0x05, .u 4, .ro, .c, 4294967295, .any, 0, false⟩
/-- R522. -/
def tx_map : Obj := ⟨.port, 0x4000, 0x06, 0x06, .u 4, .ro, .c, 4294967295, .any, 0, false⟩
/-- R522. -/
def port_losses : Obj := ⟨.port, 0x4000, 0x07, 0x07, .u 4, .ro, .c, 0, .any, 0, false⟩
/-- R522. -/
def rtx_timer : Obj := ⟨.port, 0x4000, 0x08, 0x08, .u 2, .rw, .n, 6, .rng 1 100, 0, false⟩
/-- R522. -/
def nak_holdoff : Obj := ⟨.port, 0x4000, 0x09, 0x09, .u 2, .rw, .n, 1000, .rng 100 10000, 0, false⟩
/-- R522. -/
def rtx_limit : Obj := ⟨.port, 0x4000, 0x0A, 0x0A, .u 1, .rw, .n, 8, .rng 1 64, 0, false⟩
/-- R522. -/
def port_loss_time : Obj := ⟨.port, 0x4000, 0x0B, 0x0B, .u 2, .rw, .n, 300, .rng 100 800, 0, false⟩
/-- R522. -/
def beacon_idle : Obj := ⟨.port, 0x4000, 0x0C, 0x0C, .u 2, .rw, .n, 10, .rng 1 1000, 0, false⟩
/-- R522. -/
def retrain_limit : Obj := ⟨.port, 0x4000, 0x0D, 0x0D, .u 2, .rw, .n, 100, .rng 60 500, 0, false⟩
/-- R522. -/
def lane_ue_limit : Obj := ⟨.port, 0x4000, 0x0E, 0x0E, .u 2, .rw, .n, 4, .rng 1 0xFFFF, 0, false⟩
/-- R522. -/
def narrow_enable : Obj := ⟨.port, 0x4000, 0x0F, 0x0F, .bool, .rw, .n, 1, .any, 0, false⟩
/-- R522. -/
def flits_tx : Obj := ⟨.port, 0x4001, 0x01, 0x01, .u 8, .ro, .c, 0, .any, 0, false⟩
/-- R522. -/
def flits_rx : Obj := ⟨.port, 0x4001, 0x02, 0x02, .u 8, .ro, .c, 0, .any, 0, false⟩
/-- R522. -/
def crc_fail : Obj := ⟨.port, 0x4001, 0x03, 0x03, .u 8, .ro, .c, 0, .any, 0, false⟩
/-- R522. -/
def retransmits : Obj := ⟨.port, 0x4001, 0x04, 0x04, .u 8, .ro, .c, 0, .any, 0, false⟩
/-- R522. -/
def naks_sent : Obj := ⟨.port, 0x4001, 0x05, 0x05, .u 8, .ro, .c, 0, .any, 0, false⟩
/-- R522. -/
def naks_rcvd : Obj := ⟨.port, 0x4001, 0x06, 0x06, .u 8, .ro, .c, 0, .any, 0, false⟩
/-- R522. -/
def rtx_timeouts : Obj := ⟨.port, 0x4001, 0x07, 0x07, .u 8, .ro, .c, 0, .any, 0, false⟩
/-- R522. -/
def dup_dropped : Obj := ⟨.port, 0x4001, 0x08, 0x08, .u 8, .ro, .c, 0, .any, 0, false⟩
/-- R522. -/
def reorder_dropped : Obj := ⟨.port, 0x4001, 0x09, 0x09, .u 8, .ro, .c, 0, .any, 0, false⟩
/-- R522. -/
def window_stall : Obj := ⟨.port, 0x4001, 0x0A, 0x0A, .u 8, .ro, .c, 0, .any, 0, false⟩
/-- R522. -/
def bad_ack : Obj := ⟨.port, 0x4001, 0x0B, 0x0B, .u 4, .ro, .c, 0, .any, 0, false⟩
/-- R522. -/
def slot_errors : Obj := ⟨.port, 0x4001, 0x0C, 0x0C, .u 4, .ro, .c, 0, .any, 0, false⟩
/-- R522. -/
def credit_overrun : Obj := ⟨.port, 0x4001, 0x0D, 0x0D, .u 4, .ro, .c, 0, .any, 0, false⟩
/-- R522. -/
def credit_excess : Obj := ⟨.port, 0x4001, 0x0E, 0x0E, .u 4, .ro, .c, 0, .any, 0, false⟩
/-- R522. -/
def chan_errors : Obj := ⟨.port, 0x4001, 0x0F, 0x0F, .u 4, .ro, .c, 0, .any, 0, false⟩
/-- R522. -/
def fast_retrains : Obj := ⟨.port, 0x4001, 0x10, 0x10, .u 4, .ro, .c, 0, .any, 0, false⟩
/-- R522. -/
def full_trainings : Obj := ⟨.port, 0x4001, 0x11, 0x11, .u 4, .ro, .c, 0, .any, 0, false⟩
/-- R522. -/
def lane_moves : Obj := ⟨.port, 0x4001, 0x12, 0x12, .u 4, .ro, .c, 0, .any, 0, false⟩
/-- R522. -/
def rx_lane : Obj := ⟨.port, 0x4002, 0x00, 0x08, .u 4, .ro, .c, 0, .any, 0, false⟩
/-- R522. -/
def pool : Obj := ⟨.port, 0x4003, 0x00, 0x08, .u 4, .ro, .c, 0, .any, 0, false⟩
/-- R522. -/
def lane_fec_ce : Obj := ⟨.port, 0x4004, 0x00, 0x08, .u 8, .ro, .c, 0, .any, 0, false⟩
/-- R522. -/
def lane_fec_ue : Obj := ⟨.port, 0x4005, 0x00, 0x08, .u 8, .ro, .c, 0, .any, 0, false⟩
/-- R546. -/
def fr_select : Obj := ⟨.dev, 0x6030, 0x00, 0x00, .u 1, .rw, .c, 0, .upto 7, 0, true⟩
/-- R546. -/
def fr_base : Obj := ⟨.dev, 0x6031, 0x01, 0x01, .u 8, .rw, .c, 0, .any, 0x603000, false⟩
/-- R546. -/
def fr_port : Obj := ⟨.dev, 0x6031, 0x02, 0x02, .u 1, .rw, .c, 0, .upto 1, 0x603000, false⟩
/-- R546. -/
def fr_enable : Obj := ⟨.dev, 0x6031, 0x03, 0x03, .bool, .rw, .c, 0, .any, 0x603000, false⟩
/-- R546. -/
def fr_head : Obj := ⟨.dev, 0x6031, 0x04, 0x04, .u 2, .ro, .c, 0, .any, 0x603000, false⟩
/-- R546. -/
def fr_tail : Obj := ⟨.dev, 0x6031, 0x05, 0x05, .u 2, .ro, .c, 0, .any, 0x603000, false⟩
/-- R546. -/
def fr_overflow : Obj := ⟨.dev, 0x6031, 0x06, 0x06, .bool, .w1c, .c, 0, .any, 0x603000, false⟩
/-- R546. -/
def fr_waits : Obj := ⟨.dev, 0x6031, 0x07, 0x07, .u 8, .ro, .c, 0, .any, 0x603000, false⟩
/-- R546. -/
def fr_posted : Obj := ⟨.dev, 0x6031, 0x08, 0x08, .u 8, .ro, .c, 0, .any, 0x603000, false⟩
/-- R546. -/
def fr_coal : Obj := ⟨.dev, 0x6031, 0x09, 0x09, .u 2, .rw, .c, 0, .any, 0x603000, false⟩
/-- R546. -/
def fr_backoff : Obj := ⟨.dev, 0x6032, 0x00, 0x00, .u 1, .rw, .n, 2, .rng 1 15, 0, false⟩
/-- R546. -/
def retry_slots : Obj := ⟨.dev, 0x6033, 0x00, 0x17, .u 1, .ro, .c, 0, .any, 0, false⟩
/-- R546. -/
def fr_parked : Obj := ⟨.dev, 0x6034, 0x01, 0x01, .u 4, .ro, .c, 0, .any, 0, false⟩
/-- R546. -/
def fr_coalesced : Obj := ⟨.dev, 0x6034, 0x02, 0x02, .u 8, .ro, .c, 0, .any, 0, false⟩
/-- R546. -/
def fr_unrouted : Obj := ⟨.dev, 0x6034, 0x03, 0x03, .u 4, .ro, .c, 0, .any, 0, false⟩
/-- R546. -/
def drain_timeout : Obj := ⟨.dev, 0x6035, 0x00, 0x00, .u 4, .rw, .n, 500, .rng 10 100000, 0, false⟩
/-- R546. -/
def fr_repost_ctx : Obj := ⟨.dev, 0x6036, 0x01, 0x01, .u 2, .rw, .c, 0, .upto 1023, 0, false⟩
/-- R546. -/
def fr_repost : Obj := ⟨.dev, 0x6036, 0x02, 0x02, .cmd, .cmd, .c, 0, .any, 0, false⟩
/-- R546. -/
def shootdowns : Obj := ⟨.dev, 0x6037, 0x01, 0x01, .u 8, .ro, .c, 0, .any, 0, false⟩
/-- R546. -/
def shootdown_last : Obj := ⟨.dev, 0x6037, 0x02, 0x02, .u 4, .ro, .c, 0, .any, 0, false⟩
/-- R546. -/
def remap_recalls : Obj := ⟨.dev, 0x6037, 0x03, 0x03, .u 8, .ro, .c, 0, .any, 0, false⟩
/-- R546. -/
def revoke_stragglers : Obj := ⟨.dev, 0x6037, 0x04, 0x04, .u 8, .ro, .c, 0, .any, 0, false⟩
/-- R571. -/
def agent_loss_time : Obj := ⟨.dev, 0x5060, 0x00, 0x00, .u 4, .rw, .n, 2000, .rng 500 100000, 0, false⟩
/-- R571. -/
def census_deadline : Obj := ⟨.dev, 0x5061, 0x00, 0x00, .u 4, .rw, .n, 400, .rng 100 400, 0, false⟩
/-- R571. -/
def lost_select : Obj := ⟨.dev, 0x5062, 0x00, 0x00, .u 2, .rw, .c, 0, .upto 4095, 0, true⟩
/-- R571. -/
def agt_life : Obj := ⟨.dev, 0x5063, 0x01, 0x01, .u 1, .ro, .c, 0, .any, 0x506200, false⟩
/-- R571. -/
def lost_cause : Obj := ⟨.dev, 0x5063, 0x02, 0x02, .u 1, .ro, .c, 0, .any, 0x506200, false⟩
/-- R571. -/
def agt_fence : Obj := ⟨.dev, 0x5063, 0x03, 0x03, .cmd, .cmd, .c, 0, .any, 0x506200, false⟩
/-- R571. -/
def agt_rejoin : Obj := ⟨.dev, 0x5063, 0x04, 0x04, .cmd, .cmd, .c, 0, .any, 0x506200, false⟩
/-- R571. -/
def purge_dirty : Obj := ⟨.dev, 0x5063, 0x05, 0x05, .u 4, .ro, .c, 0, .any, 0x506200, false⟩
/-- R571. -/
def purge_stale_kept : Obj := ⟨.dev, 0x5063, 0x06, 0x06, .u 4, .ro, .c, 0, .any, 0x506200, false⟩
/-- R571. -/
def purge_time : Obj := ⟨.dev, 0x5063, 0x07, 0x07, .u 4, .ro, .c, 0, .any, 0x506200, false⟩
/-- R571. -/
def agents_lost : Obj := ⟨.dev, 0x5064, 0x00, 0x00, .u 8, .ro, .c, 0, .any, 0, false⟩
/-- R571. -/
def rec_select : Obj := ⟨.dev, 0x5068, 0x00, 0x00, .u 1, .rw, .c, 0, .upto 31, 0, true⟩
/-- R571. -/
def rec_state : Obj := ⟨.dev, 0x5069, 0x01, 0x01, .u 1, .ro, .c, 0, .any, 0x506800, false⟩
/-- R571. -/
def census_number : Obj := ⟨.dev, 0x5069, 0x02, 0x02, .u 2, .ro, .c, 0, .any, 0x506800, false⟩
/-- R571. -/
def laggards : Obj := ⟨.dev, 0x5069, 0x03, 0x03, .oct 128, .ro, .c, 0, .any, 0x506800, false⟩
/-- R571. -/
def unresolved : Obj := ⟨.dev, 0x5069, 0x04, 0x04, .oct 128, .ro, .c, 0, .any, 0x506800, false⟩
/-- R571. -/
def unk_release : Obj := ⟨.dev, 0x5069, 0x05, 0x05, .cmd, .cmd, .c, 0, .any, 0x506800, false⟩
/-- R571. -/
def reissued : Obj := ⟨.dev, 0x5069, 0x06, 0x06, .u 8, .ro, .c, 0, .any, 0x506800, false⟩
/-- R571. -/
def acc_lost : Obj := ⟨.dev, 0x5069, 0x07, 0x07, .u 8, .ro, .c, 0, .any, 0x506800, false⟩
/-- R571. -/
def acc_tags_poisoned : Obj := ⟨.dev, 0x5069, 0x08, 0x08, .u 4, .ro, .c, 0, .any, 0x506800, false⟩
/-- R571. -/
def replayed : Obj := ⟨.dev, 0x5069, 0x09, 0x09, .u 4, .ro, .c, 0, .any, 0x506800, false⟩
/-- R571. -/
def stale_dropped : Obj := ⟨.dev, 0x5069, 0x0A, 0x0A, .u 8, .ro, .c, 0, .any, 0x506800, false⟩
/-- R571. -/
def unk_services : Obj := ⟨.dev, 0x5069, 0x0B, 0x0B, .u 8, .ro, .c, 0, .any, 0x506800, false⟩
/-- R571. -/
def hold_time_last : Obj := ⟨.dev, 0x5069, 0x0C, 0x0C, .u 4, .ro, .c, 0, .any, 0x506800, false⟩
/-- R571. -/
def unresolved_reads : Obj := ⟨.dev, 0x5069, 0x0D, 0x0D, .u 8, .ro, .c, 0, .any, 0x506800, false⟩
/-- R596. -/
def unit_kind : Obj := ⟨.dev, 0x3008, 0x01, 0x01, .u 1, .rw, .c, 0, .upto 2, 0, false⟩
/-- R596. -/
def unit_phys : Obj := ⟨.dev, 0x3008, 0x02, 0x02, .u 1, .rw, .c, 0, .any, 0, false⟩
/-- R596. -/
def unit_cmd : Obj := ⟨.dev, 0x3008, 0x03, 0x03, .cmd, .cmd, .c, 0, .any, 0, false⟩
/-- R596. -/
def unit_swap_to : Obj := ⟨.dev, 0x3008, 0x04, 0x04, .u 1, .rw, .c, 255, .any, 0, false⟩
/-- R596. -/
def unit_result : Obj := ⟨.dev, 0x3008, 0x05, 0x05, .u 1, .ro, .c, 0, .any, 0, false⟩
/-- R596. -/
def fences : Obj := ⟨.dev, 0x3009, 0x00, 0x00, .u 4, .ro, .c, 0, .any, 0, false⟩
/-- R596. -/
def log_seq : Obj := ⟨.dev, 0xA000, 0x00, 0x00, .u 4, .ro, .c, 0, .any, 0, false⟩
/-- R596. -/
def log_index : Obj := ⟨.dev, 0xA001, 0x00, 0x00, .u 4, .rw, .c, 0, .upto 65535, 0, true⟩
/-- R596. -/
def log_at : Obj := ⟨.dev, 0xA002, 0x00, 0x00, .oct 32, .ro, .c, 0, .any, 0xA00100, false⟩
/-- R596. -/
def alert_index : Obj := ⟨.dev, 0xA003, 0x00, 0x00, .u 2, .rw, .c, 0, .upto 1023, 0, true⟩
/-- R596. -/
def alert_at : Obj := ⟨.dev, 0xA004, 0x00, 0x00, .oct 32, .ro, .n, 0, .any, 0xA00300, false⟩
/-- R596. -/
def log_coalesced : Obj := ⟨.dev, 0xA005, 0x00, 0x00, .u 8, .ro, .c, 0, .any, 0, false⟩
/-- R596. -/
def log_ack : Obj := ⟨.dev, 0xA006, 0x00, 0x00, .u 4, .rw, .c, 0, .any, 0, false⟩
/-- R596. -/
def keeper_active : Obj := ⟨.dev, 0xA010, 0x01, 0x01, .u 1, .ro, .c, 0, .any, 0, false⟩
/-- R596. -/
def keeper_state : Obj := ⟨.dev, 0xA010, 0x02, 0x02, .u 1, .ro, .c, 16, .any, 0, false⟩
/-- R596. -/
def keeper_cmd : Obj := ⟨.dev, 0xA010, 0x03, 0x03, .cmd, .cmd, .c, 0, .any, 0, false⟩
/-- R596. -/
def keeper_failovers : Obj := ⟨.dev, 0xA010, 0x04, 0x04, .u 4, .ro, .n, 0, .any, 0, false⟩
/-- R596. -/
def status_code : Obj := ⟨.dev, 0xA011, 0x00, 0x00, .u 1, .ro, .c, 1, .any, 0, false⟩
/-- R596. -/
def port_syncs : Obj := ⟨.dev, 0xA020, 0x00, 0x17, .u 4, .ro, .c, 0, .any, 0, false⟩
/-- R596. -/
def fw_part : Obj := ⟨.dev, 0xA040, 0x01, 0x01, .u 1, .rw, .c, 0, .upto 1, 0, false⟩
/-- R596. -/
def fw_offset : Obj := ⟨.dev, 0xA040, 0x02, 0x02, .u 4, .rw, .c, 0, .any, 0, false⟩
/-- R596. -/
def fw_block : Obj := ⟨.dev, 0xA040, 0x03, 0x03, .oct 4096, .wo, .c, 0, .any, 0, false⟩
/-- R596. -/
def fw_cmd : Obj := ⟨.dev, 0xA040, 0x04, 0x04, .cmd, .cmd, .c, 0, .any, 0, false⟩
/-- R596. -/
def fw_result : Obj := ⟨.dev, 0xA040, 0x05, 0x05, .u 1, .ro, .c, 0, .any, 0, false⟩
/-- R596. -/
def fw_staged_version : Obj := ⟨.dev, 0xA040, 0x06, 0x06, .u 4, .ro, .c, 0, .any, 0, false⟩
/-- R619. -/
def rst_cause : Obj := ⟨.dev, 0x2000, 0x00, 0x00, .u 4, .w1c, .s, 786433, .any, 0, false⟩
/-- R619. -/
def rst_cmd : Obj := ⟨.dev, 0x2001, 0x00, 0x00, .cmd, .cmd, .c, 0, .any, 0, false⟩
/-- R619. -/
def boot_count : Obj := ⟨.dev, 0x2002, 0x00, 0x00, .u 8, .ro, .n, 0, .any, 0, false⟩
/-- R619. -/
def episodes : Obj := ⟨.dev, 0x2003, 0x00, 0x00, .u 4, .ro, .s, 0, .any, 0, false⟩
/-- R619. -/
def wd_timeout : Obj := ⟨.dev, 0x2004, 0x00, 0x00, .u 4, .rw, .n, 50, .rng 10 1000, 0, false⟩
/-- R619. -/
def lockup_time : Obj := ⟨.dev, 0x2005, 0x00, 0x00, .u 4, .rw, .n, 10000, .rng 1000 1000000, 0, false⟩
/-- R619. -/
def trim_state : Obj := ⟨.dev, 0x2006, 0x01, 0x01, .u 1, .ro, .c, 0, .any, 0, false⟩
/-- R619. -/
def trim_loads : Obj := ⟨.dev, 0x2006, 0x02, 0x02, .u 2, .ro, .c, 0, .any, 0, false⟩
/-- R619. -/
def dbg_req_ignored : Obj := ⟨.dev, 0x2007, 0x00, 0x00, .u 4, .ro, .s, 0, .any, 0, false⟩
/-- R650. -/
def root_sel : Obj := ⟨.dev, 0x2100, 0x01, 0x01, .u 1, .ro, .c, 0, .any, 0, false⟩
/-- R650. -/
def root_pref : Obj := ⟨.dev, 0x2100, 0x02, 0x02, .u 1, .rw, .n, 0, .upto 1, 0, false⟩
/-- R650. -/
def root_cmd : Obj := ⟨.dev, 0x2100, 0x03, 0x03, .cmd, .cmd, .c, 0, .any, 0, false⟩
/-- R650. -/
def pll_lock : Obj := ⟨.dev, 0x2100, 0x04, 0x04, .u 1, .ro, .c, 0, .any, 0, false⟩
/-- R650. -/
def root_switches : Obj := ⟨.dev, 0x2100, 0x05, 0x05, .u 4, .ro, .c, 0, .any, 0, false⟩
/-- R650. -/
def arith_div : Obj := ⟨.dev, 0x2101, 0x00, 0x00, .u 1, .ro, .c, 8, .any, 0, false⟩
/-- R650. -/
def fc_target : Obj := ⟨.dev, 0x2102, 0x01, 0x01, .u 1, .rw, .c, 0, .any, 0, false⟩
/-- R650. -/
def fc_ref : Obj := ⟨.dev, 0x2102, 0x02, 0x02, .u 1, .rw, .c, 0, .any, 0, false⟩
/-- R650. -/
def fc_count : Obj := ⟨.dev, 0x2102, 0x03, 0x03, .u 4, .rw, .c, 0, .any, 0, false⟩
/-- R650. -/
def fc_cmd : Obj := ⟨.dev, 0x2102, 0x04, 0x04, .cmd, .cmd, .c, 0, .any, 0, false⟩
/-- R650. -/
def fc_result : Obj := ⟨.dev, 0x2102, 0x05, 0x05, .u 8, .ro, .c, 0, .any, 0, false⟩
/-- R650. -/
def fc_state : Obj := ⟨.dev, 0x2102, 0x06, 0x06, .u 1, .ro, .c, 0, .any, 0, false⟩
/-- R650. -/
def osc_dly : Obj := ⟨.dev, 0x2103, 0x00, 0x00, .u 1, .ro, .c, 0, .any, 0, false⟩
/-- R650. -/
def sref_state : Obj := ⟨.dev, 0x2104, 0x00, 0x05, .u 1, .ro, .c, 0, .any, 0, false⟩
/-- R650. -/
def ltc : Obj := ⟨.dev, 0x2105, 0x00, 0x00, .u 8, .ro, .s, 0, .any, 0, false⟩
/-- R650. -/
def pstate : Obj := ⟨.dev, 0x2200, 0x01, 0x01, .u 1, .ro, .c, 0, .any, 0, false⟩
/-- R650. -/
def pstate_target : Obj := ⟨.dev, 0x2200, 0x02, 0x02, .u 1, .rw, .c, 0, .any, 0, false⟩
/-- R650. -/
def pstate_result : Obj := ⟨.dev, 0x2200, 0x03, 0x03, .u 1, .ro, .c, 0, .any, 0, false⟩
/-- R650. -/
def p1_gate_idle : Obj := ⟨.dev, 0x2200, 0x04, 0x04, .u 4, .rw, .n, 10, .rng 1 10000, 0, false⟩
/-- R650. -/
def p2_idle : Obj := ⟨.dev, 0x2200, 0x05, 0x05, .u 4, .rw, .n, 1000, .rng 100 10000000, 0, false⟩
/-- R650. -/
def p3_link_grace : Obj := ⟨.dev, 0x2200, 0x06, 0x06, .u 4, .rw, .n, 500, .rng 100 5000, 0, false⟩
/-- R650. -/
def ckpt_bytes : Obj := ⟨.dev, 0x2200, 0x07, 0x07, .u 4, .ro, .c, 0, .any, 0, false⟩
/-- R650. -/
def p3_entries : Obj := ⟨.dev, 0x2200, 0x08, 0x08, .u 4, .ro, .c, 0, .any, 0, false⟩
/-- R650. -/
def power_w : Obj := ⟨.dev, 0x2201, 0x01, 0x01, .f32, .ro, .c, 0, .any, 0, false⟩
/-- R650. -/
def bucket_j : Obj := ⟨.dev, 0x2201, 0x02, 0x02, .f32, .ro, .s, 1178304512, .any, 0, false⟩
/-- R650. -/
def gov_level : Obj := ⟨.dev, 0x2201, 0x03, 0x03, .u 1, .ro, .c, 0, .any, 0, false⟩
/-- R650. -/
def gov_period : Obj := ⟨.dev, 0x2201, 0x04, 0x04, .u 2, .rw, .n, 10, .rng 1 100, 0, false⟩
/-- R650. -/
def gov_release : Obj := ⟨.dev, 0x2201, 0x05, 0x05, .u 4, .rw, .n, 1000, .upto 12000, 0, false⟩
/-- R650. -/
def hot_limit : Obj := ⟨.dev, 0x2201, 0x06, 0x06, .f32, .rw, .n, 1121058816, .any, 0, false⟩
/-- R650. -/
def gov_actions : Obj := ⟨.dev, 0x2201, 0x07, 0x07, .u 8, .ro, .c, 0, .any, 0, false⟩
/-- R650. -/
def pmbus_fallbacks : Obj := ⟨.dev, 0x2201, 0x08, 0x08, .u 4, .ro, .c, 0, .any, 0, false⟩
/-- R650. -/
def temp : Obj := ⟨.dev, 0x2210, 0x00, 0x47, .f32, .ro, .v, 0, .any, 0, false⟩
/-- R650. -/
def temp_max : Obj := ⟨.dev, 0x2211, 0x01, 0x01, .f32, .ro, .v, 0, .any, 0, false⟩
/-- R650. -/
def temp_max_sensor : Obj := ⟨.dev, 0x2211, 0x02, 0x02, .u 1, .ro, .v, 0, .any, 0, false⟩
/-- R650. -/
def temp_peak : Obj := ⟨.dev, 0x2212, 0x00, 0x00, .f32, .ro, .s, 0, .any, 0, false⟩
/-- R650. -/
def wear_bins : Obj := ⟨.dev, 0x2220, 0x00, 0x1F, .u 4, .ro, .n, 0, .any, 0, false⟩
/-- R650. -/
def wear_used : Obj := ⟨.dev, 0x2221, 0x00, 0x00, .u 4, .ro, .n, 0, .any, 0, false⟩
/-- R683. -/
def vendor : Obj := ⟨.dev, 0x1000, 0x01, 0x01, .oct 16, .ro, .n, 0, .any, 0, false⟩
/-- R683. -/
def product : Obj := ⟨.dev, 0x1000, 0x02, 0x02, .oct 16, .ro, .n, 0, .any, 0, false⟩
/-- R683. -/
def serial : Obj := ⟨.dev, 0x1000, 0x03, 0x03, .oct 16, .ro, .n, 0, .any, 0, false⟩
/-- R683. -/
def stepping : Obj := ⟨.dev, 0x1000, 0x04, 0x04, .u 2, .ro, .n, 0, .any, 0, false⟩
/-- R683. -/
def dict_version : Obj := ⟨.dev, 0x1000, 0x05, 0x05, .u 2, .ro, .n, 256, .any, 0, false⟩
/-- R683. -/
def mgmt_mac : Obj := ⟨.dev, 0x1000, 0x06, 0x06, .oct 12, .ro, .n, 0, .any, 0, false⟩
/-- R683. -/
def llp_port : Obj := ⟨.dev, 0x1100, 0x01, 0x01, .u 2, .rw, .n, 60470, .rng 1024 65535, 0, false⟩
/-- R683. -/
def mgmt_addr : Obj := ⟨.dev, 0x1100, 0x02, 0x02, .oct 16, .rw, .n, 0, .any, 0, false⟩
/-- R683. -/
def mgmt_pfx : Obj := ⟨.dev, 0x1100, 0x03, 0x03, .u 1, .rw, .n, 64, .rng 1 128, 0, false⟩
/-- R683. -/
def llp_idle : Obj := ⟨.dev, 0x1100, 0x04, 0x04, .u 4, .rw, .n, 60, .rng 10 3600, 0, false⟩
/-- R683. -/
def fm_agent : Obj := ⟨.dev, 0x1100, 0x05, 0x05, .u 2, .rw, .n, 65535, .any, 0, false⟩
/-- R683. -/
def llp_sessions : Obj := ⟨.dev, 0x1101, 0x00, 0x00, .u 1, .ro, .c, 0, .any, 0, false⟩
/-- R683. -/
def llp_session_info : Obj := ⟨.dev, 0x1102, 0x00, 0x1F, .oct 16, .ro, .c, 0, .any, 0, false⟩
/-- R683. -/
def llp_hs_failures : Obj := ⟨.dev, 0x1103, 0x01, 0x01, .u 4, .ro, .c, 0, .any, 0, false⟩
/-- R683. -/
def llp_replays : Obj := ⟨.dev, 0x1103, 0x02, 0x02, .u 8, .ro, .c, 0, .any, 0, false⟩
/-- R683. -/
def lease_cmd : Obj := ⟨.dev, 0x1110, 0x01, 0x01, .cmd, .cmd, .c, 0, .any, 0, false⟩
/-- R683. -/
def lease_holder : Obj := ⟨.dev, 0x1110, 0x02, 0x02, .u 1, .ro, .c, 0, .any, 0, false⟩
/-- R683. -/
def lease_time : Obj := ⟨.dev, 0x1110, 0x03, 0x03, .u 4, .rw, .n, 10000, .rng 1000 600000, 0, false⟩
/-- R683. -/
def lease_left : Obj := ⟨.dev, 0x1110, 0x04, 0x04, .u 4, .ro, .c, 0, .any, 0, false⟩
/-- R683. -/
def lease_result : Obj := ⟨.dev, 0x1110, 0x05, 0x05, .u 1, .ro, .c, 0, .any, 0, false⟩
/-- R683. -/
def llp_client : Obj := ⟨.dev, 0x1120, 0x00, 0x3F, .oct 40, .rw, .n, 0, .any, 0, false⟩
/-- R683. -/
def nv_pending : Obj := ⟨.dev, 0x1130, 0x00, 0x00, .bool, .ro, .c, 0, .any, 0, false⟩
/-- R699. -/
def pcie_link : Obj := ⟨.dev, 0xB000, 0x00, 0x01, .u 2, .ro, .c, 0, .any, 0, false⟩
/-- R699. -/
def pcie_vfs : Obj := ⟨.dev, 0xB001, 0x00, 0x01, .u 2, .ro, .c, 0, .any, 0, false⟩
/-- R699. -/
def pcie_losses : Obj := ⟨.dev, 0xB002, 0x00, 0x01, .u 4, .ro, .c, 0, .any, 0, false⟩
/-- R699. -/
def pcie_aer_ue : Obj := ⟨.dev, 0xB003, 0x00, 0x01, .u 8, .ro, .c, 0, .any, 0, false⟩
/-- R699. -/
def pcie_aer_ce : Obj := ⟨.dev, 0xB004, 0x00, 0x01, .u 8, .ro, .c, 0, .any, 0, false⟩
/-- R699. -/
def pcie_flr : Obj := ⟨.dev, 0xB005, 0x00, 0x01, .u 4, .ro, .c, 0, .any, 0, false⟩
/-- R699. -/
def pcie_perst : Obj := ⟨.dev, 0xB006, 0x00, 0x01, .u 4, .ro, .s, 0, .any, 0, false⟩
/-- R699. -/
def pcie_noflit : Obj := ⟨.dev, 0xB007, 0x00, 0x01, .u 4, .ro, .c, 0, .any, 0, false⟩

end O

/-- A piece of the object table. -/
def objTable0 : List Obj :=
  [O.inventory_seq, O.hs_phys, O.ct_phys, O.te_phys, O.hs_map, O.ct_map, O.te_map, O.node_number, O.chart_free, O.chart_ecc_events, O.frames_free_hbm, O.frames_free_ddr, O.ptc_misses, O.ext_op, O.ext_ctx, O.ext_count, O.ext_place, O.ext_mirror, O.ext_peer, O.ext_handle, O.ext_remoor, O.ext_cap, O.ext_result, O.ext_select]

/-- A piece of the object table. -/
def objTable1 : List Obj :=
  [O.ext_state, O.ext_owner, O.ext_frames, O.ext_grant_epoch, O.ext_sharers, O.ext_frame_index, O.ext_frame_at, O.grant_handle, O.grant_node, O.grant_rights, O.grant_issue, O.grant_out, O.bind_select, O.binding, O.unbind_grace, O.bind_mismatches, O.win_base, O.win_count, O.win_gen, O.owner_port, O.commits_ok, O.commits_rejected, O.last_reject, O.extents]

/-- A piece of the object table. -/
def objTable2 : List Obj :=
  [O.agt_select, O.reach_mask, O.outstanding, O.retry_early, O.snoop_late, O.protocol_errors, O.snoop_bound, O.snoop_timeout, O.retry_early_limit, O.protocol_errors_all, O.coh_select, O.dir_used, O.dir_group, O.busy_lines, O.acc_lines, O.dir_evictions, O.retry_wait_full, O.retry_set_busy, O.snoops_sent, O.owner_sourced, O.name_recalls, O.coh_errors, O.coh_err_last, O.wait_backoff]

/-- A piece of the object table. -/
def objTable3 : List Obj :=
  [O.set_busy_backoff, O.grant_records, O.can_select, O.can_agent, O.arith_select, O.acc_adds, O.acc_hits, O.acc_fills, O.acc_writebacks, O.acc_evictions, O.acc_retry, O.acc_overflow, O.acc_nan, O.acc_poisoned, O.acc_lines_dirty, O.view_reads, O.view_bytes, O.view_denied, O.view_saturations, O.view_nan_to_int, O.acc_idle_flush, O.acc_backoff, O.vscale_select, O.int8_scale]

/-- A piece of the object table. -/
def objTable4 : List Obj :=
  [O.strip_elems, O.job_fault_timeout, O.tile_strips, O.jobs_done, O.jobs_failed, O.jobs_active, O.strips_rerun, O.strips_replayed, O.strips_lost, O.tile_saturations, O.tile_nan_to_int, O.tile_poisoned, O.jq_select, O.jq_base, O.jq_size, O.jq_enable, O.jq_state, O.jq_head, O.jq_tail, O.jq_bad_bells, O.rcp_select, O.rcp_owner, O.rcp_digest, O.rcp_image]

/-- A piece of the object table. -/
def objTable5 : List Obj :=
  [O.rcp_ctx, O.rcp_op, O.rcp_result, O.rcp_per_ctx, O.tr_select, O.tr_base, O.tr_size, O.tr_enable, O.tr_head, O.tr_tail, O.tr_bad_bells, O.te_chunks, O.te_restarts, O.te_poison_copied, O.blk_ports, O.remote_timeout, O.mig_passes, O.mig_final_chunks, O.mig_backoff, O.migrations_done, O.migrations_active, O.sweep_backoff, O.sweeps_active, O.sweeps_pending]

/-- A piece of the object table. -/
def objTable6 : List Obj :=
  [O.zero_fills, O.sweep_select, O.sweep_rec, O.te_ack_timeout, O.pm_select, O.pm_state, O.pm_resync, O.pm_degraded_events, O.place_enable, O.place_max, O.soon_reserve, O.place_pending, O.place_blocked, O.place_done, O.place_ctx, O.place_vpn, O.place_count, O.place_target, O.place_cmd, O.place_result, O.frame_select, O.frame_status, O.frame_extent, O.frame_target]

/-- A piece of the object table. -/
def objTable7 : List Obj :=
  [O.lost_writes, O.auto_drain, O.fog_high, O.fog_low, O.fog_state, O.fog_raised, O.fog_time, O.dcp_select, O.dcp_state, O.dcp_cause, O.dcp_frames, O.dimm_info, O.dcp_cmd, O.dcp_slot, O.dcp_result, O.dimm_present, O.dimm_pwr, O.dcp_drain_result, O.dc_lines, O.dc_row_hits, O.dc_refresh_forced, O.dc_retrain_forced, O.dc_ca_parity, O.pd_idle]

/-- A piece of the object table. -/
def objTable8 : List Obj :=
  [O.auto_close, O.hit_cap, O.wq_high, O.wq_low, O.retrain_period, O.retrain_force, O.ca_retry_limit, O.dimm_settle, O.prsnt_debounce, O.hbm_select, O.hbm_state, O.hbm_fenced_ch, O.hbm_relaid, O.hbm_frames, O.hbch_state, O.hbch_lines, O.hbch_retrain_forced, O.hbch_fence, O.hbch_confirm, O.dc_ce, O.dc_ue, O.dc_poison_read, O.dc_bad_device, O.hb_ce]

/-- A piece of the object table. -/
def objTable9 : List Obj :=
  [O.hb_ue, O.hb_poison_read, O.hb_ondie_ce, O.ue_limit, O.ue_window, O.ce_notify, O.bad_device_count, O.ce_writeback, O.poison_written, O.repaired, O.merge_hold, O.merge_high, O.merge_backoff, O.merge_select, O.merge_rmw, O.merge_direct, O.merge_retry, O.merge_entries, O.scrub_base, O.scrub_len, O.scrub_rate, O.scrub_cmd, O.scrub_state, O.scrub_pos]

/-- A piece of the object table. -/
def objTable10 : List Obj :=
  [O.scrub_summary, O.ctx_state, O.ctx_cmd, O.ctx_result, O.ctx_resets, O.ctx_stragglers, O.ctx_reset_time, O.cir, O.pir, O.cbs, O.pbs, O.colour_aware, O.svc_group, O.shp_rate, O.shp_burst, O.tile_quota, O.tender_quota, O.fault_budget, O.pol_green, O.pol_yellow, O.pol_red, O.shp_waits, O.ntf_func, O.ntf_sys_vector]

/-- A piece of the object table. -/
def objTable11 : List Obj :=
  [O.ntf_rate, O.ntf_burst, O.ntf_ring_base, O.ntf_ring_size, O.ntf_ring_en, O.ntf_raise, O.ntf_held, O.ntf_sent, O.ntf_vec, O.ntf_coal, O.sg_select, O.sg_quantum, O.sg_latency, O.reset_timeout, O.frz_select, O.frz_state, O.frz_record, O.frz_release, O.frozen_agents, O.lc_state, O.lc_target, O.lc_cmd, O.lc_confirm, O.lc_result]

/-- A piece of the object table. -/
def objTable12 : List Obj :=
  [O.id_digest, O.id_cert, O.ak_cert, O.fw_version, O.fw_image, O.boot_meas, O.boot_pref, O.boot_fallbacks, O.arb_fused, O.arb_commit, O.att_nonce, O.att_cmd, O.att_result, O.att_report, O.link_anchors, O.link_sec_state, O.tag_fail, O.tag_fail_limit, O.setup_fail_limit, O.link_rekeys, O.link_release, O.link_partner, O.ide_streams, O.ide_required]

/-- A piece of the object table. -/
def objTable13 : List Obj :=
  [O.ide_rejects, O.set_select, O.set_id, O.set_members, O.set_cmd, O.set_result, O.set_record, O.set_state, O.set_failed_node, O.dbg_nonce, O.dbg_token, O.dbg_state, O.dbg_result, O.dbg_owner_digest, O.key_state, O.key_cmd, O.key_result, O.rekey_left, O.rekeys, O.enclave, O.dm_value, O.dm_extend, O.dm_count, O.dm_log_index]

/-- A piece of the object table. -/
def objTable14 : List Obj :=
  [O.dm_log_at, O.dm_overflow, O.ctx_att_nonce, O.ctx_att_cmd, O.ctx_att_result, O.ctx_att_report, O.link_state, O.width, O.port_state, O.port_cmd, O.rx_map, O.tx_map, O.port_losses, O.rtx_timer, O.nak_holdoff, O.rtx_limit, O.port_loss_time, O.beacon_idle, O.retrain_limit, O.lane_ue_limit, O.narrow_enable, O.flits_tx, O.flits_rx, O.crc_fail]

/-- A piece of the object table. -/
def objTable15 : List Obj :=
  [O.retransmits, O.naks_sent, O.naks_rcvd, O.rtx_timeouts, O.dup_dropped, O.reorder_dropped, O.window_stall, O.bad_ack, O.slot_errors, O.credit_overrun, O.credit_excess, O.chan_errors, O.fast_retrains, O.full_trainings, O.lane_moves, O.rx_lane, O.pool, O.lane_fec_ce, O.lane_fec_ue, O.fr_select, O.fr_base, O.fr_port, O.fr_enable, O.fr_head]

/-- A piece of the object table. -/
def objTable16 : List Obj :=
  [O.fr_tail, O.fr_overflow, O.fr_waits, O.fr_posted, O.fr_coal, O.fr_backoff, O.retry_slots, O.fr_parked, O.fr_coalesced, O.fr_unrouted, O.drain_timeout, O.fr_repost_ctx, O.fr_repost, O.shootdowns, O.shootdown_last, O.remap_recalls, O.revoke_stragglers, O.agent_loss_time, O.census_deadline, O.lost_select, O.agt_life, O.lost_cause, O.agt_fence, O.agt_rejoin]

/-- A piece of the object table. -/
def objTable17 : List Obj :=
  [O.purge_dirty, O.purge_stale_kept, O.purge_time, O.agents_lost, O.rec_select, O.rec_state, O.census_number, O.laggards, O.unresolved, O.unk_release, O.reissued, O.acc_lost, O.acc_tags_poisoned, O.replayed, O.stale_dropped, O.unk_services, O.hold_time_last, O.unresolved_reads, O.unit_kind, O.unit_phys, O.unit_cmd, O.unit_swap_to, O.unit_result, O.fences]

/-- A piece of the object table. -/
def objTable18 : List Obj :=
  [O.log_seq, O.log_index, O.log_at, O.alert_index, O.alert_at, O.log_coalesced, O.log_ack, O.keeper_active, O.keeper_state, O.keeper_cmd, O.keeper_failovers, O.status_code, O.port_syncs, O.fw_part, O.fw_offset, O.fw_block, O.fw_cmd, O.fw_result, O.fw_staged_version, O.rst_cause, O.rst_cmd, O.boot_count, O.episodes, O.wd_timeout]

/-- A piece of the object table. -/
def objTable19 : List Obj :=
  [O.lockup_time, O.trim_state, O.trim_loads, O.dbg_req_ignored, O.root_sel, O.root_pref, O.root_cmd, O.pll_lock, O.root_switches, O.arith_div, O.fc_target, O.fc_ref, O.fc_count, O.fc_cmd, O.fc_result, O.fc_state, O.osc_dly, O.sref_state, O.ltc, O.pstate, O.pstate_target, O.pstate_result, O.p1_gate_idle, O.p2_idle]

/-- A piece of the object table. -/
def objTable20 : List Obj :=
  [O.p3_link_grace, O.ckpt_bytes, O.p3_entries, O.power_w, O.bucket_j, O.gov_level, O.gov_period, O.gov_release, O.hot_limit, O.gov_actions, O.pmbus_fallbacks, O.temp, O.temp_max, O.temp_max_sensor, O.temp_peak, O.wear_bins, O.wear_used, O.vendor, O.product, O.serial, O.stepping, O.dict_version, O.mgmt_mac, O.llp_port]

/-- A piece of the object table. -/
def objTable21 : List Obj :=
  [O.mgmt_addr, O.mgmt_pfx, O.llp_idle, O.fm_agent, O.llp_sessions, O.llp_session_info, O.llp_hs_failures, O.llp_replays, O.lease_cmd, O.lease_holder, O.lease_time, O.lease_left, O.lease_result, O.llp_client, O.nv_pending, O.pcie_link, O.pcie_vfs, O.pcie_losses, O.pcie_aer_ue, O.pcie_aer_ce, O.pcie_flr, O.pcie_perst, O.pcie_noflit]

/-- Every object of the object tables. -/
def objTable : List Obj :=
  objTable0 ++ objTable1 ++ objTable2 ++ objTable3 ++ objTable4 ++ objTable5 ++ objTable6 ++ objTable7 ++ objTable8 ++ objTable9 ++ objTable10 ++ objTable11 ++ objTable12 ++ objTable13 ++ objTable14 ++ objTable15 ++ objTable16 ++ objTable17 ++ objTable18 ++ objTable19 ++ objTable20 ++ objTable21

/-- The object a scope kind, index and subindex name, if any. Port objects are looked up at their base index. -/
def findObj (sc : Scope) (index sub : Nat) : Option Obj :=
  objTable.find? (fun o => o.scope == sc && o.index == index && o.lo ≤ sub && sub ≤ o.hi)

/-- The objects of a class in a scope. -/
def objsOf (sc : Scope) (p : Cls → Bool) : List Obj := objTable.filter (fun o => o.scope == sc && p o.cls)

end Sys2Proof.Machine
end

