-- ==== Sys2Proof/Machine/State.lean ====
section
/-! DEFINITION. Sys2Proof/Machine/State.lean: the state of the node as plain data, every piece the spec gives it, and the
state after reset. Defaults of every table are the reset values; the log entries that name a chosen value are cited. -/

namespace Sys2Proof.Machine

open Sys2Proof

/-- Request kinds (R104). -/
inductive Kind where
  | rds
  | rdx
  | upg
  | rdonce
  | wrfull
  | wrpart
  | evc
  | wbd
  | acc
  | atom
  | hint
  | dbell
  | fence
deriving DecidableEq, Repr, Inhabited

/-- Where a retained request stands (R36): behind a chart fetch (R63), held by an ordering fence (R127), held in or
behind a retry slot (R531), sent towards its home slice, in a hold queue (R23, R556), in a line's wait list (R172),
served by an open transaction, or completed with its header still retained (R121). -/
inductive Phase where
  | fetching
  | fenced
  | slotted
  | sent
  | holding
  | waiting
  | served
  | fencing
  | done
deriving DecidableEq, Repr, Inhabited

/-- One code word of memory: data, or poison with its reason (R380). -/
inductive Cw where
  | data (bs : Bytes)
  | poison (reason : Nat)
deriving DecidableEq, Repr, Inhabited

/-- The two code words of a line (R373). -/
structure LineVal where
  lo : Cw
  hi : Cw
deriving DecidableEq, Repr, Inhabited

/-- A request from its admission until its completion leaves (R36). `id` is its place in admission order;
`mask` the binding's rights it was admitted with (R61); `cr` the entry it was translated under; `epoch` its shootdown
epoch (R539); `slot` says a record of it waits in a retry slot, `hadEntry` that it was translated, `unk` that it has had
UNK service (R564); `plane` the mesh plane it was sent on (R27) and `hop` its place in the order of sending (R28); `scale` the extent's
`int8_scale` when it was serialised (R240); `start` the data a recall brought home for it (R184). A view read waits for its further
stored lines, each read by an internal RdOnce (R238): `parent` names the view read such a request serves, `parts` holds what has come and
`ownSrc` says that some of it came from an owner (R171). `inner` marks a request of a tile, a tender engine or the dispatcher, which gets
no completion (R233, R291). -/
structure Req where
  id : Nat
  kind : Kind
  port : Nat
  h : Hdr
  slots : List Slot
  colour : Nat
  mask : Nat
  phase : Phase
  ser : Bool
  ppa : Nat
  gen : Nat
  view : Nat
  ext : Nat
  index : Nat
  rights : Nat
  epoch : Nat
  slot : Bool
  hadEntry : Bool
  unk : Bool
  plane : Nat
  hop : Nat
  scale : Nat
  ownSrc : Bool
  start : Option LineVal
  parent : Option Nat
  parts : List (Nat × LineVal)
  inner : Bool
deriving DecidableEq, Repr, Inhabited

/-- Completion statuses (R115). -/
inductive St where
  | ok
  | retry
  | frozen
  | revoked
  | staleGen
  | fault
  | portLost
  | accLost
  | poisonDelivered
  | viewDenied
deriving DecidableEq, Repr, Inhabited

/-- A completion from when it is formed until it leaves by a port (R114, R125). `hs` and `line` name the home slice and
line of a request with a pool physical address (`line` 0 with `untr` for others). -/
structure Cmp where
  port : Nat
  agt : Nat
  tag : Nat
  reqId : Nat
  status : St
  backoff : Nat
  grant : Nat
  empty : Bool
  ownerSrc : Bool
  gen : Nat
  len : Nat
  plWhy : Nat
  slots : List Slot
  untr : Bool
  line : Nat
  can : Nat
deriving DecidableEq, Repr, Inhabited

/-- Stable home states (R149). -/
inductive Hst where
  | u
  | s
  | x
  | os
  | unk
deriving DecidableEq, Repr, Inhabited

/-- Snoop kinds (R157). -/
inductive SnpK where
  | snpS
  | snpX
  | snpInv
  | snpCur
  | snpRecall
deriving DecidableEq, Repr, Inhabited

/-- Snoop response kinds (R157). -/
inductive RspK where
  | i
  | s
  | di
  | ds
  | dO
  | dk
  | wb
deriving DecidableEq, Repr, Inhabited

/-- What an open transaction of a line is for: a read or ownership grant, a non-caching read, a recall ahead of a write
or an ACC, a recall ahead of serving as from U (R146), an internal recall (R179), an eviction for the line named (R182),
the hand-over of evicted data (BUSY_EVICT), UNK service (R564), a purge of a lost owner in OS (R554), a wait for a way,
or the recall of one agent whose grant was not delivered (R587). -/
inductive TKind where
  | rd
  | rdonce
  | own
  | write
  | rename
  | recall
  | evict (claimant : Nat)
  | handover (claimant : Nat)
  | unk
  | purge (poison : Bool)
  | claim (victim : Nat)
  | single (can : Nat)
deriving DecidableEq, Repr, Inhabited

/-- A snoop of an open transaction that has not been answered: its target, its kind, and whether the target is the
recorded owner. -/
structure Snp where
  can : Nat
  kind : SnpK
  owner : Bool
deriving DecidableEq, Repr, Inhabited

/-- An open transaction of a line (R158, R178). `req` is the request served; `waitWb` lists the CANs
whose RspWB announced a write-back not yet taken and `gotWb` those whose write-back came first (R195); `ans` holds UNK answers; `val` the
data an owner gave, `dirty` its mark; `granted` that the grant completion is formed and `ackOk` that it awaits its
GntAck; `nx` the state, owner and sharer to enter at the end. -/
structure Txn where
  kind : TKind
  sid : Nat
  req : Nat
  snps : List Snp
  waitWb : List Nat
  gotWb : List Nat
  ans : List (Nat × RspK × Bool)
  val : Option LineVal
  src : Bool
  rsp : Option RspK
  granted : Bool
  noData : Bool
  nxSt : Hst
  nxOwner : Nat
  nxAdd : List Nat
deriving DecidableEq, Repr, Inhabited

/-- A directory entry, or a line with waiters or an open transaction (R151, R156). `way` says it occupies a way of its
set; `recalls` that an internal recall waits for the open transaction to end (R179), `single` the CANs from which alone the line is
to be recalled (R587). -/
structure Dir where
  way : Bool
  st : Hst
  group : Bool
  win : Nat
  owner : Option Nat
  sharers : Nat
  nctx : Nat
  nvpn : Nat
  lru : Nat
  txn : Option Txn
  waits : List Nat
  recalls : Bool
  single : List Nat
deriving DecidableEq, Repr, Inhabited

/-- A snoop record (R559): kept until the response is received or the target declared lost; `out` once it has left. -/
structure SnpRec where
  hs : Nat
  sid : Nat
  can : Nat
  line : Nat
  kind : SnpK
  ctx : Nat
  vpn : Nat
  out : Bool
  port : Nat
  since : Nat
deriving DecidableEq, Repr, Inhabited

/-- A grant record of a port (R161). -/
structure Grant where
  port : Nat
  agt : Nat
  tag : Nat
  can : Nat
  line : Nat
  reqId : Nat
deriving DecidableEq, Repr, Inhabited

/-- A line in ACC mode (R225, R227): its accumulator format, its 128 bytes, the poison reasons of its half-lines (0 none),
whether it is dirty, and while its fill is outstanding the ACCs that wait (R228). -/
structure AccLine where
  fmt : Nat
  val : Bytes
  p0 : Nat
  p1 : Nat
  dirty : Bool
  filling : Bool
  pend : List (Hdr × List Slot)
  lru : Nat
deriving DecidableEq, Repr, Inhabited

/-- A merge-buffer entry (R388): bytes and byte-valid mask of the partly valid code words, allocation order, and
whether it is exempt from flushing until its frame has a sweep record (R322), with a bit per code word it holds as AGENT
poison. -/
structure Merge where
  bytes : Bytes
  mask : Nat
  order : Nat
  exempt : Bool
  pois : Nat
deriving DecidableEq, Repr, Inhabited

/-- The coherence and integrity state of the home slices. `peeks` holds the data that owners gave for internal RdOnce not yet taken
by the unit that asked (R233, R291). -/
structure Coh where
  dir : Tab Dir
  acc : Tab AccLine
  merge : Tab Merge
  snoops : List SnpRec
  grants : List Grant
  sid : Tab Nat
  clk : Nat
  repl : List (Nat × Nat × Nat × List Slot)
  peeks : Tab LineVal
deriving DecidableEq, Repr, Inhabited

/-- A chart entry (R50); `rights` is [4] C, [3] T, [2] A, [1] W, [0] R. -/
structure Entry where
  valid : Bool
  typ : Nat
  gen : Nat
  rights : Nat
  view : Nat
  keyEpoch : Nat
  staleTol : Bool
  faultPend : Bool
  heat : Nat
  mirV : Bool
  swV : Bool
  sweep : Nat
  extent : Nat
  mirror : Nat
  frame : Nat
  host : Nat
  token : Nat
deriving DecidableEq, Repr, Inhabited

/-- A PTC entry (R62): context, page, and the chart entry's fields; the list is in order of use, newest first. -/
structure PtcE where
  port : Nat
  ctx : Nat
  vpn : Nat
  ent : Entry
deriving DecidableEq, Repr, Inhabited

/-- An entry of a tile's or tender engine's translation cache (R244, R329): context, page, and the chart entry with its generation; the
list of a unit is in order of use, newest first. -/
structure EngE where
  ctx : Nat
  vpn : Nat
  ent : Entry
deriving DecidableEq, Repr, Inhabited

/-- Extent states (R82). -/
inductive Xst where
  | free
  | moored
  | closing
  | draining
  | recalling
deriving DecidableEq, Repr, Inhabited

/-- A peer mirror of an extent (R87, R315): partner node and handle, the grant, and its state: 1 in step, 2 degraded,
3 resyncing. -/
structure Peer where
  node : Nat
  handle : Nat
  grant : Bytes
  state : Nat
deriving DecidableEq, Repr, Inhabited

/-- An extent slot (R80, R82). `closingFor` is the sharer an UNSHARE removes; `counter` says it holds its drain counters
and `waitSince` its place among those that wait for one (R543); `stragglers` counts requests failed at the timeout;
`walk` is the set of home slices whose walk has ended; `names` the contexts whose windows named it.
`cmd` and `ucmd` say a command awaits its revocation or its unshare; `freed` that its owner is being freed; `leaving` lists the sharers
that have left the list and wait for their own closing, each with whether a command awaits it. -/
structure Ext where
  st : Xst
  tag : Nat
  owner : Nat
  tier : Nat
  frames : List Nat
  mirrors : List Nat
  sharers : List (Nat × Nat)
  epoch : Nat
  peer : Option Peer
  closingFor : Option Nat
  counter : Bool
  waitSince : Nat
  phase : Nat
  stragglers : Nat
  walk : Nat
  names : List Nat
  cmd : Bool
  remoor : Bool
  target : Nat
  freed : Bool
  ucmd : Bool
  leaving : List (Nat × Bool)
deriving DecidableEq, Repr, Inhabited

/-- A frame's row: the extent and position it belongs to, whether it is a mirror frame, its key slot and sweep state
(R318), the chunks already zeroed (R322), its placement target (R341) and whether it is closed (R543). -/
structure Frame where
  ext : Nat
  mirror : Bool
  pos : Nat
  slot : Nat
  scrub : Bool
  rekey : Bool
  rcd : Option Nat
  chunks : Nat
  touched : Bool
  target : Nat
  torder : Nat
  closedAll : Bool
  closedFor : List Nat
deriving DecidableEq, Repr, Inhabited

/-- A sweep record (R319). -/
structure Sweep where
  rekey : Bool
  ctx : Nat
  frame : Nat
  mark : Nat
deriving DecidableEq, Repr, Inhabited

/-- A staging bank of a PF0 direct window (R66), its slots as entry bytes and index. -/
structure Stg where
  ctx : Nat
  count : Nat
  newGen : Nat
  digest : Nat
  busy : Bool
  cmd : Nat
  result : Nat
  slot : Nat
  snapGen : Nat
  slots : Tab (Nat × Nat)
deriving DecidableEq, Repr, Inhabited

/-- What an internal commit does (R78): the causes with their `aux` codes (R527). -/
inductive IcKind where
  | publish (job a b : Nat)
  | migration (frame : Nat)
  | revocation (slot : Nat)
  | unshare (slot ctx : Nat)
deriving DecidableEq, Repr, Inhabited

/-- A commit or internal commit of a window, from its arising until it ends (R79): a driver commit of a bank of a port,
or an internal one with the entries it writes. `ph` 0 waiting for its turn, 1 checked with its digest pass running,
2 held by remap recalls, 3 applied and draining. -/
structure Commit where
  ctx : Nat
  port : Nat
  bank : Nat
  internal : Option IcKind
  writes : List (Nat × Entry)
  remap : List Nat
  walk : Nat
  ph : Nat
  epoch : Nat
  acks : Nat
  bumped : Bool
  since : Nat
deriving DecidableEq, Repr, Inhabited

/-- The chart and everything that changes it. `ents` is what both copies hold (R43); `bad` marks, by index, the copies whose stored
entry is beyond correction, bit 0 copy A and bit 1 copy B (R44). -/
structure Chart where
  ents : Tab Entry
  bad : Tab Nat
  ptc : List PtcE
  fetches : List (Nat × Nat × Nat)
  exts : Tab Ext
  frames : Tab Frame
  sweeps : Tab Sweep
  banks : Tab Stg
  commits : List Commit
  extBusy : Bool
  closeSeq : Nat
  probe : Option Nat
deriving DecidableEq, Repr, Inhabited

/-- A fault record waiting or being formed (R526, R531): its 24 fixed bytes, its context and kind, whether it waited
and for what request's retry slot (none: the island queue), and the page it names. -/
structure FRec where
  kind : Nat
  flags : Nat
  ctx : Nat
  source : Nat
  port : Nat
  opcode : Nat
  whr : Nat
  token : Nat
  aux : Nat
  gen : Nat
  parked : Bool
  req : Option Nat
deriving DecidableEq, Repr, Inhabited

/-- Life of an agent (R548). -/
inductive Life where
  | present
  | purging
  | absent
deriving DecidableEq, Repr, Inhabited

/-- What the node keeps of an agent: life and cause of loss, its freeze record (R413), purge progress, the binding
removals within the grace of R60, early-resend bookkeeping (R139), and the contexts its bindings named with C when it was declared lost (R567). -/
structure Agent where
  life : Life
  cause : Nat
  frozen : Bool
  frz : Bytes
  more : Nat
  purge : Nat
  purgeAt : Nat
  unbound : List (Nat × Nat)
  early : List (Nat × Nat × Nat × Nat × Nat)
  earlyTimes : List Nat
  named : List Nat
deriving DecidableEq, Repr, Inhabited

/-- A notification vector's pending state (R426). -/
structure Vec where
  causes : Nat
  count : Nat
  last : Nat
  seen : Bool
  held : Bool
deriving DecidableEq, Repr, Inhabited

/-- A Daymark log record: 64 bytes (R448). -/
abbrev DmRec := Bytes

/-- Context states (R402). -/
inductive Cst where
  | free
  | configuring
  | active
  | quiescing
  | sweeping
deriving DecidableEq, Repr, Inhabited

/-- A context: its state and running command, the reset in progress (R406: 0 none, 1 draining, 2 recalling), key ids
(0 none), rekey state, Daymark, and token buckets. -/
structure Ctx where
  st : Cst
  endFree : Bool
  cmd : Nat
  rphase : Nat
  rstart : Nat
  rwalk : Nat
  keys : Nat × Nat
  hostKey : Nat
  active : Nat
  rekeying : Bool
  rekeyLeft : Nat
  dm : Bytes
  dmCount : Nat
  dmLog : List DmRec
  shp : Option Nat
  ntfTok : Option Nat
  frTok : Option Nat
  vecs : Tab Vec
  ntfHead : Nat
  ntfTail : Nat
deriving DecidableEq, Repr, Inhabited

/-- What a logical home slice is in the middle of: fail-over phase (0 none, 1 held, 2 census open, 3 census closed), census
number, the CANs queried whose last report has not come and those whose query waits for a route, laggards (R561-R563), the
unresolved set with the contexts concerned (R567), the requests retained from before the loss (R556), whether ports hold
new requests for a swap or a quiesce (R578, R618), whether it has no unit and was emptied by R701, whether it has had a census since reset, and the
laggards that a full set has made (R562). -/
structure Slc where
  phase : Nat
  census : Nat
  queried : List Nat
  laggards : List Nat
  unres : List (Nat × List Nat)
  since : Nat
  quiesced : Bool
  noSpare : Bool
  hold : Bool
  retained : List Nat
  unsent : List Nat
  counted : Bool
  full : List Nat
deriving DecidableEq, Repr, Inhabited

/-- A message queued to leave by a Boroc port: its channel (0 REQ, 1 SNP, 2 RSP, 3 BLK, 4 MGT), its 256-bit header and
its data slots (R95), with what R131 and R132 chose its port by: the agent it is for (0xFFFF none), its line (none for a message that names none), and for a
completion the arrival port of its request, kept for the case that the port is lost first (R585). -/
structure Msg where
  chan : Nat
  hdr : Nat
  slots : List Slot
  agt : Nat := 0xFFFF
  line : Option Nat := none
  arrival : Nat := 32
deriving DecidableEq, Repr, Inhabited

/-- What has left the node on PCIe or the management Ethernet: a write to host memory (with the EP bit), an MSI-X
message, an IDE_KM answer, an LLP datagram body or a mailbox answer. -/
inductive Out where
  | hostWr (port fn addr : Nat) (bs : Bytes) (ep : Bool)
  | msix (port fn vec : Nat)
  | ideKm (port : Nat) (ok : Bool)
  | llp (sess ctr msg : Nat) (body : Bytes)
  | llpHs (kind sess : Nat) (body : Bytes)
  | mailbox (port : Nat) (body : Bytes)
  | mgt (agt : Nat) (body : Bytes)
  | flit (port : Nat) (f : Flit)
  | train (port : Nat) (f : Train)
  | abort (port reason : Nat)
deriving DecidableEq, Repr, Inhabited

/-- The event log (R593): records of the island newest first, the flash copy of ALERT records, and the present rate
window with its count per code (R594); `lastAlert` is the `seq` of the newest ALERT record since the log was cleared (R595). -/
structure Log where
  recs : List Bytes
  alerts : List Bytes
  win : Nat
  counts : Tab Nat
  lastAlert : Nat
deriving DecidableEq, Repr, Inhabited

/-- A tier migration, a drain move or a re-layout move of one frame (R306, R307): its source, destination and mirror
destination, completed copy passes, dirty chunks, chunks still to copy in this pass, phase (1 copying, 2 write hold with
recall, 3 final pass, 4 switching, 5 draining), the home slices whose walk has ended, what started it (0 MIGRATE of
tender op `op`, 1 placement, 2 drain of pair `op`, 3 re-layout of stack `op`), whether it is a move of a mirror frame. -/
structure Mig where
  src : Nat
  dst : Nat
  mdst : Option Nat
  passes : Nat
  dirty : Nat
  todo : List Nat
  phase : Nat
  walk : Nat
  kind : Nat
  op : Nat
  isMirror : Bool
  epoch : Nat
deriving DecidableEq, Repr, Inhabited

/-- A mirror write to a partner node not yet answered (R315): its exchange number, line and extent slot, and the place that is kept for
the line meanwhile: 0 none (a sweep's write or a resync's), 1 its merge-buffer entry, 2 its accumulation-cache entry. -/
structure MwrOut where
  xid : Nat
  line : Nat
  slot : Nat
  keeps : Nat
deriving DecidableEq, Repr, Inhabited

/-- A drain of a channel pair in progress (R308, R360): the pair, whether the controller started it, the tender
operation it answers to, and the context and vector to notify. -/
structure Drain where
  pair : Nat
  auto : Bool
  op : Nat
  checked : Bool
deriving DecidableEq, Repr, Inhabited


/-! ### Shared engines: deficit round robin, tiles and jobs, tenders -/

/-- A place of deficit round robin (R421): the group under service, whether its quantum was added at this visit, the
deficits, and the context last served in each group. -/
structure Drr where
  group : Nat
  entered : Bool
  deficit : Tab Nat
  turn : Tab Nat
deriving DecidableEq, Repr

/-- Bytes to be written at a pool physical address within one code word, or poison for it (R263). -/
structure Piece where
  ppa : Nat
  bs : Bytes
  pois : Bool
deriving DecidableEq, Repr, Inhabited

/-- A reduction of a strip (R270): target CVA, its pool address, the combined FP32 value, and whether it is poisoned. -/
structure Red where
  cva : Nat
  ppa : Nat
  val : Nat
  pois : Bool
deriving DecidableEq, Repr, Inhabited

/-- What computing a strip found, counted once, when the strip leaves its tile: saturations, NaNs made integer zeros, elements and
reductions made poison by poisoned inputs, the first poisoned element, whether an output is poisoned, whether a NaN was stored, and the
strip's part of a CHECKSUM or NORM with its poison (R217, R263, R280). -/
structure Tally where
  sats : Nat
  nanInts : Nat
  pois : Nat
  first : Option Nat
  poisOut : Bool
  nan : Bool
  part : Option (Nat × Bool)
deriving DecidableEq, Repr, Inhabited

/-- A strip running on a tile (R278, R281): 0 started, 1 computed, 2 committed (its journal record marked). `parked` is
the time from which it waits on a page (R261). `trs` holds the entries it was translated under and `epoch` the shootdown epoch of
that moment (R539), `held` and `reds` the outputs and reductions its tile holds, and `tally` what its computing found. A committed strip
whose tile failed has the tile number 64 until another replays it (R283). -/
structure Strip where
  idx : Nat
  tile : Nat
  stage : Nat
  parked : Option Nat
  trs : List (Nat × Entry)
  epoch : Nat
  held : List Piece
  reds : List Red
  tally : Option Tally
deriving DecidableEq, Repr, Inhabited

/-- A line that a unit reads or writes, with the context, page and generation it was translated under (R35, R329); `noCtx` for the
controller's own work. -/
structure Want where
  ctx : Nat
  vpn : Nat
  gen : Nat
  line : Nat
deriving DecidableEq, Repr, Inhabited

/-- A record of a tile's journal (R281, R282): the job and strip it commits, the device key it is enciphered under, and the held outputs and
pending reductions with the translations they were made under. -/
structure JRec where
  job : Nat
  idx : Nat
  key : Nat
  trs : List (Nat × Entry)
  held : List Piece
  reds : List Red
  tally : Option Tally
deriving DecidableEq, Repr, Inhabited

/-- An active job (R250): its place in its queue, descriptor and constants, the CVA of its completion area's descriptor as it was fetched
(R264), whether it has started (R250), strips not yet started, to be run again, running and done, its failure status (0 none), flags, first
poisoned output, partial results by strip, the reductions sent and not completed (R284), poison still to be written into outputs it leaves
unfinished (R262, R283, R284), and a PUBLISH's phase (1 commits arisen, 2 to be completed). -/
structure Job where
  id : Nat
  ctx : Nat
  queue : Nat
  index : Nat
  desc : Bytes
  consts : Bytes
  slen : Nat
  next : Nat
  redo : List Nat
  strips : List Strip
  done : Nat
  fail : Nat
  poisOut : Bool
  sat : Bool
  nan : Bool
  rerun : Bool
  reruns : Nat
  bad : Option Nat
  parts : List (Nat × Nat × Nat × Bool)
  accs : List (Nat × Red)
  pub : Nat
  begun : Bool
  area : Nat
  spoil : List (Piece × Want)
deriving DecidableEq, Repr, Inhabited

/-- A recipe held in a number (R273): the owning context and its image. -/
structure Rcp where
  ctx : Nat
  image : Bytes
deriving DecidableEq, Repr, Inhabited

/-- The job dispatcher and the tiles: active jobs, loaded recipes, queues waiting on a page with the time from which each waits
and the VPN while no apply point has touched it (R252, R525), the tiles' round robin, the tag of the next internal request, and the
journals: two records per physical tile, keyed by 2 × tile + record (R282). -/
structure Jobs where
  jobs : List Job
  nextJob : Nat
  rcps : Tab (Option Rcp)
  qwait : Tab (Option (Nat × Option Nat))
  drr : Tab Drr
  tag : Nat
  journal : Tab (Option JRec)
deriving DecidableEq, Repr

/-- A chunk of a remote operation that awaits its answer (R312): its number, when it was first sent and last sent, and the
parts of its data received. -/
structure Remote where
  chunk : Nat
  xid : Nat
  first : Nat
  last : Nat
  parts : List (Nat × List Slot)
deriving DecidableEq, Repr, Inhabited

/-- An active tender operation (R298): ring and index of its descriptor, chunks not yet started, chunks outstanding with
the engine that runs each, chunks completed, its failure status (0 none), flags, the time from which it waits on a page, the
VPN while no apply point has touched that page (R525), remote exchanges, the pages a MIGRATE moves, and whether its ring's port has been lost (R589). -/
structure Tend where
  id : Nat
  ring : Nat
  index : Nat
  desc : Bytes
  ctx : Nat
  next : Nat
  total : Nat
  redo : List Nat
  running : List (Nat × Nat)
  done : Nat
  fail : Nat
  poisoned : Bool
  skipped : Bool
  parked : Option Nat
  asleep : Option Nat
  remote : List Remote
  pages : List Nat
  started : Bool
  key : Nat
  mute : Bool := false
deriving DecidableEq, Repr, Inhabited

/-- A message of a remote node whose lines wait to be read or written here (R312, R314): its header, its arrival port, the parts of a PUT
received, the status with which a part has been refused (0 none), and whether all of it is in. -/
structure Served where
  b : Blk
  port : Nat
  parts : List (Nat × List Slot)
  bad : Nat
  ready : Bool
deriving DecidableEq, Repr, Inhabited

/-- A mirror resync in progress (R316): chunks sent, and the mirror writes not yet answered are in `mwrs`. -/
structure Resync where
  slot : Nat
  next : Nat
deriving DecidableEq, Repr, Inhabited

/-- The tender engines: active operations, their round robin, chunks served to remote nodes, resyncs, and the chunks that wait on a shaper:
(0, operation, chunk) or (1, node, exchange) (R422). -/
structure Tends where
  ops : List Tend
  nextOp : Nat
  drr : Tab Drr
  served : List Served
  resyncs : List Resync
  waited : List (Nat × Nat × Nat)
deriving DecidableEq, Repr


/-! ### Physical units (R22, R577) -/

/-- A physical home slice, tile or tender engine: 0 in service (LIT with a role, else SPARE), 2 DARK, 3 REPAIRING; the
cause of its last darkness; and what it is in the middle of: 1 quiescing for an operator FENCE, 2 being swapped out, with
the physical number that takes its role and the time it began. -/
structure Unit where
  st : Nat
  cause : Nat
  doing : Nat
  swapTo : Nat
  since : Nat
deriving DecidableEq, Repr, Inhabited


/-! ### Channel controllers (ch. 08) -/

/-- A line request in a channel controller's queue (R344): its line, context, page hint (R101 Table 2: 0 AUTO, 1 OPEN, 2 CLOSE) and
place in arrival order. -/
structure Dreq where
  line : Nat
  ctx : Nat
  hint : Nat
  seq : Nat
deriving DecidableEq, Repr, Inhabited

/-- A channel controller: its four queues oldest first (R344), the round robin of all groups and of the latency-class groups
under Foghorn (R346, R350), open rows by bank (row + 1), the banks whose open row was left by AUTO (R348), row hits in a row by
bank, whether W drains (R347), refresh debt by bank (R352), ranks in power-down (R355), a retrain waiting for its window (R354),
command-address parity alerts in a row (R359), and the LTC at which its queues last became empty (R354). -/
structure Chan where
  l : List Dreq
  n : List Dreq
  b : List Dreq
  w : List Dreq
  drr : Drr
  lat : Drr
  rows : Tab Nat
  autos : Nat
  hits : Tab Nat
  drain : Bool
  debt : Tab Nat
  down : Nat
  due : Bool
  parity : Nat
  seq : Nat
  emptyAt : Nat
deriving DecidableEq, Repr

/-- The DRAM interfaces: channels 0–23 DDR5 and 24 + 32 × stack + channel HBM; when each sector's Foghorn went up; channels of
a pair trained since ONLINE; slots whose SPD failed and slots in their settle time, as masks by pair (R366); and the page hint that the
next read (2 × line) or write (2 × line + 1) of a line takes from its home slice to its channel, AUTO where not listed (R101, R348). -/
structure Dram where
  chans : Tab Chan
  fogAt : Tab Nat
  trained : Tab Nat
  spdBad : Tab Nat
  settling : Tab Nat
  hints : Tab Nat
deriving DecidableEq, Repr

/-! ### Power (ch. 17) -/

/-- Resets and their episode (ch. 16): the reach of the episode that runs (0 none, 1 core, 2 system, 3 power-on), the sources asserted
as a mask of cause bits (Table 3), whether RST_N is to be sampled, the drive of RST_N, the power-good inputs and the enables driven, a trim
load in progress and its failures in a row, whether the reference wait has ended, the start-up stage (0 in an episode, 1 trim load, 2 trims
done, 3 BIST done, 4 firmware serves), a boot that follows a core episode, the watchdog armed for its escalation, ROM recovery, the STATUS and FAULT_N values held, the Keepers
released into ROM that have not written a heartbeat, the Keeper active before, a reset by `rst_cmd` still to begin, and THERMTRIP_N. -/
structure Rst where
  reach : Nat
  asserted : Nat
  sample : Bool
  rstDrive : Bool
  aon : Bool
  dramGood : Bool
  coreGood : Bool
  dramEn : Bool
  coreEn : Bool
  loading : Bool
  trimFails : Nat
  oscDone : Bool
  stage : Nat
  warm : Bool
  armed : Bool
  recovery : Bool
  heldCode : Nat
  heldFault : Bool
  roms : Nat
  pref : Nat
  cmd : Nat
  thermtrip : Bool
deriving DecidableEq, Repr, Inhabited

/-- Clocks, power states and thermal limits (ch. 17): the grace of R641, units power-gated in P1 by kind and physical number, DRAM in
self-refresh, the ports that run on their alternate SREF, the checkpoint held with its wrapping key, the target that stood before a P3
entry that is sought or begun, whether that entry has begun (R640 Table 7 steps 1 and 2), the bucket in microjoules, the package power in milliwatts, the wear bins as last written to flash with the seconds since, and routers failed (plane × 4096
+ number) with those whose new routes still drain. -/
structure Pwr where
  grace : Bool
  gated : List (Nat × Nat)
  selfRef : Bool
  alt : Nat
  ckpt : Bool
  wrapKey : Nat
  seek3 : Option Nat
  entering : Bool
  bucket : Int
  mw : Nat
  wear : List Nat
  wearSecs : Nat
  routers : List Nat
  routing : List Nat
deriving DecidableEq, Repr, Inhabited

/-! ### Scrubbing (ch. 09) -/

/-- A scrub and its summary (R395-R400): the range, the next line, the line after the last one checked, the counts, the status and flags, and the three lists. -/
structure Scrub where
  base : Nat
  len : Nat
  pos : Nat
  last : Nat
  checked : Nat
  corrected : Nat
  unc : Nat
  pois : Nat
  repaired : Nat
  skipped : Nat
  status : Nat
  empty : Bool
  cancelled : Bool
  running : Bool
  ceList : List Nat
  ueList : List Nat
  poList : List Nat
deriving DecidableEq, Repr

/-! ### Boroc links (ch. 12) -/

/-- A sequenced flit in the replay buffer (R503): its number, kind, `last` mask, control mark and slots, the pool each slot
was sent under (15 none), the messages whose last slot it carries, whether it is sacked, and when it was last sent again. -/
structure RFlit where
  seq : Nat
  fkind : Nat
  last : Nat
  ctl : Bool
  slots : List Slot
  pools : List Nat
  msgs : List Msg
  sacked : Bool
  sentAt : Nat
deriving DecidableEq, Repr, Inhabited

/-- The link layer of a port. Transmitter: next number, oldest unacknowledged number, replay buffer, retransmissions queued,
timer expiries, the message begun with the slots still to send, credits and drift by pool, and flit times sent. Receiver:
`expected`, reorder buffer, the message being joined (channel, header, slots), slots freed and not returned by pool, the NAK to
send and the last sent with its time, beacons to send, the retrain and width requests to send. Then the flit counts of the lanes
in each direction, width changes that are due for transmit and receive, the partner's last training frame and DONE, whether a credit return is due, whether
a drift retrain is scheduled, and when the link left UP. -/
structure LPort where
  next : Nat
  oldest : Nat
  replay : List RFlit
  rtxq : List Nat
  misses : Nat
  cur : Option (Msg × List Slot)
  credits : List Nat
  drift : List Nat
  flitNo : Nat
  expected : Nat
  reorder : List Flit
  rxm : Option (Nat × Nat × List Slot)
  unret : List Nat
  nak : Option Nat
  nakLast : Option (Nat × Nat)
  bcns : List Nat
  rtReq : Nat
  rtLane : Nat
  wreq : Nat
  txCount : Tab Nat
  rxCount : Tab Nat
  newWidth : Nat
  rxNew : Nat
  frame : Option Train
  done : Bool
  due : Bool
  driftDue : Bool
  leftAt : Nat
deriving DecidableEq, Repr, Inhabited

/-- What a lost port keeps until its link synchronisation ends (R585-R588): the port the exchange runs through, the replay
buffer, the message begun, the receive `expected`, the session salts of both directions, and the partner's digest. -/
structure Lost where
  via : Nat
  replay : List RFlit
  cur : Option Msg
  expected : Nat
  txSalt : Nat
  rxSalt : Nat
  partner : Bytes
deriving DecidableEq, Repr, Inhabited

/-- A request received into a port's REQ pool that waits for a retained-header place (R120). -/
structure Waiting where
  kind : Kind
  port : Nat
  src : Nat
  h : Hdr
  slots : List Slot
deriving DecidableEq, Repr

/-! ### Security (ch. 11) -/

/-- A handshake message being joined from its segments (R465). -/
structure Asm where
  nseg : Nat
  next : Nat
  body : Bytes
deriving DecidableEq, Repr, Inhabited

/-- The link session of a port (R457-R463): whether this side initiated it, the step reached (0 none, 1 hello sent, 2 reply sent,
3 finish sent), the transcript, the confirmations of both sides, failed handshakes in a row, the times of tag failures within a
second, the directional keys and salts with the old receive key, the key phases, the body of a rekey offer that stands, the messages being
joined (by kind and source node), whether this direction is protected yet (R494), the transmit key and salt that wait for LK_ACCEPT to leave,
and the lanes on which the new receive phase has come (R521). -/
structure Sess where
  init : Bool
  step : Nat
  tr : Bytes
  confI : Nat
  confR : Nat
  fails : Nat
  tags : List Nat
  txKey : Nat
  rxKey : Nat
  oldKey : Nat
  txSalt : Nat
  rxSalt : Nat
  txPhase : Bool
  rxPhase : Bool
  offer : Bytes
  asm : Tab Asm
  prot : Bool
  nextTx : Option (Nat × Nat)
  lanes : List Nat
deriving DecidableEq, Repr, Inhabited

/-- A member of a set being formed, as its founder sees it: 0 asked, 1 accepted, 2 sealed, and the nonce of its JOIN_ACK (R471). -/
structure Member where
  node : Nat
  st : Nat
  nonce : Bytes
deriving DecidableEq, Repr, Inhabited

/-- A device set slot (R471, R472): 0 empty, 1 forming here, 2 formed, 3 joining as a member; the key's number; the members asked;
the founder it joins; this node's nonce in play; and the port by which the exchange runs. -/
structure DevSet where
  st : Nat
  key : Nat
  mems : List Member
  founder : Nat
  nonce : Bytes
  port : Nat
deriving DecidableEq, Repr, Inhabited

/-- A flash part (R444, R590): its blocks (unlisted ones erased), whether it still holds the factory image, and whether a VERIFY has
ended with OK since its last write. -/
structure Flash where
  blocks : Tab Bytes
  factory : Bool
  verified : Bool
deriving DecidableEq, Repr, Inhabited

/-- The Keeper's security state: attestation requests oldest first (context or 0xFFFF, nonce), device sets, the debug nonce with
its time, the marks of an INVASIVE unlock and of a boundary intrusion, the class C keys of boot (0 destroyed), the IDE streams
keyed by port, the running image's anti-rollback value, the flash parts, and the nonce issued to each JTAG or Light List read. -/
structure Sec where
  att : List (Nat × Bytes)
  sets : Tab DevSet
  nonce : Option (Bytes × Nat)
  invasive : Bool
  intruded : Bool
  bootKey : Nat
  journalKey : Nat
  ide : Tab Nat
  arb : Nat
  flash : Tab Flash
deriving DecidableEq, Repr, Inhabited

/-! ### The Light List (ch. 18) -/

/-- A subscription (R674): the object's scope, index and subindex, the minimum interval in ms, the value last sent and when, and the number
of the EVENT that carries it while it is not acknowledged. -/
structure Sub where
  scope : Nat
  index : Nat
  sub : Nat
  every : Nat
  last : Bytes
  at_ : Nat
  msg : Option Nat
  sentAt : Nat
deriving DecidableEq, Repr, Inhabited

/-- A session of a route (R656, R660, R667, R670, R673, R674): its principal (0 none, 1 OBSERVER, 2 TENANT, 3 HOST0, 4 HOST1, 5 FABRIC) with the
context of a TENANT, the entry of `llp_client` it came from, its number and the time of setup, its keys and salts of both directions, its snapshot
and assembly (scope, index, subindex, bytes), the answers kept by message number oldest first, the highest counter received and those seen, the
datagrams sent, the last EVENT number, and its subscriptions with the time its last datagram came. Its copies of the selectors and of `lease_result` are object values
kept under its number. -/
structure LlSess where
  who : Nat
  num : Nat
  client : Nat
  sid : Nat
  since : Nat
  txKey : Nat
  rxKey : Nat
  txSalt : Nat
  rxSalt : Nat
  snap : Option (Nat × Nat × Nat × Bytes)
  asm : Option (Nat × Nat × Nat × Bytes)
  answers : List (Nat × Bytes)
  high : Nat
  seen : List Nat
  sent : Nat
  nextEv : Nat
  subs : List Sub
  lastAt : Nat
deriving DecidableEq, Repr, Inhabited

/-- A handshake of a client address (R669): the cookie given and when, the step reached (1 SS_RETRY sent, 3 SS_REPLY sent), the client's entry and
key digest, the transcript, and the confirmation expected. -/
structure LlHs where
  cookie : Bytes
  cookieAt : Nat
  step : Nat
  client : Nat
  digest : Bytes
  tr : Bytes
  conf : Nat
  startAt : Nat
deriving DecidableEq, Repr, Inhabited

/-- The mailbox of a PCIe port (R677, R678). -/
structure Mbox where
  busy : Bool
  ready : Bool
  reqLen : Nat
  ansLen : Nat
  buf : Bytes
deriving DecidableEq, Repr, Inhabited

/-- A Light List message that waits for the Keepers (R616): the session, its number or tag, the arrival port of an MGT message, the
operation, its items, and what the key store finds for a command in it. -/
structure LlWait where
  sess : Nat
  msg : Nat
  port : Nat
  op : Nat
  items : List LlItem
  vouch : Vouch
  mute : Bool
deriving DecidableEq, Repr, Inhabited

/-- A class N object whose last write is not yet in both flash parts (R654): its key, and what it held before. -/
structure NvOld where
  key : Nat
  isOct : Bool
  dflt : Nat
  num : Nat
  oct : Bytes
deriving DecidableEq, Repr, Inhabited

/-- The Light List engine: sessions by number (0-31 LLP, 32 and 33 the mailboxes, 64 + agent MGT), LLP handshakes by client address, mailboxes,
messages that wait, the time of the lease's last renewal, the next session number, pending class N writes, and the links of MGMT0 and MGMT1. -/
structure Ll where
  sess : Tab LlSess
  hs : Tab LlHs
  boxes : Tab Mbox
  waits : List LlWait
  leaseAt : Nat
  nextSid : Nat
  nv : List NvOld
  mgmtDown : Nat
deriving DecidableEq, Repr, Inhabited

/-- Why a step stops. No command of this model faults: every command of the table has an effect in the spec. The one
constructor names an access outside the pool's address space, which no meaning makes. -/
inductive Fault where
  /-- Raised by nothing in this model; kept for an access to an address that does not exist. Safe. -/
  | noSuchAddress (a : Nat)
deriving DecidableEq, Repr

/-- Why a command is refused. -/
inductive Refusal where
  /-- Raised by the dispatcher for a command that has no meaning yet. Safe. -/
  | notModelled (mnemonic : String)
deriving DecidableEq, Repr

/-- The node. -/
structure State where
  /-- Commands waiting, first in first out. -/
  pending : List Instr
  /-- The local time counter (17 R624). -/
  ltc : Nat
  /-- The model's own field: how many free values were drawn [DESIGN CHOICE 0 (log 1)]. -/
  freeCtr : Nat
  /-- Values of the objects of the object tables that are numbers (18 R651, R652 and the object table of every chapter). -/
  objs : Tab Nat
  /-- Values of the objects that are octet strings (18 R651, R652). -/
  octs : Tab Bytes
  /-- Bytes of pool memory by pool physical address (02 R39, 09 R373). -/
  mem : List Host.Cell
  /-- Reason of the poison code words, by code word (09 R380, R381). -/
  poison : Tab Nat
  /-- Number of the key each 4 KiB chunk was stored under (11 R455, 07 R318). -/
  chunkKey : Tab Nat
  /-- Errors that stored code words carry: the failed device + 1, 0x100 uncorrectable (09 R373 to R376). -/
  dramBad : Tab Nat
  /-- Directory, accumulation cache, merge buffers, snoop and grant records, replay store of the home slices (04 R151, R156, R161; 05 R225; 09 R388; 14 R559). -/
  coh : Coh
  /-- The chart, the ports' translation caches and fetches, extents, frames, sweep records, staging banks, commits (02 R43, R50, R62, R63, R66, R79, R80; 07 R318, R319). -/
  chart : Chart
  /-- Requests retained by the ports (01 R36, 03 R118 to R121). -/
  reqs : List Req
  /-- The model's own field: the number the next request is told apart by [DESIGN CHOICE 1 (log 18)]. -/
  nextReq : Nat
  /-- Completions formed and not yet sent (03 R131 to R134). -/
  cmps : List Cmp
  /-- Fault records that wait, in retry slots or the island queue (13 R526, R531). -/
  frecs : List FRec
  /-- The 1,024 contexts (10 R402, R406; 11 R448, R453; 10 R422, R426). -/
  ctxs : Tab Ctx
  /-- Policer buckets by port and context (10 R416 to R418). -/
  pol : Tab (Nat × Nat)
  /-- The 4,096 agents (14 R548, 10 R413, 02 R60, 03 R139). -/
  agents : Tab Agent
  /-- What each logical home slice is in the middle of (14 R556, R561 to R567). -/
  slices : Tab Slc
  /-- Messages that wait to leave by each Boroc port (12 R500, 03 R95). -/
  txq : Tab (List Msg)
  /-- The model's own field: what has left the node on PCIe, Ethernet and the links, newest first [DESIGN CHOICE empty (log 83)]. -/
  out : List Out
  /-- The event log (15 R593 to R595). -/
  log : Log
  /-- Logical to physical maps of slices, tiles and tenders that differ from Table 2 (01 R17, R18, R25). -/
  maps : Tab Nat
  /-- Tier migrations, drain moves and re-layout moves (07 R306, R307). -/
  migs : List Mig
  /-- Mirror writes not yet answered (07 R315). -/
  mwrs : List MwrOut
  /-- The next BLK exchange number (07 R313). -/
  xid : Nat
  /-- Counts of corrected and uncorrectable code words by unit, in buckets of 1 s (09 R377 to R379). -/
  rates : Tab (List Nat)
  /-- Drains of channel pairs in progress (07 R308, 08 R360). -/
  drains : List Drain
  /-- Translation caches of tiles and tender engines, by unit: 64 tiles, then 16 engines (06 R244; 07 R329). -/
  ecache : Tab (List EngE)
  /-- When each fault ring last raised its vector, and whether one waits (13 R530). -/
  frMsi : Tab (Nat × Bool)
  /-- The shootdown epoch new requests count in (13 R539). -/
  epochNow : Nat
  /-- Number of the key grants are tagged under (0 none) (02 R90, R92). -/
  grantKey : Nat
  /-- Job dispatcher, active jobs, recipe store, tiles' round robin (06 R250, R273, R279). -/
  jobs : Jobs
  /-- Active tender operations, engines' round robin, chunks served, resyncs (07 R293, R298, R312, R316). -/
  tends : Tends
  /-- The 36 slices, 68 tiles and 18 tenders as built (01 R22, 15 R577). -/
  units : Tab Unit
  /-- The model's own field: the number the next key is told apart by [DESIGN CHOICE 1 (log 3)]. -/
  nextKey : Nat
  /-- Power states, energy bucket, wear ledger, routers (17 R636 to R649, 01 R30). -/
  pwr : Pwr
  /-- Channel controllers and the DIMMs' settling (08 R344 to R355, R366). -/
  dram : Dram
  /-- Corrected code words that wait to be written back (09 R375). -/
  ces : List Nat
  /-- The scrub and its summary (09 R395 to R400). -/
  scrub : Scrub
  /-- Requests in a port's receive pool that wait for a retained place (03 R120). -/
  pool : List Waiting
  /-- Link layer of the 24 Boroc ports (12 R492 to R520). -/
  ports : Tab LPort
  /-- What lost ports keep until their LINK_SYNC ends (15 R585 to R588). -/
  lostPorts : Tab Lost
  /-- Security sessions of the 24 links (11 R457 to R463). -/
  sess : Tab Sess
  /-- Attestation, device sets, debug, boot keys, IDE, flash parts (11 R444, R451, R468, R471, R476; 15 R590). -/
  sec : Sec
  /-- The reset episode, power-good inputs, enables, start-up, watchdog, STATUS (16 R598 to R613, 19 R688). -/
  rst : Rst
  /-- Light List sessions, handshakes, mailboxes, waiting messages, lease time, pending writes (18 R654 to R681). -/
  ll : Ll
deriving DecidableEq, Repr


/-- Object values after reset that differ from their table's default: rings FR4 to FR7 are written through port 1 (R528); the DIMMs the model is
reset with are fitted, powered and of 512 GB (PRESUMED, log 16). -/
def resetObjs : Tab Nat :=
  let rings := [4, 5, 6, 7].foldl (fun t r => Tab.put 0 t (O.fr_port.key r 0) 1) []
  (List.range 12).foldl (fun t m =>
    Tab.put 0 (Tab.put 0 (Tab.put 0 t (O.dcp_frames.key m 0) 16384) (O.dimm_present.key m 0) 3) (O.dimm_pwr.key m 0) 3) rings

/-- The 16 bytes of `dimm_info` after reset: 512 GB, two ranks, 8,000 MT/s (PRESUMED, log 16). -/
def resetDimm : Bytes := [0, 2, 2, 0, 0x40, 0x1F, 0, 0, 0, 0, 0, 0, 0, 0, 0, 0]

/-- Octet strings after reset. -/
def resetOcts : Tab Bytes :=
  (List.range 12).foldl (fun t m =>
    Tab.put (zeros 16) (Tab.put (zeros 16) t (O.dimm_info.key m 0) resetDimm) (O.dimm_info.key m 1) resetDimm) []

/-- The node at the end of a power-on episode (R606, R613 Table 4 step 1): RST_N has just been released and the straps sampled, every object
holds its default, no extent is moored, no context is allocated, memory lists nothing. -/
def State.reset : State := {
  pending := []
  ltc := 0
  freeCtr := 0
  objs := resetObjs
  octs := resetOcts
  mem := []
  poison := []
  chunkKey := []
  dramBad := []
  coh := ⟨[], [], [], [], [], [], 0, [], []⟩
  chart := ⟨[], [], [], [], [], [], [], [], [], false, 0, none⟩
  reqs := []
  nextReq := 1
  cmps := []
  frecs := []
  ctxs := []
  pol := []
  agents := []
  slices := []
  txq := []
  out := []
  log := ⟨[], [], 0, [], 0⟩
  maps := []
  migs := []
  mwrs := []
  xid := 0
  rates := []
  drains := []
  ecache := []
  frMsi := []
  epochNow := 0
  grantKey := 0
  jobs := ⟨[], 1, [], [], [], 0, []⟩
  tends := ⟨[], 1, [], [], [], []⟩
  units := []
  nextKey := 1
  pwr := ⟨false, [], false, 0, false, 0, none, false, 12000000000, 0, List.replicate 32 0, 0, [], []⟩
  dram := ⟨[], [], [], [], [], []⟩
  ces := []
  scrub := ⟨0, 0, 0, 0, 0, 0, 0, 0, 0, 0, 0, false, false, false, [], [], []⟩
  pool := []
  ports := []
  lostPorts := []
  sess := []
  sec := ⟨[], [], none, false, false, 0, 0, [], 0, []⟩
  rst := ⟨3, 0, true, false, true, true, true, true, true, false, 0, false, 1, false, false, false, 1, false, 0, 0, 0, false⟩
  ll := ⟨[], [], [], [], 0, 1, [], 0⟩ }

end Sys2Proof.Machine
end

