-- ==== Sys2Proof/Machine/Ops.lean ====
section
/-! DEFINITION. Sys2Proof/Machine/Ops.lean: the named operations the meanings share: object values, the clock, free
values, notifications and the event log, violations and freezing, frames, home-slice hashing, pool memory, the chart. -/

namespace Sys2Proof.Machine

open Sys2Proof

/-! ### Object values -/

/-- The value of an object for item `a` at place `b`. -/
def State.ov (s : State) (o : Obj) (a : Nat := 0) (b : Nat := 0) : Nat := Tab.get o.dflt s.objs (o.key a b)

/-- Set the value of an object. -/
def State.setOv (s : State) (o : Obj) (v : Nat) (a : Nat := 0) (b : Nat := 0) : State :=
  { s with objs := Tab.put o.dflt s.objs (o.key a b) v }

/-- Count `n` events in a counter object; a counter wraps at all ones of its width (log 7). -/
def State.bump (s : State) (o : Obj) (a : Nat := 0) (b : Nat := 0) (n : Nat := 1) : State :=
  s.setOv o ((s.ov o a b + n) % 2 ^ (8 * o.ty.len)) a b

/-- The bytes of an OCTETS object; zeros until written. -/
def State.oct (s : State) (o : Obj) (a : Nat := 0) (b : Nat := 0) : Bytes :=
  Tab.get (zeros o.ty.len) s.octs (o.key a b)

/-- Set the bytes of an OCTETS object. -/
def State.setOct (s : State) (o : Obj) (v : Bytes) (a : Nat := 0) (b : Nat := 0) : State :=
  { s with octs := Tab.put (zeros o.ty.len) s.octs (o.key a b) (fitTo o.ty.len v) }

/-- A BOOL object is 1. -/
def State.ob (s : State) (o : Obj) (a : Nat := 0) (b : Nat := 0) : Bool := s.ov o a b == 1

/-! ### Time and free values -/

/-- Ticks of the 58.75 MHz LTC in `n` µs, rounded up (R624). -/
def usTicks (n : Nat) : Nat := ceilDiv (n * 235) 4

/-- Ticks in `n` ns, rounded up. -/
def nsTicks (n : Nat) : Nat := ceilDiv (n * 235) 4000

/-- Whole µs in a number of ticks. -/
def ticksUs (t : Nat) : Nat := t * 4 / 235

/-- One cycle of CK_SLOW: the LTC counts it (R624). -/
def State.clockTick (s : State) : State := { s with ltc := (s.ltc + 1) % 2 ^ 64 }

/-- Take `n` free bytes: the generator's output is a free value (log 1). -/
def State.freeBytes (s : State) (n : Nat) : Bytes × State :=
  ((List.range n).map (fun i => Config.freeByte s.freeCtr i), { s with freeCtr := s.freeCtr + 1 })

/-- Take one free number below `m` (log 2). -/
def State.freeBelow (s : State) (m : Nat) : Nat × State :=
  (Config.freeNat s.freeCtr % m, { s with freeCtr := s.freeCtr + 1 })

/-! ### Tables of the state -/

def Ctx.dflt : Ctx :=
  ⟨.free, false, 0, 0, 0, 0, (0, 0), 0, 0, false, 0, zeros 32, 0, [], none, none, none, [], 0, 0⟩

def Agent.dflt : Agent := ⟨.present, 0, false, zeros 16, 0, 0, 0, [], [], [], []⟩

def Slc.dflt : Slc := ⟨0, 0, [], [], [], 0, false, false, false, [], [], false, []⟩

def Entry.none : Entry := ⟨false, 0, 0, 0, 0, 0, false, false, 0, false, false, 0, 0, 0, 0, 0, 0⟩

def Ext.dflt : Ext :=
  ⟨.free, 0, 0, 0, [], [], [], 0, none, none, false, 0, 0, 0, 0, [], false, false, 0, false, false, []⟩

def Frame.dflt : Frame := ⟨0, false, 0, 0, false, false, none, 0, false, 0, 0, false, []⟩

def Stg.dflt : Stg := ⟨0, 0, 0, 0, false, 0, 0, 0, 0, []⟩

def Dir.dflt : Dir := ⟨false, .u, false, 0, none, 0, 0, 0, 0, none, [], false, []⟩

def Vec.dflt : Vec := ⟨0, 0, 0, false, false⟩

def State.ctx (s : State) (c : Nat) : Ctx := Tab.get Ctx.dflt s.ctxs c

def State.setCtx (s : State) (c : Nat) (x : Ctx) : State := { s with ctxs := Tab.put Ctx.dflt s.ctxs c x }

def State.agent (s : State) (a : Nat) : Agent := Tab.get Agent.dflt s.agents a

def State.setAgent (s : State) (a : Nat) (x : Agent) : State := { s with agents := Tab.put Agent.dflt s.agents a x }

def State.slc (s : State) (h : Nat) : Slc := Tab.get Slc.dflt s.slices h

def State.setSlc (s : State) (h : Nat) (x : Slc) : State := { s with slices := Tab.put Slc.dflt s.slices h x }

def State.setCoh (s : State) (c : Coh) : State := { s with coh := c }

def State.setChart (s : State) (c : Chart) : State := { s with chart := c }

def State.dir (s : State) (l : Nat) : Dir := Tab.get Dir.dflt s.coh.dir l

def State.setDir (s : State) (l : Nat) (d : Dir) : State :=
  { s with coh := { s.coh with dir := Tab.put Dir.dflt s.coh.dir l d } }

def State.ext (s : State) (slot : Nat) : Ext := Tab.get Ext.dflt s.chart.exts slot

def State.setExt (s : State) (slot : Nat) (x : Ext) : State :=
  { s with chart := { s.chart with exts := Tab.put Ext.dflt s.chart.exts slot x } }

def State.frame (s : State) (f : Nat) : Frame := Tab.get Frame.dflt s.chart.frames f

def State.setFrame (s : State) (f : Nat) (x : Frame) : State :=
  { s with chart := { s.chart with frames := Tab.put Frame.dflt s.chart.frames f x } }

def State.entry (s : State) (i : Nat) : Entry := Tab.get Entry.none s.chart.ents i

/-- Write an entry into both copies of the chart in one step, which leaves neither damaged there (R43). -/
def State.setEntry (s : State) (i : Nat) (e : Entry) : State :=
  { s with chart := { s.chart with ents := Tab.put Entry.none s.chart.ents i e, bad := Tab.put 0 s.chart.bad i 0 } }

/-- Translation reads an entry: `a` and `b` say what the codes of copies A and B find (0 good, 1 corrected, 2 beyond correction), and a copy
once found beyond correction stays so until it is written. The first component says that both are lost. Copy A, when beyond correction
alone, is rewritten from copy B; an entry corrected or served from copy B is counted (R44, R93). -/
def State.readChart (s : State) (i a b : Nat) : Bool × State :=
  let old := Tab.get 0 s.chart.bad i
  let badA := a == 2 || old.testBit 0
  let badB := b == 2 || old.testBit 1
  let mark (t : State) (v : Nat) : State := { t with chart := { t.chart with bad := Tab.put 0 t.chart.bad i v } }
  if badA then
    if badB then (true, mark s 3) else (false, (mark s 0).bump O.chart_ecc_events)
  else if a = 1 then (false, s.bump O.chart_ecc_events)
  else (false, s)

def State.bank (s : State) (pf b : Nat) : Stg := Tab.get Stg.dflt s.chart.banks (pf * 2 + b)

def State.setBank (s : State) (pf b : Nat) (x : Stg) : State :=
  { s with chart := { s.chart with banks := Tab.put Stg.dflt s.chart.banks (pf * 2 + b) x } }

/-- Queue a message to leave by a port. -/
def State.send (s : State) (port : Nat) (m : Msg) : State :=
  { s with txq := Tab.put [] s.txq port (Tab.get [] s.txq port ++ [m]) }

/-- Record something that has left on PCIe or Ethernet, newest first. -/
def State.emit (s : State) (o : Out) : State := { s with out := o :: s.out }

/-! ### The event log (R593-R595, R702) -/

/-- The severity of an event code (R593, Table 9). -/
def sevOf (code : Nat) : Nat :=
  if code ∈ [0x22] then 0
  else if code ∈ [0x02, 0x03, 0x13, 0x20, 0x32, 0x40, 0x42, 0x70, 0x71] then 1 else 2

/-- Write an event record, rate-limited to 256 of one code per LTC window (R593, R594), raising PF0 vectors 8 and 9
(R595). -/
def State.event (s : State) (code kind src ctx detail : Nat) : State :=
  let k := s.ltc / 58750
  let counts := if k = s.log.win then s.log.counts else []
  let n := Tab.get 0 counts code
  if 256 ≤ n then
    ({ s with log := { s.log with win := k, counts := counts } } : State).bump O.log_coalesced
  else
    let seq := (s.ov O.log_seq + 1) % 2 ^ 32
    let sev := sevOf code
    let r := natLe 2 code ++ natLe 1 sev ++ natLe 1 kind ++ natLe 2 src ++ natLe 2 ctx ++ natLe 8 s.ltc
      ++ natLe 4 (s.ov O.boot_count) ++ natLe 8 detail ++ natLe 4 seq
    let s1 := { s with log :=
      { recs := (r :: s.log.recs).take 65536
        alerts := if sev = 2 then (r :: s.log.alerts).take 1024 else s.log.alerts
        win := k
        counts := Tab.put 0 counts code (n + 1)
        lastAlert := if sev = 2 then seq else s.log.lastAlert } }
    let s2 := s1.setOv O.log_seq seq
    let s3 := if sev = 0 then s2 else (s2.emit (.msix 0 0 8)).emit (.msix 1 0 8)
    if 1 ≤ code ∧ code ≤ 4 then (s3.emit (.msix 0 0 9)).emit (.msix 1 0 9) else s3

/-- The `ctx` field of an event that concerns no context. -/
def noCtx : Nat := 0xFFFF

/-! ### Notifications (R425, R426) -/

/-- Raise vector `v` of a context with cause bit `cause`; counts saturate at 65,535 (R426). -/
def State.raiseVec (s : State) (c v cause : Nat) : State :=
  let x := s.ctx c
  let q := Tab.get Vec.dflt x.vecs v
  let q' := { q with causes := setBit q.causes cause, count := satInc 65535 q.count }
  s.setCtx c { x with vecs := Tab.put Vec.dflt x.vecs v q' }

/-- A job or tender operation raises the vector of its descriptor. Once step 3 of a reset has ended the context's work its notifications
count among those that step 4 discards (R406) [DEDUCED, log 117]. -/
def State.raiseWork (s : State) (c v cause : Nat) : State := if (s.ctx c).rphase = 2 then s else s.raiseVec c v cause

/-- Raise the context's system vector (R425). -/
def State.raiseSys (s : State) (c cause : Nat) : State := s.raiseVec c (s.ov O.ntf_sys_vector c) cause

/-! ### Violations and freezing (R409-R414) -/

/-- Count a protocol violation of an agent. -/
def State.protoErr (s : State) (a : Nat) : State := (s.bump O.protocol_errors a).bump O.protocol_errors_all

/-- Freeze an agent for a violation, recording the first in full and counting the rest in byte 15 (R411, R413). -/
def State.violation (s : State) (a cause opcode ctx port cva : Nat) : State :=
  let s := if cause = 5 then s.protoErr a else s
  let x := s.agent a
  if x.frozen then
    let n := satInc 255 x.more
    s.setAgent a { x with more := n, frz := splice 15 (natLe 1 n) x.frz }
  else
    let r := natLe 1 cause ++ natLe 1 opcode ++ natLe 2 ctx ++ natLe 1 port ++ zeros 3 ++ natLe 6 cva ++ zeros 2
    let s1 := (s.setAgent a { x with frozen := true, frz := r, more := 0 }).bump O.frozen_agents
    let s2 := s1.event 0x50 4 a (if (s1.ctx ctx).st = .free then noCtx else ctx) 0
    if (s2.ctx ctx).st = .free then s2 else s2.raiseSys ctx 3

/-! ### Frames and units of memory -/

/-- The logical home slice of a pool physical address (R34). -/
def hsOf (ppa : Nat) : Nat :=
  bits ppa 12 5 ^^^ bits ppa 17 5 ^^^ bits ppa 22 5 ^^^ bits ppa 27 5 ^^^ bits ppa 32 5 ^^^ bits ppa 37 5
    ^^^ bits ppa 42 2

/-- The home slice of a line number. -/
def hsLine (line : Nat) : Nat := hsOf (line * 128)

/-- The frame of a pool physical address (R39). -/
def frameOf (ppa : Nat) : Nat := ppa / 2 ^ 26

/-- Frames that exist (R40). -/
def frameExists (f : Nat) : Bool := decide (f < 200704)

/-- The tier of a frame: 0 HBM, 1 DDR5 (R40). -/
def tierOf (f : Nat) : Nat := if f < 4096 then 0 else 1

/-- The channel pair of a DDR5 frame. -/
def pairOf (f : Nat) : Nat := (f - 4096) / 16384

/-- The sector of a frame (R40). -/
def sectorOf (f : Nat) : Nat := if f < 4096 then f / 1024 else pairOf f / 3

/-- A tile journal frame (R282). -/
def isJournal (f : Nat) : Bool := decide (f < 4096 ∧ 1022 ≤ f % 1024)

/-- The channel pair is LIT. -/
def State.pairLit (s : State) (m : Nat) : Bool := s.ov O.dcp_state m % 16 == 0

/-- The channel pair is being drained (R308). -/
def State.draining (s : State) (m : Nat) : Bool := (s.ov O.dcp_state m).testBit 4

/-- The frame is populated (R40, R41). -/
def State.populated (s : State) (f : Nat) : Bool :=
  if f < 4096 then true else frameExists f && decide ((f - 4096) % 16384 < s.ov O.dcp_frames (pairOf f))

/-- The frame is withdrawn from service: its pair is not LIT, its stack is lost, or it lies in the range a fenced
channel withdraws (R42, R359, R362, R363). -/
def State.withdrawn (s : State) (f : Nat) : Bool :=
  if f < 4096 then
    s.ov O.hbm_state (f / 1024) == 5 ||
      (s.ov O.hbm_fenced_ch (f / 1024) != 0xFF && decide (990 ≤ f % 1024 ∧ f % 1024 ≤ 1021))
  else !s.pairLit (pairOf f)

/-- The frame may be allocated (R42, R84, R282, R308). -/
def State.frameFree (s : State) (f : Nat) : Bool :=
  frameExists f && s.populated f && !s.withdrawn f && !isJournal f && (s.frame f).ext == 0
    && (decide (f < 4096) || !s.draining (pairOf f))

/-- The HBM channel a chunk lies on with no fenced channel (R334). -/
def hbmChannel (ppa : Nat) : Nat := bits ppa 12 5 ^^^ bits ppa 26 5

/-- The channel of a pair a chunk lies on (R335). -/
def ddrChannel (ppa : Nat) : Nat := 2 * pairOf (frameOf ppa) + (bits ppa 12 1 ^^^ bits ppa 26 1)

/-- The rank in which a kept frame of a stack is re-established (R363). -/
def keptRank (localFrame : Nat) : Nat := if 1022 ≤ localFrame then localFrame - 1022 else localFrame + 2

/-- Where a chunk of the fenced channel lies after re-layout: the local frame it occupies and the live channel (R363). -/
def relaidPlace (k rank : Nat) : Nat × Nat :=
  let live := rank % 31
  (990 + rank / 31, if live < k then live else live + 1)

/-- A line whose data is lost (R357): on a DARK pair, in a lost stack, or on a fenced channel and not yet re-laid. -/
def State.lost (s : State) (ppa : Nat) : Bool :=
  let f := frameOf ppa
  if f < 4096 then
    let n := f / 1024
    s.ov O.hbm_state n == 5 ||
      (s.ov O.hbm_fenced_ch n != 0xFF && hbmChannel ppa == s.ov O.hbm_fenced_ch n
        && (decide (990 ≤ f % 1024 ∧ f % 1024 ≤ 1021) || decide (s.ov O.hbm_relaid n ≤ keptRank (f % 1024))))
  else !s.pairLit (pairOf f)

/-- The extent slot a handle names when its reuse tag matches a live extent (R80, R82). -/
def State.liveExt (s : State) (handle : Nat) : Option Ext :=
  let x := s.ext (handle % 65536)
  if handle % 65536 ≠ 0 ∧ x.st ≠ .free ∧ x.tag = handle / 65536 then some x else none

/-- The handle of the extent in a slot (R80). -/
def Ext.handle (x : Ext) (slot : Nat) : Nat := x.tag * 65536 + slot

/-- The other frame of an intra-node mirrored pair, if any (R85). A frame that a migration has only claimed is not of the extent's lists
and has none. -/
def State.mirrorOf (s : State) (f : Nat) : Option Nat :=
  let r := s.frame f
  if r.ext = 0 then none
  else
    let x := s.ext r.ext
    if r.mirror then (if x.mirrors[r.pos]? = some f then x.frames[r.pos]? else none)
    else if x.frames[r.pos]? = some f then x.mirrors[r.pos]? else none

def State.pstateResult (s : State) (r : Nat) : State := s.setOv O.pstate_result r

/-- The P3 write ends with BUSY and the state is unchanged (R640). -/
def State.stopP3 (s : State) : State :=
  match s.pwr.seek3 with
  | some old =>
    { (s.setOv O.pstate_target old).pstateResult 2 with pwr := { s.pwr with seek3 := none, entering := false } }
  | none => s

/-- A wake event: a P3 entry that has begun is abandoned; P2 is left for P1, CK_ARITH starting at d = 16 (R638, R639, R640's cases). -/
def State.wake (s : State) : State :=
  if s.pwr.entering then s.stopP3
  else if s.ov O.pstate = 2 then
    { (s.setOv O.pstate 1).setOv O.arith_div 16 with pwr := { s.pwr with selfRef := false } }
  else s

/-- A unit without a spare changes state: its object takes the value, and the inventory sequence moves when its state nibble does (R22,
R25). The objects are `port_state`, `dcp_state` and `hbch_state`. -/
def State.setUnitSt (s : State) (o : Obj) (v : Nat) (a : Nat := 0) (b : Nat := 0) : State :=
  if s.ov o a b % 16 = v % 16 then s.setOv o v a b else (s.setOv o v a b).bump O.inventory_seq

/-! ### Logical and physical units (R14-R25) -/

/-- How many physical and logical units of a kind there are (R14). -/
def physCount : Nat → Nat
  | 0 => 36
  | 1 => 68
  | _ => 18

def logCount : Nat → Nat
  | 0 => 32
  | 1 => 64
  | _ => 16

/-- The physical unit a logical one is served by at first power-on (R14, R15). -/
def dfltPhys (kind n : Nat) : Nat :=
  match kind with
  | 0 => n / 8 * 9 + n % 8
  | 1 => n / 16 * 17 + n % 16
  | _ => n

/-- What the sparing table holds for a logical unit: its physical unit, or 256 + the number of the unit it lost while no SPARE is left for
it (R20, R23). -/
def State.mapOf (s : State) (kind n : Nat) : Nat := Tab.get (dfltPhys kind n) s.maps (kind * 256 + n)

/-- The physical unit serving a logical one; 255 while it has none, which is also what `hs_map`, `ct_map` and `te_map` then read
[DESIGN CHOICE, log 87]. -/
def State.physOf (s : State) (kind n : Nat) : Nat := if 256 ≤ s.mapOf kind n then 255 else s.mapOf kind n

/-- The physical unit a logical one has, or lost last. -/
def State.lastPhys (s : State) (kind n : Nat) : Nat := s.mapOf kind n % 256

/-! ### The mesh (R26-R31) -/

/-- The number of a router of a plane. -/
def routerKey (plane r : Nat) : Nat := plane % 2 * 4096 + r

/-- The routers of a plane that are bypassed: those that have failed and whose route change is in effect, or with `all` every one (R30,
R31). -/
def State.bypassed (s : State) (plane : Nat) (all : Bool) : List Nat :=
  s.pwr.routers.filter (fun k => k / 4096 == plane && (all || !s.pwr.routing.contains k))

/-- The route of a port and slice on a plane; 0 none. With no router bypassed the plane's own route is there. -/
def State.routeOn (s : State) (plane : Nat) (all : Bool) (port h : Nat) : Nat :=
  if s.bypassed plane all = [] then 1 else Config.meshRoute plane (s.bypassed plane all) port (s.physOf 0 h)

/-- The plane and route by which a request with a pool address travels from a port to a home slice: plane PPA[7], or the other one where
the pair has no route left on it (R27, R30). Every other message carries no pool address and travels on plane A (R27). -/
def State.travels (s : State) (all : Bool) (port ppa : Nat) : Nat × Nat :=
  let p := bits ppa 7 1
  let r := s.routeOn p all port (hsOf ppa)
  if r ≠ 0 then (p, r) else (1 - p, s.routeOn (1 - p) all port (hsOf ppa))

/-- A route change waits for the pair of a port and a home slice (R31): the source sends nothing for it until the change takes effect. -/
def State.rerouting (s : State) (port ppa : Nat) : Bool :=
  s.pwr.routing != [] && s.travels false port ppa != s.travels true port ppa

/-- The router buffers of plane `plane` that hold the requests of a port to a home slice, oldest first (R26, R28). A snoop or completion
has buffers of its own class: those of SNP are the snoops formed and not sent, those of RSP the completions formed, so no class waits for
another. -/
def State.reqBuffer (s : State) (plane port h : Nat) : List Req :=
  s.reqs.filter (fun q => q.phase == .sent && q.plane == plane && q.port == port && hsOf q.ppa == h)

/-- The key id in force for a slot of a context (R453). -/
def State.keyId (s : State) (c slot : Nat) : Nat :=
  if slot = 0 then (s.ctx c).keys.1 else (s.ctx c).keys.2

/-- The key under which a chunk of a frame is stored now (R318, R326, R455). -/
def State.frameKey (s : State) (ppa : Nat) : Nat :=
  let f := frameOf ppa
  let r := s.frame f
  if r.ext = 0 then 0
  else
    let c := (s.ext r.ext).owner
    match r.rcd with
    | some i => match s.chart.sweeps.find? (fun p => p.1 == i) with
      | some (_, w) =>
        if w.rekey && decide (ppa % 2 ^ 26 / 128 < w.mark) then s.keyId c (1 - r.slot) else s.keyId c r.slot
      | none => s.keyId c r.slot
    | none => s.keyId c r.slot

/-! ### Pool memory: code words of 64 bytes (R373) -/

/-- The bytes stored at an address; unlisted bytes read 0 (log 8). -/
def State.rawBytes (s : State) (ppa n : Nat) : Bytes := (List.range n).map (fun i => Tab.get 0 s.mem (ppa + i))

/-- The canonical form of the pool's bytes: addresses strictly rising, no byte equal to what an unlisted address
reads as. -/
def Memory.wf (m : List Host.Cell) : Bool := Tab.wf 0 m

/-- Store bytes. -/
def putBytes (m : List Host.Cell) : Nat → Bytes → List Host.Cell
  | _, [] => m
  | a, b :: t => putBytes (Tab.put 0 m a b) (a + 1) t

/-- The code word at a code-word number as it is decoded and decrypted from DRAM, without the sweep and loss rules:
poison as stored (R381), ordinary data under the key it was stored with, and otherwise unpredictable bytes (log 3). -/
def State.cwStored (s : State) (cw : Nat) : Cw :=
  match Tab.get 0 s.poison cw with
  | 0 =>
    let k := Tab.get 0 s.chunkKey (cw / 64)
    let want := s.frameKey (cw * 64)
    if k = want ∨ k = 0 then .data (s.rawBytes (cw * 64) 64)
    else .data ((List.range 64).map (fun i => Config.garble (cw * 64 + i) k want))
  | r => .poison r

/-- Write one code word of one frame as stored, under the key in force; a corrected write-back of the line that waits is
dropped (R375). -/
def State.cwStore (s : State) (cw : Nat) (v : Cw) : State :=
  let s := { s with dramBad := Tab.put 0 s.dramBad cw 0, ces := s.ces.filter (fun c => c / 2 != cw / 2) }
  match v with
  | .data bs =>
    { s with
      mem := putBytes s.mem (cw * 64) (fitTo 64 bs)
      poison := Tab.put 0 s.poison cw 0
      chunkKey := Tab.put 0 s.chunkKey (cw / 64) (s.frameKey (cw * 64)) }
  | .poison r => { s with poison := Tab.put 0 s.poison cw r }

/-- Count and log a poison code word that is written (R387, R702). -/
def State.notePoison (s : State) (cw reason : Nat) : State :=
  let f := frameOf (cw * 64)
  let r := s.frame f
  let c := if r.ext = 0 then noCtx else (s.ext r.ext).owner
  (s.bump O.poison_written 0 (reason - 1)).event 0x40 6 0 c
    (bits (cw * 64) 7 37 + reason * 2 ^ 41 + cw % 2 * 2 ^ 48)

/-- The address of a code word in the mirror frame. -/
def mirrorCw (cw g : Nat) : Nat := g * 2 ^ 20 + cw % 2 ^ 20

/-- Write a code word to its frame and its mirror, each where it is not lost (R358, R393); poison is counted once. -/
def State.cwWrite (s : State) (cw : Nat) (v : Cw) : State :=
  let f := frameOf (cw * 64)
  let s1 := if s.lost (cw * 64) then s else s.cwStore cw v
  let s2 := match s.mirrorOf f with
    | some g => if s.lost (mirrorCw cw g * 64) then s1 else s1.cwStore (mirrorCw cw g) v
    | none => s1
  match v with
  | .poison r => s2.notePoison cw r
  | .data _ => s2

/-- A write to the line has nowhere to go: lost and not mirrored (R358). -/
def State.lostWrite (s : State) (ppa : Nat) : Bool :=
  s.lost ppa && (match s.mirrorOf (frameOf ppa) with
    | some g => s.lost (g * 2 ^ 26 + ppa % 2 ^ 26)
    | none => true)

/-- The page named by a coherent name is stale-tolerant for a frame (R554). -/
def State.staleTol (s : State) (ctx vpn frame : Nat) : Bool :=
  let e := s.entry (s.ov O.win_base ctx + vpn)
  e.valid && e.typ == 0 && e.frame == frame && e.staleTol && decide (vpn < s.ov O.win_count ctx)

/-- The line is under a scrub and reads as zeros: pending, or under a record at or beyond the watermark with its chunk
bit clear (R322). -/
def State.scrubbing (s : State) (ppa : Nat) : Bool :=
  let r := s.frame (frameOf ppa)
  if r.scrub then
    match r.rcd with
    | none => !r.chunks.testBit (ppa % 2 ^ 26 / 4096)
    | some i => match s.chart.sweeps.find? (fun p => p.1 == i) with
      | some (_, w) => decide (w.mark ≤ ppa % 2 ^ 26 / 128) && !r.chunks.testBit (ppa % 2 ^ 26 / 4096)
      | none => true
  else false

/-- The counter place of a channel's integrity counters: the DDR5 channel, or 32 × stack + channel (R401). -/
def chanOf (ppa : Nat) : Nat :=
  if frameOf ppa < 4096 then frameOf ppa / 1024 * 32 + hbmChannel ppa else ddrChannel ppa

/-- Enter the errors a DRAM read meets into the cells: 1 + device for correctable, 0x100 for beyond correction. What a stack's on-die ECC has
corrected is only counted (R401). -/
def State.meet (s : State) (errs : List DramErr) : State :=
  errs.foldl (fun t e =>
    if e.ondie then (if frameOf (e.cw * 64) < 4096 then t.bump O.hb_ondie_ce 0 (chanOf (e.cw * 64)) else t)
    else { t with dramBad := Tab.put 0 t.dramBad e.cw (if e.ue then 0x100 else e.dev % 64 + 1) }) s

/-- Count a corrected code word (R375, R401). -/
def State.countCe (s : State) (ppa : Nat) : State :=
  if frameOf ppa < 4096 then s.bump O.hb_ce 0 (chanOf ppa) else s.bump O.dc_ce 0 (chanOf ppa)

/-- Count an uncorrectable code word (R377, R401). -/
def State.countUe (s : State) (ppa : Nat) : State :=
  if frameOf ppa < 4096 then s.bump O.hb_ue 0 (chanOf ppa) else s.bump O.dc_ue 0 (chanOf ppa)

/-- Count poison delivered to a consumer (R387). -/
def State.countPoisonRead (s : State) (ppa : Nat) : State :=
  if frameOf ppa < 4096 then s.bump O.hb_poison_read 0 (chanOf ppa) else s.bump O.dc_poison_read 0 (chanOf ppa)

/-! ### The link layer's tables -/

/-- Receive pools in slots (R496). -/
def poolSize : Nat → Nat
  | 0 => 512
  | 1 => 512
  | 2 => 1024
  | 3 => 4096
  | 4 => 128
  | 5 => 1024
  | 6 => 1536
  | 7 => 1280
  | _ => 256

/-- The nine pool sizes. -/
def poolSizes : List Nat := (List.range 9).map poolSize

/-- Nine zeros. -/
def nine : List Nat := List.replicate 9 0

def LPort.dflt : LPort :=
  { next := 0, oldest := 0, replay := [], rtxq := [], misses := 0, cur := none, credits := nine, drift := nine, flitNo := 0,
    expected := 0, reorder := [], rxm := none, unret := nine, nak := none, nakLast := none, bcns := [], rtReq := 0, rtLane := 0,
    wreq := 0, txCount := [], rxCount := [], newWidth := 0, rxNew := 0, frame := none, done := false, due := false, driftDue := false,
    leftAt := 0 }

def Sess.dflt : Sess :=
  { init := false, step := 0, tr := [], confI := 0, confR := 0, fails := 0, tags := [], txKey := 0, rxKey := 0, oldKey := 0,
    txSalt := 0, rxSalt := 0, txPhase := false, rxPhase := false, offer := [], asm := [], prot := false, nextTx := none, lanes := [] }

def State.lport (s : State) (p : Nat) : LPort := Tab.get LPort.dflt s.ports p

def State.setLport (s : State) (p : Nat) (x : LPort) : State := { s with ports := Tab.put LPort.dflt s.ports p x }

def State.session (s : State) (p : Nat) : Sess := Tab.get Sess.dflt s.sess p

def State.setSession (s : State) (p : Nat) (x : Sess) : State := { s with sess := Tab.put Sess.dflt s.sess p x }

/-- Slots freed in a port's receiver, to be returned as credits (R498). -/
def State.freeRx (s : State) (port pool n : Nat) : State :=
  let x := s.lport port
  s.setLport port { x with unret := x.unret.set pool (x.unret.getD pool 0 + n) }

/-- Replay copies of a port beyond its store's 256: their RspDI wait in the D.RSP pool (R559). -/
def State.diHeld (s : State) (p : Nat) : List (Nat × Nat × Nat × List Slot) := (s.coh.repl.filter (fun c => c.1 == p)).drop 256

end Sys2Proof.Machine
end

