-- ==== Sys2Proof/Machine/Lines.lean ====
section
/-! DEFINITION. Sys2Proof/Machine/Lines.lean: reading and writing lines of pool memory at their home slice: corrections,
repairs and poison (R375-R383), error rates (R377-R379), losing a pair or an HBM channel (R359-R362), scrub zero-fill
(R322), the merge buffer (R388-R394) and peer mirroring (R315). -/

namespace Sys2Proof.Machine

open Sys2Proof

/-! ### Channels and Foghorn (R344, R349) -/

def Drr.init : Drr := ⟨0, false, [], []⟩

def Chan.dflt : Chan := ⟨[], [], [], [], Drr.init, Drr.init, [], 0, [], false, [], 0, false, 0, 0, 0⟩

def State.chan (s : State) (c : Nat) : Chan := Tab.get Chan.dflt s.dram.chans c

def State.setChan (s : State) (c : Nat) (x : Chan) : State :=
  { s with dram := { s.dram with chans := Tab.put Chan.dflt s.dram.chans c x } }

/-- The sector of a channel. -/
def chanSector (c : Nat) : Nat := if c < 24 then c / 6 else (c - 24) / 32

/-- The channels of a sector. -/
def sectorChans (sec : Nat) : List Nat := (List.range 6).map (· + 6 * sec) ++ (List.range 32).map (· + 24 + 32 * sec)

/-- Foghorn of a sector is judged again after a queue or a mark has changed. -/
def State.foghorn (s : State) (sec : Nat) : State :=
  let fills := (sectorChans sec).map (fun c => (s.chan c).l.length)
  if s.ob O.fog_state 0 sec then
    if fills.all (fun n => decide (n ≤ s.ov O.fog_low)) then
      let t := ticksUs (s.ltc - Tab.get 0 s.dram.fogAt sec)
      (s.setOv O.fog_state 0 0 sec).bump O.fog_time 0 sec t
    else s
  else if fills.any (fun n => decide (s.ov O.fog_high ≤ n)) then
    let s1 := (s.setOv O.fog_state 1 0 sec).bump O.fog_raised 0 sec
    { s1 with dram := { s1.dram with fogAt := Tab.put 0 s1.dram.fogAt sec s1.ltc } }
  else s

/-- The page hint that the next read or write of a line takes to its channel: a request's own, OPEN (1) for a unit's write, AUTO (0) for a
write-back of the merge buffer or the accumulation cache (R101, R348). -/
def State.pageHint (s : State) (line : Nat) (write : Bool) (hint : Nat) : State :=
  { s with dram := { s.dram with hints := Tab.put 0 s.dram.hints (2 * line + b2n write) hint } }

/-! ### Losing DRAM -/

/-- A lost channel's queued requests are gone: they complete as R358 gives. Foghorn of its sector is judged without them (R349). -/
def State.dropChan (s : State) (ch : Nat) : State :=
  ({ s with dram := { s.dram with chans := Tab.del ch s.dram.chans } } : State).foghorn (chanSector ch)

/-- A frame returns to the free pool unscrubbed: its row and its sweep record are given up (R82, R324). -/
def State.freeFrame (s : State) (f : Nat) : State :=
  let sw := match (s.frame f).rcd with
    | some i => Tab.del i s.chart.sweeps
    | none => s.chart.sweeps
  { s with chart := { s.chart with sweeps := sw } }.setFrame f Frame.dflt

/-! ### Migrations abandoned (R307, R341, R359) -/

/-- The frames a move writes. -/
def Mig.dests (g : Mig) : List Nat := g.dst :: g.mdst.toList

/-- A migration is abandoned before its switch: its destinations return to the free pool. -/
def State.dropMig (s : State) (g : Mig) : State :=
  let t := g.dests.foldl State.freeFrame s
  { t with migs := t.migs.filter (fun m => m.src != g.src) }

/-- An abandoned migration's placement target returns to NONE (R341 Table 2). -/
def State.abandon (s : State) (g : Mig) : State :=
  let t := s.dropMig g
  let r := t.frame g.src
  if r.ext = 0 then t else t.setFrame g.src { r with target := 0, torder := 0 }

/-- Abandon the migrations a test picks, of those that have not switched. -/
def State.abandonIf (s : State) (p : Mig → Bool) : State :=
  (s.migs.filter (fun g => decide (g.phase < 4) && p g)).foldl State.abandon s

/-- A frame of a pair that is not LIT, or of a lost stack. -/
def State.gone (s : State) (f : Nat) : Bool := if f < 4096 then s.ov O.hbm_state (f / 1024) == 5 else !s.pairLit (pairOf f)

/-- Migrations into a pair that has gone DARK, or a stack that is lost, are abandoned before their switch; a placement keeps its target and a
MIGRATE its page, so that each starts again to another destination (R359's cases) [DEDUCED for a MIGRATE and a stack, log 108]. -/
def State.abandonGone (s : State) : State :=
  let again (t : State) (g : Mig) : State :=
    let t1 := t.dropMig g
    if g.kind = 0 then
      { t1 with tends := { t1.tends with ops := t1.tends.ops.map (fun o =>
          if o.id = g.op then { o with pages := o.pages ++ [g.src] } else o) } }
    else t1
  (s.migs.filter (fun g => decide (g.phase < 4) && g.dests.any s.gone)).foldl again s

/-- A channel pair goes DARK for a cause; with `auto_drain` the controller starts a drain of it (R359, R360). -/
def State.pairDark (s : State) (m cause : Nat) : State :=
  if s.pairLit m then
    let s1 := (s.setUnitSt O.dcp_state (s.ov O.dcp_state m / 16 * 16 + 2) m).setOv O.dcp_cause cause m
    let s2 := (((s1.event 0x41 0 m noCtx 0).dropChan (2 * m)).dropChan (2 * m + 1)).abandonGone
    let holds := s2.chart.frames.any (fun p => decide (4096 ≤ p.1 ∧ pairOf p.1 = m) && p.2.ext != 0)
    if s.ob O.auto_drain then
      (if holds then { s2.setUnitSt O.dcp_state 18 m with drains := s2.drains.filter (fun d => d.pair != m || !d.auto) ++ [⟨m, true, 0, false⟩] }
        else s2.setOv O.dcp_drain_result 0 m)
    else s2
  else s

/-- The frames of a stack's withdrawn range that belong to an extent (R364). -/
def State.rangeFrames (s : State) (n : Nat) : List Nat :=
  ((List.range 32).map (fun i => n * 1024 + 990 + i)).filter (fun f => (s.frame f).ext != 0)

/-- An HBM channel is fenced: the first of a stack starts the re-layout, a second loses the stack (R361-R364). The journal records of the
sector's tiles lie across all channels of the stack, so they are lost with any one (R282). -/
def State.fenceHbm (s : State) (n k : Nat) : State :=
  if s.ov O.hbch_state n k = 2 then s
  else
    let s1 := ((s.setUnitSt O.hbch_state 2 n k).event 0x41 0 n noCtx 0).dropChan (24 + 32 * n + k)
    let s2 : State := { s1 with jobs := { s1.jobs with journal := s1.jobs.journal.filter (fun p => p.1 / 34 != n) } }
    if s.ov O.hbm_fenced_ch n ≠ 0xFF then
      ((s2.setOv O.hbm_state 5 n).setOv O.hbm_frames 0 n).abandonGone
    else
      let st := if s2.rangeFrames n = [] then 3 else 1
      ((s2.setOv O.hbm_fenced_ch k n).setOv O.hbm_state st n).setOv O.hbm_relaid 0 n

/-- A write to a lost line with no mirror has no effect: it is counted, and logged under a code that no table names (R358, log 29). -/
def State.noteLostWrite (s : State) (line : Nat) : State :=
  let e := (s.frame (frameOf (line * 128))).ext
  (s.bump O.lost_writes).event (Config.eventCode 358 % 65536) 6 0 (if e = 0 then noCtx else (s.ext e).owner) 0

/-! ### Error rates (R377-R379) -/

/-- The sum of a rate's buckets. -/
def State.rate (s : State) (key : Nat) : Nat := (Tab.get [] s.rates key).foldl (· + ·) 0

/-- Count one in the present 1 s bucket of a rate (R378). -/
def State.rateAdd (s : State) (key : Nat) : State :=
  let l := match Tab.get [] s.rates key with
    | [] => [1]
    | x :: t => (x + 1) :: t
  { s with rates := Tab.put [] s.rates key l }

/-- A corrected code word: counted, and R379's bad-device and notify events. -/
def State.noteCe (s : State) (ppa dev : Nat) : State :=
  let ch := chanOf ppa
  let s := s.countCe ppa
  if frameOf ppa < 4096 then
    let s := s.rateAdd (400 + ch)
    if s.rate (400 + ch) = s.ov O.ce_notify + 1 ∧ s.ov O.ce_notify ≠ 0xFFFFFFFF then s.event 0x42 0 ch noCtx 0 else s
  else
    let s := (s.rateAdd (300 + ch)).rateAdd (1000 + ch * 64 + dev)
    let s := if s.rate (1000 + ch * 64 + dev) = s.ov O.bad_device_count ∧ s.ov O.bad_device_count ≠ 0xFFFF then
      (s.setOv O.dc_bad_device (dev % 32) 0 ch).event 0x42 0 ch noCtx 0 else s
    if s.rate (300 + ch) = s.ov O.ce_notify + 1 ∧ s.ov O.ce_notify ≠ 0xFFFFFFFF then s.event 0x42 0 ch noCtx 0 else s

/-- An uncorrectable code word counts towards its unit's rate, which may lose the pair or fence the channel (R377). -/
def State.noteUe (s : State) (ppa : Nat) : State :=
  let s := s.countUe ppa
  let f := frameOf ppa
  if f < 4096 then
    let ch := chanOf ppa
    let s := s.rateAdd (100 + ch)
    if s.ov O.ue_limit < s.rate (100 + ch) ∧ s.ov O.ue_limit ≠ 0xFFFF then s.fenceHbm (f / 1024) (hbmChannel ppa) else s
  else
    let s := s.rateAdd (pairOf f)
    if s.ov O.ue_limit < s.rate (pairOf f) ∧ s.ov O.ue_limit ≠ 0xFFFF then s.pairDark (pairOf f) 5 else s

/-- The one rolling of every bucket each second, keeping those within `ue_window` (R378). -/
def State.rollRates (s : State) : State :=
  let n := ceilDiv (s.ov O.ue_window) 1000
  { s with rates := s.rates.map (fun p => (p.1, (0 :: p.2).take n)) }

/-! ### Reading -/

/-- While `ce_writeback` is 1, a corrected code word waits to be written back (R375). -/
def State.wantWriteback (s : State) (cw : Nat) : State :=
  if s.ob O.ce_writeback && !s.ces.contains cw then { s with ces := s.ces ++ [cw] } else s

/-- A code word as memory holds it now, without the effects of a read: zeros under a scrub, poison where its data is lost or beyond
correction, else as stored. -/
def State.cwSeen (s : State) (cw : Nat) : Cw :=
  if s.scrubbing (cw * 64) then .data (zeros 64)
  else if s.lost (cw * 64) then .poison 7
  else if Tab.get 0 s.dramBad cw = 0x100 then .poison 1
  else s.cwStored cw

/-- The mirror's code word is good: not lost, not uncorrectable, not poison (R376); of a mirror frame under a scrub it is zeros (R86,
R322). -/
def State.goodMirror (s : State) (cw : Nat) : Option Cw :=
  match s.mirrorOf (frameOf (cw * 64)) with
  | none => none
  | some g => match s.cwSeen (mirrorCw cw g) with
    | .data bs => some (.data bs)
    | .poison _ => none

/-- One code word as a read of its frame finds it: zeros under a scrub (R322), corrected, repaired from the frame's mirror, or rewritten as
poison (R375, R376). -/
def State.cwFrom (s : State) (cw : Nat) : Cw × State :=
  let ppa := cw * 64
  let b := Tab.get 0 s.dramBad cw
  if s.scrubbing ppa then (.data (zeros 64), s)
  else if b = 0 then (s.cwStored cw, s)
  else if b < 0x100 then
    let s1 := s.noteCe ppa (b - 1)
    (s.cwStored cw, s1.wantWriteback cw)
  else
    match s.goodMirror cw with
    | some v => (v, ((s.cwStore cw v).bump O.repaired).noteUe ppa)
    | none => (.poison 1, ((s.cwStore cw (.poison 1)).notePoison cw 1).noteUe ppa)

/-- One code word as a read serves it: zeros under a scrub (R322); where its frame's data is lost the mirror's, or poison (R358); and
otherwise what its frame gives. -/
def State.cwRead (s : State) (cw : Nat) : Cw × State :=
  if !s.scrubbing (cw * 64) && s.lost (cw * 64) then
    match s.mirrorOf (frameOf (cw * 64)) with
    | some g => if s.lost (mirrorCw cw g * 64) then (.poison 7, s) else s.cwFrom (mirrorCw cw g)
    | none => (.poison 7, s)
  else s.cwFrom cw

/-- Merge held bytes into old bytes where the mask has them valid; `o` is the line offset of the first byte. -/
def mergeBytes (mask o : Nat) : Bytes → Bytes → Bytes
  | new :: ns, old :: os => (if mask.testBit o then new else old) :: mergeBytes mask (o + 1) ns os
  | _, os => os

/-- The validity bits of a mask for one code word of a line. -/
def halfMask (mask half : Nat) : Nat := bits mask (64 * half) 64

/-- The mask of 64 ones. -/
def ones64 : Nat := 2 ^ 64 - 1

/-- A mask without the bits of one code word. -/
def dropHalf (mask half : Nat) : Nat := if half = 0 then bits mask 64 64 * 2 ^ 64 else bits mask 0 64

def State.mergeAt (s : State) (line : Nat) : Option Merge := (s.coh.merge.find? (fun p => p.1 == line)).map (·.2)

def State.setMerge (s : State) (line : Nat) (e : Merge) : State :=
  let m := if e.mask = 0 then Tab.del line s.coh.merge else Tab.ins line e s.coh.merge
  { s with coh := { s.coh with merge := m } }

/-- Mark a chunk of a migrating source frame dirty; a write to a primary frame marks a migration of its mirror too (R307). -/
def State.markDirty (s : State) (ppa : Nat) : State :=
  let f := frameOf ppa
  let g := s.mirrorOf f
  { s with migs := s.migs.map (fun m =>
      if m.src = f ∨ some m.src = g then { m with dirty := setBit m.dirty (ppa % 2 ^ 26 / 4096) } else m) }

/-- The header of a BLK message (R313). -/
def blkPack (b : Blk) : Nat :=
  0x2D * 2 ^ 250 + b.bop % 16 * 2 ^ 246 + b.src % 4096 * 2 ^ 234 + b.dst % 4096 * 2 ^ 222 + b.handle % 2 ^ 20 * 2 ^ 202
    + b.off % 2 ^ 40 * 2 ^ 162 + b.xid % 65536 * 2 ^ 146 + b.part % 16 * 2 ^ 142 + b.status % 16 * 2 ^ 138
    + b.lines % 64 * 2 ^ 132 + b.grant % 2 ^ 128

/-- Two slots of a code word: a poisoned one carries zero bytes and its mark (R384, R385). -/
def Cw.slots : Cw → List Slot
  | .data bs => [⟨slice 0 32 bs, false⟩, ⟨slice 32 32 bs, false⟩]
  | .poison _ => [⟨zeros 32, true⟩, ⟨zeros 32, true⟩]

def LineVal.slots (v : LineVal) : List Slot := v.lo.slots ++ v.hi.slots

/-- A port is LIT with its link up. -/
def State.portUp (s : State) (p : Nat) : Bool := s.ov O.port_state p == 0 && s.ov O.link_state p == 3

/-- The BLK ports in use: LIT ports of `blk_ports` (R312). -/
def State.blkPorts (s : State) : List Nat :=
  (List.range 24).filter (fun p => (s.ov O.blk_ports).testBit p && s.ov O.port_state p == 0)

/-- Send a BLK message on the port chosen for chunk number `n` (R312). -/
def State.sendBlk (s : State) (n : Nat) (b : Blk) : State :=
  match s.blkPorts[n % s.blkPorts.length]? with
  | some p => s.send p { chan := 3, hdr := blkPack b, slots := b.slots }
  | none => s

/-- The partner copy of a line written to a frame of a peer-mirrored extent (R315), `keeps` being the place held for the line until the
answer (see `MwrOut`). While this node has no number nothing is sent and the write meets its timeout (R89). -/
def State.peerWrite (s : State) (line keeps : Nat) (v : LineVal) : State :=
  let f := frameOf (line * 128)
  let r := s.frame f
  if r.ext = 0 || r.mirror || (s.ext r.ext).frames[r.pos]? != some f then s
  else match (s.ext r.ext).peer with
    | none => s
    | some p =>
      if p.state = 2 then s
      else
        let off := r.pos * 2 ^ 26 + line * 128 % 2 ^ 26
        let s1 := if s.ov O.node_number = 0xFFF then s else s.sendBlk (off / 4096)
          ⟨4, s.ov O.node_number, p.node, p.handle, off, s.xid, 0, 0, 1, leNat p.grant, v.slots⟩
        { s1 with mwrs := s1.mwrs ++ [⟨s.xid, line, r.ext, keeps⟩], xid := (s.xid + 1) % 65536 }

/-- The partner is sent a line as memory holds it now. -/
def State.peerLine (s : State) (line keeps : Nat) : State :=
  s.peerWrite line keeps ⟨s.cwSeen (2 * line), s.cwSeen (2 * line + 1)⟩

/-- Write a whole code word of a line home: memory, mirror, migration bit and partner (R307, R315, R393). -/
def State.cwHome (s : State) (cw : Nat) (v : Cw) : State :=
  ((s.cwWrite cw v).markDirty (cw * 64)).peerLine (cw / 2) 1

/-- The write of one held code word: without a read where it is fully valid (R389), else by read-modify-write (R391). -/
def State.rmwHalf (s : State) (line half : Nat) (e : Merge) : State :=
  let hm := halfMask e.mask half
  if hm = 0 then s
  else if e.pois.testBit half then s.cwHome (2 * line + half) (.poison 2)
  else if hm = ones64 then
    (s.bump O.merge_direct (hsLine line)).cwHome (2 * line + half) (.data (slice (64 * half) 64 e.bytes))
  else
    let cw := 2 * line + half
    let s1 := s.bump O.merge_rmw (hsLine line)
    let r := s1.cwRead cw
    match r.1 with
    | .data old => r.2.cwHome cw (.data (mergeBytes e.mask (64 * half) (slice (64 * half) 64 e.bytes) old))
    | .poison _ => r.2

/-- Flush the held code words of a line (R390, R391). -/
def State.flushMerge (s : State) (line : Nat) : State :=
  match s.mergeAt line with
  | none => s
  | some e =>
    if e.exempt then s
    else
      let s0 := (s.setMerge line { e with mask := 0 }).pageHint line true 0
      (s0.rmwHalf line 0 e).rmwHalf line 1 e

/-- The merge entries of a home slice, oldest first, that may be flushed. -/
def State.mergeLines (s : State) (h : Nat) : List (Nat × Merge) :=
  s.coh.merge.filter (fun p => hsLine p.1 == h)

/-- Lines of a slice whose merge-buffer entry is kept only for a partner's answer (R315). -/
def State.keptMerge (s : State) (h : Nat) : List Nat :=
  (s.mwrs.filter (fun w => w.keeps == 1 && hsLine w.line == h && (s.mergeAt w.line).isNone)).foldl
    (fun a w => if a.contains w.line then a else a ++ [w.line]) []

/-- Entries of a slice's merge buffer in use. -/
def State.mergeCount (s : State) (h : Nat) : Nat := (s.mergeLines h).length + (s.keptMerge h).length

def oldestMerge : List (Nat × Merge) → Option (Nat × Nat)
  | [] => none
  | (l, e) :: t =>
    match oldestMerge t with
    | none => if e.exempt then none else some (l, e.order)
    | some (l', o') => if e.exempt then some (l', o') else if e.order < o' then some (l, e.order) else some (l', o')

/-- Flush oldest entries of a slice until it holds fewer than `n` (R390). -/
def State.trimMerge (h n : Nat) : Nat → State → State
  | 0, s => s
  | k + 1, s =>
    if s.mergeCount h < n then s
    else match oldestMerge (s.mergeLines h) with
      | none => s
      | some (l, _) => State.trimMerge h n k (s.flushMerge l)

/-! ### Scrub zero-fill (R322) -/

/-- The 32 lines of the chunk of an address. -/
def chunkLines (ppa : Nat) : List Nat := (List.range 32).map (fun i => ppa / 4096 * 32 + i)

/-- Fill one chunk of one frame with zeros under the owner's key and set its bit; a peer mirror is sent the lines (R315, R322, R323). -/
def State.zeroChunk (s : State) (ppa : Nat) : State :=
  let base := ppa / 4096 * 4096
  let f := frameOf ppa
  let r := s.frame f
  let s1 : State :=
    if s.lost ppa then s
    else { s with
      mem := s.mem.filter (fun c => decide (c.1 < base ∨ base + 4096 ≤ c.1))
      poison := s.poison.filter (fun c => decide (c.1 < base / 64 ∨ base / 64 + 64 ≤ c.1))
      dramBad := s.dramBad.filter (fun c => decide (c.1 < base / 64 ∨ base / 64 + 64 ≤ c.1))
      chunkKey := Tab.put 0 s.chunkKey (base / 4096) (s.frameKey ppa) }
  let z : LineVal := ⟨.data (zeros 64), .data (zeros 64)⟩
  (chunkLines ppa).foldl (fun t l => t.peerWrite l 0 z)
    (s1.setFrame f { r with chunks := setBit r.chunks (base % 2 ^ 26 / 4096), touched := true })

/-- A chunk is zero-filled ahead of a write and counted (R322, R332). -/
def State.zeroFill (s : State) (ppa : Nat) : State := (s.zeroChunk ppa).bump O.zero_fills

/-- A sweep record number that is free, lowest first (R319). -/
def State.freeRecord (s : State) : Option Nat :=
  (List.range 256).find? (fun i => !(s.chart.sweeps.any (fun p => p.1 == i)))

/-- Give a pending frame a free sweep record (R321, R325). -/
def State.takeRecord (s : State) (f : Nat) : Option State :=
  let r := s.frame f
  match r.rcd, s.freeRecord with
  | some _, _ => some s
  | none, none => none
  | none, some i =>
    let c := (s.ext r.ext).owner
    let s1 := { s with chart := { s.chart with sweeps := Tab.ins i ⟨!r.scrub, c, f, 0⟩ s.chart.sweeps } }
    some (s1.setFrame f { r with rcd := some i })

/-- What a write meets on one frame: `none` when the frame is pending a scrub and no record is free, else the state with the chunk
zero-filled (R322). -/
def State.prepFrame (s : State) (ppa : Nat) : Option State :=
  if s.scrubbing ppa then (s.takeRecord (frameOf ppa)).map (fun t => t.zeroFill ppa) else some s

/-- The address in the mirror frame of an address of a primary one. -/
def State.mirrorPpa (s : State) (ppa : Nat) : Option Nat := (s.mirrorOf (frameOf ppa)).map (fun g => g * 2 ^ 26 + ppa % 2 ^ 26)

/-- What a write meets on a frame under scrub and on its mirror frame: `none` when one of them finds no record free (R322). -/
def State.prepWrite (s : State) (ppa : Nat) : Option State :=
  match s.prepFrame ppa with
  | none => none
  | some s1 => match s1.mirrorPpa ppa with
    | none => some s1
    | some q => s1.prepFrame q

/-- A frame pending a scrub that a request has tried to write is served first (R321). -/
def State.touchFrame (s : State) (f : Nat) : State :=
  let r := s.frame f
  if r.scrub && r.rcd.isNone then s.setFrame f { r with touched := true } else s

/-- A write was refused for want of a sweep record: its frame and its mirror frame are served first (R321). -/
def State.touchScrub (s : State) (ppa : Nat) : State :=
  match s.mirrorOf (frameOf ppa) with
  | none => s.touchFrame (frameOf ppa)
  | some g => (s.touchFrame (frameOf ppa)).touchFrame g

/-- Poison written over a code word, whose chunk is zero-filled first while it is under a scrub, on the mirror frame too
(R322, R380). -/
def State.poisonCw (s : State) (cw reason : Nat) : State :=
  let p := cw * 64
  let s1 := if s.scrubbing p then s.zeroFill p else s
  let s2 := match s1.mirrorPpa p with
    | none => s1
    | some q => if s1.scrubbing q then s1.zeroFill q else s1
  s2.cwHome cw (.poison reason)

/-! ### Writing through the merge buffer (R388-R393) -/

/-- Write `bs` at byte `o` of one code word (`o` < 64): poisoned slots make the whole word AGENT poison (R386); a word
left fully valid is written without a read; a partly valid one is held (R389). -/
def State.writeHalf (s : State) (line half o : Nat) (bs : Bytes) (pois : Bool) : State :=
  if bs = [] then s
  else
    let cw := 2 * line + half
    let e := (s.mergeAt line).getD ⟨zeros 128, 0, s.coh.clk, false, 0⟩
    if pois then (s.setMerge line { e with mask := dropHalf e.mask half }).cwHome cw (.poison 2)
    else
      let mask := e.mask ||| ((2 ^ bs.length - 1) * 2 ^ (64 * half + o))
      let bytes := splice (64 * half + o) bs e.bytes
      if halfMask mask half = ones64 ∧ !e.exempt then
        ((s.setMerge line { e with mask := dropHalf mask half, bytes := bytes }).bump O.merge_direct (hsLine line)).cwHome
          cw (.data (slice (64 * half) 64 bytes))
      else
        let s1 := s.setMerge line { e with mask := mask, bytes := bytes }
        { s1 with coh := { s1.coh with clk := s1.coh.clk + 1 } }

/-- Some slot of the range [o, o + n) of a line that lies in the code word carries poison. Slot k holds line bytes
from 32 × (o div 32 + k). -/
def halfPoison (o half : Nat) (slots : List Slot) : Bool :=
  (slots.zipIdx).any (fun p => p.1.poison && decide ((o / 32 + p.2) / 2 = half))

/-- Write bytes at offset `o` of a line as its slots carry them, then obey `merge_hold` 0 and `merge_high` (R389,
R390). -/
def State.lineWrite (s : State) (line o : Nat) (bs : Bytes) (slots : List Slot) : State :=
  let a := bs.take (64 - o)
  let b := if o < 64 then bs.drop (64 - o) else bs
  let s1 := if o < 64 then s.writeHalf line 0 o a (halfPoison o 0 slots) else s
  let s2 := s1.writeHalf line 1 (if o < 64 then 0 else o - 64) b (halfPoison o 1 slots)
  let s3 := if s2.ov O.merge_hold = 0 then s2.flushMerge line else s2
  let h := hsLine line
  State.trimMerge h (s3.ov O.merge_high) 64 s3

/-- No entry is free and none is the line's (R392). -/
def State.mergeFull (s : State) (line : Nat) : Bool :=
  (s.mergeAt line).isNone && decide (64 ≤ s.mergeCount (hsLine line)) && !(s.keptMerge (hsLine line)).contains line

/-- An entry is freed for data that is never refused: the oldest flushable one is flushed (R392). -/
def State.mergeRoom (s : State) (line : Nat) : State := if s.mergeFull line then State.trimMerge (hsLine line) 64 64 s else s

/-- Write a whole line of values home (write-backs, flushes), whole code words each (R388, R392). -/
def State.lineHome (s : State) (line : Nat) (v : LineVal) : State :=
  let s0 := match s.mergeAt line with
    | none => s
    | some e => s.setMerge line { e with mask := 0 }
  let s1 := (s0.bump O.merge_direct (hsLine line)).cwHome (2 * line) v.lo
  (s1.bump O.merge_direct (hsLine line)).cwHome (2 * line + 1) v.hi

/-- The value four slots of a line carry: a poisoned slot marks its code word AGENT (R386). -/
def slotsVal (ss : List Slot) : LineVal :=
  let w (i : Nat) : Cw :=
    let p := (ss.drop (2 * i)).take 2
    if p.any (·.poison) then .poison 2 else .data (fitTo 64 (slotBytes p))
  ⟨w 0, w 1⟩

/-- The CANs unresolved at a slice concern the context (R567, R568). -/
def State.unresolved (s : State) (line ctx vpn : Nat) : Bool :=
  ((s.slc (hsLine line)).unres.any (fun p => p.2.contains ctx)) && !s.staleTol ctx vpn (frameOf (line * 128))

/-- Read a line for a request under a context: the merge entry is flushed first (R390), an unresolved line reads as
LOST_DIRTY poison (R568), and otherwise both code words are read. -/
def State.lineRead (s : State) (line ctx vpn : Nat) : LineVal × State :=
  let s0 := s.flushMerge line
  if s0.unresolved line ctx vpn then (⟨.poison 3, .poison 3⟩, s0.bump O.unresolved_reads (hsLine line))
  else
    let a := s0.cwRead (2 * line)
    let b := a.2.cwRead (2 * line + 1)
    let v : LineVal := ⟨a.1, b.1⟩
    match s0.mergeAt line with
    | none => (v, b.2)
    | some e =>
      let w (half : Nat) (c : Cw) : Cw :=
        if e.pois.testBit half then .poison 2
        else match c with
        | .data old => .data (mergeBytes e.mask (64 * half) (slice (64 * half) 64 e.bytes) old)
        | .poison r => if halfMask e.mask half = ones64 then .data (slice (64 * half) 64 e.bytes) else .poison r
      (⟨w 0 v.lo, w 1 v.hi⟩, b.2)

/-- Count the poison code words of a value delivered to a consumer (R387, R401). -/
def State.countDelivered (s : State) (line : Nat) (v : LineVal) : State :=
  let s1 := match v.lo with
    | .poison _ => s.countPoisonRead (line * 128)
    | .data _ => s
  match v.hi with
  | .poison _ => s1.countPoisonRead (line * 128)
  | .data _ => s1

/-- A code word is poison. -/
def Cw.isPoison : Cw → Bool
  | .poison _ => true
  | .data _ => false

/-- The bytes of a code word, zeros when poison (R385). -/
def Cw.bytes : Cw → Bytes
  | .data bs => fitTo 64 bs
  | .poison _ => zeros 64

def LineVal.bytes (v : LineVal) : Bytes := v.lo.bytes ++ v.hi.bytes

def LineVal.poisoned (v : LineVal) : Bool := v.lo.isPoison || v.hi.isPoison

end Sys2Proof.Machine
end

