-- ==== Sys2Proof/Machine/Operands.lean ====
section
/-! DEFINITION. Sys2Proof/Machine/Operands.lean: the operand forms of the request kinds: opcodes, lengths, alignment,
slot counts, reserved values (R98-R113, R127, R218-R223, R700), rights (R56) and charges (R417). -/

namespace Sys2Proof.Machine

open Sys2Proof

/-- Request opcodes (R104). -/
def Kind.opcode : Kind → Nat
  | .rds => 1 | .rdx => 2 | .upg => 3 | .rdonce => 4 | .wrfull => 5 | .wrpart => 6 | .evc => 7 | .wbd => 8
  | .acc => 9 | .atom => 10 | .hint => 11 | .dbell => 12 | .fence => 13

/-- EvC and WbD, which are never refused (R177). -/
def Kind.evict : Kind → Bool
  | .evc => true
  | .wbd => true
  | _ => false

/-- The coherent kinds that name a CAN (R97, R143). -/
def Kind.coherent : Kind → Bool
  | .rds => true | .rdx => true | .upg => true | .evc => true | .wbd => true
  | _ => false

/-- Kinds whose `gchk` is honoured (R103, R104). -/
def Kind.gchkOk : Kind → Bool
  | .evc => false | .wbd => false | .hint => false | .dbell => false | .fence => false
  | _ => true

/-- The rights a kind needs and those whose absence is a violation: R 1, W 2, A 4, T 8, C 16 (R56, Table 3). -/
def Kind.needs : Kind → Nat × Nat
  | .rds => (17, 0) | .rdx => (19, 2) | .upg => (19, 2) | .rdonce => (1, 0) | .hint => (1, 0)
  | .wrfull => (2, 2) | .wrpart => (2, 2) | .atom => (3, 2) | .acc => (4, 4)
  | _ => (0, 0)

/-- The kind would write, for fault records (R526). -/
def Kind.writes : Kind → Bool
  | .wrfull => true | .wrpart => true | .atom => true | .acc => true | .wbd => true | .rdx => true | .upg => true
  | _ => false

/-- The format pairs an ACC accepts (R218). -/
def accPair (src dst : Nat) : Bool :=
  if dst = 1 then decide (src ∈ [1, 2, 3, 4, 5, 6, 7, 8, 9])
  else if dst = 0 then decide (src ∈ [0, 1])
  else if dst = 0xB then decide (src ∈ [0xB, 0xC])
  else false

/-- Bytes of element data of an ACC (R220). -/
def accE (h : Hdr) : Nat := ceilDiv (h.len * fmtBits h.fmtSrc) 8

/-- Slots of element data and scale of an ACC (R221). -/
def accN (h : Hdr) : Nat := ceilDiv (accE h + b2n (isMx h.fmtSrc)) 32

/-- The byte width of an accumulator format. -/
def accW (dst : Nat) : Nat := fmtBits dst / 8

/-- The `len`, alignment, slot-count and reserved-value rules of a kind (R99, R104-R112, R127, R700); `n` is the number
of data slots. -/
def formOk (k : Kind) (h : Hdr) (n : Nat) : Bool :=
  (h.page != 3) && match k with
  | .rds => n == 0 && h.len == 128 && h.cva % 128 == 0
  | .rdx => n == 0 && h.len == 128 && h.cva % 128 == 0
  | .upg => n == 0 && h.len == 128 && h.cva % 128 == 0
  | .evc => n == 0 && h.len == 128 && h.cva % 128 == 0
  | .wrfull => n == 4 && h.len == 128 && h.cva % 128 == 0
  | .wbd => n == 4 && h.len == 128 && h.cva % 128 == 0
  | .rdonce => n == 0 && decide (h.cva % 128 + h.len ≤ 128)
  | .wrpart => decide (h.cva % 128 + h.len ≤ 128) && n == max 1 (if h.len = 0 then 1 else ceilDiv (h.cva % 32 + h.len) 32)
  | .acc => decide (h.len ≤ 32) && accPair h.fmtSrc h.fmtDst && h.cva % accW h.fmtDst == 0
      && decide (h.cva % 128 + h.len * accW h.fmtDst ≤ 128)
      && (if h.len = 0 then n == 1 else n == accN h || n == accN h + 1)
  | .atom => n == 1 && decide (h.sub ≤ 2) && decide (h.aty ≤ 2) && h.len == (if h.aty = 1 then 8 else 4)
      && h.cva % (max 1 h.len) == 0
  | .hint => n == 0 && h.cva % 2 ^ 26 == 0 && decide (1 ≤ h.sub ∧ h.sub ≤ 3)
  | .dbell => n == 1 && h.len == 8 && h.cva == 0
  | .fence => n == 0 && h.len == 0 && h.cva == 0 && decide (h.sub ≤ 1)

/-- The data slots a completion carries when served (R417). -/
def Kind.cmpSlots (k : Kind) (h : Hdr) : Nat :=
  match k with
  | .rdonce => ceilDiv h.len 32
  | .rds => 4 | .rdx => 4 | .atom => 1
  | _ => 0

/-- The policer charge of a request (R417). -/
def chargeOf (k : Kind) (h : Hdr) (n : Nat) : Nat := 32 * (1 + n + k.cmpSlots h)

/-- The slots of an ACC after its optional mask slot, and the mask slot (R220-R222). -/
def accParts (h : Hdr) (slots : List Slot) : Option Slot × List Slot :=
  if slots.length = accN h + 1 then (slots.head?, slots.drop 1) else (none, slots)

/-- The element mask of an ACC, cut to `len` contributions (R222). -/
def accMask (h : Hdr) (slots : List Slot) : Nat :=
  match (accParts h slots).1 with
  | some m => bits (leNat (m.bytes.take 4)) 0 32 % 2 ^ h.len
  | none => 2 ^ h.len - 1

/-- An ACC that adds nothing by its mask (R223); a poisoned mask slot is not such (R232). -/
def accEmpty (h : Hdr) (slots : List Slot) : Bool :=
  h.len == 0 || (accMask h slots == 0 && !((accParts h slots).1.any (·.poison)))

end Sys2Proof.Machine
end

