-- ==== Sys2Proof/Machine/Faulting.lean ====
section
/-! DEFINITION. Sys2Proof/Machine/Faulting.lean: fault records and fault rings (R525-R535). -/

namespace Sys2Proof.Machine

open Sys2Proof

/-- The enabled rings of a context's owner port, ascending (R529). -/
def State.ringsOf (s : State) (c : Nat) : List Nat :=
  (List.range 8).filter (fun r => s.ob O.fr_enable r && s.ov O.fr_port r == s.ov O.owner_port c)

/-- The ring a context's records go to (R529). -/
def State.ringOf (s : State) (c : Nat) : Option Nat :=
  let rs := s.ringsOf c
  rs[c % rs.length]?

/-- The ring is full (R528). -/
def State.ringFull (s : State) (r : Nat) : Bool :=
  (s.ov O.fr_tail r + 65536 - s.ov O.fr_head r) % 65536 == 4096

/-- Records of kind INVALID, HOST and CHART_ECC take a token of the context's fault budget (R534). -/
def budgeted (kind : Nat) : Bool := decide (1 ≤ kind ∧ kind ≤ 3)

/-- Tokens left in a context's fault budget (R534); full until first used. -/
def State.frTokens (s : State) (c : Nat) : Nat :=
  if s.ov O.fault_budget c = 0xFFFF then 0xFFFF else (s.ctx c).frTok.getD (s.ov O.fault_budget c)

/-- The ring has room, the budget a token and a ring is routed: the record need not wait (R531). -/
def State.canPost (s : State) (rc : FRec) : Bool :=
  match s.ringOf rc.ctx with
  | none => false
  | some r => !s.ringFull r && (!budgeted rc.kind || decide (0 < s.frTokens rc.ctx))

/-- The 32 bytes of a fault record (R526). -/
def FRec.bytes (rc : FRec) (ovf : Bool) (ltc : Nat) : Bytes :=
  natLe 1 rc.kind ++ natLe 1 (rc.flags + 2 * b2n rc.parked + 4 * b2n ovf) ++ natLe 2 rc.ctx ++ natLe 2 rc.source
    ++ natLe 1 rc.port ++ natLe 1 rc.opcode ++ natLe 8 rc.whr ++ natLe 4 rc.token ++ natLe 1 rc.aux ++ natLe 1 rc.gen
    ++ zeros 2 ++ natLe 8 ltc

/-- Raise a ring's MSI-X vector, no sooner than `fr_coal` after the last time (R530). -/
def State.raiseRing (s : State) (r : Nat) : State :=
  let p := Tab.get (0, false) s.frMsi r
  if s.ov O.fr_coal r = 0 ∨ p.1 = 0 ∨ p.1 + usTicks (s.ov O.fr_coal r) ≤ s.ltc then
    { s.emit (.msix (s.ov O.fr_port r) 0 r) with frMsi := Tab.put (0, false) s.frMsi r (s.ltc, false) }
  else { s with frMsi := Tab.put (0, false) s.frMsi r (p.1, true) }

/-- Write a record into its ring (R528, R530, R532, R534). -/
def State.postRec (s : State) (rc : FRec) (r : Nat) : State :=
  let t := s.ov O.fr_tail r
  let s1 := s.emit (.hostWr (s.ov O.fr_port r) 0 (s.ov O.fr_base r + 32 * (t % 4096)) (rc.bytes (s.ob O.fr_overflow r) s.ltc) false)
  let s2 := (s1.setOv O.fr_tail ((t + 1) % 65536) r).bump O.fr_posted r
  let s3 := if budgeted rc.kind ∧ s.ov O.fault_budget rc.ctx ≠ 0xFFFF then
    s2.setCtx rc.ctx { s2.ctx rc.ctx with frTok := some (s2.frTokens rc.ctx - 1) } else s2
  s3.raiseRing r

/-- Count a record that begins to wait on its ring, and mark the overflow of a full ring (R532). -/
def State.noteWait (s : State) (c : Nat) : State :=
  match s.ringOf c with
  | none => s
  | some r => (if s.ringFull r then s.setOv O.fr_overflow 1 r else s).bump O.fr_waits r

/-- Post a record at once, or queue it in the island queue behind its context's earlier ones (R531, R532). -/
def State.queueRec (s : State) (rc : FRec) : State :=
  if s.canPost rc && !(s.frecs.any (fun x => x.ctx == rc.ctx)) then
    match s.ringOf rc.ctx with
    | some r => s.postRec rc r
    | none => s
  else { s.noteWait rc.ctx with frecs := s.frecs ++ [{ rc with parked := true }] }

/-- Records waiting in the island queue (R531). One that finds all 8,192 places taken stays with its strip: it keeps its turn in the list and takes
a place as one frees [DEDUCED, log 110]. -/
def State.islandQueue (s : State) : Nat := (s.frecs.filter (fun r => r.req.isNone)).length

/-- The record of an untranslatable page (R525, R527). -/
def pageRec (e : Entry) (kind index : Nat) (ctx source port opcode cva : Nat) (write : Bool) : FRec :=
  { kind := kind, flags := b2n write, ctx := ctx, source := source, port := port, opcode := opcode, whr := cva,
    token := if kind = 2 then e.token else if kind = 3 then index else 0, aux := if kind = 2 then e.host else 0,
    gen := e.gen, parked := false, req := none }

/-- Records of an internal source (tile, dispatcher, tender): posted or queued, setting `fault_pend` (R524, R525). -/
def State.pageFault (s : State) (index kind ctx source cva : Nat) (write : Bool) : State :=
  let e := s.entry index
  if kind ≠ 3 ∧ e.faultPend then s.bump O.fr_coalesced
  else
    let s1 := if kind = 3 then s else s.setEntry index { e with faultPend := true }
    s1.queueRec (pageRec e kind index ctx source 0xFF 0 cva write)

/-- Retry slots in use at a port, and of a context there (R531). -/
def State.slotsUsed (s : State) (p : Nat) : Nat := (s.reqs.filter (fun r => r.slot && r.port == p)).length

def State.slotsOf (s : State) (p c : Nat) : Nat :=
  (s.reqs.filter (fun r => r.slot && r.port == p && r.h.ctx == c)).length

end Sys2Proof.Machine
end

