-- ==== Sys2Proof/Machine/Views.lean ====
section
/-! DEFINITION. Sys2Proof/Machine/Views.lean: the format-on-read views (R234-R242): which stored bytes a delivered range
needs, and what is delivered. -/

namespace Sys2Proof.Machine

open Sys2Proof

/-- The stored format of a view (R234). -/
def viewStored : Nat → Nat
  | 1 => 0xE | 2 => 0xE | 3 => 1 | 4 => 1 | 5 => 1 | 6 => 2 | 7 => 2 | 8 => 6 | 9 => 7 | 0xA => 8 | 0xB => 9
  | 0xC => 9 | 0xD => 0xA | 0xE => 0xC | _ => 0

/-- The delivered format of a view (R234). -/
def viewOut : Nat → Nat
  | 1 => 2 | 2 => 1 | 3 => 2 | 4 => 3 | 5 => 6 | 6 => 4 | 7 => 9 | 8 => 2 | 9 => 2 | 0xA => 2 | 0xB => 2
  | 0xC => 4 | 0xD => 2 | 0xE => 2 | _ => 0

/-- Bytes of one delivered element (view 7: one byte holds two) (R234). -/
def viewSize : Nat → Nat
  | 2 => 4 | 5 => 1 | 6 => 1 | 7 => 1 | 0xC => 1 | 0 => 1 | _ => 2

/-- The view divides a frame into segments of 64 MiB of delivered data (R235). -/
def viewSegments : Nat → Nat
  | 8 => 2 | 9 => 3 | 0xA => 3 | 0xB => 4 | 0xC => 2 | 0xD => 2 | 0xE => 2 | _ => 1

/-- Elements of a storage format that one frame holds (R208). -/
def frameElems : Nat → Nat
  | 0 => 8388608 | 1 => 16777216 | 0xB => 16777216 | 0xE => 16777216 | 2 => 33554432 | 3 => 33554432
  | 4 => 67108864 | 5 => 67108864 | 0xC => 67108864 | 0xD => 134217728
  | 6 => 62914560 | 0xA => 62914560 | 7 => 83886080 | 8 => 83886080 | 9 => 125829120 | _ => 0

/-- Where the scale plane of an MX frame begins (R207). -/
def scaleBase : Nat := 60 * 2 ^ 20

/-- The element of stored data that delivered offset `o` of a page begins with (R235, R236). For views 5 and 7 a scale
byte names the first element of its block. -/
def viewElem (v vpn o : Nat) : Nat :=
  if v = 5 then (if o < scaleBase then o else 32 * (o - scaleBase))
  else if v = 7 then (if o < scaleBase then 2 * o else 32 * (o - scaleBase))
  else (if viewSegments v = 1 then 0 else vpn % 4 * (2 ^ 26 / viewSize v)) + o / viewSize v

/-- The RdOnce of `len` delivered bytes at page offset `o` obeys the rules of R237. -/
def viewOk (v vpn o len : Nat) : Bool :=
  let d := viewSize v
  let cap := frameElems (viewStored v)
  if v = 5 ∨ v = 7 then
    let per := if v = 5 then 1 else 2
    if o < scaleBase then decide (o + len ≤ cap / per) else decide (o - scaleBase + len ≤ cap / 32)
  else
    decide (o % d = 0 ∧ len % d = 0 ∧ o + len ≤ 2 ^ 26) && decide (viewElem v vpn o + len / d ≤ cap)
      && decide (viewSegments v = 1 ∨ vpn % 4 < viewSegments v)

/-- Stored byte ranges (offset in the frame, count) one element needs, scale or residual included (R238). -/
def elemNeeds (v i : Nat) : List (Nat × Nat) :=
  match v with
  | 1 => [(2 * i, 2)]
  | 2 => [(2 * i, 2), (2 ^ 25 + 2 * i, 2)]
  | 3 => [(4 * i, 4)]
  | 4 => [(4 * i, 4)]
  | 6 => [(2 * i, 2)]
  | 8 => [(i, 1), (scaleBase + i / 32, 1)]
  | 9 => [(6 * i / 8, (6 * i % 8 + 13) / 8), (scaleBase + i / 32, 1)]
  | 0xA => [(6 * i / 8, (6 * i % 8 + 13) / 8), (scaleBase + i / 32, 1)]
  | 0xB => [(i / 2, 1), (scaleBase + i / 32, 1)]
  | 0xC => [(i / 2, 1), (scaleBase + i / 32, 1)]
  | 0xD => [(i, 1), (scaleBase + i / 32, 1)]
  | _ => [(i, 1)]

/-- Stored byte ranges a delivered unit at page offset `o` needs. -/
def unitNeeds (v vpn o : Nat) : List (Nat × Nat) :=
  if v = 5 then [(viewElem v vpn o / 32 * 128, 128)]
  else if v = 7 then [(viewElem v vpn o / 32 * 64, 64)]
  else elemNeeds v (viewElem v vpn o)

/-- The frame offset of the first stored element a read needs; it names the home slice (R238). -/
def viewFirst (v vpn o : Nat) : Nat := ((unitNeeds v vpn o).head?.map (·.1)).getD 0

/-- The lines (within the frame) that byte ranges touch, ascending, each once. -/
def linesOf (rs : List (Nat × Nat)) : List Nat :=
  (rs.flatMap (fun r => [r.1 / 128, (r.1 + r.2 - 1) / 128])).foldl (fun a l => if a.contains l then a else a ++ [l]) []

/-- The offsets of the delivered units of a range. -/
def unitOffs (v o len : Nat) : List Nat := (List.range (len / viewSize v)).map (fun j => o + j * viewSize v)

/-- Lines of the frame a view read needs. -/
def viewLines (v vpn o len : Nat) : List Nat := linesOf ((unitOffs v o len).flatMap (unitNeeds v vpn))

/-- Bytes of stored data gathered by frame line, with poison by code word. -/
abbrev Gather := List (Nat × LineVal)

def gatherGet (g : Gather) (off : Nat) : Byte × Bool :=
  match g.find? (fun p => p.1 == off / 128) with
  | some (_, v) =>
    let c := if off % 128 < 64 then v.lo else v.hi
    (c.bytes.getD (off % 64) 0, c.isPoison)
  | none => (0, false)

def gatherBytes (g : Gather) (off n : Nat) : Bytes × Bool :=
  let l := (List.range n).map (fun i => gatherGet g (off + i))
  (l.map (·.1), l.any (·.2))

/-- The exact value of stored element `i` of a format in a frame, and whether it depends on poison (R199-R207). -/
def frameElem (g : Gather) (f i : Nat) : Val × Bool :=
  if f = 0xE then
    let a := gatherBytes g (2 * i) 2
    let b := gatherBytes g (2 ^ 25 + 2 * i) 2
    (sbDecode (leNat a.1) (leNat b.1), a.2 || b.2)
  else
    let w := fmtBits f
    let a := gatherBytes g (i * w / 8) (ceilDiv (i * w % 8 + w) 8)
    let x := leNat a.1 / 2 ^ (i * w % 8) % 2 ^ w
    if isMx f then
      let sc := gatherBytes g (scaleBase + i / 32) 1
      (mxDecode f (leNat sc.1) x, a.2 || sc.2)
    else (elemDecode f x, a.2)

/-- One delivered unit: its bytes, whether it is poisoned, saturations and NaN-to-integer counts (R239, R241, R217). A delivered scale byte
converts no element, so it counts no saturation [DEDUCED from R217, log 88]. `scale` is the extent's `int8_scale` as FP32 bits. -/
def viewUnit (g : Gather) (v vpn o scale : Nat) : Bytes × Bool × Nat × Nat :=
  let i := viewElem v vpn o
  if v = 1 then
    let a := gatherBytes g (2 * i) 2
    (natLe 2 (elemEncode 2 .rne (elemDecode 2 (leNat a.1))).enc, a.2, 0, 0)
  else if v = 5 ∨ v = 7 then
    let k := i / 32
    let es := (List.range 32).map (fun j => frameElem g (viewStored v) (32 * k + j))
    let m := mxConvs (viewOut v) (viewStored v) (es.map (·.1)) (es.map (fun _ => Rnd.rne))
    let p := es.any (·.2)
    let c (j : Nat) : Conv := m.2.getD (i % 32 + j) ⟨0, false, false⟩
    if scaleBase ≤ o then (natLe 1 m.1, p, 0, 0)
    else if v = 5 then (natLe 1 (c 0).enc, p, b2n (c 0).sat, 0)
    else (natLe 1 ((c 0).enc + 16 * (c 1).enc), p, b2n (c 0).sat + b2n (c 1).sat, 0)
  else
    let e := frameElem g (viewStored v) i
    let x := if v = 0xE then Val.mul e.1 (elemDecode 1 scale) else e.1
    let c := elemEncode (viewOut v) .rne x
    (natLe (viewSize v) c.enc, e.2, b2n c.sat, b2n c.nanInt)

/-- The slots of a delivered range with their poison bits, and the saturation and NaN counts (R241). -/
def viewDeliver (g : Gather) (v vpn o len scale : Nat) : List Slot × Nat × Nat :=
  let us := (unitOffs v o len).map (fun x => viewUnit g v vpn x scale)
  let bs := us.flatMap (·.1)
  let d := viewSize v
  let pois (k : Nat) : Bool := ((us.drop (32 * k / d)).take (32 / d)).any (fun u => u.2.1)
  let slots := (List.range (ceilDiv bs.length 32)).map (fun k =>
    if pois k then (⟨zeros 32, true⟩ : Slot) else ⟨slice (32 * k) 32 bs, false⟩)
  (slots, (us.map (fun u => u.2.2.1)).foldl (· + ·) 0, (us.map (fun u => u.2.2.2)).foldl (· + ·) 0)

end Sys2Proof.Machine
end

