-- ==== Sys2Proof/Machine/Admission.lean ====
section
/-! DEFINITION. Sys2Proof/Machine/Admission.lean: the path of a request through its arrival port: source and form checks, binding,
policer and translation in that order (R32), completions as they are formed, fences, HINT, DBELL and retry slots. -/

namespace Sys2Proof.Machine

open Sys2Proof

/-! ### Completions -/

/-- Replace a retained request by id. -/
def State.updReq (s : State) (id : Nat) (f : Req → Req) : State :=
  { s with reqs := s.reqs.map (fun r => if r.id = id then f r else r) }

def State.req? (s : State) (id : Nat) : Option Req := s.reqs.find? (fun r => r.id == id)

/-- Forget a retained request without a completion. -/
def State.dropReq (s : State) (id : Nat) : State := { s with reqs := s.reqs.filter (fun q => q.id != id) }

/-- Form the completion of a request of an agent; its header stays retained until the completion leaves (R36, R121). A RETRY with a
back-off is remembered against an early resend (R139). A completion for a lost agent other than its PORT_LOST is discarded (R549). -/
def State.formCmp (s : State) (r : Req) (st : St) (backoff : Nat := 0) (grant : Nat := 0) (empty : Bool := false)
    (src : Bool := false) (slots : List Slot := []) (len : Nat := 0) (plWhy : Nat := 0) : State :=
  if (s.agent r.h.agt).life ≠ .present ∧ st ≠ .portLost then s.dropReq r.id
  else
  let st' := if st = .ok ∧ slots.any (·.poison) then St.poisonDelivered else st
  let c : Cmp := {
    port := r.port, agt := r.h.agt, tag := r.h.tag, reqId := r.id, status := st', backoff := backoff,
    grant := grant, empty := empty, ownerSrc := src, gen := if r.hadEntry then r.gen else 0, len := len, plWhy := plWhy,
    slots := slots, untr := !r.hadEntry, line := r.ppa / 128, can := r.h.can }
  let s1 := { s.updReq r.id (fun q => { q with phase := .done, slot := false }) with cmps := s.cmps ++ [c] }
  if st = .retry ∧ 0 < backoff ∧ r.port < 24 then
    let a := s1.agent r.h.agt
    let due := s1.ltc + nsTicks (250 * 2 ^ (backoff - 1))
    let keep := a.early.filter (fun x => !(x.1 == r.h.ctx && x.2.1 == r.kind.opcode && x.2.2.1 == r.h.cva))
    s1.setAgent r.h.agt { a with early := keep ++ [(r.h.ctx, r.kind.opcode, r.h.cva, due, backoff)] }
  else s1

/-- The internal RdOnce of a view read's further lines are given up. -/
def State.dropParts (s : State) (id : Nat) : State := { s with reqs := s.reqs.filter (fun q => q.parent != some id) }

/-- Complete a request. One of a tile, an engine or the dispatcher gets no completion, and is made again by its unit if need be (R233,
R291); one for a further line of a view read ends that read with the same status (R238) [DEDUCED, log 90]. -/
def State.finish (s : State) (r : Req) (st : St) (backoff : Nat := 0) (grant : Nat := 0) (empty : Bool := false)
    (src : Bool := false) (slots : List Slot := []) (len : Nat := 0) (plWhy : Nat := 0) : State :=
  if r.inner then s.dropReq r.id
  else match r.parent with
  | none => s.formCmp r st backoff grant empty src slots len plWhy
  | some p => match s.req? p with
    | some v => (s.dropParts p).formCmp v st backoff
    | none => s.dropReq r.id

/-- A violation by a request: the agent is frozen and the request completes with FROZEN (R99, R409, R411). -/
def State.violate (s : State) (r : Req) (cause : Nat) : State :=
  (s.violation r.h.agt cause r.kind.opcode r.h.ctx r.port r.h.cva).finish r .frozen

/-! ### Bindings (R58-R61) -/

/-- The binding record of an agent at place `i` (0-7). -/
def State.binding (s : State) (a i : Nat) : Nat := s.ov O.binding a i

/-- The mask of the agent's valid binding that names a context (R60). -/
def State.bindMask (s : State) (a c : Nat) : Option Nat :=
  ((List.range 8).find? (fun i => (s.binding a i).testBit 31 && s.binding a i % 1024 == c)).map
    (fun i => bits (s.binding a i) 10 5)

/-- A binding of the context was removed within `unbind_grace`, where 0 gives no grace (R60, R93). -/
def State.inGrace (s : State) (a c : Nat) : Bool :=
  s.ov O.unbind_grace != 0
    && (s.agent a).unbound.any (fun p => p.1 == c && decide (s.ltc ≤ p.2 + usTicks (s.ov O.unbind_grace)))

/-- The agent that holds a CAN (R143). -/
def State.canAgent (s : State) (can : Nat) : Option Nat :=
  let v := s.ov O.can_agent can
  if v.testBit 15 then some (v % 4096) else none

/-! ### The policer (R416-R420) -/

/-- The buckets of a port for a context, full until first used; a rate of all ones keeps its bucket full. -/
def State.buckets (s : State) (port c : Nat) : Nat × Nat :=
  let p := Tab.get (1048576, 1048576) s.pol (port * 1024 + c)
  (if s.ov O.cir c = 0xFFFF then s.ov O.cbs c else p.1, if s.ov O.pir c = 0xFFFF then s.ov O.pbs c else p.2)

/-- The smallest back-off that lets a red request's charge refill (R419). -/
def redBackoff (short pir : Nat) : Nat :=
  if pir = 0 then 15
  else
    let ns := 1000 * ceilDiv short (64 * pir)
    ((List.range 15).find? (fun i => decide (ns ≤ 250 * 2 ^ i))).map (· + 1) |>.getD 15

/-- The colour a request takes, 1 green, 2 yellow, 3 red, and the charged buckets (R418). -/
def State.police (s : State) (port c b colour : Nat) : Nat × Nat × State :=
  let k := if s.ob O.colour_aware c then colour else 1
  let t := s.buckets port c
  let set (a b : Nat) : State := { s with pol := Tab.put (1048576, 1048576) s.pol (port * 1024 + c) (a, b) }
  if k = 3 ∨ t.2 < b then (3, redBackoff (b - t.2) (s.ov O.pir c), s.bump O.pol_red c)
  else if k = 2 ∨ t.1 < b then (2, 0, (set t.1 (t.2 - b)).bump O.pol_yellow c)
  else (1, 0, (set (t.1 - b) (t.2 - b)).bump O.pol_green c)

/-! ### Sending to the home slice -/

/-- A request goes towards its home slice over the mesh, or into the hold queue while the slice fails over or has no unit (R23, R556), or
while a route change waits for its pair (R31). -/
def State.sendHome (s : State) (r : Req) : State :=
  let h := hsOf r.ppa
  let x := s.slc h
  if x.noSpare && !r.kind.evict then s.finish r .retry 15
  else if x.phase ≠ 0 ∨ x.noSpare ∨ x.hold ∨ s.rerouting r.port r.ppa then s.updReq r.id (fun _ => { r with phase := .holding })
  else
    let s1 := s.updReq r.id (fun _ => { r with phase := .sent, plane := (s.travels false r.port r.ppa).1, hop := s.coh.clk })
    { s1 with coh := { s1.coh with clk := s1.coh.clk + 1 } }

/-! ### Translation (R46-R56, R62-R64, R523-R531) -/

/-- A commit holds caching requests to the page while it recalls remapped lines (R537). -/
def State.remapHeld (s : State) (c vpn : Nat) : Bool :=
  s.chart.commits.any (fun k => k.ctx == c && k.ph == 2 && k.remap.contains vpn)

/-- An agent request meets an untranslatable page: FAULT with a record, coalesced, held in a retry slot, or RETRY
(R524, R525, R531). `kind` is the record kind: 1 INVALID, 2 HOST, 3 CHART_ECC. The loss of both copies of an entry has no code among the
event codes: its CHART_ECC fault record is the one trace of it [DESIGN CHOICE, log 91]. An EvC or WbD never receives RETRY (R177): where the
record cannot be posted it waits in the island queue and the request completes [DESIGN CHOICE, log 91]. -/
def State.reqFault (s : State) (r : Req) (e : Entry) (kind index : Nat) : State :=
  let rc := pageRec e kind index r.h.ctx r.h.agt r.port r.kind.opcode r.h.cva r.kind.writes
  if r.kind.evict then (if kind = 3 then s.queueRec rc else s).finish r .fault
  else if kind ≠ 3 ∧ e.faultPend then (s.bump O.fr_coalesced).finish r .fault
  else
    let mark (t : State) : State := if kind = 3 then t else t.setEntry index { t.entry index with faultPend := true }
    if s.canPost rc && !(s.frecs.any (fun x => x.ctx == rc.ctx)) then
      match s.ringOf rc.ctx with
      | some g => ((mark s).postRec rc g).finish r .fault
      | none => s
    else if s.slotsUsed r.port < 16 ∧ s.slotsOf r.port r.h.ctx < 4 then
      let s1 := (mark s).noteWait rc.ctx
      { s1.updReq r.id (fun _ => { r with phase := .slotted, slot := true }) with
        frecs := s1.frecs ++ [{ rc with parked := true, req := some r.id }] }
    else s.finish r .retry (s.ov O.fr_backoff)

/-- A request with the entry it is translated under (R55, R56, R102, R106, R223, R524, R542). A view read whose range begins beyond the
stored data goes to a slice of its own frame, where R237 denies it. -/
def State.withEntry (s : State) (r : Req) (e : Entry) (index : Nat) : State :=
  let vpn := r.h.cva / 2 ^ 26
  let off := r.h.cva % 2 ^ 26
  let rights := e.rights &&& r.mask
  let base := e.frame * 2 ^ 26
  let r := { r with
    gen := e.gen, view := e.view, ext := e.extent, index := index, rights := rights, epoch := s.epochNow,
    hadEntry := true, ppa := base + (if e.view = 0 then off else viewFirst e.view vpn off % 2 ^ 26) }
  if !e.valid then s.reqFault { r with hadEntry := false } e 1 index
  else if e.typ = 1 then s.reqFault { r with hadEntry := false } e 2 index
  else if e.typ = 2 then
    let st := (s.ext (e.extent % 65536)).st
    let live := (s.liveExt e.extent).isSome && (st == .closing || st == .draining || st == .recalling)
    if r.kind.evict ∧ live then s.sendHome r else s.finish { r with hadEntry := false } .revoked
  else if r.kind.evict then s.sendHome r
  else
    let need := r.kind.needs
    let miss := need.1 &&& (need.1 ^^^ (rights &&& need.1))
    if miss &&& need.2 ≠ 0 then s.violate r (if e.view = 0 then 2 else 3)
    else if miss ≠ 0 then s.finish r .fault
    else if r.h.gchk ∧ r.kind.gchkOk ∧ r.h.gexp ≠ e.gen then s.finish r .staleGen
    else if (r.kind = .rdonce ∨ r.kind = .wrpart) ∧ r.h.len = 0 then s.finish r .ok (empty := true)
    else if r.kind = .acc ∧ accEmpty r.h r.slots then s.finish r .ok (empty := true)
    else if (r.kind = .rds ∨ r.kind = .rdx ∨ r.kind = .upg) ∧ s.remapHeld r.h.ctx vpn then
      s.finish r .retry (s.ov O.mig_backoff)
    else s.sendHome r

/-- Move a PTC entry to the front (least recently used last) and keep 2,048 per port (R62). -/
def State.touchPtc (s : State) (p : PtcE) : State :=
  let rest := s.chart.ptc.filter (fun q => !(q.port == p.port && q.ctx == p.ctx && q.vpn == p.vpn))
  let mine := (rest.filter (fun q => q.port == p.port)).take 2047
  { s with chart := { s.chart with ptc := p :: (mine ++ rest.filter (fun q => q.port != p.port)) } }

/-- Translate a request at its port: window check, retry slot, outstanding fetch, PTC hit or miss (R46, R47, R62, R63,
R531). -/
def State.translate (s : State) (r : Req) : State :=
  let c := r.h.ctx
  let vpn := r.h.cva / 2 ^ 26
  if s.ov O.win_count c ≤ vpn then s.violate r 1
  else
    let same (q : Req) : Bool := q.port == r.port && q.h.ctx == c && q.h.cva / 2 ^ 26 == vpn && decide (q.id < r.id)
    if s.reqs.any (fun q => q.phase == .slotted && same q) then s.updReq r.id (fun _ => { r with phase := .slotted })
    else if s.reqs.any (fun q => q.phase == .fetching && same q) then
      s.updReq r.id (fun _ => { r with phase := .fetching })
    else
      match s.chart.ptc.find? (fun q => q.port == r.port && q.ctx == c && q.vpn == vpn) with
      | some p => (s.touchPtc p).withEntry r p.ent (s.ov O.win_base c + vpn)
      | none =>
        let s1 := s.updReq r.id (fun _ => { r with phase := .fetching })
        if (s.chart.fetches.filter (fun f => f.1 == r.port)).length < 64 then
          { s1 with chart := { s1.chart with fetches := s1.chart.fetches ++ [(r.port, c, vpn)] } }.bump O.ptc_misses 0 r.port
        else s1

/-! ### HINT (R111, R341), DBELL (R247-R249) -/

/-- Free HBM frames (R93). -/
def State.freeHbm (s : State) : Nat := ((List.range 4096).filter s.frameFree).length

/-- Set a frame's placement target; the order of setting is kept (R341, R342). A target that names the tier the frame
already lies in returns to NONE at once, unless the frame is migrating (R342). -/
def State.setTarget (s : State) (f t : Nat) : State :=
  let r := s.frame f
  let t' := if t ≠ 0 ∧ tierOf f = t - 1 ∧ !(s.migs.any (fun m => m.src == f)) then 0 else t
  let s1 := s.setFrame f { r with target := t', torder := if t' = 0 then 0 else s.coh.clk }
  { s1 with coh := { s1.coh with clk := s1.coh.clk + 1 } }

/-- Record a HINT's pages (R341): `sub` 1 HBM, 2 DDR5, 3 HBM while more than `soon_reserve` frames are free. -/
def State.hintPages (s : State) (c vpn : Nat) (sub : Nat) : Nat → State
  | 0 => s
  | n + 1 =>
    let e := s.entry (s.ov O.win_base c + vpn)
    let s1 := if e.valid ∧ e.typ = 0 ∧ (sub ≠ 3 ∨ s.ov O.soon_reserve < s.freeHbm) then
      s.setTarget e.frame (if sub = 2 then 2 else 1) else s
    State.hintPages s1 c (vpn + 1) sub n

/-- Some mapped page of the range lacks R for this agent (R56). -/
def State.hintDenied (s : State) (r : Req) : Bool :=
  (List.range r.h.len).any (fun i =>
    let e := s.entry (s.ov O.win_base r.h.ctx + r.h.cva / 2 ^ 26 + i)
    e.valid && e.typ == 0 && (e.rights &&& r.mask) % 2 == 0)

/-- A HINT at its port: its pages lie inside the window, it needs R, and completes once recorded (R47, R106, R111). -/
def State.hint (s : State) (r : Req) : State :=
  let vpn := r.h.cva / 2 ^ 26
  let last := if r.h.len = 0 then vpn else vpn + r.h.len - 1
  if s.ov O.win_count r.h.ctx ≤ last then s.violate r 1
  else if s.hintDenied r then s.finish r .fault
  else (s.hintPages r.h.ctx vpn r.h.sub r.h.len).finish r .ok (empty := r.h.len == 0)

/-- A doorbell of a job queue is tried: accepted or counted bad (R249). The item number of a queue is
4 × context + queue. -/
def State.doorbell (s : State) (c data : Nat) : Bool × State :=
  let q := 4 * c + bits data 16 2
  let tail := data % 65536
  let head := s.ov O.jq_head q
  let new := (tail + 65536 - head) % 65536
  let cur := (s.ov O.jq_tail q + 65536 - head) % 65536
  if s.ob O.jq_enable q ∧ s.ov O.jq_state q = 1 ∧ cur ≤ new ∧ new ≤ s.ov O.jq_size q then
    (true, s.setOv O.jq_tail tail q)
  else (false, s.bump O.jq_bad_bells q)

/-- A DBELL at its port (R112, R248, R249). -/
def State.dbell (s : State) (r : Req) : State :=
  if r.mask.testBit 3 then
    let d := s.doorbell r.h.ctx (leNat ((slotBytes r.slots).take 8))
    d.2.finish r (if d.1 then .ok else .fault)
  else s.finish r .fault

/-! ### After the policer -/

/-- An open ordering fence holds the request back (R127). -/
def State.fenceHeld (s : State) (r : Req) : Bool :=
  s.reqs.any (fun q => q.kind == .fence && q.phase == .fencing && q.h.sub == 1 && q.port == r.port
    && q.h.agt == r.h.agt && q.h.ctx == r.h.ctx && decide (q.id < r.id))

/-- An admitted request is a wake event (R638), but not once a P3 entry has begun: then only an EvC or WbD is admitted (R640). -/
def State.stir (s : State) : State := if s.pwr.entering then s else s.wake

/-- An admitted request goes on: behind a fence, as a fence, doorbell or hint, or to translation. -/
def State.proceed (s0 : State) (r : Req) : State :=
  let s := s0.stir
  if s.fenceHeld r then s.updReq r.id (fun _ => { r with phase := .fenced })
  else match r.kind with
    | .fence => s.updReq r.id (fun _ => { r with phase := .fencing })
    | .dbell => s.dbell r
    | .hint => s.hint r
    | _ => s.translate r

/-- The early-resend record a request matches, if its back-off has not passed (R139). A request counts as the refused one sent again when
agent, context, opcode and CVA are the same, whatever its tag [DESIGN CHOICE, log 92]. -/
def State.earlyRec (s : State) (r : Req) : Option (Nat × Nat × Nat × Nat × Nat) :=
  (s.agent r.h.agt).early.find? (fun x =>
    x.1 == r.h.ctx && x.2.1 == r.kind.opcode && x.2.2.1 == r.h.cva && decide (s.ltc < x.2.2.2.1))

/-- A request sent again too early: RETRY again, or a violation beyond the limit within 1 ms (R139). The RETRY carries the back-off of the
first refusal, and the wait begins anew [DESIGN CHOICE, log 92]. -/
def State.earlyResend (s : State) (r : Req) (backoff : Nat) : State :=
  let a := s.agent r.h.agt
  let ts := a.earlyTimes.filter (fun t => decide (s.ltc < t + 58750)) ++ [s.ltc]
  let s1 := (s.setAgent r.h.agt { a with earlyTimes := ts }).bump O.retry_early r.h.agt
  let lim := s.ov O.retry_early_limit
  if lim ≠ 0xFFFF ∧ lim < ts.length then s1.violate r 5 else s1.finish r .retry backoff

/-- A request as it arrives, before any check. -/
def Req.arriving (id : Nat) (k : Kind) (port : Nat) (h : Hdr) (slots : List Slot) : Req := {
  id := id, kind := k, port := port, h := h, slots := slots, colour := 1, mask := 0,
  phase := .done, ser := false, ppa := 0, gen := 0, view := 0, ext := 0, index := 0, rights := 0, epoch := 0,
  slot := false, hadEntry := false, unk := false, plane := 0, hop := 0, scale := 0, ownSrc := false, start := none,
  parent := none, parts := [], inner := false }

/-- A request arrives at a port over a link whose source is `src` (R32, R98, R99, R119, R143, R408, R412, R549, and R640 Table 7
step 1). -/
def State.arrive (s : State) (k : Kind) (port src : Nat) (h : Hdr) (slots : List Slot) : State :=
  let r := Req.arriving s.nextReq k port h slots
  let s := { s with nextReq := s.nextReq + 1 }
  let a := s.agent h.agt
  if h.agt ≠ src then s.violate { r with h := { h with agt := src } } 5
  else if a.life ≠ .present then s.finish r .portLost (plWhy := 2)
  else if a.frozen ∧ !k.evict then s.finish r .frozen
  else if s.reqs.any (fun q => q.port == port && q.h.agt == h.agt && q.h.tag == h.tag) then s.violate r 5
  else if !formOk k h slots.length then s.violate r 5
  else if k.coherent ∧ s.canAgent h.can ≠ some h.agt then s.violate r 5
  else match s.earlyRec r with
  | some x => s.earlyResend r x.2.2.2.2
  | none =>
    if s.pwr.entering ∧ !k.evict then s.finish r .retry 15 else
    match s.bindMask h.agt h.ctx with
    | none =>
      if s.inGrace h.agt h.ctx then s.finish r .revoked
      else (s.bump O.bind_mismatches).violate r 4
    | some m =>
      let st := (s.ctx h.ctx).st
      if (st = .quiescing ∨ st = .sweeping ∨ st = .free) ∧ !k.evict then s.finish r .revoked
      else
        let p := s.police port h.ctx (chargeOf k h slots.length) h.colour
        if p.1 = 3 ∧ !k.evict then p.2.2.finish r .retry p.2.1
        else
          let r := { r with colour := min p.1 2, mask := m }
          { p.2.2 with reqs := p.2.2.reqs ++ [r] }.proceed r

/-! ### Chart fetches (R63, R44) -/

/-- Translate again, in arrival order, the requests of a list. -/
def State.retranslate (s : State) : List Nat → State
  | [] => s
  | i :: t => match s.req? i with
    | some r => State.retranslate (s.translate { r with phase := .done, slot := false }) t
    | none => State.retranslate s t

/-- Requests of a port waiting behind a fetch of a page, in admission order. -/
def State.behindFetch (s : State) (port c vpn : Nat) : List Req :=
  s.reqs.filter (fun q => q.phase == .fetching && q.port == port && q.h.ctx == c && q.h.cva / 2 ^ 26 == vpn)

/-- Serve the requests behind a fetch with the entry it brought, in arrival order: each meets the mark that the one before it set, and waits
behind one that has taken a retry slot (R525, R531). -/
def State.serveFetched (s : State) (index : Nat) (bad : Bool) : List Req → State
  | [] => s
  | r :: t =>
    let behind := s.reqs.any (fun q => q.phase == .slotted && q.port == r.port && q.h.ctx == r.h.ctx
      && q.h.cva / 2 ^ 26 == r.h.cva / 2 ^ 26 && decide (q.id < r.id))
    let s1 := if behind then s.updReq r.id (fun _ => { r with phase := .slotted })
      else if bad then s.reqFault { r with hadEntry := false } (s.entry index) 3 index
      else s.withEntry r (s.entry index) index
    State.serveFetched s1 index bad t

/-- A page with a fetching request of the port and no fetch outstanding, first in admission order (R63). -/
def State.nextFetch (s : State) (port : Nat) : Option (Nat × Nat) :=
  (s.reqs.find? (fun q => q.phase == .fetching && q.port == port
    && !(s.chart.fetches.contains (port, q.h.ctx, q.h.cva / 2 ^ 26)))).map (fun q => (q.h.ctx, q.h.cva / 2 ^ 26))

/-- A chart fetch returns. `eccA` and `eccB` say what the two copies' codes found: 0 good, 1 corrected, 2 beyond
correction (R44). -/
def State.fetchDone (s : State) (port c vpn eccA eccB : Nat) : State :=
  if s.chart.fetches.contains (port, c, vpn) then
    let index := s.ov O.win_base c + vpn
    let s1 := { s with chart := { s.chart with fetches := s.chart.fetches.erase (port, c, vpn) } }
    let q := s1.readChart index eccA eccB
    let e := q.2.entry index
    let s4 := if !q.1 ∧ e.valid ∧ e.typ = 0 then q.2.touchPtc ⟨port, c, vpn, e⟩ else q.2
    let s5 := s4.serveFetched index q.1 (s4.behindFetch port c vpn)
    match s5.nextFetch port with
    | some (c', v') =>
      { s5 with chart := { s5.chart with fetches := s5.chart.fetches ++ [(port, c', v')] } }.bump O.ptc_misses 0 port
    | none => s5
  else s

/-! ### Fences (R127-R129) -/

/-- The fence may close: every covered request has completed, or for an ordering fence has been serialised. -/
def State.fenceReady (s : State) (f : Req) : Bool :=
  !(s.reqs.any (fun q => q.port == f.port && q.h.agt == f.h.agt && q.h.ctx == f.h.ctx && decide (q.id < f.id)
    && q.phase != .done && !(f.h.sub == 1 && q.ser)))

/-- Release the requests held behind a closed ordering fence, in admission order. -/
def State.releaseFenced (s : State) : List Req → State
  | [] => s
  | r :: t => State.releaseFenced (s.proceed { r with phase := .done }) t

/-- A fence closes with OK when what it covers has completed or been serialised (R127, R129). -/
def State.closeFence (s : State) (port agt tag : Nat) : State :=
  match s.reqs.find? (fun q => q.port == port && q.h.agt == agt && q.h.tag == tag && q.kind == .fence
      && q.phase == .fencing) with
  | none => s
  | some f =>
    if s.fenceReady f then
      let s1 := s.finish f .ok
      s1.releaseFenced (s1.reqs.filter (fun q => q.phase == .fenced && q.port == port && q.h.agt == agt
        && q.h.ctx == f.h.ctx))
    else s

end Sys2Proof.Machine
end

