-- ==== Sys2Proof/Machine/Accum.lean ====
section
/-! DEFINITION. Sys2Proof/Machine/Accum.lean: the accumulation cache and its adders (R218-R232) and the far atomics (R109,
R110). -/

namespace Sys2Proof.Machine

open Sys2Proof

def State.accAt (s : State) (line : Nat) : Option AccLine := (s.coh.acc.find? (fun p => p.1 == line)).map (·.2)

def State.setAcc (s : State) (line : Nat) (a : AccLine) : State :=
  { s with coh := { s.coh with acc := Tab.ins line a s.coh.acc } }

def State.delAcc (s : State) (line : Nat) : State := { s with coh := { s.coh with acc := Tab.del line s.coh.acc } }

/-- Contribution `k` of an ACC: its exact value and bits (R219, R220, R224). -/
def accContribution (h : Hdr) (slots : List Slot) (k : Nat) : Val × Nat :=
  let bs := slotBytes (accParts h slots).2
  let x := unpack (fmtBits h.fmtSrc) k bs
  if isMx h.fmtSrc then (mxDecode h.fmtSrc ((bs.getD (accE h) 0).toNat) x, x) else (elemDecode h.fmtSrc x, x)

/-- Sign-extend `w` bits to 32. -/
def sext32 (w x : Nat) : Nat := if x % 2 ^ w < 2 ^ (w - 1) then x % 2 ^ w else 2 ^ 32 - (2 ^ w - x % 2 ^ w)

/-- The half-lines, as a mask of two bits, that hold the targets of contributions in a mask (R232). -/
def accHalves (h : Hdr) (mask : Nat) : Nat :=
  (List.range h.len).foldl (fun a k =>
    if mask.testBit k then a ||| 2 ^ ((h.cva % 128 + k * accW h.fmtDst) / 64) else a) 0

/-- One contribution added to an accumulator line (R224): the line, and whether the sum overflowed or became NaN. -/
def accAdd (h : Hdr) (slots : List Slot) (val : Bytes) (k : Nat) : Bytes × Bool × Bool :=
  let w := accW h.fmtDst
  let o := h.cva % 128 + k * w
  let old := leNat (slice o w val)
  let c := accContribution h slots k
  if h.fmtDst = 0xB then
    let add := sext32 (fmtBits h.fmtSrc) c.2
    let sum := (old + add) % 2 ^ 32
    let wrap := (old / 2 ^ 31 == add / 2 ^ 31) && (sum / 2 ^ 31 != old / 2 ^ 31)
    (splice o (natLe 4 sum) val, wrap, false)
  else
    let t := elemDecode h.fmtDst old
    let v := Val.add t c.1
    let e := elemEncode h.fmtDst .rne v
    (splice o (natLe w e.enc) val, e.sat, v.isNan && !t.isNan)

/-- Poison half-lines not yet poisoned, with a reason, counting each (R232). -/
def State.accPoison (s : State) (line : Nat) (a : AccLine) (halves reason : Nat) : AccLine × State :=
  let h := hsLine line
  let p0 := halves.testBit 0 && a.p0 == 0
  let p1 := halves.testBit 1 && a.p1 == 0
  ({ a with p0 := if p0 then reason else a.p0, p1 := if p1 then reason else a.p1, dirty := a.dirty || p0 || p1 },
    s.bump O.acc_poisoned h 0 (b2n p0 + b2n p1))

/-- Add the contributions `ks` of an ACC, in order. -/
def State.accAdds (s : State) (line : Nat) (h : Hdr) (slots : List Slot) (mask : Nat) : List Nat → Bytes → Bytes × State
  | [], v => (v, s)
  | k :: t, v =>
    if mask.testBit k then
      let r := accAdd h slots v k
      let s1 := ((s.bump O.acc_adds (hsLine line)).bump O.acc_overflow (hsLine line) 0 (b2n r.2.1)).bump O.acc_nan
        (hsLine line) 0 (b2n r.2.2)
      State.accAdds s1 line h slots mask t r.1
    else State.accAdds s line h slots mask t v

/-- Apply one accepted ACC to a filled line (R224, R226, R232). -/
def State.accApply (s : State) (line : Nat) (a : AccLine) (h : Hdr) (slots : List Slot) : AccLine × State :=
  let parts := accParts h slots
  if parts.1.any (·.poison) then s.accPoison line a (accHalves h (2 ^ h.len - 1)) 4
  else
    let mask := accMask h slots
    if parts.2.any (·.poison) then s.accPoison line a (accHalves h mask) 4
    else
      let r := s.accAdds line h slots mask (List.range h.len) a.val
      ({ a with val := r.1, dirty := true }, r.2)

/-- Apply the ACCs that waited for the fill, in serialisation order (R228). -/
def State.accApplyAll (s : State) (line : Nat) (a : AccLine) : List (Hdr × List Slot) → AccLine × State
  | [] => (a, s)
  | (h, sl) :: t =>
    let r := s.accApply line a h sl
    State.accApplyAll r.2 line r.1 t

/-- A value that is poison, as the accumulation cache keeps its reason (R232): 0 for data. -/
def Cw.reason : Cw → Nat
  | .poison x => x
  | .data _ => 0

/-- The starting value of an accumulator line arrives: memory, or poison with the reason it was read with (R184, R228,
R232); the waiting contributions are then added. -/
def State.accFill (s : State) (line : Nat) : State :=
  match s.accAt line with
  | none => s
  | some a =>
    if a.filling then
      let c := (a.pend.head?.map (fun p => (p.1.ctx, p.1.cva / 2 ^ 26))).getD (0, 0)
      let r := (s.bump O.acc_fills (hsLine line)).lineRead line c.1 c.2
      let a1 := { a with val := r.1.bytes, p0 := r.1.lo.reason, p1 := r.1.hi.reason, filling := false, pend := [] }
      let n := b2n (a1.p0 != 0) + b2n (a1.p1 != 0)
      let q := (r.2.bump O.acc_poisoned (hsLine line) 0 n).accApplyAll line a1 a.pend
      q.2.setAcc line q.1
    else s

/-- Flush a dirty accumulator line to memory; it stays in ACC mode and becomes clean (R186, R232). A lost line's write-back
fails and poisons its half-lines (R358). -/
def State.accFlush (s : State) (line : Nat) : State :=
  let s := s.accFill line
  match s.accAt line with
  | none => s
  | some a =>
    if a.dirty then
      if s.lostWrite (line * 128) then
        let r := (s.noteLostWrite line).accPoison line a 3 7
        r.2.setAcc line { r.1 with dirty := false }
      else
        let w (o p : Nat) : Cw := if p = 0 then .data (slice o 64 a.val) else .poison p
        ((s.setAcc line { a with dirty := false }).pageHint line true 0).lineHome line ⟨w 0 a.p0, w 64 a.p1⟩
    else s

/-- The write-back of an idle line: `acc_idle_flush` all ones never writes back, and a write-back made is counted (R231, R243). -/
def State.accIdle (s : State) (line : Nat) : State :=
  if s.ov O.acc_idle_flush = 0xFFFFFFFF then s
  else match s.accAt line with
    | none => s
    | some a =>
      if a.filling ∨ !a.dirty then s
      else (if s.lostWrite (line * 128) then s else s.bump O.acc_writebacks (hsLine line)).accFlush line

/-- Flush a line and end its ACC mode (R187, R189). -/
def State.accEnd (s : State) (line : Nat) : State :=
  let t := (s.accFlush line).delAcc line
  { t with mwrs := t.mwrs.map (fun w => if w.line = line ∧ !s.mwrs.contains w then { w with keeps := 2 } else w) }

/-- The accumulation-cache set of a line (R227). -/
def accSet (line : Nat) : Nat := bits line 0 5 * 64 + bits line 10 6

/-- The lines of a slice's accumulation cache in a set. -/
def State.accWays (s : State) (line : Nat) : List (Nat × AccLine) :=
  s.coh.acc.filter (fun p => hsLine p.1 == hsLine line && accSet p.1 == accSet line)

/-- Lines of a line's set whose accumulation-cache entry is kept only for a partner's answer (R315). -/
def State.keptAcc (s : State) (line : Nat) : List Nat :=
  (s.mwrs.filter (fun w => w.keeps == 2 && hsLine w.line == hsLine line && accSet w.line == accSet line && (s.accAt w.line).isNone)).foldl
    (fun a w => if a.contains w.line then a else a ++ [w.line]) []

/-- The least recently used line that is not pinned (R228, R229). -/
def accVictim : List (Nat × AccLine) → Option (Nat × Nat)
  | [] => none
  | (l, a) :: t =>
    match accVictim t with
    | none => if a.filling then none else some (l, a.lru)
    | some (l', u') => if a.filling then some (l', u') else if a.lru < u' then some (l, a.lru) else some (l', u')

/-- Fill records in use at a slice (R228). -/
def State.accFilling (s : State) (h : Nat) : Nat :=
  (s.coh.acc.filter (fun p => hsLine p.1 == h && p.2.filling)).length

/-- Advance the use clock. -/
def State.tick (s : State) : State := { s with coh := { s.coh with clk := s.coh.clk + 1 } }

/-- A line enters ACC mode with a way in hand: it waits for its fill, or starts at once from the data a recall brought home (R184,
R228). -/
def State.accEnter (s : State) (line : Nat) (r : Req) : State :=
  match r.start with
  | none => s.setAcc line ⟨r.h.fmtDst, zeros 128, 0, 0, false, true, [(r.h, r.slots)], s.coh.clk⟩
  | some v =>
    let a : AccLine := ⟨r.h.fmtDst, v.bytes, v.lo.reason, v.hi.reason, false, false, [], s.coh.clk⟩
    let n := b2n (a.p0 != 0) + b2n (a.p1 != 0)
    let q := (s.bump O.acc_poisoned (hsLine line) 0 n).accApply line a r.h r.slots
    q.2.setAcc line q.1

/-- An ACC to a line held by no cache: accepted into ACC mode, or RETRY when no way or fill record is free (R184, R185,
R223, R225, R228-R230). -/
def State.accAccept (s : State) (r : Req) : State :=
  let line := r.ppa / 128
  let hs := hsLine line
  let full := decide (256 ≤ s.accFilling hs) && r.start.isNone
  match s.accAt line with
  | some a =>
    let s1 := s.bump O.acc_hits hs
    if a.fmt = r.h.fmtDst then
      if a.filling then
        ((s1.setAcc line { a with pend := a.pend ++ [(r.h, r.slots)], lru := s.coh.clk }).tick).finish r .ok
      else
        let q := s1.accApply line { a with lru := s.coh.clk } r.h r.slots
        ((q.2.setAcc line q.1).tick).finish r .ok
    else
      if full then (s1.bump O.acc_retry hs).finish r .retry (s.ov O.acc_backoff)
      else (((s1.accFlush line).accEnter line { r with start := none }).tick).finish r .ok
  | none =>
    if full then (s.bump O.acc_retry hs).finish r .retry (s.ov O.acc_backoff)
    else
      match s.prepWrite r.ppa with
      | none => (s.touchScrub r.ppa).finish r .retry (s.ov O.sweep_backoff)
      | some s0 =>
        if (s0.accWays line).length + (s0.keptAcc line).length < 16 ∨ (s0.keptAcc line).contains line then ((s0.accEnter line r).tick).finish r .ok
        else match accVictim (s0.accWays line) with
          | none => (s0.bump O.acc_retry hs).finish r .retry (s.ov O.acc_backoff)
          | some (v, _) =>
            let s1 := (s0.bump O.acc_evictions hs).accEnd v
            if (s1.keptAcc line).contains v then (s1.bump O.acc_retry hs).finish r .retry (s.ov O.acc_backoff)
            else ((s1.accEnter line r).tick).finish r .ok

/-! ### Far atomics -/

/-- The new bits an ATOM stores (R109, R110): fetch-add, swap, compare-swap on INT32, INT64 or FP32. A fetch-add that overflows to infinity
is counted nowhere: no counter of Table 10 is one of the atomic unit [DESIGN CHOICE, log 93]. -/
def atomNew (sub aty old operand new : Nat) : Nat :=
  let w := if aty = 1 then 64 else 32
  match sub with
  | 0 =>
    if aty = 2 then (elemEncode 1 .rne (Val.add (elemDecode 1 old) (elemDecode 1 (operand % 2 ^ 32)))).enc
    else (old + operand) % 2 ^ w
  | 1 => operand % 2 ^ w
  | _ => if old = operand % 2 ^ w then new % 2 ^ w else old

/-- An ATOM applied at its home slice, over the data a recall brought home for it or over memory (R191): the old value returned in one slot;
a poisoned block is left and marked (R110, R387). -/
def State.atomApply (s : State) (r : Req) : State :=
  let line := r.ppa / 128
  let o := r.ppa % 128
  let q := match r.start with
    | some v => (v, s.flushMerge line)
    | none => s.lineRead line r.h.ctx (r.h.cva / 2 ^ 26)
  let cw := if o < 64 then q.1.lo else q.1.hi
  let sl := r.slots.headD ⟨zeros 32, false⟩
  match cw with
  | .poison _ => (q.2.countPoisonRead r.ppa).finish r .ok (slots := [⟨zeros 32, true⟩]) (len := r.h.len)
  | .data bs =>
    let old := leNat (slice (o % 64) r.h.len bs)
    let new := atomNew r.h.sub r.h.aty old (leNat (slice 0 8 sl.bytes)) (leNat (slice 8 8 sl.bytes))
    let s1 :=
      if sl.poison then q.2.writeHalf line (o / 64) (o % 64) (zeros r.h.len) true
      else if r.h.sub = 2 ∧ new = old then q.2
      else q.2.lineWrite line o (natLe r.h.len new) []
    s1.finish r .ok (slots := [⟨fitTo 32 (natLe r.h.len old), false⟩]) (len := r.h.len)

end Sys2Proof.Machine
end

