-- ==== Sys2Proof/Machine/Home.lean ====
section
/-! DEFINITION. Sys2Proof/Machine/Home.lean: the home slice: the directory and its holders (R149-R156), snoops and their
answers (R157-R171), busy lines, wait lists and recalls (R172-R183), the home state table (R191), protocol errors (R194),
UNK service (R564, R565) and what an absent holder counts as (R550, R554). -/

namespace Sys2Proof.Machine

open Sys2Proof

/-! ### Names and sets -/

/-- The set of a line within its home slice (R150). -/
def dirSet (line : Nat) : Nat := bits line 0 5 * 512 + (bits line 10 9 ^^^ bits line 19 9)

/-- CVA[47:7] of a line under a page (R145). -/
def nameLine (vpn line : Nat) : Nat := vpn * 2 ^ 19 + line % 2 ^ 19

/-- The VPN of a request. -/
def Req.vpn (r : Req) : Nat := r.h.cva / 2 ^ 26

/-- The line a request is homed by. -/
def Req.line (r : Req) : Nat := r.ppa / 128

/-- The requester's CAN in the directory's sense: a coherent kind names it, another kind's agent may hold one (R143). -/
def State.reqCan (s : State) (r : Req) : Option Nat :=
  if r.kind.coherent then some r.h.can
  else (List.range 1024).find? (fun c => s.canAgent c == some r.h.agt)

/-- The agent of a CAN answers snoops (R550). -/
def State.canPresent (s : State) (can : Nat) : Bool :=
  match s.canAgent can with
  | some a => (s.agent a).life == .present
  | none => false

/-! ### The sharer field (R152-R155, R170) -/

/-- Add a sharer to an entry. -/
def Dir.addSharer (d : Dir) (can : Nat) : Dir :=
  if d.group then { d with sharers := setBit d.sharers (can / 8) }
  else if d.sharers = 0 then { d with win := can / 128, sharers := 2 ^ (can % 128) }
  else if can / 128 = d.win then { d with sharers := setBit d.sharers (can % 128) }
  else
    let groups := (List.range 128).foldl (fun a i =>
      if d.sharers.testBit i then setBit a ((128 * d.win + i) / 8) else a) 0
    { d with group := true, sharers := setBit groups (can / 8) }

/-- A CAN is recorded as an exact-mode sharer. -/
def Dir.exactSharer (d : Dir) (can : Nat) : Bool :=
  !d.group && d.sharers != 0 && can / 128 == d.win && d.sharers.testBit (can % 128)

/-- Remove a sharer, as an EvC does (R155). -/
def Dir.dropSharer (d : Dir) (can : Nat) : Dir :=
  if d.exactSharer can then { d with sharers := clrBit d.sharers (can % 128) } else d

/-- The CANs an entry's sharer field stands for (R170). -/
def State.sharerCans (s : State) (d : Dir) : List Nat :=
  if d.group then
    ((List.range 1024).filter (fun c => d.sharers.testBit (c / 8) && (s.canAgent c).isSome))
  else ((List.range 128).filter (fun i => d.sharers.testBit i)).map (fun i => 128 * d.win + i)

/-- An entry whose holders have gone: X without an owner is U, OS without one is S, S without sharers is U (R149, R156). -/
def Dir.settle (d : Dir) : Dir :=
  let st := match d.st with
    | .x => if d.owner.isNone then Hst.u else .x
    | .os => if d.owner.isNone then (if d.sharers = 0 then Hst.u else .s) else .os
    | .s => if d.sharers = 0 then Hst.u else .s
    | h => h
  if st = .u then
    { d with
      way := false, st := .u, group := false, win := 0, owner := none, sharers := 0, nctx := 0, nvpn := 0,
      lru := 0 }
  else { d with st := st }

/-- The entry freed: the line becomes U (R154, R156). -/
def Dir.free (d : Dir) : Dir :=
  { d with way := false, st := .u, group := false, win := 0, owner := none, sharers := 0, nctx := 0, nvpn := 0, lru := 0 }

/-! ### Protocol errors (R194) -/

/-- A cell marked "cannot occur": logged, counted, and the sender frozen. -/
def State.cohErr (s : State) (code agt can hs ctx cva opcode port : Nat) : State :=
  let rec16 := natLe 1 code ++ zeros 1 ++ natLe 2 can ++ natLe 2 ctx ++ zeros 2 ++ natLe 6 (cva / 128)
  ((s.setOct O.coh_err_last rec16 hs).bump O.coh_errors hs).violation agt 5 opcode ctx port cva

/-- The coherent name of a line for a record: none while it has no entry (log 9). -/
def State.lineName (s : State) (line : Nat) : Nat × Nat :=
  let d := s.dir line
  if d.way then (d.nctx, nameLine d.nvpn line * 128) else (noCtx, 0)

/-- A response or acknowledgement in a cell marked "cannot occur"; it names no request's context (R413). -/
def State.badRsp (s : State) (code agt can line opcode port : Nat) : State :=
  let n := s.lineName line
  let h := hsLine line
  let rec16 := natLe 1 code ++ zeros 1 ++ natLe 2 can ++ natLe 2 n.1 ++ zeros 2 ++ natLe 6 (n.2 / 128)
  ((s.setOct O.coh_err_last rec16 h).bump O.coh_errors h).violation agt 5 opcode noCtx port n.2

/-- A request in a cell marked "cannot occur" completes with FROZEN and has no effect. -/
def State.badReq (s : State) (code : Nat) (r : Req) : State :=
  let s1 := s.cohErr code r.h.agt r.h.can (hsLine r.line) r.h.ctx r.h.cva r.kind.opcode r.port
  s1.finish r .frozen

/-! ### Absent holders (R550, R554, R555) -/

/-- A lost owner's line under its recorded name: kept when stale-tolerant, and otherwise written as LOST_DIRTY poison;
the second component says it was poisoned. -/
def State.loseOwner (s : State) (line can : Nat) : State × Bool :=
  let d := s.dir line
  let a := (s.canAgent can).getD 0
  let detail := nameLine d.nvpn line
  if s.staleTol d.nctx d.nvpn (frameOf (line * 128)) then
    ((s.bump O.purge_stale_kept a).event 0x32 6 0 d.nctx detail, false)
  else
    let s1 := (s.poisonCw (2 * line) 3).poisonCw (2 * line + 1) 3
    ((s1.bump O.purge_dirty a).event 0x31 6 0 d.nctx (detail + 3 * 2 ^ 41), true)

/-! ### Transactions -/

/-- A transaction with nothing yet answered. -/
def Txn.fresh (k : TKind) (req : Nat) : Txn :=
  { kind := k, sid := 0, req := req, snps := [], waitWb := [], gotWb := [], ans := [], val := none, src := false,
    rsp := none, granted := false, noData := false, nxSt := .u, nxOwner := 0, nxAdd := [] }

/-- The line waits for a way and is in no busy state (R182). -/
def Txn.claims (t : Txn) : Bool :=
  match t.kind with
  | .claim _ => true
  | _ => false

/-- The line is in a busy state: a transaction is open and does not only wait for a way (R149, R158). -/
def Dir.busy (d : Dir) : Bool := d.txn.any (fun t => !t.claims)

/-- Open transactions of a slice (R175). -/
def State.slcTxns (s : State) (h : Nat) : Nat := (s.coh.dir.filter (fun p => hsLine p.1 == h && p.2.busy)).length

/-- Tracking records in use at a slice: each busy transaction takes one, each waiting request, and each request that waits for a way
(R175). -/
def State.slcRecords (s : State) (h : Nat) : Nat :=
  let l := s.coh.dir.filter (fun p => hsLine p.1 == h)
  (l.filter (fun p => p.2.txn.isSome)).length + (l.map (fun p => p.2.waits.length)).foldl (· + ·) 0

/-- A slice has a record and a transaction number free (R175); `n` records are wanted. -/
def State.txnRoom (s : State) (h : Nat) (n : Nat := 1) : Bool :=
  decide (s.slcRecords h + n ≤ 8192) && decide (s.slcTxns h < 4096)

/-- A recall may begin at a slice: a record and a number are free, and fewer than 256 recalls are open (R175, R180). -/
def State.recallRoom (s : State) (h : Nat) : Bool :=
  s.txnRoom h && decide ((s.coh.dir.filter (fun p => hsLine p.1 == h && p.2.txn.any (fun t => t.kind == .recall))).length < 256)

/-- A transaction number not in use at a slice, taken in turn (R158). A transaction is opened only with `txnRoom`, so one is free. -/
def State.takeSid (s : State) (h : Nat) : Nat × State :=
  let used := (s.coh.dir.filter (fun p => hsLine p.1 == h && p.2.busy)).filterMap (fun p => p.2.txn.map (·.sid))
  let n := Tab.get 0 s.coh.sid h
  let free := ((List.range 4096).find? (fun i => !(used.contains ((n + i) % 4096)))).getD 0
  let sid := (n + free) % 4096
  (sid, { s with coh := { s.coh with sid := Tab.put 0 s.coh.sid h ((sid + 1) % 4096) } })

/-- One snoop of an opening transaction: recorded to be sent, or answered at once for an absent target (R550). -/
def State.addSnoop (s : State) (line : Nat) (t : Txn) (can : Nat) (k : SnpK) (owner : Bool) : Txn × State :=
  let d := s.dir line
  if s.canPresent can then
    ({ t with snps := t.snps ++ [⟨can, k, owner⟩] },
      { s with coh := { s.coh with snoops := s.coh.snoops ++
        [⟨hsLine line, t.sid, can, line, k, d.nctx, d.nvpn, false, 0, 0⟩] } })
  else if owner ∧ d.st ≠ .unk then
    let q := s.loseOwner line can
    let s1 := q.1.setDir line { q.1.dir line with owner := none }
    if q.2 then ({ t with val := some ⟨.poison 3, .poison 3⟩, rsp := some .di }, s1) else ({ t with rsp := some .i }, s1)
  else (t, s)

/-- Several snoops. -/
def State.addSnoops (s : State) (line : Nat) (t : Txn) : List (Nat × SnpK × Bool) → Txn × State
  | [] => (t, s)
  | (c, k, o) :: rest =>
    let q := s.addSnoop line t c k o
    State.addSnoops q.2 line q.1 rest

/-- The data an owner gave for an internal RdOnce is kept until its unit takes it (R233), or dropped. -/
def State.setPeek (s : State) (line : Nat) (v : LineVal) : State :=
  { s with coh := { s.coh with peeks := Tab.ins line v s.coh.peeks } }

def State.dropPeek (s : State) (line : Nat) : State := { s with coh := { s.coh with peeks := Tab.del line s.coh.peeks } }

/-- Open a transaction of a line with its snoops (R158, R170). -/
def State.openTxn (s : State) (line : Nat) (t : Txn) (targets : List (Nat × SnpK × Bool)) : State :=
  let q := s.takeSid (hsLine line)
  let p := q.2.addSnoops line { t with sid := q.1 } targets
  (p.2.setDir line { p.2.dir line with txn := some p.1 }).dropPeek line

/-- The sharers' part of a snoop list: SnpInv to each, leaving out the owner and a requester (R170). -/
def State.invSharers (s : State) (d : Dir) (without : Option Nat) : List (Nat × SnpK × Bool) :=
  ((s.sharerCans d).filter (fun c => some c != without && some c != d.owner)).map (fun c => (c, .snpInv, false))

/-- The snoops of a recall: SnpRecall to the owner and SnpInv to the sharers (R182, R191), leaving out a requester that writes or
accumulates (R170). -/
def State.recallTargets (s : State) (d : Dir) (without : Option Nat := none) : List (Nat × SnpK × Bool) :=
  (match d.owner with
    | some o => [(o, SnpK.snpRecall, true)]
    | none => []) ++ s.invSharers d without

/-- Mark a request as served by an open transaction. -/
def State.served (s : State) (r : Req) : State := s.updReq r.id (fun q => { q with phase := .served })

/-- A request met a full wait list, or found no record or transaction number (R174, R175). -/
def State.waitFull (s : State) (r : Req) : State :=
  (s.bump O.retry_wait_full (hsLine r.line)).finish r .retry (s.ov O.wait_backoff)

/-! ### Service of reads that grant nothing, writes and atomics -/

/-- The data slots of an IDENT read: `len` bytes from byte `o` of the line, packed from byte 0 of the first slot; a slot
with a byte of a poison code word is poisoned (R384). -/
def identSlots (v : LineVal) (o len : Nat) : List Slot :=
  let bs := slice o len v.bytes
  (List.range (ceilDiv len 32)).map (fun k =>
    let a := o + 32 * k
    let b := min (o + len) (a + 32)
    if (v.lo.isPoison && decide (a < 64)) || (v.hi.isPoison && decide (64 < b)) then (⟨zeros 32, true⟩ : Slot)
    else ⟨slice (32 * k) 32 bs, false⟩)

/-- Count the poison code words that a range of a line delivers (R387). -/
def State.countRange (s : State) (line o len : Nat) (v : LineVal) : State :=
  let s1 := if v.lo.isPoison ∧ o < 64 then s.countPoisonRead (line * 128) else s
  if v.hi.isPoison ∧ 64 < o + len then s1.countPoisonRead (line * 128) else s1

/-- Count the poison delivered from gathered lines. -/
def State.countGather (s : State) (frame : Nat) : Gather → State
  | [] => s
  | (l, v) :: t => State.countGather (s.countDelivered (frame * 2 ^ 19 + l) v) frame t

/-- A request joins the wait list of its line, which is its serialisation (R172); a line that is free serves it at once. It waits while its
slice does not serve, and finds the limits of R174 and R175. -/
def State.joinLine (s : State) (q : Req) : State :=
  let d := s.dir q.line
  let x := s.slc (hsLine q.line)
  if x.noSpare then s.finish q .retry 15
  else if x.phase ≠ 0 ∨ x.hold then s.updReq q.id (fun _ => { q with phase := .holding })
  else if 8 ≤ d.waits.length ∨ 8192 ≤ s.slcRecords (hsLine q.line) then s.waitFull q
  else (s.updReq q.id (fun _ => { q with phase := .waiting, ser := true })).setDir q.line { d with waits := d.waits ++ [q.id] }

/-- The internal RdOnce for a further stored line of a view read (R238). -/
def Req.part (r : Req) (id line : Nat) : Req :=
  { r with
    id := id, kind := .rdonce, port := 32, ppa := line * 128, view := 0, phase := .waiting, parent := some r.id, parts := [],
    unk := false, start := none, slot := false }

/-- Ask the home slices of a view read's further lines, while the read has not ended (R238). -/
def State.askParts (s : State) (r : Req) : List Nat → State
  | [] => s
  | l :: t =>
    if (s.req? r.id).any (fun q => q.phase == .served) then
      let q := r.part s.nextReq l
      State.askParts (({ s with nextReq := s.nextReq + 1, reqs := s.reqs ++ [q] } : State).joinLine q) r t
    else s

/-- The lines at which a view read's further reads wait to be served. -/
def State.partLines (s : State) (id : Nat) : List Nat :=
  (s.reqs.filter (fun q => q.parent == some id && q.phase == .waiting)).map Req.line

/-- Every stored line of a view read has come: it completes through the view of its entry (R239-R241). -/
def State.viewDone (s : State) (r : Req) : State :=
  let off := r.h.cva % 2 ^ 26
  let g : Gather := (viewLines r.view r.vpn off r.h.len).filterMap (fun l =>
    (r.parts.find? (fun p => p.1 == frameOf r.ppa * 2 ^ 19 + l)).map (fun p => (l, p.2)))
  let d := viewDeliver g r.view r.vpn off r.h.len r.scale
  let h := hsLine r.line
  let s0 := if r.ownSrc then s.bump O.owner_sourced h else s
  let s1 := (((s0.bump O.view_reads h).bump O.view_bytes h 0 r.h.len).bump O.view_saturations h 0 d.2.1).bump
    O.view_nan_to_int h 0 d.2.2
  (s1.countGather (frameOf r.ppa) g).finish r .ok (src := r.ownSrc) (slots := d.1) (len := r.h.len)

/-- A further line of a view read has come. -/
def State.partCame (s : State) (r : Req) (p : Nat) (v : LineVal) (src : Bool) : State :=
  match s.req? p with
  | none => s.dropReq r.id
  | some u =>
    let u1 := { u with parts := u.parts ++ [(r.line, v)], ownSrc := u.ownSrc || src }
    let s1 := (s.dropReq r.id).updReq p (fun _ => u1)
    if s1.reqs.any (fun q => q.parent == some p) then s1 else s1.viewDone u1

/-- A non-caching read ends with the value its line has (R104, R190, R238): it completes, asks for the further lines its view needs, adds a
line to a view read, or leaves an owner's data for the unit that asked (R233). -/
def State.deliver (s : State) (r : Req) (v : LineVal) (src : Bool) : State :=
  if r.inner then (if src then s.setPeek r.line v else s).dropReq r.id
  else match r.parent with
  | some p => s.partCame r p v src
  | none =>
    if r.view = 0 then
      let s0 := if src then s.bump O.owner_sourced (hsLine r.line) else s
      let o := r.ppa % 128
      (s0.countRange r.line o r.h.len v).finish r .ok (src := src) (slots := identSlots v o r.h.len) (len := r.h.len)
    else
      let more := ((viewLines r.view r.vpn (r.h.cva % 2 ^ 26) r.h.len).map (fun l => frameOf r.ppa * 2 ^ 19 + l)).filter
        (· != r.line)
      let u := { r with parts := [(r.line, v)], ownSrc := src, phase := .served }
      let s1 := s.updReq r.id (fun _ => u)
      if more = [] then s1.viewDone u else s1.askParts u more

/-- A non-caching read served from memory. -/
def State.deliverMem (s : State) (r : Req) : State :=
  let q := s.lineRead r.line r.h.ctx r.vpn
  q.2.deliver r q.1 false

/-- A write that finds its frame pending a sweep with no record free: RETRY, and the frame is served first (R321, R322). -/
def State.sweepRetry (s : State) (r : Req) : State :=
  (s.touchScrub r.ppa).finish r .retry (s.ov O.sweep_backoff)

/-- WrFull, WrPart and ATOM applied at a line no cache holds (R107, R110, R117, R322, R358, R392). A unit that asked for the line now writes
it by itself. -/
def State.applyWrite (s : State) (r : Req) : State :=
  if r.inner then s.finish r .ok
  else if s.mergeFull r.line then (s.bump O.merge_retry (hsLine r.line)).finish r .retry (s.ov O.merge_backoff)
  else match s.prepWrite r.ppa with
  | none => s.sweepRetry r
  | some s1 =>
    match r.kind with
    | .wrfull => (s1.lineWrite r.line 0 (slotBytes r.slots) r.slots).finish r .ok
    | .wrpart =>
      (s1.lineWrite r.line (r.ppa % 128) (slice (r.h.cva % 32) r.h.len (slotBytes r.slots)) r.slots).finish r .ok
    | _ => s1.atomApply r

/-! ### Data written home (R322, R388, R392) -/

/-- A whole line handed back is written home; under a pending scrub with no record free it is kept in an exempt
merge-buffer entry (R322). -/
def State.homeData (s : State) (line : Nat) (v : LineVal) : State :=
  match s.prepWrite (line * 128) with
  | some s1 => s1.lineHome line v
  | none =>
    let s0 := s.mergeRoom line
    let e : Merge := {
      bytes := v.bytes, mask := 2 ^ 128 - 1, order := s0.coh.clk, exempt := true,
      pois := b2n v.lo.isPoison + 2 * b2n v.hi.isPoison }
    ((s0.setMerge line e).tick).touchScrub (line * 128)

/-! ### Grants -/

/-- The directory entry after the grant of a transaction is acknowledged; group mode stays (R154, R191). -/
def grantEnd (d : Dir) (t : Txn) (nm : Nat × Nat) : Dir :=
  let d1 := { d with txn := none }
  match t.nxSt with
  | .x => { d1 with way := true, st := .x, owner := some t.nxOwner, win := 0, sharers := 0, nctx := nm.1, nvpn := nm.2 }
  | .os => (t.nxAdd.foldl Dir.addSharer { d1 with way := true, st := .os }).settle
  | _ => (t.nxAdd.foldl Dir.addSharer { d1 with way := true, st := .s, owner := none }).settle

/-- The entry when a grant is undone: as though the requester had dropped the line clean (R549, R587). -/
def grantUndone (d : Dir) (t : Txn) (can : Nat) : Dir :=
  let d1 := { d with txn := none }
  match t.nxSt with
  | .x => d1.free
  | .os => ((t.nxAdd.filter (· != can)).foldl Dir.addSharer { d1 with way := true, st := .os }).settle
  | _ => ((t.nxAdd.filter (· != can)).foldl Dir.addSharer { d1 with way := true, st := .s, owner := none }).settle

/-- A grant completion is formed (R114, R171), and the line stays busy until its GntAck; to a lost agent it is discarded
and the grant undone (R549). -/
def State.formGrant (s : State) (r : Req) (t : Txn) (code : Nat) (v : Option LineVal) (src : Bool) : State :=
  let d := s.dir r.line
  if (s.agent r.h.agt).life = .present then
    let s1 := s.setDir r.line { d with txn := some { t with granted := true } }
    let s2 := if src then s1.bump O.owner_sourced (hsLine r.line) else s1
    match v with
    | some w => (s2.countDelivered r.line w).finish r .ok (grant := code) (src := src) (slots := w.slots) (len := 128)
    | none => s2.finish r .ok (grant := code)
  else (s.setDir r.line (grantUndone d t r.h.can)).dropReq r.id

/-- The value a read is served with: the owner's, or memory (R171). -/
def State.txnVal (s : State) (r : Req) (t : Txn) : LineVal × Bool × State :=
  match t.val with
  | some v => (v, t.src, s)
  | none =>
    let q := s.lineRead r.line r.h.ctx r.vpn
    (q.1, false, q.2)

/-- RdS whose snoops are answered (R191): grant and state to enter from the state the transaction started in. -/
def State.endRds (s : State) (r : Req) (t : Txn) : State :=
  let d := s.dir r.line
  let q := s.txnVal r t
  let x (code : Nat) (st : Hst) (add : List Nat) : State :=
    q.2.2.formGrant r { t with nxSt := st, nxOwner := r.h.can, nxAdd := add } code (some q.1) q.2.1
  match d.st with
  | .s => x 1 .s [r.h.can]
  | .os => if t.rsp = some .dO then x 1 .os [r.h.can] else x 1 .s [r.h.can]
  | .x =>
    if t.rsp = some .dO then x 1 .os [r.h.can]
    else if t.rsp = some .ds then x 1 .s (d.owner.toList ++ [r.h.can])
    else x 2 .x []
  | _ => x 2 .x []

/-- RdX or Upg whose snoops are answered. -/
def State.endOwn (s : State) (r : Req) (t : Txn) : State :=
  let t1 := { t with nxSt := .x, nxOwner := r.h.can, nxAdd := [] }
  if t.noData then s.formGrant r t1 3 none false
  else
    let q := s.txnVal r t
    q.2.2.formGrant r t1 3 (some q.1) q.2.1

/-- RdOnce whose snoop of an owner is answered: delivered, and the transaction ends (R191). -/
def State.endOnce (s : State) (r : Req) (t : Txn) : State :=
  let q := s.txnVal r t
  let d := q.2.2.dir r.line
  let d1 := ({ d with txn := none }).settle
  let s1 := q.2.2.setDir r.line d1
  if (s1.agent r.h.agt).life = .present ∨ r.parent.isSome then s1.deliver r q.1 q.2.1 else s1.dropReq r.id

/-! ### UNK service (R564) -/

/-- The CANs that may hold a line of a slice unknown to the directory. -/
def State.laggardsOf (s : State) (line : Nat) : List Nat := (s.slc (hsLine line)).laggards

/-- The line takes UNK service: its entry is UNK, or it has none while the laggard set is not empty. A line in ACC mode
is held by no cache (R188). -/
def State.isUnk (s : State) (line : Nat) : Bool :=
  let d := s.dir line
  if d.way && d.st != .u then d.st == .unk else !(s.laggardsOf line).isEmpty && (s.accAt line).isNone

/-- The snoop kind of UNK service (R564). -/
def unkSnoop : Kind → SnpK
  | .rds => .snpS
  | .rdonce => .snpCur
  | _ => .snpRecall

/-- Every possible holder of a line in UNK service, each once. -/
def State.unkTargets (s : State) (r : Req) : List (Nat × SnpK × Bool) :=
  let d := s.dir r.line
  let all := d.owner.toList ++ s.sharerCans d ++ s.laggardsOf r.line ++ (s.reqCan r).toList
  (all.eraseDups).map (fun c => (c, unkSnoop r.kind, false))

/-- Begin UNK service; the entry is in hand. -/
def State.startUnk (s : State) (r : Req) : State :=
  let d := s.dir r.line
  let d1 : Dir :=
    if d.st = .unk then d
    else { d with st := .unk, win := 0, owner := none, sharers := 0, nctx := r.h.ctx, nvpn := r.vpn }
  let s1 := (s.setDir r.line d1).bump O.unk_services (hsLine r.line)
  let s2 := s1.updReq r.id (fun q => { q with unk := true, phase := .served })
  s2.openTxn r.line (.fresh .unk r.id) (s2.unkTargets r)

/-- Holdings the answers claim: E, O and S holders (R564, Table 5). -/
def unkHolds (t : Txn) : List Nat × List Nat × List Nat :=
  let f (p : Nat × RspK × Bool → Bool) : List Nat := (t.ans.filter p).map (·.1)
  (f (fun a => a.2.1 == .dk && !a.2.2), f (fun a => a.2.1 == .dO || (a.2.1 == .dk && a.2.2)),
    f (fun a => a.2.1 == .s || a.2.1 == .ds))

/-- Log RSP_KIND against each of several CANs without freezing (R564). -/
def State.noteKinds (s : State) (line : Nat) : List Nat → State
  | [] => s
  | c :: t =>
    let d := s.dir line
    let h := hsLine line
    let rec16 := natLe 1 2 ++ zeros 1 ++ natLe 2 c ++ natLe 2 d.nctx ++ zeros 2 ++ natLe 6 (nameLine d.nvpn line)
    let s1 := ((s.setOct O.coh_err_last rec16 h).bump O.coh_errors h).protoErr ((s.canAgent c).getD 0)
    State.noteKinds s1 line t

/-- UNK service ends: the line takes the state its holders give; contradictory holdings are recalled (R564). -/
def State.endUnk (s : State) (line : Nat) (t : Txn) : State :=
  let h := unkHolds t
  let d := s.dir line
  let base : Dir := { d with txn := none, win := 0, owner := none, sharers := 0, waits := t.req :: d.waits }
  match h.1, h.2.1, h.2.2 with
  | [], [], [] => s.setDir line { base.free with way := true }
  | [e], [], [] => s.setDir line { base with st := .x, owner := some e }
  | [], [o], sh => s.setDir line (sh.foldl Dir.addSharer { base with st := .os, owner := some o })
  | [], [], sh => s.setDir line (sh.foldl Dir.addSharer { base with st := .s })
  | e, o, sh =>
    let s1 := s.noteKinds line (e ++ o)
    let all := (e ++ o ++ sh).eraseDups
    let s2 := s1.setDir line (all.foldl Dir.addSharer { base with st := .s, waits := d.waits })
    s2.openTxn line (.fresh .rename t.req) (all.map (fun c => (c, SnpK.snpRecall, false)))

/-! ### Ways (R150, R181, R182) -/

/-- The ways in use in the set of a line. -/
def State.waysOf (s : State) (line : Nat) : List (Nat × Dir) :=
  s.coh.dir.filter (fun p => p.2.way && hsLine p.1 == hsLine line && dirSet p.1 == dirSet line)

/-- The least recently used way that is not busy. -/
def wayVictim : List (Nat × Dir) → Option (Nat × Nat)
  | [] => none
  | (l, d) :: t =>
    match wayVictim t with
    | none => if d.txn.isSome then none else some (l, d.lru)
    | some (l', u) => if d.txn.isSome then some (l', u) else if d.lru < u then some (l, d.lru) else some (l', u)

/-- Note the use of an entry for replacement. -/
def State.touchDir (s : State) (line : Nat) : State :=
  (s.setDir line { s.dir line with lru := s.coh.clk }).tick

/-- Give a line a way: in hand (`none`), or the lines whose eviction is begun, or refused (R181). -/
def State.takeWay (s : State) (r : Req) : Option (List Nat) × State :=
  let line := r.line
  let h := hsLine line
  if (s.dir line).way then (none, s)
  else if !s.txnRoom h 2 then (some [], s.waitFull r)
  else if (s.waysOf line).length < 16 then (none, (s.setDir line { s.dir line with way := true }).touchDir line)
  else match wayVictim (s.waysOf line) with
    | none => (some [], (s.bump O.retry_set_busy h).finish r .retry (s.ov O.set_busy_backoff))
    | some (v, _) =>
      let s1 := (s.bump O.dir_evictions h).served r
      let s2 := s1.setDir line { s1.dir line with txn := some (.fresh (.claim v) r.id) }
      let dv := s2.dir v
      (some [v], s2.openTxn v (.fresh (.evict line) 0) (s2.recallTargets dv))

/-! ### The home table for requests (R191) -/

/-- A line served as from U. The lines returned may have work to settle. -/
def State.serveU (s : State) (r : Req) : State × List Nat :=
  match r.kind with
  | .rdonce => ((s.deliverMem r), (s.deliverMem r).partLines r.id)
  | .acc => (s.accAccept r, [])
  | .rds =>
    match s.takeWay r with
    | (some ls, s1) => (s1, ls)
    | (none, s1) =>
      let s2 := s1.setDir r.line { s1.dir r.line with nctx := r.h.ctx, nvpn := r.vpn }
      ((s2.served r).openTxn r.line (.fresh .rd r.id) [], [r.line])
  | .rdx =>
    match s.takeWay r with
    | (some ls, s1) => (s1, ls)
    | (none, s1) =>
      let s2 := s1.setDir r.line { s1.dir r.line with nctx := r.h.ctx, nvpn := r.vpn }
      ((s2.served r).openTxn r.line (.fresh .own r.id) [], [r.line])
  | .upg =>
    match s.takeWay r with
    | (some ls, s1) => (s1, ls)
    | (none, s1) =>
      let s2 := s1.setDir r.line { s1.dir r.line with nctx := r.h.ctx, nvpn := r.vpn }
      ((s2.served r).openTxn r.line (.fresh .own r.id) [], [r.line])
  | _ => (s.applyWrite r, [])

/-- Open a transaction for a request, or turn it away for want of a number. -/
def State.openFor (s : State) (r : Req) (t : Txn) (targets : List (Nat × SnpK × Bool)) : State × List Nat :=
  if s.txnRoom (hsLine r.line) then ((s.served r).openTxn r.line t targets, [r.line]) else (s.waitFull r, [])

/-- A request to a line in S, X or OS under its recorded name, or one to which the name does not matter. -/
def State.serveHeld (s : State) (r : Req) : State × List Nat :=
  let d := s.dir r.line
  let me := r.h.can
  let ownerIs := d.owner == some me
  match r.kind with
  | .rds =>
    if ownerIs then (s.badReq 3 r, [])
    else match d.owner with
      | some o => s.openFor r (.fresh .rd r.id) [(o, .snpS, true)]
      | none => s.openFor r (.fresh .rd r.id) []
  | .rdonce =>
    match d.owner with
    | some o => s.openFor r (.fresh .rdonce r.id) [(o, .snpCur, true)]
    | none => (s.deliverMem r, (s.deliverMem r).partLines r.id)
  | .rdx =>
    if ownerIs then (s.badReq 3 r, [])
    else s.openFor r (.fresh .own r.id)
      (d.owner.toList.map (fun o => (o, .snpX, true)) ++ s.invSharers d (some me))
  | .upg =>
    if ownerIs ∧ d.st = .x then (s.badReq 3 r, [])
    else if ownerIs ∧ !r.unk then s.openFor r { Txn.fresh .own r.id with noData := true } (s.invSharers d (some me))
    else if d.exactSharer me ∧ !r.unk then
      s.openFor r { Txn.fresh .own r.id with noData := true }
        (d.owner.toList.map (fun o => (o, .snpInv, true)) ++ s.invSharers d (some me))
    else s.openFor r (.fresh .own r.id)
      (d.owner.toList.map (fun o => (o, .snpX, true)) ++ s.invSharers d (some me))
  | _ => s.openFor r (.fresh .write r.id) (s.recallTargets d (s.reqCan r))

/-- The request is a write, an atomic or an ACC: it stores to memory. -/
def Kind.stores : Kind → Bool
  | .wrfull => true
  | .wrpart => true
  | .atom => true
  | .acc => true
  | _ => false

/-- The request asks for a caching grant. -/
def Kind.caching : Kind → Bool
  | .rds => true
  | .rdx => true
  | .upg => true
  | _ => false

/-- A request reaches the head of its line with no transaction open (R146, R184-R187, R190, R191, R358, R564). -/
def State.serve (s : State) (r : Req) : State × List Nat :=
  let line := r.line
  let s0 := if r.inner then s else s.pageHint line r.kind.stores r.h.page
  let s := if (s0.dir line).way then s0.touchDir line else s0
  let d := s.dir line
  if r.kind.stores ∧ !r.inner ∧ s.lostWrite r.ppa then ((s.noteLostWrite line).finish r .fault, [])
  else if s.isUnk line ∧ !r.unk then
    match s.takeWay r with
    | (some ls, s1) => (s1, ls)
    | (none, s1) => if s1.txnRoom (hsLine line) then (s1.startUnk r, [line]) else (s1.waitFull r, [])
  else if (s.accAt line).isSome then
    match r.kind with
    | .acc => (s.accAccept r, [])
    | .rdonce => ((s.accFlush line).deliverMem r, ((s.accFlush line).deliverMem r).partLines r.id)
    | _ => (s.accEnd line).serveU r
  else if d.way ∧ d.st ≠ .u then
    if r.kind.caching ∧ (d.nctx ≠ r.h.ctx ∨ d.nvpn ≠ r.vpn) then
      (if s.txnRoom (hsLine line) then s.bump O.name_recalls (hsLine line) else s).openFor r (.fresh .rename r.id)
        (s.recallTargets d)
    else s.serveHeld r
  else s.serveU r

/-! ### Ends of transactions and waiters (R173, R178, R179, R182, R183) -/

/-- Start the internal recall of a line: its merge and accumulator values go home, and its copies are called in (R179,
R189, R390). -/
def State.startRecall (s : State) (line : Nat) : State × List Nat :=
  let s1 := (if (s.accAt line).isSome then s.accEnd line else s).flushMerge line
  let d := { s1.dir line with recalls := false }
  let s2 := s1.setDir line d
  if d.way ∧ d.st ≠ .u then (s2.openTxn line (.fresh .recall 0) (s2.recallTargets d), [line]) else (s2, [])

/-- The recall of a line from one CAN alone, still recorded as a holder; other holders keep their copies (R587). -/
def State.startSingle (s : State) (line can : Nat) : State :=
  let d := s.dir line
  if d.owner = some can ∨ (s.sharerCans d).contains can then
    s.openTxn line (.fresh (.single can) 0) [(can, .snpRecall, d.owner == some can)]
  else s

/-- The way of an evicted line passes, as the one used last, to the line that claimed it, whose request is served before the victim's
waiters (R182, R183, Table 15). -/
def State.passWay (s : State) (victim claimant : Nat) : State × List Nat :=
  let s1 := s.setDir victim { (s.dir victim).free with txn := none }
  let dc := s1.dir claimant
  match dc.txn with
  | some t =>
    let s2 := (s1.setDir claimant { dc with way := true, txn := none, waits := t.req :: dc.waits, lru := s1.coh.clk }).tick
    (s2, [claimant, victim])
  | none => (s1, [victim])

/-- Every snoop of a transaction is answered: it ends as its kind says. -/
def State.complete (s : State) (line : Nat) (t : Txn) : State × List Nat :=
  let d := s.dir line
  match t.kind with
  | .rd => (match s.req? t.req with
    | some r => s.endRds r t
    | none => s.setDir line (({ d with txn := none }).settle), [line])
  | .own => (match s.req? t.req with
    | some r => s.endOwn r t
    | none => s.setDir line (({ d with txn := none }).settle), [line])
  | .rdonce => (match s.req? t.req with
    | some r => s.endOnce r t
    | none => s.setDir line (({ d with txn := none }).settle), [line])
  | .write =>
    let s1 := s.updReq t.req (fun r => { r with start := if t.src then t.val else none })
    (s1.setDir line { d.free with txn := none, waits := t.req :: d.waits }, [line])
  | .rename => (s.setDir line { d.free with txn := none, waits := t.req :: d.waits }, [line])
  | .recall => (s.setDir line { d.free with txn := none }, [line])
  | .purge poison =>
    let s1 := if poison then (s.poisonCw (2 * line) 3).poisonCw (2 * line + 1) 3 else s
    (s1.setDir line { d.free with txn := none }, [line])
  | .evict c =>
    if t.val.isSome ∧ t.src then (s.setDir line { d with txn := some { t with kind := .handover c } }, [])
    else s.passWay line c
  | .unk => (s.endUnk line t, [line])
  | .single can =>
    let d1 := { d with
      txn := none, owner := if d.owner = some can then none else d.owner, sharers := (d.dropSharer can).sharers }
    (s.setDir line (if d.st = .unk then d1 else if d.st = .x ∧ d.owner = some can then { d1.free with waits := d.waits }
      else d1.settle), [line])
  | _ => (s, [])

/-- A transaction has every answer and every announced write-back, and is not waiting for a GntAck, a way or the memory
path (R178). -/
def Txn.ready (t : Txn) : Bool :=
  t.snps.isEmpty && t.waitWb.isEmpty && !t.granted && (match t.kind with
    | .claim _ => false
    | .handover _ => false
    | _ => true)

/-- A line of a slice whose recall waits and may begin now that a transaction has ended (R175, R179, R180). -/
def State.heldRecalls (s : State) (h : Nat) : List Nat :=
  ((s.coh.dir.filter (fun p => hsLine p.1 == h && p.2.txn.isNone
    && ((p.2.recalls && s.recallRoom h) || (p.2.single != [] && s.txnRoom h)))).take 1).map (·.1)

/-- Settle lines until nothing more can go on: end transactions, start held recalls, serve waiters in order. -/
def State.settle : Nat → List Nat → State → State
  | 0, _, s => s
  | _, [], s => s
  | n + 1, l :: ls, s =>
    let d := s.dir l
    match d.txn with
    | some t =>
      if t.ready then
        let q := s.complete l t
        State.settle n (q.2 ++ q.1.partLines t.req ++ q.1.heldRecalls (hsLine l) ++ ls) q.1
      else State.settle n ls s
    | none =>
      if d.recalls then
        if s.recallRoom (hsLine l) then
          let q := s.startRecall l
          State.settle n (q.2 ++ l :: ls) q.1
        else State.settle n ls s
      else match d.single with
      | c :: cs =>
        if s.txnRoom (hsLine l) then State.settle n (l :: ls) ((s.setDir l { d with single := cs }).startSingle l c)
        else State.settle n ls s
      | [] => match d.waits with
        | [] => State.settle n ls (if d.st = .unk then s else s.setDir l d.settle)
        | w :: ws =>
          let s1 := s.setDir l { d with waits := ws }
          match s1.req? w with
          | none => State.settle n (l :: ls) s1
          | some r =>
            let q := s1.serve r
            State.settle n (q.2 ++ l :: ls) q.1

/-- Settle with room for every waiter of the lines concerned. -/
def State.work (s : State) (ls : List Nat) : State := State.settle 2048 ls s

/-! ### EvC and WbD (R177, R191, R195, R565) -/

/-- A WbD's data is written home and completes OK; to a lost line with no mirror it fails (R358). -/
def State.takeWbd (s : State) (r : Req) : State :=
  if s.lostWrite r.ppa then (s.noteLostWrite r.line).finish r .fault
  else ((s.pageHint r.line true r.h.page).homeData r.line (slotsVal r.slots)).finish r .ok

/-- The CAN is removed as a holder of a line. -/
def Dir.dropHolder (d : Dir) (can : Nat) : Dir :=
  let d1 := if d.owner = some can then { d with owner := none } else d
  d1.dropSharer can

/-- An EvC at its home slice. -/
def State.evc (s : State) (r : Req) : State :=
  let line := r.line
  let d := s.dir line
  let can := r.h.can
  let upd (e : Dir) : State := (s.setDir line e).finish r .ok
  if s.isUnk line then upd (d.dropHolder can)
  else match d.txn with
    | some t =>
      match t.kind with
      | .handover _ => s.finish r .ok
      | .claim _ => s.finish r .ok
      | _ =>
        if d.owner = some can then (if d.st = .os then s.badReq 5 r else upd { d with owner := none })
        else upd (d.dropSharer can)
    | none =>
      if d.owner = some can then (if d.st = .os then s.badReq 5 r else upd ({ d with owner := none }).settle)
      else upd (d.dropSharer can).settle

/-- A WbD at its home slice. -/
def State.wbd (s : State) (r : Req) : State :=
  let line := r.line
  let d := s.dir line
  let can := r.h.can
  if s.isUnk line ∧ d.txn.isNone then (s.setDir line (d.dropHolder can)).takeWbd r
  else match d.txn with
    | none =>
      if d.owner = some can ∧ d.way then
        (s.takeWbd r).setDir line ({ (s.takeWbd r).dir line with owner := none }).settle
      else s.badReq 4 r
    | some t =>
      let unk := t.kind = .unk
      let out := t.snps.any (fun p => p.can == can)
      let waited := t.waitWb.contains can
      let owns := d.owner == some can && (match t.kind with
        | .handover _ => false
        | .claim _ => false
        | _ => true)
      if owns ∨ unk then
        let v := slotsVal r.slots
        let lost := s.lostWrite r.ppa
        let s1 := if lost then s.noteLostWrite line else s.homeData line v
        let t1 := { t with
          waitWb := t.waitWb.filter (· != can), gotWb := if out ∧ !waited then t.gotWb ++ [can] else t.gotWb,
          val := if (out ∨ waited) ∧ !unk then (match t.kind with
            | .evict _ => t.val
            | _ => some v) else t.val,
          src := t.src || ((out ∨ waited) && !unk) }
        let s2 := s1.setDir line { (s1.dir line).dropHolder can with txn := some t1 }
        if out ∧ !waited then s2.served r else s2.finish r (if lost then .fault else .ok)
      else s.badReq 4 r

/-! ### Arrival at the home slice (R75, R122, R172-R177, R307, R537, R543) -/

/-- The frame of a request is closed to it (R543). -/
def State.closedTo (s : State) (r : Req) : Bool :=
  let f := s.frame (frameOf r.ppa)
  f.closedAll || f.closedFor.contains r.h.ctx

/-- A straggler of a timed-out drain is counted, for the device and for its extent (R543). -/
def State.straggler (s : State) (r : Req) : State :=
  let slot := (s.frame (frameOf r.ppa)).ext
  let x := s.ext slot
  (s.setExt slot { x with stragglers := x.stragglers + 1 }).bump O.revoke_stragglers

/-- A frame's writes are refused while a migration of it, or of its mirror frame, holds them (R307). -/
def State.frameHeld (s : State) (f : Nat) : Bool :=
  s.migs.any (fun m => (m.src == f || some m.src == s.mirrorOf f) && decide (2 ≤ m.phase))

/-- The source frame's write hold refuses the request (R307). -/
def State.writeHeld (s : State) (r : Req) : Bool :=
  (r.kind.stores || r.kind.caching) && s.frameHeld (frameOf r.ppa)

/-- A request is acted on by the home state table at its serialisation. -/
def State.homeAct (s : State) (r : Req) : State :=
  let line := r.line
  match r.kind with
  | .evc => (s.evc r).work [line]
  | .wbd => (s.wbd r).work [line]
  | _ =>
    if s.closedTo r then (s.straggler r).finish r .revoked
    else if s.writeHeld r ∨ (r.kind.caching ∧ s.remapHeld r.h.ctx r.vpn) then s.finish r .retry (s.ov O.mig_backoff)
    else if r.view ≠ 0 ∧ !viewOk r.view r.vpn (r.h.cva % 2 ^ 26) r.h.len then
      (s.bump O.view_denied (hsLine line)).finish r .viewDenied
    else
      let d := s.dir line
      if d.txn.isSome ∨ d.waits ≠ [] then
        if 8 ≤ d.waits.length ∨ 8192 ≤ s.slcRecords (hsLine line) then s.waitFull r
        else (s.updReq r.id (fun q => { q with phase := .waiting })).setDir line { d with waits := d.waits ++ [r.id] }
      else
        let q := s.serve r
        q.1.work (q.2 ++ [line])

/-- The request of a port, agent and tag that is on its way to its home slice, unless one that the mesh delivers before it has yet to
arrive: one sent earlier by the port to that slice on the plane (R28), or admitted earlier for the line (R123). -/
def State.arriving (s : State) (port agt tag : Nat) : Option Req :=
  match s.reqs.find? (fun q => q.phase == .sent && q.port == port && q.h.agt == agt && q.h.tag == tag) with
  | none => none
  | some r =>
    if (s.reqBuffer r.plane port (hsOf r.ppa)).any (fun q => decide (q.hop < r.hop) || (q.line == r.line && decide (q.id < r.id)))
    then none
    else some r

/-- A request reaches home slice `hs`, which is the slice of its pool address (R34, R122); a view read takes the scale in force (R240). -/
def State.serialise (s : State) (port agt tag : Nat) (errs : List DramErr) (hs : Nat) : State :=
  match s.arriving port agt tag with
  | none => s
  | some r =>
    if hsOf r.ppa = hs then
      let r1 := { r with ser := true, scale := s.ov O.int8_scale (r.ext % 65536), phase := .served }
      ((s.meet errs).updReq r.id (fun _ => r1)).homeAct r1
    else s

/-! ### Snoop responses (R159, R169, R171, R191, R195, R550, R559, R564) -/

/-- The responses a snoop allows (R169), outside UNK service, from a holder as recorded (R191). -/
def rspAllowed (k : SnpK) (owner os : Bool) (r : RspK) : Bool :=
  match k, r with
  | .snpS, .dO => true
  | .snpS, .ds => !os
  | .snpS, .i => !os
  | .snpX, .di => true
  | .snpX, .i => true
  | .snpRecall, .di => true
  | .snpRecall, .i => true
  | .snpInv, .i => true
  | .snpInv, .wb => true
  | .snpCur, .dk => true
  | .snpCur, .i => !os
  | _, .wb => owner
  | _, _ => false

/-- The opcode of a response (R157). -/
def RspK.opcode : RspK → Nat
  | .i => 0x18
  | .s => 0x19
  | .di => 0x1A
  | .ds => 0x1B
  | .dO => 0x1C
  | .dk => 0x1D
  | .wb => 0x1E

/-- The held WbD of a CAN whose RspWB has come completes (R195). -/
def State.finishHeldWbd (s : State) (line can : Nat) : State :=
  match s.reqs.find? (fun q => q.kind == .wbd && q.phase == .served && q.line == line && q.h.can == can) with
  | some r => s.finish r (if s.lostWrite r.ppa then .fault else .ok)
  | none => s

/-- An accepted answer to a snoop of an open transaction. A RspWB to the SnpInv of a sharer announces no write-back that is still to come:
its sender is no recorded owner, so its WbD has been taken (R169, R191) [DEDUCED, log 94]. -/
def State.takeAnswer (s : State) (line : Nat) (t : Txn) (p : Snp) (k : RspK) (dirty : Bool) (slots : List Slot) : State :=
  let unk := t.kind = .unk
  let v := slotsVal slots
  let gives := k = .di ∨ k = .ds ∨ k = .dO ∨ k = .dk
  let wbCame := k = .wb ∧ t.gotWb.contains p.can
  let wbDue := k = .wb ∧ !wbCame ∧ (p.owner ∨ unk)
  let evict := match t.kind with
    | .evict _ => true
    | _ => false
  let home := (k = .di ∧ dirty ∧ !evict) ∨ (unk ∧ (k = .dO ∨ (k = .dk ∧ dirty)))
  let s1 := if home then s.homeData line v else s
  let t1 := { t with
    snps := t.snps.filter (fun x => x.can != p.can),
    ans := if unk then t.ans ++ [(p.can, k, dirty)] else t.ans,
    waitWb := if wbDue then t.waitWb ++ [p.can] else t.waitWb,
    gotWb := t.gotWb.filter (fun c => !(wbCame && c == p.can)),
    rsp := if p.owner then some k else t.rsp,
    val := if gives ∧ !unk ∧ (!evict ∨ dirty) then some v else t.val,
    src := t.src || (gives && !unk) }
  let d := s1.dir line
  let s2 := s1.setDir line { d with txn := some t1 }
  if wbCame then s2.finishHeldWbd line p.can else s2

/-- The line whose open transaction has a number at a slice. -/
def State.lineOfSid (s : State) (hs sid : Nat) : Option Nat :=
  (s.coh.dir.find? (fun p => hsLine p.1 == hs && p.2.busy && p.2.txn.any (fun t => t.sid == sid))).map (·.1)

/-- A snoop response is received from an agent. -/
def State.respond (s : State) (port src hs sid can : Nat) (k : RspK) (dirty : Bool) (slots : List Slot) : State :=
  if (s.agent src).life ≠ .present then s
  else
    let mine (x : SnpRec) : Bool := x.hs == hs && x.sid == sid && x.can == can && x.out && s.canAgent can == some src
    let h := s.slc hs
    match s.coh.snoops.find? mine with
    | none =>
      if h.phase ≠ 0 then s.bump O.stale_dropped hs
      else match s.lineOfSid hs sid with
        | some l => s.badRsp 1 src can l k.opcode port
        | none => s.cohErr 1 src can hs noCtx 0 k.opcode port
    | some x =>
      let s0 := if x.since + usTicks (s.ov O.snoop_bound) < s.ltc then s.bump O.snoop_late src else s
      let drop (t : State) : State := { t with coh := { t.coh with snoops := t.coh.snoops.filter (fun y => !mine y) } }
      if h.phase = 1 then
        if k = .di ∧ dirty then
          drop { s0 with coh := { s0.coh with repl := s0.coh.repl ++ [(port, hs, x.line, slots)] } }
        else (drop s0).bump O.stale_dropped hs
      else if h.phase ≠ 0 then
        if k = .di ∧ dirty then ((drop s0).homeData x.line (slotsVal slots)).bump O.replayed hs
        else (drop s0).bump O.stale_dropped hs
      else
        let d := s0.dir x.line
        match d.txn with
        | none => drop (s0.badRsp 1 src can x.line k.opcode port)
        | some t =>
          match t.snps.find? (fun p => p.can == can) with
          | none => drop (s0.badRsp 1 src can x.line k.opcode port)
          | some p =>
            if t.sid ≠ sid then drop (s0.badRsp 1 src can x.line k.opcode port)
            else if t.kind = .unk ∨ rspAllowed p.kind p.owner (p.owner && d.st == .os) k then
              ((drop s0).takeAnswer x.line t p k dirty slots).work [x.line]
            else s0.badRsp 2 src can x.line k.opcode port

/-! ### GntAck and evictions (R163, R164, R178) -/

/-- A line's grant is acknowledged. -/
def State.ackLine (s : State) (line reqId : Nat) : Option State :=
  let d := s.dir line
  match d.txn with
  | some t =>
    if t.granted ∧ t.req = reqId then some ((s.setDir line (grantEnd d t (d.nctx, d.nvpn))).work [line]) else none
  | none => none

/-- A grant is treated as undone (R549, R587). -/
def State.undoGrant (s : State) (line reqId can : Nat) : State :=
  let d := s.dir line
  match d.txn with
  | some t => if t.granted ∧ t.req = reqId then (s.setDir line (grantUndone d t can)).work [line] else s
  | none => s

/-- A GntAck is received. -/
def State.gntAck (s : State) (port src tag agt can : Nat) : State :=
  if (s.agent src).life ≠ .present then s
  else match s.coh.grants.find? (fun g => g.port == port && g.agt == agt && g.tag == tag && src == agt) with
    | none => s.violation src 5 0x1F noCtx port 0
    | some g =>
      let s1 := { s with coh := { s.coh with grants := s.coh.grants.erase g } }
      let hs := hsLine g.line
      if (s.slc hs).phase ≠ 0 then s1.bump O.stale_dropped hs
      else match s1.ackLine g.line g.reqId with
        | some s2 => s2
        | none =>
          if (s.slc hs).counted then s1.bump O.stale_dropped hs else s1.badRsp 6 src can g.line 0x1F port

/-- The memory path accepts a recalled victim's data (R178, R182). -/
def State.evictAccepted (s : State) (line : Nat) : State :=
  match (s.dir line).txn with
  | some t =>
    match t.kind with
    | .handover c =>
      let s1 := match t.val with
        | some v => s.homeData line v
        | none => s
      let q := s1.passWay line c
      q.1.work q.2
    | _ => s
  | none => s

end Sys2Proof.Machine
end

