-- ==== Sys2Proof/Machine/Egress.lean ====
section
/-! DEFINITION. Sys2Proof/Machine/Egress.lean: reach sets, the choice of an egress port, and completions and snoops as they
leave (R114, R121, R131-R134, R157, R158, R161, R167). -/

namespace Sys2Proof.Machine

open Sys2Proof

/-- Completion status codes (R115). -/
def St.code : St → Nat
  | .ok => 0 | .retry => 1 | .frozen => 2 | .revoked => 3 | .staleGen => 4 | .fault => 5 | .portLost => 6 | .accLost => 7
  | .poisonDelivered => 8 | .viewDenied => 9

/-- Snoop opcodes (R157). -/
def SnpK.opcode : SnpK → Nat
  | .snpS => 0x10 | .snpX => 0x11 | .snpInv => 0x12 | .snpCur => 0x13 | .snpRecall => 0x14

/-- A completion header (R114, Table 5). -/
def packCmp (c : Cmp) : Nat :=
  (if c.slots.isEmpty then 0x30 else 0x31) * 2 ^ 250 + c.tag % 4096 * 2 ^ 238 + c.agt % 4096 * 2 ^ 226
    + c.status.code * 2 ^ 222 + c.backoff % 16 * 2 ^ 218 + c.grant % 8 * 2 ^ 215 + b2n c.empty * 2 ^ 214
    + b2n c.ownerSrc * 2 ^ 213 + c.gen % 256 * 2 ^ 205 + c.len % 256 * 2 ^ 197 + c.plWhy % 4 * 2 ^ 195

/-- A snoop header (R158, Table 5). -/
def packSnp (x : SnpRec) : Nat :=
  x.kind.opcode * 2 ^ 250 + x.hs % 32 * 2 ^ 245 + x.sid % 4096 * 2 ^ 233 + x.can % 1024 * 2 ^ 223 + x.ctx % 1024 * 2 ^ 213
    + nameLine x.vpn x.line % 2 ^ 41 * 2 ^ 172

/-- The agent a port's link session binds, while the session is up with an agent partner (R459). -/
def State.boundAgent (s : State) (p : Nat) : Option Nat :=
  let b := s.oct O.link_partner 0 p
  if s.ov O.link_sec_state 0 p ∈ [2, 3] ∧ b.headD 0 = 0x10 then some (leNat ((b.drop 2).take 2)) else none

/-- The ports of an agent's `reach_mask` (R131). -/
def State.maskPorts (s : State) (a : Nat) : List Nat := (List.range 24).filter (fun p => (s.ov O.reach_mask a).testBit p)

/-- The ports of the reach set of a message that answers no request (R131). -/
def State.reachPorts (s : State) (a : Nat) : List Nat :=
  (List.range 24).filter (fun p => (s.ov O.reach_mask a).testBit p || s.boundAgent p == some a)

/-- The port R132 selects among ports for a line. -/
def State.pickPort (s : State) (ports : List Nat) (line a : Nat) : Option Nat :=
  let up := ports.filter s.portUp
  up[(line % 1024 ^^^ a % 1024) % up.length]?

/-- The ports of the reach set of a completion: the arrival port of its request, and the agent's `reach_mask` (R131). -/
def State.cmpReach (s : State) (arrival a : Nat) : List Nat :=
  (List.range 24).filter (fun p => p == arrival || (s.ov O.reach_mask a).testBit p)

/-- The port by which a completion for an agent leaves: by its line, or where it has none by its arrival port while that is up (R132). -/
def State.cmpRoute (s : State) (arrival a : Nat) (line : Option Nat) : Option Nat :=
  match line with
  | some l => s.pickPort (s.cmpReach arrival a) l a
  | none => if s.portUp arrival then some arrival else ((s.cmpReach arrival a).filter s.portUp).head?

/-- The line a completion is ordered by; none for one whose request was not translated. -/
def Cmp.lineOf (c : Cmp) : Option Nat := if c.untr then none else some c.line

/-- The port by which a completion leaves (R132). -/
def State.cmpPort (s : State) (c : Cmp) : Option Nat := s.cmpRoute c.port c.agt c.lineOf

/-- Grant records in use at a port (R161). -/
def State.grantsAt (s : State) (p : Nat) : Nat := (s.coh.grants.filter (fun g => g.port == p)).length

/-- Another completion must leave before `c`: one formed earlier for the line that can leave, or is for the same agent (R125); one that
can never leave for want of a port holds nothing of another agent (R135). -/
def State.cmpBefore (s : State) (c : Cmp) : Bool :=
  (s.cmps.takeWhile (fun x => x != c)).any (fun x =>
    x.lineOf.isSome && x.lineOf == c.lineOf && (x.agt == c.agt || (s.cmpPort x).isSome))

/-- An earlier completion of the pair of agent and line still waits in a port other than `p` that is not lost (R133). -/
def State.oldPortHolds (s : State) (c : Cmp) (p : Nat) : Bool :=
  s.txq.any (fun q => q.1 != p && (s.ov O.link_state q.1 == 3 || s.ov O.link_state q.1 == 4)
    && q.2.any (fun m => m.chan == 2 && m.agt == c.agt && m.line.isSome && m.line == c.lineOf))

/-- Completions and snoops for an agent are held while the link synchronisation of a port it is reached through runs (R585). -/
def State.syncHolds (s : State) (a : Nat) : Bool :=
  s.lostPorts.any (fun x => (s.ov O.reach_mask a).testBit x.1
    || ((s.oct O.link_partner 0 x.1).headD 0 == 0x10 && leNat (((s.oct O.link_partner 0 x.1).drop 2).take 2) == a))

/-- The completion of a request admitted at a port that may leave now (R125, R133). -/
def State.leaving (s : State) (port agt tag : Nat) : Option Cmp :=
  match s.cmps.find? (fun c => c.port == port && c.agt == agt && c.tag == tag) with
  | none => none
  | some c => if s.cmpBefore c then none else some c

/-- A completion leaves: its retained header is freed (R121) and a grant record kept (R161). -/
def State.cmpEgress (s : State) (port agt tag : Nat) : State :=
  match s.leaving port agt tag with
  | none => s
  | some c =>
    match s.cmpPort c with
    | none =>
      if (s.agent agt).life = .present then s
      else { (s.dropReq c.reqId) with cmps := s.cmps.erase c }
    | some p =>
      if s.oldPortHolds c p ∨ s.syncHolds agt ∨ (c.grant ≠ 0 ∧ 4096 ≤ s.grantsAt p) then s
      else
        let s1 := { (s.dropReq c.reqId) with cmps := s.cmps.erase c }
        let s2 := if c.grant = 0 then s1 else
          { s1 with coh := { s1.coh with grants := s1.coh.grants ++ [⟨p, c.agt, c.tag, c.can, c.line, c.reqId⟩] } }
        s2.send p ⟨2, packCmp c, c.slots, c.agt, c.lineOf, c.port⟩

/-- The port by which a snoop leaves (R132, R167). -/
def State.snpPort (s : State) (x : SnpRec) : Option Nat :=
  match s.canAgent x.can with
  | none => none
  | some a => s.pickPort (s.reachPorts a) x.line a

/-- A snoop of the same home slice, formed earlier, goes to the same port and has not arrived there: the mesh delivers it first (R28). -/
def State.snpBefore (s : State) (x : SnpRec) (p : Nat) : Bool :=
  (s.coh.snoops.takeWhile (fun y => y != x)).any (fun y => y.hs == x.hs && !y.out && s.snpPort y == some p)

/-- A snoop leaves by the port R132 selects for its target and line (R167). -/
def State.snpEgress (s : State) (hs sid can : Nat) : State :=
  match s.coh.snoops.find? (fun x => x.hs == hs && x.sid == sid && x.can == can && !x.out) with
  | none => s
  | some x =>
    match s.snpPort x with
    | none => s
    | some p =>
      if s.snpBefore x p ∨ s.syncHolds ((s.canAgent can).getD 0xFFFF) then s
      else
        let y := { x with out := true, port := p, since := s.ltc }
        let s1 := { s with coh := { s.coh with snoops := s.coh.snoops.map (fun z => if z = x then y else z) } }
        (s1.bump O.snoops_sent hs).send p ⟨1, packSnp x, [], (s.canAgent can).getD 0xFFFF, some x.line, 32⟩

end Sys2Proof.Machine
end

