-- ==== Sys2Proof/Machine/Chart.lean ====
section
/-! DEFINITION. Sys2Proof/Machine/Chart.lean: chart entries as bits (R50-R54), staging banks (R66-R68, R72, R76, R77),
commits and internal commits with their checks, apply points and drains (R68-R79, R537-R540), bindings (R58-R61) and window
geometry (R48). -/

namespace Sys2Proof.Machine

open Sys2Proof

/-! ### Chart entries as bits (R50) -/

/-- The 128 bits of an entry. -/
def Entry.pack (e : Entry) : Nat :=
  b2n e.valid * 2 ^ 127 + e.typ % 4 * 2 ^ 125 + e.gen % 256 * 2 ^ 117 + e.rights % 32 * 2 ^ 112 + e.view % 16 * 2 ^ 108
    + e.keyEpoch % 2 * 2 ^ 107 + b2n e.staleTol * 2 ^ 106 + b2n e.faultPend * 2 ^ 105 + e.heat % 4 * 2 ^ 103
    + b2n e.mirV * 2 ^ 102 + b2n e.swV * 2 ^ 101 + e.sweep % 256 * 2 ^ 93 + e.extent % 2 ^ 20 * 2 ^ 73
    + e.mirror % 2 ^ 18 * 2 ^ 55 + e.frame % 2 ^ 18 * 2 ^ 37 + e.host % 2 * 2 ^ 36 + e.token % 2 ^ 32 * 2 ^ 4

/-- The entry that 128 bits spell; the reserved bits are ignored (R5). -/
def Entry.ofNat (x : Nat) : Entry :=
  { valid := bit x 127, typ := bits x 125 2, gen := bits x 117 8, rights := bits x 112 5, view := bits x 108 4,
    keyEpoch := bits x 107 1, staleTol := bit x 106, faultPend := bit x 105, heat := bits x 103 2, mirV := bit x 102,
    swV := bit x 101, sweep := bits x 93 8, extent := bits x 73 20, mirror := bits x 55 18, frame := bits x 37 18,
    host := bits x 36 1, token := bits x 4 32 }

/-- The entry with its controller-owned fields zero (R51, R70). -/
def Entry.driver (e : Entry) : Entry :=
  { e with gen := 0, keyEpoch := 0, faultPend := false, swV := false, sweep := 0 }

/-- The entry obeys R50-R54 and R340: no reserved value, no REVOKED, and the fields its kind leaves unused are zero. -/
def Entry.wellFormed (e : Entry) : Bool :=
  if e.valid then
    e.view != 0xF && e.heat != 3 && (match e.typ with
      | 0 => e.host == 0 && e.token == 0 && (e.view == 0 || e.rights &&& 0x1E == 0)
      | 1 => e.frame == 0 && e.mirror == 0 && !e.mirV && e.extent == 0 && e.view == 0 && e.rights == 0
      | _ => false)
  else e.driver == Entry.none

/-- The controller-owned fields an entry naming a frame mirrors from the frame table (R318). -/
def State.ctlFields (s : State) (e : Entry) : Entry :=
  if e.valid ∧ e.typ = 0 then
    let r := s.frame e.frame
    { e with keyEpoch := r.slot, swV := r.rcd.isSome, sweep := r.rcd.getD 0 }
  else { e with keyEpoch := 0, swV := false, sweep := 0 }

/-- Write the mirrored fields into every entry that names a frame (R318). -/
def State.mirrorFields (s : State) (f : Nat) : State :=
  let ents := s.chart.ents.map (fun p =>
    if p.2.valid && p.2.typ == 0 && p.2.frame == f then (p.1, s.ctlFields p.2) else p)
  { s with chart := { s.chart with ents := ents } }

/-! ### Staging banks -/

/-- Store bytes into a field of `n` bytes at offset `base`, from a write of `bs` at `off`. -/
def patch (old n base off : Nat) (bs : Bytes) : Nat :=
  let img := natLe n old
  let new := (List.range n).map (fun i =>
    if off ≤ base + i ∧ base + i < off + bs.length then bs.getD (base + i - off) 0 else img.getD i 0)
  leNat new

/-- The 32 bytes of a slot as a number: the entry in bytes 0-15, the index in bytes 16-19. -/
def slotNum (p : Nat × Nat) : Nat := p.1 + p.2 * 2 ^ 128

/-- Write into a bank's RW fields and slots (R66); ignored while the bank is busy (R67). -/
def Stg.write (k : Stg) (b off : Nat) (bs : Bytes) : Stg :=
  if k.busy then k
  else
    let base := 0x7E00 + 0x40 * b
    let sb := 0x8000 + 0x4000 * b
    let first := (off - sb) / 32
    let k1 := { k with
      ctx := patch k.ctx 2 base off bs % 1024, count := patch k.count 4 (base + 4) off bs,
      newGen := patch k.newGen 4 (base + 8) off bs, digest := patch k.digest 8 (base + 0x10) off bs }
    if sb ≤ off ∧ off < sb + 0x4000 then
      { k1 with slots := (List.range (bs.length / 32 + 2)).foldl (fun t i =>
          let n := first + i
          if n < 512 then
            let v := patch (slotNum (Tab.get (0, 0) t n)) 32 (sb + 32 * n) off bs
            Tab.put (0, 0) t n (v % 2 ^ 128, bits v 128 32)
          else t) k1.slots }
    else k1

/-- The host's writes into a bank of a PF0 direct window. -/
def State.stgWrites (s : State) (pf b : Nat) : List DwWrite → State
  | [] => s
  | w :: t => State.stgWrites (s.setBank pf b ((s.bank pf b).write b w.off w.val)) pf b t

/-- The entry and index staged in a slot. -/
def Stg.staged (k : Stg) (i : Nat) : Nat × Entry :=
  let p := Tab.get (0, 0) k.slots i
  (p.2, Entry.ofNat p.1)

/-- Everything staged, in slot order. -/
def Stg.all (k : Stg) : List (Nat × Entry) := (List.range k.count).map k.staged

/-! ### What the host reads of a bank (R66) -/

/-- STG_STATUS (Table 7). -/
def Stg.status (k : Stg) : Nat := b2n k.busy * 2 ^ 31 + k.result % 256 * 2 ^ 16 + k.slot % 1024

/-- The registers of a bank at 0x7E00 + 0x40b, 64 bytes (Table 5): the RW fields, STG_CUR_GEN as the window of STG_CTX has it now, zeros for
STG_CMD, which is written only, STG_STATUS and STG_SNAP_GEN. -/
def State.stgRegs (s : State) (k : Stg) : Bytes :=
  natLe 2 k.ctx ++ zeros 2 ++ natLe 4 k.count ++ natLe 4 k.newGen ++ natLe 4 (s.ov O.win_gen k.ctx) ++ natLe 8 k.digest ++ zeros 4
    ++ natLe 4 k.status ++ natLe 4 k.snapGen ++ zeros 28

/-- The byte a host reads at an offset of a PF0 direct window's staging banks (R66, Tables 5 and 6); zero elsewhere. -/
def State.stgByte (s : State) (pf off : Nat) : Byte :=
  if 0x7E00 ≤ off ∧ off < 0x7E80 then (s.stgRegs (s.bank pf ((off - 0x7E00) / 0x40))).getD ((off - 0x7E00) % 0x40) 0
  else if 0x8000 ≤ off ∧ off < 0x10000 then
    let k := s.bank pf ((off - 0x8000) / 0x4000)
    (natLe 32 (slotNum (Tab.get (0, 0) k.slots ((off - 0x8000) % 0x4000 / 32)))).getD (off % 32) 0
  else 0

/-- A context's window holds a POOL entry that names the extent. -/
def State.namesExtent (s : State) (c handle : Nat) : Bool :=
  s.chart.ents.any (fun p => decide (s.ov O.win_base c ≤ p.1 ∧ p.1 < s.ov O.win_base c + s.ov O.win_count c)
    && p.2.valid && p.2.typ == 0 && p.2.extent == handle)

/-- A READBACK (R76): the current entries, or the first failure among checks 2, 4 and 6. -/
def State.readback (s : State) (pf b : Nat) : State :=
  let k := s.bank pf b
  let fin (r slot : Nat) (k : Stg) : State := s.setBank pf b { k with result := r, slot := slot, busy := false, cmd := 0 }
  if s.ov O.owner_port k.ctx ≠ pf then fin 2 0 k
  else if 512 < k.count then fin 4 0 k
  else match (List.range k.count).find? (fun i => decide (s.ov O.win_count k.ctx ≤ (k.staged i).1)) with
    | some i => fin 6 i k
    | none =>
      let slots := (List.range k.count).foldl (fun t i =>
        let x := (k.staged i).1
        Tab.put (0, 0) t i ((s.ctlFields (s.entry (s.ov O.win_base k.ctx + x))).pack, x)) k.slots
      fin 0 0 { k with slots := slots, snapGen := s.ov O.win_gen k.ctx }

/-- A CLEAR (R77). -/
def State.stgClear (s : State) (pf b : Nat) : State :=
  let k := s.bank pf b
  s.setBank pf b { k with ctx := 0, count := 0, newGen := 0, digest := 0, slots := [], result := 0, slot := 0 }

/-- A write of STG_CMD, after the host's writes into the bank (R67, R68, R76, R77). -/
def State.stgCmd (s : State) (pf b cmd : Nat) (ws : List DwWrite) : State :=
  let s := s.stgWrites pf b ws
  let k := s.bank pf b
  if k.busy then s
  else match cmd with
    | 1 =>
      let s1 := s.setBank pf b { k with busy := true, cmd := 1 }
      { s1 with chart := { s1.chart with commits := s1.chart.commits ++
          [⟨k.ctx, pf, b, none, [], [], 0, 0, 0, 0, false, 0⟩] } }
    | 2 => s.readback pf b
    | 3 => s.stgClear pf b
    | _ => s.setBank pf b { k with result := 1, slot := 0 }

/-! ### Checks 2 to 11 (R68) -/

/-- The rights a context may give in entries naming an extent: all five for its owner, a sharer's cap, or none (R88). -/
def Ext.capOf (x : Ext) (c : Nat) : Option Nat :=
  if x.owner = c then some 31 else (x.sharers.find? (fun p => p.1 == c)).map (·.2)

/-- Check 8 for one staged entry. A frame withdrawn from service cannot be named either (R42); that this check finds it is the model's
choice [DESIGN CHOICE, log 96]. -/
def State.entryOk (s : State) (e : Entry) : Bool :=
  e.wellFormed && (!(e.valid && e.typ == 0) || (s.populated e.frame && !s.withdrawn e.frame))

/-- Check 9 for one staged entry. -/
def State.reachable (s : State) (c : Nat) (e : Entry) : Bool :=
  if e.valid ∧ e.typ = 0 then
    match s.liveExt e.extent with
    | none => false
    | some x =>
      x.st == .moored && (match x.frames.findIdx? (· == e.frame), x.capOf c with
        | some i, some cap => (e.rights &&& cap) == e.rights && (match x.mirrors[i]? with
          | some m => e.mirV && e.mirror == m
          | none => !e.mirV && e.mirror == 0)
        | _, _ => false)
  else true

/-- Check 10 for one staged entry: its page's frame is the source of a running migration and the entry changes its frame, type or mirror,
or makes it invalid, which the model takes as such a change where none of the three fields differs [DEDUCED, log 97]. -/
def State.busyEntry (s : State) (c : Nat) (p : Nat × Entry) : Bool :=
  let cur := s.entry (s.ov O.win_base c + p.1)
  cur.valid && cur.typ == 0 && s.migs.any (fun m => m.src == cur.frame)
    && (cur.frame != p.2.frame || cur.typ != p.2.typ || cur.mirror != p.2.mirror || cur.valid != p.2.valid)

/-- The digest input of a window as it would stand after writes (R70). -/
def State.digestInput (s : State) (c newGen : Nat) (ws : List (Nat × Entry)) : Bytes :=
  natLe 4 newGen ++ (List.range (s.ov O.win_count c)).flatMap (fun i =>
    let e := match ws.find? (fun p => p.1 == i) with
      | some p => p.2
      | none => s.entry (s.ov O.win_base c + i)
    natLe 16 e.driver.pack)

/-- The first of checks 2 to 11 that fails, with its slot; `none` when all pass. Of two slots that stage one index, the later is the one that
fails DUP_INDEX [DESIGN CHOICE, log 98]. -/
def State.commitFail (s : State) (pf : Nat) (k : Stg) : Option (Nat × Nat) :=
  let c := k.ctx
  let st := (s.ctx c).st
  let n := k.count
  let at_ (p : Nat → Bool) : Option Nat := (List.range n).find? p
  if s.ov O.owner_port c ≠ pf then some (2, 0)
  else if st = .free ∨ st = .sweeping then some (3, 0)
  else if 512 < n then some (4, 0)
  else if k.newGen ≠ (s.ov O.win_gen c + 1) % 2 ^ 32 then some (5, 0)
  else match at_ (fun i => decide (s.ov O.win_count c ≤ (k.staged i).1)) with
  | some i => some (6, i)
  | none => match at_ (fun i => (List.range i).any (fun j => (k.staged j).1 == (k.staged i).1)) with
  | some i => some (7, i)
  | none => match at_ (fun i => !s.entryOk (k.staged i).2) with
  | some i => some (8, i)
  | none => match at_ (fun i => !s.reachable c (k.staged i).2) with
  | some i => some (9, i)
  | none => match at_ (fun i => s.busyEntry c (k.staged i)) with
  | some i => some (10, i)
  | none => if crc64 (s.digestInput c k.newGen k.all) = k.digest then none else some (11, 0)

/-- A staged entry is remapping (R537). -/
def State.remapping (s : State) (c : Nat) (p : Nat × Entry) : Bool :=
  let cur := s.entry (s.ov O.win_base c + p.1)
  cur.valid && cur.typ == 0 && cur.rights.testBit 4
    && (cur.frame != p.2.frame || cur.typ != p.2.typ || cur.valid != p.2.valid)

/-! ### Ends and turns (R71, R72, R79) -/

/-- Replace the first commit of a window. -/
def updCommit (c : Nat) (f : Commit → Commit) : List Commit → List Commit
  | [] => []
  | k :: t => if k.ctx = c then f k :: t else k :: updCommit c f t

/-- Remove the first commit of a window. -/
def dropCommit (c : Nat) : List Commit → List Commit
  | [] => []
  | k :: t => if k.ctx = c then t else k :: dropCommit c t

def State.headCommit (s : State) (c : Nat) : Option Commit := s.chart.commits.find? (fun k => k.ctx == c)

def State.setCommits (s : State) (l : List Commit) : State := { s with chart := { s.chart with commits := l } }

/-- A driver commit ends: its bank's slots are cleared and its result shown (R67, R72). -/
def State.endCommit (s : State) (k : Commit) (result slot : Nat) : State :=
  let b := s.bank k.port k.bank
  (s.setBank k.port k.bank { b with busy := false, cmd := 0, result := result, slot := slot, slots := [] }).setCommits
    (dropCommit k.ctx s.chart.commits)

/-- A commit is rejected (R71). -/
def State.rejectCommit (s : State) (k : Commit) (result slot : Nat) : State :=
  (((s.endCommit k result slot).bump O.commits_rejected k.ctx)).setOv O.last_reject (result * 2 ^ 16 + slot) k.ctx

/-- A driver commit's turn comes and its checks are made (R68, R79); with remapping entries it holds caching requests and
its directory walk begins (R537). -/
def State.commitTurn (s : State) (c : Nat) : State :=
  match s.headCommit c with
  | none => s
  | some k =>
    if k.internal.isSome ∨ k.ph ≠ 0 then s
    else
      let b := s.bank k.port k.bank
      match s.commitFail k.port b with
      | some (r, slot) => s.rejectCommit k r slot
      | none =>
        let remap := (b.all.filter (s.remapping c)).map (·.1)
        let k' := { k with ph := if remap = [] then 1 else 2, writes := b.all, remap := remap }
        let s1 := s.setCommits (updCommit c (fun _ => k') s.chart.commits)
        if remap = [] then s1 else s1.bump O.remap_recalls

/-! ### Apply points (R73, R74, R78, R341, R533, R538, R539) -/

/-- A strip has been translated under a generation of a page of its window that is no longer the entry's (R75, R331). -/
def Strip.stale (s : State) (c : Nat) (x : Strip) : Bool :=
  x.trs.any (fun p => p.2.gen != (s.entry (s.ov O.win_base c + p.1)).gen)

/-- A tile works for a context under an earlier generation of a page: its strip was translated before the change and finishes against the
previous frame (R75; R331 for tiles as R330 for engines). -/
def State.staleWork (s : State) (c unit : Nat) : Bool :=
  s.jobs.jobs.any (fun j => j.ctx == c && j.strips.any (fun x => x.tile == unit && x.stale s c))

/-- A unit's cache holds one of the pages. -/
def State.caches (s : State) (c : Nat) (vpns : List Nat) (unit : Nat) : Bool :=
  (Tab.get [] s.ecache unit).any (fun p => p.ctx == c && vpns.contains p.vpn)

/-- The tiles and engines that hold one of the changed pages or work under its previous generation, as a mask over 64 tiles and 16 engines
(R330, R538). -/
def State.holders (s : State) (c : Nat) (vpns : List Nat) : Nat :=
  (List.range 80).foldl (fun m u => if s.caches c vpns u || s.staleWork c u then setBit m u else m) 0

/-- The shootdown arrives: no cache of a port, tile or engine translates under the changed entries any more (R330, R538). -/
def State.dropPages (s : State) (c : Nat) (vpns : List Nat) : State :=
  { s with
    chart := { s.chart with ptc := s.chart.ptc.filter (fun p => !(p.ctx == c && vpns.contains p.vpn)) }
    ecache := s.ecache.map (fun p => (p.1, p.2.filter (fun e => !(e.ctx == c && vpns.contains e.vpn)))) }

/-- Write one entry at its apply point: the generation moves for any change but `heat` (R74), `fault_pend` clears (R525),
and the placement target follows a driver's change of `heat` (R341). The second component says the generation moved. -/
def State.applyEntry (s : State) (c : Nat) (driver : Bool) (p : Nat × Entry) : State × Bool :=
  let i := s.ov O.win_base c + p.1
  let cur := s.entry i
  let bumped := { p.2.driver with heat := 0 } != { cur.driver with heat := 0 }
  let e := s.ctlFields { p.2 with gen := if bumped then (cur.gen + 1) % 256 else cur.gen, faultPend := false }
  let s1 := s.setEntry i e
  if driver ∧ cur.heat ≠ e.heat ∧ e.valid ∧ e.typ = 0 then
    (s1.setTarget e.frame (if e.heat = 2 then 1 else if e.heat = 1 then 2 else 0), bumped)
  else (s1, bumped)

def State.applyEntries (s : State) (c : Nat) (driver : Bool) : List (Nat × Entry) → State × List Nat
  | [] => (s, [])
  | p :: t =>
    let q := s.applyEntry c driver p
    let r := State.applyEntries q.1 c driver t
    (r.1, if q.2 then p.1 :: r.2 else r.2)

/-- The requests held for changed pages are translated again in arrival order; the waiting record of each is discarded
when the page has become a valid POOL entry, and otherwise waits on by itself (R533). -/
def State.retryHeld (s : State) (c : Nat) (vpns : List Nat) : State :=
  let held := s.reqs.filter (fun q => q.phase == .slotted && q.h.ctx == c && vpns.contains (q.h.cva / 2 ^ 26))
  let pool (q : Req) : Bool :=
    let e := s.entry (s.ov O.win_base c + q.h.cva / 2 ^ 26)
    e.valid && e.typ == 0
  let recs := s.frecs.filterMap (fun r => match r.req with
    | none => some r
    | some i => match held.find? (fun q => q.id == i) with
      | none => some r
      | some q => if pool q then none else some { r with req := none })
  let reqs := s.reqs.map (fun q =>
    if held.any (fun x => x.id == q.id) then { q with phase := .fetching, slot := false } else q)
  let s1 : State := { s with frecs := recs, reqs := reqs }
  s1.retranslate (held.map (·.id))

/-- Apply points that await step 4 (R539). -/
def State.openEpochs (s : State) : Nat := (s.chart.commits.filter (fun k => k.ph == 3 && k.bumped)).length

/-- An apply point: the entries are written, the window generation moves, caches drop the pages, an epoch opens when a
generation moved, and the requests held for the pages are translated again. -/
def State.applyCommit (s : State) (k : Commit) (ws : List (Nat × Entry)) : State :=
  let c := k.ctx
  let q := s.applyEntries c k.internal.isNone ws
  let s1 := q.1.setOv O.win_gen ((q.1.ov O.win_gen c + 1) % 2 ^ 32) c
  let changed := q.2
  let s2 := s1.dropPages c changed
  let bumped := changed != []
  let s3 := if bumped then { s2.bump O.shootdowns with epochNow := s2.epochNow + 1 } else s2
  let k' := { k with
    ph := 3, writes := ws, epoch := s3.epochNow, acks := s1.holders c changed, bumped := bumped, since := s3.ltc,
    remap := [] }
  let s4 := s3.setCommits (updCommit c (fun _ => k') s3.chart.commits)
  s4.retryHeld c (ws.map (·.1))

/-- A driver commit's digest pass ends and, where it holds remapping entries, its recalls have ended: it applies, unless
four apply points await their drain (R73, R537, R539). -/
def State.applyPoint (s : State) (c : Nat) : State :=
  match s.headCommit c with
  | none => s
  | some k =>
    if k.internal.isSome then s
    else if (k.ph = 1 ∨ (k.ph = 2 ∧ k.walk = 2 ^ 32 - 1)) ∧ s.openEpochs < 4 then
      (s.applyCommit k k.writes).bump O.commits_ok c
    else s

/-- The `aux` of a CHART_CHANGED record (R527). -/
def IcKind.aux : IcKind → Nat
  | .publish _ _ _ => 1
  | .migration _ => 2
  | .revocation _ => 3
  | .unshare _ _ => 4

/-- The CHART_CHANGED record of an internal commit (R78, R527). -/
def changedRec (c gen : Nat) (vpns : List Nat) (aux : Nat) : FRec :=
  { kind := 0x20, flags := 0, ctx := c, source := 4 * 2 ^ 12, port := 0xFF, opcode := 0,
    whr := vpns.foldl min 0xFFFFFFFF + vpns.foldl max 0 * 2 ^ 32, token := gen, aux := aux, gen := 0,
    parked := false, req := none }

/-- The valid entries of a window, with their VPNs. -/
def State.windowEnts (s : State) (c : Nat) : List (Nat × Entry) :=
  let b := s.ov O.win_base c
  let n := s.ov O.win_count c
  (s.chart.ents.filter (fun p => decide (b ≤ p.1 ∧ p.1 < b + n) && p.2.valid)).map (fun p => (p.1 - b, p.2))

/-- What an internal commit writes, from the window as it stands at its turn: a revocation's REVOKED entries (R541), or
what it was made with. -/
def State.internalWrites (s : State) (k : Commit) : List (Nat × Entry) :=
  let revoke (handle : Nat) : List (Nat × Entry) :=
    ((s.windowEnts k.ctx).filter (fun p => p.2.typ == 0 && p.2.extent == handle)).map
      (fun p => (p.1, { p.2 with typ := 2 }))
  match k.internal with
  | some (.revocation slot) => revoke ((s.ext slot).handle slot)
  | some (.unshare slot _) => revoke ((s.ext slot).handle slot)
  | some (.migration f) =>
    match s.migs.find? (fun m => m.src == f) with
    | some m => ((s.windowEnts k.ctx).filter (fun p => p.2.typ != 1 && (if m.isMirror then p.2.mirV && p.2.mirror == f
        else p.2.frame == f))).map
        (fun p => (p.1, if m.isMirror then { p.2 with mirror := m.dst } else
          { p.2 with frame := m.dst, mirror := m.mdst.getD p.2.mirror }))
    | none => []
  | some (.publish _ a b) =>
    let swap (x y : Nat) (e : Entry) : Option Entry :=
      match ((s.ext x).frames.zipIdx).find? (fun q => q.1 == e.frame) with
      | some (_, j) =>
        let f := (s.ext y).frames.getD j 0
        some { e with
          extent := (s.ext y).handle y, frame := f, mirror := (s.ext y).mirrors.getD j 0,
          mirV := !(s.ext y).mirrors.isEmpty }
      | none => none
    (s.windowEnts k.ctx).filterMap (fun p =>
      if p.2.typ ≠ 0 then none
      else match swap a b p.2 with
        | some e => some (p.1, e)
        | none => (swap b a p.2).map (fun e => (p.1, e)))
  | none => k.writes

/-- Another window's commit of the same change comes first in ascending context order (R307, R541). -/
def State.earlierWindow (s : State) (k : Commit) : Bool :=
  match k.internal with
  | none => false
  | i => s.chart.commits.any (fun x => x.internal == i && decide (x.ctx < k.ctx) && decide (x.ph < 3))

/-- Windows with a driver commit that has not applied: it may yet bring in entries that a change of the controller's rewrites, once it has had
its turn (R79). -/
def State.driverQueues (s : State) : List Nat :=
  (List.range 1024).filter (fun c => s.chart.commits.any (fun k => k.ctx == c && k.internal.isNone && decide (k.ph < 3)))

/-- The windows that a change of the controller's rewrites or may have to, in ascending context order: those named, and those with a driver
commit before it (R78, R287, R307, R541). -/
def State.rewriteWindows (s : State) (ctxs : List Nat) : List Nat :=
  let all := s.driverQueues
  (List.range 1024).filter (fun c => ctxs.contains c || all.contains c)

/-- One internal commit for each of some windows. -/
def State.addInternals (s : State) (kind : IcKind) (ctxs : List Nat) : State :=
  s.setCommits (s.chart.commits ++ ctxs.map (fun c => (⟨c, 0, 0, some kind, [], [], 0, 0, 0, 0, false, 0⟩ : Commit)))

/-- The windows a revocation has rewritten, to which its end is reported (R545). -/
def State.noteNamer (s : State) (c : Nat) : IcKind → State
  | .revocation slot => s.setExt slot { s.ext slot with names := (s.ext slot).names ++ [c] }
  | .unshare slot _ => s.setExt slot { s.ext slot with names := (s.ext slot).names ++ [c] }
  | _ => s

/-- An internal commit's turn comes: with nothing to rewrite it vanishes; a PUBLISH with remapping entries first recalls their lines
(R537), and then, with a place in the island queue and fewer than four apply points waiting, it applies and forms its record (R78, R531,
R539). -/
def State.internalCommit (s : State) (c : Nat) : State :=
  match s.headCommit c with
  | none => s
  | some k =>
    if k.internal.isNone ∨ 3 ≤ k.ph ∨ s.earlierWindow k then s
    else
      let ws := s.internalWrites k
      let publish : Bool := match k.internal with
        | some (.publish _ _ _) => true
        | _ => false
      let remap : List Nat := if publish then (ws.filter (s.remapping c)).map (·.1) else []
      if k.ph = 0 ∧ ws = [] then s.setCommits (dropCommit c s.chart.commits)
      else if k.ph = 0 ∧ remap ≠ [] then
        (s.setCommits (updCommit c (fun x => { x with ph := 2, remap := remap }) s.chart.commits)).bump O.remap_recalls
      else if (k.ph = 2 ∧ k.walk ≠ 2 ^ 32 - 1) ∨ 4 ≤ s.openEpochs ∨ 8192 ≤ s.islandQueue then s
      else
        let s1 := (s.applyCommit k ws).bump O.commits_ok c
        match k.internal with
        | some i => (s1.noteNamer c i).queueRec (changedRec c (s1.ov O.win_gen c) (ws.map (·.1)) i.aux)
        | none => s1

/-! ### Withdrawal (R330, R538-R540) -/

/-- A tile or engine has dropped the withdrawn entries and its requests under them have completed: it acknowledges. While a strip of the
context still works on it under an earlier generation it does not (R330, R331, R538). -/
def State.shootdownAck (s : State) (unit : Nat) : State :=
  s.setCommits (s.chart.commits.map (fun k =>
    if k.ph = 3 ∧ !s.staleWork k.ctx unit then { k with acks := clrBit k.acks unit } else k))

/-- A request translated before an epoch is still in flight (R539). -/
def State.oldInFlight (s : State) (epoch : Nat) : Bool := s.reqs.any (fun r => r.hadEntry && decide (r.epoch < epoch))

/-- A strip translated before an epoch is still running (R539). -/
def State.oldStrips (s : State) (epoch : Nat) : Bool :=
  s.jobs.jobs.any (fun j => j.strips.any (fun x => !x.trs.isEmpty && decide (x.epoch < epoch)))

/-- A job of a context has yet to poison outputs under translations it made before. -/
def State.spoiling (s : State) (c : Nat) : Bool := s.jobs.jobs.any (fun j => j.ctx == c && j.spoil != [])

/-- Steps 2 to 4 of a withdrawal have ended for an applied commit: every cache has acknowledged, and nothing translated before it, at a
port or on a tile, is in flight (R75, R538, R539). -/
def State.drained (s : State) (k : Commit) : Bool :=
  k.acks == 0 && (!k.bumped || !(s.oldInFlight k.epoch || s.oldStrips k.epoch || s.spoiling k.ctx))

/-- The applied commit of a window ends when its withdrawal has: its bank clears `busy` with OK (R75). -/
def State.drainDone (s : State) (c : Nat) : State :=
  match s.headCommit c with
  | none => s
  | some k =>
    if k.ph = 3 ∧ s.drained k then
      let s1 := if k.bumped then s.setOv O.shootdown_last (ticksUs (s.ltc - k.since) % 2 ^ 32) else s
      if k.internal.isNone then s1.endCommit k 0 0 else s1.setCommits (dropCommit c s1.chart.commits)
    else s

/-! ### Bindings and geometry -/

/-- An agent's binding of a context is removed now: the time is kept for `unbind_grace` (R60). -/
def State.unbind (s : State) (a c : Nat) : State :=
  let x := s.agent a
  s.setAgent a { x with unbound := (c, s.ltc) :: x.unbound.filter (fun p => p.1 != c) }

/-- A write of a binding record is checked and applied at every port (R58-R60): the result 0, or 1 when rejected. -/
def State.writeBinding (s : State) (a i v : Nat) : Bool × State :=
  let c := v % 1024
  let nv := (v / 2 ^ 31 % 2) * 2 ^ 31 + v % 2 ^ 15
  let dup := (List.range 8).any (fun j => j != i && (s.binding a j).testBit 31 && s.binding a j % 1024 == c)
  if v.testBit 31 ∧ ((s.ctx c).st = .free ∨ dup) then (false, s)
  else
    let old := s.binding a i
    let s1 := s.setOv O.binding nv a i
    if old.testBit 31 ∧ !(v.testBit 31 && c == old % 1024) then
      (true, s1.unbind a (old % 1024))
    else (true, s1)

/-- A window's entries [b, b + n) overlap another context's window (R48); a window of no entries overlaps none. -/
def State.winOverlap (s : State) (c b n : Nat) : Bool :=
  decide (0 < n) && (List.range 1024).any (fun d => d != c && decide (0 < s.ov O.win_count d) && decide (b < s.ov O.win_base d + s.ov O.win_count d)
    && decide (s.ov O.win_base d < b + n))

/-- A write of `win_base` (`which` 0) or `win_count` (1) is checked and applied (R48). -/
def State.writeGeometry (s : State) (c which v : Nat) : Bool × State :=
  let b := if which = 0 then v else s.ov O.win_base c
  let n := if which = 0 then s.ov O.win_count c else v
  if (s.ctx c).st ≠ .configuring ∨ 524288 < b + n ∨ s.winOverlap c b n ∨ (which ≠ 0 ∧ v = 0) then (false, s)
  else (true, if which = 0 then s.setOv O.win_base v c else s.setOv O.win_count v c)

end Sys2Proof.Machine
end

