-- ==== Sys2Proof/Machine/Extents.lean ====
section
/-! DEFINITION. Sys2Proof/Machine/Extents.lean: extents: mooring, sharing and grants (R80-R92), and revocation in its phases
(R541-R545), with the directory walks that recalls and resets make (R180). -/

namespace Sys2Proof.Machine

open Sys2Proof

/-! ### Allocation (R84, R85) -/

/-- Up to `need` free frames from `f` on, lowest first, within `fuel` frames. -/
def State.takeFree (s : State) (avoid : List Nat) : Nat → Nat → Nat → List Nat
  | _, _, 0 => []
  | 0, _, _ => []
  | fuel + 1, f, need + 1 =>
    if s.frameFree f && !avoid.contains f then f :: State.takeFree s avoid fuel (f + 1) need
    else State.takeFree s avoid fuel (f + 1) (need + 1)

/-- First frame and frame count of a tier in a sector (R40). -/
def sectorSpan (tier sec : Nat) : Nat × Nat := if tier = 0 then (1024 * sec, 1024) else (4096 + 49152 * sec, 49152)

/-- Frames of a tier from sectors in turn. -/
def State.takeSectors (s : State) (tier : Nat) (avoid : List Nat) : List Nat → Nat → List Nat
  | [], _ => []
  | k :: t, need =>
    let a := s.takeFree avoid (sectorSpan tier k).2 (sectorSpan tier k).1 need
    if a.length = need then a else a ++ State.takeSectors s tier avoid t (need - a.length)

/-- A mirror frame for each primary, in list order; `none` when one cannot be matched (R85). Where the lowest-numbered other sector has no
free frame, the next ones are tried in ascending order [DEDUCED, log 99]. -/
def State.takeMirrors (s : State) (tier : Nat) (used : List Nat) : List Nat → Option (List Nat)
  | [] => some []
  | p :: t =>
    match s.takeSectors tier used ((List.range 4).filter (· != sectorOf p)) 1 with
    | [m] => (State.takeMirrors s tier (m :: used) t).map (m :: ·)
    | _ => none

/-- A free extent slot, lowest first (R80). -/
def State.freeSlot (s : State) : Option Nat :=
  (List.range 65535).findSome? (fun i => if (s.ext (i + 1)).st = .free then some (i + 1) else none)

/-- A frame taken into an extent, pending scrub under the owner's active key slot (R321). -/
def State.moorFrame (s : State) (slot owner : Nat) (mirror : Bool) (f pos : Nat) : State :=
  s.setFrame f { Frame.dflt with
    ext := slot, mirror := mirror, pos := pos, slot := (s.ctx owner).active, scrub := true }

def State.moorFrames (s : State) (slot owner : Nat) (mirror : Bool) : List Nat → Nat → State
  | [], _ => s
  | f :: t, pos => State.moorFrames (s.moorFrame slot owner mirror f pos) slot owner mirror t (pos + 1)

/-- The result of an extent command. -/
def State.extDone (s : State) (result : Nat) : State :=
  { s.setOv O.ext_result result with chart := { s.chart with extBusy := false, probe := none } }

/-- A context may own or share extents now: CONFIGURING or ACTIVE (R83, R88). -/
def State.canMoor (s : State) (c : Nat) : Bool :=
  let st := (s.ctx c).st
  decide (c < 1024) && (st == .configuring || st == .active)

/-- The frames and mirrors a MOOR takes (R83-R85). -/
def State.moorPlan (s : State) : Option (List Nat × List Nat) :=
  let place := s.ov O.ext_place
  let tier := place % 2
  let secs := if place.testBit 7 then [0, 1, 2, 3] else [bits place 4 2]
  let n := s.ov O.ext_count
  let prim := s.takeSectors tier [] secs n
  if prim.length < n then none
  else if s.ov O.ext_mirror = 1 then (s.takeMirrors tier prim prim).map (fun m => (prim, m))
  else some (prim, [])

/-- A MOOR is accepted (R82, R83, R86, R243). -/
def State.moorAccept (s : State) (slot : Nat) (prim mir : List Nat) (peer : Option Peer) : State :=
  let c := s.ov O.ext_ctx
  let x := s.ext slot
  let x' : Ext := { Ext.dflt with
    st := .moored, tag := x.tag, owner := c, tier := s.ov O.ext_place % 2, frames := prim, mirrors := mir,
    epoch := (x.epoch + 1) % 65536, peer := peer }
  let s1 := ((s.setExt slot x').moorFrames slot c false prim 0).moorFrames slot c true mir 0
  let h := x'.handle slot
  (((s1.setOv O.ext_handle h).setOv O.int8_scale 0x3F800000 slot).setOv O.pm_degraded_events 0 h).extDone 0

/-- MOOR (R83-R87). A peer MOOR sends a PROBE to the partner and waits for its answer; one that names this node ends with
PEER_UNREACHABLE, since no port leads to it [DEDUCED, log 100]. -/
def State.moor (s : State) : State :=
  let n := s.ov O.ext_count
  let place := s.ov O.ext_place
  let kind := s.ov O.ext_mirror
  if n = 0 ∨ 16384 < n ∨ bits place 1 3 ≠ 0 ∨ bits place 6 1 ≠ 0 ∨ 2 < kind then s.extDone 1
  else if !s.canMoor (s.ov O.ext_ctx) then s.extDone 2
  else match s.freeSlot with
  | none => s.extDone 4
  | some slot =>
    match s.moorPlan with
    | none => s.extDone 3
    | some (prim, mir) =>
      if kind = 2 then
        let p := s.oct O.ext_peer
        let node := leNat (p.take 2) % 4096
        if s.ov O.node_number = 0xFFF ∨ node = s.ov O.node_number ∨ s.blkPorts = [] then s.extDone 7
        else
          let s1 := s.sendBlk 0 ⟨6, s.ov O.node_number, node, leNat ((p.drop 2).take 4) % 2 ^ 20, 0, s.xid, 0, 0, 0,
            leNat ((p.drop 8).take 16), []⟩
          { s1 with chart := { s1.chart with extBusy := true, probe := some s.xid }, xid := (s.xid + 1) % 65536 }
      else s.moorAccept slot prim mir none

/-- The partner's answer decides a peer MOOR (R87, R314); `count` is the frame count it gives. -/
def State.probeAnswer (s : State) (xid status count : Nat) : State :=
  if s.chart.probe ≠ some xid then s
  else if status ≠ 0 ∨ count ≠ s.ov O.ext_count then s.extDone 6
  else if !s.canMoor (s.ov O.ext_ctx) then s.extDone 2
  else match s.freeSlot, s.moorPlan with
  | none, _ => s.extDone 4
  | _, none => s.extDone 3
  | some slot, some (prim, _) =>
    let p := s.oct O.ext_peer
    s.moorAccept slot prim []
      (some ⟨leNat (p.take 2) % 4096, leNat ((p.drop 2).take 4) % 2 ^ 20, (p.drop 8).take 16, 1⟩)

/-! ### Sharing and grants (R82, R88-R92) -/

/-- SHARE. -/
def State.share (s : State) : State :=
  let h := s.ov O.ext_handle
  let c := s.ov O.ext_ctx
  match s.liveExt h with
  | none => s.extDone 2
  | some x =>
    if x.st ≠ .moored then s.extDone 2
    else if 32 ≤ s.ov O.ext_cap ∨ x.owner = c ∨ x.sharers.any (fun p => p.1 == c) then s.extDone 1
    else if !s.canMoor c then s.extDone 2
    else if 8 ≤ x.sharers.length then s.extDone 5
    else (s.setExt (h % 65536) { x with sharers := x.sharers ++ [(c, s.ov O.ext_cap)] }).extDone 0

/-- GRANT_REVOKE: every earlier grant of the extent becomes void. -/
def State.grantRevoke (s : State) : State :=
  let h := s.ov O.ext_handle
  match s.liveExt h with
  | none => s.extDone 2
  | some x =>
    if x.st = .moored then (s.setExt (h % 65536) { x with epoch := (x.epoch + 1) % 65536 }).extDone 0 else s.extDone 2

/-- The bits [127:64] of a grant (R90). -/
def grantBody (issuer grantee handle rights epoch : Nat) : Nat :=
  issuer % 4096 * 2 ^ 52 + grantee % 4096 * 2 ^ 40 + handle % 2 ^ 20 * 2 ^ 20 + rights % 8 * 2 ^ 16 + epoch % 65536

/-- A grant's tag under this node's grant key (R90): the CMAC is an outside algorithm (log 4). -/
def State.grantTag (s : State) (body : Nat) : Nat := Config.digest 2 s.grantKey (natLe 8 body) % 2 ^ 64

/-- GRANT_ISSUE: a grant into `grant_out`; the first component is false where it is refused (R89, R90, R93). -/
def State.grantIssue (s : State) : Bool × State :=
  let h := s.ov O.grant_handle
  let n := s.ov O.node_number
  match s.liveExt h with
  | none => (false, s)
  | some x =>
    if x.st ≠ .moored ∨ n = 0xFFF then (false, s)
    else
      let b := grantBody n (s.ov O.grant_node) h (s.ov O.grant_rights) x.epoch
      (true, s.setOct O.grant_out (natLe 16 (b * 2 ^ 64 + s.grantTag b)))

/-- A presented grant is honoured for a right (bit 0 get, 1 put, 2 mirror write): the extent's slot (R91). -/
def State.honoured (s : State) (grant presenter handle right : Nat) : Option Nat :=
  let body := grant / 2 ^ 64
  match s.liveExt handle with
  | none => none
  | some x =>
    if bits body 52 12 = s.ov O.node_number ∧ s.ov O.node_number ≠ 0xFFF ∧ bits body 40 12 = presenter
      ∧ bits body 20 20 = handle ∧ x.st = .moored ∧ bits body 0 16 = x.epoch ∧ body.testBit (16 + right)
      ∧ grant % 2 ^ 64 = s.grantTag body then some (handle % 65536) else none

/-! ### Revocation (R541-R545) -/

/-- Contexts whose windows hold POOL entries naming an extent: an entry already REVOKED is not rewritten (R541). -/
def State.namers (s : State) (handle : Nat) : List Nat :=
  if s.chart.ents.any (fun p => p.2.valid && p.2.extent == handle) then
    (List.range 1024).filter (fun c => s.namesExtent c handle)
  else []

/-- Drain counters in use (R543). -/
def State.countersUsed (s : State) : Nat := (s.chart.exts.filter (fun p => p.2.counter)).length

/-- CLOSE starts: a counter is taken and an internal commit arises for each window concerned (R541, R543). -/
def State.startClose (s : State) (slot : Nat) : State :=
  let x := s.ext slot
  let s1 := s.setExt slot { x with counter := true, phase := 1, names := [], stragglers := 0, walk := 0 }
  let ctxs := s.rewriteWindows (s.namers (x.handle slot))
  match x.closingFor with
  | some c => s1.addInternals (.unshare slot c) (ctxs.filter (· == c))
  | none => s1.addInternals (.revocation slot) ctxs

/-- A closing extent takes a drain counter at once or waits for one (R543). -/
def State.enterClose (s : State) (slot : Nat) : State :=
  if s.countersUsed < 64 then s.startClose slot
  else
    let s1 := s.setExt slot { s.ext slot with waitSince := s.chart.closeSeq + 1 }
    { s1 with chart := { s1.chart with closeSeq := s1.chart.closeSeq + 1 } }

/-- The extent that has waited longest for a drain counter (R543). -/
def State.closeWaiter (s : State) : Option Nat :=
  let l := s.chart.exts.filter (fun p => !p.2.counter && p.2.phase == 0 && p.2.waitSince != 0
    && (p.2.st == .closing || p.2.closingFor.isSome))
  l.foldl (fun a p => match a with
    | none => some p.1
    | some q => if p.2.waitSince < (s.ext q).waitSince then some p.1 else some q) none

/-- A drain counter frees and the longest-waiting extent begins CLOSE (R543). -/
def State.counterFree (s : State) : State :=
  if s.countersUsed < 64 then
    match s.closeWaiter with
    | some slot => (s.setExt slot { s.ext slot with waitSince := 0 }).startClose slot
    | none => s
  else s

/-- A MOORED extent begins its revocation; one that is losing a sharer closes when that has ended (R82, R541). -/
def State.beginRevoke (s : State) (slot : Nat) (x : Ext) : State :=
  let s1 := s.setExt slot { x with st := .closing }
  if x.closingFor.isSome then s1 else s1.enterClose slot

/-- REVOKE (R82, R541). -/
def State.revoke (s : State) : State :=
  let h := s.ov O.ext_handle
  match s.liveExt h with
  | none => s.extDone 2
  | some x =>
    if x.st ≠ .moored then s.extDone 2
    else
      let x1 := { x with cmd := true, remoor := s.ob O.ext_remoor, target := s.ov O.ext_ctx }
      { s with chart := { s.chart with extBusy := true } }.beginRevoke (h % 65536) x1

/-- An extent loses a sharer: it leaves the list at once, and its entries close, after those of a sharer that is leaving already (R82). -/
def State.dropSharerOf (s : State) (slot c : Nat) (cmd : Bool) : State :=
  let x := s.ext slot
  let sharers := x.sharers.filter (fun p => p.1 != c)
  if x.closingFor.isSome then s.setExt slot { x with sharers := sharers, leaving := x.leaving ++ [(c, cmd)] }
  else (s.setExt slot { x with sharers := sharers, closingFor := some c, ucmd := cmd }).enterClose slot

/-- UNSHARE (R82, R88); it is accepted on a MOORED extent whether or not another sharer is leaving it. -/
def State.unshare (s : State) : State :=
  let h := s.ov O.ext_handle
  let c := s.ov O.ext_ctx
  match s.liveExt h with
  | none => s.extDone 2
  | some x =>
    if x.st ≠ .moored then s.extDone 2
    else if !(x.sharers.any (fun p => p.1 == c)) then s.extDone 1
    else ({ s with chart := { s.chart with extBusy := true } }).dropSharerOf (h % 65536) c true

/-- A write of `ext_op` (R88, R93): false when another extent command runs. -/
def State.extOp (s : State) (v : Nat) : Bool × State :=
  if s.chart.extBusy then (false, s)
  else match v with
    | 1 => (true, s.moor)
    | 2 => (true, s.revoke)
    | 3 => (true, s.share)
    | 4 => (true, s.unshare)
    | 5 => (true, s.grantRevoke)
    | _ => (true, s)

/-- The extent's CLOSE commits of every window have passed steps 1 to 3 of their withdrawal (R541). -/
def State.closeEnded (s : State) (slot : Nat) : Bool :=
  !(s.chart.commits.any (fun k => (match k.internal with
    | some (.revocation i) => i == slot
    | some (.unshare i _) => i == slot
    | _ => false) && (decide (k.ph < 3) || k.acks != 0)))

/-- The last window's CLOSE step ends and the drain begins (R541). -/
def State.closeDone (s : State) (slot : Nat) : State :=
  let x := s.ext slot
  if x.phase = 1 ∧ s.closeEnded slot then
    s.setExt slot { x with phase := 2, st := if x.closingFor.isNone then .draining else x.st }
  else s

/-- Requests in flight that the extent's drain counters count, at the ports and on the tiles (R543). -/
def State.counted (s : State) (slot : Nat) : Bool :=
  let x := s.ext slot
  let of (c : Nat) : Bool := x.closingFor.all (· == c)
  s.reqs.any (fun r => r.hadEntry && r.ext == x.handle slot && of r.h.ctx)
    || s.jobs.jobs.any (fun j => of j.ctx && (j.strips.any (fun y => y.trs.any (fun p => p.2.extent == x.handle slot))
      || j.spoil.any (fun p => (s.frame (frameOf p.1.ppa)).ext == slot)))

/-- RECALL begins and the drain counter is freed (R543, R544). -/
def State.startRecallPhase (s : State) (slot : Nat) : State :=
  let x := s.ext slot
  s.setExt slot { x with
    phase := 3, counter := false, walk := 0, st := if x.closingFor.isNone then .recalling else x.st }

/-- Every drain counter has reached zero (R543). -/
def State.revokeDrained (s : State) (slot : Nat) : State :=
  if (s.ext slot).phase = 2 ∧ !s.counted slot then s.startRecallPhase slot else s

/-- Mark frames closed, to every requester or to one sharer (R543). -/
def State.closeFrames (s : State) (forCtx : Option Nat) : List Nat → State
  | [] => s
  | f :: t =>
    let r := s.frame f
    State.closeFrames (s.setFrame f (match forCtx with
      | some c => { r with closedFor := c :: r.closedFor }
      | none => { r with closedAll := true })) forCtx t

/-- Requests of a unit's queue that a closed frame's mark applies to complete with REVOKED (R543). -/
def State.failClosed (s : State) : List Req → State
  | [] => s
  | r :: t => State.failClosed ((s.straggler r).finish r .revoked) t

/-- Requests that a port holds for their slice, not yet admitted there, whose frame is closed to them (R543) [DEDUCED, log 74]. An EvC or
WbD is served (R542). -/
def State.heldClosed (s : State) : List Req :=
  s.reqs.filter (fun r => r.phase == .holding && !r.kind.evict && s.closedTo r)

/-- `drain_timeout` expires: the frames close, and stragglers fail, those a port holds at once and the rest as they arrive (R543). -/
def State.drainTimeout (s : State) (slot : Nat) : State :=
  let x := s.ext slot
  if x.phase = 2 then
    let s1 := s.closeFrames x.closingFor (x.frames ++ x.mirrors)
    (s1.failClosed s1.heldClosed).startRecallPhase slot
  else s

/-! ### Directory walks (R180) -/

/-- A line with its entry is recalled by a walk: 0 an extent's, 1 a context reset's, 2 a migration's of a source frame, 3 a
commit's with remapping entries, 4 a slice's that is emptied while held, 5 every line's at P3 entry. -/
def State.concerns (s : State) (kind id line : Nat) (d : Dir) : Bool :=
  match kind with
  | 0 =>
    let x := s.ext id
    x.phase == 3 && x.frames.contains (frameOf (line * 128)) && (match x.closingFor with
      | some c => d.nctx == c
      | none => true)
  | 1 => (s.ctx id).rphase == 2 && d.way && d.nctx == id
  | 2 => frameOf (line * 128) == id && s.migs.any (fun m => m.src == id && m.phase == 2)
  | 4 => d.way && hsLine line == id && (s.slc id).hold && (s.slc id).quiesced
  | 5 => d.way && s.pwr.entering
  | _ => match s.headCommit id with
    | some k => k.ph == 2 && d.way && d.nctx == id && k.remap.contains d.nvpn
    | none => false

/-- Some walk in progress recalls the line. -/
def State.wanted (s : State) (line : Nat) : Bool :=
  let d := s.dir line
  s.chart.exts.any (fun p => s.concerns 0 p.1 line d) || s.concerns 1 d.nctx line d
    || s.concerns 2 (frameOf (line * 128)) line d || s.concerns 3 d.nctx line d || s.concerns 4 (hsLine line) line d
    || s.concerns 5 0 line d

/-- An internal recall of a line: at once, or when its open transaction ends (R179) and fewer than 256 recalls are open (R180). -/
def State.recallLine (s : State) (line : Nat) : State :=
  if s.wanted line then
    let d := s.dir line
    if d.txn.isSome ∨ !s.recallRoom (hsLine line) then s.setDir line { d with recalls := true }
    else
      let q := s.startRecall line
      q.1.work (q.2 ++ [line])
  else s

/-- Flush the accumulator and merge-buffer values of lines (R189, R390, R544). -/
def State.flushLines (s : State) : List Nat → State
  | [] => s
  | l :: t => State.flushLines ((if (s.accAt l).isSome then s.accEnd l else s).flushMerge l) t

/-- Every entry and open transaction of a slice that a walk concerns has gone. -/
def State.walkClear (s : State) (hs kind id : Nat) : Bool :=
  !(s.coh.dir.any (fun p => hsLine p.1 == hs && (p.2.way || p.2.recalls || p.2.txn.isSome) && s.concerns kind id p.1 p.2))

/-- The chunks a bitmap marks. -/
def bitList (x n : Nat) : List Nat := (List.range n).filter (fun i => x.testBit i)

/-- A slice's walk for a migration ends; with the last one the final pass begins over the chunks whose bits are set (R307 steps 4 and 5). -/
def Mig.walked (m : Mig) (hs : Nat) : Mig :=
  let w := setBit m.walk hs
  if w = 2 ^ 32 - 1 then { m with walk := w, phase := 3, todo := bitList m.dirty 16384 } else { m with walk := w }

/-- A home slice's directory walk ends: its values of the frames concerned are flushed and the walk's bit set (R180, R307,
R537, R544). -/
def State.walkDone (s : State) (hs kind id : Nat) : State :=
  if s.walkClear hs kind id then
    let fs := match kind with
      | 0 => if (s.ext id).phase = 3 ∧ (s.ext id).closingFor.isNone then (s.ext id).frames else []
      | 2 => if s.migs.any (fun m => m.src == id && m.phase == 2) then id :: (s.mirrorOf id).toList else []
      | _ => []
    let here (l : Nat) : Bool := hsLine l == hs && fs.contains (frameOf (l * 128))
    let s1 := s.flushLines ((s.coh.acc.map (·.1) ++ s.coh.merge.map (·.1)).filter here)
    match kind with
    | 0 =>
      let x := s1.ext id
      if x.phase = 3 then s1.setExt id { x with walk := setBit x.walk hs } else s1
    | 1 =>
      let c := s1.ctx id
      if c.rphase = 2 then s1.setCtx id { c with rwalk := setBit c.rwalk hs } else s1
    | 2 => { s1 with migs := s1.migs.map (fun m =>
        if m.src = id ∧ m.phase = 2 then m.walked hs else m) }
    | _ => s1.setCommits (updCommit id (fun k => if k.ph = 2 then { k with walk := setBit k.walk hs } else k)
        s1.chart.commits)
  else s

/-! ### The end of a revocation (R82, R545) -/

/-- The REVOKE_DONE record (R527). -/
def revokeRec (c handle stragglers aux : Nat) : FRec :=
  { kind := 0x21, flags := 0, ctx := c, source := 4 * 2 ^ 12, port := 0xFF, opcode := 0, whr := stragglers % 2 ^ 32,
    token := handle, aux := aux, gen := 0, parked := false, req := none }

def State.postRevokes (s : State) (handle stragglers aux : Nat) : List Nat → State
  | [] => s
  | c :: t => State.postRevokes (s.queueRec (revokeRec c handle stragglers aux)) handle stragglers aux t

def State.freeFrames (s : State) : List Nat → State
  | [] => s
  | f :: t => State.freeFrames (s.freeFrame f) t

/-- The sharer's mark is lifted from frames (R543). -/
def State.openFrames (s : State) (c : Nat) : List Nat → State
  | [] => s
  | f :: t =>
    let r := s.frame f
    State.openFrames (s.setFrame f { r with closedFor := r.closedFor.filter (· != c) }) c t

/-- The command that started a revocation ends with its result. -/
def State.endExtCmd (s : State) (cmd : Bool) (result : Nat) : State := if cmd then s.extDone result else s

/-- RECALL ends: the extent becomes FREE or is moored again, or the unshare completes and the next sharer that leaves closes; records are
posted (R544, R545). An extent moored again has no peer mirror: the spec does not say that one goes on [DESIGN CHOICE, log 101]. -/
def State.recallDone (s : State) (slot : Nat) : State :=
  let x := s.ext slot
  let busyMirror := s.mwrs.any (fun m => m.slot == slot)
  if x.phase ≠ 3 ∨ x.walk ≠ 2 ^ 32 - 1 ∨ s.counted slot ∨ busyMirror ∨ 8192 < s.islandQueue + x.names.length then s
  else
    let h := x.handle slot
    match x.closingFor with
    | some c =>
      let s1 := s.setExt slot { x with
        closingFor := x.leaving.head?.map (·.1), phase := 0, walk := 0, names := [], stragglers := 0,
        ucmd := x.leaving.head?.any (·.2), leaving := x.leaving.tail }
      let s2 := ((s1.openFrames c (x.frames ++ x.mirrors)).postRevokes h x.stragglers 2 x.names).endExtCmd x.ucmd 0
      if x.st = .moored ∧ x.leaving = [] then s2 else s2.enterClose slot
    | none =>
      let s0 := s.freeFrames (x.frames ++ x.mirrors)
      if x.remoor ∧ s.canMoor x.target then
        let y : Ext := { Ext.dflt with
          st := .moored, tag := x.tag, owner := x.target, tier := x.tier, frames := x.frames, mirrors := x.mirrors,
          epoch := (x.epoch + 1) % 65536 }
        let s1 := ((s0.setExt slot y).moorFrames slot x.target false x.frames 0).moorFrames slot x.target true x.mirrors 0
        (s1.setOv O.int8_scale 0x3F800000 slot |>.postRevokes h x.stragglers 1 x.names).endExtCmd x.cmd 0
      else
        let s1 := s0.setExt slot { Ext.dflt with tag := (x.tag + 1) % 16, epoch := x.epoch }
        (s1.postRevokes h x.stragglers (if x.freed then 3 else 0) x.names).endExtCmd x.cmd (if x.remoor then 2 else 0)

end Sys2Proof.Machine
end

