-- ==== Sys2Proof/Machine/Service.lean ====
section
/-! DEFINITION. Sys2Proof/Machine/Service.lean: token buckets and their refills (R418, R422, R427, R534), notification delivery
(R425-R430), the functions' direct windows (R431, R469), release of a frozen agent (R414), and deficit round robin (R421). -/

namespace Sys2Proof.Machine

open Sys2Proof

/-! ### Refills -/

/-- The contexts that are not FREE. -/
def State.liveCtxs (s : State) : List Nat := (s.ctxs.filter (fun p => p.2.st != .free)).map (·.1)

/-- Refill the policer buckets of one context at every port (R418, R420). -/
def State.refillPol (s : State) (c : Nat) : List Nat → State
  | [] => s
  | p :: t =>
    let k := p * 1024 + c
    let b := Tab.get (1048576, 1048576) s.pol k
    let f (rate size tok : Nat) : Nat := if rate = 0xFFFF then size else min size (tok + 64 * rate)
    let b' := (f (s.ov O.cir c) (s.ov O.cbs c) b.1, f (s.ov O.pir c) (s.ov O.pbs c) b.2)
    State.refillPol { s with pol := Tab.put (1048576, 1048576) s.pol k b' } c t

def State.refillPols (s : State) : List Nat → State
  | [] => s
  | c :: t => State.refillPols (s.refillPol c (List.range 24)) t

/-- Every 1 µs the policer buckets gain tokens (R418). -/
def State.policerRefill (s : State) : State := s.refillPols s.liveCtxs

/-- The tokens of a bucket that may never have been used: full. -/
def tokens (cur : Option Nat) (size : Nat) : Nat := cur.getD size

/-- Change every context that is not FREE. -/
def State.mapCtxs (s : State) (f : Nat → Ctx → Ctx) : List Nat → State
  | [] => s
  | c :: t => State.mapCtxs (s.setCtx c (f c (s.ctx c))) f t

/-- Every 1 µs the bulk shapers gain tokens (R422, R423). -/
def State.shaperRefill (s : State) : State :=
  s.mapCtxs (fun c x =>
    let size := s.ov O.shp_burst c
    { x with shp := some (if s.ov O.shp_rate c = 0xFFFF then size
        else min size (tokens x.shp size + 64 * s.ov O.shp_rate c)) }) s.liveCtxs

/-- Every 1 ms the notification buckets gain tokens (R427). -/
def State.ntfRefill (s : State) : State :=
  s.mapCtxs (fun c x =>
    let size := s.ov O.ntf_burst c
    { x with ntfTok := some (if s.ov O.ntf_rate c = 0xFFFF then size
        else min size (tokens x.ntfTok size + s.ov O.ntf_rate c)) }) s.liveCtxs

/-- Every 1 ms a context's fault budget gains tokens (R534). -/
def State.faultRefill (s : State) (c : Nat) : State :=
  let b := s.ov O.fault_budget c
  s.setCtx c { s.ctx c with frTok := some (min b (tokens (s.ctx c).frTok b + b)) }

/-- Every bucket of a context full, as class X returns it (R406). -/
def State.fillBuckets (s : State) (c : Nat) : State :=
  let put (t : Tab (Nat × Nat)) (p : Nat) : Tab (Nat × Nat) :=
    Tab.put (1048576, 1048576) t (p * 1024 + c) (s.ov O.cbs c, s.ov O.pbs c)
  let s1 := { s with pol := (List.range 24).foldl put s.pol }
  s1.setCtx c { s1.ctx c with
    shp := some (s.ov O.shp_burst c), ntfTok := some (s.ov O.ntf_burst c), frTok := some (s.ov O.fault_budget c) }

/-! ### Functions (R428, R431, R469) -/

/-- The context a VF is bound to. -/
def State.vfCtx (s : State) (port vf : Nat) : Option Nat :=
  s.liveCtxs.find? (fun c => vf != 0 && s.ov O.ntf_func c == port * 256 + vf)

/-- A TLP to a bound function is refused: its context is an enclave and the TLP came in no keyed stream (R469). -/
def State.ideRefuses (s : State) (c : Nat) (keyed : Bool) : Bool := s.ob O.ide_required && s.ob O.enclave c && !keyed

/-- A function of a context sends no TLP: its context is an enclave, and its port has no keyed stream (R469). -/
def State.ideSilent (s : State) (c port : Nat) : Bool := s.ob O.ide_required && s.ob O.enclave c && Tab.get 0 s.sec.ide port == 0

/-- The host writes NTF_HEAD (R430). -/
def State.ntfHeadWrite (s : State) (port vf v : Nat) (keyed : Bool) : State :=
  match s.vfCtx port vf with
  | none => s
  | some c =>
    if s.ideRefuses c keyed then s.bump O.ide_rejects 0 port
    else s.setCtx c { s.ctx c with ntfHead := v % 65536 }

/-- A function-level reset of a VF (R428). -/
def State.vfFlr (s : State) (port vf : Nat) : State :=
  let s1 := s.bump O.pcie_flr 0 port
  match s1.vfCtx port vf with
  | none => s1
  | some c => (s1.setOv O.ntf_ring_en 0 c).setCtx c { s1.ctx c with ntfHead := 0, ntfTail := 0 }

/-! ### Notifications (R425-R430) -/

/-- The driver of a fault ring or the operator raises a vector with cause OPERATOR. -/
def State.ntfRaise (s : State) (c v : Nat) : State := s.raiseVec c (v % 64) 5

/-- An NTF header (R429). -/
def packNtf (agt ctx vec addr : Nat) : Nat :=
  0x3E * 2 ^ 250 + agt % 4096 * 2 ^ 226 + ctx % 1024 * 2 ^ 216 + vec % 64 * 2 ^ 210 + addr % 2 ^ 48 * 2 ^ 162

/-- The ring of a context has no free record (R430). -/
def State.ntfRingFull (s : State) (c : Nat) : Bool :=
  let x := s.ctx c
  (x.ntfTail + 65536 - x.ntfHead) % 65536 == s.ov O.ntf_ring_size c

/-- The notification record (R426). -/
def ntfRecord (c v : Nat) (q : Vec) (ltc : Nat) : Nat :=
  q.count % 65536 * 2 ^ 48 + q.causes % 256 * 2 ^ 40 + v % 64 * 2 ^ 34 + c % 1024 * 2 ^ 24 + ltc % 2 ^ 24

/-- The lowest-numbered LIT port of an agent's `reach_mask` (R429); none for an agent that is lost (R430's cases). -/
def State.ntfPort (s : State) (a : Nat) : Option Nat :=
  if (s.agent a).life = .present then (s.maskPorts a).find? (fun p => s.ov O.port_state p == 0) else none

/-- A pending vector is delivered when all of R426's conditions hold, and its function may send (R469); a wait on the bucket, the ring or the target
is counted once (R427). -/
def State.deliverNtf (s : State) (c v : Nat) : State :=
  let x := s.ctx c
  let q := Tab.get Vec.dflt x.vecs v
  let cfg := s.ov O.ntf_vec c v
  let mode := bits cfg 62 2
  let coal := usTicks (s.ov O.ntf_coal c v)
  let fn := s.ov O.ntf_func c
  let agt := bits cfg 48 12
  let tok := if s.ov O.ntf_rate c = 0xFFFF then s.ov O.ntf_burst c else tokens x.ntfTok (s.ov O.ntf_burst c)
  if q.count = 0 ∨ mode = 0 ∨ mode = 3 ∨ (q.seen ∧ s.ltc < q.last + coal) ∨ (mode = 1 ∧ fn ≠ 0 ∧ s.ideSilent c (fn / 256)) then s
  else if tok = 0 ∨ (mode = 1 ∧ (fn = 0 ∨ (s.ob O.ntf_ring_en c ∧ s.ntfRingFull c)))
      ∨ (mode = 2 ∧ (s.ntfPort agt).isNone) then
    if q.held then s else (s.setCtx c { x with vecs := Tab.put Vec.dflt x.vecs v { q with held := true } }).bump O.ntf_held c
  else
    let r := ntfRecord c v q s.ltc
    let ring := mode == 1 && s.ob O.ntf_ring_en c
    let x1 := { x with
      ntfTok := some (tok - 1), vecs := Tab.put Vec.dflt x.vecs v ⟨0, 0, s.ltc, true, false⟩,
      ntfTail := if ring then (x.ntfTail + 1) % 65536 else x.ntfTail }
    let s1 := (s.setCtx c x1).bump O.ntf_sent c
    let s2 := if ring then
      s1.emit (.hostWr (fn / 256) (fn % 256)
        (s.ov O.ntf_ring_base c + 8 * (x.ntfTail % s.ov O.ntf_ring_size c)) (natLe 8 r) false) else s1
    if mode = 1 then s2.emit (.msix (fn / 256) (fn % 256) v)
    else match s.ntfPort agt with
      | some p => s2.send p ⟨2, packNtf agt c v (bits cfg 0 48), [⟨natLe 8 r ++ zeros 24, false⟩], agt, none, 32⟩
      | none => s2

/-! ### Releasing an agent (R414) -/

/-- A frozen agent is released; the context of its violation hears of it (R425), and its record stands until the next freeze
[DESIGN CHOICE, log 69]. False when it is not frozen. -/
def State.frzRelease (s : State) (a : Nat) : Bool × State :=
  let x := s.agent a
  if x.frozen then
    let c := leNat ((x.frz.drop 2).take 2)
    let s1 := (s.setAgent a { x with frozen := false }).setOv O.frozen_agents
      (s.ov O.frozen_agents - 1)
    (true, if (s1.ctx c).st = .free then s1 else s1.raiseSys c 3)
  else (false, s)

/-! ### Fault records as time passes (R530, R532, R534, R535) -/

/-- A waiting record is the oldest of its context and may be posted now. -/
def State.headPosts (s : State) (r : FRec) : Bool := s.frecs.find? (fun q => q.ctx == r.ctx) == some r && s.canPost r

/-- The waiting record at the head of a context's queue that may be posted now: its ring posts the oldest first (R532). -/
def State.postable (s : State) (c : Nat) : Option FRec :=
  match s.frecs.find? (fun r => r.ctx == c) with
  | some r =>
    if s.canPost r && (s.frecs.takeWhile (· != r)).all (fun q => s.ringOf q.ctx != s.ringOf c || !s.headPosts q) then some r else none
  | none => none

/-- A waiting record is written to its ring; the request it held completes with FAULT, and those behind it are translated
again (R531, R532). -/
def State.postWaiting (s : State) (c : Nat) : State :=
  match s.postable c with
  | none => s
  | some r =>
    match s.ringOf c with
    | none => s
    | some g =>
      let s1 := { s with frecs := s.frecs.erase r }.postRec r g
      match r.req with
      | none => s1
      | some i =>
        match s1.req? i with
        | none => s1
        | some q =>
          let s2 := s1.finish q .fault
          let behind := s2.reqs.filter (fun z => z.phase == .slotted && !z.slot && z.port == q.port && z.h.ctx == c
            && z.h.cva / 2 ^ 26 == q.h.cva / 2 ^ 26)
          let ids := behind.map (·.id)
          let reqs : List Req := s2.reqs.map (fun z => if ids.contains z.id then { z with phase := .fetching } else z)
          let s3 : State := { s2 with reqs := reqs }
          s3.retranslate ids

/-- `fr_coal` has passed: a ring's vector that was held back is raised (R530). -/
def State.frCoal (s : State) (r : Nat) : State :=
  let p := Tab.get (0, false) s.frMsi r
  if p.2 then { s.emit (.msix (s.ov O.fr_port r) 0 r) with frMsi := Tab.put (0, false) s.frMsi r (s.ltc, false) } else s

/-- The driver writes FR_HEAD of a ring routed to its port; a head that would pass the tail is ignored (R528, R431). -/
def State.frHeadWrite (s : State) (port r v : Nat) : State :=
  let v := v % 65536
  let h := s.ov O.fr_head r
  let t := s.ov O.fr_tail r
  if s.ov O.fr_port r ≠ port ∨ 8 ≤ r then s
  else if (v + 65536 - h) % 65536 ≤ (t + 65536 - h) % 65536 then s.setOv O.fr_head v r else s

/-- Post a record for every entry of a window whose `fault_pend` is 1, in ascending order (R535). -/
def State.repostAll (s : State) (c : Nat) : List (Nat × Entry) → State
  | [] => s
  | p :: t =>
    let r := pageRec p.2 (if p.2.valid then 2 else 1) 0 c (4 * 2 ^ 12) 0xFF 0 (p.1 * 2 ^ 26) false
    State.repostAll (s.queueRec r) c t

/-- FR_REPOST for a context; refused while it is FREE. -/
def State.frRepost (s : State) (c : Nat) : Bool × State :=
  if (s.ctx c).st = .free then (false, s)
  else
    let b := s.ov O.win_base c
    let n := s.ov O.win_count c
    let l := (s.chart.ents.filter (fun p => decide (b ≤ p.1 ∧ p.1 < b + n) && p.2.faultPend)).map
      (fun p => (p.1 - b, p.2))
    (true, s.repostAll c l)

/-! ### Deficit round robin (R421) -/

/-- A group that a service has left without work loses its deficit (R421). -/
def Drr.settle (d : Drr) (busy : Bool) : Drr := if busy then d else { d with deficit := Tab.put 0 d.deficit d.group 0 }

/-- One turn of deficit round robin over the groups that have work: from the group under service, visiting cyclically.
`cost g` is the cost of the group's head item, `none` when it has no work. Answers the group served, and the deficits. -/
def drrTurn (quantum : Nat → Nat) (cost : Nat → Option Nat) : Nat → Nat → Bool → Tab Nat → Option (Nat × Tab Nat)
  | 0, _, _, _ => none
  | fuel + 1, g, fresh, def_ =>
    match cost g with
    | none => drrTurn quantum cost fuel ((g + 1) % 64) true (Tab.put 0 def_ g 0)
    | some k =>
      let d := Tab.get 0 def_ g + (if fresh then quantum g else 0)
      if k ≤ d then some (g, Tab.put 0 def_ g (d - k))
      else drrTurn quantum cost fuel ((g + 1) % 64) true (Tab.put 0 def_ g d)

end Sys2Proof.Machine
end

