-- ==== Sys2Proof/Machine/Inside.lean ====
section
/-! DEFINITION. Sys2Proof/Machine/Inside.lean: how tiles, tender engines and the dispatcher reach pool memory: translation through
the chart (R259-R261, R302), internal RdOnce and internal writes through the home slices (R233, R291), and the caches of
translations that withdrawals name (R329). -/

namespace Sys2Proof.Machine

open Sys2Proof

/-! ### Lines -/

/-- A home slice serves: it has a unit and neither fails over nor is held. -/
def State.slcServes (s : State) (h : Nat) : Bool :=
  let x := s.slc h
  x.phase == 0 && !x.noSpare && !x.hold

/-- No transaction of a line is open, none waits and its slice serves, so that an internal request is served at once. -/
def State.quiet (s : State) (line : Nat) : Bool :=
  (s.dir line).txn.isNone && (s.dir line).waits == [] && s.slcServes (hsLine line)

/-- An owner's data that an internal RdOnce of the line has brought, while the line still has an owner. -/
def State.peek (s : State) (line : Nat) : Option LineVal :=
  if (s.dir line).owner.isSome then (s.coh.peeks.find? (fun p => p.1 == line)).map (·.2) else none

/-- A unit's RdOnce of a line can be served at once: the line is quiet, its holders are known, and an owner's data has come (R191, R233). -/
def State.readable (s : State) (line : Nat) : Bool :=
  s.quiet line && !s.isUnk line && ((s.dir line).owner.isNone || (s.peek line).isSome)

/-- A unit's write of a line can be served at once: the line is quiet, no cache holds it, no migration holds its frame's writes, and the
merge buffer can take it (R191, R233, R307, R392). -/
def State.writable (s : State) (line : Nat) : Bool :=
  s.quiet line && !s.isUnk line && !((s.dir line).way && (s.dir line).st != .u) && !s.frameHeld (frameOf (line * 128))
    && !s.mergeFull line

/-- The frames, mirrors included, that lines lie in and that are pending a scrub there with no record taken. -/
def State.needRecords (s : State) (ls : List Nat) : List Nat :=
  let need (ppa : Nat) : List Nat := if s.scrubbing ppa && (s.frame (frameOf ppa)).rcd.isNone then [frameOf ppa] else []
  (ls.flatMap (fun l => need (l * 128) ++ ((s.mirrorPpa (l * 128)).map need).getD [])).foldl
    (fun a f => if a.contains f then a else a ++ [f]) []

/-- Sweep records are free for every frame that the writes need one for (R322). -/
def State.recordRoom (s : State) (ls : List Nat) : Bool :=
  decide ((s.needRecords ls).length ≤ ((List.range 256).filter (fun i => !s.chart.sweeps.any (fun p => p.1 == i))).length)

/-- The request by which a unit asks the home slice of a line for an owner's data (`rdonce`), or to take every copy home ahead of its write
(`wrfull`). -/
def Req.ask (id : Nat) (k : Kind) (ext epoch : Nat) (w : Want) : Req :=
  let h : Hdr := {
    (default : Hdr) with agt := 0xFFFF, ctx := w.ctx, cva := w.vpn * 2 ^ 26 + w.line % 2 ^ 19 * 128, len := 128 }
  { Req.arriving id k 32 h [] with
    ppa := w.line * 128, mask := 31, gen := w.gen, ext := ext, epoch := epoch, hadEntry := decide (w.ctx ≠ noCtx), inner := true }

/-- A unit's access finds a line that caches hold: the home slice makes the transaction that R191 gives for it, and the unit goes on when
that has ended (R233, R291). Nothing is asked twice, nor of a slice that does not serve. -/
def State.ask (s : State) (k : Kind) (w : Want) : State :=
  if s.reqs.any (fun q => q.inner && q.kind == k && q.line == w.line) || !s.slcServes (hsLine w.line) then s
  else
    let x := (s.frame (frameOf (w.line * 128))).ext
    let r := Req.ask s.nextReq k ((s.ext x).handle x) s.epochNow w
    (({ s with nextReq := s.nextReq + 1, reqs := s.reqs ++ [r] } : State).joinLine r).work [w.line]

/-- Ask for those of a unit's lines that it cannot yet read or write; frames that lack a sweep record for its writes are served first
(R321). -/
def State.askAll (s : State) (reads writes : List Want) : State :=
  let s1 := reads.foldl (fun t w => if t.readable w.line then t else t.ask .rdonce w) s
  let s2 := writes.foldl (fun t w => if t.writable w.line then t else t.ask .wrfull w) s1
  if s2.recordRoom (writes.map (·.line)) then s2 else (s2.needRecords (writes.map (·.line))).foldl State.touchFrame s2

/-- Every line a unit reads is readable, every line it writes writable, and the writes find their sweep records. -/
def State.clear (s : State) (reads writes : List Want) : Bool :=
  reads.all (fun w => s.readable w.line) && writes.all (fun w => s.writable w.line) && s.recordRoom (writes.map (·.line))

/-- An internal RdOnce of a readable line (R186, R190, R233): the owner's data where it has come, else memory. -/
def State.innerRead (s : State) (ctx vpn line : Nat) : LineVal × State :=
  let s1 := if (s.accAt line).isSome then s.accFlush line else s
  match s1.peek line with
  | some v => (v, s1.dropPeek line)
  | none => s1.lineRead line ctx vpn

/-- An internal write ends ACC mode first (R187, R233). -/
def State.endAcc (s : State) (line : Nat) : State := if (s.accAt line).isSome then s.accEnd line else s

/-- Poison the code words of a line that a range touches, with a reason. -/
def State.poisonRange (s : State) (line o n reason : Nat) : State :=
  let half (t : State) (h : Nat) : State :=
    if n = 0 ∨ 64 * (h + 1) ≤ o ∨ o + n ≤ 64 * h then t
    else
      let t1 := match t.mergeAt line with
        | some e => t.setMerge line { e with mask := dropHalf e.mask h, pois := clrBit e.pois h }
        | none => t
      t1.poisonCw (2 * line + h) reason
  half (half s 0) 1

/-- Bytes kept in an exempt merge-buffer entry of a frame pending scrub while no record is free (R322). -/
def State.holdExempt (s0 : State) (line o : Nat) (bs : Bytes) (pois : Bool) : State :=
  let s := s0.mergeRoom line
  let e := (s.mergeAt line).getD ⟨zeros 128, 0, s.coh.clk, true, 0⟩
  let p := if pois then e.pois ||| (b2n (decide (o < 64)) + 2 * b2n (decide (64 < o + bs.length))) else e.pois
  let mask := if pois then
      e.mask ||| ((if o < 64 then ones64 else 0) + (if 64 < o + bs.length then ones64 * 2 ^ 64 else 0))
    else e.mask ||| ((2 ^ bs.length - 1) * 2 ^ o)
  let e1 : Merge := { e with bytes := splice o bs e.bytes, mask := mask, exempt := true, pois := p }
  ((s.setMerge line e1).tick).touchScrub (line * 128)

/-- An internal write of part of a writable line, `o` + length at most 128; `pois` is the reason of poison written instead. -/
def State.innerWrite (s : State) (line o : Nat) (bs : Bytes) (pois : Option Nat) : State :=
  let s1 := s.endAcc line
  if bs = [] then s1
  else if s1.lostWrite (line * 128) then s1.noteLostWrite line
  else match (s1.pageHint line true 1).prepWrite (line * 128) with
    | none => s1.holdExempt line o bs pois.isSome
    | some s2 => match pois with
      | none => s2.lineWrite line o bs []
      | some r => s2.poisonRange line o bs.length r

/-- An internal write of a whole writable line, poison keeping its reason (R304, R382). -/
def State.innerLine (s : State) (line : Nat) (v : LineVal) : State :=
  let s1 := s.endAcc line
  if s1.lostWrite (line * 128) then s1.noteLostWrite line else (s1.pageHint line true 1).homeData line v

/-- A frame is closed to a context (R543). -/
def State.frameClosed (s : State) (f c : Nat) : Bool := (s.frame f).closedAll || (s.frame f).closedFor.contains c

/-! ### Pages -/

/-- What a unit's translation of a page finds (R55, R259-R261, R302): an entry with the rights wanted; a page (its VPN) it
must wait for; or a status that ends its work: 2 FAULT, 3 REVOKED, 4 VIEW. -/
inductive Page where
  | ok (e : Entry)
  | wait (vpn : Nat)
  | ends (status : Nat)
deriving DecidableEq, Repr, Inhabited

/-- What a valid POOL entry lets a unit do with the rights it needs (R259, R260, R302). -/
def Entry.serves (e : Entry) (need : Nat) : Page :=
  if e.view ≠ 0 then .ends 4 else if e.rights &&& need ≠ need then .ends 2 else .ok e

/-- Translate one page for a unit from the chart: `source` names the unit in fault records (R526), `bad` says that both copies of the
entry were beyond correction (R44). -/
def State.pageFor (s : State) (c vpn need source : Nat) (write bad : Bool) : Page × State :=
  let index := s.ov O.win_base c + vpn
  if s.ov O.win_count c ≤ vpn then (.ends 2, s)
  else
    let e := s.entry index
    if bad then (.ends 2, s.pageFault index 3 c source (vpn * 2 ^ 26) write)
    else if !e.valid then (.wait vpn, s.pageFault index 1 c source (vpn * 2 ^ 26) write)
    else if e.typ = 1 then (.wait vpn, s.pageFault index 2 c source (vpn * 2 ^ 26) write)
    else if e.typ = 2 then (.ends 3, s)
    else (e.serves need, s)

/-- A page waited for has not changed since its fault was posted: its entry is untranslatable with `fault_pend` still set, so
no apply point has touched it and it is not translated again (R525). -/
def State.stillStuck (s : State) (c vpn : Nat) : Bool :=
  let e := s.entry (s.ov O.win_base c + vpn)
  decide (vpn < s.ov O.win_count c) && (!e.valid || e.typ == 1) && e.faultPend

/-- The entry a unit's cache holds for a page. -/
def State.cachedPage (s : State) (unit c vpn : Nat) : Option Entry :=
  ((Tab.get [] s.ecache unit).find? (fun p => p.ctx == c && p.vpn == vpn)).map (·.ent)

/-- Note a translation in a unit's cache of 64 entries, newest first (R244, R329). -/
def State.cachePage (s : State) (unit c vpn : Nat) (e : Entry) : State :=
  let l := (Tab.get [] s.ecache unit).filter (fun p => !(p.ctx == c && p.vpn == vpn))
  { s with ecache := Tab.put [] s.ecache unit ((⟨c, vpn, e⟩ :: l).take 64) }

/-- What the codes of both copies show of a page's entry, from a list by VPN; good where it is not listed. -/
def eccOf (ecc : List (Nat × Nat × Nat)) (vpn : Nat) : Nat × Nat :=
  ((ecc.find? (fun q => q.1 == vpn)).map (·.2)).getD (0, 0)

/-- The chart is read for a page of a window (R44): the second component is the state, the first that both copies are lost. -/
def State.readPage (s : State) (c vpn : Nat) (ecc : List (Nat × Nat × Nat)) : Bool × State :=
  let x := eccOf ecc vpn
  if s.ov O.win_count c ≤ vpn then (false, s) else s.readChart (s.ov O.win_base c + vpn) x.1 x.2

/-- Translate one page for a unit, in its cache or else in the chart (R244, R329). -/
def State.pageVia (s : State) (unit source c : Nat) (ecc : List (Nat × Nat × Nat)) (vpn need : Nat) : Page × State :=
  match s.cachedPage unit c vpn with
  | some e => (e.serves need, s)
  | none =>
    let q := s.readPage c vpn ecc
    q.2.pageFor c vpn need source (need &&& 14 != 0) q.1

/-- Translate several pages with the rights each needs: all entries, or the first that waits or ends. -/
def State.pagesFor (s : State) (unit source c : Nat) (ecc : List (Nat × Nat × Nat)) :
    List (Nat × Nat) → Page × List (Nat × Entry) × State
  | [] => (.ok Entry.none, [], s)
  | (vpn, need) :: t =>
    let p := s.pageVia unit source c ecc vpn need
    match p.1 with
    | .ok e =>
      let r := State.pagesFor (p.2.cachePage unit c vpn e) unit source c ecc t
      (r.1, (vpn, e) :: r.2.1, r.2.2)
    | q => (q, [], p.2)

/-- The pool address of a CVA under the entries a unit translated. -/
def placeOf (trs : List (Nat × Entry)) (cva : Nat) : Nat :=
  match trs.find? (fun p => p.1 == cva / 2 ^ 26) with
  | some (_, e) => e.frame * 2 ^ 26 + cva % 2 ^ 26
  | none => 0

/-- The lines (by CVA div 128) that byte ranges of CVAs touch, ascending in each range, each once. -/
def cvaLines (rs : List (Nat × Nat)) : List Nat :=
  (rs.flatMap (fun r => if r.2 = 0 then [] else
    (List.range ((r.1 + r.2 - 1) / 128 - r.1 / 128 + 1)).map (fun i => r.1 / 128 + i))).foldl
      (fun a l => if a.contains l then a else a ++ [l]) []

/-- The pages byte ranges touch, each once. -/
def cvaPages (rs : List (Nat × Nat)) : List Nat :=
  (rs.flatMap (fun r => if r.2 = 0 then [] else
    (List.range ((r.1 + r.2 - 1) / 2 ^ 26 - r.1 / 2 ^ 26 + 1)).map (fun i => r.1 / 2 ^ 26 + i))).foldl
      (fun a l => if a.contains l then a else a ++ [l]) []

/-- Read lines, by CVA div 128, of a context. -/
def State.gatherCva (s : State) (c : Nat) (trs : List (Nat × Entry)) : List Nat → Gather × State
  | [] => ([], s)
  | l :: t =>
    let q := s.innerRead c (l / 2 ^ 19) (placeOf trs (l * 128) / 128)
    let p := State.gatherCva q.2 c trs t
    ((l, q.1) :: p.1, p.2)

/-- The places of a run of bytes with their poison, cut where code words end. -/
def cutPieces (trs : List (Nat × Entry)) : Nat → Nat → List (Byte × Bool) → List Piece
  | 0, _, _ => []
  | _, _, [] => []
  | fuel + 1, cva, bs =>
    let n := 64 - cva % 64
    let a := bs.take n
    ⟨placeOf trs cva, a.map (·.1), a.any (·.2)⟩ :: cutPieces trs fuel (cva + n) (bs.drop n)

/-- The pieces of a run of bytes. -/
def piecesOf (trs : List (Nat × Entry)) (cva : Nat) (bs : List (Byte × Bool)) : List Piece :=
  cutPieces trs (bs.length / 64 + 2) cva bs

/-- The line of a piece as a unit wants it under its translation. -/
def pieceWant (trs : List (Nat × Entry)) (c : Nat) (p : Piece) : Want :=
  let e := (trs.find? (fun q => q.2.frame == frameOf p.ppa)).getD (0, Entry.none)
  ⟨c, e.1, e.2.gen, p.ppa / 128⟩

/-- Write pieces, poison with a reason. -/
def State.writePieces (s : State) (reason : Nat) : List Piece → State
  | [] => s
  | p :: t =>
    State.writePieces (s.innerWrite (p.ppa / 128) (p.ppa % 128) p.bs (if p.pois then some reason else none)) reason t

/-- A line at a CVA as a unit wants it under its translation. -/
def wantAt (trs : List (Nat × Entry)) (c cva : Nat) : Want :=
  ⟨c, cva / 2 ^ 26, ((trs.find? (fun p => p.1 == cva / 2 ^ 26)).map (·.2.gen)).getD 0, placeOf trs cva / 128⟩

/-- The lines of byte ranges of CVAs. -/
def wantsOf (trs : List (Nat × Entry)) (c : Nat) (rs : List (Nat × Nat)) : List Want :=
  (cvaLines rs).map (fun l => wantAt trs c (l * 128))

/-! ### Deficit round robin over contexts (R421) -/

/-- One pick: `work` lists the contexts with work that may be served, with the cost of each one's head item; the groups take
turns by deficit, and the contexts of a group in turn. The context served, and the place afterwards. -/
def State.drrPick (s : State) (d : Drr) (work : List (Nat × Nat)) : Option Nat × Drr :=
  let ofGroup (g : Nat) : List (Nat × Nat) := work.filter (fun w => s.ov O.svc_group w.1 == g)
  let head (g : Nat) : Option (Nat × Nat) :=
    let l := ofGroup g
    let last := Tab.get 0 d.turn g
    match l.find? (fun w => decide (last ≤ w.1)) with
    | some w => some w
    | none => l.head?
  let quantum (g : Nat) : Nat := s.ov O.sg_quantum g
  let fuel := 64 * (work.foldl (fun a w => max a (w.2 / 1024)) 0 + 3)
  match drrTurn quantum (fun g => (head g).map (·.2)) fuel d.group (!d.entered) d.deficit with
  | none => (none, d)
  | some (g, def_) =>
    match head g with
    | none => (none, d)
    | some w => (some w.1, ⟨g, true, def_, Tab.put 0 d.turn g (w.1 + 1)⟩)

end Sys2Proof.Machine
end

