-- ==== Sys2Proof/Machine/Units.lean ====
section
/-! DEFINITION. Sys2Proof/Machine/Units.lean: physical and logical units and the sparing table (R14-R23). Kinds are as `unit_kind`:
0 home slice, 1 compute tile, 2 tender engine. -/

namespace Sys2Proof.Machine

open Sys2Proof

def Unit.dflt : Unit := ⟨0, 0, 0, 0, 0⟩

/-- The sector a physical unit stands in (R14). -/
def unitSector (kind p : Nat) : Nat :=
  match kind with
  | 0 => p / 9
  | 1 => p / 17
  | _ => if p < 16 then p / 4 else 0

def State.setPhys (s : State) (kind n p : Nat) : State :=
  { s with maps := Tab.put (dfltPhys kind n) s.maps (kind * 256 + n) p }

def State.unit (s : State) (kind p : Nat) : Unit := Tab.get Unit.dflt s.units (kind * 256 + p)

/-- A unit changes state: the inventory sequence moves when its state does (R22, R25). -/
def State.setUnit (s : State) (kind p : Nat) (u : Unit) : State :=
  let s1 := { s with units := Tab.put Unit.dflt s.units (kind * 256 + p) u }
  if (s.unit kind p).st = u.st then s1 else s1.bump O.inventory_seq

/-- The logical role of a physical unit. -/
def State.roleOf (s : State) (kind p : Nat) : Option Nat := (List.range (logCount kind)).find? (fun n => s.physOf kind n == p)

/-- The state of a physical unit as its record gives it: 0 LIT, 1 SPARE, 2 DARK, 3 REPAIRING (R22, Table 6). -/
def State.unitState (s : State) (kind p : Nat) : Nat :=
  let u := s.unit kind p
  if u.st = 0 then (if (s.roleOf kind p).isSome then 0 else 1) else u.st

/-- A logical unit has a LIT physical unit. -/
def State.lit (s : State) (kind n : Nat) : Bool :=
  let p := s.physOf kind n
  p != 255 && (s.unit kind p).st == 0

/-- The unit record of a physical unit (Table 6). -/
def State.unitRecord (s : State) (kind p : Nat) : Nat :=
  let role := s.roleOf kind p
  let isLit := s.unitState kind p == 0
  unitSector kind p * 2 ^ 24 + s.unitState kind p * 2 ^ 20 + b2n (kind == 2 && decide (16 ≤ p)) * 2 ^ 19 + b2n isLit * 2 ^ 18
    + (s.unit kind p).cause * 2 ^ 8 + (if isLit then role.getD 0 else 0)

/-- The sector a spare can share with a failed unit; the tender engines of the management island stand in none (R14, R18). -/
def sparingSector (kind p : Nat) : Option Nat := if kind = 2 ∧ 16 ≤ p then none else some (unitSector kind p)

/-- The spare R18 gives a role to: in the same sector if one is there, else the lowest-numbered. -/
def State.spareFor (s : State) (kind p : Nat) : Option Nat :=
  let spares := (List.range (physCount kind)).filter (fun q => s.unitState kind q == 1)
  match spares.find? (fun q => (sparingSector kind p).isSome && sparingSector kind q == sparingSector kind p) with
  | some q => some q
  | none => spares.head?

/-- The `detail` of a unit event (R702). -/
def unitDetail (kind logical cause : Nat) : Nat := kind + logical % 256 * 2 ^ 8 + cause * 2 ^ 16

/-- A spare takes a role (R18, R593). -/
def State.takeRole (s : State) (kind n q : Nat) : State :=
  ((s.setPhys kind n q).bump O.inventory_seq).event 0x02 2 q noCtx (unitDetail kind n 0)

/-- A logical unit that lost its physical unit `p` gets a spare, or is left without one (R18, R23). -/
def State.giveSpare (s : State) (kind n p : Nat) : State :=
  match s.spareFor kind p with
  | some q => s.takeRole kind n q
  | none => (s.setPhys kind n (256 + p)).event 0x04 1 n noCtx (unitDetail kind n 0)

/-- The logical units of a kind with no LIT physical unit, in order of the failed physical numbers (R20). -/
def State.homeless (s : State) (kind : Nat) : List Nat :=
  (List.range (physCount kind)).flatMap (fun p =>
    (List.range (logCount kind)).filter (fun n => !s.lit kind n && s.lastPhys kind n == p))

end Sys2Proof.Machine
end

