-- ==== Sys2Proof/Machine/Recipes.lean ====
section
/-! DEFINITION. Sys2Proof/Machine/Recipes.lean: step recipes: images, their checks (R266, R272), the operations (R269), the
built-in recipes (R276, R277), and the values of a strip's elements as its operations run (R267, R268, R270). -/

namespace Sys2Proof.Machine

open Sys2Proof

/-! ### Exact helpers -/

/-- The integer square root, by bits from `2 ^ n` down. -/
def isqrtGo (x : Nat) : Nat → Nat → Nat
  | 0, r => r
  | n + 1, r =>
    let r' := r + 2 ^ n
    isqrtGo x n (if r' * r' ≤ x then r' else r)

/-- The exact quotient to 160 places with a sticky bit; x ÷ 0 and infinities as IEEE 754 (R269). -/
def Val.div : Val → Val → Val
  | .nan, _ => .nan
  | _, .nan => .nan
  | .inf _, .inf _ => .nan
  | .inf a, .fin b _ _ => .inf (a != b)
  | .fin a _ _, .inf b => .fin (a != b) 0 0
  | .fin a m1 e1, .fin b m2 e2 =>
    if m2 = 0 then (if m1 = 0 then .nan else .inf (a != b))
    else
      let n := m1 * 2 ^ 160
      .fin (a != b) (2 * (n / m2) + b2n (n % m2 != 0)) (e1 - e2 - 161)

/-- The square root to about 128 places with a sticky bit. -/
def Val.sqrt : Val → Val
  | .nan => .nan
  | .inf n => if n then .nan else .inf false
  | .fin n m e =>
    if m = 0 then .fin n 0 0
    else if n then .nan
    else
      let k : Int := if e % 2 = 0 then 256 else 257
      let x := m * 2 ^ k.toNat
      let r := isqrtGo x 170 0
      .fin false (2 * r + b2n (r * r != x)) ((e - k) / 2 - 1)

/-! ### Working values -/

/-- The working format of a recipe: FP32 or FP64 (R266). -/
def wfmt (fp64 : Bool) : Nat := if fp64 then 0 else 1

/-- A working value, and how many overflows to infinity its computation made (R217). -/
structure Wk where
  v : Nat
  n : Nat
deriving DecidableEq, Repr, Inhabited

/-- A value that no overflow made. -/
def Wk.of (v : Nat) : Wk := ⟨v, 0⟩

/-- Go on from a working value, counting the overflows of both parts. -/
def Wk.bind (x : Wk) (f : Nat → Wk) : Wk :=
  let y := f x.v
  ⟨y.v, x.n + y.n⟩

/-- Round to the working precision under nearest-even, counting an overflow (R217, R267). -/
def wrkC (fp64 : Bool) (v : Val) : Wk :=
  let c := elemEncode (wfmt fp64) .rne v
  ⟨c.enc, b2n c.sat⟩

/-- Round to the working precision under nearest-even. -/
def wrk (fp64 : Bool) (v : Val) : Nat := (wrkC fp64 v).v

def wval (fp64 : Bool) (x : Nat) : Val := elemDecode (wfmt fp64) x

def wNan (fp64 : Bool) : Nat := wrk fp64 .nan

/-- The working format as a layout. -/
def wFp (fp64 : Bool) : Fp := if fp64 then ⟨11, 52, 1023, true, false⟩ else ⟨8, 23, 127, true, false⟩

/-- The place of a magnitude among the representable ones, cut toward zero: the encoding it would have were the exponent unbounded above. -/
def Fp.ordinal (p : Fp) (m : Nat) (e : Int) : Nat :=
  let qmin := 1 - p.bias - p.mb
  let q := max (floorLog m e - p.mb) qmin
  (q - qmin).toNat * 2 ^ p.mb + roundAt .rtz m e q

/-- The magnitude is the one at a place. -/
def Fp.atOrdinal (p : Fp) (m : Nat) (e : Int) : Bool :=
  let qmin := 1 - p.bias - p.mb
  let q := max (floorLog m e - p.mb) qmin
  decide (q ≤ e) || m % 2 ^ (q - e).toNat == 0

/-- A result within `n` units in the last place of a value, a unit being a step between representable values: which of them is free (R269:
nothing is bit-exact; log 10). Special results are as IEEE 754; a finite value that comes out as infinity is an overflow (R217). -/
def near (fp64 : Bool) (n tag : Nat) (args : List Nat) (v : Val) : Wk :=
  match v with
  | .fin neg m e =>
    if m = 0 then .of (wrk fp64 v)
    else
      let p := wFp fp64
      let t := p.ordinal m e
      let lo := t - (if p.atOrdinal m e then n else n - 1)
      let x := lo + Config.tileFn tag args % (t + n - lo + 1)
      ⟨p.sign neg + min x (p.maxEnc + 1), b2n (decide (p.maxEnc < x))⟩
  | _ => .of (wrk fp64 v)

/-! ### e and ln to 256 places (R269) -/

/-- Places of the fixed-point numbers below. -/
def fixBits : Nat := 256

/-- Σ z^(2k+1) ÷ (2k+1) of a fixed-point z of at most ⅓, from a term z^(2k+1) on: the inverse hyperbolic tangent. -/
def atanhGo (zz : Nat) : Nat → Nat → Nat → Nat
  | 0, _, _ => 0
  | fuel + 1, k, term => term / (2 * k + 1) + atanhGo zz fuel (k + 1) (term * zz / 2 ^ fixBits)

/-- atanh (a ÷ b), fixed-point. -/
def atanhFix (a b : Nat) : Nat :=
  let z := a * 2 ^ fixBits / b
  atanhGo (z * z / 2 ^ fixBits) 90 0 z

/-- ln 2, fixed-point: 2 atanh ⅓. -/
def ln2Fix : Nat := 2 * atanhFix 1 3

/-- Σ r^i ÷ i! of a fixed-point r below 1, from a term on. -/
def expGo (r : Nat) : Nat → Nat → Nat → Nat
  | 0, _, _ => 0
  | fuel + 1, i, term => term + expGo r fuel (i + 1) (term * r / 2 ^ fixBits / (i + 1))

/-- e to a nonzero finite power, close enough to place it between representable values: a sticky bit stands for what is cut off. Powers
beyond every format's range come out as 2^±10000. -/
def expVal (neg : Bool) (m : Nat) (e : Int) : Val :=
  if 12 ≤ floorLog m e then .fin false 1 (if neg then -10000 else 10000)
  else if floorLog m e < -200 then Val.add (.fin false 1 0) (.fin neg m e)
  else
    let x : Int := (m * 2 ^ (e + fixBits).toNat : Nat)
    let y : Int := if neg then -x else x
    let k := y / ln2Fix
    let s := expGo (y - k * ln2Fix).toNat 70 0 (2 ^ fixBits)
    .fin false (2 * s + 1) (k - fixBits - 1)

/-- The natural logarithm of a positive value other than 1, likewise. -/
def logVal (m : Nat) (e : Int) : Val :=
  let d := 2 ^ Nat.log2 m
  let y : Int := floorLog m e * ln2Fix + 2 * atanhFix (m - d) (m + d)
  .fin (decide (y < 0)) (2 * y.natAbs + 1) (-(fixBits : Int) - 1)

/-! ### Operations (R269) -/

/-- A free number of the working format (log 10). -/
def freeOf (fp64 : Bool) (tag : Nat) (args : List Nat) : Nat := Config.tileFn tag args % 2 ^ (if fp64 then 64 else 32)

def wAdd (p : Bool) (a b : Nat) : Wk := near p 1 2 [a, b] (Val.add (wval p a) (wval p b))
def wSub (p : Bool) (a b : Nat) : Wk := near p 1 3 [a, b] (Val.add (wval p a) (Val.neg (wval p b)))
def wMul (p : Bool) (a b : Nat) : Wk := near p 1 4 [a, b] (Val.mul (wval p a) (wval p b))
def wDiv (p : Bool) (a b : Nat) : Wk := near p 1 5 [a, b] (Val.div (wval p a) (wval p b))
def wSqrt (p : Bool) (a : Nat) : Wk := near p 1 0xD [a] (Val.sqrt (wval p a))
def wFma (p : Bool) (a b c : Nat) : Wk :=
  near p 1 6 [a, b, c] (Val.add (Val.mul (wval p a) (wval p b)) (wval p c))

/-- Change the sign of a working value. -/
def wNeg (p : Bool) (a : Nat) : Nat := wrk p (Val.neg (wval p a))

/-- 1 in the working format. -/
def wOne (p : Bool) : Nat := wrk p (.fin false 1 0)

/-- a < b, false where either is NaN. -/
def wLt (p : Bool) (a b : Nat) : Bool := (Val.lt? (wval p a) (wval p b)).getD false

def wIsNan (p : Bool) (a : Nat) : Bool := (wval p a).isNan

/-- K × a + (1 − K) × b (R269). -/
def wLerp (p : Bool) (k a b : Nat) : Wk :=
  (wMul p k a).bind (fun x => (wSub p (wOne p) k).bind (fun r => (wMul p r b).bind (fun y => wAdd p x y)))

/-- The result of an elementwise operation (R269), K being the constant already in the working format. -/
def opValue (p : Bool) (op a b c k : Nat) : Wk :=
  let sign (v : Val) : Bool := v.isNeg
  match op with
  | 0x01 => .of a
  | 0x02 => wAdd p a b
  | 0x03 => wSub p a b
  | 0x04 => wMul p a b
  | 0x05 => wDiv p a b
  | 0x06 => wFma p a b c
  | 0x07 => near p 1 7 [a, b, c] (Val.add (Val.mul (wval p a) (wval p b)) (Val.neg (wval p c)))
  | 0x08 => .of (wNeg p a)
  | 0x09 => .of (if sign (wval p a) then wNeg p a else a)
  | 0x0A => .of (
    if wIsNan p a || wIsNan p b then (if Config.tileFn 0xA [a, b] % 2 = 0 then a else b)
    else if wLt p b a then b else a)
  | 0x0B => .of (
    if wIsNan p a || wIsNan p b then (if Config.tileFn 0xB [a, b] % 2 = 0 then a else b)
    else if wLt p a b then b else a)
  | 0x0C => wMul p a a
  | 0x0D => wSqrt p a
  | 0x0E => near p 1 0xE [a] (Val.div (.fin false 1 0) (Val.sqrt (wval p a)))
  | 0x0F => near p 1 0xF [a] (Val.div (.fin false 1 0) (wval p a))
  | 0x10 => match wval p a with
    | .nan => .of (wNan p)
    | .inf n => .of (if n then 0 else a)
    | .fin n m e => near p 2 0x10 [a] (if m = 0 then .fin false 1 0 else expVal n m e)
  | 0x11 => match wval p a with
    | .nan => .of (wNan p)
    | .inf n => .of (if n then wNan p else a)
    | .fin n m e =>
      if m = 0 then .of (wrk p (.inf true))
      else if n then .of (wNan p)
      else if a = wOne p then .of 0
      else near p 2 0x11 [a] (logVal m e)
  | 0x12 => .of k
  | 0x13 => wAdd p a k
  | 0x14 => wMul p a k
  | 0x15 => wFma p a k b
  | 0x16 => wSub p k a
  | 0x17 => wLerp p k a b
  | 0x18 => (wMul p b b).bind (wLerp p k a)
  | 0x19 => (wSqrt p b).bind (fun r => (wAdd p r k).bind (wDiv p a))
  | 0x1A => .of (
    if wIsNan p a || wIsNan p k then wNan p
    else if wLt p k a then k else if wLt p a (wNeg p k) then wNeg p k else a)
  | 0x1B => .of (match wval p a with
    | .nan => a
    | .inf n => wrk p (.fin n 1 0)
    | .fin n m _ => if m = 0 then 0 else wrk p (.fin n 1 0))
  | 0x1C => .of (if wLt p b a then wOne p else 0)
  | 0x1D => .of (if wIsNan p a || wIsNan p b then 0 else if wLt p a b then 0 else wOne p)
  | 0x1E => .of (if wIsNan p a then c else if wLt p a 0 then c else b)
  | 0x1F => .of (match wval p a with
    | .fin _ _ _ => wOne p
    | _ => 0)
  | _ => .of 0

/-! ### Images (R266, R272) -/

/-- Operation `j` of an image: op, dst, a, b, c, k and the reserved bits (R266). -/
structure ROp where
  op : Nat
  dst : Nat
  a : Nat
  b : Nat
  c : Nat
  k : Nat
  rsv : Nat
deriving DecidableEq, Repr, Inhabited

def byteAt (bs : Bytes) (i : Nat) : Nat := (bs.getD i 0).toNat

def ropAt (img : Bytes) (j : Nat) : ROp :=
  let o := 64 + 8 * j
  ⟨byteAt img o, byteAt img (o + 1), byteAt img (o + 2), byteAt img (o + 3), byteAt img (o + 4),
    byteAt img (o + 5) % 32, byteAt img (o + 5) / 32 + byteAt img (o + 6) + byteAt img (o + 7)⟩

def recipeOps (img : Bytes) : List ROp := (List.range (byteAt img 1)).map (ropAt img)

/-- Source slots an operation reads: how many of a, b and c (R269). -/
def opReads (op : Nat) : Nat :=
  if op ∈ [0x12, 0x26, 0x28] then 0
  else if op ∈ [0x02, 0x03, 0x04, 0x05, 0x0A, 0x0B, 0x15, 0x17, 0x18, 0x19, 0x1C, 0x1D] then 2
  else if op ∈ [0x06, 0x07, 0x1E] then 3
  else 1

/-- The slots an operation reads as elements; ROWGET and COLGET read their stream another way. -/
def ROp.srcs (o : ROp) : List Nat := if o.op = 0x24 ∨ o.op = 0x25 then [] else [o.a, o.b, o.c].take (opReads o.op)

/-- The operation writes its destination slot. -/
def ROp.writes (o : ROp) : Bool := !(o.op ∈ [0x20, 0x21, 0x22, 0x23, 0x28])

/-- A slot code that may be read or written: a stream or a temporary (R266). -/
def slotOk (x : Nat) : Bool := decide (x ≤ 5 ∨ (8 ≤ x ∧ x ≤ 15))

def ropOk (o : ROp) (written : List Nat) : Bool :=
  decide (1 ≤ o.op ∧ o.op ≤ 0x28) && o.rsv == 0 && o.srcs.all (fun x => slotOk x && (decide (x < 8) || written.contains x))
    && [o.a, o.b, o.c].all (fun x => slotOk x || x == 6) && (slotOk o.dst || o.dst == 6)
    && (!o.writes || slotOk o.dst)
    && (!(o.op ∈ [0x22, 0x23]) || decide (o.dst ≤ 5))
    && (!(o.op ∈ [0x24, 0x25]) || decide (o.a ≤ 5))
    && (o.op != 0x27 || decide (o.k ≤ 0xE))

def ropsOk : List ROp → List Nat → Bool
  | [], _ => true
  | o :: t, w => ropOk o w && ropsOk t (if o.writes then o.dst :: w else w)

/-- A recipe image is well-formed (R266, R272). -/
def imageOk (img : Bytes) : Bool :=
  img.length == 1024 && byteAt img 0 == 1 && decide (1 ≤ byteAt img 1 ∧ byteAt img 1 ≤ 32) && decide (byteAt img 2 ≤ 1)
    && byteAt img 3 == 0 && (slice 36 28 img).all (· == 0)
    && (img.drop (64 + 8 * byteAt img 1)).all (· == 0) && ropsOk (recipeOps img) []

/-- Slots read before any operation writes them. -/
def readFirst : List ROp → List Nat → List Nat
  | [], _ => []
  | o :: t, w => (o.srcs.filter (fun x => !w.contains x)) ++ readFirst t (if o.writes then o.dst :: w else w)

def slotsWritten (ops : List ROp) : List Nat := (ops.filter ROp.writes).map (·.dst)

/-- Streams an operation reads or adds to by row or column: the operation, its stream and its constant. -/
def rowCol (ops : List ROp) : List (Nat × Nat × Nat) :=
  (ops.filter (fun o => decide (0x22 ≤ o.op ∧ o.op ≤ 0x25))).map
    (fun o => (o.op, if o.op ≤ 0x23 then o.dst else o.a, o.k))

/-! ### Built-in recipes (R276, R277) -/

/-- An image from a name and operations as byte lists. -/
def mkImage (name : List Nat) (ops : List (List Nat)) : Bytes :=
  let b (l : List Nat) : Bytes := l.map (fun x => BitVec.ofNat 8 x)
  fitTo 1024 (b [1, ops.length, 0, 0] ++ fitTo 32 (b name) ++ zeros 28 ++ (ops.flatMap (fun o => fitTo 8 (b o))))

/-- The built-in recipes 0x01 to 0x0A. ADAMW is R277's table; the operations of the others compute R276's equations and
their order is this model's (log 11). -/
def builtin (n : Nat) : Option Bytes :=
  match n with
  | 1 => some (mkImage [0x41, 0x44, 0x41, 0x4D, 0x57]
    [[0x14, 8, 0, 6, 6, 7], [0x17, 1, 1, 8, 6, 1], [0x18, 2, 2, 8, 6, 2], [0x14, 9, 1, 6, 6, 5], [0x14, 10, 2, 6, 6, 6],
     [0x19, 11, 9, 10, 6, 3], [0x15, 11, 3, 11, 6, 4], [0x14, 11, 11, 6, 6, 0], [0x03, 3, 3, 11, 6, 0],
     [0x01, 4, 3, 6, 6, 0]])
  | 2 => some (mkImage [0x41, 0x44, 0x41, 0x4D]
    [[0x14, 8, 0, 6, 6, 7], [0x15, 8, 3, 8, 6, 4], [0x17, 1, 1, 8, 6, 1], [0x18, 2, 2, 8, 6, 2], [0x14, 9, 1, 6, 6, 5],
     [0x14, 10, 2, 6, 6, 6], [0x19, 11, 9, 10, 6, 3], [0x14, 11, 11, 6, 6, 0], [0x03, 3, 3, 11, 6, 0],
     [0x01, 4, 3, 6, 6, 0]])
  | 3 => some (mkImage [0x4C, 0x49, 0x4F, 0x4E]
    [[0x14, 8, 0, 6, 6, 7], [0x17, 9, 1, 8, 6, 1], [0x1B, 9, 9, 6, 6, 0], [0x15, 9, 3, 9, 6, 4], [0x14, 9, 9, 6, 6, 0],
     [0x03, 3, 3, 9, 6, 0], [0x17, 1, 1, 8, 6, 2], [0x01, 4, 3, 6, 6, 0]])
  | 4 => some (mkImage [0x53, 0x47, 0x44, 0x4D]
    [[0x14, 8, 0, 6, 6, 7], [0x15, 8, 3, 8, 6, 4], [0x15, 1, 1, 8, 6, 1], [0x14, 9, 1, 6, 6, 0], [0x03, 3, 3, 9, 6, 0],
     [0x01, 4, 3, 6, 6, 0]])
  | 5 => some (mkImage [0x4C, 0x41, 0x4D, 0x42, 0x5F, 0x41]
    [[0x14, 8, 0, 6, 6, 7], [0x17, 1, 1, 8, 6, 1], [0x18, 2, 2, 8, 6, 2], [0x14, 9, 1, 6, 6, 5], [0x14, 10, 2, 6, 6, 6],
     [0x19, 11, 9, 10, 6, 3], [0x15, 5, 3, 11, 6, 4], [0x21, 6, 3, 6, 6, 30], [0x21, 6, 5, 6, 6, 31]])
  | 6 => some (mkImage [0x4C, 0x41, 0x4D, 0x42, 0x5F, 0x42]
    [[0x12, 8, 6, 6, 6, 30], [0x12, 9, 6, 6, 6, 31], [0x0D, 10, 8, 6, 6, 0], [0x0D, 11, 9, 6, 6, 0],
     [0x05, 10, 10, 11, 6, 0], [0x26, 12, 6, 6, 6, 0], [0x0A, 13, 8, 9, 6, 0], [0x1C, 13, 13, 12, 6, 0],
     [0x08, 14, 13, 6, 6, 0],
     [0x1D, 15, 12, 12, 6, 0], [0x1E, 10, 14, 15, 10, 0], [0x04, 10, 10, 5, 6, 0], [0x14, 10, 10, 6, 6, 0],
     [0x03, 3, 3, 10, 6, 0], [0x01, 4, 3, 6, 6, 0]])
  | 7 => some (mkImage [0x41, 0x46, 0x5F, 0x44, 0x45, 0x43, 0x41, 0x59, 0x5F, 0x52]
    [[0x14, 2, 2, 6, 6, 2], [0x20, 6, 2, 6, 6, 12]])
  | 8 => some (mkImage [0x41, 0x46, 0x5F, 0x44, 0x45, 0x43, 0x41, 0x59, 0x5F, 0x43]
    [[0x14, 2, 2, 6, 6, 2]])
  | 9 => some (mkImage [0x41, 0x46, 0x5F, 0x53, 0x54, 0x41, 0x54, 0x53]
    [[0x14, 8, 0, 6, 6, 7], [0x0C, 8, 8, 6, 6, 0], [0x13, 8, 8, 6, 6, 3], [0x14, 8, 8, 6, 6, 10],
     [0x22, 2, 8, 6, 6, 8], [0x23, 5, 8, 6, 6, 8], [0x20, 6, 8, 6, 6, 12]])
  | 10 => some (mkImage [0x41, 0x46, 0x5F, 0x41, 0x50, 0x50, 0x4C, 0x59]
    [[0x14, 8, 0, 6, 6, 7], [0x24, 9, 2, 6, 6, 8], [0x25, 10, 5, 6, 6, 8], [0x04, 9, 9, 10, 6, 0],
     [0x12, 10, 6, 6, 6, 12], [0x05, 9, 9, 10, 6, 0], [0x0E, 9, 9, 6, 6, 0], [0x04, 8, 8, 9, 6, 0],
     [0x17, 1, 1, 8, 6, 1], [0x01, 8, 1, 6, 6, 0], [0x15, 8, 3, 8, 6, 4], [0x14, 8, 8, 6, 6, 0], [0x03, 3, 3, 8, 6, 0],
     [0x01, 4, 3, 6, 6, 0]])
  | _ => none

/-- The operations a STEP runs. AF_APPLY's M1 is optional: without it the two operations that pass through M1 are left out
(R276). -/
def stepOps (n smask : Nat) (img : Bytes) : List ROp :=
  let ops := recipeOps img
  if n = 10 ∧ !smask.testBit 1 then ops.filter (fun o => !(o.op == 0x17) && !(o.op == 0x01 && o.a == 1)) else ops

/-! ### A strip's elements -/

/-- Elements of a strip in a slot: working bits and whether they depend on poison. -/
abbrev Col := List (Nat × Bool)

/-- A contribution of a reduction operation: target CVA, value and poison. -/
abbrev Contrib := Nat × Nat × Bool

/-- What running operations yields: slots, contributions in FP32, counts of saturations and NaNs, and the strip's generator. -/
structure Run where
  slots : Tab Col
  contribs : List Contrib
  sats : Nat
  nanInts : Nat
  gen : SrGen
deriving DecidableEq, Repr, Inhabited

/-- A value with the poison and the overflows of its making. -/
structure Cell where
  v : Nat
  pois : Bool
  n : Nat
deriving DecidableEq, Repr, Inhabited

def Wk.cell (x : Wk) (pois : Bool) : Cell := ⟨x.v, pois, x.n⟩

/-- The overflows of a run of values. -/
def cellSats (cs : List Cell) : Nat := (cs.map Cell.n).foldl (· + ·) 0

def cellCol (cs : List Cell) : Col := cs.map (fun c => (c.v, c.pois))

/-- A run of elements converted to a format and back. -/
structure Quant where
  cells : List Cell
  sats : Nat
  nanInts : Nat
  gen : SrGen
deriving DecidableEq, Repr, Inhabited

/-- QUANT: a run of elements through a format and back to the working precision, MX formats by aligned blocks of 32 (R209, R269). Under
stochastic rounding its elements draw from the strip's generator in ascending order, two draws each for SB32 (R215); that an operation draws
in its turn, before the stored streams, is the model's choice [DESIGN CHOICE, log 103]. -/
def quantCol (p : Bool) (f round : Nat) (g : SrGen) (xs : Col) : Quant :=
  if isMx f then
    let ds := SrGen.rnds round xs.length g
    let blocks := (List.range (ceilDiv xs.length 32)).map (fun b =>
      let blk := (xs.drop (32 * b)).take 32
      let vs := blk.map (fun x => wval p x.1)
      let pad := vs ++ List.replicate (32 - vs.length) (.fin false 0 0)
      let e := mxEncode f (wfmt p) pad ((List.range 32).map (fun i => ds.1.getD (32 * b + i) .rne))
      let pois := blk.any (·.2)
      ((e.2.1.take blk.length).map (fun x => (wrkC p (mxDecode f e.1 x)).cell pois), e.2.2))
    ⟨blocks.flatMap (·.1), (blocks.map (·.2)).foldl (· + ·) 0, 0, ds.2⟩
  else if f = 0xE then
    let ds := SrGen.rnds round (2 * xs.length) g
    let es := xs.zipIdx.map (fun x =>
      (sbEncode (ds.1.getD (2 * x.2) .rne) (ds.1.getD (2 * x.2 + 1) .rne) (wval p x.1.1), x.1.2))
    ⟨es.map (fun e => (wrkC p (sbDecode e.1.1 e.1.2.1)).cell e.2), (es.filter (·.1.2.2)).length, 0, ds.2⟩
  else
    let ds := SrGen.rnds round xs.length g
    let cs := (xs.zip ds.1).map (fun x => (elemEncode f x.2 (wval p x.1.1), x.1.2))
    ⟨cs.map (fun c => (wrkC p (elemDecode f c.1.enc)).cell c.2), (cs.filter (·.1.sat)).length, (cs.filter (·.1.nanInt)).length, ds.2⟩

/-- The working value as FP32 bits. -/
def toF32 (p : Bool) (x : Nat) : Wk :=
  if p then
    let c := elemEncode 1 .rne (wval p x)
    ⟨c.enc, b2n c.sat⟩
  else .of x

/-- A constant of a row or column operation as a number; 1 stands for what R270 refuses. -/
def kNum (k32 : Nat) : Nat :=
  match elemDecode 1 k32 with
  | .fin false m e => max 1 (if 0 ≤ e then m * 2 ^ e.toNat else m / 2 ^ (-e).toNat)
  | _ => 1

/-- What the operations of a strip work on: the precision, the rounding, the first element and the number of elements, the place of the
constants and their FP32 bits, element `i` of a stream slot (ROWGET, COLGET), and the CVA of element `i` of a stream slot that reductions
may target (ROWACC, COLACC). -/
structure Scene where
  p : Bool
  round : Nat
  lo : Nat
  n : Nat
  constCva : Nat
  ks : List Nat
  get : Nat → Nat → Cell
  tgt : Nat → Nat → Option Nat

/-- The contributions of a reduction operation: each element's target, where there is one, and its value in FP32 (R270). -/
def Scene.contribs (c : Scene) (tgt : Nat → Option Nat) (val : Nat → Wk) (xs : Col) : List (Nat × Cell) :=
  xs.zipIdx.filterMap (fun x => (tgt (c.lo + x.2)).map (fun a => (a, ((val x.1.1).bind (toF32 c.p)).cell x.1.2)))

/-- Add contributions to a run. -/
def Run.addContribs (r : Run) (cs : List (Nat × Cell)) : Run :=
  { r with contribs := r.contribs ++ cs.map (fun c => (c.1, c.2.v, c.2.pois)), sats := r.sats + cellSats (cs.map (·.2)) }

/-- Put a column into a slot. -/
def Run.put (r : Run) (dst : Nat) (cs : List Cell) : Run :=
  { r with slots := Tab.ins dst (cellCol cs) r.slots, sats := r.sats + cellSats cs }

/-- Run one operation over a strip (R269, R270). A ROWACC or COLACC into a stream that the job does not enable adds nothing, as a written
slot of such a stream is discarded (R267) [DESIGN CHOICE, log 104]. -/
def runOp (c : Scene) (r : Run) (o : ROp) : Run :=
  let col (x : Nat) : Col := Tab.get (List.replicate c.n (0, false)) r.slots x
  let k32 := c.ks.getD o.k 0
  let k := wrk c.p (elemDecode 1 k32)
  let kn := kNum k32
  let sumAt : Nat → Option Nat := fun _ => some (c.constCva + 4 * o.k)
  match o.op with
  | 0x20 => r.addContribs (c.contribs sumAt .of (col o.a))
  | 0x21 => r.addContribs (c.contribs sumAt (fun v => wMul c.p v v) (col o.a))
  | 0x22 => r.addContribs (c.contribs (fun i => c.tgt o.dst (i / kn)) .of (col o.a))
  | 0x23 => r.addContribs (c.contribs (fun i => c.tgt o.dst (i % kn)) .of (col o.a))
  | 0x24 => r.put o.dst ((List.range c.n).map (fun i => c.get o.a ((c.lo + i) / kn)))
  | 0x25 => r.put o.dst ((List.range c.n).map (fun i => c.get o.a ((c.lo + i) % kn)))
  | 0x27 =>
    let q := quantCol c.p o.k c.round r.gen (col o.a)
    let r1 := r.put o.dst q.cells
    { r1 with sats := r1.sats + q.sats, nanInts := r1.nanInts + q.nanInts, gen := q.gen }
  | 0x28 => r
  | _ =>
    let cs := o.srcs.map col
    r.put o.dst ((List.range c.n).map (fun i =>
      let v (j : Nat) : Nat × Bool := (cs.getD j []).getD i (0, false)
      (opValue c.p o.op (v 0).1 (v 1).1 (v 2).1 k).cell ((v 0).2 || (v 1).2 || (v 2).2)))

def runOps (c : Scene) (ops : List ROp) (r : Run) : Run := ops.foldl (runOp c) r

/-! ### Sums in no fixed order (R270, R280) -/

/-- Insert by a free key, so that the order of a list is free (log 10). -/
def insKey (x : Nat × Nat) : List (Nat × Nat) → List (Nat × Nat)
  | [] => [x]
  | y :: t => if x.1 ≤ y.1 then x :: y :: t else y :: insKey x t

/-- A free order of values. -/
def freeOrder (tag : Nat) (xs : List Nat) : List Nat :=
  ((xs.zipIdx.map (fun x => (Config.tileFn 0x70 [tag, x.2, x.1], x.1))).foldr insKey []).map (·.2)

/-- The sum of values in the working format, in a free order. -/
def sumFree (p : Bool) (tag : Nat) (xs : List Nat) : Wk :=
  match freeOrder tag xs with
  | [] => .of 0
  | x :: t => t.foldl (fun a y => a.bind (fun v => wAdd p v y)) (.of x)

/-- The reductions of a strip, one per target, combined in FP32 (R270), and the overflows of combining them. -/
def combine (tag : Nat) (place : Nat → Nat) (cs : List Contrib) : List Red × Nat :=
  let tgts := cs.foldl (fun (a : List Nat) c => if a.contains c.1 then a else a ++ [c.1]) []
  let rs := tgts.map (fun t =>
    let mine := cs.filter (fun c => c.1 == t)
    let w := sumFree false (tag + t) (mine.map (·.2.1))
    ((⟨t, place t, w.v, mine.any (·.2.2)⟩ : Red), w.n))
  (rs.map (·.1), (rs.map (·.2)).foldl (· + ·) 0)

end Sys2Proof.Machine
end

