-- ==== Sys2Proof/Machine/Jobs.lean ====
section
/-! DEFINITION. Sys2Proof/Machine/Jobs.lean: job queues, descriptors, the dispatcher, strips on the compute tiles, durability,
PUBLISH and completion (R244-R288). -/

namespace Sys2Proof.Machine

open Sys2Proof

/-! ### Descriptors (R254-R258) -/

/-- A little-endian field of a descriptor. -/
def fld (d : Bytes) (o n : Nat) : Nat := leNat (slice o n d)

def Job.kind (j : Job) : Nat := fld j.desc 0 1
def Job.inplace (j : Job) : Bool := bit (fld j.desc 1 1) 0
def Job.notify (j : Job) : Bool := bit (fld j.desc 1 1) 1
def Job.zeroSrc (j : Job) : Bool := bit (fld j.desc 1 1) 3
def Job.recipe (j : Job) : Nat := fld j.desc 2 1
def Job.vector (j : Job) : Nat := fld j.desc 3 1
def Job.fmtA (j : Job) : Nat := fld j.desc 4 1 % 16
def Job.fmtB (j : Job) : Nat := fld j.desc 4 1 / 16
def Job.round (j : Job) : Nat := fld j.desc 5 1 % 4
def Job.smask (j : Job) : Nat := fld j.desc 6 1
def Job.count (j : Job) : Nat := fld j.desc 8 8
def Job.seed (j : Job) : Nat := fld j.desc 16 8
def Job.cva (j : Job) (n : Nat) : Nat := fld j.desc (24 + 8 * n) 6
def Job.constCva (j : Job) : Nat := fld j.desc 72 8
def Job.arg (j : Job) : Nat := fld j.desc 80 8
def Job.sfmt (j : Job) (n : Nat) : Nat := fld j.desc 88 3 / 16 ^ n % 16

/-- The format of a stream by the job's kind; bytes count as 8-bit elements (R256). -/
def Job.fmt (j : Job) (n : Nat) : Nat :=
  match j.kind with
  | 1 => j.sfmt n
  | 3 => if n = 0 then j.fmtA else j.fmtB
  | 5 => 0xC
  | 6 => 0xC
  | _ => j.fmtA

/-- A format code that is not reserved. -/
def fmtOk (f : Nat) : Bool := decide (f ≤ 0xE)

/-- Elements per page of a paged format: MX and SB32 (R203, R208, R258); 0 for others. -/
def pageElems (f : Nat) : Nat := if isMx f || f == 0xE then frameElems f else 0

/-- Runs of elements by page of a paged stream: page, first element within it, count. -/
def pageRuns (per lo n : Nat) : List (Nat × Nat × Nat) :=
  (List.range ((lo + n + per - 1) / per - lo / per)).filterMap (fun i =>
    let p := lo / per + i
    let a := max lo (p * per)
    let b := min (lo + n) ((p + 1) * per)
    if a < b then some (p, a - p * per, b - a) else none)

/-- The byte ranges (CVA, count) that elements [lo, lo + n) of a stream take (R258). -/
def streamRanges (f cva lo n : Nat) : List (Nat × Nat) :=
  if n = 0 then []
  else if f = 0xE then
    (pageRuns (pageElems f) lo n).flatMap (fun r =>
      [(cva + r.1 * 2 ^ 26 + 2 * r.2.1, 2 * r.2.2), (cva + r.1 * 2 ^ 26 + 2 ^ 25 + 2 * r.2.1, 2 * r.2.2)])
  else if isMx f then
    (pageRuns (pageElems f) lo n).flatMap (fun r =>
      let k := r.2.1 / 32
      let m := ceilDiv (r.2.1 + r.2.2) 32 - k
      [(cva + r.1 * 2 ^ 26 + k * 4 * fmtBits f, m * 4 * fmtBits f), (cva + r.1 * 2 ^ 26 + scaleBase + k, m)])
  else
    let w := fmtBits f
    [(cva + lo * w / 8, ceilDiv ((lo + n) * w) 8 - lo * w / 8)]

def spansMeet (a b : Nat × Nat) : Bool := decide (a.1 < b.1 + b.2 ∧ b.1 < a.1 + a.2 ∧ 0 < a.2 ∧ 0 < b.2)

/-- A stream starts where its format allows (R258). -/
def streamAligned (f cva : Nat) : Bool :=
  if pageElems f ≠ 0 then cva % 2 ^ 26 == 0 else cva % (max 1 (fmtBits f / 8)) == 0

/-- The image of a recipe number as a context may use it (R273). -/
def State.recipeFor (s : State) (c n : Nat) : Option Bytes :=
  match builtin n with
  | some b => some b
  | none => match Tab.get none s.jobs.rcps n with
    | some r => if r.ctx = c then some r.image else none
    | none => none

def State.jobImage (s : State) (j : Job) : Bytes := (s.recipeFor j.ctx j.recipe).getD (zeros 1024)

/-- The operations of a STEP. -/
def State.jobOps (s : State) (j : Job) : List ROp := stepOps j.recipe j.smask (s.jobImage j)

/-- Streams whose elements a job reads one for one. -/
def State.jobReads (s : State) (j : Job) : List Nat :=
  match j.kind with
  | 1 => (List.range 6).filter (fun n => j.smask.testBit n && (readFirst (s.jobOps j) []).contains n)
  | 2 => (List.range j.recipe).map (· + 1)
  | 4 => []
  | 8 => []
  | _ => [0]

/-- Streams a job writes. -/
def State.jobWrites (s : State) (j : Job) : List Nat :=
  match j.kind with
  | 1 => (List.range 6).filter (fun n => j.smask.testBit n && (slotsWritten (s.jobOps j)).contains n)
  | 2 => 0 :: (if j.zeroSrc then (List.range j.recipe).map (· + 1) else [])
  | 3 => [1]
  | 4 => [0]
  | 5 => [1]
  | _ => []

/-- Streams read or added to by row or column (R270). -/
def State.jobRowCol (s : State) (j : Job) : List (Nat × Nat × Nat) :=
  if j.kind = 1 then (rowCol (s.jobOps j)).filter (fun x => j.smask.testBit x.2.1) else []

/-- The streams of a job: those a STEP enables, and those another kind reads or writes (R258). -/
def State.jobStreams (s : State) (j : Job) : List Nat :=
  if j.kind = 1 then (List.range 6).filter (fun n => j.smask.testBit n)
  else (List.range 6).filter (fun n => (s.jobReads j ++ s.jobWrites j).contains n)

/-- The streams a job writes, the targets of ROWACC and COLACC among them (R258, R270). -/
def State.jobTargets (s : State) (j : Job) : List Nat :=
  s.jobWrites j ++ ((s.jobRowCol j).filter (fun x => decide (x.1 ≤ 0x23))).map (fun x => x.2.1)

/-- The constant K of a row or column operation. -/
def Job.kOf (j : Job) (k : Nat) : Nat := kNum (fld j.consts (4 * k) 4)

/-- The byte ranges of a stream that elements [lo, lo + n) of a row or column operation reach: the operation, its stream, its constant
(R269, R270). -/
def Job.rowColRanges (j : Job) (x : Nat × Nat × Nat) (lo n : Nat) : List (Nat × Nat) :=
  let k := j.kOf x.2.2
  let row := x.1 == 0x22 || x.1 == 0x24
  let a := if row then lo / k else 0
  let m := if row then (lo + n - 1) / k - lo / k + 1 else min k (lo + n)
  if n = 0 then []
  else if x.1 ≤ 0x23 then [(j.cva x.2.1 + 4 * a, 4 * m)] else streamRanges (j.fmt x.2.1) (j.cva x.2.1) a m

/-- The byte ranges of a stream in a job (R258): those of its elements, and, with the constants known, those that row and column operations
reach in it; a stream used by row and column alone has no others. -/
def State.jobRanges (s : State) (j : Job) (known : Bool) (n : Nat) : List (Nat × Nat) :=
  let rc := (s.jobRowCol j).filter (fun x => x.2.1 == n)
  let elem := rc == [] || (s.jobReads j ++ s.jobWrites j).contains n
  (if elem then streamRanges (j.fmt n) (j.cva n) 0 j.count else [])
    ++ (if known then rc.flatMap (fun x => j.rowColRanges x 0 j.count) else [])

/-- The ranges of two streams of a job meet where one is written (R258). -/
def State.jobOverlap (s : State) (j : Job) (known : Bool) : Bool :=
  let same (a b : Nat) : Bool := j.kind == 2 && ((a == 0 && b == 1) || (a == 1 && b == 0)) && j.cva 0 == j.cva 1
  (s.jobTargets j).any (fun a => (s.jobStreams j).any (fun b => a != b && !same a b
    && (s.jobRanges j known a).any (fun x => (s.jobRanges j known b).any (spansMeet x))))

/-- The limit of `count` (R256). -/
def countLimit : Nat → Nat
  | 5 => 2 ^ 40
  | 6 => 2 ^ 40
  | 8 => 16384
  | _ => 2 ^ 36

/-- A descriptor that R255 refuses, as far as it shows without its constants. -/
def State.badDesc (s : State) (j : Job) : Bool :=
  let d := j.desc
  let k := j.kind
  let argOk := match k with
    | 4 => true
    | 8 => bits j.arg 20 12 == 0 && bits j.arg 52 12 == 0
    | _ => j.arg == 0
  let rsv := fld d 1 1 / 16 == 0 && fld d 5 1 / 4 == 0 && fld d 6 1 / 64 == 0 && fld d 7 1 == 0
    && (List.range 6).all (fun n => fld d (30 + 8 * n) 2 == 0) && argOk && fld d 91 13 == 0
  !(decide (1 ≤ k ∧ k ≤ 8) && rsv && decide (j.round ≤ 2) && decide (j.vector ≤ 63) && decide (j.count ≤ countLimit k)
    && (match k with
      | 1 => (s.recipeFor j.ctx j.recipe).isSome && decide (j.constCva % 128 = 0 ∧ j.constCva < 2 ^ 48)
          && (List.range 6).all (fun n => !j.smask.testBit n || fmtOk (j.sfmt n))
      | 2 => decide (j.fmtA ∈ [0, 1, 0xB]) && decide (1 ≤ j.recipe ∧ j.recipe ≤ 5)
      | 3 => fmtOk j.fmtA && fmtOk j.fmtB
      | 4 => fmtOk j.fmtA
      | 7 => fmtOk j.fmtA
      | _ => true)
    && (s.jobStreams j).all (fun n => streamAligned (j.fmt n) (j.cva n)) && !s.jobOverlap j false)

/-! ### The job table -/

def State.job? (s : State) (id : Nat) : Option Job := s.jobs.jobs.find? (fun j => j.id == id)

def State.setJobs (s : State) (js : List Job) : State := { s with jobs := { s.jobs with jobs := js } }

def State.updJob (s : State) (id : Nat) (f : Job → Job) : State :=
  s.setJobs (s.jobs.jobs.map (fun j => if j.id = id then f j else j))

/-- The job whose strip a tile runs, with the strip; there are 64 logical tiles. -/
def State.onTile (s : State) (t : Nat) : Option (Job × Strip) :=
  if 64 ≤ t then none
  else s.jobs.jobs.findSome? (fun j => (j.strips.find? (fun x => x.tile == t)).map (fun x => (j, x)))

def State.updStrip (s : State) (id idx : Nat) (f : Strip → Strip) : State :=
  s.updJob id (fun j => { j with strips := j.strips.map (fun x => if x.idx = idx then f x else x) })

/-- Elements (bytes for COPY and CHECKSUM) of a full strip (R278). -/
def Job.unit (j : Job) : Nat := if j.kind = 5 ∨ j.kind = 6 then 4 * j.slen else j.slen

/-- Strips of a job. -/
def Job.total (j : Job) : Nat := if j.kind = 8 then 0 else ceilDiv j.count j.unit

/-- The first element and number of elements of a strip. -/
def Job.span (j : Job) (idx : Nat) : Nat × Nat := (idx * j.unit, min j.unit (j.count - idx * j.unit))

/-- The lower of two optional numbers. -/
def minOpt (a b : Option Nat) : Option Nat :=
  match a, b with
  | some x, some y => some (min x y)
  | some x, none => some x
  | none, y => y

/-! ### Which pages a strip needs (R259) -/

/-- The byte ranges of a strip's elements in a stream. -/
def Job.stripRanges (j : Job) (idx n : Nat) : List (Nat × Nat) :=
  let sp := j.span idx
  streamRanges (j.fmt n) (j.cva n) sp.1 sp.2

/-- Byte ranges and rights of a strip: R 1 to read, T 8 or W 2 to write, A 4 for reductions. -/
def State.stripNeeds (s : State) (j : Job) (idx : Nat) : List (Nat × Nat × Nat) :=
  let sp := j.span idx
  let need (w : Nat) (rs : List (Nat × Nat)) : List (Nat × Nat × Nat) := rs.map (fun r => (r.1, r.2, w))
  let rc := (s.jobRowCol j).flatMap (fun x => need (if x.1 ≤ 0x23 then 4 else 1) (j.rowColRanges x sp.1 sp.2))
  let sums := if j.kind = 1 then
      ((s.jobOps j).filter (fun o => o.op == 0x20 || o.op == 0x21)).map (fun o => (j.constCva + 4 * o.k, 4, 4))
    else []
  (s.jobReads j).flatMap (fun n => need 1 (j.stripRanges idx n))
    ++ (s.jobWrites j).flatMap (fun n => need (if j.kind = 1 then 8 else 2) (j.stripRanges idx n)) ++ rc ++ sums

/-- The pages of a strip with the union of the rights needed. -/
def State.stripPages (s : State) (j : Job) (idx : Nat) : List (Nat × Nat) :=
  let ns := s.stripNeeds j idx
  (cvaPages (ns.map (fun r => (r.1, r.2.1)))).map (fun v =>
    (v, (ns.filter (fun r => decide (r.1 / 2 ^ 26 ≤ v ∧ v ≤ (r.1 + r.2.1 - 1) / 2 ^ 26 ∧ 0 < r.2.1))).foldl
      (fun a r => a ||| r.2.2) 0))

/-- The streams whose outputs a journaled strip holds: those the job reads (R281). -/
def State.heldStreams (s : State) (j : Job) : List Nat :=
  let rd := s.jobReads j ++ (s.jobRowCol j).filterMap (fun x => if 0x24 ≤ x.1 then some x.2.1 else none)
  (s.jobWrites j).filter (fun st => rd.contains st || (j.kind == 2 && st == 0 && j.cva 0 == j.cva 1))

/-- The bytes a strip moves, as the tiles' round robin charges it (R279): what it reads, writes and adds to, and a journaled strip's journal
record [DEDUCED, log 12]. -/
def State.stripCost (s : State) (j : Job) (idx : Nat) : Nat :=
  let own := ((s.stripNeeds j idx).map (fun r => r.2.1)).foldl (· + ·) 0
  let rec_ := if j.inplace then 0
    else (((s.heldStreams j).flatMap (j.stripRanges idx)).map (·.2)).foldl (· + ·) 0
  own + rec_

/-! ### Failing a job (R262, R283) -/

/-- The outputs of a strip as pieces of poison, with their translations. -/
def State.stripSpoil (s : State) (j : Job) (x : Strip) : List (Piece × Want) :=
  let ps := ((s.jobWrites j).flatMap (j.stripRanges x.idx)).flatMap (fun r => piecesOf x.trs r.1 (List.replicate r.2 (0, true)))
  ps.map (fun p => (p, pieceWant x.trs j.ctx p))

/-- One piece of poison is written as soon as its line can be; in a frame closed to the context it has no effect (R543). -/
def State.spoilOne (s : State) (id c : Nat) (p : Piece × Want) : State :=
  if s.frameClosed (frameOf p.1.ppa) c then s
  else if s.clear [] [p.2] then s.writePieces 5 [p.1]
  else (s.askAll [] [p.2]).updJob id (fun k => { k with spoil := k.spoil ++ [p] })

/-- A job writes the poison it owes. -/
def State.flushSpoil (s : State) (id : Nat) : State :=
  match s.job? id with
  | none => s
  | some j => j.spoil.foldl (fun t p => t.spoilOne id j.ctx p) (s.updJob id (fun k => { k with spoil := [] }))

/-- A job fails: its in-place strips are poisoned, parked strips stop, and no further strip starts; journaled strips go on to
their commit point and stop there (R262). `more` is poison for other outputs. -/
def State.failJob (s : State) (id status : Nat) (more : List (Piece × Want) := []) : State :=
  match s.job? id with
  | none => s
  | some j =>
    let s1 := if j.fail ≠ 0 then s.updJob id (fun k => { k with spoil := k.spoil ++ more })
      else
        let pois := if j.inplace then j.strips.filter (fun x => x.parked.isNone) else []
        let sp := pois.flatMap (s.stripSpoil j)
        let bad := pois.foldl (fun b x => minOpt b (some (j.span x.idx).1)) j.bad
        s.updJob id (fun k => { k with
          fail := status, bad := bad, redo := [], spoil := k.spoil ++ sp ++ more,
          strips := k.strips.filter (fun x => x.parked.isNone && !k.inplace) })
    s1.flushSpoil id

/-! ### Fetching (R250-R253, R257, R271) -/

/-- Jobs of a queue that are active. -/
def State.queueJobs (s : State) (c q : Nat) : List Job := s.jobs.jobs.filter (fun j => j.ctx == c && j.queue == q)

/-- A queue forgets the page it waits on and the job it has fetched and not started, whose descriptor stays unstarted at the head (R252,
R253). -/
def State.queueDrop (s : State) (qn : Nat) : State :=
  { s with jobs := { s.jobs with
    jobs := s.jobs.jobs.filter (fun j => j.begun || 4 * j.ctx + j.queue != qn), qwait := Tab.put none s.jobs.qwait qn none } }

/-- A queue begins to wait on a page, or goes on waiting, and fetches nothing until an apply point touches the page; with a timeout of 0 it
stops at once (R252). -/
def State.queueWait (s : State) (qn vpn : Nat) : State :=
  if s.ov O.job_fault_timeout = 0 then (s.queueDrop qn).setOv O.jq_state 2 qn
  else
    let since := ((Tab.get none s.jobs.qwait qn).map (·.1)).getD s.ltc
    { s with jobs := { s.jobs with qwait := Tab.put none s.jobs.qwait qn (some (since, some vpn)) } }

/-- A queue waits on a page that no apply point has touched since (R252, R525). -/
def State.queueAsleep (s : State) (qn : Nat) : Bool := match Tab.get none s.jobs.qwait qn with
  | some (_, some _) => true
  | _ => false

/-- Constants of row and column operations must be positive integers of at most 2²⁴ (R270). -/
def badK (consts : Bytes) (ops : List ROp) : Bool :=
  (rowCol ops).any (fun x => match elemDecode 1 (fld consts (4 * x.2.2) 4) with
    | .fin false m e =>
      m == 0 || (decide (e < 0) && m % 2 ^ (-e).toNat != 0) || decide (2 ^ 24 < (if 0 ≤ e then m * 2 ^ e.toNat else m / 2 ^ (-e).toNat))
    | _ => true)

/-- A job whose descriptor has been fetched enters the table (R250); it is no longer its queue's next when it has started. -/
def State.enterJob (s : State) (c q : Nat) (area : Nat) (desc : Bytes) (fail : Nat) : State :=
  let j : Job := {
    id := s.jobs.nextJob, ctx := c, queue := q, index := s.ov O.jq_head (4 * c + q), desc := desc, consts := zeros 128,
    slen := s.ov O.strip_elems, next := 0, redo := [], strips := [], done := 0, fail := fail, poisOut := false,
    sat := false, nan := false, rerun := false, reruns := 0, bad := none, parts := [], accs := [], pub := 0, begun := false,
    area := area, spoil := [] }
  { s with jobs := { s.jobs with jobs := s.jobs.jobs ++ [j], nextJob := s.jobs.nextJob + 1 } }

/-- A fetched job starts, with its constants or a status that ends it, and its queue's head moves past it (R250). -/
def State.beginJob (s : State) (j : Job) (consts : Bytes) (fail : Nat) : State :=
  let qn := 4 * j.ctx + j.queue
  let s1 := s.updJob j.id (fun k => { k with begun := true, consts := consts, fail := fail })
  let s2 : State := { s1 with jobs := { s1.jobs with qwait := Tab.put none s1.jobs.qwait qn none } }
  s2.setOv O.jq_head ((j.index + 1) % 65536) qn

/-- The dispatcher's read of 128 bytes at a CVA: what the page's translation gives, and the bytes and their poison where it gives an entry;
nothing while a cache holds the line or its slice does not serve. -/
def State.dispRead (s : State) (ecc : List (Nat × Nat × Nat)) (c cva need : Nat) : Option (Page × Bytes × Bool) × State :=
  let vpn := cva / 2 ^ 26
  let r := s.readPage c vpn ecc
  let p := r.2.pageFor c vpn need (3 * 2 ^ 12) false r.1
  match p.1 with
  | .ok e =>
    let ws := wantsOf [(vpn, e)] c [(cva, 128)]
    if p.2.clear ws [] then
      let g := p.2.gatherCva c [(vpn, e)] (cvaLines [(cva, 128)])
      let b := gatherBytes g.1 cva 128
      (some (.ok e, b.1, b.2), g.2)
    else (none, p.2.askAll ws [])
  | q => (some (q, [], false), p.2)

/-- The dispatcher tries to start the job a queue has fetched (R251, R252, R255, R257, R258, R263, R270, R271). -/
def State.tryStart (s : State) (j : Job) (ecc : List (Nat × Nat × Nat)) : State :=
  let earlier := (s.queueJobs j.ctx j.queue).any (fun k => k.id != j.id)
  if j.fail ≠ 0 then s.beginJob j (zeros 128) j.fail
  else if (bit (fld j.desc 1 1) 2 ∨ j.kind = 8) ∧ earlier then s
  else if s.badDesc j then s.beginJob j (zeros 128) 1
  else if j.count = 0 ∨ j.kind ≠ 1 then s.beginJob j (zeros 128) 0
  else
    let r := s.dispRead ecc j.ctx j.constCva 1
    match r.1 with
    | none => r.2
    | some (.ok _, consts, pois) =>
      let k := { j with consts := consts }
      r.2.beginJob j consts (if pois || badK consts (s.jobOps j) then 6 else if s.jobOverlap k true then 1 else 0)
    | some (.ends st, _, _) => r.2.beginJob j (zeros 128) st
    | some (.wait v, _, _) => r.2.queueWait (4 * j.ctx + j.queue) v

/-- The dispatcher fetches the descriptor at a queue's head and starts its job as soon as it may (R250-R257, R263, R271). A descriptor
beyond the window leaves the queue waiting [DESIGN CHOICE, log 25]. -/
def State.jobFetch (s0 : State) (c q : Nat) (ecc : List (Nat × Nat × Nat)) (m : Met) : State :=
  let s := s0.meet m.errs
  let qn := 4 * c + q
  let head := s.ov O.jq_head qn
  let act := s.queueJobs c q
  if s.pwr.entering ∨ (s.ctx c).st ≠ .active ∨ 4 ≤ q ∨ !s.ob O.jq_enable qn ∨ s.ov O.jq_state qn ≠ 1 ∨ s.queueAsleep qn then s0
  else match act.find? (fun j => !j.begun) with
  | some j => s.tryStart j ecc
  | none =>
    if head = s.ov O.jq_tail qn ∨ 8 ≤ act.length ∨ 1024 ≤ s.jobs.jobs.length then s0
    else
      let cva := s.ov O.jq_base qn + 128 * (head % s.ov O.jq_size qn)
      if s.ov O.win_count c ≤ cva / 2 ^ 26 then s.queueWait qn (cva / 2 ^ 26)
      else
        let r := s.dispRead ecc c cva 0
        let start (t : State) : State := match t.jobs.jobs.getLast? with
          | some j => t.tryStart j ecc
          | none => t
        match r.1 with
        | none => r.2
        | some (.ok _, desc, pois) => start (r.2.enterJob c q cva desc (if pois then 6 else 0))
        | some (.ends st, _, _) => start (r.2.enterJob c q cva (zeros 128) st)
        | some (.wait v, _, _) => r.2.queueWait qn v

/-! ### Taking strips (R278, R279, R259-R261) -/

/-- Strips of a context running now. -/
def State.runningStrips (s : State) (c : Nat) : Nat :=
  ((s.jobs.jobs.filter (fun j => j.ctx == c)).map (fun j => j.strips.length)).foldl (· + ·) 0

/-- The next strip of a job that may start. -/
def Job.nextStrip (j : Job) : Option Nat :=
  if !j.begun ∨ j.fail ≠ 0 ∨ j.kind = 8 then none
  else match j.redo with
    | i :: _ => some i
    | [] => if j.next < j.total then some j.next else none

/-- The journal frames of a sector's stack are in place (R365). -/
def State.journalReady (s : State) (sec : Nat) : Bool :=
  let st := s.ov O.hbm_state sec
  st == 0 || st == 4 || (st == 3 && decide (2 ≤ s.ov O.hbm_relaid sec))

/-- The first job of a context with a strip that tile `t` may start (R365). -/
def State.jobWithStrip (s : State) (t c : Nat) : Option (Job × Nat) :=
  let ready := s.journalReady (unitSector 1 (s.physOf 1 t))
  s.jobs.jobs.findSome? (fun j => if j.ctx = c ∧ (j.inplace ∨ ready) then j.nextStrip.map (fun i => (j, i)) else none)

/-- A compute tile may take strips: it has a LIT unit that is not being fenced or swapped (R365, R577, R578, R618). -/
def State.tileReady (s : State) (t : Nat) : Bool := s.lit 1 t && (s.unit 1 (s.physOf 1 t)).doing == 0

/-- The translation of a strip settles what becomes of it (R259-R261). -/
def State.enterStrip (s : State) (t : Nat) (j : Job) (i : Nat) (ecc : List (Nat × Nat × Nat)) (since : Option Nat) : State :=
  let r := s.pagesFor t (1 * 2 ^ 12 + t) j.ctx ecc (s.stripPages j i)
  let put (x : Strip) (u : State) : State := u.updJob j.id (fun k => { k with
    strips := k.strips.filter (fun y => y.idx != i) ++ [x] })
  let x : Strip := ⟨i, t, 0, none, [], r.2.2.epochNow, [], [], none⟩
  match r.1 with
  | .ok _ => put { x with trs := r.2.1 } r.2.2
  | .wait _ =>
    let u := put { x with parked := some (since.getD s.ltc) } r.2.2
    if s.ov O.job_fault_timeout = 0 then u.failJob j.id 2 else u
  | .ends st => (put { x with parked := some s.ltc } r.2.2).failJob j.id st

/-! ### The journal (R282, R283) -/

/-- The record of a committed strip that its tile's journal still holds and the present device key opens. -/
def State.journalOf (s : State) (id idx : Nat) : Option JRec :=
  s.jobs.journal.findSome? (fun p => match p.2 with
    | some r => if r.job = id ∧ r.idx = idx ∧ r.key = s.sec.journalKey then some r else none
    | none => none)

/-- A strip's journal record is given up. -/
def State.dropRecord (s : State) (id idx : Nat) : State :=
  { s with jobs := { s.jobs with journal := s.jobs.journal.filter (fun p => !p.2.any (fun r => r.job == id && r.idx == idx)) } }

/-- A free record of a physical tile's journal. -/
def State.journalSpace (s : State) (p : Nat) : Option Nat :=
  [2 * p, 2 * p + 1].find? (fun k => (Tab.get none s.jobs.journal k).isNone)

/-- A strip is lost: its outputs are poisoned and its job ends with STRIP_LOST (R283). -/
def State.loseStrip (s : State) (j : Job) (x : Strip) : State :=
  let n := (j.span x.idx).2 * (s.jobWrites j).length
  let sp := if j.inplace then [] else s.stripSpoil j x
  let s1 := ((s.bump O.strips_lost).bump O.tile_poisoned 0 0 n).updJob j.id (fun k => { k with
    bad := minOpt k.bad (some (j.span x.idx).1),
    strips := if j.inplace then k.strips else k.strips.filter (fun y => y.idx != x.idx) })
  (s1.dropRecord j.id x.idx).failJob j.id 7 sp

/-- A committed strip whose tile failed and that no tile has taken. -/
def State.orphanStrip (s : State) : Option (Job × Strip) :=
  s.jobs.jobs.findSome? (fun j => (j.strips.find? (fun x => x.tile == 64)).map (fun x => (j, x)))

/-- A tile replays a committed strip from the journal; one whose record is lost is a lost strip, as the spec gives nothing else for it
(R283) [DESIGN CHOICE, log 105]. -/
def State.replayStrip (s : State) (t : Nat) (j : Job) (x : Strip) : State :=
  match s.journalOf j.id x.idx with
  | none => s.loseStrip j x
  | some r => (s.bump O.strips_replayed).updJob j.id (fun k => { k with
      rerun := true, reruns := k.reruns + 1,
      strips := k.strips.map (fun y => if y.idx = x.idx then
        { y with tile := t, trs := r.trs, held := r.held, reds := r.reds, tally := r.tally } else y) })

/-- A tile at a strip boundary takes a strip: one to be replayed first, else by deficit round robin (R279, R283); a parked strip holds its
tile (R261). -/
def State.stripStart (s0 : State) (t : Nat) (ecc : List (Nat × Nat × Nat)) (m : Met) : State :=
  let s := s0.meet m.errs
  match s.onTile t with
  | some _ => s0
  | none =>
    if 64 ≤ t ∨ !s.tileReady t then s0
    else match s.orphanStrip with
    | some (j, x) => s.replayStrip t j x
    | none =>
      let can (c : Nat) : Bool := s.ov O.tile_quota c == 0xFFFF || decide (s.runningStrips c < s.ov O.tile_quota c)
      let work := s.liveCtxs.filterMap (fun c => if can c ∧ (s.ctx c).st = .active then
        (s.jobWithStrip t c).map (fun p => (c, s.stripCost p.1 p.2)) else none)
      let pick := s.drrPick (Tab.get Drr.init s.jobs.drr t) work
      match pick.1 with
      | none => s0
      | some c => match s.jobWithStrip t c with
        | none => s0
        | some (j, i) =>
          let s1 := s.updJob j.id (fun k => if k.redo = [] then { k with next := k.next + 1 } else { k with redo := k.redo.drop 1 })
          let d := pick.2.settle (s1.liveCtxs.any (fun a => s1.ov O.svc_group a == pick.2.group && (s1.jobWithStrip t a).isSome))
          let s2 : State := { s1 with jobs := { s1.jobs with drr := Tab.put Drr.init s1.jobs.drr t d } }
          (s2.bump O.tile_strips 0 t).enterStrip t j i ecc none

/-! ### Computing a strip -/

/-- Element `i` of a stream from gathered lines (keyed by CVA div 128): its exact value and poison (R199-R207, R258). -/
def streamElem (g : Gather) (f cva i : Nat) : Val × Bool :=
  if f = 0xE then
    let b := cva + i / frameElems f * 2 ^ 26
    let k := i % frameElems f
    let hi := gatherBytes g (b + 2 * k) 2
    let lo := gatherBytes g (b + 2 ^ 25 + 2 * k) 2
    (sbDecode (leNat hi.1) (leNat lo.1), hi.2 || lo.2)
  else
    let w := fmtBits f
    if isMx f then
      let b := cva + i / frameElems f * 2 ^ 26
      let k := i % frameElems f
      let a := gatherBytes g (b + k * w / 8) (ceilDiv (k * w % 8 + w) 8)
      let sc := gatherBytes g (b + scaleBase + k / 32) 1
      (mxDecode f (leNat sc.1) (leNat a.1 / 2 ^ (k * w % 8) % 2 ^ w), a.2 || sc.2)
    else
      let a := gatherBytes g (cva + i * w / 8) (ceilDiv (i * w % 8 + w) 8)
      (elemDecode f (leNat a.1 / 2 ^ (i * w % 8) % 2 ^ w), a.2)

/-- What writing a stream yields: byte runs with poison, poison by element, saturations, NaNs to integers, the generator. -/
structure StreamOut where
  runs : List (Nat × List (Byte × Bool))
  pois : List Bool
  sats : Nat
  nanInts : Nat
  gen : SrGen
deriving DecidableEq, Repr, Inhabited

/-- Encode elements [lo, lo + n) of a stream (R205, R209-R216, R258, R268). `src` is the format the values come from; `old`
gives the byte that shares the last, partly written byte of a 4-bit stream. -/
def encodeStream (f src cva lo : Nat) (xs : List (Val × Bool)) (round : Nat) (old : Nat → Byte × Bool) (g : SrGen) : StreamOut :=
  let pois := xs.map (·.2)
  if f = 0xE then
    let ds := SrGen.rnds round (2 * xs.length) g
    let es := xs.zipIdx.map (fun x => (sbEncode (ds.1.getD (2 * x.2) .rne) (ds.1.getD (2 * x.2 + 1) .rne) x.1.1, x.1.2))
    let runs := (pageRuns (frameElems f) lo xs.length).flatMap (fun r =>
      let a := r.1 * frameElems f + r.2.1 - lo
      let mine := (es.drop a).take r.2.2
      let b := cva + r.1 * 2 ^ 26 + 2 * r.2.1
      [(b, mine.flatMap (fun e => (natLe 2 e.1.1).map (fun y => (y, e.2)))),
       (b + 2 ^ 25, mine.flatMap (fun e => (natLe 2 e.1.2.1).map (fun y => (y, e.2))))])
    ⟨runs, pois, (es.filter (fun e => e.1.2.2)).length, 0, ds.2⟩
  else if isMx f then
    let ds := SrGen.rnds round xs.length g
    let w := fmtBits f
    let blocks := (List.range (ceilDiv xs.length 32)).map (fun b =>
      let vs := ((xs.drop (32 * b)).take 32).map (·.1)
      let pad := vs ++ List.replicate (32 - vs.length) (.fin false 0 0)
      let p := ((xs.drop (32 * b)).take 32).any (·.2)
      let e := mxEncode f src pad ((List.range 32).map (fun i => ds.1.getD (32 * b + i) .rne))
      ((lo / 32 + b, (packElems w e.2.1).map (fun y => (y, p)), (BitVec.ofNat 8 e.1, p)), e.2.2, p))
    let per := frameElems f / 32
    let runs := blocks.flatMap (fun b =>
      let k := b.1.1 % per
      let base := cva + b.1.1 / per * 2 ^ 26
      [(base + k * 4 * w, b.1.2.1), (base + scaleBase + k, [b.1.2.2])])
    ⟨runs, pois.zipIdx.map (fun x => (blocks.getD (x.2 / 32) default).2.2), (blocks.map (fun b => b.2.1)).foldl (· + ·) 0, 0, ds.2⟩
  else
    let ds := SrGen.rnds round xs.length g
    let cs := (xs.zip ds.1).map (fun x => (elemEncode f x.2 x.1.1, x.1.2))
    let w := fmtBits f
    let start := cva + lo * w / 8
    let bytes := if w = 4 then
        (List.range (ceilDiv cs.length 2)).map (fun i =>
          let a := cs.getD (2 * i) default
          match cs[2 * i + 1]? with
          | some b => ((BitVec.ofNat 8 (a.1.enc % 16 + 16 * (b.1.enc % 16)) : Byte), a.2 || b.2)
          | none =>
            let o := old (start + i)
            (BitVec.ofNat 8 (a.1.enc % 16 + o.1.toNat / 16 * 16), a.2 || o.2))
      else cs.flatMap (fun c => (natLe (w / 8) c.1.enc).map (fun y => (y, c.2)))
    ⟨[(start, bytes)], pois, (cs.filter (·.1.sat)).length, (cs.filter (·.1.nanInt)).length, ds.2⟩

/-- One addition of REDUCE in its format, with the overflows to infinity (R217, R224, R256). INT32 wraps, which no counter of the tiles
counts. -/
def fmtAdd (f : Nat) (a : Val × Nat) (v : Val) : Val × Nat :=
  if f = 0xB then
    let n (u : Val) : Nat := (intEncode 32 .rtz u).enc
    (intDecode 32 ((n a.1 + n v) % 2 ^ 32), a.2)
  else
    let c := elemEncode f .rne (Val.add a.1 v)
    (elemDecode f c.enc, a.2 + b2n c.sat)

/-- The sum of REDUCE (R224, R256). -/
def fmtSum (f : Nat) : List Val → Val × Nat
  | [] => (.fin false 0 0, 0)
  | x :: t => t.foldl (fmtAdd f) (x, 0)

/-- The result of computing a strip: outputs by stream, reductions, and a partial result. -/
structure Work where
  outs : List (Nat × StreamOut)
  reds : List Red
  part : Option (Nat × Bool)
  nan : Bool
  sats : Nat
  nanInts : Nat
deriving DecidableEq, Repr, Inhabited

/-- What the operations of a STEP's strip work on. -/
def Job.scene (j : Job) (p : Bool) (g : Gather) (lo n : Nat) : Scene where
  p := p
  round := j.round
  lo := lo
  n := n
  constCva := j.constCva
  ks := (List.range 32).map (fun k => fld j.consts (4 * k) 4)
  get := fun st i =>
    if j.smask.testBit st then
      let v := streamElem g (j.fmt st) (j.cva st) i
      (wrkC p v.1).cell v.2
    else ⟨freeOf p 0x72 [j.id, st, i], false, 0⟩
  tgt := fun st i => if j.smask.testBit st then some (j.cva st + 4 * i) else none

/-- A STEP's strip once its operations have run (R267). -/
def State.stepRun (s : State) (j : Job) (x : Strip) (g : Gather) (p : Bool) : Run :=
  let sp := j.span x.idx
  let ops := s.jobOps j
  let sc := j.scene p g sp.1 sp.2
  let elem (st i : Nat) : Cell :=
    if j.smask.testBit st then sc.get st (sp.1 + i) else ⟨freeOf p 0x71 [j.id, st, sp.1 + i], false, 0⟩
  let ini := ((List.range 6).filter (fun st => (readFirst ops []).contains st)).foldl
    (fun (r : Run) st => r.put st ((List.range sp.2).map (elem st))) ⟨[], [], 0, 0, SrGen.seed j.seed x.idx⟩
  runOps sc ops ini

/-- The arithmetic of a strip from gathered lines (R256, R267-R270, R280). -/
def State.stripWork (s : State) (j : Job) (x : Strip) (g : Gather) : Work :=
  let sp := j.span x.idx
  let lo := sp.1
  let n := sp.2
  let val (st : Nat) : List (Val × Bool) := (List.range n).map (fun i => streamElem g (j.fmt st) (j.cva st) (lo + i))
  let old (a : Nat) : Byte × Bool := gatherGet g a
  let gen := SrGen.seed j.seed x.idx
  let enc (st src : Nat) (xs : List (Val × Bool)) (round : Nat) (g0 : SrGen) : StreamOut :=
    encodeStream (j.fmt st) src (j.cva st) lo xs round old g0
  match j.kind with
  | 1 =>
    let p := bit (byteAt (s.jobImage j) 2) 0
    let r := s.stepRun j x g p
    let col (st : Nat) : List (Val × Bool) := (Tab.get [] r.slots st).map (fun v => (wval p v.1, v.2))
    let outs := (s.jobWrites j).foldl (fun (a : List (Nat × StreamOut) × SrGen) st =>
      let o := enc st (wfmt p) (col st) j.round a.2
      (a.1 ++ [(st, o)], o.gen)) ([], r.gen)
    let reds := combine (j.id * 1024 + x.idx) (placeOf x.trs) r.contribs
    ⟨outs.1, reds.1, none, (s.jobWrites j).any (fun st => (col st).any (fun v => v.1.isNan)), r.sats + reds.2, r.nanInts⟩
  | 2 =>
    let vs := (s.jobReads j).map val
    let sum := (List.range n).map (fun i =>
      let es := vs.map (fun c => c.getD i default)
      (fmtSum j.fmtA (es.map (·.1)), es.any (·.2)))
    let o := enc 0 j.fmtA (sum.map (fun v => (v.1.1, v.2))) 0 gen
    let zs := if j.zeroSrc then (s.jobReads j).filter (fun st => !(st == 1 && j.cva 0 == j.cva 1)) else []
    let zero := zs.map (fun st => (st, enc st j.fmtA (List.replicate n (.fin false 0 0, false)) 0 gen))
    ⟨(0, o) :: zero, [], none, sum.any (fun v => v.1.1.isNan), (sum.map (fun v => v.1.2)).foldl (· + ·) 0, 0⟩
  | 3 =>
    let v := val 0
    ⟨[(1, enc 1 j.fmtA v j.round gen)], [], none, v.any (fun y => y.1.isNan), 0, 0⟩
  | 4 =>
    let a := elemDecode 0 j.arg
    ⟨[(0, enc 0 0 (List.replicate n (a, false)) j.round gen)], [], none, a.isNan, 0, 0⟩
  | 5 =>
    let bs := (List.range n).map (fun i => gatherGet g (j.cva 0 + lo + i))
    ⟨[(1, ⟨[(j.cva 1 + lo, bs)], bs.map (·.2), 0, 0, gen⟩)], [], none, false, 0, 0⟩
  | 6 =>
    let b := gatherBytes g (j.cva 0 + lo) n
    ⟨[], [], some (crc64 b.1, b.2), false, 0, 0⟩
  | 7 =>
    let v := val 0
    let sq := v.map (fun y => (wrkC true y.1).bind (fun w => wMul true w w))
    let sum := sumFree true (j.id * 1024 + x.idx) (sq.map Wk.v)
    ⟨[], [], some (sum.v, v.any (·.2)), v.any (fun y => y.1.isNan), (sq.map Wk.n).foldl (· + ·) sum.n, 0⟩
  | _ => default

/-- What a strip's work found: poison that reaches only a reduction counts like that of an output (R217, R263). -/
def Work.tally (w : Work) (lo : Nat) : Tally where
  sats := (w.outs.map (fun o => o.2.sats)).foldl (· + ·) w.sats
  nanInts := (w.outs.map (fun o => o.2.nanInts)).foldl (· + ·) w.nanInts
  pois := (w.outs.map (fun o => (o.2.pois.filter id).length)).foldl (· + ·) (w.reds.filter Red.pois).length
  first := w.outs.foldl (fun b o => minOpt b ((o.2.pois.zipIdx.find? (·.1)).map (fun y => lo + y.2))) none
  poisOut := w.outs.any (fun o => o.2.pois.any id) || w.reds.any Red.pois || w.part.any (·.2)
  nan := w.nan
  part := w.part

/-- The lines a strip reads: its inputs, and the last byte of a 4-bit output that ends within it. -/
def State.stripReads (s : State) (j : Job) (x : Strip) : List (Nat × Nat) :=
  let ins := ((s.stripNeeds j x.idx).filter (fun r => r.2.2 == 1)).map (fun r => (r.1, r.2.1))
  let half := if (j.span x.idx).2 % 2 = 1 then (s.jobWrites j).filter (fun st => j.fmt st == 0xD) else []
  ins ++ (half.flatMap (j.stripRanges x.idx)).map (fun r => (r.1 + r.2 - 1, 1))

/-- A strip leaves its job without an end of its own. -/
def State.dropStrip (s : State) (id idx : Nat) : State :=
  s.updJob id (fun k => { k with strips := k.strips.filter (fun y => y.idx != idx) })

/-- A tile computes the strip it runs, of a job of a given kind: inputs are read, and outputs written or held (R263, R267, R281). Frames
closed to the context fail the job (R543); lines that caches hold are asked for first (R233). -/
def State.compute (s0 : State) (kind t : Nat) (m : Met) : State :=
  match s0.onTile t with
  | none => s0
  | some (j, x) =>
    if j.kind ≠ kind ∨ x.stage ≠ 0 ∨ x.parked.isSome then s0
    else
      let s := s0.meet m.errs
      let hold := if j.inplace then [] else s.heldStreams j
      let reads := wantsOf x.trs j.ctx (s.stripReads j x)
      let direct := (s.jobWrites j).filter (fun st => !hold.contains st)
      let writes := wantsOf x.trs j.ctx (direct.flatMap (j.stripRanges x.idx))
      if x.trs.any (fun p => s.frameClosed p.2.frame j.ctx) then (s.failJob j.id 3).dropStrip j.id x.idx
      else if !s.clear reads writes then s.askAll reads writes
      else
        let g := s.gatherCva j.ctx x.trs (cvaLines (s.stripReads j x))
        let w := s.stripWork j x g.1
        let pieces (p : Nat → Bool) : List Piece :=
          (w.outs.filter (fun o => p o.1)).flatMap (fun o => o.2.runs.flatMap (fun r => piecesOf x.trs r.1 r.2))
        (g.2.writePieces 5 (pieces (fun st => !hold.contains st))).updStrip j.id x.idx (fun y => { y with
          stage := 1, held := pieces (fun st => hold.contains st), reds := w.reds, tally := some (w.tally (j.span x.idx).1) })

/-! ### Commit, apply, reductions (R270, R281, R284) -/

/-- A job takes over what a strip's computing found. -/
def Job.addTally (j : Job) (x : Strip) : Job :=
  match x.tally with
  | none => j
  | some t => { j with
      sat := j.sat || decide (0 < t.sats), nan := j.nan || t.nan, poisOut := j.poisOut || t.poisOut, bad := minOpt j.bad t.first,
      parts := match t.part with
        | some v => j.parts ++ [(x.idx, v.1, (j.span x.idx).2, v.2)]
        | none => j.parts }

/-- The tiles' counters take over what a strip's computing found (R217, R263). -/
def State.countTally (s : State) (x : Strip) : State :=
  match x.tally with
  | none => s
  | some t => ((s.bump O.tile_saturations 0 0 t.sats).bump O.tile_nan_to_int 0 0 t.nanInts).bump O.tile_poisoned 0 0 t.pois

/-- A computed strip leaves its tile, `n` strips having ended with it: what it found is counted, once, and its journal record given up. -/
def State.leaveTile (s : State) (j : Job) (x : Strip) (n : Nat) : State :=
  ((s.countTally x).updJob j.id (fun k => { k.addTally x with
    strips := k.strips.filter (fun y => y.idx != x.idx), done := k.done + n })).dropRecord j.id x.idx

/-- A journaled strip's record is committed, under the journal's device key, in one of its physical tile's two records; a failed job's strip
stops here (R262, R281, R282). -/
def State.stripCommit (s : State) (t : Nat) : State :=
  match s.onTile t with
  | none => s
  | some (j, x) =>
    if j.inplace ∨ x.stage ≠ 1 then s
    else if j.fail ≠ 0 then s.leaveTile j x 0
    else match s.journalSpace (s.physOf 1 t) with
      | none => s
      | some k =>
        let r : JRec := ⟨j.id, x.idx, s.sec.journalKey, x.trs, x.held, x.reds, x.tally⟩
        ({ s with jobs := { s.jobs with journal := Tab.put none s.jobs.journal k (some r) } } : State).updStrip j.id x.idx
          (fun y => { y with stage := 2 })

/-- The agent number of an internal request: no agent has it. -/
def tileAgent (t : Nat) : Nat := 4096 + t

/-- The arrival port of internal requests: no Boroc port has it. -/
def innerPort : Nat := 24

/-- A reduction ACC leaves its tile towards the home slice, waiting while that does not serve (R270, R284, R285). -/
def State.sendRed (s : State) (j : Job) (x : Strip) (r : Red) : State :=
  let tag := s.jobs.tag
  let h : Hdr := {
    agt := tileAgent x.tile, tag := tag, can := 0, ctx := j.ctx, cva := r.cva, len := 1, page := 0, colour := 1, sub := 0,
    aty := 0, fmtSrc := 1, fmtDst := 1, gchk := false, gexp := 0 }
  let e := ((x.trs.find? (fun p => p.1 == r.cva / 2 ^ 26)).map (·.2)).getD Entry.none
  let q : Req := { Req.arriving s.nextReq .acc innerPort h [⟨fitTo 32 (natLe 4 r.val), r.pois⟩] with
    mask := 31, ppa := r.ppa, gen := e.gen, ext := e.extent, rights := e.rights, epoch := x.epoch, hadEntry := true }
  let s1 : State := { s with nextReq := s.nextReq + 1, reqs := s.reqs ++ [q], jobs := { s.jobs with tag := (tag + 1) % 65536 } }
  (s1.updJob j.id (fun k => { k with accs := k.accs ++ [(tag, r)] })).sendHome q

/-- A strip's held outputs are applied and its reductions sent, and the strip ends (R281). Outputs into frames closed to the context have no
effect and fail the job (R543). -/
def State.stripApply (s0 : State) (t : Nat) (m : Met) : State :=
  match s0.onTile t with
  | none => s0
  | some (j, x) =>
    if !(x.stage == 2 || (j.inplace && x.stage == 1)) then s0
    else
      let s := s0.meet m.errs
      let live := x.held.filter (fun p => !s.frameClosed (frameOf p.ppa) j.ctx)
      let ws := live.map (pieceWant x.trs j.ctx)
      if s.clear [] ws then
        let s1 := (s.writePieces 5 live).leaveTile j x 1
        let s2 := x.reds.foldl (fun u r => u.sendRed j x r) s1
        if live.length < x.held.length then s2.failJob j.id 3 else s2
      else s.askAll [] ws

/-- The target of a reduction as a piece of poison. -/
def Red.spoil (r : Red) (c gen : Nat) : Piece × Want := (⟨r.ppa, zeros 4, true⟩, ⟨c, r.cva / 2 ^ 26, gen, r.ppa / 128⟩)

/-- A reduction may have been added twice or not at all: its target is poisoned and its job ends with REDUCE_LOST (R284). The target is no
element of a strip's outputs, and `bad_index` does not name it [DEDUCED, log 106]. -/
def State.redLost (s : State) (j : Job) (tag : Nat) (r : Red) (gen : Nat) : State :=
  (s.updJob j.id (fun k => { k with accs := k.accs.filter (fun a => a.1 != tag) })).failJob j.id 8 [r.spoil j.ctx gen]

/-- A reduction ACC's completion returns: one lost poisons its target (R284). A RETRY is sent again; another status fails the job. -/
def State.redComplete (s0 : State) (tag : Nat) (m : Met) : State :=
  match s0.cmps.find? (fun c => c.port == innerPort && c.tag == tag),
      s0.jobs.jobs.findSome? (fun j => (j.accs.find? (fun a => a.1 == tag)).map (fun a => (j, a.2))) with
  | some c, some (j, r) =>
    let s := ({ s0 with
      cmps := s0.cmps.filter (fun x => !(x.port == innerPort && x.tag == tag))
      reqs := s0.reqs.filter (fun q => q.id != c.reqId) } : State).meet m.errs
    let gone := s.updJob j.id (fun k => { k with accs := k.accs.filter (fun a => a.1 != tag) })
    match c.status with
    | .retry => match s0.req? c.reqId with
      | some q =>
        let q1 := { q with phase := .done, ser := false }
        ({ s with reqs := s.reqs ++ [q1] } : State).sendHome q1
      | none => s
    | .ok => gone
    | .accLost => s.redLost j tag r (((s0.req? c.reqId).map (·.gen)).getD 0)
    | .revoked => gone.failJob j.id 3
    | _ => gone.failJob j.id 2
  | _, _ => s0

/-! ### PUBLISH (R286-R288) -/

/-- A PUBLISH is checked and its internal commits arise (R286, R287). A frame under migration is of the extent that its row names, until the
migration has ended. -/
def State.publish (s : State) (id : Nat) : State :=
  match s.job? id with
  | none => s
  | some j =>
    if j.kind ≠ 8 ∨ !j.begun ∨ j.pub ≠ 0 ∨ j.fail ≠ 0 ∨ j.count = 0 then s
    else
      let ha := bits j.arg 0 20
      let hb := bits j.arg 32 20
      let ok (h : Nat) : Bool := match s.liveExt h with
        | some x => x.st == .moored && x.owner == j.ctx && x.frames.length == j.count
        | none => false
      let a := ha % 65536
      let b := hb % 65536
      if !(ok ha && ok hb) || ha == hb then s.updJob id (fun k => { k with fail := 1 })
      else if s.migs.any (fun m => (s.frame m.src).ext == a || (s.frame m.src).ext == b) then
        s.updJob id (fun k => { k with fail := 0xA })
      else (s.addInternals (.publish id a b) (s.rewriteWindows (s.namers ha ++ s.namers hb))).updJob id (fun k => { k with pub := 1 })

/-- Every window's commit of a PUBLISH has been applied and drained (R288). -/
def State.publishDone (s : State) (id : Nat) : State :=
  match s.job? id with
  | none => s
  | some j =>
    let mine (k : Commit) : Bool := match k.internal with
      | some (.publish i _ _) => i == id
      | _ => false
    if j.pub = 1 ∧ !s.chart.commits.any mine then s.updJob id (fun k => { k with pub := 2 }) else s

/-- A frame takes part in a PUBLISH between its check and its completion (R286). -/
def State.publishing (s : State) (f : Nat) : Bool :=
  s.jobs.jobs.any (fun j => j.kind == 8 && decide (0 < j.pub) && (s.frame f).ext != 0
    && ((s.frame f).ext == bits j.arg 0 20 % 65536 || (s.frame f).ext == bits j.arg 32 20 % 65536))

/-! ### Completion (R264, R265) -/

/-- Insert a partial result by its strip. -/
def insPart (x : Nat × Nat × Nat × Bool) : List (Nat × Nat × Nat × Bool) → List (Nat × Nat × Nat × Bool)
  | [] => [x]
  | y :: t => if x.1 ≤ y.1 then x :: y :: t else y :: insPart x t

/-- The CRC of a string followed by `n` bytes that have CRC `b`. -/
def crcJoin (a b n : Nat) : Nat := (List.replicate n (0 : Byte)).foldl crcByte a ^^^ b

/-- The result field: the CRC joined over the strips in order, or the sum of the strips' sums with its overflows (R280). A result computed
from poison is not stated: free (log 10). -/
def Job.result (j : Job) : Wk :=
  let ps := j.parts.foldr insPart []
  if ps.any (fun p => p.2.2.2) then .of (Config.tileFn 0x73 [j.id] % 2 ^ 64)
  else if j.kind = 6 then .of (ps.foldl (fun a p => crcJoin a p.2.1 p.2.2.1) 0)
  else if j.kind = 7 then sumFree true j.id (ps.map (fun p => p.2.1))
  else .of 0

/-- The status a job completes with. -/
def Job.status (j : Job) : Nat := if j.fail ≠ 0 then j.fail else if j.poisOut then 5 else 0

/-- Nothing of the job is left to do; the commits of a PUBLISH run to their ends even when it is cancelled (R288). -/
def Job.finished (j : Job) : Bool :=
  j.begun && j.strips.isEmpty && j.accs.isEmpty && j.spoil.isEmpty && j.pub != 1 && (j.fail != 0 || j.count == 0
    || (if j.kind = 8 then j.pub == 2 else j.done == j.total))

/-- The overflows of a job's last sum (R217). -/
def Job.lastSats (j : Job) : Nat := if j.fail = 0 then j.result.n else 0

/-- The completion area (R254). -/
def Job.completion (j : Job) : Bytes :=
  let empty := j.count == 0 && j.fail == 0
  natLe 8 (j.bad.getD (2 ^ 64 - 1)) ++ natLe 1 j.status
    ++ natLe 1 (b2n empty + 2 * b2n (j.sat || decide (0 < j.lastSats)) + 4 * b2n j.nan + 8 * b2n j.rerun) ++ natLe 2 (min j.reruns 65535) ++ zeros 4
    ++ natLe 8 (if j.fail = 0 then j.result.v else 0)

/-- The record of a failure that could not be written (R265, R527). -/
def unreported (c q cva status : Nat) : FRec :=
  { kind := 0x10, flags := 0, ctx := c, source := 3 * 2 ^ 12, port := 0xFF, opcode := 0, whr := cva, token := status,
    aux := q, gen := 0, parked := false, req := none }

/-- A job leaves the table with its status counted (R264, R289). -/
def State.endJob (s : State) (j : Job) : State :=
  let good := j.status == 0 || j.status == 5
  ((if good then s.bump O.jobs_done else s.bump O.jobs_failed).bump O.tile_saturations 0 0 j.lastSats).setJobs
    (s.jobs.jobs.filter (fun k => k.id != j.id))

/-- A finished job's vector is raised (R264). -/
def State.notifyJob (s : State) (j : Job) : State := if j.notify then s.raiseWork j.ctx j.vector 0 else s

/-- A finished job completes: its completion area is written where its page still can be, and its vector raised (R264). Where it cannot,
a failure shows only in `jobs_failed` and a fault record (R265); a job that did not fail raises its vector [DESIGN CHOICE, log 107]. -/
def State.finishJob (s : State) (j : Job) : State :=
  let vpn := j.area / 2 ^ 26
  let e := s.entry (s.ov O.win_base j.ctx + vpn)
  let can := e.valid && e.typ == 0 && decide (vpn < s.ov O.win_count j.ctx) && !s.frameClosed e.frame j.ctx
  let w := wantAt [(vpn, e)] j.ctx j.area
  if can then
    if s.clear [] [w] then ((s.innerWrite w.line 104 j.completion none).endJob j).notifyJob j else s.askAll [] [w]
  else if j.status = 0 ∨ j.status = 5 then (s.endJob j).notifyJob j
  else (s.queueRec (unreported j.ctx j.queue j.area j.status)).endJob j

/-- A job that has nothing left to do completes; until then the poison it owes is written. -/
def State.jobComplete (s0 : State) (id : Nat) (m : Met) : State :=
  let s := (s0.meet m.errs).flushSpoil id
  match s.job? id with
  | none => s0
  | some j => if j.finished then s.finishJob j else s

/-! ### Waiting pages (R252, R261, R525) -/

/-- A parked strip or queue reaches `job_fault_timeout`: the job fails with FAULT, or the queue stops. -/
def State.jobTimeout (s : State) (queue : Bool) (n : Nat) (m : Met) : State :=
  if s.ov O.job_fault_timeout = 0xFFFFFFFF then s
  else if queue then
    match Tab.get none s.jobs.qwait n with
    | some _ => (s.queueDrop n).setOv O.jq_state 2 n
    | none => s
  else match s.onTile n with
    | some (j, x) => if x.parked.isSome then (s.meet m.errs).failJob j.id 2 else s
    | none => s

/-- The page a parked strip waits for has not changed. -/
def State.stripStuck (s : State) (j : Job) (i : Nat) : Bool :=
  match (s.stripPages j i).find? (fun p => let e := s.entry (s.ov O.win_base j.ctx + p.1); !e.valid || e.typ == 1) with
  | some p => s.stillStuck j.ctx p.1
  | none => false

/-- At an apply point the strips of a context whose pages it touched translate again, and its queues and operations that
wait on such a page may (R525). -/
def State.unparkStrips (s : State) (c : Nat) : State :=
  let ps := s.jobs.jobs.flatMap (fun j => if j.ctx = c ∧ j.fail = 0 then
    (j.strips.filter (fun x => x.parked.isSome && !s.stripStuck j x.idx)).map (fun x => (j, x)) else [])
  let qw := (List.range 4).foldl (fun t i => match Tab.get none t (4 * c + i) with
    | some (since, some v) => if s.stillStuck c v then t else Tab.put none t (4 * c + i) (some (since, none))
    | _ => t) s.jobs.qwait
  let ops := s.tends.ops.map (fun o => match o.asleep with
    | some v => if o.ctx = c ∧ !s.stillStuck c v then { o with asleep := none } else o
    | none => o)
  let s1 : State := { s with jobs := { s.jobs with qwait := qw }, tends := { s.tends with ops := ops } }
  ps.foldl (fun t p => t.enterStrip p.2.tile p.1 p.2.idx [] p.2.parked) s1

/-! ### Tile failure and context reset (R283, R284, R406) -/

/-- Reductions a failed tile sent that have not completed are lost (R284). -/
def State.redsLost (s : State) (t : Nat) : State :=
  let mine (q : Req) : Bool := q.port == innerPort && q.h.agt == tileAgent t && q.phase != .done
  let tags := (s.reqs.filter mine).map (fun q => (q.h.tag, q.gen))
  let s1 : State := tags.foldl (fun u g => match s.reqs.find? (fun q => mine q && q.h.tag == g.1) with
    | some q =>
      let v := if q.phase = .waiting then u.setDir q.line { u.dir q.line with waits := (u.dir q.line).waits.filter (· != q.id) } else u
      v.dropReq q.id
    | none => u) s
  (s.jobs.jobs.flatMap (fun j => j.accs.filterMap (fun a =>
    (tags.find? (fun g => g.1 == a.1)).map (fun g => (j, a, g.2))))).foldl (fun u p => u.redLost p.1 p.2.1.1 p.2.1.2 p.2.2) s1

/-- The strip of a failed tile is run again, left to another tile to replay, or its outputs poisoned; reductions it had sent are lost (R283,
R284). -/
def State.tileFailed (s : State) (t : Nat) (m : Met) : State :=
  let s1 := ({ s.meet m.errs with ecache := Tab.put [] s.ecache t [] } : State).redsLost t
  match s1.onTile t with
  | none => s1
  | some (j, x) =>
    if x.parked.isSome then (s1.dropStrip j.id x.idx).updJob j.id (fun k => { k with redo := k.redo ++ [x.idx] })
    else if j.inplace then s1.loseStrip j x
    else if x.stage = 2 then s1.updStrip j.id x.idx (fun y => { y with tile := 64, held := [], reds := [] })
    else ((s1.bump O.strips_rerun).dropStrip j.id x.idx).updJob j.id (fun k => { k with
      redo := if k.fail = 0 then k.redo ++ [x.idx] else k.redo, rerun := true, reruns := k.reruns + 1 })

/-- At the end of a context reset's drain every job of the context ends CANCELLED: strips before their commit point are
abandoned, committed applies finish, in-place strips are poisoned. -/
def State.cancelJob (s : State) (j : Job) : State :=
  let s1 := (s.updJob j.id (fun k => { k with begun := true })).failJob j.id 9
  s1.updJob j.id (fun k => { k with strips := k.strips.filter (fun x => x.stage == 2), redo := [] })

def State.cancelJobs (s : State) (m : Met) (c : Nat) : State :=
  (s.jobs.jobs.filter (fun j => j.ctx == c)).foldl State.cancelJob (s.meet m.errs)

/-! ### Queue enables and recipes (R253, R272-R275) -/

/-- A write of `jq_enable` (R253). -/
def State.jqEnable (s : State) (qn v : Nat) : State :=
  if v = 0 then ((s.queueDrop qn).setOv O.jq_enable 0 qn).setOv O.jq_state 0 qn
  else
    let s1 : State := { s with jobs := { s.jobs with qwait := Tab.put none s.jobs.qwait qn none } }
    (s1.setOv O.jq_enable 1 qn).setOv O.jq_state 1 qn

/-- A host's job doorbell in a VF's direct window (R247, R249, R408, R469). -/
def State.jobBell (s : State) (port vf data : Nat) (keyed : Bool) : State :=
  match s.vfCtx port vf with
  | none => s
  | some c =>
    if s.ideRefuses c keyed then s.bump O.ide_rejects 0 port
    else if (s.ctx c).st = .quiescing ∨ (s.ctx c).st = .sweeping then s
    else (s.doorbell c data).2

end Sys2Proof.Machine
end

