-- ==== Sys2Proof/Machine/Migrate.lean ====
section
/-! DEFINITION. Sys2Proof/Machine/Migrate.lean: migrations of frames between tiers (R305-R307), channel-pair drains (R308, R360),
placement (R341-R343) and moves out of a stack's withdrawn range (R364). -/

namespace Sys2Proof.Machine

open Sys2Proof

/-! ### Destinations -/

def State.migOf (s : State) (src : Nat) : Option Mig := s.migs.find? (fun m => m.src == src)

def State.updMig (s : State) (src : Nat) (f : Mig → Mig) : State :=
  { s with migs := s.migs.map (fun m => if m.src = src then f m else m) }

/-- The destination of a frame's move, and the mirror's where a primary has one (R84, R85, R305); `secs` are the sectors to
try, `avoid` frames already promised. -/
def State.moveDest (s : State) (src tier : Nat) (secs avoid : List Nat) : Option (Nat × Option Nat) :=
  let r := s.frame src
  let x := s.ext r.ext
  if r.mirror then
    let prim := x.frames.getD r.pos 0
    match s.takeSectors tier avoid (secs.filter (· != sectorOf prim)) 1 with
    | [d] => some (d, none)
    | _ => none
  else match s.takeSectors tier avoid secs 1 with
    | [d] =>
      if x.mirrors = [] then some (d, none)
      else match s.takeSectors tier (d :: avoid) ((List.range 4).filter (· != sectorOf d)) 1 with
        | [g] => some (d, some g)
        | _ => none
    | _ => none

/-- A frame may start a migration now: it belongs to a moored extent, nothing sweeps it, no PUBLISH names it, and a record
is free (R286, R306, R307). -/
def State.canMove (s : State) (src : Nat) : Bool :=
  let r := s.frame src
  r.ext != 0 && (s.ext r.ext).st == .moored && r.rcd.isNone && !r.scrub && !r.rekey && !s.publishing src
    && (s.migOf src).isNone && decide (s.migs.length < 64)

/-- A migration takes a record and claims its destinations (R306, R307 step 1). -/
def State.beginMove (s : State) (src kind op : Nat) (d : Nat × Option Nat) : State :=
  let r := s.frame src
  let claim (t : State) (f : Nat) (mir : Bool) : State :=
    t.setFrame f { Frame.dflt with ext := r.ext, mirror := mir, pos := r.pos, slot := r.slot }
  let s1 := claim s d.1 r.mirror
  let s2 := match d.2 with
    | some g => claim s1 g true
    | none => s1
  { s2 with migs := s2.migs ++ [⟨src, d.1, d.2, 0, 0, List.range 16384, 1, 0, kind, op, r.mirror, 0⟩] }

/-! ### Copying (R291, R307 steps 2 and 5) -/

/-- A line of the controller's own work, which no page translation leads to. -/
def ownWant (line : Nat) : Want := ⟨noCtx, 0, 0, line⟩

/-- The lines of a chunk of a frame. -/
def frameLines (f chunk : Nat) : List Nat := (List.range 32).map (fun i => f * 2 ^ 19 + 32 * chunk + i)

/-- The frame that a move reads: a mirror frame is written from its primary (R360), whose lines its home slices serve. -/
def State.moveFrom (s : State) (g : Mig) : Nat :=
  if g.isMirror then
    let r := s.frame g.src
    (s.ext r.ext).frames.getD r.pos g.src
  else g.src

/-- The operations that a move counts for: its MIGRATE, or the DRAINs of its pair (R300, R304, R308). -/
def State.moveOps (s : State) (g : Mig) : List Nat :=
  if g.kind = 0 then [g.op]
  else if g.kind = 2 then (s.drains.filter (fun d => d.pair == g.op && !d.auto)).map (·.op)
  else []

/-- Change the operations that a list names. -/
def State.updOps (s : State) (ids : List Nat) (f : Tend → Tend) : State :=
  { s with tends := { s.tends with ops := s.tends.ops.map (fun o => if ids.contains o.id then f o else o) } }

/-- Note poison that a move carries: counted, and marked in its operations (R304). -/
def State.noteMoved (s : State) (g : Mig) (v : LineVal) : State :=
  if v.poisoned then (s.bump O.te_poison_copied).updOps (s.moveOps g) (fun o => { o with poisoned := true }) else s

/-- Copy lines of a chunk to the destinations: each is read as an internal RdOnce and written as an internal WrFull (R291). A line that its
frame has lost for good arrives as poison that arises here (R360). -/
def State.copyLines (s : State) (g : Mig) (src : Nat) : List Nat → State
  | [] => s
  | o :: t =>
    let line := src * 2 ^ 19 + o
    let q := s.innerRead noCtx 0 line
    let fresh := s.lost (line * 128) && (s.mirrorOf src).isNone
    let put (u : State) (f : Nat) : State := u.innerLine (f * 2 ^ 19 + o) q.1
    let s1 := g.dests.foldl put (q.2.noteMoved g q.1)
    let d := g.dst * 2 ^ 19 + o
    State.copyLines (if fresh then (s1.notePoison (2 * d) 7).notePoison (2 * d + 1) 7 else s1) g src t

/-- Copy one chunk of a migration, its dirty bit cleared as it is read; what cannot be read or written yet is asked for first. -/
def State.copyChunk (s : State) (g : Mig) (chunk : Nat) : Bool × State :=
  let src := s.moveFrom g
  let reads := (frameLines src chunk).map ownWant
  let writes := (g.dests.flatMap (fun f => frameLines f chunk)).map ownWant
  if s.clear reads writes then
    let s1 := s.updMig g.src (fun x => { x with dirty := clrBit x.dirty chunk, todo := x.todo.filter (· != chunk) })
    (true, (s1.copyLines g src ((List.range 32).map (fun i => 32 * chunk + i))).updOps (s.moveOps g) (fun o => { o with done := o.done + 1 }))
  else (false, s.askAll reads writes)

/-- A copy pass ends: another pass over the dirty chunks, or the write hold with its recall (R307 steps 2 to 4). -/
def State.passEnd (s : State) (src : Nat) : State :=
  match s.migOf src with
  | none => s
  | some g =>
    if g.phase ≠ 1 ∨ g.todo ≠ [] then s
    else
      let d := bitList g.dirty 16384
      if d.length ≤ s.ov O.mig_final_chunks ∨ s.ov O.mig_passes ≤ g.passes + 1 then
        s.updMig src (fun x => { x with passes := x.passes + 1, phase := 2, walk := 0 })
      else s.updMig src (fun x => { x with passes := x.passes + 1, todo := d })

/-- The windows with entries that name the frame of a migration (R307 step 6). -/
def State.moveWindows (s : State) (g : Mig) : List Nat :=
  s.liveCtxs.filter (fun c => (s.windowEnts c).any (fun p => p.2.typ != 1 &&
    (if g.isMirror then p.2.mirV && p.2.mirror == g.src else p.2.frame == g.src)))

/-- The frame lists change and the internal commits of the switch arise (R307 step 6). -/
def State.switchFrames (s : State) (g : Mig) : State :=
  let r := s.frame g.src
  let x := s.ext r.ext
  let x1 : Ext := if g.isMirror then { x with mirrors := x.mirrors.set r.pos g.dst }
    else { x with
      frames := x.frames.set r.pos g.dst,
      mirrors := match g.mdst with
        | some d => x.mirrors.set r.pos d
        | none => x.mirrors }
  ((s.setExt r.ext x1).addInternals (.migration g.src) (s.rewriteWindows (s.moveWindows g))).updMig g.src
    (fun y => { y with phase := 4, todo := [] })

/-- The final pass ends: chunks that write-backs have marked meanwhile make it go on; with none the switch begins (R307 steps 5 and 6). -/
def State.finalPassEnd (s : State) (src : Nat) (m : Met) : State :=
  match s.migOf src with
  | none => s
  | some g =>
    if g.phase ≠ 3 ∨ g.todo ≠ [] then s
    else if g.dirty ≠ 0 then (s.meet m.errs).updMig src (fun x => { x with todo := bitList x.dirty 16384 })
    else (s.meet m.errs).switchFrames g

/-! ### The end of a migration -/

/-- A pair's drains have nothing left to move: they end (R308, R360). -/
def State.drainCheck (s : State) (pair : Nat) : State :=
  let mine := s.drains.filter (fun d => d.pair == pair)
  if mine = [] ∨ s.chart.frames.any (fun p => decide (4096 ≤ p.1 ∧ pairOf p.1 = pair) && p.2.ext != 0) then s
  else
    let s1 := (s.setUnitSt O.dcp_state (s.ov O.dcp_state pair % 16) pair)
    let s2 := { s1 with drains := s1.drains.filter (fun x => x.pair != pair) }
    if mine.any (·.auto) then s2.setOv O.dcp_drain_result 0 pair else s2

/-- Every window's commit has drained: the hold ends and the source frame is freed (R307 step 7). -/
def State.migrationDone (s : State) (src : Nat) : State :=
  match s.migOf src with
  | none => s
  | some g =>
    let mine (k : Commit) : Bool := k.internal == some (.migration src)
    if g.phase ≠ 4 ∨ s.chart.commits.any mine then s
    else
      let r := s.frame src
      let want := r.target
      let oldMir := if g.isMirror then none else match g.mdst with
        | some _ => (s.chart.frames.find? (fun p => p.2.ext == r.ext && p.2.mirror && p.2.pos == r.pos && some p.1 != g.mdst)).map (·.1)
        | none => none
      let s1 := { s with migs := s.migs.filter (fun m => m.src != src) }
      let s2 := (s1.freeFrame src).bump O.migrations_done
      let s3 := match oldMir with
        | some f => s2.freeFrame f
        | none => s2
      let late := want ≠ 0 ∧ want - 1 ≠ tierOf g.dst
      let s4 := if late then s3.setTarget g.dst want else s3
      let s5 := s4.mirrorFields g.dst
      let s6 : State := if g.kind = 1 then s5.bump O.place_done else s5
      let s7 : State := if g.kind = 2 then s6.drainCheck g.op
        else if decide (g.kind = 3) && (s6.rangeFrames g.op).isEmpty && decide (s6.ov O.hbm_state g.op ≤ 2) then s6.setOv O.hbm_state 3 g.op else s6
      s7

/-- Extents that have left MOORED end their frames' migrations (R307). -/
def State.abandonClosed (s : State) : State :=
  s.abandonIf (fun g => (s.ext (s.frame g.src).ext).st != .moored)

/-! ### Starting moves -/

/-- The four sectors from one on. -/
def allSecs : List Nat := [0, 1, 2, 3]

/-- Extent frames of a pair, ascending. -/
def State.pairFrames (s : State) (pair : Nat) : List Nat :=
  (s.chart.frames.filter (fun p => decide (4096 ≤ p.1 ∧ pairOf p.1 = pair) && p.2.ext != 0)).map (·.1)

/-- Frames of a pair that are claimed as destinations and are not of their extent's lists. -/
def State.claimed (s : State) (f : Nat) : Bool := s.migs.any (fun g => g.dst == f || g.mdst == some f)

/-- Every extent frame of a pair finds a destination outside it (R308). -/
def State.drainFits (s : State) : List Nat → List Nat → Bool
  | [], _ => true
  | f :: t, avoid =>
    match s.moveDest f 1 allSecs avoid with
    | some (d, none) => State.drainFits s t (d :: avoid)
    | some (d, some g) => State.drainFits s t (d :: g :: avoid)
    | none => false

/-- Mark a pair draining: no MOOR allocates from it. -/
def State.markDraining (s : State) (pair : Nat) : State :=
  s.setUnitSt O.dcp_state (s.ov O.dcp_state pair % 16 + 16) pair

/-- A drain starts, beside others of its pair: 5 NO_FRAMES when it cannot fit, else 0 (R308). -/
def State.startDrain (s : State) (pair op : Nat) (auto : Bool) : Nat × State :=
  let s1 := s.markDraining pair
  if s1.drainFits (s1.pairFrames pair) [] then
    let ds := s1.drains.filter (fun d => d.pair != pair || d.auto != auto || d.op != op) ++ [⟨pair, auto, op, true⟩]
    (0, ({ s1 with drains := ds }).drainCheck pair)
  else (5, s)

/-- A drain that the controller started and that does not fit ends; the pair goes on draining for others (R308, R360). -/
def State.drainFails (s : State) (pair : Nat) : State :=
  let ds := s.drains.filter (fun d => d.pair != pair || d.checked)
  let s1 : State := { s with drains := ds }
  let s2 := if ds.any (fun d => d.pair == pair) then s1 else s1.setUnitSt O.dcp_state (s1.ov O.dcp_state pair % 16) pair
  s2.setOv O.dcp_drain_result 5 pair

/-- The next frame of a drain moves (R308, R360): the lowest-numbered that may. -/
def State.drainMove (s : State) (pair : Nat) : State :=
  let mine := s.drains.filter (fun d => d.pair == pair)
  if mine = [] then s
  else
    let q := match mine.find? (fun d => !d.checked) with
      | some d => s.startDrain pair d.op d.auto
      | none => (0, s)
    if q.1 ≠ 0 then s.drainFails pair
    else
      let s1 := q.2
      match (s1.pairFrames pair).find? (fun f => s1.canMove f && !s1.claimed f) with
      | none => s1.drainCheck pair
      | some f => match s1.moveDest f 1 allSecs [] with
        | some e => s1.beginMove f 2 pair e
        | none => s1

/-- The next frame leaves a stack's withdrawn range for another stack, or the stack waits for a frame (R364 step 2). -/
def State.relayMove (s : State) (n : Nat) : State :=
  if s.ov O.hbm_state n ≠ 1 ∧ s.ov O.hbm_state n ≠ 2 then s
  else match (s.rangeFrames n).find? (fun f => s.canMove f && !s.claimed f) with
    | none => if s.rangeFrames n = [] then s.setOv O.hbm_state 3 n else s
    | some f => match s.moveDest f 0 (allSecs.filter (· != n)) [] with
      | some e => (s.setOv O.hbm_state 1 n).beginMove f 3 n e
      | none => s.setOv O.hbm_state 2 n

/-! ### Placement (R341-R343) -/

/-- Frames whose target differs from their tier and that are not migrating, in the order their targets were set. -/
def State.placeable (s : State) : List Nat :=
  let l := s.chart.frames.filter (fun p => p.2.target != 0 && p.2.target - 1 != tierOf p.1 && p.2.ext != 0 && !p.2.mirror
    && (s.migOf p.1).isNone)
  (l.foldr (fun p acc =>
    let a := acc.filter (fun q => decide (q.2.torder < p.2.torder))
    a ++ [p] ++ acc.filter (fun q => !decide (q.2.torder < p.2.torder))) []).map (·.1)

/-- Own sector first, then from the lowest-numbered (R342). -/
def placeSecs (f : Nat) : List Nat := sectorOf f :: allSecs.filter (· != sectorOf f)

/-- The first frame in order that can start does; one without a destination stays pending (R343). -/
def State.placeFirst (s : State) : List Nat → State
  | [] => s
  | f :: t =>
    if s.canMove f then
      match s.moveDest f ((s.frame f).target - 1) (placeSecs f) [] with
      | some d => s.beginMove f 1 0 d
      | none => State.placeFirst s t
    else State.placeFirst s t

/-- A placement migration starts (R342). -/
def State.placeStart (s : State) : State :=
  if s.ob O.place_enable ∧ (s.migs.filter (fun g => g.kind == 1)).length < s.ov O.place_max then s.placeFirst s.placeable else s

/-- Set the targets of pages [v, v + n) of a window. -/
def State.placePages (s : State) (c t : Nat) : Nat → Nat → State
  | _, 0 => s
  | v, n + 1 =>
    let e := s.entry (s.ov O.win_base c + v)
    State.placePages (if e.valid ∧ e.typ = 0 then s.setTarget e.frame t else s) c t (v + 1) n

/-- PLACE (R341, Table 8). -/
def State.place (s : State) : State :=
  let c := s.ov O.place_ctx
  let v := s.ov O.place_vpn
  let n := s.ov O.place_count
  if n ≠ 0 ∧ (1024 ≤ c ∨ s.ov O.win_count c < v + n) then s.setOv O.place_result 1
  else if n ≠ 0 ∧ (s.ctx c).st ≠ .active then s.setOv O.place_result 2
  else (s.placePages c (s.ov O.place_target) v n).setOv O.place_result 0

end Sys2Proof.Machine
end

