-- ==== Sys2Proof/Machine/Tenders.lean ====
section
/-! DEFINITION. Sys2Proof/Machine/Tenders.lean: tender rings and descriptors (R296-R303), the operations COPY, MIGRATE, PUT, GET,
HOST_IN, HOST_OUT, UNWRAP and DRAIN (R290-R317), BLK exchanges (R312-R314) and peer mirroring (R315, R316). -/

namespace Sys2Proof.Machine

open Sys2Proof

/-! ### Descriptors (R300, R301) -/

def Tend.opc (o : Tend) : Nat := fld o.desc 0 1
def Tend.notify (o : Tend) : Bool := bit (fld o.desc 1 1) 0
def Tend.vector (o : Tend) : Nat := fld o.desc 4 1
def Tend.arg (o : Tend) : Nat := fld o.desc 5 1
def Tend.node (o : Tend) : Nat := fld o.desc 6 2
def Tend.count (o : Tend) : Nat := fld o.desc 8 8
def Tend.src (o : Tend) : Nat := fld o.desc 16 8
def Tend.dst (o : Tend) : Nat := fld o.desc 24 8
def Tend.grant (o : Tend) : Nat := fld o.desc 32 16
def Tend.handle (o : Tend) : Nat := fld o.desc 48 4

/-- The descriptor obeys its row of Table 3, its reserved fields and its limits (R5, R6, R301). -/
def tendForm (o : Tend) : Bool :=
  let d := o.desc
  let k := o.opc
  let n := o.count
  let al (x : Nat) : Bool := x % 128 == 0
  let argMask := match k with
    | 2 => 0xB1
    | 8 => 0x0F
    | 5 => 0x01
    | 6 => 0x01
    | _ => 0
  let rsv := fld d 1 1 / 4 == 0 && fld d 2 2 / 1024 == 0 && (o.arg &&& argMask) == o.arg && fld d 52 4 == 0
    && decide (o.vector ≤ 63)
    && decide (o.node < 4096 ∧ o.handle < 2 ^ 20)
    && (if k = 2 then o.dst == 0 else true) && (if k = 8 then o.src == 0 && o.dst == 0 else true)
  decide (1 ≤ k ∧ k ≤ 8) && rsv && (match k with
    | 1 => al o.src && al o.dst && al n && decide (n ≤ 2 ^ 40) && !spansMeet (o.src, n) (o.dst, n)
    | 2 => o.src % 2 ^ 26 == 0 && decide (n ≤ 16384)
    | 3 => al o.src && al o.dst && al n && decide (n ≤ 2 ^ 40)
    | 4 => al o.src && al o.dst && al n && decide (n ≤ 2 ^ 40)
    | 5 => o.src % 4096 == 0 && decide (n ≤ 16384)
    | 6 => o.dst % 4096 == 0 && decide (n ≤ 16384)
    | 7 => al o.src && al o.dst && al n
    | _ => decide (n ≤ 1 ∧ o.arg ≤ 11))

/-! ### Rings (R296-R299) -/

/-- A doorbell of a tender ring is tried (R297). -/
def State.trBell (s : State) (port data : Nat) : State :=
  let tail := data % 65536
  let head := s.ov O.tr_head port
  let new := (tail + 65536 - head) % 65536
  let cur := (s.ov O.tr_tail port + 65536 - head) % 65536
  if s.ob O.tr_enable port ∧ cur ≤ new ∧ new ≤ s.ov O.tr_size port then s.setOv O.tr_tail tail port
  else s.bump O.tr_bad_bells port

def State.op? (s : State) (id : Nat) : Option Tend := s.tends.ops.find? (fun o => o.id == id)

def State.updOp (s : State) (id : Nat) (f : Tend → Tend) : State :=
  { s with tends := { s.tends with ops := s.tends.ops.map (fun o => if o.id = id then f o else o) } }

/-- Chunks of 4 KiB that a range of bytes makes, cut at 4 KiB boundaries of the address that leads (R290, R314). -/
def chunkCount (lead n : Nat) : Nat := if n = 0 then 0 else (lead + n - 1) / 4096 - lead / 4096 + 1

/-- Chunk `i` of such a range: its start within the range and its bytes. -/
def chunkSpan (lead n i : Nat) : Nat × Nat :=
  let a := if i = 0 then 0 else (lead / 4096 + i) * 4096 - lead
  (a, min n ((lead / 4096 + i + 1) * 4096 - lead) - a)

/-- The address whose 4 KiB boundaries cut an operation: the pool side written, or the remote extent's offset. -/
def Tend.lead (o : Tend) : Nat := if o.opc = 4 then o.src else o.dst

/-- Bytes of a wrapped image's content as its header gives them (R473), kept in `key` once read. -/
def Tend.bytesMoved (o : Tend) : Nat :=
  match o.opc with
  | 5 => o.count * 2 ^ 26
  | 6 => o.count * 2 ^ 26
  | 7 => o.key
  | _ => o.count

/-- Chunks of an operation. -/
def Tend.chunks (o : Tend) : Nat :=
  match o.opc with
  | 2 => 0
  | 8 => 0
  | 5 => o.count * 16384
  | 6 => o.count * 16384
  | 7 => if o.started then chunkCount o.dst o.key else 1
  | _ => chunkCount o.lead o.count

/-- The frames a host migration names: positions of the extent from an index on. -/
def Tend.hostIndex (o : Tend) : Nat := if o.opc = 5 then o.dst else o.src

/-- Some frame of an extent's range is named by a valid chart entry, a REVOKED one among them (R310, R541). -/
def State.rangeMapped (s : State) (x : Ext) (i n : Nat) : Bool :=
  let fs := (x.frames.drop i).take n
  s.chart.ents.any (fun p => p.2.valid && p.2.typ != 1 && fs.contains p.2.frame)

/-- The status with which an operation ends as it starts: 0 none, 1 BAD_DESC, 6 BUSY, 8 NODE_UNREACHABLE (R309, R310,
R312). -/
def State.startStatus (s : State) (o : Tend) : Nat :=
  match o.opc with
  | 3 => if s.ov O.node_number = 0xFFF ∨ o.node = s.ov O.node_number then 8 else 0
  | 4 => if s.ov O.node_number = 0xFFF ∨ o.node = s.ov O.node_number then 8 else 0
  | 5 => hostStatus
  | 6 => hostStatus
  | _ => 0
where
  /-- A host migration's extent is MOORED, owned by the context, long enough, and not mapped. -/
  hostStatus : Nat :=
    match s.liveExt o.handle with
    | none => 1
    | some x =>
      if x.st ≠ .moored ∨ x.owner ≠ o.ctx ∨ x.frames.length < o.hostIndex + o.count then 1
      else if s.rangeMapped x o.hostIndex o.count then 6 else 0

/-- The controller fetches the descriptor at a ring's head and starts it (R298, R301). -/
def State.tenderFetch (s : State) (ring : Nat) (rd : HostRd) : State :=
  let head := s.ov O.tr_head ring
  let act := s.tends.ops.filter (fun o => o.ring == ring)
  let desc := fitTo 64 rd.data
  let c := fld desc 2 2 % 1024
  if s.pwr.entering ∨ 2 ≤ ring ∨ !s.ob O.tr_enable ring ∨ head = s.ov O.tr_tail ring ∨ 16 ≤ act.length ∨ rd.err ∨
      (bit (fld desc 1 1) 1 ∧ act ≠ []) then s
  else
    let o : Tend := {
      id := s.tends.nextOp, ring := ring, index := head, desc := desc, ctx := c, next := 0, total := 0, redo := [],
      running := [], done := 0, fail := 0, poisoned := false, skipped := false, parked := none, asleep := none, remote := [], pages := [],
      started := false, key := 0 }
    let bad := !tendForm o || (o.opc != 8 && ((s.ctx c).st != .active || s.ov O.owner_port c != ring))
    let fail := if bad then 1 else if o.count = 0 then 0 else s.startStatus o
    let s1 := { s with tends := { s.tends with ops := s.tends.ops ++ [{ o with fail := fail }], nextOp := o.id + 1 } }
    s1.setOv O.tr_head ((head + 1) % 65536) ring

/-! ### Taking chunks (R290, R293, R295) -/

/-- The unit number of an engine's translation cache. -/
def engineUnit (te : Nat) : Nat := 64 + te

/-- The source number of an engine in fault records (R526). -/
def engineSource (te : Nat) : Nat := 2 * 2 ^ 12 + te

/-- Chunks outstanding of a context over all engines. -/
def State.chunksOf (s : State) (c : Nat) : Nat :=
  ((s.tends.ops.filter (fun o => o.ctx == c)).map (fun o => o.running.length)).foldl (· + ·) 0

/-- Chunks an engine has outstanding. -/
def State.chunksOn (s : State) (te : Nat) : Nat :=
  (s.tends.ops.map (fun o => (o.running.filter (fun r => r.2 == te)).length)).foldl (· + ·) 0

/-- The next chunk of an operation that may start. -/
def Tend.nextChunk (o : Tend) : Option Nat :=
  if o.fail ≠ 0 ∨ o.count = 0 ∨ o.asleep.isSome ∨ (o.opc = 7 ∧ !o.started ∧ o.running ≠ []) then none
  else match o.redo with
    | k :: _ => some k
    | [] => if o.next < o.chunks then some o.next else none

/-- A context's tender quota leaves room (R293, R424). -/
def State.quotaRoom (s : State) (c : Nat) : Bool :=
  let q := s.ov O.tender_quota c
  if s.ov O.gov_level = 10 then decide (s.chunksOf c < (if q = 0xFFFF then 512 else (q + 1) / 2))
  else q == 0xFFFF || decide (s.chunksOf c < q)

/-- A sector's Foghorn is up (R349). -/
def State.fogUp (s : State) (sec : Nat) : Bool := s.ob O.fog_state 0 sec

/-- Foghorn is up in the sector of a frame. -/
def State.frameFog (s : State) (f : Nat) : Bool := s.fogUp (sectorOf f)

/-- The CVA ranges an operation's chunk reads or writes in its context's window, with the rights they need (R302). -/
def Tend.chunkRanges (o : Tend) (k : Nat) : List (Nat × Nat × Nat) :=
  let sp := chunkSpan o.lead o.count k
  match o.opc with
  | 1 => [(o.src + sp.1, sp.2, 1), (o.dst + sp.1, sp.2, 2)]
  | 3 => [(o.src + sp.1, sp.2, 1)]
  | 4 => [(o.dst + sp.1, sp.2, 2)]
  | 7 =>
    if o.started then
      let d := chunkSpan o.dst o.key k
      let i := d.1 / 4096
      let n := (d.1 + d.2 - 1) / 4096 - i + 1
      let body := o.src + 8192 + 4096 * ceilDiv (16 * ceilDiv o.key 4096) 4096
      [(body + 4096 * i, min (4096 * n) (o.key - 4096 * i), 1), (o.src + 8192 + 16 * i, 16 * n, 1), (o.dst + d.1, d.2, 2)]
    else [(o.src, 8192, 1)]
  | _ => []

/-- Foghorn is up in a sector that an operation's next chunk reads or writes (R295). -/
def State.chunkFog (s : State) (o : Tend) (k : Nat) : Bool :=
  let named (v : Nat) : Bool :=
    let e := s.entry (s.ov O.win_base o.ctx + v)
    decide (v < s.ov O.win_count o.ctx) && e.valid && e.typ == 0 && s.frameFog e.frame
  (cvaPages ((o.chunkRanges k).map (fun r => (r.1, r.2.1)))).any named
    || ((o.opc == 5 || o.opc == 6) && s.frameFog ((s.ext (o.handle % 65536)).frames.getD (o.hostIndex + k / 16384) 0))

/-- The first operation of a context with a chunk that may start, of a kind where one is named. -/
def State.opWithChunk (s : State) (c : Nat) (opc : Option Nat) : Option (Tend × Nat) :=
  s.tends.ops.findSome? (fun o =>
    if o.ctx = c ∧ opc.all (· == o.opc) then (o.nextChunk.filter (fun k => !s.chunkFog o k)).map (fun k => (o, k)) else none)

/-- Migrations with a chunk to copy that no Foghorn holds (R295). -/
def State.movers (s : State) : List Mig :=
  s.migs.filter (fun g => (g.phase == 1 || g.phase == 3) && g.todo != [] && !s.frameFog (s.moveFrom g) && !g.dests.any s.frameFog)

/-- The context that owns the extent of a frame, which the controller's own work on it is charged to (R294). -/
def State.ownerOf (s : State) (f : Nat) : Nat := (s.ext (s.frame f).ext).owner

/-- Resyncs with a chunk to send. -/
def State.resyncers (s : State) : List Resync :=
  s.tends.resyncs.filter (fun r => decide (r.next < (s.ext r.slot).frames.length * 16384)
    && !s.frameFog ((s.ext r.slot).frames.getD (r.next / 16384) 0))

/-- The frame that a message of a remote node reads or writes. -/
def State.servedFrame (s : State) (x : Served) : Nat := (s.ext (x.b.handle % 65536)).frames.getD (x.b.off / 2 ^ 26) 0

/-- The whole chunks of remote nodes' PUTs and GETs that no Foghorn holds (R312). -/
def State.servers (s : State) : List Served :=
  s.tends.served.filter (fun x => x.ready && x.b.bop != 4 && !s.frameFog (s.servedFrame x))

/-- The sweeps with a chunk to do that no Foghorn holds. -/
def State.sweepers (s : State) : List (Nat × Sweep) :=
  s.chart.sweeps.filter (fun p => decide (p.2.mark < 524288) && !s.frameFog p.2.frame)

/-- The contexts with work for an engine: chunks of their operations, and what is charged to them (R293, R294, R312). -/
def State.engineCtxs (s : State) : List Nat :=
  let own := s.movers.map (fun g => s.ownerOf g.src) ++ s.resyncers.map (fun r => (s.ext r.slot).owner)
    ++ s.servers.map (fun x => (s.ext (x.b.handle % 65536)).owner) ++ s.sweepers.map (fun p => p.2.ctx)
  (List.range 1024).filter (fun c => own.contains c || (s.opWithChunk c none).isSome)

/-- An engine may take chunks: its unit is LIT and not being fenced or swapped, and fewer than 64 are outstanding. -/
def State.engineReady (s : State) (te : Nat) : Bool :=
  decide (te < 16) && s.lit 2 te && (s.unit 2 (s.physOf 2 te)).doing == 0 && decide (s.chunksOn te < 64)

/-- The context that an engine's round robin serves next, all work of every kind being charged 4 KiB a chunk, and the robin's place once the
chunk has been taken (R293). -/
def State.pickCtx (s : State) (te : Nat) : Option (Nat × Drr) :=
  if s.engineReady te then
    let p := s.drrPick (Tab.get Drr.init s.tends.drr te) ((s.engineCtxs.filter s.quotaRoom).map (fun c => (c, 4096)))
    p.1.map (fun c => (c, p.2))
  else none

/-- An engine's round robin moves on: a chunk has been taken, and its group may have no more work (R421). -/
def State.charge (s : State) (te : Nat) (d : Drr) : State :=
  let d1 := d.settle (s.engineCtxs.any (fun c => s.ov O.svc_group c == d.group))
  { s with tends := { s.tends with drr := Tab.put Drr.init s.tends.drr te d1 } }

/-- The operation of a kind and the chunk that an engine takes: the first of the context that its round robin serves. -/
def State.pickChunk (s : State) (te opc : Nat) : Option (Tend × Nat × Drr) :=
  (s.pickCtx te).bind (fun p => (s.opWithChunk p.1 (some opc)).map (fun q => (q.1, q.2, p.2)))

/-- Mark a chunk taken by an engine. -/
def State.chunkTaken (s : State) (o : Tend) (k te : Nat) (d : Drr) : State :=
  (s.updOp o.id (fun x => { x with
    next := if x.redo = [] then x.next + 1 else x.next, redo := x.redo.drop 1, running := x.running ++ [(k, te)],
    parked := none, asleep := none })).charge te d

/-- An operation ends with a failure status; its chunks under way are given up (R302, R303). -/
def State.failOp (s : State) (id status : Nat) : State :=
  s.updOp id (fun x => if x.fail = 0 then { x with fail := status, redo := [], running := [], remote := [], parked := none, asleep := none } else x)

/-- Translate the pages of a chunk; on a page that must be waited for the operation parks, and on one that ends it the
operation fails (R302). -/
def State.chunkPages (s : State) (o : Tend) (te : Nat) (needs : List (Nat × Nat)) (ecc : List (Nat × Nat × Nat)) :
    Option (List (Nat × Entry)) × State :=
  let r := s.pagesFor (engineUnit te) (engineSource te) o.ctx ecc needs
  match r.1 with
  | .ok _ => (some r.2.1, r.2.2)
  | .ends st => (none, r.2.2.failOp o.id st)
  | .wait v =>
    if s.ov O.job_fault_timeout = 0 then (none, r.2.2.failOp o.id 2)
    else (none, r.2.2.updOp o.id (fun x => { x with parked := some (x.parked.getD s.ltc), asleep := some v }))

/-- The pages of byte ranges with the rights each needs. -/
def needPages (rs : List (Nat × Nat × Nat)) : List (Nat × Nat) :=
  (cvaPages (rs.map (fun r => (r.1, r.2.1)))).map (fun v =>
    (v, (rs.filter (fun r => decide (r.1 / 2 ^ 26 ≤ v ∧ v ≤ (r.1 + r.2.1 - 1) / 2 ^ 26))).foldl (fun a r => a ||| r.2.2) 0))

/-- Lines of a transfer by CVA. -/
def lineList (a n : Nat) : List Nat := (List.range (n / 128)).map (fun i => a + 128 * i)

/-- The lines of a chunk's ranges with one right, as an engine wants them under its translation. -/
def chunkWants (trs : List (Nat × Entry)) (c : Nat) (rs : List (Nat × Nat × Nat)) (right : Nat) : List Want :=
  wantsOf trs c ((rs.filter (fun r => r.2.2 == right)).map (fun r => (r.1, r.2.1)))

/-- Some line lies in a frame that is closed to the context (R543). -/
def State.closedWants (s : State) (c : Nat) (ws : List Want) : Bool := ws.any (fun w => s.frameClosed (frameOf (w.line * 128)) c)

/-- An operation goes on with lines only when all can be read and written: frames closed to its context end it with REVOKED, and lines that
caches hold, or that their home slices cannot serve yet, are asked for first (R291, R303, R543). -/
def State.withLines (s : State) (o : Tend) (reads writes : List Want) (go : State → State) : State :=
  if s.closedWants o.ctx (reads ++ writes) then s.failOp o.id 3
  else if s.clear reads writes then go s else s.askAll reads writes

/-- Note poison carried by a line of an operation (R304). -/
def State.noteCopied (s : State) (id : Nat) (v : LineVal) : State :=
  if v.poisoned then (s.bump O.te_poison_copied).updOp id (fun x => { x with poisoned := true }) else s

/-- Copy lines to lines. -/
def State.copyPairs (s : State) (id : Nat) : List (Want × Want) → State
  | [] => s
  | (a, b) :: t =>
    let q := s.innerRead a.ctx a.vpn a.line
    State.copyPairs ((q.2.noteCopied id q.1).innerLine b.line q.1) id t

/-- COPY: an engine takes and moves a chunk (R290, R291, R302, R304). -/
def State.runCopy (s0 : State) (te : Nat) (ecc : List (Nat × Nat × Nat)) (m : Met) : State :=
  let s1 := s0.meet m.errs
  match s1.pickChunk te 1 with
  | none => s0
  | some (o, k, d) =>
    let rs := o.chunkRanges k
    match s1.chunkPages o te (needPages rs) ecc with
    | (none, s2) => s2
    | (some trs, s2) =>
      let a := chunkWants trs o.ctx rs 1
      let b := chunkWants trs o.ctx rs 2
      s2.withLines o a b (fun t => (t.copyPairs o.id (a.zip b)).chunkTaken o k te d)

/-! ### BLK messages (R312-R314) -/

/-- The parts of a chunk's lines: two lines to a part (R314). -/
def partsOf (slots : List Slot) : List (Nat × List Slot) :=
  (List.range (ceilDiv slots.length 8)).map (fun p => (p, (slots.drop (8 * p)).take 8))

/-- The slots of lines that are read. -/
def State.readLines (s : State) : List Want → List Slot × List LineVal × State
  | [] => ([], [], s)
  | w :: t =>
    let q := s.innerRead w.ctx w.vpn w.line
    let r := State.readLines q.2 t
    (q.1.slots ++ r.1, q.1 :: r.2.1, r.2.2)

/-- The value of a line carried on BLK: a poisoned slot keeps the reason it carried in its first byte, else AGENT (R314,
R382; log 13). -/
def blkVal (ss : List Slot) : LineVal :=
  let w (i : Nat) : Cw :=
    let p := (ss.drop (2 * i)).take 2
    match p.find? (·.poison) with
    | some x =>
      let r := (x.bytes.getD 0 0).toNat
      .poison (if 1 ≤ r ∧ r ≤ 8 then r else 2)
    | none => .data (fitTo 64 (slotBytes p))
  ⟨w 0, w 1⟩

/-- Send the parts of a chunk on a port. -/
def State.sendParts (s : State) (port : Nat) (b : Blk) : List (Nat × List Slot) → State
  | [] => s
  | (p, ss) :: t => State.sendParts (s.send port { chan := 3, hdr := blkPack { b with part := p, slots := ss }, slots := ss }) port b t

/-- A context's bulk shaper holds 4,096 bytes (R422). -/
def State.shaperHas (s : State) (c : Nat) : Bool :=
  s.ov O.shp_rate c == 0xFFFF || decide (4096 ≤ tokens (s.ctx c).shp (s.ov O.shp_burst c))

/-- A chunk waits on the shaper, which is counted once for it (R422). -/
def State.shaperWait (s : State) (c : Nat) (key : Nat × Nat × Nat) : State :=
  if s.tends.waited.contains key then s
  else ({ s with tends := { s.tends with waited := s.tends.waited ++ [key] } } : State).bump O.shp_waits c

/-- A chunk takes its bytes from the shaper. -/
def State.shaperTake (s : State) (c : Nat) (key : Nat × Nat × Nat) : State :=
  let s1 : State := { s with tends := { s.tends with waited := s.tends.waited.filter (· != key) } }
  if s1.ov O.shp_rate c = 0xFFFF then s1
  else s1.setCtx c { s1.ctx c with shp := some (tokens (s1.ctx c).shp (s1.ov O.shp_burst c) - 4096) }

/-- The port of a chunk number among the BLK ports (R312). -/
def State.blkPort (s : State) (n : Nat) : Option Nat := s.blkPorts[n % s.blkPorts.length]?

/-- The exchange header of a chunk of a PUT (bop 1) or GET (bop 2). -/
def State.chunkHdr (s : State) (o : Tend) (k xid bop : Nat) : Blk :=
  let sp := chunkSpan o.lead o.count k
  ⟨bop, s.ov O.node_number, o.node, o.handle, o.lead + sp.1, xid, 0, 0, sp.2 / 128, o.grant, []⟩

/-- Send or send again the chunk of a PUT: its lines are read and its parts sent in order; with no BLK port nothing leaves. -/
def State.sendPut (s : State) (o : Tend) (k xid : Nat) (lines : List Want) : State :=
  let r := s.readLines lines
  let s1 := r.2.1.foldl (fun (t : State) v => t.noteCopied o.id v) r.2.2
  match s1.blkPort k with
  | some p => s1.sendParts p (s1.chunkHdr o k xid 1) (partsOf r.1)
  | none => s1

/-- Ask for the chunk of a GET; with no BLK port nothing leaves. -/
def State.sendGet (s : State) (o : Tend) (k xid : Nat) : State :=
  match s.blkPort k with
  | some p => s.send p { chan := 3, hdr := blkPack (s.chunkHdr o k xid 2), slots := [] }
  | none => s

/-- An operation opens an exchange for a chunk (R312). -/
def State.openRemote (s : State) (id k : Nat) : State :=
  ({ s with xid := (s.xid + 1) % 65536 } : State).updOp id (fun y => { y with remote := y.remote ++ [⟨k, s.xid, s.ltc, s.ltc, []⟩] })

/-- PUT: an engine takes a chunk and sends it, when the context's shaper lets it (R312, R422). -/
def State.runPut (s0 : State) (te : Nat) (ecc : List (Nat × Nat × Nat)) (m : Met) : State :=
  let s1 := s0.meet m.errs
  match s1.pickChunk te 3 with
  | none => s0
  | some (o, k, d) =>
    let rs := o.chunkRanges k
    match s1.chunkPages o te (needPages rs) ecc with
    | (none, s2) => s2
    | (some trs, s2) =>
      let lines := chunkWants trs o.ctx rs 1
      if !s2.shaperHas o.ctx then s0.shaperWait o.ctx (0, o.id, k)
      else s2.withLines o lines [] (fun t =>
        (((t.shaperTake o.ctx (0, o.id, k)).chunkTaken o k te d).openRemote o.id k).sendPut o k t.xid lines)

/-- GET: an engine takes a chunk and asks for it (R312). -/
def State.runGet (s : State) (te : Nat) (ecc : List (Nat × Nat × Nat)) : State :=
  match s.pickChunk te 4 with
  | none => s
  | some (o, k, d) =>
    match s.chunkPages o te (needPages (o.chunkRanges k)) ecc with
    | (none, s2) => s2
    | (some _, s2) => ((s2.chunkTaken o k te d).openRemote o.id k).sendGet o k s2.xid

/-- The operation and remote record of an exchange. -/
def State.exchange (s : State) (xid : Nat) : Option (Tend × Remote) :=
  s.tends.ops.findSome? (fun o => (o.remote.find? (fun r => r.xid == xid)).map (fun r => (o, r)))

def State.dropRemote (s : State) (id xid : Nat) : State :=
  s.updOp id (fun o => { o with remote := o.remote.filter (fun r => r.xid != xid) })

/-- A chunk with no answer after 100 µs is sent again (R312); a PUT's data passes the shaper again (R422). -/
def State.resend (s0 : State) (xid : Nat) (m : Met) : State :=
  let s := s0.meet m.errs
  match s.exchange xid with
  | none => s0
  | some (o, r) =>
    let again (t : State) : State :=
      t.updOp o.id (fun y => { y with remote := y.remote.map (fun q => if q.xid = xid then { q with last := s.ltc } else q) })
    if o.asleep.isSome then again s
    else if o.opc = 4 then (again s).sendGet o r.chunk xid
    else
      let rs := o.chunkRanges r.chunk
      match s.chunkPages o 0 (needPages rs) [] with
      | (none, s2) => s2
      | (some trs, s2) =>
        let lines := chunkWants trs o.ctx rs 1
        if !s2.shaperHas o.ctx then s0.shaperWait o.ctx (0, o.id, r.chunk)
        else s2.withLines o lines [] (fun t => (again (t.shaperTake o.ctx (0, o.id, r.chunk))).sendPut o r.chunk xid lines)

/-- An extent's mirror loses step: later writes are not sent, the lines waiting are released, and the event is logged. The spec names no code
for it: the code is free [DESIGN CHOICE, log 29] (R316). -/
def State.degrade (s : State) (slot : Nat) : State :=
  let x := s.ext slot
  match x.peer with
  | none => s
  | some p =>
    if p.state = 2 then s
    else
      let s1 := (s.setExt slot { x with peer := some { p with state := 2 } }).bump O.pm_degraded_events (x.handle slot)
      ({ s1 with
        mwrs := s1.mwrs.filter (fun w => w.slot != slot)
        tends := { s1.tends with resyncs := s1.tends.resyncs.filter (fun r => r.slot != slot) } } : State).event
          (Config.eventCode 316 % 65536) 5 x.owner x.owner 0

/-- No answer within `remote_timeout`: a remote operation ends with NODE_UNREACHABLE, a peer MOOR fails, or a mirror is
degraded (R87, R312, R316). -/
def State.remoteTimeout (s : State) (xid : Nat) : State :=
  match s.exchange xid with
  | some (o, _) => s.failOp o.id 8
  | none =>
    match s.mwrs.find? (fun w => w.xid == xid) with
    | some w => s.degrade w.slot
    | none => if s.chart.probe = some xid then s.extDone 7 else s

/-- A resync whose last line is answered leaves its extent IN_SYNC (R316). -/
def State.resyncEnd (s : State) (slot : Nat) : State :=
  let x := s.ext slot
  match s.tends.resyncs.find? (fun r => r.slot == slot), x.peer with
  | some r, some p =>
    if r.next = x.frames.length * 16384 ∧ !s.mwrs.any (fun w => w.slot == slot) then
      { s.setExt slot { x with peer := some { p with state := 1 } } with
        tends := { s.tends with resyncs := s.tends.resyncs.filter (fun q => q.slot != slot) } }
    else s
  | _, _ => s

/-- An ANS arrives (R314): for a chunk of a PUT or a refused GET, or for a mirror write. -/
def State.blkAns (s : State) (b : Blk) : State :=
  match s.exchange b.xid with
  | some (o, r) => if b.status = 0 then s.dropRemote o.id r.xid else s.failOp o.id 7
  | none =>
    match s.mwrs.find? (fun w => w.xid == b.xid) with
    | none => s
    | some w =>
      if b.status = 0 then ({ s with mwrs := s.mwrs.filter (fun y => y.xid != b.xid) }).resyncEnd w.slot
      else s.degrade w.slot

/-- Write lines that have been brought. -/
def State.landLines (s : State) (id : Nat) : List (Nat × LineVal) → State
  | [] => s
  | (l, v) :: t => State.landLines ((s.noteCopied id v).innerLine l v) id t

/-- The lines of a chunk from its parts, in order. -/
def partVals (parts : List (Nat × List Slot)) (n : Nat) : List LineVal :=
  let ss := (List.range 16).flatMap (fun p => ((parts.find? (fun x => x.1 == p)).map (·.2)).getD [])
  (List.range n).map (fun i => blkVal ((ss.drop (4 * i)).take 4))

/-- A part of a chunk arrives: kept until the last, and then written when its lines can be (R312, R314). While they cannot, the chunk
counts as not answered and is asked for again. -/
def State.getData (s0 : State) (b : Blk) (m : Met) : State :=
  let s := s0.meet m.errs
  match s.exchange b.xid with
  | none => s0
  | some (o, r) =>
    let parts := r.parts.filter (fun p => p.1 != b.part) ++ [(b.part, b.slots)]
    let rs := o.chunkRanges r.chunk
    let n := (chunkSpan o.lead o.count r.chunk).2 / 128
    let s1 := s.updOp o.id (fun y => { y with remote := y.remote.map (fun q => if q.xid = r.xid then { q with parts := parts } else q) })
    if parts.length < ceilDiv n 2 ∨ o.asleep.isSome then s1
    else
      let te := ((o.running.find? (fun x => x.1 == r.chunk)).map (·.2)).getD 0
      match s1.chunkPages o te (needPages rs) [] with
      | (none, s2) => s2
      | (some trs, s2) =>
        let ws := chunkWants trs o.ctx rs 2
        s2.withLines o [] ws (fun t =>
          (t.landLines o.id ((ws.map (·.line)).zip (partVals parts n))).dropRemote o.id r.xid)

/-! ### Serving a remote node (R91, R312, R314) -/

/-- An answer's header. -/
def answer (s : State) (b : Blk) (bop status : Nat) (slots : List Slot) : Blk :=
  ⟨bop, s.ov O.node_number, b.src, b.handle, b.off, b.xid, 0, status, if bop = 3 then b.lines else 0, 0, slots⟩

def State.blkAnswer (s : State) (port : Nat) (b : Blk) (bop status : Nat) (slots : List Slot) : State :=
  s.send port { chan := 3, hdr := blkPack (answer s b bop status slots), slots := slots }

/-- The check of a request by its grant and range: the extent's slot, or a status to answer with. -/
def State.blkCheck (s : State) (b : Blk) (right : Nat) : Nat × Nat :=
  match s.honoured b.grant b.src b.handle right with
  | none => (1, 0)
  | some slot =>
    if b.off % 128 ≠ 0 ∨ (s.ext slot).frames.length * 2 ^ 26 < b.off + 128 * b.lines then (2, 0) else (0, slot)

/-- The line at an offset of an extent. -/
def State.extLine (s : State) (slot off : Nat) : Nat :=
  ((s.ext slot).frames.getD (off / 2 ^ 26) 0 * 2 ^ 26 + off % 2 ^ 26) / 128

/-- The lines of an extent that a message of a remote node names. -/
def State.servedLines (s : State) (slot : Nat) (b : Blk) : List Want :=
  (List.range b.lines).map (fun i => ownWant (s.extLine slot (b.off + 128 * i)))

/-- A message is kept for the engines, in place of an earlier sending of it. -/
def State.keepServed (s : State) (x : Served) : State :=
  let rest := s.tends.served.filter (fun y => !(y.b.src == x.b.src && y.b.xid == x.b.xid && y.b.bop == x.b.bop))
  { s with tends := { s.tends with served := rest ++ [x] } }

def State.dropServed (s : State) (x : Served) : State :=
  { s with tends := { s.tends with served := s.tends.served.filter (fun y => !(y.b.src == x.b.src && y.b.xid == x.b.xid && y.b.bop == x.b.bop)) } }

/-- A part of a PUT arrives: the grant and the range are checked for each, and a chunk with all its parts waits for an engine, or is refused
by one ANS (R312, R314). -/
def State.blkPut (s : State) (port : Nat) (b : Blk) : State :=
  let old := s.tends.served.find? (fun x => x.b.src == b.src && x.b.xid == b.xid && x.b.bop == 1 && !x.ready)
  let parts := ((old.map (·.parts)).getD []).filter (fun p => p.1 != b.part) ++ [(b.part, b.slots)]
  let before := (old.map (·.bad)).getD 0
  let bad := if before ≠ 0 then before else (s.blkCheck b 1).1
  let x : Served := ⟨{ b with slots := [] }, port, parts, bad, false⟩
  if parts.length < ceilDiv b.lines 2 then s.keepServed x
  else if bad ≠ 0 then (s.dropServed x).blkAnswer port b 5 bad []
  else s.keepServed { x with ready := true }

/-- A GET arrives: refused, or kept for an engine (R312, R314). -/
def State.blkGet (s : State) (port : Nat) (b : Blk) : State :=
  let q := s.blkCheck b 0
  if q.1 ≠ 0 then s.blkAnswer port b 5 q.1 [] else s.keepServed ⟨{ b with slots := [] }, port, [], 0, true⟩

/-- An engine serves a whole chunk of a remote node, checking its grant again (R91, R312): a PUT's lines are written and answered; a GET's
are sent when the owner's shaper lets them (R422). Lines that caches hold are asked for first. -/
def State.serveChunk (s : State) (x : Served) : Bool × State :=
  let b := x.b
  let q := s.blkCheck b (if b.bop = 1 then 1 else 0)
  let ls := s.servedLines q.2 b
  if q.1 ≠ 0 then (true, (s.dropServed x).blkAnswer x.port b 5 q.1 [])
  else if b.bop = 1 then
    if s.clear [] ls then
      (true, (((s.dropServed x).landLines 0 ((ls.map (·.line)).zip (partVals x.parts b.lines)))).blkAnswer x.port b 5 0 [])
    else (false, s.askAll [] ls)
  else
    let owner := (s.ext q.2).owner
    if !s.shaperHas owner then (false, s.shaperWait owner (1, b.src, b.xid))
    else if s.clear ls [] then
      let r := ((s.dropServed x).shaperTake owner (1, b.src, b.xid)).readLines ls
      (true, r.2.2.sendParts x.port (answer r.2.2 b 3 0 []) (partsOf r.1))
    else (false, s.askAll ls [])

/-- A mirror write is made and answered, or kept until its line can be written (R314, R315). -/
def State.serveMwr (s : State) (x : Served) : State :=
  let b := x.b
  let q := s.blkCheck b 2
  let ls := s.servedLines q.2 { b with lines := 1 }
  if q.1 ≠ 0 then (s.dropServed x).blkAnswer x.port b 5 q.1 []
  else if s.clear [] ls then
    ((s.dropServed x).landLines 0 ((ls.map (·.line)).zip (partVals x.parts 1))).blkAnswer x.port b 5 0 []
  else (s.askAll [] ls).keepServed x

/-- A mirror write arrives: one line (R314, R315). -/
def State.mwr (s : State) (port : Nat) (b : Blk) (m : Met) : State :=
  (s.meet m.errs).serveMwr ⟨{ b with slots := [] }, port, [(0, b.slots)], 0, true⟩

/-- The mirror writes that wait are tried again. -/
def State.serveMwrs (s : State) : State := (s.tends.served.filter (fun x => x.b.bop == 4)).foldl State.serveMwr s

/-- A PROBE arrives: answered with the extent's frame count (R87, R314). -/
def State.blkProbe (s : State) (port : Nat) (b : Blk) : State :=
  match s.honoured b.grant b.src b.handle 2 with
  | none => s.blkAnswer port b 7 1 [⟨zeros 32, false⟩]
  | some slot => s.blkAnswer port b 7 0 [⟨fitTo 32 (natLe 4 (s.ext slot).frames.length), false⟩]

/-- A PROBE_ANS arrives. -/
def State.blkProbeAns (s : State) (b : Blk) : State :=
  s.probeAnswer b.xid b.status (leNat ((b.slots.headD ⟨zeros 32, false⟩).bytes.take 4))

/-- A BLK message of a kind, by its `bop`; a reserved one is discarded and counted (R313, R314). -/
def State.blkArrive (s : State) (port : Nat) (b : Blk) (m : Met) : State :=
  match b.bop with
  | 1 => (s.meet m.errs).blkPut port b
  | 2 => (s.meet m.errs).blkGet port b
  | 3 => s.getData b m
  | 4 => s.mwr port b m
  | 5 => s.blkAns b
  | 6 => s.blkProbe port b
  | 7 => s.blkProbeAns b
  | _ => s.bump O.chan_errors port

/-! ### Resync (R316) -/

/-- `pm_resync` of an extent; refused unless it is DEGRADED, and while this node has no number (R89). -/
def State.startResync (s : State) (handle : Nat) : Bool × State :=
  match s.liveExt handle with
  | none => (false, s)
  | some x => match x.peer with
    | none => (false, s)
    | some p =>
      if p.state ≠ 2 ∨ s.ov O.node_number = 0xFFF then (false, s)
      else (true, { s.setExt (handle % 65536) { x with peer := some { p with state := 3 } } with
        tends := { s.tends with resyncs := s.tends.resyncs ++ [⟨handle % 65536, 0⟩] } })

/-- Send lines to the partner as internal RdOnces read them (R291, R316). -/
def State.peerLines (s : State) : List Want → State
  | [] => s
  | w :: t =>
    let q := s.innerRead w.ctx w.vpn w.line
    State.peerLines (q.2.peerWrite w.line 0 q.1) t

/-- A resync sends one chunk's lines to the partner. -/
def State.resyncChunk (s : State) (r : Resync) : Bool × State :=
  let f := (s.ext r.slot).frames.getD (r.next / 16384) 0
  let ls := (frameLines f (r.next % 16384)).map ownWant
  if s.clear ls [] then
    let s1 := s.peerLines ls
    (true, { s1 with tends := { s1.tends with
      resyncs := s1.tends.resyncs.map (fun q => if q.slot = r.slot then { q with next := q.next + 1 } else q) } })
  else (false, s.askAll ls [])

/-! ### Host migration (R309-R311, R456) -/

/-- The PCIe port a host migration uses. -/
def Tend.hostPort (o : Tend) : Nat := o.arg % 2

/-- Host pages of an enclave context move encrypted in SERVICE (R456). -/
def State.hostCipher (s : State) (c : Nat) : Bool := s.ov O.lc_state == 2 && s.ob O.enclave c

/-- A line encrypted or decrypted with the host-page key: an outside cipher (log 4). -/
def hostLine (use key addr : Nat) (bs : Bytes) : Bytes := natLe 128 (Config.digest use key (natLe 8 (addr / 128) ++ bs))

/-- The lines of a chunk of a host migration. -/
def Tend.hostChunk (o : Tend) (x : Ext) (k : Nat) : List Nat := frameLines (x.frames.getD (o.hostIndex + k / 16384) 0) (k % 16384)

/-- HOST_IN: an engine takes a chunk and writes it from host memory (R309-R311). -/
def State.runHostIn (s0 : State) (te : Nat) (rd : HostRd) (m : Met) : State :=
  let s1 := s0.meet m.errs
  match s1.pickChunk te 5 with
  | none => s0
  | some (o, k, d) =>
    match s1.liveExt o.handle with
    | none => s1.failOp o.id 3
    | some x =>
      if x.st ≠ .moored then s1.failOp o.id 3
      else if rd.err then s1.failOp o.id 9
      else
        let key := (s1.ctx o.ctx).hostKey
        let val (i : Nat) : LineVal :=
          let bs := slice (128 * i) 128 rd.data
          let pl := if s1.hostCipher o.ctx then hostLine 10 key (o.src + k * 4096 + 128 * i) bs else bs
          let w (h : Nat) : Cw := if rd.poison.getD (2 * i + h) false then .poison 8 else .data (slice (64 * h) 64 pl)
          ⟨w 0, w 1⟩
        let ls := o.hostChunk x k
        s1.withLines o [] (ls.map ownWant) (fun t => (t.landLines o.id (ls.zip ((List.range 32).map val))).chunkTaken o k te d)

/-- Write the lines of a chunk to the host; a poisoned block goes with the EP bit, and an event under a code that no
table names (R387, log 29). -/
def State.hostLines (s : State) (o : Tend) (cipher : Bool) (addr : Nat) : List Nat → State
  | [] => s
  | l :: t =>
    let q := s.innerRead o.ctx 0 l
    let bs := if cipher then hostLine 9 (s.ctx o.ctx).hostKey addr q.1.bytes else q.1.bytes
    let s0 := q.2.noteCopied o.id q.1
    let s1 := if q.1.poisoned then s0.event (Config.eventCode 387 % 65536) 3 o.hostPort o.ctx 0 else s0
    let s2 := (s1.emit (.hostWr o.hostPort 0 addr (slice 0 64 bs) q.1.lo.isPoison)).emit
      (.hostWr o.hostPort 0 (addr + 64) (slice 64 64 bs) q.1.hi.isPoison)
    State.hostLines s2 o cipher (addr + 128) t

/-- HOST_OUT: an engine takes a chunk and copies it to host memory (R309-R311); `err` says a PCIe write failed. -/
def State.runHostOut (s0 : State) (te : Nat) (err : Bool) (m : Met) : State :=
  let s1 := s0.meet m.errs
  match s1.pickChunk te 6 with
  | none => s0
  | some (o, k, d) =>
    match s1.liveExt o.handle with
    | none => s1.failOp o.id 3
    | some x =>
      if x.st ≠ .moored then s1.failOp o.id 3
      else if err then s1.failOp o.id 9
      else
        let ls := o.hostChunk x k
        s1.withLines o (ls.map ownWant) [] (fun t =>
          (t.hostLines o (t.hostCipher o.ctx) (o.dst + k * 4096) ls).chunkTaken o k te d)

/-! ### Unwrap-copy (R317, R473) -/

/-- The destination of a failed import is written with zeros (R317). -/
def State.zeroLines (s : State) : List Nat → State
  | [] => s
  | l :: t => State.zeroLines (s.innerLine l ⟨.data (zeros 64), .data (zeros 64)⟩) t

/-- The bytes at CVA ranges of a context, and whether any of them is poison. -/
def State.readCva (s : State) (c : Nat) (trs : List (Nat × Entry)) (rs : List (Nat × Nat)) : Bytes × Bool × State :=
  let g := s.gatherCva c trs (cvaLines rs)
  let bs := rs.map (fun r => gatherBytes g.1 r.1 r.2)
  (bs.flatMap (·.1), bs.any (·.2), g.2)

/-- A set record's digest names a set formed here whose key SERVICE unseals (R472, R473). -/
def State.holdsSet (s : State) (digest : Bytes) : Bool :=
  s.ov O.lc_state == 2 && s.sec.sets.any (fun p =>
    p.2.st == 2 && p.2.key != 0 && decide (natLe 32 (Config.digest 1 0 (s.oct O.set_record p.1)) = digest))

/-- The header of a wrapped image is sound and names a set held here, its key unwraps (`keyOk`), and the image is no longer than the operation
says (R317, R473). -/
def State.wrapGood (s : State) (o : Tend) (keyOk : Bool) (h : Bytes) : Bool :=
  let c := fld h 56 8
  let total := 8192 + 4096 * ceilDiv (16 * ceilDiv c 4096) 4096 + c
  keyOk && fld h 0 4 == 0x50415257 && fld h 4 2 == 1 && c % 128 == 0 && decide (total ≤ o.count) && s.holdsSet (slice 24 32 h)

/-- UNWRAP's first work: the header is read, and its key recovered by the Keeper. A header that carries poison fails its checks. -/
def State.unwrapHead (s : State) (o : Tend) (te : Nat) (d : Drr) (keyOk : Bool) (ecc : List (Nat × Nat × Nat)) : State :=
  let rs := o.chunkRanges 0
  match s.chunkPages o te (needPages rs) ecc with
  | (none, s2) => s2
  | (some trs, s2) => s2.withLines o (chunkWants trs o.ctx rs 1) [] (fun t =>
      let r := t.readCva o.ctx trs [(o.src, 8192)]
      if !r.2.1 && t.wrapGood o keyOk r.1 then
        (r.2.2.charge te d).updOp o.id (fun y => { y with started := true, key := fld r.1 56 8, desc := y.desc ++ slice 72 32 r.1 })
      else r.2.2.failOp o.id 0xA)

/-- A chunk of an UNWRAP: its content and the tags of it are read, `tagOk` says that the tags fit, and `plain` is the chunk as the content key
gives it. Content or tags that carry poison fit no tag. On a failure every byte of the destination is written with zeros first (R317). -/
def State.unwrapChunk (s : State) (o : Tend) (k te : Nat) (d : Drr) (tagOk : Bool) (plain : Bytes) (ecc : List (Nat × Nat × Nat)) : State :=
  let rs := o.chunkRanges k
  match s.chunkPages o te (needPages ((o.dst, o.key, 2) :: rs)) ecc with
  | (none, s2) => s2
  | (some trs, s2) =>
    let reads := chunkWants trs o.ctx rs 1
    s2.withLines o reads [] (fun t =>
      let r := t.readCva o.ctx trs ((rs.filter (fun x => x.2.2 == 1)).map (fun x => (x.1, x.2.1)))
      if tagOk && !r.2.1 then
        let ws := chunkWants trs o.ctx rs 2
        r.2.2.withLines o [] ws (fun u =>
          let vs := ws.zipIdx.map (fun p =>
            (p.1.line, (⟨.data (slice (128 * p.2) 64 plain), .data (slice (128 * p.2 + 64) 64 plain)⟩ : LineVal)))
          (u.landLines o.id vs).chunkTaken o k te d)
      else
        let all := wantsOf trs o.ctx [(o.dst, o.key)]
        r.2.2.withLines o [] all (fun u => (u.zeroLines (all.map (·.line))).failOp o.id 0xA))

/-- UNWRAP: an engine takes the next piece of work: first the header, then each chunk. -/
def State.runUnwrap (s0 : State) (te : Nat) (keyOk tagOk : Bool) (plain : Bytes) (ecc : List (Nat × Nat × Nat)) (m : Met) :
    State :=
  let s1 := s0.meet m.errs
  match s1.pickChunk te 7 with
  | none => s0
  | some (o, k, d) => if o.started then s1.unwrapChunk o k te d tagOk plain ecc else s1.unwrapHead o te d keyOk ecc

/-! ### MIGRATE and DRAIN as operations (R305, R308) -/

/-- The sectors a MIGRATE may take frames from, and its tier. -/
def Tend.migPlace (o : Tend) : List Nat × Nat :=
  (if o.arg.testBit 7 then allSecs else [bits o.arg 4 2], o.arg % 2)

/-- Frames of pages, each once. -/
def frameSet (l : List Nat) : List Nat := l.foldl (fun a f => if a.contains f then a else a ++ [f]) []

/-- Every frame finds a destination (R305). -/
def State.movesFit (s : State) (tier : Nat) (secs : List Nat) : List Nat → List Nat → Bool
  | [], _ => true
  | f :: t, avoid =>
    match s.moveDest f tier secs avoid with
    | some (d, none) => State.movesFit s tier secs t (d :: avoid)
    | some (d, some g) => State.movesFit s tier secs t (d :: g :: avoid)
    | none => false

/-- MIGRATE: the pages are translated and the frames to move checked, before anything moves (R302, R305, R310). -/
def State.runMigrate (s : State) (id te : Nat) (ecc : List (Nat × Nat × Nat)) : State :=
  match s.op? id with
  | none => s
  | some o =>
    if o.opc ≠ 2 ∨ o.started ∨ o.fail ≠ 0 ∨ o.count = 0 ∨ o.asleep.isSome then s
    else
      match s.chunkPages o te ((List.range o.count).map (fun i => (o.src / 2 ^ 26 + i, 1))) ecc with
      | (none, s1) => s1
      | (some trs, s1) =>
        let fs := frameSet (trs.map (fun p => p.2.frame))
        let move := fs.filter (fun f => tierOf f != o.migPlace.2)
        let busy := move.any (fun f => (s1.migOf f).isSome || (s1.frame f).rcd.isSome)
        if busy then s1.failOp id 6
        else if !s1.movesFit o.migPlace.2 o.migPlace.1 move [] then s1.failOp id 5
        else s1.updOp id (fun y => { y with started := true, pages := move, skipped := decide (move.length < fs.length) })

/-- A migration of a MIGRATE, a drain or a re-layout takes a record and claims its destination (R306): `kind` 0 the next
page of operation `n`, 2 the next frame of pair `n`, 3 the next frame of stack `n`. -/
def State.migrationStart (s : State) (kind n : Nat) : State :=
  match kind with
  | 2 => s.drainMove n
  | 3 => s.relayMove n
  | 0 =>
    match s.op? n with
    | none => s
    | some o =>
      match o.pages.find? s.canMove with
      | none => s
      | some f => match s.moveDest f o.migPlace.2 o.migPlace.1 [] with
        | some d => (s.beginMove f 0 n d).updOp n (fun y => { y with pages := y.pages.filter (· != f) })
        | none => s
  | _ => s

/-- DRAIN as an operation: checked, and its pair marked (R308). -/
def State.runDrain (s : State) (id : Nat) : State :=
  match s.op? id with
  | none => s
  | some o =>
    if o.opc ≠ 8 ∨ o.started ∨ o.fail ≠ 0 ∨ o.count = 0 then s
    else
      let q := s.startDrain (o.arg % 16) id false
      if q.1 ≠ 0 then q.2.failOp id 5 else q.2.updOp id (fun y => { y with started := true })

/-! ### The ends of chunks and operations -/

/-- An engine moves a chunk of the controller's own work, or of a remote node's, for the context that its round robin serves: of a resync, of
a chunk to be served, of a migration (R291, R294, R312). -/
def State.ownChunk (s : State) (te : Nat) : State :=
  match s.pickCtx te with
  | none => s
  | some (c, d) =>
    let q : Bool × State :=
      match s.resyncers.find? (fun r => (s.ext r.slot).owner == c), s.servers.find? (fun x => (s.ext (x.b.handle % 65536)).owner == c),
          s.movers.find? (fun g => s.ownerOf g.src == c) with
      | some r, _, _ => s.resyncChunk r
      | none, some x, _ => s.serveChunk x
      | none, none, some g => s.copyChunk g (g.todo.headD 0)
      | none, none, none => (false, s)
    if q.1 then (q.2.charge te d).bump O.te_chunks 0 te else q.2

/-- An engine finishes a chunk of an operation, or moves one of the controller's own chunks (R290). -/
def State.chunkDone (s : State) (te id chunk : Nat) (m : Met) : State :=
  match s.op? id with
  | some o =>
    if o.running.contains (chunk, te) ∧ !o.remote.any (fun r => r.chunk == chunk) then
      (s.updOp id (fun y => { y with running := y.running.filter (· != (chunk, te)), done := y.done + 1 })).bump O.te_chunks 0 te
    else s
  | none => (s.meet m.errs).serveMwrs.ownChunk te

/-- Nothing of the operation is left to do. -/
def State.opFinished (s : State) (o : Tend) : Bool :=
  o.running.isEmpty && (o.fail != 0 || o.count == 0 || (match o.opc with
    | 2 => o.started && o.pages.isEmpty && !s.migs.any (fun g => g.kind == 0 && g.op == o.id)
    | 8 => o.started && !s.drains.any (fun d => d.op == o.id && !d.auto)
    | 7 => o.started && decide (o.chunks ≤ o.next) && o.redo.isEmpty
    | _ => decide (o.chunks ≤ o.next) && o.redo.isEmpty))

/-- The completion bytes (R300). -/
def Tend.completion (o : Tend) : Bytes :=
  natLe 1 o.fail ++ natLe 1 (b2n (o.count == 0 && o.fail == 0) + 2 * b2n o.poisoned + 4 * b2n o.skipped) ++ zeros 2
    ++ natLe 4 o.done

/-- One Daymark extension (R448-R450). -/
def State.daymark (s : State) (c kind : Nat) (digest : Bytes) : State :=
  let x := s.ctx c
  let r := natLe 1 kind ++ zeros 1 ++ natLe 2 c ++ natLe 4 (x.dmCount + 1) ++ natLe 8 s.ltc ++ zeros 16 ++ fitTo 32 digest
  let d := natLe 32 (Config.digest 1 0 (x.dm ++ r))
  let full := decide (1024 ≤ x.dmLog.length)
  let s1 := s.setCtx c { x with dm := d, dmCount := x.dmCount + 1, dmLog := if full then x.dmLog else x.dmLog ++ [r] }
  if full then s1.setOv O.dm_overflow 1 c else s1

/-- An operation leaves the active ones. -/
def State.dropOp (s : State) (id : Nat) : State :=
  { s with tends := { s.tends with
    ops := s.tends.ops.filter (fun y => y.id != id), waited := s.tends.waited.filter (fun k => !(k.1 == 0 && k.2.1 == id)) } }

/-- Write an operation's completion bytes; a ring whose PCIe port is lost has none written, and an event records it (R300,
R589). -/
def State.writeCompletion (s : State) (o : Tend) : State :=
  if (s.ov O.pcie_link 0 o.ring).testBit 15 && !o.mute then
    s.emit (.hostWr o.ring 0 (s.ov O.tr_base o.ring + 64 * (o.index % s.ov O.tr_size o.ring) + 56) o.completion false)
  else s.event 0x60 3 o.ring o.ctx 0

/-- A tender operation completes (R300, R449). -/
def State.tenderComplete (s : State) (id : Nat) : State :=
  match s.op? id with
  | none => s
  | some o =>
    if s.opFinished o then
      let s1 := if o.opc = 7 ∧ o.fail = 0 ∧ o.count ≠ 0 then s.daymark o.ctx 3 (slice 64 32 o.desc) else s
      let s3 := (s1.writeCompletion o).dropOp id
      if o.notify && (o.opc != 8 || (s3.ctx o.ctx).st == .active) then s3.raiseWork o.ctx o.vector 1 else s3
    else s

/-- A parked operation reaches `job_fault_timeout` (R302). -/
def State.tenderTimeout (s : State) (id : Nat) : State :=
  match s.op? id with
  | some o => if o.parked.isSome ∧ s.ov O.job_fault_timeout ≠ 0xFFFFFFFF then s.failOp id 2 else s
  | none => s

/-- A fenced engine's started chunks are run again by another (R292). -/
def State.engineFailed (s : State) (te : Nat) : State :=
  let lost (o : Tend) : List Nat := (o.running.filter (fun r => r.2 == te)).map (·.1)
  let n := (s.tends.ops.map (fun o => (lost o).length)).foldl (· + ·) 0
  let ops := s.tends.ops.map (fun o => { o with
    redo := o.redo ++ lost o, running := o.running.filter (fun r => r.2 != te),
    remote := o.remote.filter (fun r => !(lost o).contains r.chunk) })
  { (s.bump O.te_restarts 0 0 n) with
    tends := { s.tends with ops := ops }, ecache := Tab.put [] s.ecache (engineUnit te) [] }

/-- At the end of a reset's drain a context's tender operations end CANCELLED; a DRAIN acts for no context (R308, R406). -/
def State.cancelOps (s : State) (c : Nat) : State :=
  let s1 := s.abandonIf (fun g => g.kind == 0 && (match s.op? g.op with
    | some o => o.ctx == c
    | none => false))
  (s1.tends.ops.filter (fun o => o.ctx == c && o.opc != 8)).foldl (fun t o => t.failOp o.id 0xB) s1

/-- Operations of an extent that leaves MOORED, and MIGRATEs of its frames, end with REVOKED (R307). -/
def State.revokeOps (s : State) : State :=
  let gone := s.migs.filter (fun g => decide (g.phase < 4) && (s.ext (s.frame g.src).ext).st != .moored && g.kind == 0)
  gone.foldl (fun t g => t.failOp g.op 3) s.abandonClosed

end Sys2Proof.Machine
end

