-- ==== Sys2Proof/Machine/Sweeps.lean ====
section
/-! DEFINITION. Sys2Proof/Machine/Sweeps.lean: scrub and rekey sweeps of frames (R318-R328) and the commands of a context's key
slots that start them (R453). -/

namespace Sys2Proof.Machine

open Sys2Proof

/-! ### Records (R319, R321, R325) -/

/-- Frames waiting for a record that may take one now, in the order they are served: scrubs that a request has tried to write,
then the rest, each in ascending frame order (R321, R325). A migrating frame's rekey waits (R307). -/
def State.sweepQueue (s : State) : List Nat :=
  let l := s.chart.frames.filter (fun p => p.2.rcd.isNone && (p.2.scrub || (p.2.rekey
    && !s.migs.any (fun g => g.src == p.1 || g.dst == p.1 || g.mdst == some p.1))))
  ((l.filter (fun p => p.2.scrub && p.2.touched)) ++ l.filter (fun p => !(p.2.scrub && p.2.touched))).map (·.1)

/-- Frames waiting for a sweep record. -/
def State.sweepsPending (s : State) : Nat :=
  (s.chart.frames.filter (fun p => p.2.rcd.isNone && (p.2.scrub || p.2.rekey))).length

/-- Held write-backs of lines whose chunk is zero-filled become ordinary merge entries and are written (R322). -/
def State.settleExempt (s : State) : List Nat → State
  | [] => s
  | l :: t =>
    match s.mergeAt l with
    | some e =>
      if e.exempt then
        match s.prepWrite (l * 128) with
        | some s1 => State.settleExempt ((s1.setMerge l { e with exempt := false }).flushMerge l) t
        | none => State.settleExempt s t
      else State.settleExempt s t
    | none => State.settleExempt s t

/-- A pending frame takes a freed record (R321, R325); its held write-backs are then written (R322). -/
def State.sweepTake (s : State) : State :=
  match s.sweepQueue.head? with
  | none => s
  | some f =>
    match s.takeRecord f with
    | none => s
    | some s1 => s1.settleExempt ((s1.coh.merge.filter (fun p => p.2.exempt && frameOf (p.1 * 128) == f)).map (·.1))

/-! ### Chunks (R320, R322, R323, R327) -/

/-- Code words read in order. -/
def State.readCws (s : State) : List Nat → List (Nat × Cw) × State
  | [] => ([], s)
  | w :: t =>
    let q := s.cwRead w
    let r := State.readCws q.2 t
    ((w, q.1) :: r.1, r.2)

/-- Code words stored in order, each where it is not lost. -/
def State.storeCws (s : State) : List (Nat × Cw) → State
  | [] => s
  | p :: t => State.storeCws (if s.lost (p.1 * 64) then s else s.cwStore p.1 p.2) t

/-- Move a record's watermark past a chunk. -/
def State.passChunk (s : State) (i : Nat) (w : Sweep) : State :=
  { s with chart := { s.chart with sweeps := Tab.ins i { w with mark := w.mark + 32 } s.chart.sweeps } }

/-- What a sweep does to the chunk at its watermark: a scrub writes zeros where the chunk's bit is clear, a rekey reads the chunk under the
old slot and stores it under the new, and sends it to a partner (R315); the watermark passes it (R320, R322, R327). -/
def State.sweepStep (s : State) (i : Nat) (w : Sweep) : State :=
  let ppa := w.frame * 2 ^ 26 + w.mark * 128
  let lines := frameLines w.frame (w.mark / 32)
  if w.rekey then
    let r := s.readCws ((List.range 64).map (fun k => ppa / 64 + k))
    lines.foldl (fun t l => t.peerLine l 0) ((r.2.passChunk i w).storeCws r.1)
  else
    let s1 := if s.scrubbing ppa then s.zeroChunk ppa else s
    (s1.settleExempt lines).passChunk i w

/-- One chunk of a sweep is serialised by an engine whose round robin serves the frame's owner (R293, R294, R320); paused under a Foghorn
(R295), and while the chunk's home slice does not serve. -/
def State.sweepChunk (s0 : State) (te i : Nat) (m : Met) : State :=
  let s := s0.meet m.errs
  match s.sweepers.find? (fun p => p.1 == i), s.pickCtx te with
  | some (_, w), some (c, d) =>
    if w.ctx = c ∧ s.slcServes (hsLine (w.frame * 2 ^ 19 + w.mark)) then ((s.sweepStep i w).charge te d).bump O.te_chunks 0 te else s0
  | _, _ => s0

/-! ### The end of a frame's sweep, and of a rekey (R328, R453) -/

/-- Frames pending or under rekey of a context. -/
def State.rekeyLeft (s : State) (c : Nat) : Nat :=
  (s.chart.frames.filter (fun p => p.2.rekey && p.2.ext != 0 && (s.ext p.2.ext).owner == c)).length

/-- Replace a slot's key id. -/
def setKey (k : Nat × Nat) (slot id : Nat) : Nat × Nat := if slot = 0 then (id, k.2) else (k.1, id)

/-- When no frame of a rekeying context is left, the old slot's key is destroyed, the Daymark extended and KEY raised (R328,
R448, R453). -/
def State.rekeyCheck (s : State) (c : Nat) : State :=
  let x := s.ctx c
  if x.rekeying ∧ s.rekeyLeft c = 0 then
    let s1 := s.setCtx c { x with rekeying := false, keys := setKey x.keys (1 - x.active) 0 }
    ((s1.daymark c 4 (natLe 1 x.active ++ zeros 31)).bump O.rekeys c).raiseSys c 4
  else s

/-- Every rekeying context is looked at again, after frames have been given up. -/
def State.rekeyChecks (s : State) : State :=
  ((s.ctxs.filter (fun p => p.2.rekeying)).map (·.1)).foldl State.rekeyCheck s

/-- A frame's sweep has reached its end: the record is freed; a rekeyed frame is in the new slot (R319, R328). -/
def State.sweepFrameDone (s : State) (i : Nat) : State :=
  match s.chart.sweeps.find? (fun p => p.1 == i) with
  | none => s
  | some (_, w) =>
    if w.mark < 524288 then s
    else
      let r := s.frame w.frame
      let s1 : State := { s with chart := { s.chart with sweeps := Tab.del i s.chart.sweeps } }
      if w.rekey then
        (s1.setFrame w.frame { r with rcd := none, rekey := false, slot := 1 - r.slot }).rekeyCheck w.ctx
      else s1.setFrame w.frame { r with rcd := none, scrub := false, chunks := 0, touched := false }

/-! ### GENERATE and REKEY (R325, R453) -/

/-- A new key: a fresh id of the key store. -/
def State.newKey (s : State) : Nat × State := (s.nextKey, { s with nextKey := s.nextKey + 1 })

/-- GENERATE fills slot 0 and the host-page key of a CONFIGURING context that has no key. -/
def State.generate (s : State) (c : Nat) : State :=
  let x := s.ctx c
  if x.st = .configuring ∧ x.keys = (0, 0) then
    let a := s.newKey
    let b := a.2.newKey
    (b.2.setCtx c { x with keys := (a.1, 0), hostKey := b.1, active := 0 }).setOv O.key_result 0 c
  else s.setOv O.key_result 1 c

/-- Every frame of a context's extents becomes pending rekey (R325). -/
def State.pendRekey (s : State) (c : Nat) : State :=
  { s with chart := { s.chart with frames := s.chart.frames.map (fun p =>
      if p.2.ext ≠ 0 ∧ (s.ext p.2.ext).owner = c then (p.1, { p.2 with rekey := true }) else p) } }

/-- REKEY fills the inactive slot of an ACTIVE context and starts the rekey sweep; while one runs it answers BUSY. -/
def State.rekey (s : State) (c : Nat) : State :=
  let x := s.ctx c
  if x.rekeying then s.setOv O.key_result 2 c
  else if x.st ≠ .active then s.setOv O.key_result 1 c
  else
    let a := s.newKey
    let slot := 1 - x.active
    let s1 := a.2.setCtx c { x with keys := setKey x.keys slot a.1, active := slot, rekeying := true }
    ((s1.setOv O.key_result 0 c).pendRekey c).rekeyCheck c

/-- The KEY commands that run show in bit 31 of `key_cmd`; key slots and host-page key are destroyed (R453). -/
def State.dropKeys (s : State) (c : Nat) : State :=
  s.setCtx c { s.ctx c with keys := (0, 0), hostKey := 0, rekeying := false }

end Sys2Proof.Machine
end

