-- ==== Sys2Proof/Machine/Contexts.lean ====
section
/-! DEFINITION. Sys2Proof/Machine/Contexts.lean: the life of a context (R402-R405), the context reset (R406-R408), loading and
unloading of recipes (R272-R275), and the enable of a tender ring (R299). -/

namespace Sys2Proof.Machine

open Sys2Proof

/-! ### Objects of a context's scope -/

/-- The item a table key names. -/
def keyItem (k : Nat) : Nat := k / 2 ^ 8 % 2 ^ 24

/-- The object a table key names. -/
def keyObj (k : Nat) : Nat := k / 2 ^ 32

/-- A key of an object of context scope for a context: indices below 0x1000 are of context scope, and a session copy has the session above the context. -/
def ofScope (c k : Nat) : Bool := decide (keyObj k < 0x100000) && keyItem k % 1024 == c

/-- Every object of a context's scope holds its default (R402). -/
def State.defaultScope (s : State) (c : Nat) : State :=
  { s with objs := s.objs.filter (fun p => !ofScope c p.1), octs := s.octs.filter (fun p => !ofScope c p.1) }

/-- The objects of class X of a context's scope, and those of its four job queues. -/
def xObjs : List Obj := [O.pol_green, O.pol_yellow, O.pol_red, O.shp_waits, O.ntf_held, O.ntf_sent]

def xQueueObjs : List Obj :=
  [O.jq_base, O.jq_size, O.jq_enable, O.jq_state, O.jq_head, O.jq_tail, O.jq_bad_bells]

/-- Every object of class X of a context returns to its default (R406 step 4). -/
def State.defaultX (s : State) (c : Nat) : State :=
  let gone (k : Nat) : Bool :=
    (xObjs.any (fun o => keyObj k == o.id) && keyItem k == c)
      || (xQueueObjs.any (fun o => keyObj k == o.id) && keyItem k / 4 == c)
  { s with objs := s.objs.filter (fun p => !gone p.1) }

/-! ### ALLOC and ACTIVATE (R402, R403) -/

/-- A context command's result. -/
def State.ctxResult (s : State) (c r : Nat) : State := s.setOv O.ctx_result r c

/-- A context command is running (R404). -/
def State.ctxBusy (s : State) (c : Nat) : Bool := (s.ctx c).cmd != 0

/-- ALLOC: a FREE context becomes CONFIGURING with every object of its scope at its default and its Daymark zero (R402,
R448). -/
def State.ctxAlloc (s : State) (c : Nat) : State :=
  if 1024 ≤ c then s
  else if s.ctxBusy c then s.ctxResult c 4
  else if (s.ctx c).st ≠ .free then s.ctxResult c 1
  else
    let s1 := s.defaultScope c
    ({ s1 with pol := s1.pol.filter (fun p => p.1 % 1024 != c) } : State).setCtx c { Ctx.dflt with st := .configuring }

/-- The active key slot of a context holds a key. -/
def State.hasKey (s : State) (c : Nat) : Bool := s.keyId c (s.ctx c).active != 0

/-- ACTIVATE: NO_WINDOW, then NO_KEY, else the Daymark is extended and the context becomes ACTIVE (R403, R448, R449). -/
def State.ctxActivate (s : State) (c : Nat) : State :=
  if 1024 ≤ c then s
  else if s.ctxBusy c then s.ctxResult c 4
  else if (s.ctx c).st ≠ .configuring then s.ctxResult c 1
  else if s.ov O.win_count c = 0 then s.ctxResult c 2
  else if !s.hasKey c then s.ctxResult c 3
  else
    let s1 := s.daymark c 1 (natLe 1 (s.ov O.enclave c) ++ zeros 31)
    ((s1.setCtx c { s1.ctx c with st := .active }).raiseSys c 2).ctxResult c 0

/-! ### Context reset (R406-R408) -/

/-- Step 1 of a context reset: QUIESCING; job queues and tender rings fetch nothing more for it. -/
def State.beginReset (s : State) (c cmd : Nat) : State :=
  s.setCtx c { s.ctx c with st := .quiescing, endFree := cmd == 4, cmd := cmd, rphase := 1, rstart := s.ltc, rwalk := 0 }

/-- RESET: from CONFIGURING or ACTIVE. -/
def State.ctxReset (s : State) (c : Nat) : State :=
  if 1024 ≤ c then s
  else if s.ctxBusy c then s.ctxResult c 4
  else match (s.ctx c).st with
    | .configuring => s.beginReset c 3
    | .active => s.beginReset c 3
    | _ => s.ctxResult c 1

/-- FREE: from CONFIGURING or ACTIVE, or during QUIESCING, where it sets the end state (R402, R404). -/
def State.ctxFree (s : State) (c : Nat) : State :=
  if 1024 ≤ c then s
  else match (s.ctx c).st with
    | .quiescing => s.setCtx c { s.ctx c with endFree := true, cmd := 4 }
    | .configuring => s.beginReset c 4
    | .active => s.beginReset c 4
    | _ => if s.ctxBusy c then s.ctxResult c 4 else s.ctxResult c 1

/-- A request that fails at the end of the drain: admitted, not serialised, and neither EvC, WbD nor a fence (R407). -/
def resetStraggler (c : Nat) (r : Req) : Bool :=
  r.h.ctx == c && !r.ser && r.phase != .done && !r.kind.evict && r.kind != .fence && decide (r.port < 24)

/-- Stragglers complete with REVOKED, and a record one of them waits on is discarded (R407). -/
def State.failStragglers (s : State) : List Req → State
  | [] => s
  | r :: t =>
    let s1 : State := { s with frecs := s.frecs.filter (fun x => x.req != some r.id) }
    State.failStragglers ((s1.finish r .revoked).bump O.ctx_stragglers r.h.ctx) t

/-- The deficit of a context's group at every place is zero where the context is the group's only one. -/
def State.zeroDeficit (s : State) (c : Nat) : State :=
  let g := s.ov O.svc_group c
  if (s.liveCtxs.filter (fun d => s.ov O.svc_group d == g)).length ≤ 1 then
    let y (d : Drr) : Drr := { d with deficit := Tab.put 0 d.deficit g 0 }
    let z (t : Tab Drr) : Tab Drr := t.map (fun p => (p.1, y p.2))
    { s with
      jobs := { s.jobs with drr := z s.jobs.drr }, tends := { s.tends with drr := z s.tends.drr }
      dram := { s.dram with chans := s.dram.chans.map (fun p => (p.1, { p.2 with drr := y p.2.drr, lat := y p.2.lat })) } }
  else s

/-- Steps 2 to 4: the work has drained, or `reset_timeout` has expired and stragglers fail; jobs and tender operations end
CANCELLED, pending notifications are discarded, class X returns to its defaults, and the recall begins. -/
def State.resetDrainEnd (s0 : State) (c : Nat) (m : Met) : State :=
  if (s0.ctx c).rphase ≠ 1 then s0
  else
    let s := s0.meet m.errs
    let s1 := s.failStragglers (s.reqs.filter (resetStraggler c))
    let s2 := ((s1.cancelJobs m c).cancelOps c).defaultX c
    let qw := (List.range 4).foldl (fun t i => Tab.put none t (4 * c + i) none) s2.jobs.qwait
    let s3 : State := { s2 with jobs := { s2.jobs with qwait := qw } }
    let s4 := (s3.zeroDeficit c).fillBuckets c
    s4.setCtx c { s4.ctx c with vecs := [], rphase := 2, rwalk := 0 }

/-! ### SWEEPING (R405) -/

/-- Handles in ascending order. -/
def insHandle (x : Nat × Nat) : List (Nat × Nat) → List (Nat × Nat)
  | [] => [x]
  | y :: t => if x.1 ≤ y.1 then x :: y :: t else y :: insHandle x t

/-- Extents a test picks, in ascending handle order: their slots. -/
def State.extSlots (s : State) (p : Ext → Bool) : List Nat :=
  ((s.chart.exts.filter (fun q => q.2.st != .free && p q.2)).map (fun q => (q.2.handle q.1, q.1))).foldl
    (fun a x => insHandle x a) [] |>.map (·.2)

/-- A freed context's MOORED extents begin their revocation (R82, R543). -/
def State.closeOwned (s : State) (c : Nat) : State :=
  (s.extSlots (fun x => x.owner == c && x.st == .moored)).foldl (fun t i =>
    let x := t.ext i
    t.beginRevoke i { x with remoor := false, cmd := false, freed := true }) s

/-- Contexts in SWEEPING leave the extents they share (R405). -/
def State.dropShares (s : State) : State :=
  ((s.ctxs.filter (fun p => p.2.st == .sweeping)).map (·.1)).foldl (fun t c =>
    (t.extSlots (fun x => x.st == .moored && x.sharers.any (fun p => p.1 == c))).foldl
      (fun u i => u.dropSharerOf i c false) t) s

/-- Every valid binding that names a context is cleared at every port (R405); the removals count for the grace of R60. -/
def State.clearBindings (s : State) (c : Nat) : State :=
  let hit (p : Nat × Nat) : Bool := keyObj p.1 == O.binding.id && p.2.testBit 31 && p.2 % 1024 == c
  let agts := (s.objs.filter hit).map (fun p => keyItem p.1)
  let s1 : State := { s with objs := s.objs.filter (fun p => !hit p) }
  agts.foldl (fun t a =>
    let x := t.agent a
    t.setAgent a { x with unbound := (c, t.ltc) :: x.unbound.filter (fun p => p.1 != c) }) s1

/-- The recipes loaded for a context are unloaded (R275). -/
def State.dropRecipes (s : State) (c : Nat) : State :=
  { s with jobs := { s.jobs with rcps := s.jobs.rcps.filter (fun p => match p.2 with
    | some r => r.ctx != c
    | none => false) } }

/-- What entering SWEEPING starts or does at once (R405, R453). -/
def State.enterSweeping (s : State) (c : Nat) : State :=
  let s1 := s.setCtx c { s.ctx c with st := .sweeping, rphase := 0 }
  let s2 := (((s1.dropKeys c).clearBindings c).dropRecipes c).setOv O.ntf_func 0 c
  ((s2.closeOwned c).revokeOps).dropShares

/-- Nothing of the context's jobs and tender operations is left to complete. -/
def State.workGone (s : State) (c : Nat) : Bool :=
  !s.jobs.jobs.any (fun j => j.ctx == c) && !s.tends.ops.any (fun o => o.ctx == c && o.opc != 8)

/-- Every `fault_pend` of a context's window clears (R525). -/
def State.clearPends (s : State) (c : Nat) : State :=
  let b := s.ov O.win_base c
  let ps := s.chart.ents.filter (fun p => decide (b ≤ p.1 ∧ p.1 < b + s.ov O.win_count c) && p.2.faultPend)
  ps.foldl (fun t p => t.setEntry p.1 { p.2 with faultPend := false }) s

/-- Step 6: every slice's walk has ended and the context enters its end state (R402, R406, R525). -/
def State.resetDone (s : State) (c : Nat) : State :=
  let x := s.ctx c
  if x.rphase ≠ 2 ∨ x.rwalk ≠ 2 ^ 32 - 1 ∨ !s.workGone c then s
  else
    let s1 := ((s.clearPends c).bump O.ctx_resets c).setOv O.ctx_reset_time (ticksUs (s.ltc - x.rstart) % 2 ^ 32) c
    if x.endFree then s1.enterSweeping c
    else
      let s2 := s1.setCtx c { s1.ctx c with st := .configuring, rphase := 0, cmd := 0 }
      (s2.raiseSys c 2).ctxResult c 0

/-- The chart entries of a context's window, its cached translations and pending repairs are written invalid (R49, R405). -/
def State.clearWindow (s : State) (c : Nat) : State :=
  let b := s.ov O.win_base c
  let n := s.ov O.win_count c
  let inWin (k : Nat) : Bool := decide (b ≤ k ∧ k < b + n)
  { s with
    chart := { s.chart with
      ents := s.chart.ents.filter (fun p => !inWin p.1)
      bad := s.chart.bad.filter (fun p => !inWin p.1)
      ptc := s.chart.ptc.filter (fun p => p.ctx != c) }
    ecache := s.ecache.map (fun p => (p.1, p.2.filter (fun q => q.ctx != c))) }

/-- CANs whose unresolved lines concern only FREE contexts leave the unresolved sets (R569). -/
def State.resolveFree (s : State) : State :=
  { s with slices := s.slices.map (fun p =>
      (p.1, { p.2 with unres := p.2.unres.filter (fun u => u.2.any (fun c => (s.ctx c).st != .free)) })) }

/-- Every condition of R405 is met. -/
def State.sweptOut (s : State) (c : Nat) : Bool :=
  !s.chart.exts.any (fun p => p.2.st != .free && (p.2.owner == c || p.2.closingFor == some c || p.2.leaving.any (fun q => q.1 == c)
      || p.2.sharers.any (fun q => q.1 == c)))
    && !s.chart.commits.any (fun k => k.ctx == c)

/-- A SWEEPING context becomes FREE when everything of R405 is done (R402). -/
def State.ctxSweepDone (s : State) (c : Nat) : State :=
  if (s.ctx c).st = .sweeping ∧ s.sweptOut c then
    (((s.clearWindow c).defaultScope c).setCtx c Ctx.dflt).resolveFree
  else s

/-! ### Recipes (R272-R275) -/

/-- Recipes loaded for a context. -/
def State.loadedOf (s : State) (c : Nat) : Nat :=
  (s.jobs.rcps.filter (fun p => match p.2 with
    | some r => r.ctx == c
    | none => false)).length

/-- The lowest recipe number with nothing loaded (R273). -/
def State.freeRecipe (s : State) : Option Nat :=
  ((List.range 240).map (· + 16)).find? (fun n => (Tab.get none s.jobs.rcps n).isNone)

/-- LOAD: the image written to `rcp_image` is checked, measured and loaded for `rcp_ctx`, and selected in the session that
asked (R272-R274, R289). -/
def State.recipeLoad (s : State) (sess : Nat) : State :=
  let img := s.oct O.rcp_image
  let c := s.ov O.rcp_ctx
  let fin (r : Nat) : State := s.setOv O.rcp_result r
  if !imageOk img then fin 1
  else if !s.canMoor c then fin 4
  else if s.ov O.rcp_per_ctx ≤ s.loadedOf c then fin 3
  else match s.freeRecipe with
    | none => fin 2
    | some n =>
      let s1 := s.daymark c 2 (natLe 32 (Config.digest 1 0 img))
      let s2 : State := { s1 with jobs := { s1.jobs with rcps := Tab.put none s1.jobs.rcps n (some ⟨c, img⟩) } }
      (s2.setOv O.rcp_select n sess).setOv O.rcp_result 0

/-- UNLOAD of a recipe number (R275, R289); a number with nothing loaded answers BAD_STATE. -/
def State.recipeUnload (s : State) (n : Nat) : State :=
  if 1 ≤ n ∧ n ≤ 15 then s.setOv O.rcp_result 5
  else match Tab.get none s.jobs.rcps n with
    | none => s.setOv O.rcp_result 4
    | some r =>
      if s.jobs.jobs.any (fun j => j.ctx == r.ctx && j.kind == 1 && j.recipe == n) then s.setOv O.rcp_result 6
      else { s.setOv O.rcp_result 0 with jobs := { s.jobs with rcps := Tab.put none s.jobs.rcps n none } }

/-! ### Tender rings and the INT8 scale (R243, R299) -/

/-- A write of `tr_enable`. -/
def State.trEnable (s : State) (ring v : Nat) : State := if ring < 2 ∧ v < 2 then s.setOv O.tr_enable v ring else s

end Sys2Proof.Machine
end

