-- ==== Sys2Proof/Machine/Failure.lean ====
section
/-! DEFINITION. Sys2Proof/Machine/Failure.lean: agents declared lost and their purge (R547-R555), home slices lost, replayed and
rebuilt by census (R556-R566), and the unresolved set (R567-R569). -/

namespace Sys2Proof.Machine

open Sys2Proof

/-! ### CANs -/

/-- The CANs an agent holds (R143). -/
def State.cansOf (s : State) (a : Nat) : List Nat := (List.range 1024).filter (fun c => s.canAgent c == some a)

/-- The CANs of every PRESENT coherent agent. -/
def State.presentCans (s : State) : List Nat := (List.range 1024).filter s.canPresent

/-- Contexts that an agent's valid bindings name with C in their mask (R567). -/
def State.contextsOf (s : State) (a : Nat) : List Nat :=
  (List.range 8).filterMap (fun i =>
    let b := s.binding a i
    if b.testBit 31 ∧ b.testBit 14 then some (b % 1024) else none)

/-- An unresolved CAN joins a slice's set with the contexts concerned at its agent's declaration; one event names each of them, or none where there
is none (R567, R702). -/
def State.joinUnres (s : State) (h can : Nat) : State :=
  let x := s.slc h
  if x.unres.any (fun u => u.1 == can) then s
  else
    let a := (s.canAgent can).getD 0
    let cs := (s.agent a).named
    (if cs = [] then [noCtx] else cs).foldl (fun t c => t.event 0x33 4 a c (h + can * 2 ^ 5)) (s.setSlc h { x with unres := x.unres ++ [(can, cs)] })

/-! ### Declaring an agent lost (R547-R551) -/

/-- A transaction's snoop to a lost CAN is answered as the recorded holding requires (R550, R554 Table 3). -/
def State.lostAnswer (s : State) (line can : Nat) : State :=
  let d := s.dir line
  match d.txn with
  | none => s
  | some t =>
    let p := t.snps.find? (fun x => x.can == can)
    let waited := t.waitWb.contains can
    if p.isNone && !waited then s
    else
      let t1 := { t with
        snps := t.snps.filter (fun x => x.can != can), waitWb := t.waitWb.filter (· != can),
        gotWb := t.gotWb.filter (· != can) }
      let owner := waited || p.any (·.owner)
      if t.kind = .unk then
        let s1 := if d.owner = some can then (s.loseOwner line can).1 else s
        s1.setDir line { (s1.dir line).dropHolder can with txn := some t1 }
      else if t.gotWb.contains can then
        (s.setDir line { d with txn := some { t1 with rsp := some .wb } }).finishHeldWbd line can
      else if owner then
        let q := s.loseOwner line can
        let evict : Bool := match t.kind with
          | .evict _ => true
          | _ => false
        let t2 := if q.2 then
            { t1 with val := if evict then t1.val else some ⟨.poison 3, .poison 3⟩, rsp := some .di }
          else { t1 with rsp := some .i }
        q.1.setDir line { q.1.dir line with owner := none, txn := some t2 }
      else s.setDir line { d with txn := some t1 }

/-- The outstanding snoops of a lost CAN are answered, and its snoop records freed (R550, R559). -/
def State.answerLost (s : State) (can : Nat) : State :=
  let lines := (s.coh.dir.filter (fun p => p.2.txn.any (fun t =>
    t.snps.any (fun x => x.can == can) || t.waitWb.contains can))).map (·.1)
  let s1 : State := { s with coh := { s.coh with snoops := s.coh.snoops.filter (fun x => x.can != can) } }
  lines.foldl (fun t l => (t.lostAnswer l can).work [l]) s1

/-- Requests of a lost agent that have no effect: not serialised, or in a wait list (R549). -/
def lostRequest (a : Nat) (r : Req) : Bool :=
  r.h.agt == a && decide (r.port < 24) && r.phase != .done && (!r.ser || r.phase == .waiting)

/-- Such requests leave their wait lists, fences and retry slots, and complete with PORT_LOST and `pl_why` 2. -/
def State.dropLost (s : State) : List Req → State
  | [] => s
  | r :: t =>
    let frecs := s.frecs.map (fun x => if x.req = some r.id then { x with req := none } else x)
    let s0 : State := { s with frecs := frecs }
    let s1 := if r.phase = .waiting then
        s0.setDir r.line { s0.dir r.line with waits := (s0.dir r.line).waits.filter (· != r.id) } else s0
    State.dropLost (s1.finish r .portLost (plWhy := 2)) t

/-- Completions of the agent that have not left are discarded; a discarded grant is undone (R549). -/
def State.dropCmps (s : State) : List Cmp → State
  | [] => s
  | c :: t =>
    let s1 := { s.dropReq c.reqId with cmps := s.cmps.erase c }
    State.dropCmps (if c.grant ≠ 0 then s1.undoGrant c.line c.reqId c.can else s1) t

/-- A completion that carries a grant (R114). -/
def isGrant (m : Msg) : Bool :=
  m.chan == 2 && (bits m.hdr 250 6 == 0x30 || bits m.hdr 250 6 == 0x31) && bits m.hdr 215 3 != 0

/-- A message queued at a port that a lost agent's declaration discards: a completion, snoop or query for it, or the answer of an LLM; a
notification stays (R549, R550, R681). -/
def discarded (a : Nat) (m : Msg) : Bool :=
  m.agt == a && (m.chan == 1 || (m.chan == 2 && bits m.hdr 250 6 != 0x3E) || (m.chan == 4 && bits m.hdr 250 6 == 0x2B))

/-- Grants still in a port's queue are undone (R549). -/
def State.undoQueued (s : State) : List Grant → State
  | [] => s
  | g :: t =>
    State.undoQueued (({ s with coh := { s.coh with grants := s.coh.grants.erase g } } : State).undoGrant g.line g.reqId g.can) t

/-- What a lost agent's declaration discards from the queues of the ports (R549, R550). -/
def State.dropQueued (s : State) (a : Nat) : State :=
  let gone := (s.txq.flatMap (fun q => q.2)).filter (discarded a)
  let undone := s.coh.grants.filter (fun g => g.agt == a && gone.any (fun m => isGrant m && bits m.hdr 238 12 == g.tag))
  let s1 : State := { s with txq := (s.txq.map (fun q => (q.1, q.2.filter (fun m => !discarded a m)))).filter (fun q => q.2 != []) }
  s1.undoQueued undone

/-- Grant records are treated as acknowledged (R166, R549). -/
def State.ackGrants (s : State) : List Grant → State
  | [] => s
  | g :: t =>
    let s1 : State := { s with coh := { s.coh with grants := s.coh.grants.erase g } }
    State.ackGrants ((s1.ackLine g.line g.reqId).getD s1) t

/-- The lost CAN leaves a slice's census or laggards, and joins its unresolved set if its report is not in (R563, R567). -/
def State.censusLost (s : State) (can h : Nat) : State :=
  let x := s.slc h
  let held := x.phase == 1 && !x.quiesced
  if held || x.queried.contains can || x.laggards.contains can then
    (s.setSlc h { x with
      queried := x.queried.filter (· != can), laggards := x.laggards.filter (· != can), full := x.full.filter (· != can),
      unsent := x.unsent.filter (· != can) }).joinUnres h can
  else s

/-- The messages of a session that wait are carried out, and their answers discarded (R679, R681). -/
def State.muteWaits (s : State) (sess : Nat) : State :=
  { s with ll := { s.ll with waits := s.ll.waits.map (fun w => if w.sess = sess then { w with mute := true } else w) } }

/-- An agent is declared lost (R547-R550): a PRESENT agent becomes PURGING. Its CANs join the unresolved sets before the
snoops they owe are answered, so the reads that follow meet R568. -/
def State.declareLost (s : State) (a cause : Nat) : State :=
  if (s.agent a).life ≠ .present then s
  else
    let s1 := s.setAgent a { s.agent a with
      life := .purging, cause := cause, purge := 0, purgeAt := s.ltc, named := s.contextsOf a }
    let s2 := ((s1.bump O.agents_lost).setOv O.purge_dirty 0 a).setOv O.purge_stale_kept 0 a
    let s3 := s2.event 0x30 4 a noCtx 0
    let old := s3.cmps.filter (fun c => c.agt == a && decide (c.port < 24))
    let s4 := s3.dropLost (s3.reqs.filter (lostRequest a))
    let s5 := (s4.dropCmps old).dropQueued a
    let s6 := (s5.ackGrants (s5.coh.grants.filter (fun g => g.agt == a))).muteWaits (64 + a)
    let cans := s6.cansOf a
    let s7 := cans.foldl (fun t c => (List.range 32).foldl (fun u h => u.censusLost c h) t) s6
    cans.foldl State.answerLost s7

/-! ### Causes (R139, R165, R547, R584) -/

/-- Ports that are LIT with their link UP or RETRAIN. -/
def State.portRoute (s : State) (p : Nat) : Bool :=
  s.ov O.port_state p == 0 && (s.ov O.link_state p == 3 || s.ov O.link_state p == 4)

/-- An agent has no route. -/
def State.noRoute (s : State) (a : Nat) : Bool := !(s.reachPorts a).any s.portRoute

/-- An agent has had no route for `agent_loss_time`; in P3 and until its grace ends the cause does not apply (R641). -/
def State.agentLossTime (s : State) (a : Nat) : State :=
  if a < 4096 ∧ s.noRoute a ∧ !s.pwr.grace then s.declareLost a 1 else s

/-- A snoop that has left stays unanswered until `snoop_timeout`; its time does not run while its link is out of UP. -/
def State.snoopTimeout (s : State) (hs sid can : Nat) : State :=
  match s.coh.snoops.find? (fun x => x.hs == hs && x.sid == sid && x.can == can && x.out) with
  | none => s
  | some x => match s.canAgent can with
    | none => s
    | some a => if s.portUp x.port then s.declareLost a 2 else s

/-- No GntAck came within `snoop_timeout` of a grant completion leaving (R165). -/
def State.ackTimeout (s : State) (port agt tag : Nat) : State :=
  if s.coh.grants.any (fun g => g.port == port && g.agt == agt && g.tag == tag) ∧ s.portUp port then s.declareLost agt 3
  else s

/-- `agt_fence`: refused unless the agent is PRESENT. -/
def State.agtFence (s : State) (a : Nat) : Bool × State :=
  if a < 4096 ∧ (s.agent a).life = .present then (true, s.declareLost a 4) else (false, s)

/-- `agt_rejoin`: refused unless the agent is ABSENT (R552). -/
def State.agtRejoin (s : State) (a : Nat) : Bool × State :=
  let x := s.agent a
  if a < 4096 ∧ x.life = .absent then (true, s.setAgent a { x with life := .present }) else (false, s)

/-! ### The purge walk (R553-R555) -/

/-- An entry of a slice records a CAN so that the purge must act on it. -/
def Dir.records (d : Dir) (can : Nat) : Bool := d.way && (d.owner == some can || d.exactSharer can)

/-- The walk acts on one entry that is not busy (Table 3). -/
def State.purgeEntry (s : State) (line can : Nat) : State :=
  let d := s.dir line
  if d.owner = some can then
    if d.st = .os ∧ !s.txnRoom (hsLine line) then s
    else
      let q := (s.loseOwner line can).1
      let d1 := { q.dir line with owner := none }
      match d.st with
      | .unk => q.setDir line (d1.dropSharer can)
      | .os =>
        let q1 := q.setDir line d1
        (q1.openTxn line (.fresh (.purge false) 0) (q1.invSharers d1 (some can))).work [line]
      | _ => (q.setDir line { d1.free with waits := d1.waits }).work [line]
  else if d.st = .unk then s.setDir line (d.dropSharer can)
  else (s.setDir line (d.dropSharer can).settle).work [line]

/-- Every slice's walk has ended. -/
def allSlices : Nat := 2 ^ 32 - 1

/-- A slice's purge walk for an agent: entries are acted on, and the walk ends when none records its CAN; when every slice's
has, the agent is ABSENT (R548, R553). -/
def State.purgeWalk (s : State) (hs a : Nat) : State :=
  if (s.agent a).life ≠ .purging ∨ 32 ≤ hs ∨ !s.slcServes hs then s
  else
    let cans := s.cansOf a
    let hit (t : State) (can : Nat) : List Nat :=
      (t.coh.dir.filter (fun p => hsLine p.1 == hs && p.2.records can)).map (·.1)
    let s1 := cans.foldl (fun t can => (hit t can).foldl (fun u l =>
      if (u.dir l).txn.isNone ∧ (u.dir l).records can then u.purgeEntry l can else u) t) s
    if cans.any (fun can => hit s1 can != []) then s1
    else
      let x := s1.agent a
      let walks := setBit x.purge hs
      if walks = allSlices then
        (s1.setAgent a { x with purge := walks, life := .absent }).setOv O.purge_time (ticksUs (s.ltc - x.purgeAt) % 2 ^ 32) a
      else s1.setAgent a { x with purge := walks }

/-! ### Losing a home slice (R556-R560) -/

/-- A retained request of a slice (R556): sent towards it, without a completion. -/
def sliceRequest (h : Nat) (r : Req) : Bool :=
  (r.phase == .sent || r.phase == .waiting || r.phase == .served) && hsOf r.ppa == h

/-- A logical home slice loses its physical unit: its directory is gone, ports keep its requests, and purges it had not
ended leave unresolved CANs (R556, R567). A view read served there begins anew with all its lines; the requests that units had there are
gone, and are made again by them. -/
def State.sliceLost (s : State) (h : Nat) : State :=
  let mine := s.reqs.filter (fun r => sliceRequest h r && !r.inner)
  let ids := mine.map (·.id)
  let own := (mine.filter (fun r => r.parent.isNone)).map (·.id)
  let reqs := (s.reqs.filter (fun r => !(r.inner && sliceRequest h r) && !r.parent.any own.contains)).map (fun r =>
    if ids.contains r.id then
      { r with phase := .holding, ser := false, unk := false, start := none, parts := [], ownSrc := false } else r)
  let x := s.slc h
  let first := x.phase == 0
  let s1 : State := { s with
    reqs := reqs
    coh := { s.coh with
      dir := s.coh.dir.filter (fun p => hsLine p.1 != h)
      snoops := s.coh.snoops.filter (fun y => y.hs != h || y.out)
      peeks := s.coh.peeks.filter (fun p => hsLine p.1 != h) } }
  let s2 := s1.setSlc h { x with
    phase := 1, queried := [], laggards := [], unsent := [], hold := false, quiesced := false,
    since := if first then s.ltc else x.since, retained := x.retained ++ own }
  let purging := (s2.agents.filter (fun p => p.2.life == .purging && !p.2.purge.testBit h)).map (·.1)
  purging.foldl (fun t a => (t.cansOf a).foldl (fun u c => u.joinUnres h c) t) s2

/-- Both code words of lines written as poison. -/
def State.poisonLines (s : State) (reason : Nat) : List Nat → State
  | [] => s
  | l :: t => State.poisonLines ((s.poisonCw (2 * l) reason).poisonCw (2 * l + 1) reason) reason t

/-- The code words held in the lost merge buffer are written as poison SLICE_LOST (R394). -/
def State.poisonMerge (s : State) : List (Nat × Merge) → State
  | [] => s
  | (l, e) :: t =>
    let s1 := if halfMask e.mask 0 ≠ 0 then s.poisonCw (2 * l) 6 else s
    State.poisonMerge (if halfMask e.mask 1 ≠ 0 then s1.poisonCw (2 * l + 1) 6 else s1) t

/-- Retained ACCs and ATOMs complete with ACC_LOST (R557). -/
def State.failAccs (s : State) (h : Nat) : List Req → State
  | [] => s
  | r :: t => State.failAccs ((s.finish r .accLost).bump O.acc_lost h) h t

/-- The data of replay copies is written home in the order received (R559). -/
def State.replayCopies (s : State) : List (Nat × Nat × Nat × List Slot) → State
  | [] => s
  | (_, h, l, slots) :: t => State.replayCopies ((s.homeData l (slotsVal slots)).bump O.replayed h) t

/-- The header of a CENSUS query (R138). -/
def packQuery (h census can : Nat) : Nat :=
  0x28 * 2 ^ 250 + h % 32 * 2 ^ 245 + census % 65536 * 2 ^ 229 + can % 1024 * 2 ^ 219

/-- Send the queries that wait, each by the lowest-numbered port of its target's reach set that serves (R132, R136). -/
def State.sendQueries (s : State) (h : Nat) : State :=
  let x := s.slc h
  let port (can : Nat) : Option Nat := match s.canAgent can with
    | some a => ((s.reachPorts a).filter s.portUp).head?
    | none => none
  let s1 := x.unsent.foldl (fun t can => match port can with
    | some p => t.send p ⟨1, packQuery h x.census can, [], (s.canAgent can).getD 0xFFFF, none, 32⟩
    | none => t) s
  s1.setSlc h { x with unsent := x.unsent.filter (fun c => (port c).isNone) }

/-- Waiting CENSUS queries of every slice. -/
def State.sendAllQueries (s : State) : State :=
  ((s.slices.filter (fun p => p.2.unsent != [])).map (·.1)).foldl State.sendQueries s

/-- Steps 2 to 5 at the spare that has the role: poison, ACC_LOST, replay, and the census queries (R556-R562). The copies stay in the stores until the
hold ends, for the next spare should this one fail. -/
def State.sliceFailover (s : State) (h : Nat) : State :=
  let x := s.slc h
  if x.phase ≠ 1 ∨ !s.lit 0 h then s
  else
    let mer := s.coh.merge.filter (fun p => hsLine p.1 == h)
    let acc := (s.coh.acc.filter (fun p => hsLine p.1 == h && (p.2.dirty || p.2.pend != []))).map (·.1)
    let lostReqs := s.reqs.filter (fun r => x.retained.contains r.id && r.phase == .holding && (r.kind == .acc || r.kind == .atom))
    let repl := s.coh.repl.filter (fun p => p.2.1 == h)
    let s1 : State := { s with coh := { s.coh with
      merge := s.coh.merge.filter (fun p => hsLine p.1 != h)
      acc := s.coh.acc.filter (fun p => hsLine p.1 != h) } }
    let s2 := (s1.poisonMerge mer).poisonLines 4 (acc ++ (lostReqs.map (fun r => r.ppa / 128)))
    let s3 := (s2.failAccs h lostReqs).setOv O.acc_tags_poisoned acc.length h
    let s4 := (s3.setOv O.replayed 0 h).replayCopies repl
    let cans := s4.presentCans
    (s4.setSlc h { s4.slc h with
      phase := 2, census := (x.census + 1) % 65536, counted := true, queried := cans, unsent := cans, laggards := [], full := [], noSpare := false }).sendQueries h

/-! ### The census (R137, R138, R561-R563, R566) -/

/-- The line a census record names, from the chart: its window's entry, POOL or REVOKED. -/
def State.censusLine (s : State) (ctx cl : Nat) : Option Nat :=
  let vpn := cl / 2 ^ 19
  let e := s.entry (s.ov O.win_base ctx + vpn)
  if vpn < s.ov O.win_count ctx ∧ e.valid ∧ e.typ ≠ 1 then some (e.frame * 2 ^ 19 + cl % 2 ^ 19) else none

/-- A holder enters an UNK entry: the first of E, M or O as owner, any other as sharer (R562). -/
def Dir.addHolder (d : Dir) (can st : Nat) : Dir :=
  if 2 ≤ st ∧ d.owner.isNone then { d with owner := some can } else d.addSharer can

/-- One census record of a report. A record with a reserved state (0, 5-7) is discarded, and the rest of the report is taken
[DESIGN CHOICE, log 95]. -/
def State.censusRecord (s : State) (hs can w : Nat) : State :=
  let ctx := bits w 54 10
  let cl := bits w 13 41
  let st := bits w 10 3
  match s.censusLine ctx cl with
  | none => s
  | some line =>
    let d := s.dir line
    if hsLine line ≠ hs ∨ st = 0 ∨ 4 < st ∨ (s.accAt line).isSome then s
    else if d.way ∧ d.st ≠ .u then (if d.st = .unk then s.setDir line (d.addHolder can st) else s)
    else if d.txn.isSome then s
    else if 16 ≤ (s.waysOf line).length then
      let x := s.slc hs
      s.setSlc hs { x with laggards := can :: x.laggards.filter (· != can), full := can :: x.full.filter (· != can) }
    else s.setDir line ({ d with
      way := true, st := .unk, nctx := ctx, nvpn := cl / 2 ^ 19, lru := s.coh.clk, owner := none, sharers := 0,
      group := false, win := 0 }.addHolder can st)

/-- The records of a report, in order. -/
def censusWords (count : Nat) (slots : List Slot) : List Nat :=
  (List.range count).map (fun k => leNat (slice (8 * k) 8 (slotBytes slots)))

/-- A CENSUS report is received (R137, R138, R562, R563, R566). One whose `can` is not a CAN of its sender is discarded, without a violation
[DESIGN CHOICE, log 95]. A CAN that a full set made a laggard (R562) does not leave with its `last`, since a line of it has no entry
[DEDUCED, log 111]. -/
def State.censusReport (s : State) (port src hs census can count : Nat) (last : Bool) (slots : List Slot) : State :=
  if (s.agent src).life ≠ .present then s
  else if 32 < count ∨ slots.length ≠ ceilDiv count 4 then s.violation src 5 0x29 noCtx port 0
  else
    let x := s.slc hs
    if x.census ≠ census ∨ !x.counted ∨ s.canAgent can ≠ some src ∨ x.phase = 1 then s
    else
      let s1 := (censusWords count slots).foldl (fun t w => t.censusRecord hs can w) s
      if last then
        let y := s1.slc hs
        s1.setSlc hs { y with
          queried := y.queried.filter (· != can),
          laggards := if y.full.contains can then y.laggards else y.laggards.filter (· != can) }
      else s1

/-- The census closes: agents that have not ended their reports are laggards (R563). -/
def State.censusClose (s : State) (h : Nat) : State :=
  let x := s.slc h
  if x.phase = 2 then
    s.setSlc h { x with phase := 3, laggards := (x.laggards ++ x.queried).eraseDups, queried := [], unsent := [] }
  else s

/-- The requests of the hold queues that are named go on, in admission order: to their slices, or into the wait list of their line when
they are further reads of a view read (R556). -/
def State.sendHeld (s : State) : List Req → State
  | [] => s
  | r :: t =>
    State.sendHeld (if (s.req? r.id).any (fun q => q.phase == .holding) then
      (if r.parent.isSome then (s.joinLine r).work [r.line] else s.sendHome r) else s) t

/-- Requests of a slice's hold queue go to it in admission order: those named first, which it retained, then the new ones (R556). -/
def State.reissue (s : State) (h : Nat) (first : List Nat) : State :=
  let held := s.reqs.filter (fun r => r.phase == .holding && hsOf r.ppa == h)
  s.sendHeld (held.filter (fun r => first.contains r.id) ++ held.filter (fun r => !first.contains r.id))

/-- The copies of a slice are freed; of those beyond a port's 256 the messages have waited in its D.RSP pool, whose slots come free (R559). -/
def State.freeCopies (s : State) (h : Nat) : State :=
  let s1 : State := { s with coh := { s.coh with repl := s.coh.repl.filter (fun p => p.2.1 != h) } }
  (List.range 24).foldl (fun t p =>
    let n := (s.diHeld p).length - (s1.diHeld p).length
    if n = 0 then t else (t.freeRx p 2 n).freeRx p 6 (4 * n)) s1

/-- The hold ends: retained requests, then held new ones, go to the slice in admission order, and the replay copies are freed. No snoop sent before
the loss may still be unanswered (R556, R559, R560). -/
def State.holdEnd (s : State) (h : Nat) : State :=
  let x := s.slc h
  if x.phase ≠ 3 ∨ s.coh.snoops.any (fun y => y.hs == h) then s
  else
    let n := (s.reqs.filter (fun r => r.phase == .holding && x.retained.contains r.id)).length
    let s1 := ((s.freeCopies h).setSlc h { x with phase := 0, retained := [] }).reissue h x.retained
    (s1.bump O.reissued h 0 n).setOv O.hold_time_last (ticksUs (s.ltc - x.since) % 2 ^ 32) h

/-- `unk_release`: the operator removes a CAN from a slice's unresolved set (R569). -/
def State.unkRelease (s : State) (h can : Nat) : State :=
  let x := s.slc h
  s.setSlc h { x with unres := x.unres.filter (fun u => u.1 != can) }

end Sys2Proof.Machine
end

