-- ==== Sys2Proof/Machine/Dram.lean ====
section
/-! DEFINITION. Sys2Proof/Machine/Dram.lean: channel controllers: queues, scheduling, Foghorn, refresh, retraining and
power-down (R344-R355), loss and replacement of DIMMs (R359, R366-R369), HBM channel fences and re-layout (R361-R365). The data
of a line moves when its home slice serialises the request; R345 makes the order in a channel invisible to it (log 15). -/

namespace Sys2Proof.Machine

open Sys2Proof

/-! ### Channels, banks, rows -/

/-- Where a chunk of a stack lies now, re-layout counted (R334, R363): its channel within the stack. -/
def State.hbmPlace (s : State) (ppa : Nat) : Nat :=
  let f := frameOf ppa
  let k := s.ov O.hbm_fenced_ch (f / 1024)
  let c := hbmChannel ppa
  if c = k then (relaidPlace k (keptRank (f % 1024))).2 else c

/-- The channel of a line (R334, R335, R363). -/
def State.chanFor (s : State) (line : Nat) : Nat :=
  let ppa := line * 128
  if frameOf ppa < 4096 then 24 + 32 * (frameOf ppa / 1024) + s.hbmPlace ppa else ddrChannel ppa

/-- Place of a chunk among those its frame puts on its channel (R334, R335). -/
def chunkPlace (line : Nat) : Nat := if frameOf (line * 128) < 4096 then line % 2 ^ 19 / 1024 else line % 2 ^ 19 / 64

/-- The bank of a line: consecutive chunks of a frame on a channel go to consecutive banks in turn (R336). -/
def bankOf (line : Nat) : Nat := chunkPlace line % Config.dramFact 0 (tierOf (frameOf (line * 128)))

/-- The row of a line; a chunk lies in one row of one bank (R336, log 14). -/
def rowOf (line : Nat) : Nat := Config.dramFact 1 (line / 32)

def rankOf (line : Nat) : Nat := Config.dramFact 2 (line / 32)

/-- The row open in a bank. -/
def Chan.openRow (x : Chan) (line : Nat) : Bool := Tab.get 0 x.rows (bankOf line) == rowOf line + 1

/-- Every request queued at a channel. -/
def Chan.all (x : Chan) : List Dreq := x.l ++ x.n ++ x.b ++ x.w

/-! ### Queues (R344, R345, R419) -/

/-- The queue a request enters: 0 L, 1 N, 2 B, 3 W. `cls` 0 is a read for an agent or a view read, 1 one a yellow request
asked for, 2 a read of a tender, sweep or tile, 3 a write. -/
def State.queueFor (s : State) (cls ctx : Nat) : Nat :=
  match cls with
  | 0 => if s.ob O.sg_latency (s.ov O.svc_group ctx) then 0 else 1
  | 1 => 2
  | 2 => 2
  | _ => 3

/-- A line request enters a queue of channel `c`, the channel of its line, when a slot is free; a read of a line with a write in W is served
from W. The page hint is that of the request it serves, and OPEN for reads of tenders, sweeps and tiles (R101, R348). -/
def State.queueEnter (s : State) (line cls ctx c : Nat) : State :=
  let x := s.chan c
  let q := s.queueFor cls ctx
  let w := decide (3 ≤ cls)
  let r : Dreq := ⟨line, ctx, if cls = 2 then 1 else Tab.get 0 s.dram.hints (2 * line + b2n w), x.seq⟩
  let x1 := { x with
    seq := x.seq + 1, down := clrBit x.down (rankOf line)
    due := x.due && !(x.all.isEmpty && decide (x.emptyAt + usTicks 2 ≤ s.ltc)) }
  if s.chanFor line ≠ c ∨ s.lost (line * 128) then s
  else if cls < 3 ∧ x.w.any (fun y => y.line == line) then s.pageHint line w 0
  else
    let y : Option Chan := match q with
      | 0 => if x.l.length < 64 then some { x1 with l := x.l ++ [r] } else none
      | 1 => if x.n.length < 128 then some { x1 with n := x.n ++ [r] } else none
      | 2 => if x.b.length < 64 then some { x1 with b := x.b ++ [r] } else none
      | _ => if x.w.length < 64 then some { x1 with w := x.w ++ [r] } else none
    match y with
    | some z => ((s.setChan c z).pageHint line w 0).foghorn (chanSector c)
    | none => s

/-! ### Service (R346-R348, R350) -/

/-- The refresh debt a bank may reach (R352). -/
def debtLimit (c : Nat) : Nat := if c < 24 then 4 else Config.dramFact 3 ((c - 24) / 32)

/-- Requests to banks that may be served: those not at their debt limit (R352). -/
def Chan.servable (x : Chan) (c : Nat) (q : List Dreq) : List Dreq :=
  q.filter (fun r => decide (Tab.get 0 x.debt (bankOf r.line) < debtLimit c))

/-- First-ready first-come-first-served with the hit cap, among requests to banks that may be served. -/
def State.frFcfs (s : State) (c : Nat) (x : Chan) (q : List Dreq) : Option Dreq :=
  let ok := x.servable c q
  match ok.find? (fun r => x.openRow r.line) with
  | none => ok.head?
  | some r =>
    if s.ov O.hit_cap ≤ Tab.get 0 x.hits (bankOf r.line) then ok.find? (fun y => bankOf y.line == bankOf r.line) else some r

/-- The access itself: counters, the row left open or closed by the request's hint (R348). -/
def State.access (s : State) (c : Nat) (x : Chan) (r : Dreq) : State :=
  let b := bankOf r.line
  let hit := x.openRow r.line
  let again := x.all.any (fun y => bankOf y.line == b && rowOf y.line == rowOf r.line)
  let keep := r.hint == 1 || (r.hint == 0 && (again || s.ov O.auto_close != 0))
  let x1 := { x with
    rows := Tab.put 0 x.rows b (if keep then rowOf r.line + 1 else 0),
    autos := if r.hint = 0 ∧ keep then setBit x.autos b else clrBit x.autos b,
    hits := Tab.put 0 x.hits b (if hit then Tab.get 0 x.hits b + 1 else 0), parity := 0
    emptyAt := if x.all.isEmpty then s.ltc else x.emptyAt }
  let s1 := s.setChan c x1
  let s2 := if c < 24 then s1.bump O.dc_lines 0 c else s1.bump O.hbch_lines ((c - 24) / 32) ((c - 24) % 32)
  (if hit ∧ c < 24 then s2.bump O.dc_row_hits 0 c else s2).foghorn (chanSector c)

/-- A queue without one request. -/
def dropDreq (r : Dreq) (q : List Dreq) : List Dreq := q.filter (fun y => y.seq != r.seq)

/-- Serve from W. -/
def State.serveWrite (s : State) (c : Nat) (x : Chan) : State :=
  match s.frFcfs c x x.w with
  | none => s.setChan c x
  | some r =>
    let w := dropDreq r x.w
    s.access c { x with w := w, drain := x.drain && decide (s.ov O.wq_low < w.length) } r

/-- Requests of a group in a queue. -/
def State.groupOf (s : State) (g : Nat) (q : List Dreq) : List Dreq := q.filter (fun r => s.ov O.svc_group r.ctx == g)

/-- Groups with a queued read, those of latency class first and alone under Foghorn. -/
def State.readGroups (s : State) (c : Nat) (x : Chan) : Bool × List Nat :=
  let gs := (x.servable c (x.l ++ x.n ++ x.b)).map (fun r => s.ov O.svc_group r.ctx)
  let lat := gs.filter (fun g => s.ob O.sg_latency g)
  if s.ob O.fog_state 0 (chanSector c) ∧ lat ≠ [] then (true, lat) else (false, gs)

/-- Serve a read: a group by deficit round robin at 128 bytes a line, then L, N and B of it. -/
def State.serveRead (s : State) (c : Nat) (x : Chan) : State :=
  let g := s.readGroups c x
  let d := if g.1 then x.lat else x.drr
  let quantum (k : Nat) : Nat := s.ov O.sg_quantum k
  match drrTurn quantum (fun k => if g.2.contains k then some 128 else none) 192 d.group (!d.entered) d.deficit with
  | none => s
  | some (k, def_) =>
    let left := ((s.groupOf k x.l) ++ (s.groupOf k x.n) ++ (s.groupOf k x.b)).length
    let d1 := Drr.settle ⟨k, true, def_, d.turn⟩ (decide (1 < left))
    let x1 := if g.1 then { x with lat := d1 } else { x with drr := d1 }
    match s.frFcfs c x1 (s.groupOf k x.l), s.frFcfs c x1 (s.groupOf k x.n), s.frFcfs c x1 (s.groupOf k x.b) with
    | some r, _, _ => s.access c { x1 with l := dropDreq r x1.l } r
    | none, some r, _ => s.access c { x1 with n := dropDreq r x1.n } r
    | none, none, some r => s.access c { x1 with b := dropDreq r x1.b } r
    | none, none, none => s

/-- A channel controller serves one queued request. -/
def State.channelServe (s : State) (c : Nat) : State :=
  let x := s.chan c
  let drain := x.drain || decide (s.ov O.wq_high ≤ x.w.length)
  if drain ∨ (x.l = [] ∧ x.n = [] ∧ x.b = []) then s.serveWrite c { x with drain := drain } else s.serveRead c x

/-- A row left open by AUTO closes when no queued request targets it (R348). -/
def State.rowClose (s : State) (c b : Nat) : State :=
  let x := s.chan c
  if x.autos.testBit b ∧ !x.all.any (fun y => bankOf y.line == b && x.openRow y.line) then
    s.setChan c { x with rows := Tab.put 0 x.rows b 0, autos := clrBit x.autos b }
  else s

/-! ### Refresh, retraining, power-down (R351-R355) -/

/-- A bank is refreshed: its row closes. -/
def Chan.refreshed (x : Chan) (b debt : Nat) : Chan :=
  { x with rows := Tab.put 0 x.rows b 0, autos := clrBit x.autos b, debt := Tab.put 0 x.debt b debt }

/-- A channel in use: it exists and is not DARK. -/
def State.chanLit (s : State) (c : Nat) : Bool :=
  if c < 24 then s.pairLit (c / 2) else decide (c < 152) && s.ov O.hbch_state ((c - 24) / 32) ((c - 24) % 32) != 2

/-- A refresh made at the debt limit, counted for a DDR5 channel: the bank's debt afterwards is `debt` (R352). -/
def State.refreshNow (s : State) (c b debt : Nat) : State :=
  let s1 := s.setChan c ((s.chan c).refreshed b debt)
  if c < 24 then s1.bump O.dc_refresh_forced 0 c else s1

/-- A bank's refresh interval falls due: postponed while requests to it are queued or Foghorn is up, up to the limit, and at the limit made
at once; an idle bank is refreshed and its debt repaid. -/
def State.refreshDue (s : State) (c b : Nat) : State :=
  let x := s.chan c
  let d := Tab.get 0 x.debt b
  if !s.chanLit c then s
  else if x.all.any (fun r => bankOf r.line == b) || s.ob O.fog_state 0 (chanSector c) then
    if d < debtLimit c then s.setChan c { x with debt := Tab.put 0 x.debt b (d + 1) } else s.refreshNow c b d
  else s.setChan c (x.refreshed b 0)

/-- A bank at its debt limit is refreshed before it serves again. -/
def State.refreshForced (s : State) (c b : Nat) : State :=
  let d := Tab.get 0 (s.chan c).debt b
  if d ≠ 0 ∧ debtLimit c ≤ d then s.refreshNow c b (d - 1) else s

/-- A channel is due to retrain: at once when its queues are empty, else at its next window. -/
def State.retrainDue (s : State) (c : Nat) : State :=
  let x := s.chan c
  if s.chanLit c then s.setChan c { x with due := x.all != [] } else s

/-- `retrain_force` has passed: where no window of 2 µs with empty queues has come, one is made and counted. -/
def State.retrainForce (s : State) (c : Nat) : State :=
  let x := s.chan c
  if x.due && x.all.isEmpty && decide (x.emptyAt + usTicks 2 ≤ s.ltc) then s.setChan c { x with due := false }
  else if x.due then
    let s1 := s.setChan c { x with due := false }
    if c < 24 then s1.bump O.dc_retrain_forced 0 c else s1.bump O.hbch_retrain_forced ((c - 24) / 32) ((c - 24) % 32)
  else s

/-- A rank idle for `pd_idle` enters power-down. -/
def State.rankDown (s : State) (c rank : Nat) : State :=
  let x := s.chan c
  if s.chanLit c ∧ s.ov O.pd_idle ≠ 0 ∧ !x.all.any (fun r => rankOf r.line == rank) then s.setChan c { x with down := setBit x.down rank }
  else s

/-! ### DIMMs (R353, R359, R366-R369) -/

/-- Some frame of a pair belongs to an extent. -/
def State.pairHolds (s : State) (m : Nat) : Bool := s.pairFrames m != []

/-- The pair's state without its draining bit. -/
def State.pairSt (s : State) (m : Nat) : Nat := s.ov O.dcp_state m % 16

def State.dcpResult (s : State) (m r : Nat) : State := s.setOv O.dcp_result r m

/-- A masked bit of the pair tables. -/
def flipMask (t : Tab Nat) (m i : Nat) (on : Bool) : Tab Nat :=
  Tab.put 0 t m (if on then setBit (Tab.get 0 t m) i else clrBit (Tab.get 0 t m) i)

/-- OFFLINE: the pair, which holds no extent frame, goes DARK with cause 0x01; one under repair ends its self-test so, and one that is DARK
already refuses (R22 Table 3, R366). -/
def State.offline (s : State) (m : Nat) : State :=
  if 12 ≤ m then s
  else if s.pairHolds m ∨ s.pairSt m = 2 then s.dcpResult m 1
  else if s.pairLit m then (s.pairDark m 1).dcpResult m 0
  else ((s.setUnitSt O.dcp_state 2 m).setOv O.dcp_cause 1 m).dcpResult m 0

/-- PWR_OFF of a slot of a DARK pair that holds no extent frame; a settle time of it ends with its power. -/
def State.pwrOff (s : State) (m slot : Nat) : State :=
  if 12 ≤ m ∨ 2 ≤ slot then s
  else if s.pairSt m ≠ 2 ∨ s.pairHolds m then s.dcpResult m 1
  else
    let s1 := (s.setOv O.dimm_pwr (clrBit (s.ov O.dimm_pwr m) slot) m).dcpResult m 0
    { s1 with dram := { s1.dram with settling := flipMask s1.dram.settling m slot false } }

/-- PWR_ON of a slot of a DARK pair with a DIMM present; its settle time begins. -/
def State.pwrOn (s : State) (m slot : Nat) : State :=
  if 12 ≤ m ∨ 2 ≤ slot then s
  else if s.pairSt m ≠ 2 ∨ !(s.ov O.dimm_present m).testBit slot then s.dcpResult m 1
  else
    let s1 := s.setOv O.dimm_pwr (setBit (s.ov O.dimm_pwr m) slot) m
    { s1 with dram := { s1.dram with settling := flipMask s1.dram.settling m slot true } }

/-- A DIMM passes the SPD check (R369): an RDIMM of x4 devices with two ECC devices a subchannel, fast enough, not too big. -/
def spdOk (form : Bool) (mts cap : Nat) : Bool := form && decide (7600 ≤ mts) && decide (cap ≤ 512)

/-- The bytes of `dimm_info`. -/
def dimmInfo (cap ranks mts serial : Nat) : Bytes :=
  natLe 2 cap ++ natLe 1 ranks ++ zeros 1 ++ natLe 2 mts ++ natLe 4 serial ++ zeros 6

/-- `dimm_settle` ends: the SPD is read and checked. -/
def State.settleEnd (s : State) (m slot : Nat) (form : Bool) (mts cap ranks serial : Nat) : State :=
  if (Tab.get 0 s.dram.settling m).testBit slot then
    let ok := spdOk form mts cap
    let s1 : State := { s with dram := { s.dram with
      settling := flipMask s.dram.settling m slot false
      spdBad := flipMask s.dram.spdBad m slot !ok } }
    let s2 := s1.setOct O.dimm_info (dimmInfo cap ranks mts serial) m slot
    if ok then s2.dcpResult m 0 else (s2.setOv O.dcp_cause 6 m).dcpResult m 3
  else s

/-- ONLINE: both slots present and powered; the pair goes REPAIRING and both channels are trained, unless an SPD failed. -/
def State.online (s : State) (m : Nat) : State :=
  if 12 ≤ m then s
  else if s.pairSt m ≠ 2 ∨ s.ov O.dimm_present m % 4 ≠ 3 ∨ s.ov O.dimm_pwr m % 4 ≠ 3 ∨ Tab.get 0 s.dram.settling m ≠ 0 then
    s.dcpResult m 1
  else if Tab.get 0 s.dram.spdBad m ≠ 0 then (s.setOv O.dcp_cause 6 m).dcpResult m 3
  else
    let s1 := s.setUnitSt O.dcp_state 3 m
    { s1 with dram := { s1.dram with trained := Tab.put 0 s1.dram.trained m 0 } }

/-- Populated frames of a pair from its DIMMs (R41). -/
def State.pairFramesFor (s : State) (m : Nat) : Nat :=
  32 * min (leNat ((s.oct O.dimm_info m 0).take 2)) (leNat ((s.oct O.dimm_info m 1).take 2))

/-- Full training of a channel ends (R353, R366): a pair is LIT when both its channels are trained; a failure makes it DARK
with cause TRAIN, and fences an HBM channel. -/
def State.trainingDone (s : State) (c : Nat) (ok : Bool) : State :=
  if 152 ≤ c then s
  else if 24 ≤ c then (if ok then s else s.fenceHbm ((c - 24) / 32) ((c - 24) % 32))
  else
    let m := c / 2
    if s.pairSt m = 2 then s
    else if !ok then
      (if s.pairLit m then s.pairDark m 2
        else (((s.setUnitSt O.dcp_state 2 m).setOv O.dcp_cause 2 m).event 0x41 0 m noCtx 0).dcpResult m 2)
    else if s.pairSt m = 3 then
      let t := setBit (Tab.get 0 s.dram.trained m) (c % 2)
      let s1 : State := { s with dram := { s.dram with trained := Tab.put 0 s.dram.trained m t } }
      if t = 3 then
        (((s1.setUnitSt O.dcp_state 0 m).setOv O.dcp_cause 0 m).setOv O.dcp_frames (min 16384 (s1.pairFramesFor m)) m).dcpResult m 0
      else s1
    else s

/-- A command-address parity alert: counted; more than `ca_retry_limit` in a row lose the pair (R359). -/
def State.caParity (s : State) (c : Nat) : State :=
  if 24 ≤ c then s
  else
    let x := s.chan c
    let s1 := (s.setChan c { x with parity := x.parity + 1 }).bump O.dc_ca_parity 0 c
    if s.ov O.ca_retry_limit < x.parity + 1 then s1.pairDark (c / 2) 4 else s1

/-- DIMM_PRSNT_N of a slot has changed; absence on a LIT pair makes it DARK and takes its power (R368). -/
def State.presentChange (s : State) (dimm : Nat) (present : Bool) : State :=
  if 24 ≤ dimm then s
  else
    let m := dimm / 2
    let old := s.ov O.dimm_present m
    let s1 := s.setOv O.dimm_present (if present then setBit old (dimm % 2) else clrBit old (dimm % 2)) m
    if !present ∧ s1.pairLit m then
      (s1.setOv O.dimm_pwr (clrBit (s1.ov O.dimm_pwr m) (dimm % 2)) m).pairDark m 3
    else s1

/-! ### HBM channels (R361-R365) -/

/-- `hbch_fence`: refused where it would lose the stack unless confirmed, and for a channel that is DARK already (R22); the confirmation is
used up. -/
def State.hbchFence (s : State) (n k : Nat) : Bool × State :=
  if 4 ≤ n ∨ 32 ≤ k then (false, s)
  else
    let c := s.ob O.hbch_confirm
    let s1 := s.setOv O.hbch_confirm 0
    if s.ov O.hbch_state n k = 2 ∨ (s.ov O.hbm_fenced_ch n ≠ 0xFF ∧ !c) then (false, s1) else (true, s1.fenceHbm n k)

/-- The local frame of a rank (R363). -/
def rankFrame (r : Nat) : Nat := if r < 2 then 1022 + r else r - 2

/-- The code words of a frame on channel `k` by R334. -/
def channelCws (f k : Nat) : List Nat :=
  ((List.range 16384).filter (fun i => hbmChannel (f * 2 ^ 26 + i * 4096) == k)).flatMap
    (fun i => (List.range 64).map (fun w => (f * 2 ^ 26 + i * 4096) / 64 + w))

/-- Re-establish code words: from the mirror frame as it reads now, or as poison (R364). -/
def State.reestablish (s : State) : List Nat → State
  | [] => s
  | w :: t =>
    State.reestablish (match s.mirrorOf (frameOf (w * 64)) with
      | some g => match s.cwSeen (mirrorCw w g) with
        | .data bs => s.cwStore w (.data bs)
        | .poison r => (s.cwStore w (.poison r)).notePoison w r
      | none => (s.cwStore w (.poison 7)).notePoison w 7) t

/-- The next kept frame, in rank order, is re-established and its lines cease to be lost (R364). -/
def State.relayoutDone (s : State) (n : Nat) : State :=
  let r := s.ov O.hbm_relaid n
  if s.ov O.hbm_state n ≠ 3 ∨ 992 ≤ r then s
  else
    let f := 1024 * n + rankFrame r
    let s1 := (s.setOv O.hbm_relaid (r + 1) n).reestablish (channelCws f (s.ov O.hbm_fenced_ch n))
    if r + 1 = 992 then
      (s1.setOv O.hbm_state 4 n).setOv O.hbm_frames 990 n
    else s1

end Sys2Proof.Machine
end

