-- ==== Sys2Proof/Machine/Scrubs.lean ====
section
/-! DEFINITION. Sys2Proof/Machine/Scrubs.lean: the corrected write-back, the merge hold, the rate buckets and the operator's scrub
(R375, R378, R390, R395-R400). -/

namespace Sys2Proof.Machine

open Sys2Proof

/-- A corrected code word still waiting is written back, unless its line has been written since (R375). -/
def State.ceWriteback (s : State) (cw : Nat) : State :=
  if s.ces.contains cw then
    let s1 : State := { s with ces := s.ces.filter (· != cw) }
    if Tab.get 0 s1.dramBad cw < 0x100 then { s1 with dramBad := Tab.put 0 s1.dramBad cw 0 } else s1
  else s

/-- An entry's `merge_hold` has passed: its held code words are written (R390). -/
def State.mergeExpire (s : State) (line : Nat) : State := s.flushMerge line

/-- An idle scrub with the counts of the range it is given; until a line is checked `end` shows the base [DESIGN CHOICE, log 116]. -/
def Scrub.start (base len : Nat) : Scrub := ⟨base, len, base, base, 0, 0, 0, 0, 0, 0, 0, false, false, true, [], [], []⟩

/-- SCRUB START: 0 done, 1 BAD_ARG, 2 BUSY (R395). -/
def State.scrubStart (s : State) : Nat × State :=
  let b := s.ov O.scrub_base
  let n := s.ov O.scrub_len
  if s.scrub.running then (2, s)
  else if b % 4096 ≠ 0 ∨ n % 4096 ≠ 0 ∨ 200704 * 2 ^ 26 < b + n then
    (1, { s with scrub := { Scrub.start b n with status := 1, running := false } })
  else if n = 0 then (0, { s with scrub := { Scrub.start b n with empty := true, running := false } })
  else (0, { s.setOv O.scrub_state 1 with scrub := Scrub.start b n })

/-- SCRUB CANCEL (R399). -/
def State.scrubCancel (s : State) : State :=
  if s.scrub.running then
    { s.setOv O.scrub_state 0 with scrub := { s.scrub with running := false, cancelled := true } }
  else s

/-- What a scrub finds in a code word: 0 clean, 1 corrected, 2 poison, 3 uncorrectable; whether it was repaired; the device
of a correction; the reason of poison (R397, R400). -/
structure Found where
  cls : Nat
  fixed : Bool
  dev : Nat
  reason : Nat
deriving DecidableEq, Repr

/-- The check of one code word as it lies in DRAM, with R375 and R376 applied (R397). -/
def State.scrubCw (s : State) (cw : Nat) : Found × State :=
  let b := Tab.get 0 s.dramBad cw
  let p := Tab.get 0 s.poison cw
  if b < 0x100 then
    let s1 := if b = 0 then s else (s.noteCe (cw * 64) (b - 1)).wantWriteback cw
    let dev := if frameOf (cw * 64) < 4096 then 0x1F else (b - 1) % 16
    (⟨if p ≠ 0 then 2 else if b = 0 then 0 else 1, false, dev, p⟩, s1)
  else match s.goodMirror cw with
    | some v => (⟨3, true, 0, 0⟩, ((s.cwStore cw v).bump O.repaired).noteUe (cw * 64))
    | none => (⟨3, false, 0, 1⟩, ((s.cwStore cw (.poison 1)).notePoison cw 1).noteUe (cw * 64))

/-- Add to a list that shows its first 16 entries. -/
def list16 (l : List Nat) (x : Nat) : List Nat := if l.length < 16 then l ++ [x] else l

/-- Class a checked line by the worse of its code words and enter it in the summary (R400). -/
def Scrub.enter (x : Scrub) (ppa : Nat) (a b : Found) : Scrub :=
  let of (k : Nat) : Nat := b2n (decide (a.cls = k)) + 2 * b2n (decide (b.cls = k))
  let worst := max a.cls b.cls
  let first (k : Nat) : Found := if a.cls = k then a else b
  let y := { x with checked := x.checked + 1, pos := ppa + 128, last := ppa + 128, repaired := x.repaired + b2n (a.fixed || b.fixed) }
  match worst with
  | 0 => y
  | 1 => { y with corrected := y.corrected + 1, ceList := list16 y.ceList (ppa + (first 1).dev * 4 + of 1) }
  | 2 => { y with pois := y.pois + 1, poList := list16 y.poList (ppa + (first 2).reason) }
  | _ => { y with unc := y.unc + 1, ueList := list16 y.ueList (ppa + of 3) }

/-- The scrub has reached the end of its range. -/
def State.scrubEnd (s : State) : State :=
  if s.scrub.base + s.scrub.len ≤ s.scrub.pos then
    { s.setOv O.scrub_state 0 with scrub := { s.scrub with running := false } }
  else s

/-- The next line of the scrub is checked or skipped, or waits for Foghorn or its home slice (R396-R398). -/
def State.scrubLine (s0 : State) (m : Met) : State :=
  let p := s0.scrub.pos
  let f := frameOf p
  if !s0.scrub.running then s0
  else if !s0.populated f || s0.withdrawn f || s0.lost p then
    State.scrubEnd { s0 with scrub := { s0.scrub with skipped := s0.scrub.skipped + 1, pos := p + 128 } }
  else if s0.ob O.fog_state 0 (sectorOf f) then s0.setOv O.scrub_state 2
  else if !s0.slcServes (hsOf p) then s0
  else
    let s := ((s0.meet m.errs).setOv O.scrub_state 1).flushMerge (p / 128)
    let a := s.scrubCw (p / 64)
    let b := a.2.scrubCw (p / 64 + 1)
    State.scrubEnd { b.2 with scrub := b.2.scrub.enter p a.1 b.1 }

/-- One list of the summary: 16 entries, unused ones all ones. -/
def listBytes (l : List Nat) : Bytes :=
  (l ++ List.replicate (16 - l.length) (2 ^ 64 - 1)).flatMap (natLe 8)

/-- The summary (Table 4). -/
def Scrub.bytes (x : Scrub) : Bytes :=
  natLe 8 x.base ++ natLe 8 x.len ++ natLe 8 x.checked ++ natLe 8 x.corrected ++ natLe 8 x.unc ++ natLe 8 x.pois
    ++ natLe 8 x.repaired ++ natLe 8 x.skipped ++ natLe 1 x.status
    ++ natLe 1 (b2n x.empty + 2 * b2n x.cancelled + 4 * b2n x.running) ++ zeros 6 ++ natLe 8 x.last
    ++ listBytes x.ceList ++ listBytes x.ueList ++ listBytes x.poList

end Sys2Proof.Machine
end

