-- ==== Sys2Proof/Machine/Ports.lean ====
section
/-! DEFINITION. Sys2Proof/Machine/Ports.lean: a Boroc port as a whole: its REQ pool (R120), a link that goes DOWN (R518), the
lost port (R585), link synchronisation (R586-R588), quarantine (R463), and the fence and repair of the port (R522). -/

namespace Sys2Proof.Machine

open Sys2Proof

/-! ### Sequence numbers (R502) -/

/-- A link sequence number precedes another (R502). -/
def precedes (a b : Nat) : Bool := decide (1 ≤ (b + 4096 - a) % 4096 ∧ (b + 4096 - a) % 4096 ≤ 2047)

/-! ### The REQ pool (R120) -/

/-- Retained headers of a port (R36, R120). -/
def State.retainedAt (s : State) (p : Nat) : Nat :=
  (s.reqs.filter (fun r => r.port == p)).length
    + (s.cmps.filter (fun c => c.port == p && !s.reqs.any (fun r => r.id == c.reqId))).length

/-- A request received at a port: admitted, or kept in the REQ pool while the port has no place for its header (R120). -/
def State.receive (s : State) (k : Kind) (port src : Nat) (h : Hdr) (slots : List Slot) : State :=
  if 4096 ≤ s.retainedAt port ∨ s.pool.any (fun w => w.port == port) then { s with pool := s.pool ++ [⟨k, port, src, h, slots⟩] }
  else s.arrive k port src h slots

/-- A retained-header place has come free: the oldest waiting request of the port is admitted (R120, R498). -/
def State.admitNext (s : State) (port : Nat) : State :=
  match s.pool.find? (fun w => w.port == port) with
  | none => s
  | some w =>
    if 4096 ≤ s.retainedAt port then s
    else
      let s1 := { s with pool := s.pool.erase w }.arrive w.kind port w.src w.h w.slots
      (s1.freeRx port 0 1).freeRx port 5 w.slots.length

/-- A completion leaves and frees its place (R121, R120). -/
def State.completionLeaves (s : State) (port agt tag : Nat) : State := (s.cmpEgress port agt tag).admitNext port

/-! ### Requests of a lost port (R585) -/

/-- Requests complete with PORT_LOST; a record one of them waited on stays queued by itself. -/
def State.failPort (s : State) (why : Nat) : List Req → State
  | [] => s
  | r :: t =>
    let frecs := s.frecs.map (fun x => if x.req = some r.id then { x with req := none } else x)
    let s0 : State := { s with frecs := frecs }
    let s1 := if r.phase = .waiting then
        s0.setDir r.line { s0.dir r.line with waits := (s0.dir r.line).waits.filter (· != r.id) } else s0
    State.failPort (s1.finish r .portLost (plWhy := why)) why t

/-- An ACC or ATOM of a port that waits in a line's wait list. -/
def waitingAdd (p : Nat) (r : Req) : Bool := r.port == p && r.phase == .waiting && (r.kind == .acc || r.kind == .atom)

/-- A request of a port not yet sent into the mesh; one that a slice retains has been (R556). -/
def State.unsentReq (s : State) (p : Nat) (r : Req) : Bool :=
  r.port == p && (match r.phase with
    | .fetching => true
    | .fenced => true
    | .slotted => true
    | .holding => !(s.slc (hsOf r.ppa)).retained.contains r.id
    | .fencing => true
    | _ => false)

/-- Requests in the REQ pool of a fenced port complete with PORT_LOST too. -/
def State.failPool (s : State) (p : Nat) : List Waiting → State
  | [] => s
  | w :: t =>
    let r := Req.arriving s.nextReq w.kind p w.h w.slots
    let s1 : State := { s with nextReq := s.nextReq + 1, pool := s.pool.erase w }
    State.failPool (s1.finish r .portLost) p t

/-! ### Messages of a lost link (R132, R134, R587) -/

/-- The port by which a message that has not left goes instead; none while it waits (R134): a completion or the answer of
an LLM by its own reach set (R131, R132, R681), a doorbell by R429, a snoop, query or MGT message by that of a message that answers no request. -/
def State.routeMsg (s : State) (m : Msg) : Option Nat :=
  if m.agt < 4096 then
    if m.arrival < 24 then s.cmpRoute m.arrival m.agt m.line
    else if m.chan = 2 then s.ntfPort m.agt
    else match m.line with
    | some l => s.pickPort (s.reachPorts m.agt) l m.agt
    | none => ((s.reachPorts m.agt).filter s.portUp).head?
  else (s.blkPorts.filter s.portUp).head?

/-- A segment of a link handshake or rekey, which concerns its own link only (R465). -/
def linkSegment (m : Msg) : Bool := m.chan == 4 && bits m.hdr 250 6 == 0x2C && decide (bits m.hdr 245 5 ≤ 7)

/-- A message that has not left, or was lost, is sent by port `q` instead of `p`: the time of a snoop begins anew there (R584), and the
record of a grant goes with it (R161). -/
def State.sendAgain (s : State) (p q : Nat) (m : Msg) : State :=
  let moved (x : SnpRec) : SnpRec :=
    if m.chan = 1 ∧ bits m.hdr 250 6 ≠ 0x28 ∧ x.hs = bits m.hdr 245 5 ∧ x.sid = bits m.hdr 233 12 ∧ x.can = bits m.hdr 223 10 ∧ x.out then
      { x with port := q, since := s.ltc } else x
  let carried (g : Grant) : Grant :=
    if isGrant m ∧ g.port = p ∧ g.agt = bits m.hdr 226 12 ∧ g.tag = bits m.hdr 238 12 then { g with port := q } else g
  { s with coh := { s.coh with snoops := s.coh.snoops.map moved, grants := s.coh.grants.map carried } }.send q m

/-- Messages queued at a port that is not up and has no synchronisation running leave by other ports. -/
def State.reroute (s : State) (p : Nat) : List Msg → State
  | [] => s
  | m :: t => match s.routeMsg m with
    | some q => State.reroute (s.sendAgain p q m) p t
    | none => State.reroute (s.send p m) p t

/-- Every port's waiting messages are routed anew. A handshake or rekey of a link that is not DOWN goes on there. -/
def State.rerouteAll (s : State) : State :=
  (List.range 24).foldl (fun t p =>
    if t.portUp p ∨ (t.lostPorts.any (fun x => x.1 == p)) then t
    else
      let down := t.ov O.link_state p == 0 || t.ov O.link_state p == 5
      let q := Tab.get [] t.txq p
      let t1 : State := { t with txq := Tab.put [] t.txq p (if down then [] else q.filter linkSegment) }
      t1.reroute p (q.filter (fun m => !linkSegment m))) s

/-- The PORT_LOST completion that stands for an undelivered grant completion (R587). -/
def lostGrant (m : Msg) : Msg :=
  { m with
    hdr := 0x30 * 2 ^ 250 + bits m.hdr 238 12 * 2 ^ 238 + bits m.hdr 226 12 * 2 ^ 226 + 6 * 2 ^ 222 + 3 * 2 ^ 195, slots := [] }

/-- The CAN of an agent (R143). -/
def State.canOf (s : State) (a : Nat) : Option Nat := (List.range 1024).find? (fun c => s.canAgent c == some a)

/-- An undelivered grant is undone: its line is recalled from that agent alone, if it is still a holder (R587). The lost port's record of the
grant counts as acknowledged already (R166). -/
def State.undoSent (s : State) (m : Msg) : State :=
  match m.line, s.canOf m.agt with
  | some l, some can => (s.setDir l { s.dir l with single := (s.dir l).single ++ [can] }).work [l]
  | _, _ => s

/-- The messages of a replay buffer at or after a sequence number, with the message begun. -/
def Lost.msgs (x : Lost) (e : Nat) : List Msg :=
  (x.replay.filter (fun f => !precedes f.seq e)).flatMap (·.msgs) ++ x.cur.toList

/-- Messages are sent again through the port that carried the exchange (R587). -/
def State.resendLost (s : State) (p q : Nat) : List Msg → State
  | [] => s
  | m :: t =>
    if linkSegment m then State.resendLost s p q t
    else if isGrant m then State.resendLost ((s.undoSent m).send q (lostGrant m)) p q t
    else State.resendLost (s.sendAgain p q m) p q t

/-- The exchange has failed: unacknowledged messages are discarded, grants among them undone, and the agents named (R588). -/
def State.syncFail (s : State) (p : Nat) (x : Lost) : State :=
  let ms := x.replay.flatMap (·.msgs) ++ x.cur.toList
  let grants := ms.filter isGrant
  let agts := ((ms.filter (fun m => decide (m.agt < 4096))).map (·.agt)).eraseDups
  let s1 : State := { s with lostPorts := Tab.del p s.lostPorts }
  let s2 := grants.foldl (fun t m => (t.undoSent m).send p (lostGrant m)) s1
  let s3 := agts.foldl (fun t a => t.event 0x21 4 a noCtx 0) s2
  (s3.bump O.port_syncs 0 p 65536).rerouteAll

/-- A LINK_SYNC header (Table 6). -/
def packSync (port expected dir salt : Nat) : Nat :=
  0x2A * 2 ^ 250 + port % 32 * 2 ^ 245 + expected % 4096 * 2 ^ 233 + dir % 2 * 2 ^ 232 + salt % 2 ^ 32 * 2 ^ 200

/-- The digest of a port's session partner (Table 15). -/
def State.partnerKey (s : State) (p : Nat) : Bytes := (s.oct O.link_partner 0 p).drop 4

/-- Link synchronisation of a lost port starts, or fails where no other link to the partner is up (R586, R588). -/
def State.startSync (s : State) (p : Nat) (x : Lost) : State :=
  match (List.range 24).find? (fun q => q != p && s.portUp q && s.partnerKey q == x.partner) with
  | some q =>
    ({ s with lostPorts := Tab.ins p { x with via := q } s.lostPorts }).send q
      { chan := 4, hdr := packSync p x.expected 0 x.txSalt, slots := [] }
  | none => s.syncFail p x

/-! ### A link goes DOWN (R518, R585) -/

/-- The grant records of a port whose completions have left it: those still in its queue have not (R161). -/
def State.leftGrants (s : State) (p : Nat) : List Grant :=
  let queued := Tab.get [] s.txq p
  s.coh.grants.filter (fun g => g.port == p && !queued.any (fun m =>
    isGrant m && g.agt == bits m.hdr 226 12 && g.tag == bits m.hdr 238 12))

/-- The link of a port leaves whatever state it is in for `st'` (0 DOWN, 5 QUARANTINED): the port is lost. Its grant records count as
acknowledged (R166). -/
def State.linkDown (s : State) (p : Nat) (st' : Nat := 0) : State :=
  let st := s.ov O.link_state p
  if st = 0 ∨ st = 5 then s.setOv O.link_state (max st st') p
  else
    let x := s.lport p
    let se := s.session p
    let was := decide (st = 3 ∨ st = 4)
    let rec0 : Lost := ⟨0, x.replay, x.cur.map (·.1), x.expected, se.txSalt, se.rxSalt, s.partnerKey p⟩
    let s1 := ((s.setOv O.link_state st' p).setOv O.link_sec_state (if st' = 5 then 4 else 0) 0 p).setOv O.width 0 p
    let s2 := (s1.setLport p LPort.dflt).setSession p { Sess.dflt with fails := se.fails }
    if was then
      let s3 := (s2.bump O.port_losses p).event 0x20 3 p noCtx 0
      let s4 := s3.failPort 1 (s3.reqs.filter (waitingAdd p))
      (s4.ackGrants (s4.leftGrants p)).startSync p rec0
    else s2

/-- A Boroc port is lost: its link goes DOWN (R518, R585). -/
def State.portLost (s : State) (p : Nat) : State := if p < 24 then s.linkDown p else s

/-- The port's unit is fenced: besides the loss of its link, requests it has not sent into the mesh fail (R585). -/
def State.portDark (s : State) (p : Nat) : State :=
  let s1 := ((s.linkDown p).setUnitSt O.port_state 2 p).bump O.fences
  let s2 := s1.failPort 0 (s1.reqs.filter (s1.unsentReq p))
  s2.failPool p (s2.pool.filter (fun w => w.port == p))

/-- `port_cmd` FENCE: from LIT or REPAIRING (R522, R577). -/
def State.portFence (s : State) (p : Nat) : Bool × State :=
  if p < 24 ∧ s.ov O.port_state p ≠ 2 then (true, s.portDark p) else (false, s)

/-- `port_cmd` REPAIR: from DARK. The self-test's end is REPAIR_SELFTEST_DONE. -/
def State.portRepair (s : State) (p : Nat) : Bool × State :=
  if p < 24 ∧ s.ov O.port_state p = 2 then (true, s.setUnitSt O.port_state 3 p) else (false, s)

/-- `port_cmd` RESTART takes the link DOWN (R518). -/
def State.portRestart (s : State) (p : Nat) : State := if p < 24 ∧ s.ov O.link_state p ≠ 5 then s.linkDown p else s

/-- A link has been out of UP for `port_loss_time` (R518). -/
def State.portLossTimeout (s : State) (p : Nat) : State :=
  if p < 24 ∧ s.ov O.link_state p = 4 then s.linkDown p else s

/-! ### LINK_SYNC (R586, R587) -/

/-- The partner answers for a lost port: both sides know what arrived, and the rest is sent again. -/
def State.syncAnswer (s : State) (q p expected : Nat) : State :=
  match s.lostPorts.find? (fun x => x.1 == p && x.2.via == q) with
  | none => s.bump O.chan_errors q
  | some (_, x) =>
    let s1 : State := { s with lostPorts := Tab.del p s.lostPorts }
    let s2 := s1.resendLost p q (x.msgs expected)
    (s2.bump O.port_syncs 0 p).rerouteAll

/-- A partner that is a node asks about a link it has lost, named by the salt of its direction: the answer goes back through the
same port, and what it has not received is sent again (R481, R586, R587). -/
def State.syncAsk (s : State) (q p expected salt : Nat) : State :=
  match (List.range 24).find? (fun n => n != q && s.portUp q && s.partnerKey n == s.partnerKey q
      && (s.session n).rxSalt == salt && (s.session n).rxKey != 0) with
  | some n =>
    let x := s.lport n
    let s1 := (s.send q { chan := 4, hdr := packSync p x.expected 1 salt, slots := [] }).linkDown n
    let s2 : State := { s1 with lostPorts := Tab.del n s1.lostPorts }
    let rec0 : Lost := ⟨q, x.replay, x.cur.map (·.1), x.expected, 0, 0, []⟩
    s2.resendLost n q (rec0.msgs expected)
  | none =>
    match s.lostPorts.find? (fun x => x.2.rxSalt == salt) with
    | some (_, x) => s.send q { chan := 4, hdr := packSync p x.expected 1 salt, slots := [] }
    | none => s.bump O.chan_errors q

/-- A LINK_SYNC is received by port `q`. -/
def State.linkSync (s : State) (q port expected dir salt : Nat) : State :=
  if dir = 1 then s.syncAnswer q port expected else s.syncAsk q port expected salt

/-- No answer within 100 µs (R588). -/
def State.linkSyncTimeout (s : State) (p : Nat) : State :=
  match s.lostPorts.find? (fun x => x.1 == p) with
  | some (_, x) => s.syncFail p x
  | none => s

/-! ### Quarantine (R463) -/

/-- A port is quarantined: its link goes down and stays down until `link_release`; an agent partner is frozen for LINK_AUTH. -/
def State.quarantine (s : State) (p : Nat) : State :=
  let a := s.boundAgent p
  let s1 := ((s.linkDown p 5).setOv O.link_sec_state 4 0 p).event 0x23 3 p noCtx 0
  match a with
  | some n => s1.violation n 6 0 noCtx p 0
  | none => s1

/-- A flit failed its tag (R463). -/
def State.tagFail (s : State) (p : Nat) : State :=
  let x := s.session p
  let ts := x.tags.filter (fun t => decide (s.ltc < t + usTicks 1000000)) ++ [s.ltc]
  let s1 := (s.setSession p { x with tags := ts }).bump O.tag_fail 0 p
  if s.ov O.tag_fail_limit < ts.length then s1.quarantine p else s1

/-- A handshake failed: the link goes DOWN, and after `setup_fail_limit` failures in a row the port is quarantined (R463). -/
def State.sessFail (s : State) (p : Nat) : State :=
  let x := s.session p
  let s1 := s.setSession p { x with fails := x.fails + 1 }
  if s.ov O.setup_fail_limit ≤ x.fails + 1 then s1.quarantine p else s1.linkDown p

/-- `link_release`: refused unless the port is quarantined (R463, R511). -/
def State.linkRelease (s : State) (p : Nat) : Bool × State :=
  if p < 24 ∧ s.ov O.link_state p = 5 then
    (true, ((s.setOv O.link_state 0 p).setOv O.link_sec_state 0 0 p).setSession p Sess.dflt)
  else (false, s)

/-- A session is up: messages, CENSUS queries and held completions may leave (R134, R136, R457), the time of snoops that waited here
begins anew (R584), and the partner's lane counts begin (R520). -/
def State.sessionUp (s : State) (p : Nat) : State :=
  let x := s.session p
  let s0 : State := { s with coh := { s.coh with
    snoops := s.coh.snoops.map (fun y => if y.out ∧ y.port = p then { y with since := s.ltc } else y) } }
  let s1 := (s0.setSession p { x with step := 0, fails := 0, tr := [] }).setLport p { s.lport p with rxCount := [] }
  (((s1.setOv O.link_sec_state 2 0 p).setOv O.link_state 3 p).rerouteAll).sendAllQueries

end Sys2Proof.Machine
end

