-- ==== Sys2Proof/Machine/Security.lean ====
section
/-! DEFINITION. Sys2Proof/Machine/Security.lean: lifecycle (R438-R440), anti-rollback (R446), the Daymark of a tenant (R448),
attestation (R451, R452), debug (R475-R478) and IDE keys (R468, R470). Signatures and keys are the key store's and never shown
(R434): a key is a number of its own, and what a check finds is an operand of the command that makes it. -/

namespace Sys2Proof.Machine

open Sys2Proof

/-! ### Lifecycle (R438-R440) -/

/-- Every context is FREE. -/
def State.allFree (s : State) : Bool := s.ctxs.all (fun p => p.2.st == .free)

/-- The units R24 asks for are LIT. -/
def State.unitsReady (s : State) : Bool :=
  (List.range 32).all (s.lit 0) && (List.range 64).any (s.lit 1) && (List.range 16).any (s.lit 2)

/-- No INVASIVE unlock and no boundary intrusion since power-on reset (R438, R478). -/
def State.debugClean (s : State) : Bool := !s.sec.invasive && !s.sec.intruded

/-- The checks of entering SERVICE, in order: 0, or the result of the first that fails (Table 3). -/
def State.serviceCheck (s : State) : Nat :=
  if !s.unitsReady then 2
  else if !(s.ov O.trim_state).testBit 0 then 3
  else if !s.debugClean then 4
  else if !s.allFree then 5
  else 0

def State.lcResult (s : State) (r : Nat) : State := s.setOv O.lc_result r

/-- ENTER_SERVICE (R438). -/
def State.enterService (s : State) : State :=
  if s.ov O.lc_state ≠ 1 then s.lcResult 1
  else if s.serviceCheck = 0 then (s.setOv O.lc_state 2).lcResult 0
  else s.lcResult s.serviceCheck

/-- ENTER_MAINTENANCE (R438). -/
def State.enterMaintenance (s : State) : State :=
  if s.ov O.lc_state ≠ 2 then s.lcResult 1
  else if s.allFree then (s.setOv O.lc_state 1).lcResult 0
  else s.lcResult 5

/-- The sealed set keys can no longer be opened (R440). -/
def State.loseSetKeys (s : State) : State :=
  { s with sec := { s.sec with sets := s.sec.sets.map (fun p => (p.1, { p.2 with key := 0 })) } }

/-- DECOMMISSION (R438, R440). -/
def State.decommission (s : State) : State :=
  if s.ov O.lc_state ≠ 1 then s.lcResult 1
  else if s.ov O.lc_confirm ≠ 0xDEC00001 then s.lcResult 6
  else (s.loseSetKeys.setOv O.lc_state 3).lcResult 0

/-- `arb_commit`: refused unless the running image's `arb` is greater than F (R446). -/
def State.arbCommit (s : State) : Bool × State :=
  if s.ov O.arb_fused < s.sec.arb then (true, s.setOv O.arb_fused (min s.sec.arb 128)) else (false, s)

/-! ### Identity -/

/-- The identity digest, fused (R441). -/
def idDigest : Bytes := natLe 32 (Config.fused 1)

/-- The signed bytes of a Keeper certificate (Table 4): kind, algorithms of the key and of the issuer, boot number, digests of issuer and device,
and the public key. -/
def certBody (kind keyAlg sigAlg boot : Nat) (issuer device pubkey : Bytes) : Bytes :=
  natLe 1 1 ++ natLe 1 kind ++ natLe 1 keyAlg ++ natLe 1 sigAlg ++ zeros 4 ++ natLe 8 boot ++ issuer ++ device ++ pubkey

/-- The identity certificate in flash, issued by Grenvy (R443); its signature algorithm is the one that gives the object's length. -/
def idCert : Bytes :=
  certBody 1 1 1 0 (natLe 32 (Config.fused 6)) idDigest (natLe 64 (Config.fused 7)) ++ natLe 29792 (Config.fused 2)

/-- The bytes of the per-boot certificate under its signature: it names the boot, and the identity key issues it (R442). -/
def State.akBody (s : State) : Bytes :=
  certBody 2 2 1 (s.ov O.boot_count) idDigest idDigest (natLe 64 (Config.digest 7 s.sec.bootKey []))

/-- The per-boot certificate (R442). -/
def State.akCert (s : State) : Bytes := s.akBody ++ natLe 29792 (Config.digest 6 (Config.fused 7) s.akBody)

/-- A signature of `n` bytes with the per-boot key. -/
def State.sign (s : State) (n : Nat) (m : Bytes) : Bytes := natLe n (Config.digest 5 s.sec.bootKey m)

/-- SHA-256. -/
def sha (m : Bytes) : Bytes := natLe 32 (Config.digest 1 0 m)

/-! ### The Daymark of a tenant (R448) -/

/-- A write of `dm_extend` of a context that exists. -/
def State.dmExtend (s : State) (c : Nat) (bs : Bytes) : State :=
  if c < 1024 ∧ (s.ctx c).st ≠ .free then s.daymark c 5 (fitTo 32 bs) else s

/-! ### Attestation (R451, R452) -/

/-- The set slots that hold a formed set. -/
def State.heldSets (s : State) : List Nat := (s.sec.sets.filter (fun p => p.2.st == 2)).map (·.1)

/-- The digest over the records of the sets held; zero if none (Table 10). -/
def State.setsDigest (s : State) : Bytes :=
  if s.heldSets = [] then zeros 32 else sha (s.heldSets.flatMap (fun i => sha (fitTo 1712 (s.oct O.set_record i))))

/-- The flags of a report. -/
def State.reportFlags (s : State) (c : Option Nat) : Nat :=
  b2n ((s.ov O.trim_state).testBit 0) + (match c with
    | some n => 2 * b2n (s.ob O.enclave n) + 4 * b2n (s.ob O.dm_overflow n) + 8 * b2n ((s.ctx n).st == .active)
    | none => 0)

/-- Bytes 0 to 255 of a report (Table 10). -/
def State.reportBody (s : State) (c : Option Nat) (nonce : Bytes) : Bytes :=
  let x := s.ctx (c.getD 0)
  natLe 1 1 ++ natLe 1 (b2n c.isSome) ++ natLe 2 (c.getD 0) ++ natLe 2 (s.ov O.node_number) ++ natLe 1 (s.ov O.lc_state)
    ++ natLe 1 (s.ov O.dbg_state) ++ natLe 8 (s.ov O.boot_count) ++ natLe 8 s.ltc ++ natLe 4 (s.ov O.fw_version)
    ++ natLe 1 (s.ov O.arb_fused) ++ natLe 1 (s.ov O.fw_image) ++ natLe 1 (s.reportFlags c)
    ++ natLe 1 (if c.isSome then x.active else 0) ++ fitTo 32 nonce ++ fitTo 32 (s.oct O.boot_meas) ++ idDigest
    ++ (if c.isSome then fitTo 32 x.dm else zeros 32) ++ natLe 4 (if c.isSome then x.dmCount else 0)
    ++ natLe 1 s.heldSets.length ++ zeros 3 ++ s.setsDigest ++ zeros 56

/-- A signed report. -/
def State.report (s : State) (c : Option Nat) (nonce : Bytes) : Bytes :=
  s.reportBody c nonce ++ s.sign 49856 (s.reportBody c nonce)

/-- The result of a report: of the device (0xFFFF) or of a context. -/
def State.attResult (s : State) (c r : Nat) : State :=
  if c = noCtx then s.setOv O.att_result r else if c < 1024 then s.setOv O.ctx_att_result r c else s

/-- A report is asked for; one is built at a time and eight wait (R451, R452). -/
def State.attest (s : State) (c : Nat) : State :=
  let nonce := if c = noCtx then s.oct O.att_nonce else s.oct O.ctx_att_nonce c
  if s.ov O.lc_state = 3 ∨ (c ≠ noCtx ∧ (1024 ≤ c ∨ (s.ctx c).st = .free)) then s.attResult c 1
  else if 9 ≤ s.sec.att.length then s.attResult c 2
  else { s with sec := { s.sec with att := s.sec.att ++ [(c, nonce)] } }

/-- The report being built is signed, and the next request starts (R451). -/
def State.reportReady (s : State) : State :=
  match s.sec.att with
  | [] => s
  | (c, nonce) :: rest =>
    let s1 : State := { s with sec := { s.sec with att := rest } }
    if c = noCtx then (s1.setOct O.att_report (s1.report none nonce)).attResult c 0
    else if (s1.ctx c).st = .free then s1.attResult c 1
    else (s1.setOct O.ctx_att_report (s1.report (some c) nonce) c).attResult c 0

/-! ### Debug (R475-R478) -/

/-- A read of `dbg_nonce` issues a new nonce (R476). -/
def State.dbgNonceRead (s : State) : Bytes × State :=
  let q := s.freeBytes 16
  (q.1, { q.2 with sec := { q.2.sec with nonce := some (q.1, q.2.ltc) } })

/-- The nonce expires 10 minutes after it was issued (R476). -/
def State.dbgNonceExpire (s : State) : State := { s with sec := { s.sec with nonce := none } }

def State.dbgResult (s : State) (r : Nat) : State := s.setOv O.dbg_result r

/-- A debug token is checked, and its scope opened (R475-R477). -/
def State.dbgToken (s : State) (tok : Bytes) (k : Vouch) : State :=
  match s.sec.nonce with
  | none => s.dbgResult 3
  | some (n, _) =>
    let scope := leNat (slice 1 1 tok)
    if slice 0 1 tok ≠ [1] ∨ (scope ≠ 1 ∧ scope ≠ 2) ∨ tok.length ≠ 29856 ∨ slice 8 32 tok ≠ idDigest ∨ slice 40 16 tok ≠ n
        ∨ !k.sig then s.dbgResult 1
    else if s.ov O.lc_state = 3 ∨ (scope = 2 ∧ s.ov O.lc_state ≠ 1) then s.dbgResult 2
    else
      let s1 : State := { s with sec := { s.sec with nonce := none, invasive := s.sec.invasive || scope == 2 } }
      (s1.setOv O.dbg_state (max (s1.ov O.dbg_state) scope)).dbgResult 0

/-- Every key of class C of every context is destroyed. -/
def State.dropAllKeys (s : State) : State :=
  { s with
    ctxs := s.ctxs.map (fun p => (p.1, { p.2 with keys := (0, 0), hostKey := 0 }))
    grantKey := 0
    sec := { s.sec with bootKey := 0, journalKey := 0 } }

/-- EXTEST, CLAMP or HIGHZ is selected: outside MAINTENANCE every class C key is destroyed first (R478). -/
def State.extest (s : State) : State :=
  if s.ov O.lc_state = 1 then s
  else
    let s1 := s.dropAllKeys
    { s1.setOv O.dbg_state 3 with sec := { s1.sec with intruded := true } }

/-! ### PCI Express IDE (R468, R470) -/

/-- The keyed streams of a port as a count. -/
def countBits (m : Nat) : Nat := ((List.range 4).filter (fun i => m.testBit i)).length

/-- The streams of a port change. -/
def State.setIde (s : State) (port m : Nat) : State :=
  { s with sec := { s.sec with ide := Tab.put 0 s.sec.ide port m } }.setOv O.ide_streams (countBits m) 0 port

/-- An IDE_KM request on PF0 of a port is answered: key and go (`go`), or stop, for one of four selective streams; it is honoured
only in a session authenticated with the per-boot key. -/
def State.ideKm (s : State) (port stream : Nat) (go auth : Bool) : State :=
  if 2 ≤ port then s
  else if !auth ∨ s.sec.bootKey = 0 ∨ 4 ≤ stream then s.emit (.ideKm port false)
  else
    let m := Tab.get 0 s.sec.ide port
    (s.setIde port (if go then setBit m stream else clrBit m stream)).emit (.ideKm port true)

end Sys2Proof.Machine
end

