-- ==== Sys2Proof/Machine/Sessions.lean ====
section
/-! DEFINITION. Sys2Proof/Machine/Sessions.lean: handshake segments (R465), link sessions and their rekey (R457-R467), and device
sets (R471, R472). -/

namespace Sys2Proof.Machine

open Sys2Proof

/-! ### Segments (R465) -/

/-- A segment header (Table 18). -/
def packSeg (msg seg nseg len src dst : Nat) : Nat :=
  0x2C * 2 ^ 250 + msg % 32 * 2 ^ 245 + seg % 32768 * 2 ^ 230 + nseg % 32768 * 2 ^ 215 + len % 512 * 2 ^ 206
    + src % 4096 * 2 ^ 194 + dst % 4096 * 2 ^ 182

/-- A body cut into segments. -/
def segments (msg src dst : Nat) (body : Bytes) : List Msg :=
  let n := ceilDiv body.length 256
  (List.range n).map (fun i =>
    let part := (body.drop (256 * i)).take 256
    { chan := 4, hdr := packSeg msg i n part.length src dst, slots := toSlots part })

/-- A handshake message is sent by a port. -/
def State.sendHs (s : State) (port msg src dst : Nat) (body : Bytes) : State :=
  (segments msg src dst body).foldl (fun t m => t.send port m) s

/-- A segment joins its message, kept by kind and source node: the whole body when it was the last, or a broken message (R465). -/
def State.joinSeg (s : State) (port msg src seg nseg len : Nat) (slots : List Slot) : Option (Option Bytes) × State :=
  let x := s.session port
  let key := msg + 32 * src
  let a := Tab.get ⟨nseg, 0, []⟩ x.asm key
  let ok := decide (1 ≤ nseg ∧ nseg ≤ 4096 ∧ seg < nseg ∧ a.nseg = nseg ∧ a.next = seg ∧ 1 ≤ len ∧ len ≤ 256
    ∧ slots.length = ceilDiv len 32 ∧ (seg + 1 = nseg ∨ len = 256))
  let drop := s.setSession port { x with asm := Tab.del key x.asm }
  if !ok then (some none, drop)
  else
    let body := a.body ++ (slotBytes slots).take len
    if seg + 1 = nseg then (some (some body), drop)
    else (none, s.setSession port { x with asm := Tab.ins key ⟨nseg, seg + 1, body⟩ x.asm })

/-! ### The session handshake (R458-R460, R466) -/

/-- The session's secrets: keys of both directions, salts and confirmations, new and unlike any other (R460). -/
def State.deriveKeys (s : State) (port : Nat) (init : Bool) : State :=
  let a := s.newKey
  let b := a.2.newKey
  let c := b.2.freeBelow (2 ^ 32)
  let d := c.2.freeBelow (2 ^ 32)
  let e := d.2.freeBelow (2 ^ 256)
  let f := e.2.freeBelow (2 ^ 256)
  let x := f.2.session port
  f.2.setSession port { x with
    txKey := if init then a.1 else b.1, rxKey := if init then b.1 else a.1, oldKey := 0,
    txSalt := if init then c.1 else d.1, rxSalt := if init then d.1 else c.1, confI := e.1, confR := f.1,
    txPhase := false, rxPhase := false, prot := false, nextTx := none, lanes := [] }

/-- The node sends LS_HELLO once its link has trained (R458). -/
def State.lsBegin (s : State) (p : Nat) : State :=
  let n := s.freeBytes 32
  let k := n.2.freeBytes 1568
  let certs := idCert ++ k.2.akCert
  let body := [1, 0, 0, 0] ++ n.1 ++ k.1 ++ natLe 4 certs.length ++ certs
  let x := k.2.session p
  ((k.2.setSession p { x with init := true, step := 1, tr := body, asm := [] }).setOv O.link_sec_state 1 0 p).sendHs p 1 0 0 body

/-- The node refuses a handshake: LS_ABORT with a reason, and the handshake has failed (R463, R465). -/
def State.lsRefuse (s : State) (p reason : Nat) : State := (s.emit (.abort p reason)).sessFail p

/-- Remember the partner (Table 15). -/
def State.setPartner (s : State) (p kind agt : Nat) (pubkey : Bytes) : State :=
  s.setOct O.link_partner (natLe 1 kind ++ [0] ++ natLe 2 agt ++ sha pubkey) 0 p

/-- Whether this side gives way to a hello: it has sent none, or the partner's identity digest is lower (R458). -/
def givesWay (x : Sess) (partner : Bytes) : Bool := x.step == 0 || (x.step == 1 && decide (leNat partner < leNat idDigest))

/-- LS_HELLO arrives from a node: checked, and answered with LS_REPLY (R458-R460). -/
def State.lsHello (s : State) (p : Nat) (body : Bytes) (k : Vouch) : State :=
  let x := s.session p
  let certLen := leNat (slice 1604 4 body)
  let ident := slice 1608 144 body
  if s.ov O.link_state p ≠ 2 ∨ !givesWay x (slice 48 32 ident) then s
  else if slice 0 1 body ≠ [1] ∨ body.length ≠ 1608 + certLen then s.lsRefuse p 5
  else if !k.chain then s.lsRefuse p 1
  else if !k.sig then s.lsRefuse p 2
  else if slice 1 1 ident ≠ [1] then s.lsRefuse p 4
  else
    let n := s.freeBytes 32
    let c := n.2.freeBytes 1568
    let certs := c.2.akCert ++ idCert
    let part := [1, 2, 0, 0] ++ n.1 ++ c.1 ++ natLe 4 certs.length ++ certs
    let reply := part ++ c.2.sign 49856 (sha body ++ part)
    let s1 := (c.2.setSession p { c.2.session p with init := false, step := 2, tr := body ++ reply, asm := [] }).deriveKeys p false
    ((s1.setOv O.link_sec_state 1 0 p).setPartner p 1 0 (slice 80 64 ident)).sendHs p 2 0 0 reply

/-- The leaf kind of a chain: a per-boot certificate stands for the identity certificate that follows it. -/
def leafKind (certs : Bytes) : Nat :=
  let a := leNat (slice 1 1 certs)
  if a = 2 then leNat (slice (144 + (if leNat (slice 3 1 certs) = 1 then 29792 else 49856) + 1) 1 certs) else a

/-- LS_REPLY arrives: checked, keys installed, and answered with LS_FINISH (R458-R460). -/
def State.lsReply (s : State) (p : Nat) (body : Bytes) (k : Vouch) : State :=
  let x := s.session p
  let ncert := leNat (slice 1 1 body)
  let certLen := leNat (slice 1604 4 body)
  let certs := slice 1608 certLen body
  let sigLen := if leNat (slice 2 1 certs) = 1 then 29792 else 49856
  if s.ov O.link_state p ≠ 2 ∨ x.step ≠ 1 then s
  else if slice 0 1 body ≠ [1] ∨ ncert < 1 ∨ 4 < ncert ∨ body.length ≠ 1608 + certLen + sigLen then s.lsRefuse p 5
  else if !k.chain then s.lsRefuse p 1
  else if !k.sig then s.lsRefuse p 2
  else if leafKind certs ≠ 1 ∧ leafKind certs ≠ 0x10 ∧ leafKind certs ≠ 0x11 then s.lsRefuse p 4
  else
    let s1 := s.deriveKeys p true
    let y := s1.session p
    let tr := x.tr ++ body
    let fin := [1, 0, 0, 0] ++ natLe 32 y.confI ++ s1.sign 49856 (sha tr)
    let s2 := s1.setSession p { y with step := 3, tr := tr ++ fin }
    (s2.setPartner p (leafKind certs) (leNat (slice 4 2 certs)) (slice 80 64 certs)).sendHs p 3 0 0 fin

/-- LS_FINISH arrives at the responder: confirmed, LS_DONE is sent and the session is up (R458). -/
def State.lsFinish (s : State) (p : Nat) (body : Bytes) (k : Vouch) : State :=
  let x := s.session p
  if s.ov O.link_state p ≠ 2 ∨ x.step ≠ 2 then s
  else if slice 0 1 body ≠ [1] ∨ body.length ≠ 49892 then s.lsRefuse p 5
  else if !k.sig then s.lsRefuse p 2
  else if !k.conf then s.lsRefuse p 3
  else (s.sendHs p 4 0 0 ([1, 0, 0, 0] ++ natLe 32 x.confR)).sessionUp p

/-- LS_DONE arrives at the initiator: the session is up (R458). -/
def State.lsDone (s : State) (p : Nat) (body : Bytes) (k : Vouch) : State :=
  let x := s.session p
  if s.ov O.link_state p ≠ 2 ∨ x.step ≠ 3 then s
  else if slice 0 1 body ≠ [1] ∨ body.length ≠ 36 then s.lsRefuse p 5
  else if !k.conf then s.lsRefuse p 3
  else s.sessionUp p

/-- LS_ABORT arrives: the handshake has failed (R463). -/
def State.lsAbort (s : State) (p : Nat) : State :=
  if s.ov O.link_state p ≠ 2 ∨ (s.session p).step = 0 then s else s.sessFail p

/-! ### Rekey (R461, R462) -/

/-- A rekey falls due: the initiator sends LK_OFFER. -/
def State.rekeyDue (s : State) (p : Nat) : State :=
  let x := s.session p
  if s.ov O.link_sec_state 0 p ≠ 2 ∨ !x.init then s
  else
    let k := s.freeBytes 1568
    let body := [1, BitVec.ofNat 8 (b2n !x.txPhase), 0, 0] ++ k.1
    ((k.2.setSession p { x with offer := body }).setOv O.link_sec_state 3 0 p).sendHs p 6 0 0 body

/-- The transmit key that waits comes into force, with its lane counts at 0 (R461, R520). -/
def State.switchTx (s : State) (p : Nat) : State :=
  let x := s.session p
  match x.nextTx with
  | none => s
  | some (k, salt) =>
    (s.setSession p { x with txKey := k, txSalt := salt, txPhase := !x.txPhase, nextTx := none }).setLport p { s.lport p with txCount := [] }

/-- New keys come into force: the old receive key is kept beside the new one, and this direction switches with its next flit, the responder's
after the one that ends LK_ACCEPT (R461). -/
def State.switchKeys (s : State) (p : Nat) : State :=
  let a := s.newKey
  let b := a.2.newKey
  let c := b.2.freeBelow (2 ^ 32)
  let d := c.2.freeBelow (2 ^ 32)
  let x := d.2.session p
  let s1 := d.2.setSession p { x with
    rxKey := if x.init then b.1 else a.1, oldKey := x.rxKey, rxSalt := if x.init then d.1 else c.1, rxPhase := !x.rxPhase, offer := []
    nextTx := some (if x.init then (a.1, c.1) else (b.1, d.1)), lanes := [] }
  let s2 := if x.init then s1.switchTx p else s1
  (s2.bump O.link_rekeys 0 p).setOv O.link_sec_state 2 0 p

/-- LK_OFFER arrives at the responder and is answered. -/
def State.lkOffer (s : State) (p : Nat) (body : Bytes) : State :=
  let x := s.session p
  if s.ov O.link_sec_state 0 p ≠ 2 ∨ x.init then s
  else if slice 0 1 body ≠ [1] ∨ body.length ≠ 1572 then s.lsRefuse p 5
  else
    let k := s.freeBytes 1568
    (k.2.sendHs p 7 0 0 ([1, BitVec.ofNat 8 (b2n !x.txPhase), 0, 0] ++ k.1)).switchKeys p

/-- LK_ACCEPT arrives at the initiator. -/
def State.lkAccept (s : State) (p : Nat) (body : Bytes) : State :=
  let x := s.session p
  if s.ov O.link_sec_state 0 p ≠ 3 ∨ !x.init ∨ x.offer = [] then s
  else if slice 0 1 body ≠ [1] ∨ body.length ≠ 1572 then s.lsRefuse p 5
  else s.switchKeys p

/-- 1 ms after the first flit of the new phase the old receive key is dropped. -/
def State.oldKeyExpire (s : State) (p : Nat) : State := s.setSession p { s.session p with oldKey := 0 }

/-- The count at which a direction must stop (R462). -/
def laneLimit : Nat := 2 ^ 40 + 2 ^ 32

/-- A lane count has reached its limit without a new key: the link goes down (R462). -/
def State.laneCountLimit (s : State) (p : Nat) : State :=
  let x := s.lport p
  if x.txCount.any (fun c => decide (laneLimit ≤ c.2)) || x.rxCount.any (fun c => decide (laneLimit ≤ c.2)) then s.linkDown p else s

/-! ### Device sets (R471, R472) -/

def DevSet.dflt : DevSet := ⟨0, 0, [], 0, [], 0⟩

def State.devSet (s : State) (i : Nat) : DevSet := Tab.get DevSet.dflt s.sec.sets i

/-- A set slot changes; `set_state` shows it. -/
def State.setDevSet (s : State) (i : Nat) (x : DevSet) : State :=
  { s with sec := { s.sec with sets := Tab.put DevSet.dflt s.sec.sets i x } }.setOv O.set_state
    (match x.st with
      | 0 => 0
      | 2 => 2
      | _ => 1) i

/-- The nodes a member list names (Table 15). -/
def memberNodes (bs : Bytes) : List Nat :=
  (List.range 64).filterMap (fun i =>
    let w := leNat (slice (2 * i) 2 bs)
    if w.testBit 15 then some (w % 4096) else none)

/-- The port by which a node's messages go (R313). -/
def State.nodePort (s : State) : Option Nat := (s.blkPorts.filter s.portUp).head?

/-- The port of an exchange with a node: the one it began on while that is up (R465). -/
def State.joinPort (s : State) (node : Nat) : Option Nat :=
  match s.sec.sets.find? (fun p => p.2.st != 2 && (p.2.founder == node || p.2.mems.any (fun m => m.node == node))) with
  | some (_, x) => if x.port < 24 ∧ s.portUp x.port then some x.port else s.nodePort
  | none => s.nodePort

/-- A handshake message to another node. -/
def State.sendJoin (s : State) (msg dst : Nat) (body : Bytes) : State :=
  match s.joinPort dst with
  | some p => s.sendHs p msg (s.ov O.node_number) dst body
  | none => s

/-- A formation has failed: nothing is kept, and the first member that failed is shown (R471). -/
def State.formFail (s : State) (i result node : Nat) : State :=
  (((s.setDevSet i DevSet.dflt).setOct O.set_record [] i).setOv O.set_result result i).setOv O.set_failed_node node i

/-- The set is formed: its key is sealed here (R472). -/
def State.formDone (s : State) (i : Nat) : State :=
  (s.setDevSet i { s.devSet i with st := 2, mems := [] }).setOv O.set_result 0 i

/-- SET_FORM on a founding node (R471). -/
def State.setForm (s : State) (i : Nat) : State :=
  let me := s.ov O.node_number
  let list := fitTo 128 (s.oct O.set_members i)
  let ns := memberNodes list
  if 16 ≤ i ∨ (s.devSet i).st ≠ 0 then s.setOv O.set_result 1 i
  else if me = 0xFFF ∨ !ns.contains me then s.setOv O.set_result 2 i
  else
    let k := s.newKey
    let e := k.2.freeBytes 1568
    let n := e.2.freeBytes 32
    let others := (ns.filter (· != me)).eraseDups
    let s1 := n.2.setOct O.set_record (fitTo 16 (s.oct O.set_id i) ++ list ++ e.1) i
    let s2 := s1.setDevSet i ⟨1, k.1, others.map (fun m => ⟨m, 0, []⟩), me, n.1, s1.nodePort.getD 24⟩
    if others = [] then s2.formDone i
    else if s2.nodePort = none then s2.formFail i 4 (others.headD 0)
    else
      let certs := idCert ++ s2.akCert
      let body := [1] ++ natLe 1 ns.length ++ natLe 2 me ++ fitTo 16 (s.oct O.set_id i) ++ list ++ n.1
        ++ natLe 4 certs.length ++ certs
      others.foldl (fun t m => t.sendJoin 8 m body) s2

/-- SET_DESTROY: the node's sealed copy goes (R472). -/
def State.setDestroy (s : State) (i : Nat) : State :=
  if 16 ≤ i ∨ (s.devSet i).st ≠ 2 then s.setOv O.set_result 1 i
  else ((s.setDevSet i DevSet.dflt).setOct O.set_record [] i).setOv O.set_result 0 i

/-- A report over a nonce shows SERVICE, no debug, and this node's own measurement (R471). -/
def State.goodReport (s : State) (nonce r : Bytes) : Bool :=
  slice 6 1 r == [2] && slice 7 1 r == [0] && slice 64 32 r == fitTo 32 (s.oct O.boot_meas) && slice 32 32 r == fitTo 32 nonce

/-- JOIN_REQ arrives at a member: answered with JOIN_ACK (R471, R467). -/
def State.joinReq (s : State) (src : Nat) (body : Bytes) (k : Vouch) : State :=
  let me := s.ov O.node_number
  let slot := ((List.range 16).find? (fun i => (s.devSet i).st == 3 && (s.devSet i).founder == src)).or
    ((List.range 16).find? (fun i => (s.devSet i).st == 0))
  let good := k.chain && k.sig && slice 0 1 body == [1] && (memberNodes (slice 20 128 body)).contains me
    && body.length == 184 + leNat (slice 180 4 body) && leNat (slice 2 2 body) == src
  match slot with
  | some i =>
    if good then
      let n := s.freeBytes 32
      let e := n.2.freeBytes 1568
      let s1 := e.2.setDevSet i ⟨3, 0, [], src, n.1, e.2.nodePort.getD 24⟩
      let certs := idCert ++ s1.akCert
      s1.sendJoin 9 src ([1, 0] ++ natLe 2 me ++ n.1 ++ e.1 ++ s1.report none (slice 148 32 body) ++ natLe 4 certs.length ++ certs)
    else s.sendJoin 9 src ([1, 1] ++ natLe 2 me ++ zeros 51716)
  | none => s.sendJoin 9 src ([1, 1] ++ natLe 2 me ++ zeros 51716)

/-- The set this node is forming that waits for a member at a stage. -/
def State.formingWith (s : State) (node st : Nat) : Option (Nat × DevSet) :=
  s.sec.sets.find? (fun p => p.2.st == 1 && p.2.mems.any (fun m => m.node == node && m.st == st))

/-- A member of a set being formed moves to a stage, with the nonce it has named. -/
def DevSet.advance (x : DevSet) (node st : Nat) (nonce : Bytes) : DevSet :=
  { x with mems := x.mems.map (fun m => if m.node = node then { m with st := st, nonce := nonce } else m) }

/-- JOIN_ACK arrives at the founder: answered with JOIN_KEY, or the formation fails (R471). -/
def State.joinAck (s : State) (src : Nat) (body : Bytes) (k : Vouch) : State :=
  match s.formingWith src 0 with
  | none => s
  | some (i, x) =>
    if slice 0 1 body ≠ [1] ∨ slice 1 1 body ≠ [0] ∨ leNat (slice 2 2 body) ≠ src ∨ body.length ≠ 51720 + leNat (slice 51716 4 body)
        ∨ !k.chain ∨ !k.sig ∨ !s.goodReport x.nonce (slice 1604 256 body) then s.formFail i 3 src
    else
      let c := s.freeBytes 1568
      let e := c.2.freeBytes 3184
      let s1 := e.2.setDevSet i (x.advance src 1 (slice 4 32 body))
      s1.sendJoin 10 src ([1, 0, 0, 0] ++ c.1 ++ s1.report none (slice 4 32 body) ++ fitTo 1712 (s1.oct O.set_record i) ++ e.1)

/-- JOIN_KEY arrives at a member: the set's key is sealed, or the member refuses (R471, R472). -/
def State.joinKey (s : State) (src : Nat) (body : Bytes) (k : Vouch) : State :=
  let me := s.ov O.node_number
  match s.sec.sets.find? (fun p => p.2.st == 3 && p.2.founder == src) with
  | none => s
  | some (i, x) =>
    let rec_ := slice 51684 1712 body
    if slice 0 1 body ≠ [1] ∨ body.length ≠ 56580 ∨ !k.sig ∨ !k.opens ∨ !s.goodReport x.nonce (slice 1572 256 body)
        ∨ s.ov O.lc_state ≠ 2 then
      (s.setDevSet i DevSet.dflt).sendJoin 11 src ([1, 1] ++ natLe 2 me ++ zeros 32)
    else
      let q := s.newKey
      let s1 := (q.2.setOct O.set_record rec_ i).setDevSet i { x with st := 2, key := q.1 }
      ((s1.setOct O.set_id (slice 0 16 rec_) i).setOct O.set_members (slice 16 128 rec_) i).sendJoin 11 src
        ([1, 0] ++ natLe 2 me ++ sha rec_)

/-- JOIN_DONE arrives at the founder: the last one forms the set (R471). -/
def State.joinDone (s : State) (src : Nat) (body : Bytes) : State :=
  match s.formingWith src 1 with
  | none => s
  | some (i, x) =>
    if slice 0 1 body ≠ [1] ∨ slice 1 1 body ≠ [0] ∨ leNat (slice 2 2 body) ≠ src ∨ body.length ≠ 36
        ∨ slice 4 32 body ≠ sha (fitTo 1712 (s.oct O.set_record i)) then s.formFail i 3 src
    else
      let y := x.advance src 2 []
      if y.mems.all (fun m => m.st == 2) then (s.setDevSet i y).formDone i else s.setDevSet i y

/-- A member does not answer within `remote_timeout` (R471). -/
def State.joinTimeout (s : State) (node : Nat) : State :=
  match s.sec.sets.find? (fun p => p.2.st == 1 && p.2.mems.any (fun m => m.node == node && m.st != 2)) with
  | none => s
  | some (i, _) => s.formFail i 4 node

/-! ### Segments as they arrive -/

/-- A joined message acts as its kind says. -/
def State.hsMessage (s : State) (port msg src : Nat) (body : Bytes) (k : Vouch) : State :=
  match msg with
  | 1 => s.lsHello port body k
  | 2 => s.lsReply port body k
  | 3 => s.lsFinish port body k
  | 4 => s.lsDone port body k
  | 5 => s.lsAbort port
  | 6 => s.lkOffer port body
  | 7 => s.lkAccept port body
  | 8 => s.joinReq src body k
  | 9 => s.joinAck src body k
  | 10 => s.joinKey src body k
  | 11 => s.joinDone src body
  | _ => s

/-- A message whose segments break its rules: a link handshake fails, a member counts as refusing (R465). -/
def State.hsBroken (s : State) (port msg src : Nat) : State :=
  if msg ≤ 7 then s.lsRefuse port 5
  else if msg = 9 then s.joinAck src [1, 1] ⟨false, false, false, false⟩
  else if msg = 11 then s.joinDone src [1, 1]
  else if msg = 8 then s.sendJoin 9 src ([1, 1] ++ natLe 2 (s.ov O.node_number) ++ zeros 51716)
  else s.joinKey src [] ⟨false, false, false, false⟩

/-- A handshake segment arrives (R465); a JOIN segment for another node's number is dropped. -/
def State.segArrive (s : State) (port hdr : Nat) (slots : List Slot) (k : Vouch) : State :=
  let msg := bits hdr 245 5
  let src := bits hdr 194 12
  if msg = 0 ∨ 11 < msg then s.bump O.chan_errors port
  else if 8 ≤ msg ∧ bits hdr 182 12 ≠ s.ov O.node_number then s
  else
    match s.joinSeg port msg src (bits hdr 230 15) (bits hdr 215 15) (bits hdr 206 9) slots with
    | (none, s1) => s1
    | (some none, s1) => s1.hsBroken port msg src
    | (some (some body), s1) => s1.hsMessage port msg src body k

end Sys2Proof.Machine
end

