-- ==== Sys2Proof/Machine/Avail.lean ====
section
/-! DEFINITION. Sys2Proof/Machine/Avail.lean: units fenced, quiesced, repaired and swapped (R576-R579, R617, R618, R701), mesh routers
(R30, R31), Keepers (R580, R615), a lost PCIe port (R589), firmware in flash (R444-R447, R590, R591), and the STATUS and FAULT_N pins
(R581, R595). -/

namespace Sys2Proof.Machine

open Sys2Proof

/-! ### Fences (R576, R617, R618) -/

/-- The new requests a slice's ports hold are refused where no spare is left; EvC and WbD go on waiting (R23). -/
def State.refuseHeld (s : State) (h : Nat) : State :=
  let x := s.slc h
  let rs := s.reqs.filter (fun r => r.phase == .holding && hsOf r.ppa == h && !r.kind.evict && !x.retained.contains r.id)
  rs.foldl (fun t r => t.finish r .retry 15) s

/-- A logical slice is left without a unit (R23). -/
def State.orphan (s : State) (h : Nat) : State :=
  if s.physOf 0 h = 255 then (s.setSlc h { s.slc h with noSpare := true }).refuseHeld h else s

/-- The role of a unit that went DARK passes as after an unplanned fault (R18, R283, R292, R556). -/
def State.dropRole (s : State) (kind n p : Nat) (m : Met) : State :=
  match kind with
  | 0 => ((s.sliceLost n).giveSpare 0 n p).orphan n
  | 1 => (s.tileFailed n m).giveSpare 1 n p
  | _ => (s.engineFailed n).giveSpare 2 n p

/-- A unit goes DARK with a cause; the fence is counted and logged (R596, R702). -/
def State.goDark (s : State) (kind p cause : Nat) : State :=
  let role := (s.roleOf kind p).getD 0xFF
  let s1 := s.setUnit kind p { s.unit kind p with st := 2, cause := cause, doing := 0 }
  (s1.bump O.fences).event 0x01 2 p noCtx (unitDetail kind role cause)

/-- A unit is fenced at once: its role passes to a spare (R22, R576). -/
def State.unitFence (s : State) (kind p : Nat) (m : Met) (cause : Nat) : State :=
  if 3 ≤ kind ∨ physCount kind ≤ p ∨ (s.unit kind p).st = 2 then s
  else
    let role := s.roleOf kind p
    let isLit := (s.unit kind p).st == 0 && role.isSome
    let s1 := s.wake.goDark kind p cause
    match isLit, role with
    | true, some n => s1.dropRole kind n p m
    | _, _ => s1

/-- A critical-state error is detected in a unit in use or under repair; a SPARE detects none (R576, R579). -/
def State.criticalError (s : State) (kind p : Nat) (m : Met) : State :=
  if s.unitState kind p = 1 then s else s.unitFence kind p m 3

/-- A tile or engine has not acknowledged a shootdown within `te_ack_timeout`: it is fenced, and the withdrawal goes on (R331). -/
def State.ackMissed (s : State) (u : Nat) (m : Met) : State :=
  let kind := if u < 64 then 1 else 2
  let n := if u < 64 then u else u - 64
  let waits := s.chart.commits.any (fun k => k.acks.testBit u)
  if 80 ≤ u ∨ !waits then s
  else
    let p := s.physOf kind n
    ((if p = 255 then s else s.unitFence kind p m 4).shootdownAck u)

/-- A unit command is running. -/
def State.unitBusy (s : State) : Bool := s.units.any (fun u => u.2.doing != 0)

def State.unitResult (s : State) (r : Nat) : State := s.setOv O.unit_result r

/-- A LIT unit takes no new work while it is quiesced or swapped out (R578, R618). -/
def State.beginQuiesce (s : State) (kind p doing swapTo : Nat) : State :=
  let s1 := s.setUnit kind p { s.unit kind p with doing := doing, swapTo := swapTo, since := s.ltc }
  match kind, s1.roleOf 0 p with
  | 0, some h => s1.setSlc h { s1.slc h with hold := true }
  | _, _ => s1

/-- A slice with no spare is emptied in place: every line its directory records is recalled (R701). -/
def State.beginEmptying (s : State) (h : Nat) : State :=
  let s1 := s.setSlc h { s.slc h with quiesced := true }
  let ls := (s1.coh.dir.filter (fun d => hsLine d.1 == h && d.2.way)).map (·.1)
  ls.foldl State.recallLine s1

/-- `unit_cmd` FENCE (R577, R618). -/
def State.cmdFence (s : State) (kind p : Nat) : State :=
  if s.unitBusy then s
  else if 3 ≤ kind ∨ physCount kind ≤ p then s.unitResult 1
  else match s.unitState kind p with
    | 2 => s.unitResult 1
    | 0 =>
      let s1 := s.beginQuiesce kind p 1 0xFF
      match kind, s1.spareFor 0 p, s1.roleOf 0 p with
      | 0, none, some h => s1.beginEmptying h
      | _, _, _ => s1
    | _ => (s.goDark kind p 1).unitResult 0

/-! ### Idle units (R578, R618) -/

/-- A slice has ended its open transactions and waiters. -/
def State.sliceIdle (s : State) (h : Nat) : Bool :=
  !s.coh.dir.any (fun d => hsLine d.1 == h && (d.2.txn.isSome || d.2.waits != [] || d.2.recalls))
    && !s.reqs.any (fun r => hsOf r.ppa == h && (r.phase == .sent || r.phase == .waiting || r.phase == .served))
    && !s.coh.acc.any (fun a => hsLine a.1 == h && a.2.filling)

/-- The unit has ended its open work. -/
def State.unitIdle (s : State) (kind n : Nat) : Bool :=
  match kind with
  | 0 => s.sliceIdle n
  | 1 => (s.onTile n).isNone
  | _ => s.chunksOn n == 0

/-- A slice's merge buffer and accumulation cache are flushed. -/
def State.flushSlice (s : State) (h : Nat) : State :=
  let ls := ((s.coh.acc.filter (fun a => hsLine a.1 == h)).map (·.1)) ++ ((s.mergeLines h).map (·.1))
  s.flushLines ls

/-- Nothing is cached of a slice. -/
def State.sliceEmpty (s : State) (h : Nat) : Bool := !s.coh.dir.any (fun d => hsLine d.1 == h && d.2.way)

/-- A slice's hold ends, and held requests go to it in admission order (R578 Table 3). -/
def State.endHold (s : State) (h : Nat) : State :=
  (s.setSlc h { s.slc h with hold := false, quiesced := false }).reissue h []

/-- An idle unit's role passes to the spare `q` by Table 3: nothing is lost. -/
def State.passRole (s : State) (kind n q : Nat) : State :=
  match kind with
  | 0 => ((s.flushSlice n).takeRole 0 n q).endHold n
  | 1 => { s with ecache := Tab.put [] s.ecache n [] }.takeRole 1 n q
  | _ => { s with ecache := Tab.put [] s.ecache (engineUnit n) [] }.takeRole 2 n q

/-- A quiesced slice with no spare leaves its logical slice DARK with nothing held in it (R701). -/
def State.leaveEmpty (s : State) (h : Nat) : State :=
  let s1 := ((s.flushSlice h).setPhys 0 h (256 + s.lastPhys 0 h)).event 0x04 1 h noCtx (unitDetail 0 h 0)
  (s1.setSlc h { s1.slc h with hold := false, quiesced := true, noSpare := true }).refuseHeld h

/-- A FENCE's quiesce has ended, or its bound has passed: the unit goes DARK (Table 6 of "Resets"). -/
def State.quiesceDone (s : State) (kind p : Nat) (m : Met) : State :=
  if (s.unit kind p).doing ≠ 1 then s
  else match s.roleOf kind p with
    | none => (s.goDark kind p 1).unitResult 0
    | some n =>
      let spare := s.spareFor kind p
      if s.unitIdle kind n ∧ (kind ≠ 0 ∨ spare.isSome ∨ s.sliceEmpty n) then
        let s1 := (s.goDark kind p 1).unitResult 0
        match spare, kind with
        | some q, _ => s1.passRole kind n q
        | none, 0 => s1.leaveEmpty n
        | none, k => s1.giveSpare k n p
      else (s.unitFence kind p m 4).unitResult 0

/-! ### Repair and swap (R577, R578) -/

/-- `unit_cmd` REPAIR: only from DARK. -/
def State.cmdRepair (s : State) (kind p : Nat) : State :=
  if s.unitBusy then s
  else if 3 ≤ kind ∨ physCount kind ≤ p ∨ (s.unit kind p).st ≠ 2 then s.unitResult 1
  else (s.setUnit kind p { s.unit kind p with st := 3 }).unitResult 0

/-- A logical unit without a physical one gets the unit that has returned as a SPARE (R23, R701). -/
def State.adopt (s : State) (kind q : Nat) : State :=
  match (s.homeless kind).find? (fun n => s.physOf kind n == 255) with
  | none => s
  | some n =>
    let s1 := s.takeRole kind n q
    if kind = 0 then
      let x := s1.slc n
      let s2 := s1.setSlc n { x with noSpare := false, quiesced := false }
      if x.quiesced then s2.reissue n [] else s2
    else s1

/-- The state nibble of a Keeper: 0 LIT, 1 SPARE, 2 DARK, 3 REPAIRING (Table 10). -/
def State.keeper (s : State) (k : Nat) : Nat := s.ov O.keeper_state / 16 ^ k % 16

def State.setKeeper (s : State) (k v : Nat) : State :=
  s.setOv O.keeper_state (if k = 0 then s.keeper 1 * 16 + v else v * 16 + s.keeper 0)

/-- A unit's self-test ends: SPARE, or DARK with cause 0x05 (R577). -/
def State.unitTested (s : State) (kind p : Nat) (ok : Bool) : State :=
  if (s.unit kind p).st ≠ 3 then s
  else
    let u := s.unit kind p
    let u' : Unit := if ok then { u with st := 0, doing := 0 } else { u with st := 2, cause := 5, doing := 0 }
    let s1 := (s.setUnit kind p u').event 0x03 2 p noCtx (unitDetail kind 0xFF u'.cause)
    if ok then s1.adopt kind p else s1

/-- A repair's self-test ends: for a unit, for a Keeper (kind 3), or for a Boroc port (kind 4), which has no spare (R22). -/
def State.selftestDone (s : State) (kind p : Nat) (ok : Bool) : State :=
  if kind < 3 then (if p < physCount kind then s.unitTested kind p ok else s)
  else if kind = 3 then
    (if p < 2 ∧ s.keeper p = 3 then
      (s.setKeeper p (if ok then 1 else 2)).event 0x03 2 p noCtx (unitDetail 3 0xFF (if ok then 0 else 5))
    else s)
  else if p < 24 ∧ s.ov O.port_state p = 3 then s.setUnitSt O.port_state (if ok then 0 else 2) p
  else s

/-- `unit_cmd` SWAP: the spare named takes the role when the unit has ended its work. -/
def State.cmdSwap (s : State) (kind p dest : Nat) : State :=
  if s.unitBusy then s
  else if 3 ≤ kind ∨ physCount kind ≤ p ∨ s.unitState kind p ≠ 0 then s.unitResult 1
  else
    let q := if dest = 0xFF then s.spareFor kind p
      else if dest < physCount kind ∧ s.unitState kind dest = 1 then some dest else none
    match q with
    | none => s.unitResult 2
    | some x => s.beginQuiesce kind p 2 x

/-- The spare that takes a swapped role: the one chosen, or the next of R18 if it is a SPARE no more (R579). -/
def State.swapSpare (s : State) (kind p : Nat) : Option Nat :=
  let dest := (s.unit kind p).swapTo
  if s.unitState kind dest = 1 then some dest else s.spareFor kind p

/-- A swap ends: the spare has the role and the old unit goes REPAIRING; or the unit is not idle at its bound, and keeps the role. -/
def State.swapDone (s : State) (kind p : Nat) : State :=
  if (s.unit kind p).doing ≠ 2 then s
  else match s.roleOf kind p with
    | none => s.setUnit kind p { s.unit kind p with doing := 0 }
    | some n =>
      match s.unitIdle kind n, s.swapSpare kind p with
      | true, some q =>
        ((s.passRole kind n q).setUnit kind p { s.unit kind p with st := 3, doing := 0 }).unitResult 0
      | idle, _ =>
        let s1 := (s.setUnit kind p { s.unit kind p with doing := 0 }).unitResult (if idle then 2 else 3)
        if kind = 0 then s1.endHold n else s1

/-! ### Mesh routers (R30, R31) -/

/-- A unit attached to a router is fenced for it (R22 Table 3): a home slice, tile or tender engine (kinds 0 to 2), a Boroc port (4), a DDR5
channel pair (5), whose causes have no code for it and read 0 then, or an HBM channel (6), numbered 32 × stack + channel [DESIGN CHOICE,
log 50]. -/
def State.routerFence (s : State) (kind p : Nat) (m : Met) : State :=
  match kind with
  | 4 => if p < 24 ∧ s.ov O.port_state p ≠ 2 then s.portDark p else s
  | 5 => if p < 12 then s.pairDark p 0 else s
  | 6 => if p < 128 then s.fenceHbm (p / 32) (p % 32) else s
  | _ => if s.unitState kind p ≠ 1 then s.unitFence kind p m 6 else s

/-- A router fails: it is bypassed on its plane, and routes change once old traffic has drained (R30, R31). A unit whose routers of both
planes have failed can reach no one and is fenced (R617, Table 3) [DEDUCED, log 50]. -/
def State.routerFailed (s : State) (plane r : Nat) (att : Option (Nat × Nat)) (m : Met) : State :=
  let k := routerKey plane r
  if s.pwr.routers.contains k then s
  else
    let s1 : State := { s with pwr := { s.pwr with routers := s.pwr.routers ++ [k], routing := s.pwr.routing ++ [k] } }
    match att with
    | some (kind, p) => if s1.pwr.routers.contains (routerKey (1 - plane % 2) r) then s1.routerFence kind p m else s1
    | none => s1

/-- Requests sent on an old route of a pair whose route is to change have not all arrived (R31). -/
def State.oldRouteBusy (s : State) : Bool := s.reqs.any (fun q => q.phase == .sent && s.rerouting q.port q.ppa)

/-- A route change takes effect once every message sent on the old routes has been delivered; what waited for it at its port is sent (R31). -/
def State.routeDrained (s : State) (plane r : Nat) : State :=
  if !s.pwr.routing.contains (routerKey plane r) ∨ s.oldRouteBusy then s
  else
    let s1 : State := { s with pwr := { s.pwr with routing := s.pwr.routing.filter (· != routerKey plane r) } }
    s1.sendHeld (s1.reqs.filter (fun q => q.phase == .holding))

/-! ### Keepers (R580, R615) -/

/-- A Keeper writes its heartbeat: it disarms the watchdog's escalation (R599), and a Keeper in ROM has shown itself alive (R615). -/
def State.heartbeat (s : State) (k : Nat) : State :=
  if k < 2 ∧ s.keeper k ≠ 2 then { s with rst := { s.rst with armed := false, roms := clrBit s.rst.roms k } } else s

/-- The standby takes over; `v` is what becomes of the old Keeper. The sessions, the lease, the reports queued and the commands that run pass to it;
a command it runs again leaves the state of a single run (R580, R582), so that what `State.running` names goes on as it stands. -/
def State.keeperPass (s : State) (v : Nat) : State :=
  let a := s.ov O.keeper_active % 2
  let b := 1 - a
  let s1 := ((s.setKeeper a v).setKeeper b 0).setOv O.keeper_active b
  (s1.bump O.keeper_failovers).event 0x10 2 a noCtx 0

/-- The active Keeper fails: three heartbeats missed, or a lockstep mismatch (R580 Table 4). With no standby both are silent (R599). -/
def State.keeperFail (s : State) : State :=
  let a := s.ov O.keeper_active % 2
  if s.keeper a ≠ 0 then s
  else if s.keeper (1 - a) = 1 then s.keeperPass 2
  else s.setKeeper a 2

/-- `keeper_cmd` SWAP: refused without a standby; the old active Keeper is reset and self-tested (Table 3). -/
def State.keeperSwap (s : State) : Bool × State :=
  let a := s.ov O.keeper_active % 2
  if s.keeper a = 0 ∧ s.keeper (1 - a) = 1 then (true, s.keeperPass 3) else (false, s)

/-- `keeper_cmd` REPAIR of the DARK Keeper. -/
def State.keeperRepair (s : State) : Bool × State :=
  if s.keeper 0 = 2 then (true, s.setKeeper 0 3)
  else if s.keeper 1 = 2 then (true, s.setKeeper 1 3)
  else (false, s)

/-- A Keeper released into ROM has written no heartbeat within `wd_timeout`: it is held in reset and goes DARK (R615). -/
def State.romSilent (s : State) (k : Nat) : State :=
  if k < 2 ∧ s.rst.roms.testBit k then
    { s.setKeeper k 2 with rst := { s.rst with roms := clrBit s.rst.roms k } }
  else s

/-! ### A PCIe port is lost (R589) -/

/-- Contexts of a lost PCIe port move to the other port where its link is up. -/
def State.moveOwners (s : State) (n : Nat) : List Nat → State
  | [] => s
  | c :: t => State.moveOwners (if s.ov O.owner_port c = n then s.setOv O.owner_port (1 - n) c else s) n t

/-- The message in a mailbox, whose answer is discarded, no longer keeps it busy (R679). -/
def State.idleBox (s : State) (n : Nat) : State :=
  let d : Mbox := ⟨false, false, 0, 0, zeros 4032⟩
  { s with ll := { s.ll with boxes := Tab.put d s.ll.boxes n { Tab.get d s.ll.boxes n with busy := false } } }

/-- The link of a PCIe port goes down, and with it its keyed IDE streams (R470). -/
def State.pcieDown (s : State) (n : Nat) : State := (((s.setOv O.pcie_link 0 0 n).setIde n 0).muteWaits (32 + n)).idleBox n

/-- A function-level reset: of a VF, or of PF0 (function 0), after which the answer of the mailbox's message is discarded (R428, R679). -/
def State.functionReset (s : State) (port fn : Nat) : State :=
  if fn = 0 then ((s.bump O.pcie_flr 0 port).muteWaits (32 + port)).idleBox port else s.vfFlr port fn

/-- A PCIe port is lost: operations of its ring write no completion (R589); in P3 and on its way in and out links are taken down without a loss (R641). -/
def State.pcieLost (s : State) (n : Nat) : State :=
  if 2 ≤ n ∨ !(s.ov O.pcie_link 0 n).testBit 15 then s
  else if s.ov O.pstate = 3 then s.pcieDown n
  else
    let s0 : State := { s with tends := { s.tends with ops := s.tends.ops.map (fun o => if o.ring = n then { o with mute := true } else o) } }
    let s1 := ((s0.pcieDown n).bump O.pcie_losses 0 n).event 0x60 3 n noCtx 0
    if (s1.ov O.pcie_link 0 (1 - n)).testBit 15 then s1.moveOwners n s1.liveCtxs else s1

/-! ### Firmware (R444-R447, R590, R591) -/

def Flash.dflt : Flash := ⟨[], true, false⟩

def State.flash (s : State) (p : Nat) : Flash := Tab.get Flash.dflt s.sec.flash p

def State.setFlash (s : State) (p : Nat) (f : Flash) : State :=
  { s with sec := { s.sec with flash := Tab.put Flash.dflt s.sec.flash p f } }

/-- A block of a part; an erased one reads all ones. -/
def Flash.block (f : Flash) (i : Nat) : Bytes := Tab.get (List.replicate 4096 0xFF) f.blocks i

/-- Bytes of a part. -/
def Flash.bytes (f : Flash) (off n : Nat) : Bytes :=
  let first := off / 4096
  let count := ceilDiv (off + n) 4096 - first
  slice (off - first * 4096) n ((List.range count).flatMap (fun i => f.block (first + i)))

/-- A number in an image's header. -/
def Flash.num (f : Flash) (off n : Nat) : Nat := leNat (f.bytes off n)

/-- What an image is known by: version, `arb` and measurement (R444, R447 step 5). The image Grenvy put in is a fact of the part. -/
structure Image where
  version : Nat
  arb : Nat
  meas : Bytes
deriving DecidableEq, Repr

def State.image (s : State) (p : Nat) : Image :=
  let f := s.flash p
  if f.factory then ⟨Config.fused (16 + p) % 2 ^ 32, Config.fused (18 + p) % 129, natLe 32 (Config.fused (20 + p))⟩
  else ⟨f.num 8 4, f.num 12 1, sha (f.bytes 0 (f.num 16 4 - 29792))⟩

/-- The header of a part's image is acceptable but for its `arb` (R447 step 2). -/
def State.headerOk (s : State) (p : Nat) : Bool :=
  let f := s.flash p
  f.factory || (f.num 0 4 == 0x464E5953 && f.num 4 2 == 1 && decide (f.num 16 4 ≤ 2 ^ 24)
    && f.bytes 20 32 == natLe 32 (Config.fused 3))

/-- Steps 2 and 3 of the boot verification; `sig` says the signature and every component digest hold: 0, 2 BAD_IMAGE, 3 ROLLBACK. -/
def State.verifyImage (s : State) (p : Nat) (sig : Bool) : Nat :=
  if !s.headerOk p then 2 else if (s.image p).arb < s.ov O.arb_fused then 3 else if sig then 0 else 2

def State.fwResult (s : State) (r : Nat) : State := s.setOv O.fw_result r

/-- `fw_part` names the part that holds the running image (R590). -/
def State.fwRunning (s : State) : Bool := s.ov O.fw_part == s.ov O.fw_image && !s.rst.recovery

/-- `fw_cmd` ERASE. -/
def State.fwErase (s : State) : State :=
  if s.fwRunning then s.fwResult 1 else (s.setFlash (s.ov O.fw_part) ⟨[], false, false⟩).fwResult 0

/-- A write of `fw_block`: the offset must be a multiple of 4 KiB. -/
def State.fwBlock (s : State) (bs : Bytes) : Bool × State :=
  if s.ov O.fw_offset % 4096 ≠ 0 then (false, s)
  else if s.fwRunning then (true, s.fwResult 1)
  else
    let p := s.ov O.fw_part
    let f := s.flash p
    let blocks := Tab.put (List.replicate 4096 0xFF) f.blocks (s.ov O.fw_offset / 4096) (fitTo 4096 bs)
    (true, (s.setFlash p ⟨blocks, false, false⟩).fwResult 0)

/-- `fw_cmd` VERIFY. -/
def State.fwVerify (s : State) (sig : Bool) : State :=
  let p := s.ov O.fw_part
  let r := s.verifyImage p sig
  if r = 0 then
    ((s.setFlash p { s.flash p with verified := true }).setOv O.fw_staged_version (s.image p).version).fwResult 0
  else s.fwResult r

/-- `fw_cmd` ACTIVATE: the image is measured and preferred, and a core reset is to begin (R591, R602). -/
def State.fwActivate (s : State) : Bool × State :=
  let p := s.ov O.fw_part
  if (s.flash p).verified then
    (true, (((s.setOct O.boot_meas (s.image p).meas).setOv O.boot_pref p).event 0x71 0 0 noCtx 0).fwResult 0)
  else (false, s.fwResult 4)

/-! ### ALERT records and the status pins (R581, R595, R606, R608) -/

/-- `log_ack`: ALERT records up to a `seq` are acknowledged. -/
def State.logAck (s : State) (v : Nat) : State :=
  let s1 := s.setOv O.log_ack v
  if s.log.lastAlert ≤ v then { s1 with log := { s1.log with lastAlert := 0 } } else s1

/-- A logical unit is DARK by R23, or a stack or pair is lost. -/
def State.degraded (s : State) : Bool :=
  (List.range 3).any (fun k => (List.range (logCount k)).any (fun n => !s.lit k n))
    || (List.range 4).any (fun n => s.ov O.hbm_state n == 5)
    || (List.range 12).any (fun m => s.pairSt m == 2 && s.ov O.dcp_cause m != 1)

/-- STATUS[3:0] (Table 5). -/
def State.status (s : State) : Nat :=
  if 2 ≤ s.rst.reach then 0
  else if s.rst.reach = 1 then s.rst.heldCode
  else if s.rst.recovery then 5
  else if s.rst.stage < 4 then 1
  else if s.ov O.pstate = 3 then 7
  else match s.ov O.lc_state with
    | 2 => if s.degraded then 4 else 3
    | 3 => 6
    | _ => 2

/-- FAULT_N is asserted. -/
def State.faultN (s : State) : Bool :=
  if 2 ≤ s.rst.reach then false
  else if s.rst.reach = 1 then s.rst.heldFault
  else s.log.lastAlert != 0 || s.rst.recovery

/-- A management Ethernet port loses its link; sessions go on through the other (R575, R668). -/
def State.mgmtDown (s : State) (n : Nat) : State :=
  if 2 ≤ n then s
  else { s.event 0x13 3 n noCtx 0 with ll := { s.ll with mgmtDown := setBit s.ll.mgmtDown n } }

end Sys2Proof.Machine
end

