-- ==== Sys2Proof/Machine/Reset.lean ====
section
/-! DEFINITION. Sys2Proof/Machine/Reset.lean: reset episodes (R597-R609), trims (R610-R612), start-up (R613-R615), and the power-good inputs and
rail enables (R689, R690). A source is known by its bit of `rst_cause` (Table 3): 0 POR, 3 CORE_BOR, 4 RST_PIN, 5 DBG, 6 CLK_FAIL, 7 LOCKUP,
8 WDT_CORE, 9 WDT_SYS, 10 SW_SYS, 11 SW_CORE. -/

namespace Sys2Proof.Machine

open Sys2Proof

/-! ### What a reset of each reach keeps (R597, R643) -/

/-- The retention class of the object a table key belongs to. -/
def clsOf (key : Nat) : Cls := ((objTable.find? (fun o => o.id == key / 2 ^ 32)).map (·.cls)).getD .c

/-- The classes a reset of a reach keeps: N, and S unless it is a power-on reset. -/
def keptCls (reach : Nat) : Cls → Bool
  | .n => true
  | .s => reach == 2
  | _ => false

/-- What no reset changes though its table gives another class: what DIMMs are fitted (R366-R369), and the fence state of stacks and channels,
which flash keeps (R372). -/
def boardKey (key : Nat) : Bool :=
  [O.dimm_present.id, O.dimm_info.id, O.dcp_frames.id, O.hbm_state.id, O.hbm_fenced_ch.id, O.hbm_frames.id, O.hbm_relaid.id,
    O.hbch_state.id].contains (key / 2 ^ 32)

/-- A re-layout that a reset cut off is made again from its first frame: no extent is left to move (R364). -/
def State.relayAgain (s : State) : State :=
  (List.range 4).foldl (fun t n =>
    if 1 ≤ t.ov O.hbm_state n ∧ t.ov O.hbm_state n ≤ 3 then
      (t.setOv O.hbm_state 3 n).setOv O.hbm_relaid 0 n
    else t) s

/-- A class N write that was not yet in both flash parts comes back with its previous value (R654). -/
def State.revertNv (s : State) : List NvOld → State
  | [] => s
  | x :: t =>
    let s1 := s.revertNv t
    if x.isOct then { s1 with octs := Tab.put (zeros x.oct.length) s1.octs x.key x.oct }
    else { s1 with objs := Tab.put x.dflt s1.objs x.key x.num }

/-- The wear bins come back as flash holds them (R649). -/
def State.restoreWear (s : State) : State :=
  (List.range 32).foldl (fun t i => t.setOv O.wear_bins (s.pwr.wear.getD i 0) 0 i) s

/-- The objects of a node after a power-on or system reset. -/
def State.keptObjs (s : State) (reach : Nat) : Tab Nat :=
  Tab.keep (fun k _ => keptCls reach (clsOf k) || boardKey k || (reach == 2 && k / 2 ^ 32 == O.dimm_pwr.id)) s.objs

/-- What the fuses and flash keep: class N, the sparing table, ALERT records, sealed set keys, images (R17, R593, R597). -/
def State.keepFlash (s b : State) (reach : Nat) : State :=
  { b with
    objs := s.keptObjs reach
    octs := Tab.keep (fun k _ => keptCls reach (clsOf k) || boardKey k) s.octs
    maps := s.maps
    log := { b.log with alerts := s.log.alerts }
    sec := { b.sec with
      sets := s.sec.sets.filter (fun p => p.2.st == 2), flash := s.sec.flash }
    pwr := { b.pwr with wear := s.pwr.wear } }

/-- What a system reset keeps besides: debug logic, pool memory's stored bits, the energy bucket (R597, R643). -/
def State.keepSystem (s b : State) : State :=
  { b with
    mem := s.mem, poison := s.poison, chunkKey := s.chunkKey, dramBad := s.dramBad
    sec := { b.sec with invasive := s.sec.invasive, intruded := s.sec.intruded }
    pwr := { b.pwr with bucket := s.pwr.bucket } }

/-- Rings of the second port name it again (R528). -/
def State.ringDefaults (s : State) : State := [4, 5, 6, 7].foldl (fun t r => t.setOv O.fr_port 1 r) s

/-- A channel pair that a system reset finds out of use for the replacement of a DIMM stays DARK; any other is trained anew (R353, R366's
cases) [DEDUCED, log 109]. -/
def State.darkPairs (s k : State) : State :=
  let stays (m : Nat) : Bool :=
    s.ov O.dcp_state m % 16 != 0 && (s.ov O.dcp_state m % 16 == 3 || s.ov O.dcp_cause m == 1
      || s.ov O.dimm_present m % 4 != 3 || s.ov O.dimm_pwr m % 4 != 3)
  ((List.range 12).filter stays).foldl (fun t m => (t.setOv O.dcp_state 2 m).setOv O.dcp_cause (s.ov O.dcp_cause m) m) k

/-- A power-on (3) or system (2) reset. Random draws and key numbers go on, so that no key comes back. -/
def State.wideReset (s0 : State) (reach : Nat) : State :=
  let s := (s0.revertNv s0.ll.nv).restoreWear
  let b : State := { State.reset with
    pending := s.pending, ltc := s.ltc, freeCtr := s.freeCtr, out := s.out, nextKey := s.nextKey, rst := s.rst }
  let k := s.keepFlash b reach
  let k1 := if reach = 2 then s.darkPairs (s.keepSystem k) else k
  let k2 := k1.ringDefaults.relayAgain
  let lock := if reach = 2 then k2.setOv O.pll_lock (s.ov O.pll_lock) else k2
  lock.setOv O.lc_state (if s.ov O.lc_state = 3 then 3 else 1)

/-- The selectors of the object tables (R660). -/
def selectors : List Obj :=
  [O.ext_select, O.ext_frame_index, O.bind_select, O.agt_select, O.coh_select, O.can_select, O.arith_select, O.vscale_select,
   O.jq_select, O.rcp_select, O.tr_select, O.sweep_select, O.pm_select, O.frame_select, O.dcp_select, O.hbm_select,
   O.merge_select, O.sg_select, O.frz_select, O.set_select, O.dm_log_index, O.fr_select, O.lost_select, O.rec_select,
   O.log_index, O.alert_index]

/-- A table key of a session's own copy of a selector or of `lease_result` (R660, R661). -/
def copyOf (sess : Nat → Bool) (k : Nat) : Bool :=
  let id := k / 2 ^ 32
  let a := k / 2 ^ 8 % 2 ^ 24
  (id == O.dm_log_index.id && sess (a / 1024)) ||
    ((id == O.lease_result.id || (id != O.dm_log_index.id && (selectors.map Obj.id).contains id)) && sess a)

/-- The copies of the sessions named end with them. -/
def State.dropCopies (s : State) (sess : Nat → Bool) : State :=
  { s with objs := Tab.keep (fun k _ => !copyOf sess k) s.objs }

/-- LLP sessions end and the lease is released (R616, R662). -/
def State.endLlp (s : State) : State :=
  let s1 : State := { s.dropCopies (fun n => decide (n < 32)) with
    ll := { s.ll with sess := s.ll.sess.filter (fun x => decide (32 ≤ x.1)), hs := [] } }
  let s2 := (s1.setOv O.lease_holder 0).setOv O.llp_sessions 0
  (List.range 32).foldl (fun t i => t.setOct O.llp_session_info (zeros 16) 0 i) s2

/-- Attestation reports in preparation are discarded, and their results read BUSY (R616). -/
def State.dropReports (s : State) : State :=
  s.sec.att.foldl (fun t x => t.attResult x.1 2) { s with sec := { s.sec with att := [] } }

/-- A core reset: the Keepers, LLP sessions, the lease and what the Keepers hold of class V (R597, R616). -/
def State.coreReset (s : State) : State :=
  let s1 := s.endLlp.dropReports
  { s1.setOv O.lc_confirm 0 with sec := { s1.sec with nonce := none } }

/-! ### Episodes (R604-R609) -/

/-- The reach of a source (Table 2). -/
def reachOf (bit : Nat) : Nat :=
  if bit = 0 then 3 else if bit = 8 ∨ bit = 11 then 1 else 2

/-- Set a bit of the reset-cause register. -/
def State.cause (s : State) (bit : Nat) : State := s.setOv O.rst_cause (setBit (s.ov O.rst_cause) bit)

/-- The reach field of the register takes the reach of the present episode. -/
def State.causeReach (s : State) : State :=
  let x := s.ov O.rst_cause
  s.setOv O.rst_cause (x - bits x 18 2 * 2 ^ 18 + s.rst.reach % 4 * 2 ^ 18)

/-- A trim load in progress is aborted by an episode that begins (R611). -/
def State.abortLoad (s : State) : State :=
  if s.rst.loading then { s.cause 12 with rst := { s.rst with loading := false } } else s

/-- The episode takes a wider reach: what the reach resets is reset (R604). -/
def State.widen (s : State) (reach : Nat) : State :=
  let first := s.rst.reach == 0
  let s1 := if first then s.abortLoad.bump O.episodes else s
  let r := s1.rst
  let s2 : State := { s1 with rst := { r with
    reach := reach
    sample := false
    heldCode := if first then s1.status else r.heldCode
    heldFault := if first then s1.faultN else r.heldFault
    pref := if first then s1.ov O.keeper_active % 2 else r.pref } }
  if reach = 1 then { s2.coreReset with rst := { s2.rst with recovery := false } }
  else
    let s3 := s2.wideReset reach
    let s4 := if reach = 3 then (s3.setOv O.rst_cause 0).setOv O.episodes 0 else s3
    { s4 with rst := { s4.rst with
      rstDrive := true, loading := false, trimFails := 0, stage := 0, warm := false, armed := false, recovery := false,
      roms := 0, cmd := 0, thermtrip := s4.rst.thermtrip && reach != 3 } }

/-- A reset source is asserted; `level` says it stays asserted until it is released (R604, R609). -/
def State.assertSrc (s : State) (bit : Nat) (level : Bool) : State :=
  let reach := reachOf bit
  let s1 := if s.rst.reach < reach then s.widen reach else s
  let s2 := (s1.cause bit).causeReach
  if level then { s2 with rst := { s2.rst with asserted := setBit s2.rst.asserted bit, sample := false } } else s2

/-- A source is released; the stretch counts from the last release. -/
def State.releaseSrc (s : State) (bit : Nat) : State :=
  { s with rst := { s.rst with asserted := clrBit s.rst.asserted bit } }

/-- The root chosen at the end of an episode (R627). -/
def State.chooseRoot (s : State) : State :=
  let p := s.ov O.root_pref
  s.setOv O.root_sel (if (s.ov O.pll_lock).testBit p then p else 1 - p)

/-- A trim load starts (R610). -/
def State.startLoad (s : State) : State :=
  { s.bump O.trim_loads with rst := { s.rst with loading := true, trimFails := 0, stage := 1 } }

/-- The stretch has ended with no source asserted. A core episode is over; any other releases RST_N, samples the straps, and is over when the
pin has been sampled high (R604-R606, R624, R691). -/
def State.episodeEnd (s : State) (straps : Nat) : State :=
  let r := s.rst
  if r.reach = 0 ∨ r.asserted ≠ 0 ∨ r.sample then s
  else if r.reach = 1 then
    let s1 : State := { s with rst := { r with
      reach := 0, roms := 3, stage := min r.stage 3, warm := r.stage == 4 || r.warm } }
    let s2 := (s1.setKeeper r.pref 0).setKeeper (1 - r.pref) 1
    if r.stage = 1 then s2.startLoad else s2
  else if !r.aon ∨ !r.coreGood then s
  else
    let s1 := s.setOv O.osc_dly (straps % 8)
    let s2 := if r.oscDone then s1.chooseRoot else s1
    { s2 with ltc := if r.reach = 3 then 0 else s.ltc, rst := { r with rstDrive := false, sample := true, stage := 1 } }

/-- RST_N is sampled 10 µs after its release: still low, it is a source and the episode goes on; high, the trim load begins (R606). -/
def State.rstSample (s : State) (low : Bool) : State :=
  if !s.rst.sample then s
  else if low then
    let s1 := s.assertSrc 4 true
    { s1 with rst := { s1.rst with rstDrive := true, stage := 0 } }
  else ({ s with rst := { s.rst with sample := false, reach := 0 } } : State).startLoad

/-! ### Sources (R598-R603) -/

/-- A filtered low on RST_N, which is no source while the controller drives the pin. -/
def State.rstInput (s : State) : State := if s.rst.rstDrive then s else s.assertSrc 4 true

/-- The watchdog expires; it is stopped until the Keeper ROM starts, and an escalation counts from the end of the core episode (R599). -/
def State.watchdog (s : State) : State :=
  if 2 ≤ s.rst.reach ∨ s.rst.stage < 3 ∨ (s.rst.armed ∧ s.rst.reach = 1) then s
  else if s.rst.armed then s.assertSrc 9 false
  else
    let s1 := s.assertSrc 8 false
    { s1 with rst := { s1.rst with armed := true } }

/-- `rst_cmd`, 100 µs after its answer, or an accepted ACTIVATE: a core (1) or system (2) reset begins (R602). -/
def State.softReset (s : State) (n : Nat) : State :=
  ({ s with rst := { s.rst with cmd := 0 } } : State).assertSrc (if n = 1 then 11 else 10) false

/-- DBG_REQ_N goes low (R601). -/
def State.dbgReq (s : State) : State :=
  if s.ov O.dbg_state = 2 then s.assertSrc 5 true else s.bump O.dbg_req_ignored

/-- The functions of a PCIe port are reset: rings of its VFs, its mailbox, its streams (R603). -/
def State.resetFunctions (s : State) (n : Nat) : State :=
  let mine := s.liveCtxs.filter (fun c => s.ov O.ntf_func c / 256 == n && s.ov O.ntf_func c % 256 != 0)
  let s1 := mine.foldl (fun t c =>
    (t.setOv O.ntf_ring_en 0 c).setCtx c { t.ctx c with ntfHead := 0, ntfTail := 0 }) s
  let s2 := s1.muteWaits (32 + n)
  { (s2.setIde n 0).setOv O.pcie_vfs 0 0 n with ll := { s2.ll with boxes := Tab.del n s2.ll.boxes } }

/-- PERST of a PCIe port is asserted; ignored while the core group is off. It is no episode (R603, R690). -/
def State.perst (s : State) (n : Nat) : State :=
  if 2 ≤ n ∨ !s.rst.coreGood then s
  else ((s.bump O.pcie_perst 0 n).resetFunctions n).pcieLost n

/-! ### Trims (R610-R612) -/

/-- A trim load ends; a failed one is repeated once, and after a second failure the safe defaults are in force. -/
def State.trimDone (s : State) (ok : Bool) : State :=
  if !s.rst.loading then s
  else if ok then
    { s.setOv O.trim_state 1 with rst := { s.rst with loading := false, trimFails := 0, stage := 2 } }
  else if s.rst.trimFails = 0 then
    { s.bump O.trim_loads with rst := { s.rst with trimFails := 1 } }
  else
    let s1 := (s.setOv O.trim_state 2).cause 13
    { s1 with rst := { s.rst with loading := false, trimFails := 0, stage := 2 } }

/-- The OSC_DLY wait has run out and the PLLs have locked as `locks` says: the root is chosen (R613 step 3, R627, R634). -/
def State.oscDone (s : State) (locks : Nat) : State :=
  if s.rst.oscDone ∨ !s.rst.aon then s
  else ({ s.setOv O.pll_lock (locks % 4) with rst := { s.rst with oscDone := true } } : State).chooseRoot

/-! ### Power-on BIST and the Keeper's boot (R613-R615, R447) -/

/-- Units and Keepers (kind 3) that fail BIST come up DARK with cause 0x02. -/
def State.bistFail (s : State) : List (Nat × Nat) → State
  | [] => s
  | (kind, p) :: t =>
    let s1 := if kind = 3 then (if p < 2 then s.setKeeper p 2 else s)
      else if kind < 3 ∧ p < physCount kind then s.setUnit kind p { s.unit kind p with st := 2, cause := 2 } else s
    s1.bistFail t

/-- Power-on BIST of every unit ends, and the Keeper ROM starts. -/
def State.bistDone (s : State) (fails : List (Nat × Nat)) : State :=
  if s.rst.stage ≠ 2 ∨ s.rst.reach ≠ 0 then s
  else { s.bistFail fails with rst := { s.rst with stage := 3 } }

/-- The Keeper that was active is active again if it is not DARK, else the other; the remaining one is standby (R615). -/
def State.pickKeeper (s : State) : State :=
  let a := s.rst.pref
  let up (k : Nat) : Bool := s.keeper k != 2
  let act := if up a then a else 1 - a
  let s1 := if up act then (s.setKeeper act 0).setOv O.keeper_active act else s
  if up (1 - act) then s1.setKeeper (1 - act) 1 else s1

/-- A role of the sparing table whose unit is DARK or missing is given a spare (R17, R18, R23). A slice left without one starts empty. -/
def State.respareOne (s : State) (kind n : Nat) : State :=
  if s.lit kind n then s
  else
    let s1 := s.giveSpare kind n (s.lastPhys kind n)
    if kind = 0 then
      s1.setSlc n { s1.slc n with noSpare := s1.physOf 0 n == 255, quiesced := s1.physOf 0 n == 255 }
    else s1

/-- The sparing table is applied (R613 step 6). -/
def State.applySparing (s : State) : State :=
  [0, 1, 2].foldl (fun t kind => (t.homeless kind).foldl (fun u n => u.respareOne kind n) t) s

/-- The part whose image is accepted: the preferred one, or the other after a failure (R447 steps 1 to 4). -/
def State.bootPart (s : State) (sigA sigB : Bool) : Option Nat × State :=
  let p := s.ov O.boot_pref % 2
  let sig (k : Nat) : Bool := if k = 0 then sigA else sigB
  if s.verifyImage p (sig p) = 0 then (some p, s)
  else
    let s1 := (s.bump O.boot_fallbacks).event 0x12 0 p noCtx 0
    if s1.verifyImage (1 - p) (sig (1 - p)) = 0 then (some (1 - p), s1) else (none, s1)

/-- ROM recovery: only the firmware-writing objects are reachable (R447 step 4). -/
def State.toRecovery (s : State) : State :=
  let s1 := if s.rst.warm then s else s.setOv O.lc_state (if s.ov O.lc_state = 3 then 3 else 1)
  { s1 with rst := { s1.rst with recovery := true } }

/-- The image is taken into service. -/
def State.runImage (s : State) (p : Nat) : State :=
  let i := s.image p
  let s1 := ((s.setOct O.boot_meas i.meas).setOv O.fw_image p).setOv O.fw_version i.version
  { s1 with sec := { s1.sec with arb := i.arb } }

/-- The keys of this boot: the per-boot key, the extent-grant key and the journal key (R442). -/
def State.bootKeys (s : State) : State :=
  { s with
    grantKey := s.nextKey + 1
    nextKey := s.nextKey + 3
    sec := { s.sec with bootKey := s.nextKey, journalKey := s.nextKey + 2 } }

/-- The lifecycle at the end of boot (R438 Table 3). -/
def State.bootService (s : State) : State :=
  if s.ov O.lc_state = 1 ∧ s.ov O.lc_target = 2 then
    (if s.serviceCheck = 0 then (s.setOv O.lc_state 2).lcResult 0 else s.lcResult s.serviceCheck)
  else s

/-- Firmware starts. -/
def State.serveAgain (s : State) : State :=
  { s with rst := { s.rst with stage := 4, roms := 0, recovery := false } }

/-- The boot after a core reset: the image must be the one measured (R447). -/
def State.warmBoot (s : State) (p : Nat) : State :=
  if (s.image p).meas = s.oct O.boot_meas then (s.runImage p).serveAgain else s.toRecovery

/-- The boot after a power-on or system reset; an identity that does not match its digest stops it (R441, R447). -/
def State.coldBoot (s : State) (p : Nat) (idOk : Bool) : State :=
  let s1 := s.runImage p
  if s1.ov O.lc_state = 3 then s1.applySparing.serveAgain
  else if !idOk then s1
  else ((s1.bootKeys.applySparing).bootService).serveAgain

/-- The Keeper ROM has verified the images: `sigA` and `sigB` say what the key store finds of their signatures and digests, `idOk` that the
identity key matches, `bad` which Keepers fail their lockstep self-test. -/
def State.keeperBoot (s : State) (sigA sigB idOk : Bool) (bad : List Nat) : State :=
  if s.rst.stage ≠ 3 ∨ s.rst.reach ≠ 0 then s
  else
    let s1 := (bad.foldl (fun t k => if k < 2 then t.setKeeper k 2 else t) s).pickKeeper
    if s1.keeper 0 = 2 ∧ s1.keeper 1 = 2 then s1
    else
      let s2 := if s1.rst.warm then s1 else s1.bump O.boot_count
      match s2.bootPart sigA sigB with
      | (none, s3) => s3.toRecovery
      | (some p, s3) => if s3.rst.warm then s3.warmBoot p else s3.coldBoot p idOk

/-! ### Power-good inputs (R689, R690) -/

/-- PWRGOOD_AON falls: a power-on episode, with the rails' enables gone. -/
def State.aonLow (s : State) : State :=
  let s1 := s.assertSrc 0 true
  { s1 with rst := { s1.rst with
    aon := false, dramGood := false, coreGood := false, dramEn := false, coreEn := false, oscDone := false } }

/-- PWRGOOD_AON rises: the OSC_DLY wait starts, the straps are sampled for it, and DRAM_PWR_EN is asserted. -/
def State.aonRise (s : State) (straps : Nat) : State :=
  if s.rst.aon then s
  else ({ s.setOv O.osc_dly (straps % 8) with rst := { s.rst with aon := true, dramEn := true, oscDone := false } } : State).releaseSrc 0

/-- The power of every slot that holds a DIMM is enabled. -/
def State.powerDimms (s : State) : State :=
  (List.range 12).foldl (fun t m => t.setOv O.dimm_pwr (t.ov O.dimm_present m % 4) m) s

/-- PWRGOOD_DRAM rises: CORE_PWR_EN is asserted, but not in P3; in a power-on episode so is the power of every present DIMM. -/
def State.dramRise (s : State) : State :=
  let s1 := if s.rst.reach = 3 then s.powerDimms else s
  { s1 with rst := { s.rst with
    dramGood := true, coreEn := s.rst.coreEn || (s.rst.dramEn && s.ov O.pstate != 3) } }

/-- PWRGOOD_DRAM falls; in P3 the checkpoint and its key are discarded. -/
def State.dramFall (s : State) : State :=
  let s1 : State := { s with rst := { s.rst with dramGood := false } }
  if s.ov O.pstate = 3 then { s1 with pwr := { s1.pwr with ckpt := false, wrapKey := 0 } } else s1

/-- PWRGOOD_CORE falls: outside P3 it is the core brown-out. -/
def State.coreFall (s : State) : State :=
  if s.ov O.pstate = 3 ∨ !s.rst.coreEn then { s with rst := { s.rst with coreGood := false } }
  else
    let s1 := s.assertSrc 3 true
    { s1 with rst := { s1.rst with coreGood := false } }

/-- PWRGOOD_CORE rises. -/
def State.coreRise (s : State) : State :=
  ({ s with rst := { s.rst with coreGood := true } } : State).releaseSrc 3

end Sys2Proof.Machine
end

