-- ==== Sys2Proof/Machine/Link.lean ====
section
/-! DEFINITION. Sys2Proof/Machine/Link.lean: the transmitter of a Boroc port (R497-R508), training (R511-R517) and width changes (R519).
Flits received are in Machine/Delivery.lean. -/

namespace Sys2Proof.Machine

open Sys2Proof

/-! ### Pools (R496) -/

/-- The data pool of a channel's messages; 15 for a channel that carries none. -/
def dataPool : Nat → Nat
  | 0 => 5
  | 2 => 6
  | 3 => 7
  | 4 => 8
  | _ => 15

def credit (l : List Nat) (p : Nat) : Nat := l.getD p 0

def credSub (l : List Nat) (p n : Nat) : List Nat := l.set p (credit l p - n)

def credAdd (l : List Nat) (p n : Nat) : List Nat := l.set p (credit l p + n)

/-- Slots of a receive pool that are occupied: REQ messages that wait for a header place, RspDI that wait for a place in the replay store (R559), and
the message being joined. -/
def State.rxHeld (s : State) (port pool : Nat) : Nat :=
  let ws := s.pool.filter (fun w => w.port == port)
  let waiting := if pool = 0 then ws.length else if pool = 5 then (ws.map (fun w => w.slots.length)).foldl (· + ·) 0 else 0
  let copies := if pool = 2 then (s.diHeld port).length else if pool = 6 then 4 * (s.diHeld port).length else 0
  waiting + copies + (match (s.lport port).rxm with
    | some (c, _, ss) => if pool = c then 1 else if pool = dataPool c then ss.length else 0
    | none => 0)

/-- Freed slots the governor keeps back: half a BLK pool from level 9 on (R647 Table 10). -/
def State.keptBack (s : State) (pool : Nat) : Nat :=
  if 9 ≤ s.ov O.gov_level ∧ (pool = 3 ∨ pool = 7) then poolSize pool / 2 else 0

/-- Freed slots to be returned now; the field holds 12 bits. -/
def State.toReturn (s : State) (port pool : Nat) : Nat :=
  min 4095 (credit (s.lport port).unret pool - s.keptBack pool)

/-- Free slots of a pool, those not yet returned left out. -/
def State.freeSlots (s : State) (port pool : Nat) : Nat :=
  poolSize pool - s.rxHeld port pool - credit (s.lport port).unret pool

/-! ### Lanes -/

/-- The physical lane of a logical one in a map; 15 none (Table 9). -/
def mapLane (map i : Nat) : Nat := bits map (4 * i) 4

/-- A map of the lanes named, in logical order. -/
def laneMap (ls : List Nat) : Nat :=
  (List.range 8).foldl (fun m i => m + (ls[i]?.getD 15) * 2 ^ (4 * i)) 0

/-- The lanes of a map in logical order. -/
def mapLanes (map : Nat) : List Nat := ((List.range 8).map (mapLane map)).filter (fun x => decide (x < 9))

def State.txWidth (s : State) (p : Nat) : Nat := s.ov O.width p % 16

def State.rxWidth (s : State) (p : Nat) : Nat := s.ov O.width p / 16

def State.setWidth (s : State) (p tx rx : Nat) : State := s.setOv O.width (tx + 16 * rx) p

/-- A receive lane has failed (Table 13). -/
def State.laneFailed (s : State) (p l : Nat) : Bool := s.ov O.rx_lane p l / 2 ^ 28 == 3

/-- The width a number of working lanes gives (R517). -/
def widthOf (n : Nat) : Nat := if 8 ≤ n then 8 else if 4 ≤ n then 4 else if 2 ≤ n then 2 else 0

/-- The map that follows when the lanes of the present one and the spare are looked at (R517): the spare takes a failed lane's place; without a
spare the lowest-numbered working lanes are used. -/
def nextMap (cur : List Nat) (works : Nat → Bool) : List Nat :=
  let bad := cur.filter (fun l => !works l)
  let spare := (List.range 9).find? (fun l => works l && !cur.contains l)
  match bad, spare with
  | [], _ => cur
  | [b], some x => if cur.length = 8 then cur.map (fun l => if l = b then x else l)
      else let ws := (List.range 9).filter works
        ws.take (min cur.length (widthOf ws.length))
  | _, _ =>
    let ws := (List.range 9).filter works
    let n := widthOf ws.length
    ws.take (if n = 8 then 8 else min 4 n)

/-- The records of receive lanes after a map is set: active with its logical number, spare at width 8, parked below; a failed lane stays. -/
def State.laneRecords (s : State) (p : Nat) (ls : List Nat) : State :=
  (List.range 9).foldl (fun t l =>
    if t.laneFailed p l then t
    else match (List.range 8).find? (fun i => ls[i]? == some l) with
      | some i => t.setOv O.rx_lane (i * 2 ^ 24) p l
      | none => t.setOv O.rx_lane ((if ls.length = 8 then 1 else 2) * 2 ^ 28 + 15 * 2 ^ 24) p l) s

/-- The receive map of a port. -/
def State.setRxMap (s : State) (p : Nat) (ls : List Nat) : State := (s.setOv O.rx_map (laneMap ls) p).laneRecords p ls

/-! ### Training frames (R512) -/

/-- Frames of a kind are sent on every lane (1 FULL, 2 FAST, 3 DONE). A FAST frame announces the free slots, so what it counts as free is returned. -/
def State.sendFrames (s : State) (p kind : Nat) : State :=
  let x := s.lport p
  let keep (i : Nat) : Nat := min (credit x.unret i) (s.keptBack i)
  let free := if kind = 1 then poolSizes else (List.range 9).map (fun i => poolSize i - s.rxHeld p i - keep i)
  let s1 := if kind = 2 then s.setLport p { x with unret := (List.range 9).map keep } else s
  let w := if s.txWidth p = 0 then 8 else s.txWidth p
  (List.range 9).foldl (fun t l => t.emit (.train p {
    kind := kind, lane := l, width := w, map := s.ov O.rx_map p, expected := x.expected,
    kphase := (s.session p).txPhase, free := free, count := if kind = 1 then 0 else Tab.get 0 x.txCount l })) s1

/-- A fast retrain starts on a port whose link is UP (R514, R515). -/
def State.startRetrain (s : State) (p : Nat) : State :=
  if 24 ≤ p ∨ s.ov O.link_state p ≠ 3 then s
  else
    let x := s.lport p
    let s1 := (s.setOv O.link_state 4 p).setLport p { x with
      reorder := [], rtxq := [], frame := none, done := false, rtReq := 0, nak := none, driftDue := false, newWidth := 0,
      rxNew := 0, leftAt := s.ltc }
    s1.sendFrames p 2

/-- `port_cmd` RETRAIN: refused unless UP (R522). -/
def State.portRetrain (s : State) (p : Nat) : Bool × State :=
  if p < 24 ∧ s.ov O.link_state p = 3 then (true, s.startRetrain p) else (false, s)

/-- An attempt has lasted `retrain_limit`: it is made again (R514). -/
def State.retrainAgain (s : State) (p : Nat) : State :=
  if p < 24 ∧ s.ov O.link_state p = 4 then
    (s.setLport p { s.lport p with frame := none, done := false }).sendFrames p 2
  else s

/-- The replay buffer from a number on. -/
def keepFrom (e : Nat) (fs : List RFlit) : List RFlit := fs.filter (fun f => !precedes f.seq e)

/-- A direction goes on at the width its transmitter announced, or at the lanes of its map where those are fewer (Table 9, R517)
[DEDUCED, log 60]. -/
def heldWidth (announced map : Nat) : Nat :=
  let n := (mapLanes map).length
  if n = 0 then announced else min announced (widthOf n)

/-- A fast retrain ends: credits, replay buffer, maps, width and key phase follow the partner's FAST frame, and flits resume (Table 11). -/
def State.retrainDone (s : State) (p : Nat) : State :=
  let x := s.lport p
  match x.frame with
  | none => s
  | some f =>
    if 24 ≤ p ∨ s.ov O.link_state p ≠ 4 ∨ !x.done ∨ f.kind ≠ 2 then s
    else
      let fs := (keepFrom f.expected x.replay).map (fun r => { r with sacked := false })
      let w := if s.txWidth p = 0 then 8 else s.txWidth p
      let ss := s.session p
      let s1 := s.setLport p { x with
        replay := fs, rtxq := fs.map (·.seq), oldest := (fs.head?.map (·.seq)).getD x.next, misses := 0,
        credits := f.free, flitNo := 0, frame := none, done := false }
      let s2 := (s1.setOv O.tx_map f.map p).setWidth p (heldWidth w f.map) (heldWidth f.width (s.ov O.rx_map p))
      let s3 := if f.kphase = ss.rxPhase then s2.setSession p { ss with lanes := List.range 9 } else s2
      (((s3.bump O.fast_retrains p).setOv O.link_state 3 p).rerouteAll).sendAllQueries

/-! ### Full training (R513) -/

/-- A port whose link is DOWN and whose unit is LIT begins full training, in which failed lanes take part again. -/
def State.fullTraining (s : State) (p : Nat) : State :=
  if 24 ≤ p ∨ s.ov O.link_state p ≠ 0 ∨ s.ov O.port_state p ≠ 0 ∨ s.ov O.pstate = 3 then s
  else
    let s1 := ((List.range 9).foldl (fun t l => t.setOv O.rx_lane 0 p l) s).setOv O.rx_map (laneMap (List.range 8)) p
    ((s1.setLport p { LPort.dflt with leftAt := s.ltc }).setOv O.link_state 1 p).sendFrames p 1

/-- Lanes that fail training are recorded so (R516). -/
def State.failLanes (s : State) (p cause : Nat) (ls : List Nat) : State :=
  ls.foldl (fun t l => if l < 9 then t.setOv O.rx_lane (3 * 2 ^ 28 + 15 * 2 ^ 24 + cause * 2 ^ 20) p l else t) s

/-- Full training ends: it has failed, or maps, widths and credits are fixed and the session handshake begins (Table 10). -/
def State.fullDone (s : State) (p : Nat) (ok : Bool) (failed : List Nat) : State :=
  if 24 ≤ p ∨ s.ov O.link_state p ≠ 1 then s
  else
    let x := s.lport p
    let s1 := s.failLanes p 3 failed
    let ls := nextMap [0, 1, 2, 3, 4, 5, 6, 7] (fun l => !s1.laneFailed p l)
    match x.frame with
    | none => s1.linkDown p
    | some f =>
      if !ok ∨ !x.done ∨ f.kind ≠ 1 ∨ ls.length < 2 then s1.linkDown p
      else
        let tx := (mapLanes f.map).length
        let s2 := (s1.setRxMap p ls).setOv O.tx_map f.map p
        let s3 := s2.setLport p { LPort.dflt with credits := poolSizes }
        let s4 := (s3.setWidth p (if tx = 0 then 8 else widthOf tx) ls.length).bump O.full_trainings p
        (((s4.sendFrames p 1).sendFrames p 3).setOv O.link_state 2 p).lsBegin p

/-- A training frame is handed to training; a FAST frame on a link that is UP brings this side into the retrain (R505, R514). It resumes its lane's
count (R520), and the first of an attempt is answered with DONE frames. -/
def State.trainFrame (s : State) (p : Nat) (f : Train) : State :=
  let st := s.ov O.link_state p
  let s1 := if st = 3 ∧ f.kind = 2 then s.startRetrain p else s
  let x := s1.lport p
  let st1 := s1.ov O.link_state p
  if 24 ≤ p then s
  else if f.kind = 3 ∧ (st1 = 1 ∨ st1 = 4) then s1.setLport p { x with done := true }
  else if f.kind = 1 ∧ st1 = 1 then s1.setLport p { x with frame := some f }
  else if f.kind = 2 ∧ st1 = 4 then
    let s2 := s1.setLport p { x with frame := some f, rxCount := Tab.put 0 x.rxCount f.lane f.count }
    if x.frame.isNone then s2.sendFrames p 3 else s2
  else s1

/-! ### Building a flit (R491-R498) -/

/-- A session message that goes in HANDSHAKE flits. -/
def hsSegment (m : Msg) : Bool := linkSegment m && decide (bits m.hdr 245 5 ≤ 5)

/-- The kind of flit a message's header may lie in: its channel, or 6 for a handshake segment. -/
def flitClass (m : Msg) : Nat := if hsSegment m then 6 else m.chan

/-- The transmitter holds the credits a message needs. -/
def hasCredits (cr : List Nat) (m : Msg) : Bool :=
  decide (1 ≤ credit cr m.chan) && (m.slots.isEmpty || decide (m.slots.length ≤ credit cr (dataPool m.chan)))

/-- The next message to begin: the first in the queue that is the oldest of its channel, has its credits, and fits the flit's kind. A handshake
message begins no flit that carries slots of another message (`clean`), since its flit is not protected (Table 4). -/
def pickMsg (up clean : Bool) (cls : Option Nat) (cr : List Nat) : List Nat → List Msg → Option Msg
  | _, [] => none
  | seen, m :: t =>
    let c := flitClass m
    let fits := (cls == some c || (cls.isNone && (c != 6 || clean))) && (up || c == 6) && !seen.contains c
    if fits && hasCredits cr m then some m else pickMsg up clean cls cr (c :: seen) t

/-- A slot of a flit under construction: its data, its `last` bit, and the pool it takes. -/
structure TxSlot where
  slot : Slot
  last : Bool
  pool : Nat
deriving DecidableEq, Repr

/-- A flit under construction. -/
structure Fill where
  cls : Option Nat
  cur : Option (Msg × List Slot)
  queue : List Msg
  credits : List Nat
  out : List TxSlot
  done : List Msg

/-- Fill up to `n` slots: the message begun goes on, then new messages begin. -/
def fillFlit (up : Bool) : Nat → Fill → Fill
  | 0, f => f
  | n + 1, f =>
    match f.cur with
    | some (m, x :: rest) =>
      let f1 := { f with
        out := f.out ++ [⟨x, rest.isEmpty, dataPool m.chan⟩], cur := if rest.isEmpty then none else some (m, rest)
        done := if rest.isEmpty then f.done ++ [m] else f.done }
      fillFlit up n f1
    | _ =>
      match pickMsg up f.out.isEmpty f.cls f.credits [] f.queue with
      | none => f
      | some m =>
        let cr := credSub (if m.slots.isEmpty then f.credits else credSub f.credits (dataPool m.chan) m.slots.length) m.chan 1
        let f1 := { f with
          cls := some (flitClass m), queue := f.queue.erase m, credits := cr
          out := f.out ++ [⟨⟨natLe 32 m.hdr, false⟩, m.slots.isEmpty, m.chan⟩]
          cur := if m.slots.isEmpty then none else some (m, m.slots)
          done := if m.slots.isEmpty then f.done ++ [m] else f.done }
        fillFlit up n f1

/-- Something waits for a control slot (R498). -/
def State.needsControl (s : State) (p : Nat) : Bool :=
  let x := s.lport p
  x.nak.isSome || x.due || x.rtReq != 0 || x.wreq != 0 || !x.bcns.isEmpty
    || (List.range 9).any (fun i => decide (poolSize i / 16 ≤ s.toReturn p i))

/-- The control slot as it stands now, and the port after it has gone (R495, R498, R508). -/
def State.makeControl (s : State) (p : Nat) : Bytes × State :=
  let x := s.lport p
  let ret := (List.range 9).map (s.toReturn p)
  let cr := (List.range 9).foldl (fun m i => m + credit ret i * 2 ^ (244 - 12 * i)) 0
  let x1 := { x with unret := (List.range 9).map (fun i => credit x.unret i - credit ret i), due := false }
  let s1 := s.setLport p x1
  let nak := match x.nak with
    | some n => 2 ^ 147 + n % 4096 * 2 ^ 135
    | none => 0
  let bcn := match x.bcns with
    | b :: _ => 2 ^ 134 + b % 16 * 2 ^ 130 + min 4096 (s1.freeSlots p b) * 2 ^ 117
    | [] => 0
  let bs := natLe 32 (cr + nak + bcn + x.rtReq % 4 * 2 ^ 115 + x.rtLane % 8 * 2 ^ 112 + x.wreq % 4 * 2 ^ 110)
  let s2 := s1.setLport p { x1 with
    nak := none, nakLast := (x.nak.map (fun n => (n, s.ltc))).or x.nakLast, bcns := x.bcns.tail, rtReq := 0, wreq := 0 }
  (bs, if x.nak.isSome then s2.bump O.naks_sent p else s2)

/-- The mask of a list of truth values, bit 0 first. -/
def maskOf : List Bool → Nat
  | [] => 0
  | b :: t => b2n b + 2 * maskOf t

/-- The reorder buffer as `sack` (Table 3). -/
def sackOf (x : LPort) : Nat :=
  (List.range 16).foldl (fun m i =>
    if x.reorder.any (fun f => f.seq == (x.expected + 1 + i) % 4096) then m + 2 ^ i else m) 0

/-- A flit leaves on the next lane of the transmit map; the lane's count runs once flits are protected (R485, R504, R520). -/
def State.putFlit (s : State) (p : Nat) (seq poison last fkind : Nat) (ctl : Bool) (slots : List Bytes) : State :=
  let x := s.lport p
  let w := max 1 (s.txWidth p)
  let lane := mapLane (s.ov O.tx_map p) (x.flitNo % w)
  let f : Flit := {
    seq := seq, ack := (x.expected + 4095) % 4096, sack := sackOf x, poison := poison, last := last, fkind := fkind,
    kphase := (s.session p).txPhase, ctl := ctl, slots := slots, lane := lane, crcOk := true, tagOk := true, gap := 0 }
  (s.setLport p { x with
    flitNo := x.flitNo + 1
    txCount := if (s.session p).prot then Tab.put 0 x.txCount lane (Tab.get 0 x.txCount lane + 1) else x.txCount }).emit (.flit p f)

/-- An IDLE flit. -/
def State.putIdle (s : State) (p : Nat) : State := s.putFlit p (s.lport p).next 0 0 0 false (List.replicate 9 (zeros 32))

/-- A sequenced flit of the replay buffer is sent. -/
def State.putSeq (s : State) (p : Nat) (f : RFlit) : State :=
  (s.putFlit p f.seq (maskOf (f.slots.map (·.poison))) f.last f.fkind f.ctl (f.slots.map (·.bytes))).bump O.flits_tx p

/-- A retransmission is sent. -/
def State.putAgain (s : State) (p : Nat) (f : RFlit) : State :=
  let x := s.lport p
  let s1 := s.setLport p { x with
    rtxq := x.rtxq.filter (· != f.seq)
    replay := x.replay.map (fun r => if r.seq = f.seq then { r with sentAt := s.ltc + 1 } else r) }
  (s1.putSeq p f).bump O.retransmits p

/-- Messages of a port that may go now: handshake segments first. -/
def State.readyMsgs (s : State) (p : Nat) : List Msg :=
  let q := Tab.get [] s.txq p
  q.filter hsSegment ++ q.filter (fun m => !hsSegment m)

/-- A handshake message begun goes on in HANDSHAKE flits. -/
def begunClass : Option (Msg × List Slot) → Option Nat
  | some (m, _) => if hsSegment m then some 6 else none
  | none => none

/-- The last segment of a handshake message of one of the kinds named. -/
def lastSeg (kinds : List Nat) (m : Msg) : Bool :=
  linkSegment m && kinds.contains (bits m.hdr 245 5) && bits m.hdr 230 15 + 1 == bits m.hdr 215 15

/-- What follows the flit that carries the last segment of a handshake message: after LS_FINISH or LS_DONE flits are protected, and after
LK_ACCEPT the new key is used (R461, R494). -/
def State.keysAfter (s : State) (p : Nat) (ms : List Msg) : State :=
  let s1 := if ms.any (lastSeg [3, 4]) then
      (s.setSession p { s.session p with prot := true }).setLport p { s.lport p with txCount := [] } else s
  if ms.any (lastSeg [7]) then s1.switchTx p else s1

/-- A new sequenced flit is built and sent, or an IDLE flit when nothing is ready (R497, R503, R506). -/
def State.putNew (s : State) (p : Nat) : State :=
  let up := s.ov O.link_state p == 3
  let ctl := s.needsControl p
  let c := if ctl then s.makeControl p else ([], s)
  let s1 := c.2
  let x := s1.lport p
  let f := fillFlit up (if ctl then 8 else 9) ⟨begunClass x.cur, x.cur, s1.readyMsgs p, x.credits, [], []⟩
  if !ctl ∧ f.out = [] then s.putIdle p
  else
    let body := (if ctl then [(⟨⟨c.1, false⟩, false, 15⟩ : TxSlot)] else []) ++ f.out
    let full := body ++ List.replicate (9 - body.length) ⟨⟨zeros 32, false⟩, true, 15⟩
    let kind := if !up then 7 else match f.cls with
      | some k => k + 1
      | none => 6
    let r : RFlit := {
      seq := x.next, fkind := kind, last := maskOf (full.map (·.last)), ctl := ctl, slots := full.map (·.slot),
      pools := full.map (·.pool), msgs := f.done, sacked := false, sentAt := 0 }
    let s2 : State := { s1 with txq := Tab.put [] s1.txq p f.queue }
    let s3 := s2.setLport p { x with
      next := (x.next + 1) % 4096, oldest := if x.replay = [] then x.next else x.oldest, replay := x.replay ++ [r],
      cur := f.cur, credits := f.credits }
    (s3.putSeq p r).keysAfter p f.done

/-! ### Lane failures (R516, R517) -/

/-- A control slot that asks the partner to move a logical lane to the spare leaves in the flit that is finished before a retrain (R514, R516). -/
def State.askMove (s : State) (p i : Nat) : State :=
  let x := s.lport p
  if x.replay.length < 2048 then (s.setLport p { x with rtReq := 2, rtLane := i }).putNew p else s

/-- A receive lane fails: the partner is asked to move an active one, the map that follows is found, and a fast retrain starts; one under way goes on
with the new map. In SESSION the link goes DOWN, since only UP has a fast retrain (Table 8) [DEDUCED, log 60]. Lane records of `lane_ue_limit`
0xFFFF never fail by their codewords. -/
def State.laneFail (s : State) (p l cause : Nat) : State :=
  let st := s.ov O.link_state p
  if 24 ≤ p ∨ 9 ≤ l ∨ (st ≠ 3 ∧ st ≠ 4 ∧ st ≠ 2) ∨ s.laneFailed p l ∨ (cause = 2 ∧ s.ov O.lane_ue_limit p = 0xFFFF) then s
  else
    let cur := mapLanes (s.ov O.rx_map p)
    let s1 := s.failLanes p cause [l]
    match (List.range 8).find? (fun i => cur[i]? == some l) with
    | none => s1
    | some i =>
      let ls := nextMap cur (fun k => !s1.laneFailed p k)
      if ls.length < 2 ∨ st = 2 then s1.linkDown p
      else
        let moved := ls.length == cur.length && decide (cur.length = 8)
        let s2 := (if st = 3 then s1.askMove p i else s1).setRxMap p ls
        let s3 := if moved then (s2.bump O.lane_moves p).event 0x22 3 p noCtx 0 else s2
        let s4 := s3.setWidth p (s3.txWidth p) ls.length
        if st = 3 then s4.startRetrain p else s4.sendFrames p 2

/-- A narrowed transmitter widens again when a message is ready (R519). -/
def State.widenIfReady (s : State) (p : Nat) : State :=
  let x := s.lport p
  let n := widthOf (mapLanes (s.ov O.tx_map p)).length
  if s.txWidth p < n ∧ x.newWidth = 0 ∧ (x.cur.isSome ∨ Tab.get [] s.txq p ≠ []) then
    s.setLport p { x with newWidth := n, wreq := if n = 8 then 3 else 2 }
  else s

/-- One flit time of a port: a queued retransmission, else a new sequenced flit, else IDLE; with 2,048 flits unacknowledged only IDLE (R503). -/
def State.flitTime (s0 : State) (p : Nat) : State :=
  let st := s0.ov O.link_state p
  if 24 ≤ p ∨ (st ≠ 2 ∧ st ≠ 3) then s0
  else
    let s := s0.widenIfReady p
    let x := s.lport p
    match x.rtxq.findSome? (fun n => x.replay.find? (fun f => f.seq == n)) with
    | some f => s.putAgain p f
    | none =>
      if 2048 ≤ x.replay.length then
        (if s.needsControl p ∨ x.cur.isSome ∨ Tab.get [] s.txq p ≠ [] then s.bump O.window_stall p else s).putIdle p
      else s.putNew p

/-! ### Timers of the transmitter and receiver -/

/-- The retransmit timer reaches `rtx_timer`: `oldest` is sent again, and after `rtx_limit` expiries a fast retrain starts (R506). -/
def State.rtxTimer (s : State) (p : Nat) : State :=
  let x := s.lport p
  let st := s.ov O.link_state p
  if 24 ≤ p ∨ x.replay = [] ∨ (st ≠ 2 ∧ st ≠ 3) then s
  else
    let q := if x.rtxq.contains x.oldest then x.rtxq else x.rtxq ++ [x.oldest]
    let s1 := (s.setLport p { x with rtxq := q, misses := x.misses + 1 }).bump O.rtx_timeouts p
    if x.misses + 1 = s.ov O.rtx_limit p then s1.startRetrain p else s1

/-- 200 ns have passed since the oldest unreturned slot: a control slot is due (R498). -/
def State.creditDue (s : State) (p : Nat) : State :=
  if p < 24 ∧ (List.range 9).any (fun i => s.toReturn p i != 0) then s.setLport p { s.lport p with due := true } else s

/-- A pool has received nothing for `beacon_idle`: a beacon is placed in the next control slot (R508). -/
def State.beaconIdle (s : State) (p pool : Nat) : State :=
  let x := s.lport p
  if p < 24 ∧ pool < 9 ∧ s.ov O.link_state p = 3 ∧ !x.bcns.contains pool then s.setLport p { x with bcns := x.bcns ++ [pool] } else s

/-- The scheduled fast retrain of a drifted port runs (R510). -/
def State.driftRetrain (s : State) (p : Nat) : State := if (s.lport p).driftDue then s.startRetrain p else s

/-- A transmitter idle for 1 µs in P1 narrows to width 2 (R519). -/
def State.narrowIdle (s : State) (p : Nat) : State :=
  let x := s.lport p
  if p < 24 ∧ s.ov O.link_state p = 3 ∧ s.ov O.pstate = 1 ∧ s.ob O.narrow_enable p ∧ 2 < s.txWidth p ∧ x.newWidth = 0
      ∧ x.cur.isNone ∧ Tab.get [] s.txq p = [] then
    s.setLport p { x with newWidth := 2, wreq := 1 }
  else s

/-- A width change announced in `wreq` takes effect, of this side's transmitter or of the partner's (R519); dropped receive lanes are parked. -/
def State.widthEffect (s : State) (p : Nat) (tx : Bool) : State :=
  let x := s.lport p
  if 24 ≤ p then s
  else if tx then
    (if x.newWidth = 0 ∨ x.wreq ≠ 0 then s
    else (s.setLport p { x with newWidth := 0, flitNo := 0 }).setWidth p x.newWidth (s.rxWidth p))
  else if x.rxNew = 0 then s
  else
    let ls := (mapLanes (s.ov O.rx_map p)).take x.rxNew
    ((s.setLport p { x with rxNew := 0 }).laneRecords p ls).setWidth p (s.txWidth p) x.rxNew

end Sys2Proof.Machine
end

