-- ==== Sys2Proof/Machine/Power.lean ====
section
/-! DEFINITION. Sys2Proof/Machine/Power.lean: the root clock and references (R625-R635), power states (R636-R642), the energy bucket, the
governor and the wear ledger (R644-R649). -/

namespace Sys2Proof.Machine

open Sys2Proof

/-! ### Root and references (R628-R633) -/

/-- The root switches to the other PLL if that one is locked (R628-R630). -/
def State.switchRoot (s : State) (forced : Bool) : State :=
  let b := 1 - s.ov O.root_sel % 2
  if (s.ov O.pll_lock).testBit b then
    ((s.setOv O.root_sel b).bump O.root_switches 0 0 (if forced then 65536 else 1)).event 0x11 0 b noCtx 0
  else s

/-- A PLL no longer locks. -/
def State.pllUnlock (s : State) (n : Nat) : State := s.setOv O.pll_lock (clrBit (s.ov O.pll_lock) n)

/-- A PLL loses lock: the root leaves it glitch-free (R628, R629). -/
def State.pllLockLoss (s : State) (n : Nat) : State :=
  if 2 ≤ n then s
  else if s.ov O.root_sel = n then (s.pllUnlock n).switchRoot false
  else s.pllUnlock n

/-- The selected PLL gives no edge: the switch is forced (R630). -/
def State.pllEdgeLoss (s : State) (n : Nat) : State :=
  if 2 ≤ n then s
  else if s.ov O.root_sel = n then (s.pllUnlock n).switchRoot true
  else s.pllUnlock n

/-- `root_cmd`: refused unless the other PLL is locked. -/
def State.rootCmd (s : State) : Bool × State :=
  if (s.ov O.pll_lock).testBit (1 - s.ov O.root_sel % 2) then (true, s.switchRoot false) else (false, s)

/-- The SREF a port runs on (R632). -/
def State.srefOf (s : State) (p : Nat) : Nat := if s.pwr.alt.testBit p then (p + 1) % 4 else p % 4

/-- A port whose reference stopped moves to its other one and retrains, or goes DOWN when both have stopped (R632). -/
def State.moveSref (s : State) (p : Nat) : State :=
  let other := if s.pwr.alt.testBit p then p % 4 else (p + 1) % 4
  if s.ov O.sref_state 0 other = 0 then
    ({ s with pwr := { s.pwr with alt := s.pwr.alt ^^^ 2 ^ p } } : State).startRetrain p
  else s.linkDown p

/-- A SerDes reference stops. -/
def State.srefLoss (s : State) (n : Nat) : State :=
  if 6 ≤ n then s
  else
    let s1 := s.setOv O.sref_state 1 0 n
    let ps := (List.range 24).filter (fun p => decide (n < 4) && s.srefOf p == n)
    ps.foldl State.moveSref s1

/-- A PCIe reference stops: the port is lost (R633). -/
def State.refclkLoss (s : State) (n : Nat) : State := s.pcieLost n

/-- The divider the governor asks for (R647 Table 10). -/
def State.govDiv (s : State) : Nat := 8 + min (s.ov O.gov_level) 8

/-- The CK_ARITH divider moves one step towards the governor's; while it is gated it does not move (R625). -/
def State.divStep (s : State) : State :=
  let d := s.ov O.arith_div
  let g := s.govDiv
  if d = 0 then s
  else if d < g then s.setOv O.arith_div (d + 1)
  else if g < d then s.setOv O.arith_div (d - 1)
  else s

/-! ### The frequency counter (R635) -/

/-- `fc_cmd` 1: refused while running; a count of no edges ends at once with EMPTY. -/
def State.fcStart (s : State) : Bool × State :=
  if s.ov O.fc_state = 1 then (false, s)
  else if s.ov O.fc_count = 0 then (true, s.setOv O.fc_result (2 ^ 63))
  else (true, s.setOv O.fc_state 1)

/-- The count ends, or a clock gave no edge for 100 ms. -/
def State.fcDone (s : State) (edges : Nat) (noEdge : Bool) : State :=
  if s.ov O.fc_state = 1 then
    (s.setOv O.fc_result (if noEdge then 2 ^ 62 else edges % 2 ^ 48)).setOv O.fc_state 0
  else s

/-! ### Power states (R636-R642) -/

/-- TEP16 or TEP17 is not DARK. -/
def State.islandEngine (s : State) : Bool := (s.unit 2 16).st != 2 || (s.unit 2 17).st != 2

/-- A write of `pstate_target`. In P3 only 0, 1 or 2 over LLP is accepted, and starts the exit (R637, R640). -/
def State.setTarget3 (s : State) (v : Nat) (llp : Bool) : Bool × State :=
  if 4 ≤ v then (false, s)
  else if s.ov O.pstate = 3 then
    (if llp ∧ v < 3 then
      (true, { s.setOv O.pstate_target v with rst := { s.rst with coreEn := true } })
    else (false, s))
  else if v = 3 then
    (let s1 := s.wake
    if s1.islandEngine then
      let old := s1.ov O.pstate_target
      (true, { s1.setOv O.pstate_target 3 with pwr := { s1.pwr with seek3 := some (s1.pwr.seek3.getD old) } })
    else (true, s1.pstateResult 3))
  else
    let s1 := s.wake.setOv O.pstate (min v 1)
    (true, { (s1.setOv O.pstate_target v).pstateResult 0 with pwr := { s1.pwr with
      seek3 := none, gated := if v = 0 then [] else s1.pwr.gated } })

/-- A LIT tile or engine that has been idle is power-gated in P1 (R636). -/
def State.gateIdle (s : State) (kind p : Nat) : State :=
  match s.roleOf kind p with
  | some n =>
    if (kind = 1 ∨ kind = 2) ∧ s.lit kind n ∧ s.unitIdle kind n ∧ s.ov O.pstate = 1 ∧ !s.pwr.gated.contains (kind, p) then
      { s with pwr := { s.pwr with gated := s.pwr.gated ++ [(kind, p)] } }
    else s
  | none => s

/-- Work comes to a unit: its power comes back (R636). -/
def State.ungate (s : State) (kind n : Nat) : State :=
  { s with pwr := { s.pwr with gated := s.pwr.gated.filter (· != (kind, s.physOf kind n)) } }

/-- Nothing of R638's list is active. -/
def State.idle (s : State) : Bool :=
  s.reqs == [] && s.jobs.jobs == [] && s.tends.ops == [] && s.chart.sweeps == [] && s.migs == [] && !s.scrub.running
    && s.coh.snoops == [] && !s.coh.dir.any (fun d => d.2.txn.isSome || d.2.recalls || d.2.single != []) && s.chart.commits == []
    && !s.chart.extBusy && !s.ctxs.any (fun c => c.2.rphase != 0) && !s.unitBusy && s.ov O.fc_state != 1

/-- Every merge buffer and accumulation cache is flushed. -/
def State.flushAll (s : State) : State := s.flushLines (s.coh.acc.map (·.1) ++ s.coh.merge.map (·.1))

/-- Every merge-buffer entry is flushed. -/
def State.flushMerges (s : State) : State := (s.coh.merge.map (·.1)).foldl State.flushMerge s

/-- The controller has been idle for `p2_idle` and enters P2 (R639). -/
def State.enterP2 (s : State) : State :=
  if s.ov O.pstate = 1 ∧ s.ov O.pstate_target = 2 ∧ s.idle then
    let s1 := s.flushMerges
    { (s1.setOv O.arith_div 0).setOv O.pstate 2 with pwr := { s1.pwr with selfRef := true } }
  else s

/-- No cache holds a line and no transaction is open. -/
def State.noCopies (s : State) : Bool :=
  s.coh.snoops == [] && !s.coh.dir.any (fun d => (d.2.way && d.2.st != .u) || d.2.txn.isSome || d.2.recalls || d.2.single != [])

/-- A link is taken down for P3; the port is not lost (R641). -/
def State.linkSleep (s : State) (p : Nat) : State :=
  let s1 := ((s.setOv O.link_state (if s.ov O.link_state p = 5 then 5 else 0) p).setWidth p 0 0)
  let s2 := if s.ov O.link_sec_state 0 p = 4 then s1 else s1.setOv O.link_sec_state 0 0 p
  (s2.setLport p LPort.dflt).setSession p { Sess.dflt with fails := (s.session p).fails }

/-- The wear ledger is written to both flash parts (R649). -/
def State.saveWear (s : State) : State :=
  { s with pwr := { s.pwr with wear := (List.range 32).map (fun i => s.ov O.wear_bins 0 i), wearSecs := 0 } }

/-- Steps 3 to 6 of P3 entry: links down, the checkpoint written, DRAM in self-refresh and the core rail off (Table 7). -/
def State.finishP3 (s : State) : State :=
  let s2 := (List.range 24).foldl State.linkSleep s.flushAll
  let s3 := ((s2.pcieDown 0).pcieDown 1).saveWear
  let b := s3.freeBelow (2 ^ 22 + 1)
  let s4 := (b.2.setOv O.ckpt_bytes b.1).bump O.p3_entries
  let s5 := ((s4.setOv O.pstate 3).pstateResult 0).setOv O.hbch_confirm 0
  { s5 with
    nextKey := s5.nextKey + 1
    rst := { s5.rst with coreEn := false }
    pwr := { s5.pwr with
      seek3 := none, entering := false, ckpt := true, wrapKey := s5.nextKey, selfRef := true, grace := true, gated := [] } }

/-- P3 entry begins once the controller is idle: every cached line is recalled, and accumulation caches and merge buffers are flushed. It goes
on when the last copy has come home (Table 7). -/
def State.enterP3 (s : State) (m : Met) : State :=
  if s.pwr.seek3.isNone ∨ s.ov O.pstate = 3 ∨ !s.islandEngine ∨ !(s.pwr.entering || s.idle) then s
  else
    let s1 := if s.pwr.entering then s
      else
        let s0 := (s.meet m.errs).flushAll
        let ls := (s0.coh.dir.filter (fun d => d.2.way)).map (·.1)
        ls.foldl State.recallLine { s0 with pwr := { s0.pwr with entering := true } }
    if s1.noCopies then s1.finishP3 else s1

/-- The controller was not idle within 1 s: the write ends with BUSY and the state is unchanged (R640). -/
def State.p3Timeout (s : State) : State := if s.pwr.entering then s else s.stopP3

/-- The core rail is back: units that fail BIST lose their roles, the checkpoint is restored, and service goes on (Table 8). Without a checkpoint
it is a start-up as after a system episode with CORE_BOR (R690). -/
def State.exitP3 (s : State) (fails : List (Nat × Nat)) : State :=
  if s.ov O.pstate ≠ 3 ∨ !s.rst.coreGood ∨ !s.rst.coreEn then s
  else if !s.pwr.ckpt then s.assertSrc 3 false
  else
    let s1 := ((s.bistFail (fails.filter (fun f => f.1 != 3))).applySparing.resetFunctions 0).resetFunctions 1
    let s2 := (s1.setOv O.pstate (min (s1.ov O.pstate_target) 1)).setOv O.arith_div s1.govDiv
    { s2 with pwr := { s2.pwr with ckpt := false, wrapKey := 0, selfRef := false } }

/-- `p3_link_grace` after P3 exit: loss for cause ROUTES applies again (R641). -/
def State.graceEnd (s : State) : State :=
  if s.ov O.pstate = 3 then s else { s with pwr := { s.pwr with grace := false } }

/-! ### Temperatures (R644, R645) -/

/-- The value of an F32 pattern. -/
def f32 (x : Nat) : Val := elemDecode 1 x

/-- The pattern nearest to n / d. -/
def f32Of (n : Int) (d : Nat) : Nat :=
  (elemEncode 1 .rne (Val.div (.fin (decide (n < 0)) n.natAbs 0) (.fin false d 0))).enc

/-- One F32 pattern is below another. -/
def f32Lt (a b : Nat) : Bool := ((f32 a).lt? (f32 b)).getD false

/-- The highest of the readings with its sensor. -/
def hotSpot : List Nat → Nat → Nat × Nat → Nat × Nat
  | [], _, best => best
  | t :: ts, i, best => hotSpot ts (i + 1) (if f32Lt best.2 t then (i, t) else best)

/-- The 72 sensors are read. -/
def State.thermal (s : State) (ts : List Nat) : State :=
  let rs := ts.take 72
  let s1 := (List.range rs.length).foldl (fun t i => t.setOv O.temp (rs.getD i 0) 0 i) s
  match (List.range 72).map (fun i => s1.ov O.temp 0 i) with
  | [] => s1
  | a :: l =>
    let h := hotSpot l 1 (0, a)
    let s2 := (s1.setOv O.temp_max h.2).setOv O.temp_max_sensor h.1
    if f32Lt (s2.ov O.temp_peak) h.2 then s2.setOv O.temp_peak h.2 else s2

/-- A sensor reads 115 °C or more: THERMTRIP_N is asserted until a power-on reset (R645). -/
def State.thermtrip (s : State) : State := { s with rst := { s.rst with thermtrip := true } }

/-! ### Energy and the governor (R646-R648) -/

/-- Package power is read from the rails, each with whether its telemetry answered and its milliwatts or their estimate; in microjoules the bucket
gains 780 W less that power for 1 ms. -/
def State.energy (s : State) (rails : List (Bool × Nat)) : State :=
  let p : Nat := (rails.map (·.2)).foldl (· + ·) 0
  let miss := (rails.filter (fun r => !r.1)).length
  let b : Int := min 12000000000 (s.pwr.bucket + (780000 - (p : Int)))
  let s1 := s.bump O.pmbus_fallbacks 0 0 miss
  { (s1.setOv O.power_w (f32Of p 1000)).setOv O.bucket_j (f32Of b 1000000) with pwr := { s1.pwr with bucket := b, mw := p } }

/-- The governor raises its level, lowers it, or holds it; each change is logged and counted (R647). -/
def State.governor (s : State) : State :=
  let hot := f32 (s.ov O.temp_max)
  let limit := f32 (s.ov O.hot_limit)
  let five : Val := .fin false 5 0
  let hotAt := !(hot.lt? limit).getD false
  let cool := !((limit.lt? (Val.add hot five)).getD true)
  let l := s.ov O.gov_level
  let up := decide (s.pwr.bucket ≤ 0) || hotAt || decide (1050000 < s.pwr.mw)
  let down := decide ((s.ov O.gov_release : Int) * 1000000 ≤ s.pwr.bucket) && cool && decide (s.pwr.mw ≤ 1050000)
  let l' := if up then min 10 (l + 1) else if down then l - 1 else l
  if l' = l then s else ((s.setOv O.gov_level l').bump O.gov_actions).event 0x70 0 0 noCtx 0

/-! ### The wear ledger (R649) -/

/-- The temperature bin of an F32 pattern: how many of 45, 55, ..., 105 °C it reaches. -/
def tempBin (x : Nat) : Nat :=
  ([45, 55, 65, 75, 85, 95, 105].filter (fun c => !((f32 x).lt? (.fin false c 0)).getD true)).length

/-- Temperature weights times 4, and voltage weights times 2. -/
def wearWt : List Nat := [1, 1, 2, 2, 4, 8, 16, 32]
def wearWv : List Nat := [1, 2, 4, 8]

/-- `wear_used` from the bins, in parts per million of 10 years. -/
def State.wearUsed (s : State) : Nat :=
  ((List.range 32).map (fun i => s.ov O.wear_bins 0 i * wearWt.getD (i % 8) 0 * wearWv.getD (i / 8) 0)).foldl (· + ·) 0
    * 1000000 / (8 * 315360000)

/-- A second passes: its bin gains one, and every hour the ledger goes to flash. -/
def State.wearTick (s : State) (v : Nat) : State :=
  let s1 := s.bump O.wear_bins 0 (8 * (v % 4) + tempBin (s.ov O.temp_max))
  let s2 := s1.setOv O.wear_used (s1.wearUsed % 2 ^ 32)
  let s3 : State := { s2 with pwr := { s2.pwr with wearSecs := s2.pwr.wearSecs + 1 } }
  if s3.pwr.wearSecs = 3600 then s3.saveWear else s3

end Sys2Proof.Machine
end

