-- ==== Sys2Proof/Machine/Dictionary.lean ====
section
/-! DEFINITION. Sys2Proof/Machine/Dictionary.lean: the Light List as a reader sees it (R651-R663): what an address names, who may reach it, and
the value of every object, those the tables hold and those that show other state. -/

namespace Sys2Proof.Machine

open Sys2Proof

/-! ### Sessions and principals (R656) -/

def LlSess.dflt : LlSess := ⟨0, 0, 0, 0, 0, 0, 0, 0, 0, none, none, [], 0, [], 0, 0, [], 0⟩

def State.llSess (s : State) (n : Nat) : LlSess := Tab.get LlSess.dflt s.ll.sess n

def State.setLlSess (s : State) (n : Nat) (x : LlSess) : State :=
  { s with ll := { s.ll with sess := Tab.put LlSess.dflt s.ll.sess n x } }

/-- The principal a session acts for: sessions 0-31 LLP, 32 and 33 the mailboxes, 64 + agent MGT (6 an agent that is not the fabric manager). -/
def State.principal (s : State) (sess : Nat) : Nat :=
  if sess < 32 then (s.llSess sess).who
  else if sess < 34 then sess - 29
  else if 64 ≤ sess then (if s.ov O.fm_agent = sess - 64 then 5 else 6) else 0

/-- Ticks of a lease (R662). -/
def State.leaseTicks (s : State) : Nat := usTicks (1000 * s.ov O.lease_time)

/-- The principal holds the lease now. -/
def State.holds (s : State) (who : Nat) : Bool :=
  who != 0 && s.ov O.lease_holder == who && decide (s.ltc < s.ll.leaseAt + s.leaseTicks)

/-! ### Addresses (R651, R682) -/

/-- What an address names: the object, its item (context or port, 0 for the device) and its place in the run of subindices. -/
structure Ref where
  o : Obj
  item : Nat
  sub : Nat
deriving DecidableEq, Repr

/-- Find what scope, index and subindex name; the answer is a status of Table 5 if nothing. -/
def resolve (scope index sub : Nat) : Except Nat Ref :=
  let mk (o : Option Obj) (a : Nat) : Except Nat Ref :=
    match o with
    | some x => .ok ⟨x, a, sub - x.lo⟩
    | none => .error 2
  if 0x400 < scope then .error 1
  else if scope < 0x400 then mk (findObj .ctx index sub) scope
  else if 0x4000 ≤ index ∧ index < 0x4180 then mk (findObj .port (0x4000 + index % 16) sub) ((index - 0x4000) / 16)
  else mk (findObj .dev index sub) 0

/-- The session's copy of the selector that shows an item, 0 where there is none. The selector of the Daymark log is of context scope. -/
def State.selected (s : State) (sess : Nat) (r : Ref) : Nat :=
  match selectors.find? (fun x => x.id == r.o.sel) with
  | none => 0
  | some x => s.ov x (if x.scope = .ctx then r.item + 1024 * sess else sess)

/-- Objects whose table shows one item by a selector but of which the device has one value. -/
def shared : List Obj := [O.rcp_image, O.rcp_ctx, O.rcp_op, O.rcp_result]

/-- The item under which a value is kept: the session for its copies, else the context, port or selected item. -/
def State.itemOf (s : State) (sess : Nat) (r : Ref) : Nat :=
  if r.o.isSel then (if r.o.scope = .ctx then r.item + 1024 * sess else sess)
  else if r.o = O.lease_result then sess
  else if r.o.sel = 0 ∨ r.o.scope = .ctx ∨ shared.contains r.o then r.item
  else if r.o = O.int8_scale then s.selected sess r % 65536
  else s.selected sess r

/-! ### Reach (R657-R660) -/

/-- The public objects (R659). -/
def isPublic (o : Obj) : Bool :=
  o.scope == .dev && (decide (0x1000 ≤ o.index ∧ o.index ≤ 0x10FF) || o == O.lc_state || o == O.id_digest || o == O.id_cert
    || o == O.ak_cert || o == O.fw_version || o == O.fw_image || o == O.boot_meas)

/-- The objects a tenant writes (R658); `key_cmd` with REKEY only. -/
def tenantWrites (o : Obj) (v : Nat) : Bool :=
  o.scope == .ctx &&
    ((o == O.key_cmd && v == 2) || (o.index == 0x400 && decide (2 ≤ o.lo ∧ o.lo ≤ 8)) || o.index == 0x401 || o.index == 0x402
      || (o.index == 0x600 && [2, 4, 7, 8].contains o.lo))

/-- A tenant's session reaches a context scope: its own, or for an agent those its valid bindings name. -/
def State.tenantOf (s : State) (sess c : Nat) : Bool :=
  if sess < 32 then (s.llSess sess).num == c else (s.bindMask (sess - 64) c).isSome

/-- The principal may read an object (Table 2). -/
def State.mayRead (s : State) (sess : Nat) (r : Ref) : Bool :=
  match s.principal sess with
  | 0 => false
  | 2 => if r.o.scope = .ctx then s.tenantOf sess r.item else isPublic r.o
  | 6 => if r.o.scope = .ctx then s.tenantOf sess r.item else isPublic r.o
  | _ => true

/-- What stops a write (R657-R661): 0 nothing, 3 ROLE, 5 LEASE. `op` says the principal held the lease when the message began (R663). -/
def State.mayWrite (s : State) (sess : Nat) (op : Bool) (r : Ref) (v : Nat) : Nat :=
  if r.o = O.lease_cmd then 0
  else if r.o.isSel then (if s.mayRead sess r then 0 else 3)
  else match s.principal sess with
    | 3 => if op ∨ (tenantWrites r.o v ∧ s.ov O.owner_port r.item = 0) then 0 else 5
    | 4 => if op ∨ (tenantWrites r.o v ∧ s.ov O.owner_port r.item = 1) then 0 else 5
    | 5 => if op then 0 else 5
    | 2 => if tenantWrites r.o v ∧ s.tenantOf sess r.item then 0 else 3
    | 6 => if tenantWrites r.o v ∧ s.tenantOf sess r.item then 0 else 3
    | _ => 3

/-! ### What a CMD object shows (R652, R653) -/

/-- The command of a CMD object is still running. -/
def State.running (s : State) (o : Obj) (a : Nat) : Bool :=
  if o = O.ext_op then s.chart.extBusy
  else if o = O.ctx_cmd then s.ctxBusy a
  else if o = O.key_cmd then (s.ctx a).rekeying
  else if o = O.att_cmd then s.sec.att.any (fun x => x.1 == noCtx)
  else if o = O.ctx_att_cmd then s.sec.att.any (fun x => x.1 == a)
  else if o = O.unit_cmd then s.unitBusy
  else if o = O.dcp_cmd then s.pairSt a == 3 || Tab.get 0 s.dram.settling a != 0
  else if o = O.set_cmd then (s.devSet a).st == 1
  else if o = O.fc_cmd then s.ov O.fc_state == 1
  else if o = O.rst_cmd then s.rst.cmd != 0
  else if o = O.scrub_cmd then s.scrub.running
  else false

/-! ### Objects that show other state -/

def Cst.code : Cst → Nat
  | .free => 0
  | .configuring => 1
  | .active => 2
  | .quiescing => 3
  | .sweeping => 4

def Xst.code : Xst → Nat
  | .free => 0
  | .moored => 1
  | .closing => 2
  | .draining => 3
  | .recalling => 4

def Life.code : Life → Nat
  | .present => 0
  | .purging => 1
  | .absent => 2

/-- The frame of position `i` of an extent, with its mirror frame (R93). -/
def Ext.frameAt (x : Ext) (i : Nat) : Nat :=
  match x.frames[i]? with
  | none => 0
  | some f => f + (match x.mirrors[i]? with
    | some g => g * 2 ^ 18 + 2 ^ 36
    | none => 0)

/-- `frame_status` (R370). -/
def State.frameStatus (s : State) (f : Nat) : Nat :=
  if isJournal f then 4 else if !s.populated f then 0 else if s.withdrawn f then 3 else if (s.frame f).ext != 0 then 2 else 1

/-- A sweep record (R332, Table 5). -/
def Sweep.code (w : Sweep) : Nat := 2 ^ 63 + b2n w.rekey * 2 ^ 62 + w.ctx % 1024 * 2 ^ 52 + w.frame % 2 ^ 18 * 2 ^ 34 + w.mark % 2 ^ 20

/-- `key_state` (R480). -/
def State.keyBits (s : State) (c : Nat) : Nat :=
  let x := s.ctx c
  b2n (x.keys.1 != 0) + 2 * b2n (x.keys.2 != 0) + 4 * (x.active % 2) + 8 * b2n (x.hostKey != 0) + 16 * b2n x.rekeying

/-- The directory entries of a slice that meet a test. -/
def State.dirCount (s : State) (h : Nat) (p : Dir → Bool) : Nat := (s.coh.dir.filter (fun d => hsLine d.1 == h && p d.2)).length

/-- Milliseconds of the lease left (R683). -/
def State.leaseLeft (s : State) : Nat :=
  if s.ov O.lease_holder = 0 then 0 else ticksUs (s.ll.leaseAt + s.leaseTicks - s.ltc) / 1000

/-- `rec_state` (R571). -/
def State.recState (s : State) (h : Nat) : Nat :=
  let x := s.slc h
  if x.phase = 1 then 1 else if x.phase = 2 then 2 else if x.laggards != [] then 3 else 0

/-- The values of numeric objects that show other state, by object; each takes the session, the item and the place. -/
def numViews : List (Obj × (State → Nat → Nat → Nat → Nat)) := [
  (O.hs_phys, fun s _ _ b => s.unitRecord 0 b),
  (O.ct_phys, fun s _ _ b => s.unitRecord 1 b),
  (O.te_phys, fun s _ _ b => s.unitRecord 2 b),
  (O.hs_map, fun s _ _ b => s.physOf 0 b),
  (O.ct_map, fun s _ _ b => s.physOf 1 b),
  (O.te_map, fun s _ _ b => s.physOf 2 b),
  (O.chart_free, fun s _ _ _ => 524288 - ((List.range 1024).map (fun c => s.ov O.win_count c)).foldl (· + ·) 0),
  (O.frames_free_hbm, fun s _ _ _ => s.freeHbm),
  (O.frames_free_ddr, fun s _ _ _ => ((List.range 196608).filter (fun f => s.frameFree (4096 + f))).length),
  (O.ext_place, fun s _ _ _ => s.ov O.ext_place &&& 0xB1),
  (O.ext_cap, fun s _ _ _ => s.ov O.ext_cap % 32),
  (O.ext_state, fun s _ a _ => match s.liveExt a with
    | some x => x.st.code
    | none => 0),
  (O.ext_owner, fun s _ a _ => match s.liveExt a with
    | some x => x.owner
    | none => 0),
  (O.ext_frames, fun s _ a _ => match s.liveExt a with
    | some x => x.frames.length
    | none => 0),
  (O.ext_grant_epoch, fun s _ a _ => match s.liveExt a with
    | some x => x.epoch
    | none => 0),
  (O.ext_frame_at, fun s sess a _ => match s.liveExt a with
    | some x => x.frameAt (s.ov O.ext_frame_index sess)
    | none => 0),
  (O.extents, fun s _ a _ => (s.chart.exts.filter (fun p => p.2.st != .free && p.2.owner == a)).length),
  (O.outstanding, fun s _ a _ => (s.reqs.filter (fun r => r.h.agt == a && decide (r.port < 24))).length),
  (O.dir_used, fun s _ a _ => s.dirCount a (fun d => d.way)),
  (O.dir_group, fun s _ a _ => s.dirCount a (fun d => d.way && d.group)),
  (O.busy_lines, fun s _ a _ => s.slcTxns a),
  (O.acc_lines, fun s _ a _ => (s.coh.acc.filter (fun p => hsLine p.1 == a)).length),
  (O.acc_lines_dirty, fun s _ a _ => (s.coh.acc.filter (fun p => hsLine p.1 == a && (p.2.dirty || p.2.filling))).length),
  (O.fog_time, fun s _ _ b => s.ov O.fog_time 0 b + (if s.ob O.fog_state 0 b then ticksUs (s.ltc - Tab.get 0 s.dram.fogAt b) else 0)),
  (O.grant_records, fun s _ _ b => s.grantsAt b),
  (O.jobs_active, fun s _ _ _ => s.jobs.jobs.length)]

/-- The rest of the numeric views. -/
def numViews2 : List (Obj × (State → Nat → Nat → Nat → Nat)) := [
  (O.rcp_owner, fun s _ a _ => if (builtin a).isSome then 0x8000 else match Tab.get none s.jobs.rcps a with
    | some r => 0x4000 + r.ctx
    | none => 0),
  (O.migrations_active, fun s _ _ _ => s.migs.length),
  (O.sweeps_active, fun s _ _ _ => s.chart.sweeps.length),
  (O.sweeps_pending, fun s _ _ _ => s.sweepsPending),
  (O.sweep_rec, fun s _ a _ => match s.chart.sweeps.find? (fun p => p.1 == a) with
    | some p => p.2.code
    | none => 0),
  (O.pm_state, fun s _ a _ => match s.liveExt a with
    | some x => (x.peer.map (·.state)).getD 0
    | none => 0),
  (O.place_pending, fun s _ _ _ => (s.chart.frames.filter (fun p => p.2.target != 0 && p.2.target - 1 != tierOf p.1)).length),
  (O.place_blocked, fun s _ _ _ =>
    (s.placeable.filter (fun f => (s.moveDest f ((s.frame f).target - 1) (placeSecs f) []).isNone)).length),
  (O.frame_status, fun s _ a _ => s.frameStatus a),
  (O.frame_extent, fun s _ a _ => let x := (s.frame a).ext
    if x = 0 then 0 else (s.ext x).handle x),
  (O.frame_target, fun s _ a _ => (s.frame a).target),
  (O.merge_entries, fun s _ a _ => s.mergeCount a),
  (O.scrub_pos, fun s _ _ _ => s.scrub.pos),
  (O.ctx_state, fun s _ a _ => (s.ctx a).st.code),
  (O.frz_state, fun s _ a _ => b2n (s.agent a).frozen),
  (O.key_state, fun s _ a _ => s.keyBits a),
  (O.rekey_left, fun s _ a _ => s.rekeyLeft a),
  (O.dm_count, fun s _ a _ => (s.ctx a).dmCount),
  (O.retry_slots, fun s _ _ b => s.slotsUsed b),
  (O.fr_parked, fun s _ _ _ => (s.frecs.filter (fun r => r.req.isSome)).length + min 8192 s.islandQueue),
  (O.fr_unrouted, fun s _ _ _ => (s.frecs.filter (fun r => (s.ringOf r.ctx).isNone)).length),
  (O.agt_life, fun s _ a _ => (s.agent a).life.code),
  (O.lost_cause, fun s _ a _ => (s.agent a).cause),
  (O.rec_state, fun s _ a _ => s.recState a),
  (O.census_number, fun s _ a _ => (s.slc a).census),
  (O.status_code, fun s _ _ _ => s.status),
  (O.ltc, fun s _ _ _ => s.ltc % 2 ^ 64),
  (O.stepping, fun _ _ _ _ => Config.fused 3 % 65536),
  (O.lease_left, fun s _ _ _ => s.leaseLeft),
  (O.nv_pending, fun s _ _ _ => b2n (s.ll.nv != [])),
  (O.pool, fun s _ a b => let x := s.lport a
    credit x.credits b * 2 ^ 19 + credit x.drift b * 2 ^ 6)]

/-- Eight sharers of two bytes (R93). -/
def sharerBytes (l : List (Nat × Nat)) : Bytes := fitTo 16 (l.flatMap (fun p => natLe 2 (0x8000 + p.2 % 32 * 2 ^ 10 + p.1 % 1024)))

/-- A mask of CANs as 128 bytes (R571). -/
def canBytes (l : List Nat) : Bytes := natLe 128 (l.foldl (fun m c => setBit m (c % 1024)) 0)

/-- The record an event-log index shows: the newest record of that place in the ring (R593). -/
def State.logAt (s : State) (i : Nat) : Bytes :=
  match s.log.recs[(s.ov O.log_seq + 65535 - i) % 65536]? with
  | some r => r
  | none => zeros 32

/-- A text of a fixed length, padded with zeros (R652). -/
def text (n : Nat) (cs : List Nat) : Bytes := fitTo n (cs.map (BitVec.ofNat 8))

/-- The values of octet-string objects that show other state. -/
def octViews : List (Obj × (State → Nat → Nat → Nat → Bytes)) := [
  (O.ext_sharers, fun s _ a _ => match s.liveExt a with
    | some x => sharerBytes x.sharers
    | none => zeros 16),
  (O.rcp_image, fun s sess _ _ =>
    let n := s.ov O.rcp_select sess
    match builtin n with
    | some i => i
    | none => match Tab.get none s.jobs.rcps n with
      | some r => r.image
      | none => zeros 1024),
  (O.rcp_digest, fun s _ a _ => match builtin a with
    | some i => natLe 32 (Config.digest 1 0 i)
    | none => match Tab.get none s.jobs.rcps a with
      | some r => natLe 32 (Config.digest 1 0 r.image)
      | none => zeros 32),
  (O.frz_record, fun s _ a _ => (s.agent a).frz),
  (O.id_digest, fun _ _ _ _ => idDigest),
  (O.id_cert, fun _ _ _ _ => idCert),
  (O.ak_cert, fun s _ _ _ => s.akCert),
  (O.dm_value, fun s _ a _ => (s.ctx a).dm),
  (O.dm_log_at, fun s sess a _ => ((s.ctx a).dmLog[s.ov O.dm_log_index (a + 1024 * sess)]?).getD (zeros 64)),
  (O.laggards, fun s _ a _ => canBytes (s.slc a).laggards),
  (O.unresolved, fun s _ a _ => canBytes ((s.slc a).unres.map (·.1))),
  (O.log_at, fun s _ a _ => s.logAt a),
  (O.alert_at, fun s _ a _ => (s.log.alerts[a]?).getD (zeros 32)),
  (O.scrub_summary, fun s _ _ _ => s.scrub.bytes),
  (O.vendor, fun _ _ _ _ => text 16 [0x47, 0x72, 0x65, 0x6E, 0x76, 0x79]),
  (O.product, fun _ _ _ _ => text 16 [0x4D, 0x57, 0x32, 0x34, 0x30, 0x30]),
  (O.serial, fun _ _ _ _ => natLe 16 (Config.fused 4)),
  (O.mgmt_mac, fun _ _ _ _ => natLe 12 (Config.fused 5))]

/-- The value of a numeric object. -/
def State.numValue (s : State) (sess : Nat) (r : Ref) : Nat :=
  let a := s.itemOf sess r
  if r.o.ty = .cmd then s.ov r.o a r.sub % 2 ^ 31 + b2n (s.running r.o a) * 2 ^ 31
  else match (numViews ++ numViews2).find? (fun p => p.1 == r.o) with
    | some p => p.2 s sess a r.sub
    | none => s.ov r.o a r.sub

/-- The bytes an object reads as; an object that is only written reads as zeros (R11, R12). -/
def State.valueOf (s : State) (sess : Nat) (r : Ref) : Bytes :=
  if r.o.acc = .wo then zeros r.o.ty.len
  else match r.o.ty with
  | .oct n =>
    let a := s.itemOf sess r
    match octViews.find? (fun p => p.1 == r.o) with
    | some p => fitTo n (p.2 s sess a r.sub)
    | none => s.oct r.o a r.sub
  | t => natLe t.len (s.numValue sess r)

/-- A read of an object. A read of `dbg_nonce` issues a new nonce (R476). -/
def State.readObj (s : State) (sess : Nat) (r : Ref) : Bytes × State :=
  if r.o = O.dbg_nonce then s.dbgNonceRead else (s.valueOf sess r, s)

end Sys2Proof.Machine
end

