-- ==== Sys2Proof/Machine/Commands.lean ====
section
/-! DEFINITION. Sys2Proof/Machine/Commands.lean: what a write of an object does: the checks of its owning chapter, its effect, and the commands of
the CMD objects (R652-R654, R660, R661). Answers are statuses of R665 Table 5: 0 OK, 7 REJECTED, 8 BUSY. -/

namespace Sys2Proof.Machine

open Sys2Proof

/-! ### The lease (R661, R662) -/

/-- A principal of the lease has a session left: an LLP session, a mailbox whose PCIe link is up, or an MGT route (R662). -/
def State.hasSession (s : State) (who : Nat) : Bool :=
  s.ll.sess.any (fun p => decide (p.1 < 32) && p.2.who == who)
    || ((who == 3 || who == 4) && (s.ov O.pcie_link 0 (who - 3)).testBit 15)
    || (who == 5 && decide (s.ov O.fm_agent < 4096) && (s.reachPorts (s.ov O.fm_agent)).any s.portUp)

/-- The lease ends with its holder's last session. -/
def State.leaseCheck (s : State) : State := if s.hasSession (s.ov O.lease_holder) then s else s.setOv O.lease_holder 0

/-- The outcome of a session's lease command. -/
def State.leaseResult (s : State) (sess r : Nat) : State := s.setOv O.lease_result r sess

/-- The lease's timer starts anew. -/
def State.renewLease (s : State) : State := { s with ll := { s.ll with leaseAt := s.ltc } }

/-- ACQUIRE (1). -/
def State.leaseAcquire (s : State) (sess : Nat) : State :=
  let who := s.principal sess
  if who < 3 ∨ 5 < who then s.leaseResult sess 3
  else if s.ov O.lease_holder = 0 ∨ s.ov O.lease_holder = who ∨ !s.holds (s.ov O.lease_holder) then
    ((s.setOv O.lease_holder who).renewLease).leaseResult sess 0
  else s.leaseResult sess 1

/-- RENEW (2). -/
def State.leaseRenew (s : State) (sess : Nat) : State :=
  let who := s.principal sess
  if who < 3 ∨ 5 < who then s.leaseResult sess 3
  else if s.holds who then s.renewLease.leaseResult sess 0 else s.leaseResult sess 2

/-- RELEASE (3). -/
def State.leaseRelease (s : State) (sess : Nat) : State :=
  let who := s.principal sess
  if who < 3 ∨ 5 < who then s.leaseResult sess 3
  else if s.holds who then (s.setOv O.lease_holder 0).leaseResult sess 0 else s.leaseResult sess 2

/-- The lease expires (R662). -/
def State.leaseExpire (s : State) : State := s.setOv O.lease_holder 0

/-- An LLP session ends: its selectors, snapshot, assembly and subscriptions go with it (R660, R672). -/
def State.endSession (s : State) (n : Nat) : State :=
  if 32 ≤ n ∨ (s.llSess n).who = 0 then s
  else
    let s1 := (s.dropCopies (· == n)).setLlSess n LlSess.dflt
    ((s1.setOv O.llp_sessions (s1.ll.sess.filter (fun p => decide (p.1 < 32))).length).setOct O.llp_session_info (zeros 16) 0 n).leaseCheck

/-! ### Checks of values (R6, R652 and the object tables) -/

/-- The plain check of an object table: the value kept, or none where it is rejected. -/
def Chk.keep (v : Nat) : Chk → Option Nat
  | .any => some v
  | .upto n => if v ≤ n then some v else none
  | .rng lo hi => if lo ≤ v ∧ v ≤ hi then some v else none
  | .mask m => some (v &&& m)

/-- A power of two within limits. -/
def pow2In (lo hi v : Nat) : Bool := decide (lo ≤ v ∧ v ≤ hi) && v == 2 ^ Nat.log2 v

/-- A rate of R432: up to 3,125, or unlimited. -/
def rateOk (v : Nat) : Bool := decide (v ≤ 3125) || v == 0xFFFF

/-- The bound of R583 over every port, with one value replaced. -/
def State.linkBudget (s : State) (o : Obj) (port v : Nat) : Bool :=
  let get (x : Obj) (p : Nat) : Nat := if x = o ∧ p = port then v else s.ov x p
  let snoop := if o = O.snoop_timeout then v else s.ov O.snoop_timeout
  (List.range 24).all (fun p => decide (get O.rtx_limit p * get O.rtx_timer p + get O.port_loss_time p + snoop ≤ 850))

/-- A VF is bound to another context (R432). -/
def State.vfTaken (s : State) (c v : Nat) : Bool :=
  v % 256 != 0 && s.liveCtxs.any (fun d => d != c && s.ov O.ntf_func d == v)

/-- A write of `can_agent` (R144, R196): one CAN an agent, and a valid mapping changes only when its agent is ABSENT. -/
def State.canOk (s : State) (can v : Nat) : Bool :=
  let old := s.ov O.can_agent can
  let held := old.testBit 15 && old != v && (s.agent (old % 4096)).life != .absent
  let other := v.testBit 15 && (List.range 1024).any (fun c => c != can && s.canAgent c == some (v % 4096))
  !held && !other

/-- A binary32 value from `lo` to `hi`. -/
def f32In (lo hi v : Nat) : Bool := (v == lo || f32Lt lo v) && (v == hi || f32Lt v hi)

/-- The value a vector configuration keeps, with reserved bits zero (Table 11). -/
def vecValue (v : Nat) : Nat := v % 2 ^ 60 + bits v 62 2 * 2 ^ 62

/-- The fabric, link and DRAM objects whose check needs other state. -/
def State.checkA (s : State) (o : Obj) (a v : Nat) : Option Bool :=
  if o = O.snoop_bound then some (decide (1 ≤ v ∧ v ≤ 1000 ∧ v < s.ov O.snoop_timeout))
  else if o = O.snoop_timeout then some (decide (s.ov O.snoop_bound < v ∧ v ≤ 1000) && s.linkBudget o 0 v)
  else if o = O.rtx_timer ∨ o = O.rtx_limit ∨ o = O.port_loss_time then some (s.linkBudget o a v)
  else if o = O.fog_high then some (decide (s.ov O.fog_low < v))
  else if o = O.fog_low then some (decide (v < s.ov O.fog_high))
  else if o = O.wq_high then some (decide (v ≤ 64 ∧ s.ov O.wq_low < v))
  else if o = O.wq_low then some (decide (v < s.ov O.wq_high))
  else if o = O.retrain_force then some (decide (s.ov O.retrain_period ≤ v))
  else if o = O.hot_limit then some (f32In 0x428C0000 0x42D20000 v)
  else if o = O.fm_agent then some (decide (v ≤ 4095 ∨ v = 0xFFFF))
  else if o = O.can_agent then some (s.canOk a (v &&& 0x8FFF))
  else if o = O.int8_scale then some (decide (bits v 23 8 ≠ 255))
  else if o = O.fc_target ∨ o = O.fc_ref then some (decide (v ≤ 0x10))
  else if o = O.place_target then some (decide (v ≤ 2))
  else none

/-- The ring, job and context objects whose check needs other state. -/
def State.checkB (s : State) (o : Obj) (a v : Nat) : Bool :=
  if o = O.strip_elems then decide (v % 256 = 0 ∧ 256 ≤ v ∧ v ≤ 65536)
  else if o = O.jq_base then decide (v % 4096 = 0) && !s.ob O.jq_enable a && (s.queueJobs (a / 4) (a % 4)).isEmpty
  else if o = O.jq_size then pow2In 16 32768 v && !s.ob O.jq_enable a && (s.queueJobs (a / 4) (a % 4)).isEmpty
  else if o = O.tr_base then decide (v % 4096 = 0) && !s.ob O.tr_enable a && (s.tends.ops.all (fun x => x.ring != a))
  else if o = O.tr_size then pow2In 16 4096 v && !s.ob O.tr_enable a && (s.tends.ops.all (fun x => x.ring != a))
  else if o = O.fr_base then decide (v % 4096 = 0) && !s.ob O.fr_enable a
  else if o = O.fr_port then !s.ob O.fr_enable a
  else if o = O.ntf_ring_base then decide (v % 4096 = 0) && !s.ob O.ntf_ring_en a
  else if o = O.ntf_ring_size then pow2In 16 4096 v && !s.ob O.ntf_ring_en a
  else if o = O.ntf_func then !s.vfTaken a (v % 512)
  else if o = O.ntf_vec then decide (v / 2 ^ 62 ≠ 3 ∧ v % 8 = 0) && !(v / 2 ^ 62 == 1 && s.ov O.ntf_func a % 256 == 0)
  else if o = O.cir then rateOk v && decide (v ≤ s.ov O.pir a)
  else if o = O.pir then rateOk v && decide (s.ov O.cir a ≤ v)
  else if o = O.shp_rate then rateOk v
  else if o = O.enclave then (s.ctx a).st == .configuring
  else true

/-- The bits an object keeps of an accepted value, where some are reserved (R5). -/
def keptBits (o : Obj) (v : Nat) : Nat :=
  if o = O.can_agent then v &&& 0x8FFF
  else if o = O.jq_base then v % 2 ^ 48
  else if o = O.ntf_func then (if v % 256 = 0 then 0 else v % 512)
  else if o = O.ntf_vec then vecValue v
  else v

/-- The value a write of a numeric object keeps, or none where it is rejected. -/
def State.checked (s : State) (sess : Nat) (r : Ref) (v : Nat) : Option Nat :=
  let a := s.itemOf sess r
  let moored := match s.liveExt (s.selected sess r) with
    | some x => x.st == .moored
    | none => false
  if r.o.ty = .bool ∧ 1 < v then none
  else if r.o = O.int8_scale ∧ !moored then none
  else match r.o.chk.keep v with
    | none => none
    | some w =>
      let ok := match s.checkA r.o a w with
        | some b => b
        | none => s.checkB r.o a w
      if ok then some (keptBits r.o w) else none

/-! ### Commands of the CMD objects -/

/-- An outcome that the owning chapter may refuse: REJECTED leaves everything as it was. -/
def accepted (s : State) (q : Bool × State) : Nat × State := if q.1 then (0, q.2) else (7, s)

/-- An argument that only some values may have. -/
def oneOf (s : State) (v n : Nat) (f : Nat → State) : Nat × State := if 1 ≤ v ∧ v ≤ n then (0, f v) else (7, s)

/-- Pool, job and DRAM commands. `a` is the item shown by the session's selector. -/
def State.commandA (s : State) (sess : Nat) (o : Obj) (a sel v : Nat) : Option (Nat × State) :=
  if o = O.ext_op then some (if 1 ≤ v ∧ v ≤ 5 then accepted s (s.extOp v) else (7, s))
  else if o = O.grant_issue then some (accepted s s.grantIssue)
  else if o = O.rcp_op then some (oneOf s v 2 (fun n => if n = 1 then s.recipeLoad sess else s.recipeUnload sel))
  else if o = O.pm_resync then some (if v = 1 then accepted s (s.startResync a) else (7, s))
  else if o = O.place_cmd then some (oneOf s v 1 (fun _ => s.place))
  else if o = O.dcp_cmd then some (oneOf s v 4 (fun n =>
    let slot := s.ov O.dcp_slot a
    if n = 1 then s.offline a else if n = 2 then s.pwrOff a slot else if n = 3 then s.pwrOn a slot else s.online a))
  else if o = O.hbch_fence then some (accepted s (s.hbchFence (v % 4) (bits v 8 5)))
  else if o = O.scrub_cmd then some (
    if v = 1 then
      let q := s.scrubStart
      if q.1 = 2 then (8, s) else (0, q.2)
    else if v = 2 then (0, s.scrubCancel) else (7, s))
  else if o = O.agt_fence then some (if v = 1 then accepted s (s.agtFence a) else (7, s))
  else if o = O.agt_rejoin then some (if v = 1 then accepted s (s.agtRejoin a) else (7, s))
  else if o = O.unk_release then some (0, s.unkRelease a (v % 1024))
  else if o = O.frz_release then some (if v = 1 then accepted s (s.frzRelease a) else (7, s))
  else if o = O.fr_repost then some (if v = 1 then accepted s (s.frRepost (s.ov O.fr_repost_ctx)) else (7, s))
  else if o = O.port_cmd then some (
    if v = 1 then accepted s (s.portFence a) else if v = 2 then accepted s (s.portRepair a)
    else if v = 3 then accepted s (s.portRetrain a) else if v = 4 then (0, s.portRestart a) else (7, s))
  else none

/-- Context, security, unit, reset and clock commands. -/
def State.commandB (s : State) (sess : Nat) (o : Obj) (a v : Nat) (k : Vouch) : Nat × State :=
  if o = O.ctx_cmd then oneOf s v 4 (fun n =>
    if n = 1 then s.ctxAlloc a else if n = 2 then s.ctxActivate a else if n = 3 then s.ctxReset a else s.ctxFree a)
  else if o = O.ntf_raise then (0, s.ntfRaise a v)
  else if o = O.key_cmd then oneOf s v 2 (fun n => if n = 1 then s.generate a else s.rekey a)
  else if o = O.ctx_att_cmd then oneOf s v 1 (fun _ => s.attest a)
  else if o = O.att_cmd then oneOf s v 1 (fun _ => s.attest noCtx)
  else if o = O.lc_cmd then oneOf s v 3 (fun n => if n = 1 then s.enterService else if n = 2 then s.enterMaintenance else s.decommission)
  else if o = O.arb_commit then accepted s s.arbCommit
  else if o = O.link_release then accepted s (s.linkRelease (v % 32))
  else if o = O.set_cmd then oneOf s v 2 (fun n => if n = 1 then s.setForm a else s.setDestroy a)
  else if o = O.unit_cmd then oneOf s v 3 (fun n =>
    let kind := s.ov O.unit_kind
    let p := s.ov O.unit_phys
    if n = 1 then s.cmdFence kind p else if n = 2 then s.cmdRepair kind p else s.cmdSwap kind p (s.ov O.unit_swap_to))
  else if o = O.keeper_cmd then (if v = 1 then accepted s s.keeperSwap else if v = 2 then accepted s s.keeperRepair else (7, s))
  else if o = O.fw_cmd then (
    if v = 1 then (0, s.fwErase) else if v = 2 then (0, s.fwVerify k.sig)
    else if v = 3 then
      let q := s.fwActivate
      (0, if q.1 then { q.2 with rst := { q.2.rst with cmd := 1 } } else q.2)
    else (7, s))
  else if o = O.rst_cmd then oneOf s v 2 (fun n => { s with rst := { s.rst with cmd := n } })
  else if o = O.root_cmd then (if v = 1 then accepted s s.rootCmd else (7, s))
  else if o = O.fc_cmd then (if v = 1 then accepted s s.fcStart else (7, s))
  else if o = O.lease_cmd then oneOf s v 3 (fun n =>
    if n = 1 then s.leaseAcquire sess else if n = 2 then s.leaseRenew sess else s.leaseRelease sess)
  else (7, s)

/-- A write of a CMD object: the argument is kept, and the command carried out. -/
def State.writeCmd (s : State) (sess : Nat) (r : Ref) (v : Nat) (k : Vouch) : Nat × State :=
  let a := s.itemOf sess r
  let s1 := s.setOv r.o v a r.sub
  let q := match s1.commandA sess r.o a (s.selected sess r) v with
    | some x => x
    | none => s1.commandB sess r.o a v k
  if q.1 = 0 then q else (q.1, s)

/-! ### Writes of other objects -/

/-- A class N object is written: what it held is what comes back if power fails before flash holds the new value (R654). -/
def State.noteNv (s : State) (r : Ref) (a : Nat) : State :=
  if r.o.cls = .n then
    let key := r.o.key a r.sub
    let x : NvOld := match r.o.ty with
      | .oct _ => ⟨key, true, 0, 0, s.oct r.o a r.sub⟩
      | _ => ⟨key, false, r.o.dflt, s.ov r.o a r.sub, []⟩
    { s with ll := { s.ll with nv := s.ll.nv ++ [x] } }
  else s

/-- Waiting fault records are routed anew (R529). -/
def State.reroutRecs (s : State) : State := s.frecs.foldl (fun t r => t.postWaiting r.ctx) s

/-- The numeric objects whose write does more than keep the value; a refusal answers none. -/
def State.effect (s : State) (sess : Nat) (r : Ref) (a v : Nat) : Option (Option State) :=
  let may (q : Bool × State) : Option (Option State) := some (if q.1 then some q.2 else none)
  if r.o = O.binding then may (s.writeBinding a r.sub v)
  else if r.o = O.win_base then may (s.writeGeometry a 0 v)
  else if r.o = O.win_count then may (s.writeGeometry a 1 v)
  else if r.o = O.jq_enable then some (some (s.jqEnable a v))
  else if r.o = O.jq_base ∨ r.o = O.jq_size then some (some (((s.setOv r.o v a).setOv O.jq_head 0 a).setOv O.jq_tail 0 a))
  else if r.o = O.tr_base ∨ r.o = O.tr_size then some (some (((s.setOv r.o v a).setOv O.tr_head 0 a).setOv O.tr_tail 0 a))
  else if r.o = O.tr_enable then some (some (s.trEnable a v))
  else if r.o = O.pstate_target then may (s.setTarget3 v (decide (sess < 32)))
  else if r.o = O.fog_high ∨ r.o = O.fog_low then some (some ([0, 1, 2, 3].foldl State.foghorn (s.setOv r.o v)))
  else if r.o = O.reach_mask then some (some (s.setOv r.o v a).sendAllQueries.leaseCheck)
  else if r.o = O.fm_agent then some (some (s.setOv r.o v a r.sub).leaseCheck)
  else if r.o = O.log_ack then some (some (s.logAck v))
  else if r.o = O.fr_overflow then some (some (if v = 1 then s.setOv r.o 0 a else s))
  else if r.o = O.rst_cause then some (some (s.setOv r.o (s.ov r.o - (s.ov r.o &&& v &&& 0x3FF9))))
  else if r.o = O.owner_port ∨ r.o = O.fr_enable then some (some (s.setOv r.o v a r.sub).reroutRecs)
  else none

/-- A write of a numeric object. -/
def State.writeNum (s : State) (sess : Nat) (r : Ref) (v : Nat) : Nat × State :=
  let a := s.itemOf sess r
  match s.checked sess r v with
  | none => (7, s)
  | some w =>
    let s1 := s.noteNv r a
    match s1.effect sess r a w with
    | some (some t) => (0, t)
    | some none => (7, s)
    | none => (0, s1.setOv r.o w a r.sub)

/-- A write of `int8_scale` for an extent (R243). -/
def State.int8Write (s : State) (handle v : Nat) : State :=
  match s.liveExt handle with
  | some x => if x.st == .moored && decide (bits v 23 8 ≠ 255) then s.setOv O.int8_scale (v % 2 ^ 32) (handle % 65536) else s
  | none => s

/-- A write of `llp_client` (R656, R672, R683): a changed or cleared entry ends its sessions. -/
def State.writeClient (s : State) (n : Nat) (bs : Bytes) : Nat × State :=
  if 5 < byteAt bs 32 then (7, s)
  else
    let v := splice 36 (zeros 4) (splice 33 [0] bs)
    if v = s.oct O.llp_client 0 n then (0, s)
    else (0, ((List.range 32).filter (fun i => (s.llSess i).who != 0 && (s.llSess i).client == n)).foldl State.endSession
      (s.setOct O.llp_client v 0 n))

/-- A write of an octet string. -/
def State.writeOct (s : State) (sess : Nat) (r : Ref) (bs : Bytes) (k : Vouch) : Nat × State :=
  let a := s.itemOf sess r
  let s1 := s.noteNv r a
  if r.o = O.dm_extend then (0, s.dmExtend a bs)
  else if r.o = O.dbg_token then (0, s.dbgToken bs k)
  else if r.o = O.fw_block then accepted s (s.fwBlock bs)
  else if r.o = O.dbg_owner_digest then
    (if s.oct r.o = zeros 32 then (0, s1.setOct r.o bs) else (7, s))
  else if r.o = O.llp_client then
    (let q := s1.writeClient r.sub bs
     if q.1 = 0 then q else (7, s))
  else if r.o = O.ext_peer then (0, s1.setOct r.o (splice 6 (zeros 2) bs) a r.sub)
  else (0, s1.setOct r.o bs a r.sub)

/-- A write of a whole value that has passed the checks of R665 before REJECTED; it is a wake event (R638). -/
def State.writeObj (s : State) (sess : Nat) (r : Ref) (bs : Bytes) (k : Vouch) : Nat × State :=
  let t := if r.o = O.pstate_target then s else s.wake
  match r.o.ty with
  | .oct _ => t.writeOct sess r bs k
  | .cmd => t.writeCmd sess r (leNat bs) k
  | _ => t.writeNum sess r (leNat bs)

/-- BUSY: the command still runs, or the object belongs to the group of `ext_op`, which runs one command at a time (R653). `ctx_cmd` and `key_cmd`
answer in their result objects, and a scrub is cancelled while it runs. -/
def State.busyWrite (s : State) (sess : Nat) (r : Ref) (v : Nat) : Bool :=
  if r.o = O.ctx_cmd ∨ r.o = O.key_cmd ∨ (r.o = O.scrub_cmd ∧ v = 2) then false
  else if r.o.index = 0x6010 ∧ r.o.scope = .dev then s.chart.extBusy
  else r.o.ty == .cmd && s.running r.o (s.itemOf sess r)

end Sys2Proof.Machine
end

