-- ==== Sys2Proof/Machine/LightList.lean ====
section
/-! DEFINITION. Sys2Proof/Machine/LightList.lean: messages of the Light List and their three routes (R663-R681): the checks of an item, blocks,
subscriptions, LLP sessions and datagrams, the PCIe mailbox and the MGT channel. -/

namespace Sys2Proof.Machine

open Sys2Proof

/-! ### Items (R664, R665, R667) -/

/-- What the message in progress carries for every item: its session, whether its principal held the lease when it began (R663), whether its
writes are refused with ROLE (a frozen agent), whether every item is, and what the key store finds. -/
structure MsgCtx where
  sess : Nat
  op : Bool
  noWrite : Bool
  noRole : Bool
  vouch : Vouch
deriving Repr

/-- R675: what LLP serves in P3. -/
def State.asleep (s : State) (sess : Nat) (write : Bool) (o : Obj) : Bool :=
  let inRange := o.scope == .dev && (decide (0x1000 ≤ o.index ∧ o.index ≤ 0x11FF) || decide (0x2000 ≤ o.index ∧ o.index ≤ 0x22FF)
    || decide (0x9000 ≤ o.index ∧ o.index ≤ 0x90FF) || decide (0xA000 ≤ o.index ∧ o.index ≤ 0xA0FF))
  s.ov O.pstate == 3 && decide (sess < 32)
    && !(if write then o == O.pstate_target else o.cls == .n || o.cls == .s || inRange)

/-- ROLE (R657-R659), with what the mailbox reaches in ROM recovery (R679), and agents that are frozen or lie behind a pool node (R681). -/
def State.roleStop (s : State) (c : MsgCtx) (write : Bool) (r : Ref) (v : Nat) : Bool :=
  if s.rst.recovery then decide (c.sess < 32 ∨ 34 ≤ c.sess) || r.o.index != 0xA040 || r.o.scope != .dev
  else if c.noRole ∨ (write ∧ c.noWrite) then true
  else if write then s.mayWrite c.sess c.op r v == 3 else !s.mayRead c.sess r

/-- LEASE; in ROM recovery the firmware-writing objects need none (R447). -/
def State.leaseStop (s : State) (c : MsgCtx) (r : Ref) (v : Nat) : Bool :=
  !s.rst.recovery && s.mayWrite c.sess c.op r v == 5

/-- The whole value's length is wrong, or the block passes its end. -/
def lengthStop (op : Nat) (n : Nat) (x : LlItem) : Bool :=
  if op = 1 then x.length != 0
  else if op = 2 then x.length != n
  else if op = 5 then x.length != 2
  else if op = 3 ∨ op = 4 then decide (1024 < x.length ∨ n < x.off + x.length)
  else false

/-- The bytes of the assembly that a block of a WRITE_BLOCK goes on from (R667): the argument that decides a role is that of all of them. -/
def State.begun (s : State) (sess op : Nat) (x : LlItem) : Bytes :=
  match (s.llSess sess).asm with
  | some (sc, ix, sb, bs) =>
    if op = 4 ∧ sc = x.scope ∧ ix = x.index ∧ sb = x.sub ∧ x.off ≠ 0 ∧ bs.length = x.off then bs else []
  | none => []

/-- The checks of Table 5 up to BUSY: 0 where none stops the item. -/
def State.stops (s : State) (c : MsgCtx) (op : Nat) (r : Ref) (x : LlItem) : Nat :=
  let write := op == 2 || op == 4
  let v := leNat (s.begun c.sess op x ++ x.val)
  if s.roleStop c write r v then 3
  else if write && r.o.acc == .ro then 4
  else if write && s.leaseStop c r v then 5
  else if lengthStop op r.o.ty.len x then 6
  else if s.asleep c.sess write r.o then 9
  else if write && s.busyWrite c.sess r v then 8
  else 0

/-- READ_BLOCK (R667). -/
def State.readBlock (s : State) (sess : Nat) (r : Ref) (x : LlItem) : Nat × Bytes × State :=
  if x.off = 0 then
    let q := s.readObj sess r
    (0, slice 0 x.length q.1,
      q.2.setLlSess sess { q.2.llSess sess with snap := some (x.scope, x.index, x.sub, q.1) })
  else match (s.llSess sess).snap with
    | some (sc, ix, sb, bs) =>
      if sc = x.scope ∧ ix = x.index ∧ sb = x.sub then (0, slice x.off x.length bs, s) else (7, [], s)
    | none => (7, [], s)

/-- WRITE_BLOCK (R667): the assembly grows, and the object is written when it is whole. -/
def State.writeBlock (s : State) (c : MsgCtx) (r : Ref) (x : LlItem) : Nat × State :=
  let y := s.llSess c.sess
  let have0 : Option Bytes := if x.off = 0 then some []
    else match y.asm with
      | some (sc, ix, sb, bs) => if sc = x.scope ∧ ix = x.index ∧ sb = x.sub ∧ bs.length = x.off then some bs else none
      | none => none
  match have0 with
  | none => (7, s.setLlSess c.sess { y with asm := none })
  | some bs =>
    let all := bs ++ x.val
    if all.length < r.o.ty.len then (0, s.setLlSess c.sess { y with asm := some (x.scope, x.index, x.sub, all) })
    else (s.setLlSess c.sess { y with asm := none }).writeObj c.sess r all c.vouch

/-- SUBSCRIBE (R674): LLP only, objects of at most 64 bytes, 16 to a session. -/
def State.subscribe (s : State) (sess : Nat) (r : Ref) (x : LlItem) : Nat × State :=
  let y := s.llSess sess
  let rest := y.subs.filter (fun u => !(u.scope == x.scope && u.index == x.index && u.sub == x.sub))
  if 32 ≤ sess ∨ 64 < r.o.ty.len ∨ 16 ≤ rest.length then (7, s)
  else (0, s.setLlSess sess { y with
    subs := rest ++ [⟨x.scope, x.index, x.sub, leNat x.val, s.valueOf sess r, s.ltc, none, 0⟩] })

/-- UNSUBSCRIBE. -/
def State.unsubscribe (s : State) (sess : Nat) (x : LlItem) : State :=
  let y := s.llSess sess
  s.setLlSess sess { y with subs := y.subs.filter (fun u => !(u.scope == x.scope && u.index == x.index && u.sub == x.sub)) }

/-- One item: its status, its answer's value, and the state after. -/
def State.item (s : State) (c : MsgCtx) (op : Nat) (x : LlItem) : Nat × Bytes × State :=
  match resolve x.scope x.index x.sub with
  | .error e => (e, [], s)
  | .ok r =>
    let st := s.stops c op r x
    if st ≠ 0 then (st, [], s)
    else match op with
      | 1 =>
        let q := s.readObj c.sess r
        (0, q.1, q.2)
      | 2 =>
        let q := s.writeObj c.sess r x.val c.vouch
        (q.1, [], q.2)
      | 3 => s.readBlock c.sess r x
      | 4 =>
        let q := s.writeBlock c r x
        (q.1, [], q.2)
      | 5 =>
        let q := s.subscribe c.sess r x
        (q.1, [], q.2)
      | _ => (0, [], s.unsubscribe c.sess x)

/-! ### Bodies (R664) -/

/-- The bytes of an answer's item. -/
def itemBytes (op : Nat) (x : LlItem) (st : Nat) (val : Bytes) : Bytes :=
  natLe 2 (x.scope % 2048) ++ natLe 2 x.index ++ natLe 1 x.sub ++ natLe 1 st ++ natLe 2 val.length
    ++ (if op = 3 ∨ op = 4 then natLe 4 x.off else []) ++ val

/-- A message's head. -/
def msgHead (op mstatus count : Nat) : Bytes := natLe 1 op ++ natLe 1 mstatus ++ natLe 2 count ++ zeros 4

/-- The items of a message in order (R666). -/
def State.items (s : State) (c : MsgCtx) (op : Nat) : List LlItem → Bytes × State
  | [] => ([], s)
  | x :: t =>
    let q := s.item c op x
    let rest := q.2.2.items c op t
    (itemBytes op x q.1 q.2.1 ++ rest.1, rest.2)

/-- The largest body of a session's route (R665, Table 6). -/
def routeLimit (sess : Nat) : Nat := if sess < 32 then 1192 else if sess < 34 then 4032 else 256

/-- Read `n` items from a body; the scope is [10:0] of its bytes. -/
def parseItems (op : Nat) : Nat → Bytes → Option (List LlItem)
  | 0, bs => if bs = [] then some [] else none
  | n + 1, bs =>
    let block := op == 3 || op == 4
    let head := if block then 12 else 8
    let len := leNat (slice 6 2 bs)
    let carried := if op = 3 then 0 else len
    if bs.length < head + carried then none
    else
      let x : LlItem := ⟨leNat (slice 0 2 bs) % 2048, leNat (slice 2 2 bs), leNat (slice 4 1 bs),
        if block then leNat (slice 8 4 bs) else 0, len, slice head carried bs⟩
      (parseItems op n (bs.drop (head + carried))).map (fun t => x :: t)

/-- A request body by Tables 3, 4 and 6: its operation and items, or none where it breaks them. -/
def parseBody (sess : Nat) (body : Bytes) : Option (Nat × List LlItem) :=
  let op := byteAt body 0
  let n := leNat (slice 2 2 body)
  if body.length < 8 ∨ routeLimit sess < body.length then none
  else if op = 7 ∨ op = 9 then (if n = 0 ∧ body.length = 8 then some (op, []) else none)
  else if 1 ≤ op ∧ op ≤ 6 ∧ 1 ≤ n ∧ n ≤ 64 then (parseItems op n (body.drop 8)).map (fun l => (op, l))
  else none

/-! ### Carrying out a message (R663, R666, R681) -/

/-- The partner of a port is an MW2400 (R681). -/
def State.nodeAt (s : State) (p : Nat) : Bool := leNat ((s.oct O.link_partner 0 p).take 1) == 1

/-- A message that writes a device-scope object (R662). -/
def writesDevice (op : Nat) (l : List LlItem) : Bool := (op == 2 || op == 4) && l.any (fun x => x.scope == 0x400)

/-- Carry out a message: the answer's body and the state after. A message whose answer would pass the route's limit is answered with BAD_MSG. -/
def State.carry (s : State) (sess port op : Nat) (l : List LlItem) (k : Vouch) : Bytes × State :=
  let oper := s.holds (s.principal sess)
  let s1 := if oper ∧ writesDevice op l then s.renewLease else s
  let c : MsgCtx := ⟨sess, oper, decide (64 ≤ sess) && (s.agent (sess - 64)).frozen, decide (64 ≤ sess) && s.nodeAt port, k⟩
  let q := s1.items c op l
  if routeLimit sess < 8 + q.1.length then (msgHead op 0xA 0, q.2) else (msgHead op 0 l.length ++ q.1, q.2)

/-- Send a body over an LLP session, under the session's next counter (R670), keeping an answer by its message number (R673). -/
def State.llpSend (s : State) (n msg : Nat) (keep : Bool) (body : Bytes) : State :=
  let x := s.llSess n
  let ans := if keep then (x.answers ++ [(msg, body)]).drop (x.answers.length + 1 - 64) else x.answers
  (s.setLlSess n { x with sent := x.sent + 1, answers := ans }).emit (.llp n (x.sent + 1) msg body)

/-- The answer of a mailbox (R678). -/
def State.boxAnswer (s : State) (p : Nat) (body : Bytes) : State :=
  let x := Tab.get ⟨false, false, 0, 0, zeros 4032⟩ s.ll.boxes p
  let y : Mbox := { x with busy := false, ready := true, ansLen := body.length, buf := splice 0 body x.buf }
  { s.emit (.mailbox p body) with ll := { s.ll with boxes := Tab.put ⟨false, false, 0, 0, zeros 4032⟩ s.ll.boxes p y } }

/-- An LLM header (Table 10). -/
def packLlm (tag agt dir len : Nat) : Nat :=
  0x2B * 2 ^ 250 + tag % 4096 * 2 ^ 238 + agt % 4096 * 2 ^ 226 + dir * 2 ^ 225 + len % 512 * 2 ^ 216

/-- The answer of an LLM leaves by its arrival port, or by R132 if that has been lost; while no port serves it waits as a completion does
(R681). -/
def State.llmAnswer (s : State) (agt tag port : Nat) (body : Bytes) : State :=
  s.send ((s.cmpRoute port agt none).getD port)
    { chan := 4, hdr := packLlm tag agt 1 body.length, slots := toSlots body, agt := agt, arrival := port }

/-- The answer goes back by the session's route. -/
def State.answerTo (s : State) (sess msg port : Nat) (body : Bytes) : State :=
  if sess < 32 then s.llpSend sess msg true body
  else if sess < 34 then s.boxAnswer (sess - 32) body
  else s.llmAnswer (sess - 64) msg port body

/-- The Keepers serve messages: no episode runs, and firmware runs or the ROM recovers (R616, R679). -/
def State.llReady (s : State) : Bool := s.rst.reach == 0 && (s.rst.stage == 4 || s.rst.recovery)

/-- A well-formed message of a session: carried out and answered, or kept until the Keepers serve again, at most 8 of a session (R665). A
message sent again while the first waits is answered with that one (R673). -/
def State.serveMsg (s : State) (sess msg port op : Nat) (l : List LlItem) (k : Vouch) : State :=
  let mine := s.ll.waits.filter (fun w => w.sess == sess)
  if s.principal sess = 0 ∨ (sess < 32 ∧ s.rst.recovery) then s
  else if !s.llReady then
    if sess < 32 ∧ mine.any (fun w => w.msg == msg) then s
    else if 8 ≤ mine.length then s.answerTo sess msg port (msgHead op 8 0)
    else { s with ll := { s.ll with waits := s.ll.waits ++ [⟨sess, msg, port, op, l, k, false⟩] } }
  else
    let q := s.carry sess port op l k
    q.2.answerTo sess msg port q.1

/-- ACK (R674): the EVENT of that number is acknowledged. -/
def State.llAck (s : State) (sess msg : Nat) : State :=
  let x := s.llSess sess
  s.setLlSess sess { x with subs := x.subs.map (fun u => if u.msg = some msg then { u with msg := none } else u) }

/-- A message by its body, broken ones answered with BAD_MSG (R665). An ACK has no answer. -/
def State.message (s : State) (sess msg port : Nat) (body : Bytes) (k : Vouch) : State :=
  match parseBody sess body with
  | none => s.answerTo sess msg port (msgHead (byteAt body 0) 0xA 0)
  | some (9, _) => s.llAck sess msg
  | some (op, l) => s.serveMsg sess msg port op l k

/-- A message that waited is carried out; one whose route or agent was lost meanwhile has its answer discarded (R679, R681). -/
def State.serveWait (s : State) (w : LlWait) : State :=
  if w.mute then (s.carry w.sess w.port w.op w.items w.vouch).2 else s.serveMsg w.sess w.msg w.port w.op w.items w.vouch

/-- The messages kept while the Keepers could not serve are carried out in order (R616). -/
def State.serveWaits (s : State) : State :=
  if !s.llReady then s else s.ll.waits.foldl State.serveWait { s with ll := { s.ll with waits := [] } }

/-! ### Subscriptions (R674) -/

/-- An EVENT body: one item with the current value. -/
def State.eventBody (s : State) (sess : Nat) (u : Sub) : Bytes × Bytes :=
  let v := match resolve u.scope u.index u.sub with
    | .ok r => s.valueOf sess r
    | .error _ => []
  (msgHead 8 0 1 ++ itemBytes 8 ⟨u.scope, u.index, u.sub, 0, 0, []⟩ 0 v, v)

/-- Send the value of subscription `i` as EVENT number `msg`. -/
def State.sendEvent (s : State) (sess i msg : Nat) (u : Sub) : State :=
  let b := s.eventBody sess u
  let x := s.llSess sess
  (s.setLlSess sess { x with
    subs := x.subs.set i { u with last := b.2, at_ := s.ltc, msg := some msg, sentAt := s.ltc } }).llpSend sess msg false b.1

/-- The 1 ms comparison of one subscription. -/
def State.checkSub (s : State) (sess : Nat) (i : Nat) : State :=
  let x := s.llSess sess
  match x.subs[i]? with
  | none => s
  | some u =>
    if (s.eventBody sess u).2 = u.last ∨ s.ltc < u.at_ + usTicks (1000 * u.every) then s
    else (s.setLlSess sess { x with nextEv := x.nextEv + 1 }).sendEvent sess i (x.nextEv + 1) u

/-- The 1 ms comparison of a session's subscriptions. -/
def State.checkSubs (s : State) (sess : Nat) : State :=
  if 32 ≤ sess ∨ (s.llSess sess).who = 0 then s
  else (List.range (s.llSess sess).subs.length).foldl (fun t i => t.checkSub sess i) s

/-- An EVENT not acknowledged is sent again with the latest value. -/
def State.resendEvent (s : State) (sess msg : Nat) : State :=
  if 32 ≤ sess then s
  else
    let l := (s.llSess sess).subs
    match l.findIdx? (fun u => u.msg == some msg) with
    | none => s
    | some i => match l[i]? with
      | none => s
      | some u => s.sendEvent sess i msg u

/-! ### LLP (R668-R673) -/

/-- A handshake message to a client address. -/
def State.llpHs (s : State) (addr kind : Nat) (body : Bytes) : State := s.emit (.llpHs kind addr (natLe 1 kind ++ zeros 3 ++ body))

def LlHs.dflt : LlHs := ⟨[], 0, 0, 0, [], [], 0, 0⟩

def State.setHs (s : State) (addr : Nat) (h : LlHs) : State := { s with ll := { s.ll with hs := Tab.ins addr h s.ll.hs } }

/-- A handshake ends; its cookie stays good for the 10 s of Table 8. -/
def State.dropHs (s : State) (addr : Nat) : State :=
  let h := Tab.get LlHs.dflt s.ll.hs addr
  { s with ll := { s.ll with hs := Tab.put LlHs.dflt s.ll.hs addr { LlHs.dflt with
      cookie := h.cookie, cookieAt := h.cookieAt, step := min h.step 1 } } }

/-- A refusal, counted as a failed handshake (R671, R672). -/
def State.llpRefuse (s : State) (addr reason : Nat) : State :=
  ((s.dropHs addr).bump O.llp_hs_failures).emit
    (.llpHs 6 addr (natLe 1 6 ++ natLe 1 reason ++ zeros 2))

/-- The entry of `llp_client` with a key digest and a principal. -/
def State.clientOf (s : State) (digest : Bytes) : Option Nat :=
  (List.range 64).find? (fun i =>
    let e := s.oct O.llp_client 0 i
    e.take 32 == digest && byteAt e 32 != 0)

/-- Steps 1 to 3 (R669, R671). -/
def State.ssHello (s : State) (addr : Nat) (body : Bytes) : State :=
  if !s.llReady ∨ s.rst.recovery then s
  else
    let h := Tab.get LlHs.dflt s.ll.hs addr
    let cookie := slice 4 16 body
    if body.length < 20 ∨ byteAt body 0 ≠ 1 then s.llpRefuse addr 5
    else if cookie = zeros 16 then
      let q := s.freeBytes 16
      (q.2.setHs addr { LlHs.dflt with cookie := q.1, cookieAt := q.2.ltc, step := 1, startAt := q.2.ltc }).llpHs addr 2 q.1
    else if h.step = 0 ∨ cookie ≠ h.cookie ∨ h.cookieAt + usTicks 10000000 < s.ltc then s.llpRefuse addr 6
    else if body.length ≠ 1652 then s.llpRefuse addr 5
    else match s.clientOf (slice 20 32 body) with
      | none => s.llpRefuse addr 2
      | some n =>
        if 32 ≤ (s.ll.sess.filter (fun p => decide (p.1 < 32))).length then s.llpRefuse addr 1
        else
          let q := s.freeBytes 32
          let ct := q.2.freeBytes 1568
          let cf := ct.2.freeBelow (2 ^ 256)
          let certs := idCert ++ cf.2.akCert
          let reply := q.1 ++ ct.1 ++ natLe 4 certs.length ++ certs
          let sig := cf.2.sign 49856 (sha body)
          (cf.2.setHs addr { h with
            step := 3, client := n, digest := slice 20 32 body, tr := body ++ reply ++ sig, conf := cf.1,
            startAt := s.ltc }).llpHs addr 3 (reply ++ sig)

/-- The lowest session number that is free. -/
def State.freeLlSess (s : State) : Option Nat := (List.range 32).find? (fun i => (s.llSess i).who == 0)

/-- The session of a client comes up: its keys, its entry in `llp_session_info`, and SS_DONE (step 5). -/
def State.ssUp (s : State) (addr i : Nat) (h : LlHs) : State :=
  let e := s.oct O.llp_client 0 h.client
  let who := byteAt e 32
  let c := if who = 2 then leNat (slice 34 2 e) % 1024 else 0
  let a := s.newKey
  let b := a.2.newKey
  let t := b.2.freeBelow (2 ^ 32)
  let u := t.2.freeBelow (2 ^ 32)
  let sid := u.2.ll.nextSid
  let x : LlSess := { LlSess.dflt with
    who := who, num := c, client := h.client, sid := sid, since := s.ltc, txKey := a.1, rxKey := b.1, txSalt := t.1, rxSalt := u.1,
    lastAt := s.ltc }
  let s1 := u.2.setLlSess i x
  let s2 : State := ({ s1 with ll := { s1.ll with nextSid := sid + 1 } } : State).dropHs addr
  let info := natLe 4 sid ++ natLe 1 who ++ zeros 1 ++ natLe 2 c ++ natLe 8 s.ltc
  let done := natLe 1 5 ++ zeros 3 ++ natLe 4 sid ++ natLe 1 who ++ natLe 1 (s.ov O.lease_holder) ++ natLe 2 c ++ natLe 32 h.conf
  ((s2.setOv O.llp_sessions (s2.ll.sess.filter (fun p => decide (p.1 < 32))).length).setOct O.llp_session_info info 0 i).llpSend i 0
    false done

/-- Step 4 (R669, R671): the client's key, signature and confirmation are checked. -/
def State.ssFinish (s : State) (addr : Nat) (body : Bytes) (k : Vouch) : State :=
  let h := Tab.get LlHs.dflt s.ll.hs addr
  if h.step ≠ 3 then s
  else if body.length ≠ 29892 ∨ byteAt body 0 ≠ 4 then s.llpRefuse addr 5
  else if sha (slice 4 64 body) ≠ h.digest ∨ s.clientOf h.digest ≠ some h.client then s.llpRefuse addr 2
  else if !k.sig then s.llpRefuse addr 3
  else if !k.conf then s.llpRefuse addr 4
  else match s.freeLlSess with
    | none => s.llpRefuse addr 1
    | some i => s.ssUp addr i h

/-- A handshake that has not ended in 5 s is discarded (R672). Until step 2 only a cookie is out. -/
def State.hsTimeout (s : State) (addr : Nat) : State :=
  if (Tab.get LlHs.dflt s.ll.hs addr).step ≠ 3 then s else (s.dropHs addr).bump O.llp_hs_failures

/-- A secured datagram (R670, R673): dropped if its tag fails or its counter is one seen or too old; a message number seen is answered from the
store, and one older than those kept is dropped. -/
def State.datagram (s : State) (n ctr msg mgmt : Nat) (tagOk : Bool) (body : Bytes) (k : Vouch) : State :=
  let x := s.llSess n
  if 32 ≤ n ∨ x.who = 0 ∨ !tagOk then s
  else if x.seen.contains ctr ∨ ctr + 1024 < x.high then s.bump O.llp_replays
  else
    let high := max x.high ctr
    let s1 := s.setLlSess n { x with
      high := high, seen := (x.seen ++ [ctr]).filter (fun c => decide (high ≤ c + 1024)), lastAt := s.ltc }
    let s2 : State := { s1 with ll := { s1.ll with mgmtDown := clrBit s1.ll.mgmtDown (mgmt % 2) } }
    if byteAt body 0 = 9 then s2.message n msg 0 body k
    else match x.answers.find? (fun p => p.1 == msg) with
      | some p => s2.llpSend n msg false p.2
      | none =>
        if x.answers.length = 64 ∧ x.answers.all (fun p => decide (msg < p.1)) then s2 else s2.message n msg 0 body k

/-! ### The PCIe mailbox (R677-R679) -/

def Mbox.dflt : Mbox := ⟨false, false, 0, 0, zeros 4032⟩

def State.box (s : State) (p : Nat) : Mbox := Tab.get Mbox.dflt s.ll.boxes p

def State.setBox (s : State) (p : Nat) (x : Mbox) : State := { s with ll := { s.ll with boxes := Tab.put Mbox.dflt s.ll.boxes p x } }

/-- A host write to MB_REQ_LEN or MB_BUF clears `answer ready`. -/
def State.boxWrite (s : State) (p : Nat) (w : DwWrite) : State :=
  let x := { s.box p with ready := false }
  if 2 ≤ p then s
  else if w.off = 0x1008 then s.setBox p { x with reqLen := leNat (slice 0 4 w.val) }
  else if 0x1040 ≤ w.off ∧ w.off < 0x2000 then s.setBox p { x with buf := splice (w.off - 0x1040) w.val x.buf }
  else s

/-- A write of MB_CMD: 1 submits the message unless one is in progress. -/
def State.boxCmd (s : State) (p v : Nat) (k : Vouch) : State :=
  let x := s.box p
  if 2 ≤ p ∨ v ≠ 1 ∨ x.busy then s
  else
    let s1 := s.setBox p { x with busy := true }
    if x.reqLen < 8 ∨ 4032 < x.reqLen then s1.boxAnswer p (msgHead 0 0xA 0)
    else
      let s2 := s1.message (32 + p) 0 0 (x.buf.take x.reqLen) k
      if byteAt x.buf 0 = 9 then s2.setBox p { s2.box p with busy := false } else s2

/-! ### What a host reads of a direct window (R431) -/

/-- The byte at an offset of a VF's window: zero throughout while no context is bound to the VF, `none` where the TLP is refused (R469). The
write-only JOB_DBELL reads zero. -/
def State.vfByte (s : State) (port vf off : Nat) (keyed : Bool) : Option Byte :=
  match s.vfCtx port vf with
  | none => some 0
  | some c =>
    if s.ideRefuses c keyed then none
    else some ((zeros 8 ++ natLe 4 (s.ctx c).st.code ++ zeros 4 ++ natLe 4 (s.ctx c).ntfHead ++ natLe 4 (s.ctx c).ntfTail).getD off 0)

/-- FR_HEAD and FR_TAIL of a ring in PF0's window of a port; a ring routed to the other port reads zero. -/
def State.frRegs (s : State) (port r : Nat) : Bytes :=
  if s.ov O.fr_port r = port then natLe 4 (s.ov O.fr_head r) ++ natLe 4 (s.ov O.fr_tail r) else zeros 8

/-- The mailbox's registers and buffer (R677, Table 9). -/
def Mbox.bytes (x : Mbox) : Bytes :=
  zeros 4 ++ natLe 4 (b2n x.busy * 2 ^ 31 + b2n x.ready * 2 ^ 30) ++ natLe 4 x.reqLen ++ natLe 4 x.ansLen ++ zeros 48 ++ x.buf

/-- The byte at an offset of PF0's window of a port. -/
def State.pfByte (s : State) (port off : Nat) : Byte :=
  if 0x20 ≤ off ∧ off < 0xA0 then (s.frRegs port ((off - 0x20) / 16)).getD ((off - 0x20) % 16) 0
  else if 0x1000 ≤ off ∧ off < 0x2000 then (s.box port).bytes.getD (off - 0x1000) 0
  else s.stgByte port off

/-! ### The MGT channel (R680, R681) -/

/-- A Light List message from an agent, with its data slots. -/
def State.llm (s : State) (port tag agt len : Nat) (slots : List Slot) (k : Vouch) : State :=
  let body := (slotBytes slots).take len
  if 24 ≤ port ∨ 4096 ≤ agt then s
  else if 4 ≤ (s.ll.waits.filter (fun w => w.sess == 64 + agt)).length then
    s.llmAnswer agt tag port (msgHead (byteAt body 0) 8 0)
  else s.message (64 + agt) tag port body k

/-- The header of an LLM request as received from an agent; anything else, or an answer, is ignored. -/
def State.llmArrive (s : State) (port agt hdr : Nat) (slots : List Slot) (k : Vouch) : State :=
  let len := bits hdr 216 9
  if bits hdr 225 1 = 1 then s
  else if len < 8 ∨ 256 < len ∨ slots.length ≠ ceilDiv len 32 then
    s.llmAnswer agt (bits hdr 238 12) port (msgHead 0 0xA 0)
  else s.llm port (bits hdr 238 12) agt len slots k

/-! ### Flash (R654) -/

/-- Every class N write is in both flash parts. -/
def State.nvDone (s : State) : State := { s with ll := { s.ll with nv := [] } }

end Sys2Proof.Machine
end

