-- ==== Sys2Proof/Machine/Delivery.lean ====
section
/-! DEFINITION. Sys2Proof/Machine/Delivery.lean: what a Boroc port does with a flit it receives (R487-R509, R521): checks, acknowledgements, order,
slots joined to messages, and messages handed to their consumers; and the training of a PCIe port (R698). -/

namespace Sys2Proof.Machine

open Sys2Proof

/-! ### Acknowledgements and NAKs (R505, R506) -/

/-- `ask_nak(n)`: a NAK is put in the next control slot unless one for `n` went out within `nak_holdoff`. -/
def State.askNak (s : State) (p n : Nat) : State :=
  let x := s.lport p
  let recent := match x.nakLast with
    | some (m, t) => m == n && decide (s.ltc < t + nsTicks (s.ov O.nak_holdoff p))
    | none => false
  if recent then s else s.setLport p { x with nak := some n }

/-- The number of the oldest flit not acknowledged, or of the next one. -/
def LPort.first (x : LPort) : Nat := if x.replay = [] then x.next else x.oldest

/-- An `ack` and `sack` arrive. -/
def State.takeAck (s : State) (p a sack : Nat) : State :=
  let x := s.lport p
  let before := (x.first + 4095) % 4096
  let new := precedes before a
  if a = before ∨ (new ∧ precedes a x.next) then
    let e := (a + 1) % 4096
    let kept := keepFrom e x.replay
    let marked := kept.map (fun f =>
      let d := (f.seq + 4096 - (a + 2) % 4096) % 4096
      if d < 16 ∧ sack.testBit d then { f with sacked := true } else f)
    s.setLport p { x with
      replay := marked, oldest := e, misses := if new then 0 else x.misses,
      rtxq := x.rtxq.filter (fun n => marked.any (fun f => f.seq == n)) }
  else (s.bump O.bad_ack p).startRetrain p

/-- The flits a NAK of `n` queues: `n`, and every unsacked flit after it and before the highest sacked one, unless sent again within `nak_holdoff`. -/
def State.nakked (s : State) (p n : Nat) : List Nat :=
  let x := s.lport p
  let top := (x.replay.filter (·.sacked)).getLast?
  let late (f : RFlit) : Bool := f.sentAt == 0 || decide (f.sentAt - 1 + nsTicks (s.ov O.nak_holdoff p) ≤ s.ltc)
  let mid (f : RFlit) : Bool := match top with
    | some t => !f.sacked && precedes n f.seq && precedes f.seq t.seq
    | none => false
  ((x.replay.filter (fun f => (f.seq == n || mid f) && late f)).map (·.seq)).filter (fun k => !x.rtxq.contains k)

/-- A NAK arrives in order. -/
def State.takeNak (s : State) (p n : Nat) : State :=
  let x := s.lport p
  if x.replay.any (fun f => f.seq == n) then
    (s.setLport p { x with rtxq := x.rtxq ++ s.nakked p n }).bump O.naks_rcvd p
  else s

/-- A beacon arrives with the free slots of a pool (R509, R510). -/
def State.takeBeacon (s : State) (p ack pool free : Nat) : State :=
  let x := s.lport p
  let u := (((keepFrom ((ack + 1) % 4096) x.replay).flatMap (·.pools)).filter (· == pool)).length
  let e := free - u
  let c := credit x.credits pool
  if 9 ≤ pool then s
  else if c < e then
    s.setLport p { x with drift := x.drift.set pool (e - c), driftDue := x.driftDue || decide (poolSize pool < 8 * (e - c)) }
  else if c = e then s.setLport p { x with drift := x.drift.set pool 0 }
  else ((s.setLport p { x with credits := x.credits.set pool e }).bump O.credit_excess p).startRetrain p

/-- The flit width a `wreq` code names. -/
def wreqWidth (w : Nat) : Nat := if w = 1 then 2 else if w = 2 then 4 else 8

/-- The control slot of a flit that is delivered (R495, R499, R519). -/
def State.takeControl (s : State) (p ack : Nat) (bs : Bytes) : State :=
  let w := leNat bs
  let x := s.lport p
  let s1 := s.setLport p { x with credits := (List.range 9).foldl (fun l i => credAdd l i (bits w (244 - 12 * i) 12)) x.credits }
  let s2 := if w.testBit 147 then s1.takeNak p (bits w 135 12) else s1
  let s3 := if w.testBit 134 then s2.takeBeacon p ack (bits w 130 4) (bits w 117 13) else s2
  let s4 := if bits w 110 2 = 0 then s3 else s3.setLport p { s3.lport p with rxNew := wreqWidth (bits w 110 2) }
  if bits w 115 2 = 1 ∨ bits w 115 2 = 2 then s4.startRetrain p else s4

/-! ### Messages (R487, R488) -/

/-- The header channels a partner may send on (Table 1). -/
def State.mayCarry (s : State) (p chan : Nat) : Bool :=
  match leNat ((s.oct O.link_partner 0 p).take 1) with
  | 0x01 => chan == 3 || chan == 4
  | 0x10 => chan == 0 || chan == 2 || chan == 4
  | 0x11 => chan == 0 || chan == 2 || chan == 3 || chan == 4
  | _ => chan == 4

/-- A message's source agent: the bound one, or the message's `agt` field behind a switch. -/
def State.srcOf (s : State) (p agt : Nat) : Nat := (s.boundAgent p).getD agt

/-- The request kind of an opcode (R104). -/
def kindOf : Nat → Option Kind
  | 1 => some .rds
  | 2 => some .rdx
  | 3 => some .upg
  | 4 => some .rdonce
  | 5 => some .wrfull
  | 6 => some .wrpart
  | 7 => some .evc
  | 8 => some .wbd
  | 9 => some .acc
  | 0xA => some .atom
  | 0xB => some .hint
  | 0xC => some .dbell
  | 0xD => some .fence
  | _ => none

/-- A request header (R97). -/
def unpackReq (w : Nat) : Hdr := {
  agt := bits w 226 12, tag := bits w 238 12, can := bits w 216 10, ctx := bits w 206 10, cva := bits w 158 48,
  len := bits w 150 8, page := bits w 148 2, colour := bits w 146 2, sub := bits w 142 4, aty := bits w 140 2,
  fmtSrc := bits w 136 4, fmtDst := bits w 132 4, gchk := w.testBit 131, gexp := bits w 123 8 }

/-- A BLK header (R313). -/
def unpackBlk (w : Nat) (slots : List Slot) : Blk := {
  bop := bits w 246 4, src := bits w 234 12, dst := bits w 222 12, handle := bits w 202 20, off := bits w 162 40,
  xid := bits w 146 16, part := bits w 142 4, status := bits w 138 4, lines := bits w 132 6, grant := bits w 0 128,
  slots := slots }

/-- A snoop response kind (R159). -/
def rspOf : Nat → Option RspK
  | 0x18 => some .i
  | 0x19 => some .s
  | 0x1A => some .di
  | 0x1B => some .ds
  | 0x1C => some .dO
  | 0x1D => some .dk
  | 0x1E => some .wb
  | _ => none

/-- A header whose opcode its channel does not have: a violation by the agent bound, and nothing else (R99). -/
def State.strange (s : State) (p op : Nat) : State :=
  match s.boundAgent p with
  | some a => s.violation a 5 op noCtx p 0
  | none => s

/-- A request with a reserved opcode completes with FROZEN (R99). -/
def State.badKind (s : State) (p op : Nat) (h : Hdr) : State :=
  let src := s.srcOf p h.agt
  let r := Req.arriving s.nextReq .hint p { h with agt := src } []
  ((({ s with nextReq := s.nextReq + 1 } : State).violation src 5 op h.ctx p h.cva)).finish r .frozen

/-- A message on REQ: it takes a place, or waits in the pool, whose slots it then keeps. -/
def State.reqIn (s : State) (p w : Nat) (slots : List Slot) : State :=
  let h := unpackReq w
  let held (t : State) : Nat := (t.pool.filter (fun q => q.port == p)).length
  let t := match kindOf (bits w 250 6) with
    | some k => s.receive k p (s.srcOf p h.agt) h slots
    | none => s.badKind p (bits w 250 6) h
  if held s < held t then t else (t.freeRx p 0 1).freeRx p 5 slots.length

/-- A message on RSP. -/
def State.rspIn (s : State) (p w : Nat) (slots : List Slot) : State :=
  let op := bits w 250 6
  let can := bits w 223 10
  match rspOf op with
  | some k => s.respond p (s.srcOf p ((s.canAgent can).getD 0xFFFF)) (bits w 245 5) (bits w 233 12) can k (w.testBit 222) slots
  | none =>
    if op = 0x1F then s.gntAck p (s.srcOf p (bits w 226 12)) (bits w 238 12) (bits w 226 12) (bits w 216 10)
    else if op = 0x29 then
      s.censusReport p (s.srcOf p (bits w 200 12)) (bits w 245 5) (bits w 229 16) (bits w 219 10) (bits w 213 6) (w.testBit 212) slots
    else s.strange p op

/-- A message on MGT; 0 stands for a message that is dropped. -/
def State.mgtIn (s : State) (p w : Nat) (slots : List Slot) (k : Vouch) : State :=
  let op := bits w 250 6
  if op = 0x2A then s.linkSync p (bits w 245 5) (bits w 233 12) (bits w 232 1) (bits w 200 32)
  else if op = 0x2B then s.llmArrive p (s.srcOf p (bits w 226 12)) w slots k
  else if op = 0x2C then s.segArrive p w slots k
  else if op = 0 then s
  else s.strange p op

/-- A message delivered in order: handed to its consumer, and its slots freed (R487, R488, R498). -/
def State.messageIn (s : State) (p chan : Nat) (hdr : Nat) (slots : List Slot) (m : Met) (k : Vouch) : State :=
  let free (t : State) : State := (t.freeRx p chan 1).freeRx p (dataPool chan) slots.length
  if !s.mayCarry p chan then free ((s.bump O.chan_errors p).strange p (bits hdr 250 6))
  else match chan with
    | 0 => s.reqIn p hdr slots
    | 2 =>
      let t := s.rspIn p hdr slots
      if (s.diHeld p).length < (t.diHeld p).length then t else free t
    | 3 => free (if bits hdr 250 6 = 0x2D then s.blkArrive p (unpackBlk hdr slots) m else s)
    | _ => free (s.mgtIn p hdr slots k)

/-! ### Slots (R492, R493, R500) -/

/-- The message slots of a flit with their `last` marks. -/
def flitBody (f : Flit) : List (Slot × Bool) :=
  let all := (List.range 9).map (fun i => ((⟨fitTo 32 (f.slots.getD i []), f.poison.testBit i⟩ : Slot), f.last.testBit i))
  if f.ctl then all.drop 1 else all

/-- The channel of the message headers in a flit: none in a CONT flit. -/
def flitChan (f : Flit) : Option Nat :=
  if 1 ≤ f.fkind ∧ f.fkind ≤ 5 then some (f.fkind - 1) else if f.fkind = 7 then some 4 else none

/-- The pools the slots need, in order, given the channel of the message begun; none where slot framing breaks. -/
def scan (chan : Option Nat) : Option Nat → List (Slot × Bool) → Option (List Nat)
  | _, [] => some []
  | none, (x, last) :: t =>
    if last && x.bytes == zeros 32 then scan chan none t
    else match chan with
      | none => none
      | some c => (scan chan (if last then none else some c) t).map (fun l => c :: l)
  | some c, (_, last) :: t => (scan chan (if last then none else some c) t).map (fun l => dataPool c :: l)

/-- Take one slot: a null slot, the header of a message, or more of its data. A handshake flit carries nothing but handshake messages (R457). -/
def State.takeSlot (s : State) (p : Nat) (f : Flit) (m : Met) (k : Vouch) (x : Slot × Bool) : State :=
  let l := s.lport p
  match l.rxm with
  | none =>
    if x.2 && x.1.bytes == zeros 32 then s
    else
      let c := (flitChan f).getD 4
      let w := leNat x.1.bytes
      let h := if f.fkind = 7 ∧ !(bits w 250 6 == 0x2C && decide (bits w 245 5 ≤ 5)) then 0 else w
      if x.2 then s.messageIn p c h [] m k else s.setLport p { l with rxm := some (c, h, []) }
  | some (c, h, ss) =>
    if x.2 then (s.setLport p { l with rxm := none }).messageIn p c h (ss ++ [x.1]) m k
    else s.setLport p { l with rxm := some (c, h, ss ++ [x.1]) }

/-- Deliver the flit whose turn it is: false where it is discarded, and `expected` does not advance. -/
def State.deliverFlit (s : State) (p : Nat) (f : Flit) (m : Met) (k : Vouch) : Bool × State :=
  let l := s.lport p
  let badCtl := f.ctl && (f.last.testBit 0 || f.poison.testBit 0)
  match (if badCtl ∨ 8 ≤ f.fkind then none else scan (flitChan f) (l.rxm.map (·.1)) (flitBody f)) with
  | none => (false, (((s.bump O.slot_errors p).askNak p l.expected).startRetrain p))
  | some need =>
    if (List.range 9).any (fun i => decide (poolSize i < s.rxHeld p i + (need.filter (· == i)).length)) then
      (false, (s.bump O.credit_overrun p).startRetrain p)
    else
      let s1 := (s.setLport p { l with expected := (l.expected + 1) % 4096 }).bump O.flits_rx p
      let s2 := if f.ctl then s1.takeControl p f.ack (f.slots.headD []) else s1
      (true, (flitBody f).foldl (fun t x => t.takeSlot p f m k x) s2)

/-- Deliver from the reorder buffer while it holds `expected`. -/
def State.drainReorder (s : State) (p : Nat) (m : Met) (k : Vouch) : Nat → State
  | 0 => s
  | n + 1 =>
    let l := s.lport p
    match l.reorder.find? (fun f => f.seq == l.expected) with
    | none => s
    | some f =>
      let q := (s.setLport p { l with reorder := l.reorder.filter (fun g => g.seq != f.seq) }).deliverFlit p f m k
      if q.1 then q.2.drainReorder p m k n else q.2

/-! ### Flits (R505, R521) -/

/-- The session of a port is up. -/
def State.sessUp (s : State) (p : Nat) : Bool := s.ov O.link_sec_state 0 p == 2 || s.ov O.link_sec_state 0 p == 3

/-- A sequenced flit past its checks (R505). -/
def State.sequenced (s : State) (p : Nat) (f : Flit) (m : Met) (k : Vouch) : State :=
  let l := s.lport p
  let d := (f.seq + 4096 - l.expected) % 4096
  if 2048 ≤ d then s.bump O.dup_dropped p
  else if d = 0 then
    let q := s.deliverFlit p f m k
    if q.1 then q.2.drainReorder p m k 256 else q.2
  else if d ≤ 256 then
    (if l.reorder.any (fun g => g.seq == f.seq) then s.bump O.dup_dropped p
    else s.setLport p { l with reorder := l.reorder ++ [f] }).askNak p l.expected
  else (s.bump O.reorder_dropped p).askNak p l.expected

/-- The key of a flit's phase is held: the present one, or the old one for 1 ms (R461). -/
def State.phaseHeld (s : State) (p : Nat) (f : Flit) : Bool :=
  f.kphase == (s.session p).rxPhase || (s.session p).oldKey != 0

/-- A flit's first arrival on its lane in the new key phase (R521). -/
def State.freshLane (s : State) (p : Nat) (f : Flit) : Bool :=
  let x := s.session p
  s.sessUp p && f.fkind != 7 && f.kphase == x.rxPhase && x.oldKey != 0 && !x.lanes.contains f.lane

/-- The count of a flit's lane once the session is up; it begins anew with a new key (R520). -/
def State.countRx (s : State) (p : Nat) (f : Flit) : State :=
  let x := s.lport p
  if s.sessUp p then
    s.setLport p { x with rxCount := Tab.put 0 x.rxCount f.lane ((if s.freshLane p f then 0 else Tab.get 0 x.rxCount f.lane) + 1) }
  else s

/-- A flit that is no training frame arrives (R505, R463, R521). Before the session is up a port accepts nothing but IDLE flits and handshake flits
(R457); another is asked for again. -/
def State.flitIn (s0 : State) (p : Nat) (f : Flit) (m : Met) (k : Vouch) : State :=
  let l := s0.lport p
  let st := s0.ov O.link_state p
  if 24 ≤ p ∨ (st ≠ 2 ∧ st ≠ 3) then s0
  else
    let s := s0.countRx p f
    if !f.crcOk then (s.bump O.crc_fail p).askNak p l.expected
    else if s0.freshLane p f ∧ 16 < f.gap then s.startRetrain p
    else if s.sessUp p ∧ f.fkind ≠ 7 ∧ (!f.tagOk ∨ !s.phaseHeld p f) then (s.tagFail p).askNak p l.expected
    else if !s.sessUp p ∧ f.fkind ≠ 7 ∧ f.fkind ≠ 0 then (if precedes l.expected f.seq then s.askNak p l.expected else s)
    else
      let s1 := (if s0.freshLane p f then s.setSession p { s.session p with lanes := (s.session p).lanes ++ [f.lane] } else s).takeAck p f.ack f.sack
      if f.fkind = 0 then (if precedes l.expected f.seq then s1.askNak p l.expected else s1)
      else s1.sequenced p f m k

/-! ### PCIe training (R698) -/

/-- A PCIe port has trained: at a rate code and width with Flit mode negotiated it is up; without Flit mode it is taken down and
counted. While the core group is off its signals are ignored (R687). -/
def State.pcieTrained (s : State) (n : Nat) (flit : Bool) (rate width : Nat) : State :=
  if 2 ≤ n ∨ !s.rst.coreGood then s
  else if flit then s.setOv O.pcie_link (2 ^ 15 + rate % 16 * 2 ^ 8 + width % 32) 0 n
  else (s.bump O.pcie_noflit 0 n).pcieDown n

/-- The Keeper's boot ends, and the messages that waited for it are served (R447, R616). -/
def State.bootDone (s : State) (sigA sigB idOk : Bool) (bad : List Nat) : State := (s.keeperBoot sigA sigB idOk bad).serveWaits

end Sys2Proof.Machine
end

