-- ==== Sys2Proof/Machine/Accumulate.lean ====
section
/-! DEFINITION. Sys2Proof/Machine/Accumulate.lean: the meanings of the commands of one family: accumulate-stores and INT8 scales. -/

namespace Sys2Proof.Machine

open Sys2Proof

/-- ACC_FILL_ARRIVES (R228). The starting value of an accumulator line arrives and waiting contributions are added. -/
def execAccFillArrives (line : Nat) (errs : List DramErr) (s : State) : Host.Outcome State Fault Refusal :=
  .next ((s.meet errs).accFill line)

/-- ACC_IDLE_FLUSH (R231). An accumulator line idle for acc_idle_flush is written back and becomes clean. -/
def execAccIdleFlush (line : Nat) (s : State) : Host.Outcome State Fault Refusal :=
  .next (s.accIdle line)

/-- INT8_SCALE_WRITE (R243). A write of int8_scale for the selected extent is checked and applied. -/
def execInt8ScaleWrite (handle v : Nat) (s : State) : Host.Outcome State Fault Refusal :=
  .next (s.int8Write handle v)

end Sys2Proof.Machine
end

