-- ==== Sys2Proof/Machine/BoardRows.lean ====
section
/-! DEFINITION. Sys2Proof/Machine/BoardRows.lean: the meanings of the commands of one family: board inputs and the host windows. -/

namespace Sys2Proof.Machine

open Sys2Proof

/-- PWRGOOD_DRAM_RISE (R689). PWRGOOD_DRAM rises and CORE_PWR_EN and DIMM_PWR_EN are asserted. -/
def execPwrgoodDramRise (s : State) : Host.Outcome State Fault Refusal :=
  .next (s.dramRise)

/-- PWRGOOD_CORE_RISE (R689). PWRGOOD_CORE rises, allowing the episode or P3 exit to proceed. -/
def execPwrgoodCoreRise (s : State) : Host.Outcome State Fault Refusal :=
  .next (s.coreRise)

/-- PCIE_LINK_TRAINING (R698). A PCIe port trains, taking down a non-Flit link and retrying after 1 s. -/
def execPcieLinkTraining (port : Nat) (flit : Bool) (rate width : Nat) (s : State) : Host.Outcome State Fault Refusal :=
  .next ((s.pcieTrained port flit rate width).leaseCheck)

/-- PWRGOOD_AON_RISE (R689). PWRGOOD_AON rises, the controller asserts DRAM_PWR_EN 10 µs later, the OSC_DLY wait starts and the straps are sampled. -/
def execPwrgoodAonRise (straps : Nat) (s : State) : Host.Outcome State Fault Refusal :=
  .next (s.aonRise straps)

/-- PWRGOOD_DRAM_FALL (R690). PWRGOOD_DRAM falls; in P3 the controller discards the retention checkpoint so the next exit starts up as after a system episode with CORE_BOR. -/
def execPwrgoodDramFall (s : State) : Host.Outcome State Fault Refusal :=
  .next (s.dramFall)

/-- RST_N_RELEASE (R606). An outside device releases RST_N, ending that source's assertion so the stretch count starts from the release. -/
def execRstNRelease (s : State) : Host.Outcome State Fault Refusal :=
  .next (s.releaseSrc 4)

/-- DBG_REQ_N_RELEASE (R604). DBG_REQ_N returns high, releasing the debug reset source so the episode stretch starts. -/
def execDbgReqNRelease (s : State) : Host.Outcome State Fault Refusal :=
  .next (s.releaseSrc 5)

/-- KEEPER_HEARTBEAT_TIMEOUT (R615). A Keeper released into ROM after a core episode writes no heartbeat within wd_timeout and is held in reset and goes DARK. -/
def execKeeperHeartbeatTimeout (keeper : Nat) (s : State) : Host.Outcome State Fault Refusal :=
  .next (s.romSilent keeper)

/-- MGMT_LINK_DOWN (R575). A management Ethernet port loses its link; LLP sessions continue on the other port and a management-port-failed event is written. -/
def execMgmtLinkDown (port : Nat) (s : State) : Host.Outcome State Fault Refusal :=
  .next (s.mgmtDown port)

/-- FR_HEAD_WRITE (R528). The driver writes FR_HEAD in the PF0 direct window, advancing a fault ring's head unless it would pass the tail, which frees room for waiting records. -/
def execFrHeadWrite (port ring v : Nat) (s : State) : Host.Outcome State Fault Refusal :=
  .next (s.wake.frHeadWrite port ring v)

/-- NTF_HEAD_WRITE (R430). The host writes NTF_HEAD in the VF direct window, advancing the notification ring head and freeing records for held vectors. -/
def execNtfHeadWrite (port vf v : Nat) (keyed : Bool) (s : State) : Host.Outcome State Fault Refusal :=
  .next (s.wake.ntfHeadWrite port vf v keyed)

/-- MB_BUF_WRITE (R678). A host write to MB_BUF or MB_REQ_LEN clears the mailbox's answer-ready bit. -/
def execMbBufWrite (port : Nat) (w : DwWrite) (s : State) : Host.Outcome State Fault Refusal :=
  .next (s.wake.boxWrite port w)

end Sys2Proof.Machine
end

