-- ==== Sys2Proof/Machine/ChartRows.lean ====
section
/-! DEFINITION. Sys2Proof/Machine/ChartRows.lean: the meanings of the commands of one family: the chart: commits, windows, bindings and extents. -/

namespace Sys2Proof.Machine

open Sys2Proof

/-- STG_COMMIT (R68). A COMMIT written to STG_CMD sets busy and waits for its turn. -/
def execStgCommit (pf bank cmd : Nat) (ws : List DwWrite) (s : State) : Host.Outcome State Fault Refusal :=
  .next (s.wake.stgCmd pf bank cmd ws)

/-- COMMIT_TURN (R79). A commit's turn comes and checks 2 to 11 are made, starting its digest pass. -/
def execCommitTurn (ctx : Nat) (s : State) : Host.Outcome State Fault Refusal :=
  .next (s.commitTurn ctx)

/-- APPLY_POINT (R73). A commit's digest ends and its entries are written to both chart copies with gen bumped. -/
def execApplyPoint (ctx : Nat) (s : State) : Host.Outcome State Fault Refusal :=
  .next ((s.applyPoint ctx).unparkStrips ctx)

/-- SHOOTDOWN_DRAIN_DONE (R75). Every request under the previous generations completes and busy clears with OK. -/
def execShootdownDrainDone (ctx : Nat) (s : State) : Host.Outcome State Fault Refusal :=
  .next (s.drainDone ctx)

/-- STG_READBACK (R76). A READBACK copies current entries into the staging slots at one instant. -/
def execStgReadback (pf bank : Nat) (ws : List DwWrite) (s : State) : Host.Outcome State Fault Refusal :=
  .next (s.wake.stgCmd pf bank 2 ws)

/-- STG_CLEAR (R77). A CLEAR zeros the bank's slots and RW fields. -/
def execStgClear (pf bank : Nat) (ws : List DwWrite) (s : State) : Host.Outcome State Fault Refusal :=
  .next (s.wake.stgCmd pf bank 3 ws)

/-- INTERNAL_COMMIT (R78). A controller-made chart change takes its turn as an internal commit. -/
def execInternalCommit (ctx : Nat) (s : State) : Host.Outcome State Fault Refusal :=
  .next ((s.internalCommit ctx).unparkStrips ctx)

/-- WINDOW_GEOMETRY_WRITE (R48). A write of win_base or win_count is checked and applied. -/
def execWindowGeometryWrite (ctx which v : Nat) (s : State) : Host.Outcome State Fault Refusal :=
  .next ((s.writeGeometry ctx which v).2)

/-- BINDING_WRITE (R58). A binding record write is checked and applied at every port. -/
def execBindingWrite (agt entry v : Nat) (s : State) : Host.Outcome State Fault Refusal :=
  .next ((s.writeBinding agt entry v).2)

/-- MOOR (R83). An extent is allocated to a context, all frames or none, and made pending scrub. -/
def execMoor (s : State) : Host.Outcome State Fault Refusal :=
  .next ((s.extOp 1).2)

/-- REVOKE (R82). An extent leaves MOORED for CLOSING to be revoked. -/
def execRevoke (s : State) : Host.Outcome State Fault Refusal :=
  .next ((s.extOp 2).2)

/-- SHARE (R88). A sharer with a rights cap is added to an extent. -/
def execShare (s : State) : Host.Outcome State Fault Refusal :=
  .next ((s.extOp 3).2)

/-- UNSHARE (R82). A sharer leaves an extent and its entries become REVOKED. -/
def execUnshare (s : State) : Host.Outcome State Fault Refusal :=
  .next ((s.extOp 4).2)

/-- GRANT_REVOKE (R82). An extent's grant_epoch is incremented, voiding earlier grants. -/
def execGrantRevoke (s : State) : Host.Outcome State Fault Refusal :=
  .next ((s.extOp 5).2)

/-- GRANT_ISSUE (R90). An extent grant is issued into grant_out. -/
def execGrantIssue (s : State) : Host.Outcome State Fault Refusal :=
  .next (s.grantIssue.2)

/-- PROBE (R314). A PROBE from a node running a peer MOOR is received and answered. -/
def execProbe (port : Nat) (b : Blk) (s : State) : Host.Outcome State Fault Refusal :=
  .next (s.blkArrive port { b with bop := 6 } ⟨[]⟩)

/-- PROBE_ANS (R87). A PROBE_ANS arrives and decides the peer MOOR. -/
def execProbeAns (port : Nat) (b : Blk) (s : State) : Host.Outcome State Fault Refusal :=
  .next (s.blkArrive port { b with bop := 7 } ⟨[]⟩)

end Sys2Proof.Machine
end

