-- ==== Sys2Proof/Machine/ClockRows.lean ====
section
/-! DEFINITION. Sys2Proof/Machine/ClockRows.lean: the meanings of the commands of one family: clocks. -/

namespace Sys2Proof.Machine

open Sys2Proof

/-- PLL_LOCK_LOSS (R628). The selected root PLL loses lock and the root switches glitch-free. -/
def execPllLockLoss (pll : Nat) (s : State) : Host.Outcome State Fault Refusal :=
  .next (s.pllLockLoss pll)

/-- PLL_EDGE_LOSS (R630). The selected PLL stops and a forced root switch runs. -/
def execPllEdgeLoss (pll : Nat) (s : State) : Host.Outcome State Fault Refusal :=
  .next (s.pllEdgeLoss pll)

/-- ROOT_CMD (R628). The operator switches the root to the other PLL. -/
def execRootCmd (s : State) : Host.Outcome State Fault Refusal :=
  .next (s.rootCmd.2)

/-- SREF_LOSS (R632). A SerDes reference stops and ports move to the alternate. -/
def execSrefLoss (n : Nat) (s : State) : Host.Outcome State Fault Refusal :=
  .next (s.srefLoss n)

/-- PCIE_REFCLK_LOSS (R633). A PCIe reference stops and the port is lost. -/
def execPcieRefclkLoss (port : Nat) (s : State) : Host.Outcome State Fault Refusal :=
  .next ((s.refclkLoss port).leaseCheck)

/-- ARITH_DIV_STEP (R625). After its dwell the CK_ARITH divider moves one step. -/
def execArithDivStep (s : State) : Host.Outcome State Fault Refusal :=
  .next (s.divStep)

/-- FC_START (R635). The frequency counter starts counting. -/
def execFcStart (s : State) : Host.Outcome State Fault Refusal :=
  .next (s.fcStart.2)

/-- FC_DONE (R635). The count ends or gives NO_EDGE after 100 ms. -/
def execFcDone (edges : Nat) (noEdge : Bool) (s : State) : Host.Outcome State Fault Refusal :=
  .next (s.fcDone edges noEdge)

end Sys2Proof.Machine
end

