-- ==== Sys2Proof/Machine/Coherence.lean ====
section
/-! DEFINITION. Sys2Proof/Machine/Coherence.lean: the meanings of the commands of one family: the home slices: serialising, snoops, responses, grants and census reports. -/

namespace Sys2Proof.Machine

open Sys2Proof

/-- HOME_SLICE_SERIALISE (R122). A request reaches its home slice, is serialised, and is acted on by the home state table. -/
def execHomeSliceSerialise (port agt tag : Nat) (errs : List DramErr) (hs : Nat) (s : State) : Host.Outcome State Fault Refusal :=
  .next (s.serialise port agt tag errs hs)

/-- SNOOP_EGRESS (R167). A snoop leaves by the port R132 selects, after waiting while no port is LIT with link up. -/
def execSnoopEgress (hs sid can : Nat) (s : State) : Host.Outcome State Fault Refusal :=
  .next (s.snpEgress hs sid can)

/-- RSPI (R191). A snoop response saying the agent holds nothing is consumed by the home. -/
def execRspI (port src hs sid can : Nat) (s : State) : Host.Outcome State Fault Refusal :=
  .next (s.respond port src hs sid can .i false [])

/-- RSPS (R564). A snoop response saying the agent holds S is consumed, chiefly during UNK service. -/
def execRspS (port src hs sid can : Nat) (s : State) : Host.Outcome State Fault Refusal :=
  .next (s.respond port src hs sid can .s false [])

/-- RSPDI (R191). A snoop response with data, agent now invalid, is consumed and dirty data written home. -/
def execRspDI (port src hs sid can : Nat) (dirty : Bool) (slots : List Slot) (s : State) : Host.Outcome State Fault Refusal :=
  .next (s.respond port src hs sid can .di dirty slots)

/-- RSPDS (R191). A snoop response with clean data, agent now S, is consumed. -/
def execRspDS (port src hs sid can : Nat) (slots : List Slot) (s : State) : Host.Outcome State Fault Refusal :=
  .next (s.respond port src hs sid can .ds false slots)

/-- RSPDO (R191). A snoop response with dirty data, agent now O, is consumed. -/
def execRspDO (port src hs sid can : Nat) (slots : List Slot) (s : State) : Host.Outcome State Fault Refusal :=
  .next (s.respond port src hs sid can .dO false slots)

/-- RSPDK (R191). A snoop response with current data, state kept, is consumed. -/
def execRspDK (port src hs sid can : Nat) (dirty : Bool) (slots : List Slot) (s : State) : Host.Outcome State Fault Refusal :=
  .next (s.respond port src hs sid can .dk dirty slots)

/-- RSPWB (R195). A snoop response announcing a crossing WbD is consumed and the WbD awaited. -/
def execRspWB (port src hs sid can : Nat) (s : State) : Host.Outcome State Fault Refusal :=
  .next (s.respond port src hs sid can .wb false [])

/-- GNTACK (R163). A grant acknowledgement frees its grant record and ends the line's busy state. -/
def execGntAck (port src tag agt can : Nat) (s : State) : Host.Outcome State Fault Refusal :=
  .next (s.gntAck port src tag agt can)

/-- EVICT_DATA_ACCEPTED (R178). The memory path accepts a recalled victim's data, ending BUSY_EVICT and serving waiters. -/
def execEvictDataAccepted (line : Nat) (s : State) : Host.Outcome State Fault Refusal :=
  .next (s.evictAccepted line)

/-- RECALL (R179). An internal recall of a line starts when its open transaction ends. -/
def execRecall (line : Nat) (s : State) : Host.Outcome State Fault Refusal :=
  .next (s.recallLine line)

/-- DIRECTORY_WALK_DONE (R180). A home slice's directory walk for revocation, reset, migration or remap ends. -/
def execDirectoryWalkDone (hs kind id : Nat) (s : State) : Host.Outcome State Fault Refusal :=
  .next (s.walkDone hs kind id)

/-- SNOOP_TIMEOUT (R139). An unanswered snoop reaches snoop_timeout and its agent is declared lost. -/
def execSnoopTimeout (hs sid can : Nat) (s : State) : Host.Outcome State Fault Refusal :=
  .next (s.snoopTimeout hs sid can)

/-- GNTACK_TIMEOUT (R165). No GntAck arrives within snoop_timeout of a grant and the agent is declared lost. -/
def execGntAckTimeout (port agt tag : Nat) (s : State) : Host.Outcome State Fault Refusal :=
  .next (s.ackTimeout port agt tag)

/-- COMPLETION_EGRESS (R132). A completion leaves by a chosen LIT port and frees its retained header. -/
def execCompletionEgress (port agt tag : Nat) (s : State) : Host.Outcome State Fault Refusal :=
  .next (s.completionLeaves port agt tag)

/-- CENSUS_REPORT (R562). A CENSUS report is received and its records enter UNK entries or the laggard set. -/
def execCensusReport (port src hs census can count : Nat) (last : Bool) (slots : List Slot) (s : State) : Host.Outcome State Fault Refusal :=
  .next (s.censusReport port src hs census can count last slots)

end Sys2Proof.Machine
end

