-- ==== Sys2Proof/Machine/ContextRows.lean ====
section
/-! DEFINITION. Sys2Proof/Machine/ContextRows.lean: the meanings of the commands of one family: contexts, policers and notifications. -/

namespace Sys2Proof.Machine

open Sys2Proof

/-- ALLOC (R402). A FREE context is allocated into CONFIGURING. -/
def execCtxAlloc (ctx : Nat) (s : State) : Host.Outcome State Fault Refusal :=
  .next (s.ctxAlloc ctx)

/-- ACTIVATE (R403). A configured context becomes ACTIVE after checks. -/
def execCtxActivate (ctx : Nat) (s : State) : Host.Outcome State Fault Refusal :=
  .next (s.ctxActivate ctx)

/-- RESET (R406). A context reset begins with CONFIGURING as end state. -/
def execCtxReset (ctx : Nat) (s : State) : Host.Outcome State Fault Refusal :=
  .next (s.ctxReset ctx)

/-- FREE (R402). A context reset begins with SWEEPING as end state, or sets it during QUIESCING. -/
def execCtxFree (ctx : Nat) (s : State) : Host.Outcome State Fault Refusal :=
  .next (s.ctxFree ctx)

/-- CONTEXT_RESET_DRAIN_END (R406). The context's work drains or reset_timeout expires and stragglers fail. -/
def execContextResetDrainEnd (ctx : Nat) (m : Met) (s : State) : Host.Outcome State Fault Refusal :=
  .next (s.resetDrainEnd ctx m)

/-- CONTEXT_RESET_DONE (R406). The recall ends and the context enters its end state. -/
def execContextResetDone (ctx : Nat) (s : State) : Host.Outcome State Fault Refusal :=
  .next (s.resetDone ctx)

/-- CONTEXT_SWEEP_DONE (R405). Every SWEEPING condition is met and the context becomes FREE. -/
def execContextSweepDone (ctx : Nat) (s : State) : Host.Outcome State Fault Refusal :=
  .next (s.ctxSweepDone ctx)

/-- FRZ_RELEASE (R414). A frozen agent is released. -/
def execFrzRelease (agt : Nat) (s : State) : Host.Outcome State Fault Refusal :=
  .next ((s.frzRelease agt).2)

/-- POLICER_REFILL (R418). Every 1 µs the policer buckets are refilled. -/
def execPolicerRefill (s : State) : Host.Outcome State Fault Refusal :=
  .next (s.policerRefill)

/-- SHAPER_REFILL (R422). Every 1 µs the bulk shaper bucket is refilled. -/
def execShaperRefill (s : State) : Host.Outcome State Fault Refusal :=
  .next (s.shaperRefill)

/-- NTF_BUCKET_REFILL (R427). Every 1 ms the notification bucket gains tokens. -/
def execNtfBucketRefill (s : State) : Host.Outcome State Fault Refusal :=
  .next (s.ntfRefill)

/-- NTF_RAISE (R425). The operator raises a vector with cause OPERATOR. -/
def execNtfRaise (ctx vec : Nat) (s : State) : Host.Outcome State Fault Refusal :=
  .next (s.ntfRaise ctx vec)

/-- NOTIFICATION_DELIVER (R426). A pending vector whose conditions all hold is delivered by MSI-X or NTF. -/
def execNotificationDeliver (ctx vec : Nat) (s : State) : Host.Outcome State Fault Refusal :=
  .next (s.deliverNtf ctx vec)

/-- VF_FLR (R428). A function-level reset of a VF resets its MSI-X state and ring pointers. -/
def execVfFlr (port vf : Nat) (s : State) : Host.Outcome State Fault Refusal :=
  .next (s.functionReset port vf)

end Sys2Proof.Machine
end

