-- ==== Sys2Proof/Machine/DramRows.lean ====
section
/-! DEFINITION. Sys2Proof/Machine/DramRows.lean: the meanings of the commands of one family: the DRAM channels, DIMMs, HBM channels and the scrub. -/

namespace Sys2Proof.Machine

open Sys2Proof

/-- DRAM_QUEUE_ENTER (R344). A line request enters a channel controller queue when a slot frees. -/
def execDramQueueEnter (line cls ctx c : Nat) (s : State) : Host.Outcome State Fault Refusal :=
  .next (s.queueEnter line cls ctx c)

/-- CHANNEL_SERVE (R346). A channel controller serves a queued request by DRR and FR-FCFS. -/
def execChannelServe (chan : Nat) (s : State) : Host.Outcome State Fault Refusal :=
  .next (s.channelServe chan)

/-- ROW_AUTO_CLOSE (R348). An AUTO row closes after auto_close cycles without a request. -/
def execRowAutoClose (chan bank : Nat) (s : State) : Host.Outcome State Fault Refusal :=
  .next (s.rowClose chan bank)

/-- REFRESH_DUE (R351). A bank's refresh interval falls due. -/
def execRefreshDue (chan bank : Nat) (s : State) : Host.Outcome State Fault Refusal :=
  .next (s.refreshDue chan bank)

/-- REFRESH_DEBT_LIMIT (R352). A bank's refresh debt reaches its limit and refresh is forced. -/
def execRefreshDebtLimit (chan bank : Nat) (s : State) : Host.Outcome State Fault Refusal :=
  .next (s.refreshForced chan bank)

/-- RETRAIN_PERIOD (R354). retrain_period elapses and a channel retrains in an idle window. -/
def execRetrainPeriod (chan : Nat) (s : State) : Host.Outcome State Fault Refusal :=
  .next (s.retrainDue chan)

/-- RETRAIN_FORCE (R354). No idle window within retrain_force and one is made. -/
def execRetrainForce (chan : Nat) (s : State) : Host.Outcome State Fault Refusal :=
  .next (s.retrainForce chan)

/-- RANK_POWER_DOWN (R355). A rank idle for pd_idle cycles enters power-down. -/
def execRankPowerDown (chan rank : Nat) (s : State) : Host.Outcome State Fault Refusal :=
  .next (s.rankDown chan rank)

/-- CHANNEL_TRAINING_DONE (R353). Full training of a channel ends, or fails and the pair goes DARK. -/
def execChannelTrainingDone (chan : Nat) (ok : Bool) (s : State) : Host.Outcome State Fault Refusal :=
  .next (s.trainingDone chan ok)

/-- CA_PARITY_ALERT (R359). A command-address parity alert is counted and may make the pair DARK. -/
def execCaParityAlert (chan : Nat) (s : State) : Host.Outcome State Fault Refusal :=
  .next (s.caParity chan)

/-- DIMM_PRESENT_CHANGE (R368). A debounced DIMM_PRSNT_N change is sensed; absence on a LIT pair makes it DARK. -/
def execDimmPresentChange (dimm : Nat) (present : Bool) (s : State) : Host.Outcome State Fault Refusal :=
  .next (s.presentChange dimm present)

/-- OFFLINE (R366). A drained pair goes DARK and its channels stop. -/
def execOffline (pair : Nat) (s : State) : Host.Outcome State Fault Refusal :=
  .next (s.offline pair)

/-- PWR_OFF (R366). A slot's DIMM_PWR_EN is deasserted. -/
def execPwrOff (pair slot : Nat) (s : State) : Host.Outcome State Fault Refusal :=
  .next (s.pwrOff pair slot)

/-- PWR_ON (R366). A slot's DIMM_PWR_EN is asserted. -/
def execPwrOn (pair slot : Nat) (s : State) : Host.Outcome State Fault Refusal :=
  .next (s.pwrOn pair slot)

/-- DIMM_SETTLE_EXPIRY (R366). dimm_settle ends and the SPD is read and checked. -/
def execDimmSettleExpiry (pair slot : Nat) (form : Bool) (mts cap ranks serial : Nat) (s : State) : Host.Outcome State Fault Refusal :=
  .next (s.settleEnd pair slot form mts cap ranks serial)

/-- ONLINE (R366). A pair goes REPAIRING and both channels are fully trained. -/
def execOnline (pair : Nat) (s : State) : Host.Outcome State Fault Refusal :=
  .next (s.online pair)

/-- HBCH_FENCE (R361). An operator fences an HBM channel. -/
def execHbchFence (stack chan : Nat) (s : State) : Host.Outcome State Fault Refusal :=
  .next ((s.hbchFence stack chan).2)

/-- HBM_CHANNEL_FENCED (R364). An HBM channel fence starts the stack re-layout. -/
def execHbmChannelFenced (stack chan : Nat) (s : State) : Host.Outcome State Fault Refusal :=
  .next (s.fenceHbm stack chan)

/-- RELAYOUT_FRAME_DONE (R364). A kept frame is re-established and its lines cease to be lost. -/
def execRelayoutFrameDone (stack : Nat) (s : State) : Host.Outcome State Fault Refusal :=
  .next (s.relayoutDone stack)

/-- RELAYOUT_FRAME_FREED (R364). A free HBM frame appears and a waiting re-layout resumes. -/
def execRelayoutFrameFreed (stack : Nat) (s : State) : Host.Outcome State Fault Refusal :=
  .next (s.relayMove stack)

/-- CE_WRITEBACK (R375). A corrected code word is written back by an internal write. -/
def execCeWriteback (cw : Nat) (s : State) : Host.Outcome State Fault Refusal :=
  .next (s.ceWriteback cw)

/-- UE_BUCKET_ROLL (R378). The 1 s error-rate bucket rolls over. -/
def execUeBucketRoll (s : State) : Host.Outcome State Fault Refusal :=
  .next (s.rollRates)

/-- MERGE_HOLD_EXPIRY (R390). An entry held merge_hold ns is flushed by read-modify-write. -/
def execMergeHoldExpiry (line : Nat) (errs : List DramErr) (s : State) : Host.Outcome State Fault Refusal :=
  .next ((s.meet errs).mergeExpire line)

/-- SCRUB_START (R395). A scrub of a PPA range is started. -/
def execScrubStart (s : State) : Host.Outcome State Fault Refusal :=
  .next (s.scrubStart.2)

/-- SCRUB_CANCEL (R399). A running scrub is cancelled after its current line. -/
def execScrubCancel (s : State) : Host.Outcome State Fault Refusal :=
  .next (s.scrubCancel)

/-- SCRUB_LINE (R397). One line is checked by a serialised scrub operation. -/
def execScrubLine (m : Met) (s : State) : Host.Outcome State Fault Refusal :=
  .next (s.scrubLine m)

end Sys2Proof.Machine
end

