-- ==== Sys2Proof/Machine/FaultRows.lean ====
section
/-! DEFINITION. Sys2Proof/Machine/FaultRows.lean: the meanings of the commands of one family: fault rings and the closing of extents. -/

namespace Sys2Proof.Machine

open Sys2Proof

/-- FAULT_RECORD_POST (R532). A waiting fault record is written to its ring when room and budget allow. -/
def execFaultRecordPost (ctx : Nat) (s : State) : Host.Outcome State Fault Refusal :=
  .next (s.postWaiting ctx)

/-- FAULT_BUDGET_REFILL (R534). Every 1 ms a context's fault budget gains tokens. -/
def execFaultBudgetRefill (ctx : Nat) (s : State) : Host.Outcome State Fault Refusal :=
  .next (s.faultRefill ctx)

/-- FR_COAL_EXPIRY (R530). fr_coal elapses and a ring's MSI-X vector may be raised. -/
def execFrCoalExpiry (ring : Nat) (s : State) : Host.Outcome State Fault Refusal :=
  .next (s.frCoal ring)

/-- FR_REPOST (R535). Records are reposted for every fault_pend entry of a context. -/
def execFrRepost (ctx : Nat) (s : State) : Host.Outcome State Fault Refusal :=
  .next ((s.frRepost ctx).2)

/-- CLOSE_DONE (R541). The last window's CLOSE step ends and the extent becomes DRAINING. -/
def execCloseDone (slot : Nat) (s : State) : Host.Outcome State Fault Refusal :=
  .next (s.closeDone slot)

/-- DRAIN_COUNTER_FREE (R543). A drain counter frees and a waiting extent begins CLOSE. -/
def execDrainCounterFree (s : State) : Host.Outcome State Fault Refusal :=
  .next (s.counterFree)

/-- REVOKE_DRAIN_DONE (R543). Every drain counter reaches zero and RECALL begins. -/
def execRevokeDrainDone (slot : Nat) (s : State) : Host.Outcome State Fault Refusal :=
  .next (s.revokeDrained slot)

/-- DRAIN_TIMEOUT (R543). drain_timeout expires, frames are closed and stragglers fail. -/
def execDrainTimeout (slot : Nat) (s : State) : Host.Outcome State Fault Refusal :=
  .next (s.drainTimeout slot)

/-- RECALL_DONE (R544). RECALL ends and the extent becomes FREE or moored again. -/
def execRecallDone (slot : Nat) (s : State) : Host.Outcome State Fault Refusal :=
  .next ((s.recallDone slot).rekeyChecks.dropShares)

end Sys2Proof.Machine
end

