-- ==== Sys2Proof/Machine/JobRows.lean ====
section
/-! DEFINITION. Sys2Proof/Machine/JobRows.lean: the meanings of the commands of one family: jobs of the compute tiles. -/

namespace Sys2Proof.Machine

open Sys2Proof

/-- JOB_DBELL (R247). A host writes the job doorbell of a VF direct window. -/
def execJobDbell (port vf data : Nat) (keyed : Bool) (s : State) : Host.Outcome State Fault Refusal :=
  .next (s.wake.jobBell port vf data keyed)

/-- JOB_FETCH (R250). The dispatcher fetches and starts a descriptor when limits allow. -/
def execJobFetch (ctx q : Nat) (ecc : List (Nat × Nat × Nat)) (m : Met) (s : State) : Host.Outcome State Fault Refusal :=
  .next (s.jobFetch ctx q ecc m)

/-- STEP (R267). A STEP job runs a recipe once per element. -/
def execJobStep (tile : Nat) (m : Met) (s : State) : Host.Outcome State Fault Refusal :=
  .next (s.compute 1 tile m)

/-- REDUCE (R256). A REDUCE job sums sources into S0. -/
def execJobReduce (tile : Nat) (m : Met) (s : State) : Host.Outcome State Fault Refusal :=
  .next (s.compute 2 tile m)

/-- CONVERT (R256). A CONVERT job converts every element to another format. -/
def execJobConvert (tile : Nat) (m : Met) (s : State) : Host.Outcome State Fault Refusal :=
  .next (s.compute 3 tile m)

/-- FILL (R256). A FILL job sets every element to a converted value. -/
def execJobFill (tile : Nat) (m : Met) (s : State) : Host.Outcome State Fault Refusal :=
  .next (s.compute 4 tile m)

/-- COPY (R256). A COPY job copies bytes as stored. -/
def execJobCopy (tile : Nat) (m : Met) (s : State) : Host.Outcome State Fault Refusal :=
  .next (s.compute 5 tile m)

/-- CHECKSUM (R280). A CHECKSUM job computes the CRC-64 of a stream. -/
def execJobChecksum (tile : Nat) (m : Met) (s : State) : Host.Outcome State Fault Refusal :=
  .next (s.compute 6 tile m)

/-- NORM (R256). A NORM job sums squares of elements in FP64. -/
def execJobNorm (tile : Nat) (m : Met) (s : State) : Host.Outcome State Fault Refusal :=
  .next (s.compute 7 tile m)

/-- PUBLISH (R287). A PUBLISH exchanges entries naming two extents in every window. -/
def execJobPublish (job : Nat) (s : State) : Host.Outcome State Fault Refusal :=
  .next (s.publish job)

/-- PUBLISH_COMPLETE (R288). A PUBLISH completes once old-generation requests have drained. -/
def execPublishComplete (job : Nat) (s : State) : Host.Outcome State Fault Refusal :=
  .next (s.publishDone job)

/-- STRIP_START (R279). A tile at a strip boundary takes a new strip by deficit round robin. -/
def execStripStart (tile : Nat) (ecc : List (Nat × Nat × Nat)) (m : Met) (s : State) : Host.Outcome State Fault Refusal :=
  .next ((s.ungate 1 tile).stripStart tile ecc m)

/-- STRIP_COMMIT (R281). A journaled strip's computation and journal write end and its record is committed. -/
def execStripCommit (tile : Nat) (s : State) : Host.Outcome State Fault Refusal :=
  .next (s.stripCommit tile)

/-- STRIP_APPLY_DONE (R281). A strip's held outputs are applied and its reductions sent. -/
def execStripApplyDone (tile : Nat) (m : Met) (s : State) : Host.Outcome State Fault Refusal :=
  .next (s.stripApply tile m)

/-- REDUCTION_ACC_COMPLETE (R284). A reduction ACC's completion returns; ACC_LOST poisons its target. -/
def execReductionAccComplete (tag : Nat) (m : Met) (s : State) : Host.Outcome State Fault Refusal :=
  .next (s.redComplete tag m)

/-- JOB_COMPLETE (R264). A job's completion area is written and its vector raised. -/
def execJobComplete (job : Nat) (m : Met) (s : State) : Host.Outcome State Fault Refusal :=
  .next (s.jobComplete job m)

/-- JOB_FAULT_TIMEOUT (R261). A parked strip or queue reaches job_fault_timeout and fails or stops. -/
def execJobFaultTimeout (kind n : Nat) (m : Met) (s : State) : Host.Outcome State Fault Refusal :=
  .next (if kind = 2 then s.tenderTimeout n else s.jobTimeout (kind == 1) n m)

/-- JQ_ENABLE_WRITE (R253). A write of jq_enable enables or disables a job queue. -/
def execJqEnableWrite (queue v : Nat) (s : State) : Host.Outcome State Fault Refusal :=
  .next (s.jqEnable queue v)

/-- RECIPE_LOAD (R272). A recipe image is checked, loaded for a context and measured. -/
def execRecipeLoad (sess : Nat) (s : State) : Host.Outcome State Fault Refusal :=
  .next (s.recipeLoad sess)

/-- RECIPE_UNLOAD (R275). A loaded recipe is unloaded unless in use. -/
def execRecipeUnload (n : Nat) (s : State) : Host.Outcome State Fault Refusal :=
  .next (s.recipeUnload n)

end Sys2Proof.Machine
end

