-- ==== Sys2Proof/Machine/LinkRows.lean ====
section
/-! DEFINITION. Sys2Proof/Machine/LinkRows.lean: the meanings of the commands of one family: the Boroc link layer. -/

namespace Sys2Proof.Machine

open Sys2Proof

/-- IDLE_FLIT (R505). An IDLE flit is received and its acknowledgements taken. -/
def execIdleFlit (port : Nat) (f : Flit) (s : State) : Host.Outcome State Fault Refusal :=
  .next (s.flitIn port { f with fkind := 0 } ⟨[]⟩ ⟨false, false, false, false⟩)

/-- DATA_FLIT (R505). A sequenced DATA flit is received, checked, delivered or held. -/
def execDataFlit (port : Nat) (f : Flit) (m : Met) (k : Vouch) (s : State) : Host.Outcome State Fault Refusal :=
  .next (s.flitIn port f m k)

/-- CONT_FLIT (R505). A CONT flit is received and delivered in order. -/
def execContFlit (port : Nat) (f : Flit) (m : Met) (k : Vouch) (s : State) : Host.Outcome State Fault Refusal :=
  .next (s.flitIn port { f with fkind := 6 } m k)

/-- HANDSHAKE_FLIT (R457). A handshake flit is received and its segment joined. -/
def execHandshakeFlit (port : Nat) (f : Flit) (m : Met) (k : Vouch) (s : State) : Host.Outcome State Fault Refusal :=
  .next (s.flitIn port { f with fkind := 7 } m k)

/-- TRAIN_FLIT (R512). A training frame is received and handed to training. -/
def execTrainFlit (port : Nat) (f : Train) (s : State) : Host.Outcome State Fault Refusal :=
  .next (s.trainFrame port f)

/-- FLIT_TIME (R506). Each flit time a lane sends a retransmission, new flit or IDLE. -/
def execFlitTime (port : Nat) (s : State) : Host.Outcome State Fault Refusal :=
  .next (s.flitTime port)

/-- RTX_TIMER (R506). The retransmit timer expires and oldest is resent. -/
def execRtxTimer (port : Nat) (s : State) : Host.Outcome State Fault Refusal :=
  .next (s.rtxTimer port)

/-- CREDIT_RETURN_DUE (R498). 200 ns after the oldest unreturned slot a control slot returns credits. -/
def execCreditReturnDue (port : Nat) (s : State) : Host.Outcome State Fault Refusal :=
  .next (s.creditDue port)

/-- BEACON_IDLE (R508). A pool idle for beacon_idle gets a beacon. -/
def execBeaconIdle (port pool : Nat) (s : State) : Host.Outcome State Fault Refusal :=
  .next (s.beaconIdle port pool)

/-- DRIFT_RETRAIN (R510). A scheduled drift retrain runs at the first idle moment or within 100 ms. -/
def execDriftRetrain (port : Nat) (s : State) : Host.Outcome State Fault Refusal :=
  .next (s.driftRetrain port)

/-- FAST_RETRAIN (R514). A fast retrain is triggered and FAST frames exchanged. -/
def execFastRetrain (port : Nat) (s : State) : Host.Outcome State Fault Refusal :=
  .next (s.startRetrain port)

/-- FAST_RETRAIN_DONE (R514). DONE frames are exchanged and flits resume. -/
def execFastRetrainDone (port : Nat) (s : State) : Host.Outcome State Fault Refusal :=
  .next (s.retrainDone port)

/-- RETRAIN_LIMIT_EXPIRY (R514). A fast retrain attempt exceeds retrain_limit. -/
def execRetrainLimitExpiry (port : Nat) (s : State) : Host.Outcome State Fault Refusal :=
  .next (s.retrainAgain port)

/-- FULL_TRAINING (R513). A port begins full training. -/
def execFullTraining (port : Nat) (s : State) : Host.Outcome State Fault Refusal :=
  .next (s.fullTraining port)

/-- FULL_TRAINING_DONE (R513). Full training ends and the session handshake begins. -/
def execFullTrainingDone (port : Nat) (ok : Bool) (failed : List Nat) (s : State) : Host.Outcome State Fault Refusal :=
  .next (s.fullDone port ok failed)

/-- LANE_FAIL (R516). A lane loses lock, exceeds its FEC limit or fails training. -/
def execLaneFail (port lane cause : Nat) (s : State) : Host.Outcome State Fault Refusal :=
  .next (s.laneFail port lane cause)

/-- PORT_LOSS_TIMEOUT (R518). A link out of UP for port_loss_time goes DOWN and the port is lost. -/
def execPortLossTimeout (port : Nat) (s : State) : Host.Outcome State Fault Refusal :=
  .next ((s.portLossTimeout port).leaseCheck)

/-- LINK_DOWN_RETRY (R511). A DOWN link tries training again every 1 s. -/
def execLinkDownRetry (port : Nat) (s : State) : Host.Outcome State Fault Refusal :=
  .next (s.fullTraining port)

/-- NARROW_IDLE (R519). A transmitter idle for 1 µs in P1 narrows to width 2. -/
def execNarrowIdle (port : Nat) (s : State) : Host.Outcome State Fault Refusal :=
  .next (s.narrowIdle port)

/-- WIDTH_CHANGE_EFFECT (R519). A width change takes effect 256 flit times after its control slot. -/
def execWidthChangeEffect (port : Nat) (tx : Bool) (s : State) : Host.Outcome State Fault Refusal :=
  .next (s.widthEffect port tx)

/-- PORT_FENCE (R522). port_cmd FENCE fences a Boroc port. -/
def execPortFence (port : Nat) (s : State) : Host.Outcome State Fault Refusal :=
  .next ((s.portFence port).2.leaseCheck)

/-- PORT_REPAIR (R522). port_cmd REPAIR repairs a Boroc port. -/
def execPortRepair (port : Nat) (s : State) : Host.Outcome State Fault Refusal :=
  .next ((s.portRepair port).2)

/-- PORT_RETRAIN (R522). port_cmd RETRAIN starts a fast retrain. -/
def execPortRetrain (port : Nat) (s : State) : Host.Outcome State Fault Refusal :=
  .next ((s.portRetrain port).2)

/-- PORT_RESTART (R518). port_cmd RESTART takes the link DOWN. -/
def execPortRestart (port : Nat) (s : State) : Host.Outcome State Fault Refusal :=
  .next ((s.portRestart port).leaseCheck)

end Sys2Proof.Machine
end

