-- ==== Sys2Proof/Machine/ListRows.lean ====
section
/-! DEFINITION. Sys2Proof/Machine/ListRows.lean: the meanings of the commands of one family: the Light List. -/

namespace Sys2Proof.Machine

open Sys2Proof

/-- READ (R664). A Light List READ message returns object values. -/
def execLlRead (sess msg port : Nat) (items : List LlItem) (s : State) : Host.Outcome State Fault Refusal :=
  .next (s.serveMsg sess msg port 1 items ⟨false, false, false, false⟩)

/-- WRITE (R664). A Light List WRITE message writes object values. -/
def execLlWrite (sess msg port : Nat) (items : List LlItem) (k : Vouch) (s : State) : Host.Outcome State Fault Refusal :=
  .next (s.serveMsg sess msg port 2 items k)

/-- READ_BLOCK (R667). A READ_BLOCK reads part of a snapshot. -/
def execLlReadBlock (sess msg port : Nat) (items : List LlItem) (s : State) : Host.Outcome State Fault Refusal :=
  .next (s.serveMsg sess msg port 3 items ⟨false, false, false, false⟩)

/-- WRITE_BLOCK (R667). A WRITE_BLOCK adds to an assembly and writes when full. -/
def execLlWriteBlock (sess msg port : Nat) (items : List LlItem) (k : Vouch) (s : State) : Host.Outcome State Fault Refusal :=
  .next (s.serveMsg sess msg port 4 items k)

/-- SUBSCRIBE (R674). A session subscribes to an object. -/
def execLlSubscribe (sess msg port : Nat) (items : List LlItem) (s : State) : Host.Outcome State Fault Refusal :=
  .next (s.serveMsg sess msg port 5 items ⟨false, false, false, false⟩)

/-- UNSUBSCRIBE (R674). A session ends a subscription. -/
def execLlUnsubscribe (sess msg port : Nat) (items : List LlItem) (s : State) : Host.Outcome State Fault Refusal :=
  .next (s.serveMsg sess msg port 6 items ⟨false, false, false, false⟩)

/-- PING (R664). A PING message is answered. -/
def execLlPing (sess msg port : Nat) (s : State) : Host.Outcome State Fault Refusal :=
  .next (s.serveMsg sess msg port 7 [] ⟨false, false, false, false⟩)

/-- ACK (R674). An ACK acknowledges an EVENT message. -/
def execLlAck (sess msg : Nat) (s : State) : Host.Outcome State Fault Refusal :=
  .next (s.llAck sess msg)

/-- SUBSCRIPTION_CHECK (R674). Every 1 ms changed subscribed values are sent as EVENT. -/
def execSubscriptionCheck (sess : Nat) (s : State) : Host.Outcome State Fault Refusal :=
  .next (s.checkSubs sess)

/-- EVENT_RESEND (R674). An unacknowledged EVENT is resent every 100 ms. -/
def execEventResend (sess msg : Nat) (s : State) : Host.Outcome State Fault Refusal :=
  .next (s.resendEvent sess msg)

/-- ACQUIRE (R661). A principal acquires the lease. -/
def execLeaseAcquire (sess : Nat) (s : State) : Host.Outcome State Fault Refusal :=
  .next (s.leaseAcquire sess)

/-- RENEW (R661). The holder renews the lease. -/
def execLeaseRenew (sess : Nat) (s : State) : Host.Outcome State Fault Refusal :=
  .next (s.leaseRenew sess)

/-- RELEASE (R661). The holder releases the lease. -/
def execLeaseRelease (sess : Nat) (s : State) : Host.Outcome State Fault Refusal :=
  .next (s.leaseRelease sess)

/-- LEASE_EXPIRE (R662). The lease expires lease_time after its last renewal. -/
def execLeaseExpire (s : State) : Host.Outcome State Fault Refusal :=
  .next (s.leaseExpire)

/-- SS_HELLO (R669). An LLP client hello is answered with SS_RETRY or SS_REPLY. -/
def execSsHello (addr : Nat) (body : Bytes) (s : State) : Host.Outcome State Fault Refusal :=
  .next (s.ssHello addr body)

/-- SS_FINISH (R669). A client finish is checked and SS_DONE sent. -/
def execSsFinish (addr : Nat) (body : Bytes) (k : Vouch) (s : State) : Host.Outcome State Fault Refusal :=
  .next (s.ssFinish addr body k)

/-- LLP_HANDSHAKE_TIMEOUT (R672). A handshake not done within 5 s is discarded. -/
def execLlpHandshakeTimeout (addr : Nat) (s : State) : Host.Outcome State Fault Refusal :=
  .next (s.hsTimeout addr)

/-- LLP_IDLE_TIMEOUT (R672). A session idle for llp_idle ends. -/
def execLlpIdleTimeout (sess : Nat) (s : State) : Host.Outcome State Fault Refusal :=
  .next (s.endSession sess)

/-- LLP_DATAGRAM (R670). A secured LLP datagram is checked for replay and decrypted. -/
def execLlpDatagram (sess ctr msg mgmt : Nat) (tagOk : Bool) (body : Bytes) (k : Vouch) (s : State) : Host.Outcome State Fault Refusal :=
  .next (s.datagram sess ctr msg mgmt tagOk body k)

/-- MB_CMD (R678). A host submits the mailbox message. -/
def execMbCmd (port v : Nat) (k : Vouch) (s : State) : Host.Outcome State Fault Refusal :=
  .next (s.wake.boxCmd port v k)

/-- LLM (R680). A Light List message on MGT is received and answered. -/
def execLlm (port tag agt len : Nat) (slots : List Slot) (k : Vouch) (s : State) : Host.Outcome State Fault Refusal :=
  .next (s.llm port tag agt len slots k)

/-- NV_FLASH_WRITE_DONE (R654). A class N write reaches both flash parts and nv_pending clears. -/
def execNvFlashWriteDone (s : State) : Host.Outcome State Fault Refusal :=
  .next (s.nvDone)

end Sys2Proof.Machine
end

