-- ==== Sys2Proof/Machine/LossRows.lean ====
section
/-! DEFINITION. Sys2Proof/Machine/LossRows.lean: the meanings of the commands of one family: loss of agents and the fail-over of slices. -/

namespace Sys2Proof.Machine

open Sys2Proof

/-- AGENT_LOSS_TIME (R547). An agent without route for agent_loss_time is declared lost. -/
def execAgentLossTime (agt : Nat) (s : State) : Host.Outcome State Fault Refusal :=
  .next (s.agentLossTime agt)

/-- AGT_FENCE (R547). The operator declares an agent lost. -/
def execAgtFence (agt : Nat) (s : State) : Host.Outcome State Fault Refusal :=
  .next ((s.agtFence agt).2)

/-- PURGE_WALK_DONE (R553). A slice ends its purge walk; when all end the agent is ABSENT. -/
def execPurgeWalkDone (hs agt : Nat) (s : State) : Host.Outcome State Fault Refusal :=
  .next (s.purgeWalk hs agt)

/-- AGT_REJOIN (R552). An ABSENT agent becomes PRESENT. -/
def execAgtRejoin (agt : Nat) (s : State) : Host.Outcome State Fault Refusal :=
  .next ((s.agtRejoin agt).2)

/-- SLICE_FAILOVER (R556). A lost home slice is mapped to a spare and ports hold its requests. -/
def execSliceFailover (hs : Nat) (s : State) : Host.Outcome State Fault Refusal :=
  .next (s.sliceFailover hs)

/-- CENSUS_CLOSE (R563). The census closes at the last report or census_deadline. -/
def execCensusClose (hs : Nat) (s : State) : Host.Outcome State Fault Refusal :=
  .next (s.censusClose hs)

/-- FAILOVER_HOLD_END (R556). The hold ends and retained then held requests are re-issued. -/
def execFailoverHoldEnd (hs : Nat) (s : State) : Host.Outcome State Fault Refusal :=
  .next (s.holdEnd hs)

/-- UNK_RELEASE (R569). A CAN is removed from the unresolved set. -/
def execUnkRelease (hs can : Nat) (s : State) : Host.Outcome State Fault Refusal :=
  .next (s.unkRelease hs can)

end Sys2Proof.Machine
end

