-- ==== Sys2Proof/Machine/PowerRows.lean ====
section
/-! DEFINITION. Sys2Proof/Machine/PowerRows.lean: the meanings of the commands of one family: power states and thermal limits. -/

namespace Sys2Proof.Machine

open Sys2Proof

/-- PSTATE_TARGET_WRITE (R637). A write of pstate_target sets the power state sought. -/
def execPstateTargetWrite (v : Nat) (llp : Bool) (s : State) : Host.Outcome State Fault Refusal :=
  .next ((s.setTarget3 v llp).2)

/-- P1_GATE_IDLE (R636). A unit idle for p1_gate_idle is power-gated. -/
def execP1GateIdle (kind phys : Nat) (s : State) : Host.Outcome State Fault Refusal :=
  .next (s.gateIdle kind phys)

/-- P2_IDLE (R638). The controller idle for p2_idle enters P2. -/
def execP2Idle (s : State) : Host.Outcome State Fault Refusal :=
  .next (s.enterP2)

/-- WAKE_EVENT (R639). A wake event leaves or reverses P2. -/
def execWakeEvent (s : State) : Host.Outcome State Fault Refusal :=
  .next (s.wake)

/-- P3_ENTRY (R640). The idle controller enters P3 and writes its checkpoint. -/
def execP3Entry (m : Met) (s : State) : Host.Outcome State Fault Refusal :=
  .next (s.enterP3 m)

/-- P3_IDLE_TIMEOUT (R640). No idle within 1 s ends the P3 write with BUSY. -/
def execP3IdleTimeout (s : State) : Host.Outcome State Fault Refusal :=
  .next (s.p3Timeout)

/-- P3_EXIT (R642). PWRGOOD_CORE rises in P3 exit and units restore the checkpoint. -/
def execP3Exit (fails : List (Nat × Nat)) (s : State) : Host.Outcome State Fault Refusal :=
  .next (s.exitP3 fails)

/-- P3_LINK_GRACE_END (R641). p3_link_grace ends and ROUTES loss applies again. -/
def execP3LinkGraceEnd (s : State) : Host.Outcome State Fault Refusal :=
  .next (s.graceEnd)

/-- THERMAL_SAMPLE (R644). Every 100 µs the temperature sensors are read. -/
def execThermalSample (ts : List Nat) (s : State) : Host.Outcome State Fault Refusal :=
  .next (s.thermal ts)

/-- THERMTRIP (R645). A sensor at 115 °C asserts THERMTRIP_N. -/
def execThermtrip (s : State) : Host.Outcome State Fault Refusal :=
  .next (s.thermtrip)

/-- ENERGY_BUCKET_UPDATE (R646). Every 1 ms package power is read by PMBus and the bucket updated. -/
def execEnergyBucketUpdate (rails : List (Bool × Nat)) (s : State) : Host.Outcome State Fault Refusal :=
  .next (s.energy rails)

/-- GOVERNOR_TICK (R647). Every gov_period the governor raises, lowers or holds its level. -/
def execGovernorTick (s : State) : Host.Outcome State Fault Refusal :=
  .next (s.governor)

/-- WEAR_LEDGER_TICK (R649). Each second the wear ledger adds to a bin, writing flash hourly. -/
def execWearLedgerTick (v : Nat) (s : State) : Host.Outcome State Fault Refusal :=
  .next (s.wearTick v)

end Sys2Proof.Machine
end

