-- ==== Sys2Proof/Machine/Requests.lean ====
section
/-! DEFINITION. Sys2Proof/Machine/Requests.lean: the meanings of the commands of one family: requests of agents and their completion. -/

namespace Sys2Proof.Machine

open Sys2Proof

/-- RDS (R191). A shared coherent read request is admitted at a port and later served by its home slice. -/
def execRds (port src : Nat) (h : Hdr) (s : State) : Host.Outcome State Fault Refusal :=
  .next (s.receive .rds port src h [])

/-- RDX (R191). An ownership read request is admitted and served with grant M. -/
def execRdx (port src : Nat) (h : Hdr) (s : State) : Host.Outcome State Fault Refusal :=
  .next (s.receive .rdx port src h [])

/-- UPG (R191). An upgrade request asks for ownership of a line already held. -/
def execUpg (port src : Nat) (h : Hdr) (s : State) : Host.Outcome State Fault Refusal :=
  .next (s.receive .upg port src h [])

/-- RDONCE (R104). A non-caching read of up to 128 bytes, possibly through a view, is admitted and served. -/
def execRdOnce (port src : Nat) (h : Hdr) (s : State) : Host.Outcome State Fault Refusal :=
  .next (s.receive .rdonce port src h [])

/-- WRFULL (R117). A full-line write is admitted and completes when the merge buffer holds it. -/
def execWrFull (port src : Nat) (h : Hdr) (slots : List Slot) (s : State) : Host.Outcome State Fault Refusal :=
  .next (s.receive .wrfull port src h slots)

/-- WRPART (R700). A partial write within one line is admitted and merged. -/
def execWrPart (port src : Nat) (h : Hdr) (slots : List Slot) (s : State) : Host.Outcome State Fault Refusal :=
  .next (s.receive .wrpart port src h slots)

/-- EVC (R177). A clean eviction is served without wait list or RETRY. -/
def execEvc (port src : Nat) (h : Hdr) (s : State) : Host.Outcome State Fault Refusal :=
  .next (s.receive .evc port src h [])

/-- WBD (R177). A dirty write-back is served and written home without wait list or RETRY. -/
def execWbd (port src : Nat) (h : Hdr) (slots : List Slot) (s : State) : Host.Outcome State Fault Refusal :=
  .next (s.receive .wbd port src h slots)

/-- ACC (R224). An accumulate-store adds up to 32 contributions to one target line in the accumulation cache. -/
def execAcc (port src : Nat) (h : Hdr) (slots : List Slot) (s : State) : Host.Outcome State Fault Refusal :=
  .next (s.receive .acc port src h slots)

/-- ATOM_FETCH_ADD (R110). A far atomic fetch-add is applied at the home slice and returns the old value. -/
def execAtomFetchAdd (port src : Nat) (h : Hdr) (slots : List Slot) (s : State) : Host.Outcome State Fault Refusal :=
  .next (s.receive .atom port src { h with sub := 0 } slots)

/-- ATOM_SWAP (R109). A far atomic swap is applied and returns the old value. -/
def execAtomSwap (port src : Nat) (h : Hdr) (slots : List Slot) (s : State) : Host.Outcome State Fault Refusal :=
  .next (s.receive .atom port src { h with sub := 1 } slots)

/-- ATOM_COMPARE_SWAP (R109). A far atomic compare-swap compares bit patterns and returns the old value. -/
def execAtomCompareSwap (port src : Nat) (h : Hdr) (slots : List Slot) (s : State) : Host.Outcome State Fault Refusal :=
  .next (s.receive .atom port src { h with sub := 2 } slots)

/-- HINT_PREFER_HBM (R341). A HINT sets the placement target of its pages to HBM. -/
def execHintPreferHbm (port src : Nat) (h : Hdr) (s : State) : Host.Outcome State Fault Refusal :=
  .next (s.receive .hint port src { h with sub := 1 } [])

/-- HINT_PREFER_DDR5 (R341). A HINT sets the placement target of its pages to DDR5. -/
def execHintPreferDdr5 (port src : Nat) (h : Hdr) (s : State) : Host.Outcome State Fault Refusal :=
  .next (s.receive .hint port src { h with sub := 2 } [])

/-- HINT_EXPECT_READS (R341). A HINT sets targets to HBM only while more than soon_reserve HBM frames are free. -/
def execHintExpectReads (port src : Nat) (h : Hdr) (s : State) : Host.Outcome State Fault Refusal :=
  .next (s.receive .hint port src { h with sub := 3 } [])

/-- DBELL (R249). An agent doorbell advances a job queue tail if accepted. -/
def execDbell (port src : Nat) (h : Hdr) (slots : List Slot) (s : State) : Host.Outcome State Fault Refusal :=
  .next (s.receive .dbell port src h slots)

/-- FENCE_C (R127). A completion fence is admitted and closes when every covered request has completed. -/
def execFenceC (port src : Nat) (h : Hdr) (s : State) : Host.Outcome State Fault Refusal :=
  .next (s.receive .fence port src { h with sub := 0 } [])

/-- FENCE_O (R127). An ordering fence holds later requests until covered requests are serialised. -/
def execFenceO (port src : Nat) (h : Hdr) (s : State) : Host.Outcome State Fault Refusal :=
  .next (s.receive .fence port src { h with sub := 1 } [])

/-- FENCE_CLOSE (R129). A fence completes with OK once what it covers has completed or been serialised. -/
def execFenceClose (port agt tag : Nat) (s : State) : Host.Outcome State Fault Refusal :=
  .next (s.closeFence port agt tag)

/-- PTC_FETCH_DONE (R63). A chart fetch for a PTC miss returns and the requests waiting behind it are translated. -/
def execPtcFetchDone (port ctx vpn eccA eccB : Nat) (s : State) : Host.Outcome State Fault Refusal :=
  .next (s.fetchDone port ctx vpn eccA eccB)

end Sys2Proof.Machine
end

