-- ==== Sys2Proof/Machine/ResetRows.lean ====
section
/-! DEFINITION. Sys2Proof/Machine/ResetRows.lean: the meanings of the commands of one family: resets and start-up. -/

namespace Sys2Proof.Machine

open Sys2Proof

/-- PWRGOOD_AON_LOW (R598). Always-on power-good falls and a power-on episode begins. -/
def execPwrgoodAonLow (s : State) : Host.Outcome State Fault Refusal :=
  .next (s.aonLow)

/-- CORE_BROWN_OUT (R598). PWRGOOD_CORE falls outside P3 and a system episode begins. -/
def execCoreBrownOut (s : State) : Host.Outcome State Fault Refusal :=
  .next (s.coreFall)

/-- RST_N_INPUT (R607). A filtered low on RST_N starts a system episode. -/
def execRstNInput (s : State) : Host.Outcome State Fault Refusal :=
  .next (s.rstInput)

/-- WATCHDOG_EXPIRY (R599). The watchdog expires, giving a core reset or escalating to system. -/
def execWatchdogExpiry (s : State) : Host.Outcome State Fault Refusal :=
  .next (s.watchdog)

/-- RST_CMD_CORE (R602). rst_cmd 1 starts a core reset 100 µs after its answer. -/
def execRstCmdCore (s : State) : Host.Outcome State Fault Refusal :=
  .next (s.softReset 1)

/-- RST_CMD_SYSTEM (R602). rst_cmd 2 starts a system reset 100 µs after its answer. -/
def execRstCmdSystem (s : State) : Host.Outcome State Fault Refusal :=
  .next (s.softReset 2)

/-- DBG_REQ (R601). DBG_REQ_N low starts a system reset if INVASIVE, else is counted. -/
def execDbgReq (s : State) : Host.Outcome State Fault Refusal :=
  .next (s.dbgReq)

/-- CLOCK_FAILURE (R598). Neither root PLL gives an edge and a system reset follows. -/
def execClockFailure (s : State) : Host.Outcome State Fault Refusal :=
  .next (s.assertSrc 6 false)

/-- LOCKUP (R600). The mesh deadlock detector fires and a system reset follows. -/
def execLockup (s : State) : Host.Outcome State Fault Refusal :=
  .next (s.assertSrc 7 false)

/-- PERST (R603). A PCIe fundamental reset resets one port's functions. -/
def execPerst (port : Nat) (s : State) : Host.Outcome State Fault Refusal :=
  .next ((s.perst port).leaseCheck)

/-- EPISODE_END (R604). The stretch after the last release ends and RST_N is released. -/
def execEpisodeEnd (straps : Nat) (s : State) : Host.Outcome State Fault Refusal :=
  .next (s.episodeEnd straps)

/-- RST_N_SAMPLE (R606). 10 µs after release RST_N is sampled and may reassert the source. -/
def execRstNSample (low : Bool) (s : State) : Host.Outcome State Fault Refusal :=
  .next (s.rstSample low)

/-- TRIM_LOAD_DONE (R610). A trim load ends with its CRC checked, repeated or defaulted. -/
def execTrimLoadDone (ok : Bool) (s : State) : Host.Outcome State Fault Refusal :=
  .next (s.trimDone ok)

/-- OSC_DLY_WAIT_END (R634). The reference wait ends and references are trusted. -/
def execOscDlyWaitEnd (locks : Nat) (s : State) : Host.Outcome State Fault Refusal :=
  .next (s.oscDone locks)

/-- POWER_ON_BIST_DONE (R613). Power-on BIST of every unit ends. -/
def execPowerOnBistDone (fails : List (Nat × Nat)) (s : State) : Host.Outcome State Fault Refusal :=
  .next (s.bistDone fails)

/-- KEEPER_BOOT_DONE (R447). Keeper ROM verification ends and firmware starts or ROM recovery holds. -/
def execKeeperBootDone (sigA sigB idOk : Bool) (bad : List Nat) (s : State) : Host.Outcome State Fault Refusal :=
  .next (s.bootDone sigA sigB idOk bad)

end Sys2Proof.Machine
end

