-- ==== Sys2Proof/Machine/SecurityRows.lean ====
section
/-! DEFINITION. Sys2Proof/Machine/SecurityRows.lean: the meanings of the commands of one family: life cycle, keys, attestation, link sessions and device sets. -/

namespace Sys2Proof.Machine

open Sys2Proof

/-- ENTER_SERVICE (R438). The controller moves from MAINTENANCE to SERVICE after checks. -/
def execEnterService (s : State) : Host.Outcome State Fault Refusal :=
  .next (s.enterService)

/-- ENTER_MAINTENANCE (R438). The controller moves from SERVICE to MAINTENANCE. -/
def execEnterMaintenance (s : State) : Host.Outcome State Fault Refusal :=
  .next (s.enterMaintenance)

/-- DECOMMISSION (R440). The kill fuse is blown and the part is DECOMMISSIONED. -/
def execDecommission (s : State) : Host.Outcome State Fault Refusal :=
  .next (s.decommission)

/-- ARB_COMMIT (R446). Anti-rollback fuse bits are blown up to the running image's arb. -/
def execArbCommit (s : State) : Host.Outcome State Fault Refusal :=
  .next (s.arbCommit.2)

/-- GENERATE (R453). Key slot 0 and the host-page key of a context are filled. -/
def execKeyGenerate (ctx : Nat) (s : State) : Host.Outcome State Fault Refusal :=
  .next (s.generate ctx)

/-- REKEY (R453). The inactive slot is filled and the rekey sweep started. -/
def execKeyRekey (ctx : Nat) (s : State) : Host.Outcome State Fault Refusal :=
  .next (s.rekey ctx)

/-- REKEY_CHUNK (R327). A chunk is re-encrypted as one serialised operation. -/
def execRekeyChunk (te rec : Nat) (m : Met) (s : State) : Host.Outcome State Fault Refusal :=
  .next ((s.ungate 2 te).sweepChunk te rec m)

/-- DM_EXTEND (R448). A tenant extends the Daymark with 32 bytes. -/
def execDmExtend (ctx : Nat) (bs : Bytes) (s : State) : Host.Outcome State Fault Refusal :=
  .next (s.dmExtend ctx bs)

/-- ATTEST_DEVICE (R451). A device attestation report is requested. -/
def execAttestDevice (s : State) : Host.Outcome State Fault Refusal :=
  .next (s.attest noCtx)

/-- ATTEST_CONTEXT (R451). A context attestation report is requested. -/
def execAttestContext (ctx : Nat) (s : State) : Host.Outcome State Fault Refusal :=
  .next (s.attest ctx)

/-- REPORT_READY (R451). A signed report is built and the next queued request starts. -/
def execReportReady (s : State) : Host.Outcome State Fault Refusal :=
  .next (s.reportReady)

/-- LS_HELLO (R458). A session hello is received from an initiating peer. -/
def execLsHello (port : Nat) (body : Bytes) (k : Vouch) (s : State) : Host.Outcome State Fault Refusal :=
  .next (s.lsHello port body k)

/-- LS_REPLY (R459). A partner's reply is checked and keys derived. -/
def execLsReply (port : Nat) (body : Bytes) (k : Vouch) (s : State) : Host.Outcome State Fault Refusal :=
  .next (s.lsReply port body k)

/-- LS_FINISH (R458). An initiator's finish is received by a responding controller. -/
def execLsFinish (port : Nat) (body : Bytes) (k : Vouch) (s : State) : Host.Outcome State Fault Refusal :=
  .next (s.lsFinish port body k)

/-- LS_DONE (R458). The partner's confirmation arrives and the session is up. -/
def execLsDone (port : Nat) (body : Bytes) (k : Vouch) (s : State) : Host.Outcome State Fault Refusal :=
  .next (s.lsDone port body k)

/-- LS_ABORT (R463). A handshake abort is received and counted as a failed handshake. -/
def execLsAbort (port : Nat) (s : State) : Host.Outcome State Fault Refusal :=
  .next (s.lsAbort port)

/-- LINK_REKEY_DUE (R461). An hour or a lane count limit approaches and LK_OFFER is sent. -/
def execLinkRekeyDue (port : Nat) (s : State) : Host.Outcome State Fault Refusal :=
  .next (s.rekeyDue port)

/-- LK_OFFER (R461). A rekey offer is received and answered. -/
def execLkOffer (port : Nat) (body : Bytes) (s : State) : Host.Outcome State Fault Refusal :=
  .next (s.lkOffer port body)

/-- LK_ACCEPT (R461). A rekey accept arrives and the direction switches key phase. -/
def execLkAccept (port : Nat) (body : Bytes) (s : State) : Host.Outcome State Fault Refusal :=
  .next (s.lkAccept port body)

/-- OLD_KEY_EXPIRE (R461). 1 ms after the new phase the old receive key is dropped. -/
def execOldKeyExpire (port : Nat) (s : State) : Host.Outcome State Fault Refusal :=
  .next (s.oldKeyExpire port)

/-- LANE_COUNT_LIMIT (R462). A lane count reaches 2⁴⁰+2³² without a new key and the link goes down. -/
def execLaneCountLimit (port : Nat) (s : State) : Host.Outcome State Fault Refusal :=
  .next (s.laneCountLimit port)

/-- LINK_RELEASE (R463). The operator releases a quarantined port. -/
def execLinkRelease (port : Nat) (s : State) : Host.Outcome State Fault Refusal :=
  .next ((s.linkRelease port).2)

/-- SET_FORM (R471). A device set is formed on its founding node. -/
def execSetForm (slot : Nat) (s : State) : Host.Outcome State Fault Refusal :=
  .next (s.setForm slot)

/-- SET_DESTROY (R472). The node's sealed set key is destroyed. -/
def execSetDestroy (slot : Nat) (s : State) : Host.Outcome State Fault Refusal :=
  .next (s.setDestroy slot)

/-- JOIN_REQ (R471). A set join request is received by a member. -/
def execJoinReq (src : Nat) (body : Bytes) (k : Vouch) (s : State) : Host.Outcome State Fault Refusal :=
  .next (s.joinReq src body k)

/-- JOIN_ACK (R471). A member's join answer is received by the founder. -/
def execJoinAck (src : Nat) (body : Bytes) (k : Vouch) (s : State) : Host.Outcome State Fault Refusal :=
  .next (s.joinAck src body k)

/-- JOIN_KEY (R471). The founder's encrypted set key is received and sealed. -/
def execJoinKey (src : Nat) (body : Bytes) (k : Vouch) (s : State) : Host.Outcome State Fault Refusal :=
  .next (s.joinKey src body k)

/-- JOIN_DONE (R471). A member's join result is received by the founder. -/
def execJoinDone (src : Nat) (body : Bytes) (s : State) : Host.Outcome State Fault Refusal :=
  .next (s.joinDone src body)

/-- JOIN_TIMEOUT (R471). A member does not answer within remote_timeout and formation fails. -/
def execJoinTimeout (node : Nat) (s : State) : Host.Outcome State Fault Refusal :=
  .next (s.joinTimeout node)

/-- DBG_NONCE_READ (R476). A read of dbg_nonce issues a new nonce. -/
def execDbgNonceRead (s : State) : Host.Outcome State Fault Refusal :=
  .next (s.dbgNonceRead.2)

/-- DBG_TOKEN (R475). A debug unlock token is checked and the scope opened. -/
def execDbgToken (tok : Bytes) (k : Vouch) (s : State) : Host.Outcome State Fault Refusal :=
  .next (s.dbgToken tok k)

/-- DBG_NONCE_EXPIRE (R476). A debug nonce expires after 10 minutes. -/
def execDbgNonceExpire (s : State) : Host.Outcome State Fault Refusal :=
  .next (s.dbgNonceExpire)

/-- JTAG_EXTEST_SELECT (R478). Selecting EXTEST, CLAMP or HIGHZ outside MAINTENANCE destroys class C keys. -/
def execJtagExtestSelect (s : State) : Host.Outcome State Fault Refusal :=
  .next (s.extest)

/-- IDE_KM_REQUEST (R468). An IDE_KM request over SPDM on PF0 is answered. -/
def execIdeKmRequest (port stream : Nat) (go auth : Bool) (s : State) : Host.Outcome State Fault Refusal :=
  .next (s.ideKm port stream go auth)

end Sys2Proof.Machine
end

