-- ==== Sys2Proof/Machine/SweepRows.lean ====
section
/-! DEFINITION. Sys2Proof/Machine/SweepRows.lean: the meanings of the commands of one family: sweeps. -/

namespace Sys2Proof.Machine

open Sys2Proof

/-- SWEEP_RECORD_TAKE (R321). A pending frame takes a freed sweep record. -/
def execSweepRecordTake (s : State) : Host.Outcome State Fault Refusal :=
  .next (s.sweepTake)

/-- SWEEP_CHUNK (R320). A sweep's chunk operation is serialised and the watermark passes it. -/
def execSweepChunk (te rec : Nat) (m : Met) (s : State) : Host.Outcome State Fault Refusal :=
  .next ((s.ungate 2 te).sweepChunk te rec m)

/-- SWEEP_FRAME_DONE (R328). A frame's sweep ends, its record is freed and its slot updated. -/
def execSweepFrameDone (rec : Nat) (s : State) : Host.Outcome State Fault Refusal :=
  .next (s.sweepFrameDone rec)

/-- ENGINE_SHOOTDOWN_ACK (R330). A tile or engine drops withdrawn entries and acknowledges. -/
def execEngineShootdownAck (unit : Nat) (s : State) : Host.Outcome State Fault Refusal :=
  .next (s.shootdownAck unit)

/-- TE_ACK_TIMEOUT (R331). An engine or tile that has not acknowledged is fenced for quiesce timeout. -/
def execTeAckTimeout (unit : Nat) (m : Met) (s : State) : Host.Outcome State Fault Refusal :=
  .next (s.ackMissed unit m)

end Sys2Proof.Machine
end

