-- ==== Sys2Proof/Machine/TenderRows.lean ====
section
/-! DEFINITION. Sys2Proof/Machine/TenderRows.lean: the meanings of the commands of one family: tender operations, migration and the BLK exchanges. -/

namespace Sys2Proof.Machine

open Sys2Proof

/-- TR_DBELL (R297). The driver writes a tender ring doorbell. -/
def execTrDbell (port data : Nat) (s : State) : Host.Outcome State Fault Refusal :=
  .next (s.wake.trBell port data)

/-- TR_ENABLE_WRITE (R299). A write of tr_enable enables or disables a tender ring. -/
def execTrEnableWrite (ring v : Nat) (s : State) : Host.Outcome State Fault Refusal :=
  .next (s.trEnable ring v)

/-- TENDER_FETCH (R298). A tender descriptor is fetched and started when allowed. -/
def execTenderFetch (ring : Nat) (rd : HostRd) (s : State) : Host.Outcome State Fault Refusal :=
  .next (s.tenderFetch ring rd)

/-- TENDER_COPY (R302). A tender COPY moves bytes between CVAs of a context. -/
def execTenderCopy (te : Nat) (ecc : List (Nat × Nat × Nat)) (m : Met) (s : State) : Host.Outcome State Fault Refusal :=
  .next ((s.ungate 2 te).runCopy te ecc m)

/-- MIGRATE (R305). A MIGRATE moves pages to the other tier. -/
def execTenderMigrate (op te : Nat) (ecc : List (Nat × Nat × Nat)) (s : State) : Host.Outcome State Fault Refusal :=
  .next ((s.ungate 2 te).runMigrate op te ecc)

/-- PUT (R312). A PUT sends chunks to a remote extent on BLK. -/
def execTenderPut (te : Nat) (ecc : List (Nat × Nat × Nat)) (m : Met) (s : State) : Host.Outcome State Fault Refusal :=
  .next ((s.ungate 2 te).runPut te ecc m)

/-- GET (R312). A GET fetches chunks from a remote extent on BLK. -/
def execTenderGet (te : Nat) (ecc : List (Nat × Nat × Nat)) (s : State) : Host.Outcome State Fault Refusal :=
  .next ((s.ungate 2 te).runGet te ecc)

/-- HOST_IN (R309). A HOST_IN reads frames from host memory into an extent. -/
def execHostIn (te : Nat) (rd : HostRd) (m : Met) (s : State) : Host.Outcome State Fault Refusal :=
  .next ((s.ungate 2 te).runHostIn te rd m)

/-- HOST_OUT (R309). A HOST_OUT copies frames of an extent to host memory. -/
def execHostOut (te : Nat) (err : Bool) (m : Met) (s : State) : Host.Outcome State Fault Refusal :=
  .next ((s.ungate 2 te).runHostOut te err m)

/-- UNWRAP (R317). An UNWRAP imports a wrapped weight image into a context. -/
def execUnwrap (te : Nat) (keyOk tagOk : Bool) (plain : Bytes) (ecc : List (Nat × Nat × Nat)) (m : Met) (s : State) : Host.Outcome State Fault Refusal :=
  .next ((s.ungate 2 te).runUnwrap te keyOk tagOk plain ecc m)

/-- DRAIN (R308). A DRAIN migrates every extent frame out of a channel pair. -/
def execDrain (op : Nat) (s : State) : Host.Outcome State Fault Refusal :=
  .next (s.runDrain op)

/-- TENDER_CHUNK_DONE (R290). An engine finishes a 4 KiB chunk of an operation. -/
def execTenderChunkDone (te op chunk : Nat) (m : Met) (s : State) : Host.Outcome State Fault Refusal :=
  .next (s.chunkDone te op chunk m)

/-- TENDER_COMPLETE (R300). A tender operation ends and its completion bytes are written. -/
def execTenderComplete (op : Nat) (s : State) : Host.Outcome State Fault Refusal :=
  .next (s.tenderComplete op)

/-- MIGRATION_START (R306). A migration takes a record and claims its destination. -/
def execMigrationStart (kind n : Nat) (s : State) : Host.Outcome State Fault Refusal :=
  .next (s.migrationStart kind n)

/-- MIGRATION_PASS_END (R307). A copy pass ends and the migration either passes again or begins the write hold. -/
def execMigrationPassEnd (frame : Nat) (s : State) : Host.Outcome State Fault Refusal :=
  .next (s.passEnd frame)

/-- MIGRATION_FINAL_PASS_END (R307). The final pass ends and the switch by internal commit begins. -/
def execMigrationFinalPassEnd (frame : Nat) (m : Met) (s : State) : Host.Outcome State Fault Refusal :=
  .next (s.finalPassEnd frame m)

/-- MIGRATION_DONE (R307). Old-generation requests drain, the write hold ends and the source frame is freed. -/
def execMigrationDone (frame : Nat) (s : State) : Host.Outcome State Fault Refusal :=
  .next ((s.migrationDone frame).rekeyChecks)

/-- PLACEMENT_MIGRATION_START (R342). A frame whose target differs from its tier starts a placement migration. -/
def execPlacementMigrationStart (s : State) : Host.Outcome State Fault Refusal :=
  .next (s.placeStart)

/-- PLACE (R341). A PLACE command sets placement targets for a VPN range. -/
def execPlace (s : State) : Host.Outcome State Fault Refusal :=
  .next (s.place)

/-- PLACE_ENABLE_WRITE (R342). A write of place_enable starts or stops placement migrations. -/
def execPlaceEnableWrite (v : Nat) (s : State) : Host.Outcome State Fault Refusal :=
  .next (s.setOv O.place_enable v)

/-- BLK_PUT (R314). A PUT part arrives and is written after grant check. -/
def execBlkPut (port : Nat) (b : Blk) (m : Met) (s : State) : Host.Outcome State Fault Refusal :=
  .next (s.blkArrive port { b with bop := 1 } m)

/-- BLK_GET (R314). A GET arrives and is answered with GET_DATA parts. -/
def execBlkGet (port : Nat) (b : Blk) (m : Met) (s : State) : Host.Outcome State Fault Refusal :=
  .next (s.blkArrive port { b with bop := 2 } m)

/-- BLK_GET_DATA (R314). A GET_DATA part arrives and is written. -/
def execBlkGetData (port : Nat) (b : Blk) (m : Met) (s : State) : Host.Outcome State Fault Refusal :=
  .next (s.blkArrive port { b with bop := 3 } m)

/-- MWR (R315). A peer mirror write of one line arrives and is written. -/
def execBlkMwr (port : Nat) (b : Blk) (m : Met) (s : State) : Host.Outcome State Fault Refusal :=
  .next (s.blkArrive port { b with bop := 4 } m)

/-- ANS (R314). An ANS answering a PUT, GET or MWR arrives. -/
def execBlkAns (port : Nat) (b : Blk) (s : State) : Host.Outcome State Fault Refusal :=
  .next (s.blkArrive port { b with bop := 5 } ⟨[]⟩)

/-- REMOTE_CHUNK_RESEND (R312). A chunk with no answer after 100 µs is sent again. -/
def execRemoteChunkResend (xid : Nat) (m : Met) (s : State) : Host.Outcome State Fault Refusal :=
  .next (s.resend xid m)

/-- REMOTE_TIMEOUT (R312). No answer within remote_timeout ends a remote operation or degrades a mirror. -/
def execRemoteTimeout (xid : Nat) (s : State) : Host.Outcome State Fault Refusal :=
  .next (s.remoteTimeout xid)

/-- PM_RESYNC (R316). A resync copies a DEGRADED peer-mirrored extent to its partner. -/
def execPmResync (handle : Nat) (s : State) : Host.Outcome State Fault Refusal :=
  .next ((s.startResync handle).2)

end Sys2Proof.Machine
end

