-- ==== Sys2Proof/Machine/UnitRows.lean ====
section
/-! DEFINITION. Sys2Proof/Machine/UnitRows.lean: the meanings of the commands of one family: units, routers, Keepers, lost ports, firmware and the log. -/

namespace Sys2Proof.Machine

open Sys2Proof

/-- UNIT_FENCE (R576). A critical-state error isolates a unit and passes its role to a spare. -/
def execUnitFence (kind phys : Nat) (m : Met) (s : State) : Host.Outcome State Fault Refusal :=
  .next (s.criticalError kind phys m)

/-- ROUTER_FAILURE (R30). A failed mesh router is bypassed or traffic moves plane. -/
def execRouterFailure (plane router : Nat) (att : Option (Nat × Nat)) (m : Met) (s : State) : Host.Outcome State Fault Refusal :=
  .next (s.routerFailed plane router att m)

/-- ROUTE_DRAIN_DONE (R31). A route change takes effect once old-route messages are delivered. -/
def execRouteDrainDone (plane router : Nat) (s : State) : Host.Outcome State Fault Refusal :=
  .next (s.routeDrained plane router)

/-- UNIT_CMD_FENCE (R577). An operator FENCE quiesces and fences a unit. -/
def execUnitCmdFence (kind phys : Nat) (s : State) : Host.Outcome State Fault Refusal :=
  .next (s.cmdFence kind phys)

/-- QUIESCE_DONE (R618). A fenced unit's open work ends or its bound expires and it goes DARK. -/
def execQuiesceDone (kind phys : Nat) (m : Met) (s : State) : Host.Outcome State Fault Refusal :=
  .next (s.quiesceDone kind phys m)

/-- UNIT_CMD_REPAIR (R577). An operator REPAIR resets and self-tests a DARK unit. -/
def execUnitCmdRepair (kind phys : Nat) (s : State) : Host.Outcome State Fault Refusal :=
  .next (s.cmdRepair kind phys)

/-- REPAIR_SELFTEST_DONE (R577). A repair self-test ends and the unit becomes SPARE or DARK. -/
def execRepairSelftestDone (kind phys : Nat) (ok : Bool) (s : State) : Host.Outcome State Fault Refusal :=
  .next (s.selftestDone kind phys ok)

/-- UNIT_CMD_SWAP (R578). An operator SWAP hands a role to a spare. -/
def execUnitCmdSwap (kind phys dest : Nat) (s : State) : Host.Outcome State Fault Refusal :=
  .next (s.cmdSwap kind phys dest)

/-- SWAP_DONE (R578). A role swap completes or times out. -/
def execSwapDone (kind phys : Nat) (s : State) : Host.Outcome State Fault Refusal :=
  .next (s.swapDone kind phys)

/-- KEEPER_HEARTBEAT (R580). The active Keeper writes a heartbeat. -/
def execKeeperHeartbeat (keeper : Nat) (s : State) : Host.Outcome State Fault Refusal :=
  .next (s.heartbeat keeper)

/-- KEEPER_FAILOVER (R580). Missed heartbeats or a lockstep mismatch pass control to the standby. -/
def execKeeperFailover (s : State) : Host.Outcome State Fault Refusal :=
  .next (s.keeperFail)

/-- KEEPER_SWAP (R578). keeper_cmd SWAP runs a planned Keeper fail-over. -/
def execKeeperSwap (s : State) : Host.Outcome State Fault Refusal :=
  .next (s.keeperSwap.2)

/-- KEEPER_REPAIR (R577). keeper_cmd REPAIR repairs the DARK Keeper. -/
def execKeeperRepair (s : State) : Host.Outcome State Fault Refusal :=
  .next (s.keeperRepair.2)

/-- PORT_LOST (R585). A Boroc port is lost and its ACC, ATOM and unsent requests are dealt with. -/
def execPortLost (port : Nat) (s : State) : Host.Outcome State Fault Refusal :=
  .next ((s.portLost port).leaseCheck)

/-- LINK_SYNC (R586). A LINK_SYNC is received and lost-link messages are resent from it. -/
def execLinkSync (port lost expected dir salt : Nat) (s : State) : Host.Outcome State Fault Refusal :=
  .next (s.linkSync port lost expected dir salt)

/-- LINK_SYNC_TIMEOUT (R588). No LINK_SYNC answer within 100 µs; messages discarded and SYNC_FAIL written. -/
def execLinkSyncTimeout (port : Nat) (s : State) : Host.Outcome State Fault Refusal :=
  .next (s.linkSyncTimeout port)

/-- PCIE_PORT_LOST (R589). A PCIe port is lost and owner_port moves to the other port. -/
def execPciePortLost (port : Nat) (s : State) : Host.Outcome State Fault Refusal :=
  .next ((s.pcieLost port).leaseCheck)

/-- FW_ERASE (R590). A flash part is erased. -/
def execFwErase (s : State) : Host.Outcome State Fault Refusal :=
  .next (s.fwErase)

/-- FW_BLOCK_WRITE (R590). A 4 KiB block is written into flash at fw_offset. -/
def execFwBlockWrite (bs : Bytes) (s : State) : Host.Outcome State Fault Refusal :=
  .next ((s.fwBlock bs).2)

/-- FW_VERIFY (R591). The written image's header and signature are verified. -/
def execFwVerify (sig : Bool) (s : State) : Host.Outcome State Fault Refusal :=
  .next (s.fwVerify sig)

/-- FW_ACTIVATE (R591). A verified image is measured and a core reset started. -/
def execFwActivate (s : State) : Host.Outcome State Fault Refusal :=
  .next (if s.fwActivate.1 then s.fwActivate.2.softReset 1 else s.fwActivate.2)

/-- LOG_ACK (R595). ALERT records up to a seq are acknowledged. -/
def execLogAck (v : Nat) (s : State) : Host.Outcome State Fault Refusal :=
  .next (s.logAck v)

end Sys2Proof.Machine
end

