-- ==== Sys2Proof/Machine/Dispatch.lean ====
section
/-! DEFINITION. Sys2Proof/Machine/Dispatch.lean: one arm per command, each a call of its meaning. -/

namespace Sys2Proof.Machine

open Sys2Proof

/-- What a command does to everything but the queue. -/
def exec (i : Instr) (s : State) : Host.Outcome State Fault Refusal :=
  match i with
  -- requests of agents and their completion
  | .rds port src h => Sys2Proof.Machine.execRds port src h s
  | .rdx port src h => Sys2Proof.Machine.execRdx port src h s
  | .upg port src h => Sys2Proof.Machine.execUpg port src h s
  | .rdOnce port src h => Sys2Proof.Machine.execRdOnce port src h s
  | .wrFull port src h slots => Sys2Proof.Machine.execWrFull port src h slots s
  | .wrPart port src h slots => Sys2Proof.Machine.execWrPart port src h slots s
  | .evc port src h => Sys2Proof.Machine.execEvc port src h s
  | .wbd port src h slots => Sys2Proof.Machine.execWbd port src h slots s
  | .acc port src h slots => Sys2Proof.Machine.execAcc port src h slots s
  | .atomFetchAdd port src h slots => Sys2Proof.Machine.execAtomFetchAdd port src h slots s
  | .atomSwap port src h slots => Sys2Proof.Machine.execAtomSwap port src h slots s
  | .atomCompareSwap port src h slots => Sys2Proof.Machine.execAtomCompareSwap port src h slots s
  | .hintPreferHbm port src h => Sys2Proof.Machine.execHintPreferHbm port src h s
  | .hintPreferDdr5 port src h => Sys2Proof.Machine.execHintPreferDdr5 port src h s
  | .hintExpectReads port src h => Sys2Proof.Machine.execHintExpectReads port src h s
  | .dbell port src h slots => Sys2Proof.Machine.execDbell port src h slots s
  | .fenceC port src h => Sys2Proof.Machine.execFenceC port src h s
  | .fenceO port src h => Sys2Proof.Machine.execFenceO port src h s
  | .fenceClose port agt tag => Sys2Proof.Machine.execFenceClose port agt tag s
  | .ptcFetchDone port ctx vpn eccA eccB => Sys2Proof.Machine.execPtcFetchDone port ctx vpn eccA eccB s
  -- the home slices: serialising, snoops, responses, grants and census reports
  | .homeSliceSerialise port agt tag errs hs => Sys2Proof.Machine.execHomeSliceSerialise port agt tag errs hs s
  | .snoopEgress hs sid can => Sys2Proof.Machine.execSnoopEgress hs sid can s
  | .rspI port src hs sid can => Sys2Proof.Machine.execRspI port src hs sid can s
  | .rspS port src hs sid can => Sys2Proof.Machine.execRspS port src hs sid can s
  | .rspDI port src hs sid can dirty slots => Sys2Proof.Machine.execRspDI port src hs sid can dirty slots s
  | .rspDS port src hs sid can slots => Sys2Proof.Machine.execRspDS port src hs sid can slots s
  | .rspDO port src hs sid can slots => Sys2Proof.Machine.execRspDO port src hs sid can slots s
  | .rspDK port src hs sid can dirty slots => Sys2Proof.Machine.execRspDK port src hs sid can dirty slots s
  | .rspWB port src hs sid can => Sys2Proof.Machine.execRspWB port src hs sid can s
  | .gntAck port src tag agt can => Sys2Proof.Machine.execGntAck port src tag agt can s
  | .evictDataAccepted line => Sys2Proof.Machine.execEvictDataAccepted line s
  | .recall line => Sys2Proof.Machine.execRecall line s
  | .directoryWalkDone hs kind id => Sys2Proof.Machine.execDirectoryWalkDone hs kind id s
  | .snoopTimeout hs sid can => Sys2Proof.Machine.execSnoopTimeout hs sid can s
  | .gntAckTimeout port agt tag => Sys2Proof.Machine.execGntAckTimeout port agt tag s
  | .completionEgress port agt tag => Sys2Proof.Machine.execCompletionEgress port agt tag s
  | .censusReport port src hs census can count last slots => Sys2Proof.Machine.execCensusReport port src hs census can count last slots s
  -- accumulate-stores and INT8 scales
  | .accFillArrives line errs => Sys2Proof.Machine.execAccFillArrives line errs s
  | .accIdleFlush line => Sys2Proof.Machine.execAccIdleFlush line s
  | .int8ScaleWrite handle v => Sys2Proof.Machine.execInt8ScaleWrite handle v s
  -- the chart: commits, windows, bindings and extents
  | .stgCommit pf bank cmd ws => Sys2Proof.Machine.execStgCommit pf bank cmd ws s
  | .commitTurn ctx => Sys2Proof.Machine.execCommitTurn ctx s
  | .applyPoint ctx => Sys2Proof.Machine.execApplyPoint ctx s
  | .shootdownDrainDone ctx => Sys2Proof.Machine.execShootdownDrainDone ctx s
  | .stgReadback pf bank ws => Sys2Proof.Machine.execStgReadback pf bank ws s
  | .stgClear pf bank ws => Sys2Proof.Machine.execStgClear pf bank ws s
  | .internalCommit ctx => Sys2Proof.Machine.execInternalCommit ctx s
  | .windowGeometryWrite ctx which v => Sys2Proof.Machine.execWindowGeometryWrite ctx which v s
  | .bindingWrite agt entry v => Sys2Proof.Machine.execBindingWrite agt entry v s
  | .moor => Sys2Proof.Machine.execMoor s
  | .revoke => Sys2Proof.Machine.execRevoke s
  | .share => Sys2Proof.Machine.execShare s
  | .unshare => Sys2Proof.Machine.execUnshare s
  | .grantRevoke => Sys2Proof.Machine.execGrantRevoke s
  | .grantIssue => Sys2Proof.Machine.execGrantIssue s
  | .probe port b => Sys2Proof.Machine.execProbe port b s
  | .probeAns port b => Sys2Proof.Machine.execProbeAns port b s
  -- jobs of the compute tiles
  | .jobDbell port vf data keyed => Sys2Proof.Machine.execJobDbell port vf data keyed s
  | .jobFetch ctx q ecc m => Sys2Proof.Machine.execJobFetch ctx q ecc m s
  | .jobStep tile m => Sys2Proof.Machine.execJobStep tile m s
  | .jobReduce tile m => Sys2Proof.Machine.execJobReduce tile m s
  | .jobConvert tile m => Sys2Proof.Machine.execJobConvert tile m s
  | .jobFill tile m => Sys2Proof.Machine.execJobFill tile m s
  | .jobCopy tile m => Sys2Proof.Machine.execJobCopy tile m s
  | .jobChecksum tile m => Sys2Proof.Machine.execJobChecksum tile m s
  | .jobNorm tile m => Sys2Proof.Machine.execJobNorm tile m s
  | .jobPublish job => Sys2Proof.Machine.execJobPublish job s
  | .publishComplete job => Sys2Proof.Machine.execPublishComplete job s
  | .stripStart tile ecc m => Sys2Proof.Machine.execStripStart tile ecc m s
  | .stripCommit tile => Sys2Proof.Machine.execStripCommit tile s
  | .stripApplyDone tile m => Sys2Proof.Machine.execStripApplyDone tile m s
  | .reductionAccComplete tag m => Sys2Proof.Machine.execReductionAccComplete tag m s
  | .jobComplete job m => Sys2Proof.Machine.execJobComplete job m s
  | .jobFaultTimeout kind n m => Sys2Proof.Machine.execJobFaultTimeout kind n m s
  | .jqEnableWrite queue v => Sys2Proof.Machine.execJqEnableWrite queue v s
  | .recipeLoad sess => Sys2Proof.Machine.execRecipeLoad sess s
  | .recipeUnload n => Sys2Proof.Machine.execRecipeUnload n s
  -- tender operations, migration and the BLK exchanges
  | .trDbell port data => Sys2Proof.Machine.execTrDbell port data s
  | .trEnableWrite ring v => Sys2Proof.Machine.execTrEnableWrite ring v s
  | .tenderFetch ring rd => Sys2Proof.Machine.execTenderFetch ring rd s
  | .tenderCopy te ecc m => Sys2Proof.Machine.execTenderCopy te ecc m s
  | .tenderMigrate op te ecc => Sys2Proof.Machine.execTenderMigrate op te ecc s
  | .tenderPut te ecc m => Sys2Proof.Machine.execTenderPut te ecc m s
  | .tenderGet te ecc => Sys2Proof.Machine.execTenderGet te ecc s
  | .hostIn te rd m => Sys2Proof.Machine.execHostIn te rd m s
  | .hostOut te err m => Sys2Proof.Machine.execHostOut te err m s
  | .unwrap te keyOk tagOk plain ecc m => Sys2Proof.Machine.execUnwrap te keyOk tagOk plain ecc m s
  | .drain op => Sys2Proof.Machine.execDrain op s
  | .tenderChunkDone te op chunk m => Sys2Proof.Machine.execTenderChunkDone te op chunk m s
  | .tenderComplete op => Sys2Proof.Machine.execTenderComplete op s
  | .migrationStart kind n => Sys2Proof.Machine.execMigrationStart kind n s
  | .migrationPassEnd frame => Sys2Proof.Machine.execMigrationPassEnd frame s
  | .migrationFinalPassEnd frame m => Sys2Proof.Machine.execMigrationFinalPassEnd frame m s
  | .migrationDone frame => Sys2Proof.Machine.execMigrationDone frame s
  | .placementMigrationStart => Sys2Proof.Machine.execPlacementMigrationStart s
  | .place => Sys2Proof.Machine.execPlace s
  | .placeEnableWrite v => Sys2Proof.Machine.execPlaceEnableWrite v s
  | .blkPut port b m => Sys2Proof.Machine.execBlkPut port b m s
  | .blkGet port b m => Sys2Proof.Machine.execBlkGet port b m s
  | .blkGetData port b m => Sys2Proof.Machine.execBlkGetData port b m s
  | .blkMwr port b m => Sys2Proof.Machine.execBlkMwr port b m s
  | .blkAns port b => Sys2Proof.Machine.execBlkAns port b s
  | .remoteChunkResend xid m => Sys2Proof.Machine.execRemoteChunkResend xid m s
  | .remoteTimeout xid => Sys2Proof.Machine.execRemoteTimeout xid s
  | .pmResync handle => Sys2Proof.Machine.execPmResync handle s
  -- sweeps
  | .sweepRecordTake => Sys2Proof.Machine.execSweepRecordTake s
  | .sweepChunk te rec m => Sys2Proof.Machine.execSweepChunk te rec m s
  | .sweepFrameDone rec => Sys2Proof.Machine.execSweepFrameDone rec s
  | .engineShootdownAck unit => Sys2Proof.Machine.execEngineShootdownAck unit s
  | .teAckTimeout unit m => Sys2Proof.Machine.execTeAckTimeout unit m s
  -- the DRAM channels, DIMMs, HBM channels and the scrub
  | .dramQueueEnter line cls ctx c => Sys2Proof.Machine.execDramQueueEnter line cls ctx c s
  | .channelServe chan => Sys2Proof.Machine.execChannelServe chan s
  | .rowAutoClose chan bank => Sys2Proof.Machine.execRowAutoClose chan bank s
  | .refreshDue chan bank => Sys2Proof.Machine.execRefreshDue chan bank s
  | .refreshDebtLimit chan bank => Sys2Proof.Machine.execRefreshDebtLimit chan bank s
  | .retrainPeriod chan => Sys2Proof.Machine.execRetrainPeriod chan s
  | .retrainForce chan => Sys2Proof.Machine.execRetrainForce chan s
  | .rankPowerDown chan rank => Sys2Proof.Machine.execRankPowerDown chan rank s
  | .channelTrainingDone chan ok => Sys2Proof.Machine.execChannelTrainingDone chan ok s
  | .caParityAlert chan => Sys2Proof.Machine.execCaParityAlert chan s
  | .dimmPresentChange dimm present => Sys2Proof.Machine.execDimmPresentChange dimm present s
  | .offline pair => Sys2Proof.Machine.execOffline pair s
  | .pwrOff pair slot => Sys2Proof.Machine.execPwrOff pair slot s
  | .pwrOn pair slot => Sys2Proof.Machine.execPwrOn pair slot s
  | .dimmSettleExpiry pair slot form mts cap ranks serial => Sys2Proof.Machine.execDimmSettleExpiry pair slot form mts cap ranks serial s
  | .online pair => Sys2Proof.Machine.execOnline pair s
  | .hbchFence stack chan => Sys2Proof.Machine.execHbchFence stack chan s
  | .hbmChannelFenced stack chan => Sys2Proof.Machine.execHbmChannelFenced stack chan s
  | .relayoutFrameDone stack => Sys2Proof.Machine.execRelayoutFrameDone stack s
  | .relayoutFrameFreed stack => Sys2Proof.Machine.execRelayoutFrameFreed stack s
  | .ceWriteback cw => Sys2Proof.Machine.execCeWriteback cw s
  | .ueBucketRoll => Sys2Proof.Machine.execUeBucketRoll s
  | .mergeHoldExpiry line errs => Sys2Proof.Machine.execMergeHoldExpiry line errs s
  | .scrubStart => Sys2Proof.Machine.execScrubStart s
  | .scrubCancel => Sys2Proof.Machine.execScrubCancel s
  | .scrubLine m => Sys2Proof.Machine.execScrubLine m s
  -- contexts, policers and notifications
  | .ctxAlloc ctx => Sys2Proof.Machine.execCtxAlloc ctx s
  | .ctxActivate ctx => Sys2Proof.Machine.execCtxActivate ctx s
  | .ctxReset ctx => Sys2Proof.Machine.execCtxReset ctx s
  | .ctxFree ctx => Sys2Proof.Machine.execCtxFree ctx s
  | .contextResetDrainEnd ctx m => Sys2Proof.Machine.execContextResetDrainEnd ctx m s
  | .contextResetDone ctx => Sys2Proof.Machine.execContextResetDone ctx s
  | .contextSweepDone ctx => Sys2Proof.Machine.execContextSweepDone ctx s
  | .frzRelease agt => Sys2Proof.Machine.execFrzRelease agt s
  | .policerRefill => Sys2Proof.Machine.execPolicerRefill s
  | .shaperRefill => Sys2Proof.Machine.execShaperRefill s
  | .ntfBucketRefill => Sys2Proof.Machine.execNtfBucketRefill s
  | .ntfRaise ctx vec => Sys2Proof.Machine.execNtfRaise ctx vec s
  | .notificationDeliver ctx vec => Sys2Proof.Machine.execNotificationDeliver ctx vec s
  | .vfFlr port vf => Sys2Proof.Machine.execVfFlr port vf s
  -- life cycle, keys, attestation, link sessions and device sets
  | .enterService => Sys2Proof.Machine.execEnterService s
  | .enterMaintenance => Sys2Proof.Machine.execEnterMaintenance s
  | .decommission => Sys2Proof.Machine.execDecommission s
  | .arbCommit => Sys2Proof.Machine.execArbCommit s
  | .keyGenerate ctx => Sys2Proof.Machine.execKeyGenerate ctx s
  | .keyRekey ctx => Sys2Proof.Machine.execKeyRekey ctx s
  | .rekeyChunk te rec m => Sys2Proof.Machine.execRekeyChunk te rec m s
  | .dmExtend ctx bs => Sys2Proof.Machine.execDmExtend ctx bs s
  | .attestDevice => Sys2Proof.Machine.execAttestDevice s
  | .attestContext ctx => Sys2Proof.Machine.execAttestContext ctx s
  | .reportReady => Sys2Proof.Machine.execReportReady s
  | .lsHello port body k => Sys2Proof.Machine.execLsHello port body k s
  | .lsReply port body k => Sys2Proof.Machine.execLsReply port body k s
  | .lsFinish port body k => Sys2Proof.Machine.execLsFinish port body k s
  | .lsDone port body k => Sys2Proof.Machine.execLsDone port body k s
  | .lsAbort port => Sys2Proof.Machine.execLsAbort port s
  | .linkRekeyDue port => Sys2Proof.Machine.execLinkRekeyDue port s
  | .lkOffer port body => Sys2Proof.Machine.execLkOffer port body s
  | .lkAccept port body => Sys2Proof.Machine.execLkAccept port body s
  | .oldKeyExpire port => Sys2Proof.Machine.execOldKeyExpire port s
  | .laneCountLimit port => Sys2Proof.Machine.execLaneCountLimit port s
  | .linkRelease port => Sys2Proof.Machine.execLinkRelease port s
  | .setForm slot => Sys2Proof.Machine.execSetForm slot s
  | .setDestroy slot => Sys2Proof.Machine.execSetDestroy slot s
  | .joinReq src body k => Sys2Proof.Machine.execJoinReq src body k s
  | .joinAck src body k => Sys2Proof.Machine.execJoinAck src body k s
  | .joinKey src body k => Sys2Proof.Machine.execJoinKey src body k s
  | .joinDone src body => Sys2Proof.Machine.execJoinDone src body s
  | .joinTimeout node => Sys2Proof.Machine.execJoinTimeout node s
  | .dbgNonceRead => Sys2Proof.Machine.execDbgNonceRead s
  | .dbgToken tok k => Sys2Proof.Machine.execDbgToken tok k s
  | .dbgNonceExpire => Sys2Proof.Machine.execDbgNonceExpire s
  | .jtagExtestSelect => Sys2Proof.Machine.execJtagExtestSelect s
  | .ideKmRequest port stream go auth => Sys2Proof.Machine.execIdeKmRequest port stream go auth s
  -- the Boroc link layer
  | .idleFlit port f => Sys2Proof.Machine.execIdleFlit port f s
  | .dataFlit port f m k => Sys2Proof.Machine.execDataFlit port f m k s
  | .contFlit port f m k => Sys2Proof.Machine.execContFlit port f m k s
  | .handshakeFlit port f m k => Sys2Proof.Machine.execHandshakeFlit port f m k s
  | .trainFlit port f => Sys2Proof.Machine.execTrainFlit port f s
  | .flitTime port => Sys2Proof.Machine.execFlitTime port s
  | .rtxTimer port => Sys2Proof.Machine.execRtxTimer port s
  | .creditReturnDue port => Sys2Proof.Machine.execCreditReturnDue port s
  | .beaconIdle port pool => Sys2Proof.Machine.execBeaconIdle port pool s
  | .driftRetrain port => Sys2Proof.Machine.execDriftRetrain port s
  | .fastRetrain port => Sys2Proof.Machine.execFastRetrain port s
  | .fastRetrainDone port => Sys2Proof.Machine.execFastRetrainDone port s
  | .retrainLimitExpiry port => Sys2Proof.Machine.execRetrainLimitExpiry port s
  | .fullTraining port => Sys2Proof.Machine.execFullTraining port s
  | .fullTrainingDone port ok failed => Sys2Proof.Machine.execFullTrainingDone port ok failed s
  | .laneFail port lane cause => Sys2Proof.Machine.execLaneFail port lane cause s
  | .portLossTimeout port => Sys2Proof.Machine.execPortLossTimeout port s
  | .linkDownRetry port => Sys2Proof.Machine.execLinkDownRetry port s
  | .narrowIdle port => Sys2Proof.Machine.execNarrowIdle port s
  | .widthChangeEffect port tx => Sys2Proof.Machine.execWidthChangeEffect port tx s
  | .portFence port => Sys2Proof.Machine.execPortFence port s
  | .portRepair port => Sys2Proof.Machine.execPortRepair port s
  | .portRetrain port => Sys2Proof.Machine.execPortRetrain port s
  | .portRestart port => Sys2Proof.Machine.execPortRestart port s
  -- fault rings and the closing of extents
  | .faultRecordPost ctx => Sys2Proof.Machine.execFaultRecordPost ctx s
  | .faultBudgetRefill ctx => Sys2Proof.Machine.execFaultBudgetRefill ctx s
  | .frCoalExpiry ring => Sys2Proof.Machine.execFrCoalExpiry ring s
  | .frRepost ctx => Sys2Proof.Machine.execFrRepost ctx s
  | .closeDone slot => Sys2Proof.Machine.execCloseDone slot s
  | .drainCounterFree => Sys2Proof.Machine.execDrainCounterFree s
  | .revokeDrainDone slot => Sys2Proof.Machine.execRevokeDrainDone slot s
  | .drainTimeout slot => Sys2Proof.Machine.execDrainTimeout slot s
  | .recallDone slot => Sys2Proof.Machine.execRecallDone slot s
  -- loss of agents and the fail-over of slices
  | .agentLossTime agt => Sys2Proof.Machine.execAgentLossTime agt s
  | .agtFence agt => Sys2Proof.Machine.execAgtFence agt s
  | .purgeWalkDone hs agt => Sys2Proof.Machine.execPurgeWalkDone hs agt s
  | .agtRejoin agt => Sys2Proof.Machine.execAgtRejoin agt s
  | .sliceFailover hs => Sys2Proof.Machine.execSliceFailover hs s
  | .censusClose hs => Sys2Proof.Machine.execCensusClose hs s
  | .failoverHoldEnd hs => Sys2Proof.Machine.execFailoverHoldEnd hs s
  | .unkRelease hs can => Sys2Proof.Machine.execUnkRelease hs can s
  -- units, routers, Keepers, lost ports, firmware and the log
  | .unitFence kind phys m => Sys2Proof.Machine.execUnitFence kind phys m s
  | .routerFailure plane router att m => Sys2Proof.Machine.execRouterFailure plane router att m s
  | .routeDrainDone plane router => Sys2Proof.Machine.execRouteDrainDone plane router s
  | .unitCmdFence kind phys => Sys2Proof.Machine.execUnitCmdFence kind phys s
  | .quiesceDone kind phys m => Sys2Proof.Machine.execQuiesceDone kind phys m s
  | .unitCmdRepair kind phys => Sys2Proof.Machine.execUnitCmdRepair kind phys s
  | .repairSelftestDone kind phys ok => Sys2Proof.Machine.execRepairSelftestDone kind phys ok s
  | .unitCmdSwap kind phys dest => Sys2Proof.Machine.execUnitCmdSwap kind phys dest s
  | .swapDone kind phys => Sys2Proof.Machine.execSwapDone kind phys s
  | .keeperHeartbeat keeper => Sys2Proof.Machine.execKeeperHeartbeat keeper s
  | .keeperFailover => Sys2Proof.Machine.execKeeperFailover s
  | .keeperSwap => Sys2Proof.Machine.execKeeperSwap s
  | .keeperRepair => Sys2Proof.Machine.execKeeperRepair s
  | .portLost port => Sys2Proof.Machine.execPortLost port s
  | .linkSync port lost expected dir salt => Sys2Proof.Machine.execLinkSync port lost expected dir salt s
  | .linkSyncTimeout port => Sys2Proof.Machine.execLinkSyncTimeout port s
  | .pciePortLost port => Sys2Proof.Machine.execPciePortLost port s
  | .fwErase => Sys2Proof.Machine.execFwErase s
  | .fwBlockWrite bs => Sys2Proof.Machine.execFwBlockWrite bs s
  | .fwVerify sig => Sys2Proof.Machine.execFwVerify sig s
  | .fwActivate => Sys2Proof.Machine.execFwActivate s
  | .logAck v => Sys2Proof.Machine.execLogAck v s
  -- resets and start-up
  | .pwrgoodAonLow => Sys2Proof.Machine.execPwrgoodAonLow s
  | .coreBrownOut => Sys2Proof.Machine.execCoreBrownOut s
  | .rstNInput => Sys2Proof.Machine.execRstNInput s
  | .watchdogExpiry => Sys2Proof.Machine.execWatchdogExpiry s
  | .rstCmdCore => Sys2Proof.Machine.execRstCmdCore s
  | .rstCmdSystem => Sys2Proof.Machine.execRstCmdSystem s
  | .dbgReq => Sys2Proof.Machine.execDbgReq s
  | .clockFailure => Sys2Proof.Machine.execClockFailure s
  | .lockup => Sys2Proof.Machine.execLockup s
  | .perst port => Sys2Proof.Machine.execPerst port s
  | .episodeEnd straps => Sys2Proof.Machine.execEpisodeEnd straps s
  | .rstNSample low => Sys2Proof.Machine.execRstNSample low s
  | .trimLoadDone ok => Sys2Proof.Machine.execTrimLoadDone ok s
  | .oscDlyWaitEnd locks => Sys2Proof.Machine.execOscDlyWaitEnd locks s
  | .powerOnBistDone fails => Sys2Proof.Machine.execPowerOnBistDone fails s
  | .keeperBootDone sigA sigB idOk bad => Sys2Proof.Machine.execKeeperBootDone sigA sigB idOk bad s
  -- clocks
  | .pllLockLoss pll => Sys2Proof.Machine.execPllLockLoss pll s
  | .pllEdgeLoss pll => Sys2Proof.Machine.execPllEdgeLoss pll s
  | .rootCmd => Sys2Proof.Machine.execRootCmd s
  | .srefLoss n => Sys2Proof.Machine.execSrefLoss n s
  | .pcieRefclkLoss port => Sys2Proof.Machine.execPcieRefclkLoss port s
  | .arithDivStep => Sys2Proof.Machine.execArithDivStep s
  | .fcStart => Sys2Proof.Machine.execFcStart s
  | .fcDone edges noEdge => Sys2Proof.Machine.execFcDone edges noEdge s
  -- power states and thermal limits
  | .pstateTargetWrite v llp => Sys2Proof.Machine.execPstateTargetWrite v llp s
  | .p1GateIdle kind phys => Sys2Proof.Machine.execP1GateIdle kind phys s
  | .p2Idle => Sys2Proof.Machine.execP2Idle s
  | .wakeEvent => Sys2Proof.Machine.execWakeEvent s
  | .p3Entry m => Sys2Proof.Machine.execP3Entry m s
  | .p3IdleTimeout => Sys2Proof.Machine.execP3IdleTimeout s
  | .p3Exit fails => Sys2Proof.Machine.execP3Exit fails s
  | .p3LinkGraceEnd => Sys2Proof.Machine.execP3LinkGraceEnd s
  | .thermalSample ts => Sys2Proof.Machine.execThermalSample ts s
  | .thermtrip => Sys2Proof.Machine.execThermtrip s
  | .energyBucketUpdate rails => Sys2Proof.Machine.execEnergyBucketUpdate rails s
  | .governorTick => Sys2Proof.Machine.execGovernorTick s
  | .wearLedgerTick v => Sys2Proof.Machine.execWearLedgerTick v s
  -- the Light List
  | .llRead sess msg port items => Sys2Proof.Machine.execLlRead sess msg port items s
  | .llWrite sess msg port items k => Sys2Proof.Machine.execLlWrite sess msg port items k s
  | .llReadBlock sess msg port items => Sys2Proof.Machine.execLlReadBlock sess msg port items s
  | .llWriteBlock sess msg port items k => Sys2Proof.Machine.execLlWriteBlock sess msg port items k s
  | .llSubscribe sess msg port items => Sys2Proof.Machine.execLlSubscribe sess msg port items s
  | .llUnsubscribe sess msg port items => Sys2Proof.Machine.execLlUnsubscribe sess msg port items s
  | .llPing sess msg port => Sys2Proof.Machine.execLlPing sess msg port s
  | .llAck sess msg => Sys2Proof.Machine.execLlAck sess msg s
  | .subscriptionCheck sess => Sys2Proof.Machine.execSubscriptionCheck sess s
  | .eventResend sess msg => Sys2Proof.Machine.execEventResend sess msg s
  | .leaseAcquire sess => Sys2Proof.Machine.execLeaseAcquire sess s
  | .leaseRenew sess => Sys2Proof.Machine.execLeaseRenew sess s
  | .leaseRelease sess => Sys2Proof.Machine.execLeaseRelease sess s
  | .leaseExpire => Sys2Proof.Machine.execLeaseExpire s
  | .ssHello addr body => Sys2Proof.Machine.execSsHello addr body s
  | .ssFinish addr body k => Sys2Proof.Machine.execSsFinish addr body k s
  | .llpHandshakeTimeout addr => Sys2Proof.Machine.execLlpHandshakeTimeout addr s
  | .llpIdleTimeout sess => Sys2Proof.Machine.execLlpIdleTimeout sess s
  | .llpDatagram sess ctr msg mgmt tagOk body k => Sys2Proof.Machine.execLlpDatagram sess ctr msg mgmt tagOk body k s
  | .mbCmd port v k => Sys2Proof.Machine.execMbCmd port v k s
  | .llm port tag agt len slots k => Sys2Proof.Machine.execLlm port tag agt len slots k s
  | .nvFlashWriteDone => Sys2Proof.Machine.execNvFlashWriteDone s
  -- board inputs and the host windows
  | .pwrgoodDramRise => Sys2Proof.Machine.execPwrgoodDramRise s
  | .pwrgoodCoreRise => Sys2Proof.Machine.execPwrgoodCoreRise s
  | .pcieLinkTraining port flit rate width => Sys2Proof.Machine.execPcieLinkTraining port flit rate width s
  | .pwrgoodAonRise straps => Sys2Proof.Machine.execPwrgoodAonRise straps s
  | .pwrgoodDramFall => Sys2Proof.Machine.execPwrgoodDramFall s
  | .rstNRelease => Sys2Proof.Machine.execRstNRelease s
  | .dbgReqNRelease => Sys2Proof.Machine.execDbgReqNRelease s
  | .keeperHeartbeatTimeout keeper => Sys2Proof.Machine.execKeeperHeartbeatTimeout keeper s
  | .mgmtLinkDown port => Sys2Proof.Machine.execMgmtLinkDown port s
  | .frHeadWrite port ring v => Sys2Proof.Machine.execFrHeadWrite port ring v s
  | .ntfHeadWrite port vf v keyed => Sys2Proof.Machine.execNtfHeadWrite port vf v keyed s
  | .mbBufWrite port w => Sys2Proof.Machine.execMbBufWrite port w s

end Sys2Proof.Machine
end

