-- ==== Sys2Proof/Machine/Step.lean ====
section
/-! DEFINITION. Sys2Proof/Machine/Step.lean: one step of the node: the command at the front of the queue, or a tick. -/

namespace Sys2Proof.Machine

open Sys2Proof

/-- One step. With a command waiting, its effect on the state whose queue is the rest; with none, one cycle of CK_SLOW
passes and the LTC counts it (R624; DESIGN CHOICE, log 17). -/
def step (s : State) : Host.Outcome State Fault Refusal :=
  match s.pending with
  | [] => .next s.clockTick
  | c :: rest => exec c { s with pending := rest }

/-- The state with the command a word spells put at the front of its queue. -/
def State.withFetchWord (s : State) (nbits w : Nat) : State :=
  match decodeTableWord nbits w with
  | some c => { s with pending := c :: s.pending }
  | none => s

end Sys2Proof.Machine
end

