-- ==== Sys2Proof/WellFormed.lean ====
section
/-! DEFINITION. Sys2Proof/WellFormed.lean: the ranges the spec gives the operands of a command. A number in a field of w bits
lies below 2^w; a slot holds 32 bytes. `exec` is total and does not rely on these. -/

namespace Sys2Proof

/-- A data slot holds 32 bytes (R95). -/
def Slot.wf (x : Slot) : Bool := x.bytes.length == 32

/-- The widths of a request header (R97, Table 2). -/
def Hdr.wf (h : Hdr) : Bool :=
  decide (h.agt < 4096) && decide (h.tag < 4096) && decide (h.can < 1024) && decide (h.ctx < 1024)
    && decide (h.cva < 2 ^ 48) && decide (h.len < 256) && decide (h.page < 4) && decide (h.colour < 4)
    && decide (h.sub < 16) && decide (h.aty < 16) && decide (h.fmtSrc < 16) && decide (h.fmtDst < 16)
    && decide (h.gexp < 2 ^ 32)

/-- A code word of the 44-bit pool address space (R39, R373), and a device of its channel. -/
def DramErr.wf (e : DramErr) : Bool := decide (e.cw < 2 ^ 38) && decide (e.dev < 64)

/-- What an internal access meets. -/
def Met.wf (m : Met) : Bool := m.errs.all DramErr.wf

/-- The widths of a BLK header (R313, Table 9). -/
def Blk.wf (b : Blk) : Bool :=
  decide (b.bop < 16) && decide (b.src < 4096) && decide (b.dst < 4096) && decide (b.handle < 2 ^ 20)
    && decide (b.off < 2 ^ 40) && decide (b.xid < 2 ^ 16) && decide (b.part < 16) && decide (b.status < 16)
    && b.slots.all Slot.wf

/-- Host data comes in 64-byte pieces, each with its EP mark (R301). -/
def HostRd.wf (r : HostRd) : Bool := decide (r.poison.length ≤ r.data.length / 64 + 1)

/-- The widths of a Light List item (R664). -/
def LlItem.wf (i : LlItem) : Bool :=
  decide (i.index < 2 ^ 16) && decide (i.sub < 2 ^ 8) && decide (i.off < 2 ^ 32) && decide (i.length < 2 ^ 16)

/-- A write to a direct window has at least one byte (R66). -/
def DwWrite.wf (w : DwWrite) : Bool := !w.val.isEmpty

/-- The widths of a flit header, and its nine slots (R489, R491). -/
def Flit.wf (f : Flit) : Bool :=
  decide (f.seq < 4096) && decide (f.ack < 4096) && decide (f.sack < 2 ^ 16) && decide (f.poison < 2 ^ 9)
    && decide (f.last < 2 ^ 9) && decide (f.fkind < 16) && f.slots.length == 9 && f.slots.all (fun x => x.length == 32)
    && decide (f.lane < 9)

/-- The fields of a training frame (R512). -/
def Train.wf (f : Train) : Bool :=
  decide (f.kind < 256) && decide (f.lane < 9) && decide (f.width < 256) && decide (f.map < 2 ^ 32)
    && decide (f.expected < 4096)

/-- Every operand of the command lies in the range the spec gives it. -/
def Instr.wf : Instr → Bool
  | .rds port src h => decide (port < 24) && decide (src < 4096) && h.wf
  | .rdx port src h => decide (port < 24) && decide (src < 4096) && h.wf
  | .upg port src h => decide (port < 24) && decide (src < 4096) && h.wf
  | .rdOnce port src h => decide (port < 24) && decide (src < 4096) && h.wf
  | .wrFull port src h slots => decide (port < 24) && decide (src < 4096) && h.wf && slots.all Slot.wf
  | .wrPart port src h slots => decide (port < 24) && decide (src < 4096) && h.wf && slots.all Slot.wf
  | .evc port src h => decide (port < 24) && decide (src < 4096) && h.wf
  | .wbd port src h slots => decide (port < 24) && decide (src < 4096) && h.wf && slots.all Slot.wf
  | .acc port src h slots => decide (port < 24) && decide (src < 4096) && h.wf && slots.all Slot.wf
  | .atomFetchAdd port src h slots => decide (port < 24) && decide (src < 4096) && h.wf && slots.all Slot.wf
  | .atomSwap port src h slots => decide (port < 24) && decide (src < 4096) && h.wf && slots.all Slot.wf
  | .atomCompareSwap port src h slots => decide (port < 24) && decide (src < 4096) && h.wf && slots.all Slot.wf
  | .hintPreferHbm port src h => decide (port < 24) && decide (src < 4096) && h.wf
  | .hintPreferDdr5 port src h => decide (port < 24) && decide (src < 4096) && h.wf
  | .hintExpectReads port src h => decide (port < 24) && decide (src < 4096) && h.wf
  | .dbell port src h slots => decide (port < 24) && decide (src < 4096) && h.wf && slots.all Slot.wf
  | .fenceC port src h => decide (port < 24) && decide (src < 4096) && h.wf
  | .fenceO port src h => decide (port < 24) && decide (src < 4096) && h.wf
  | .fenceClose port agt tag => decide (port < 24) && decide (agt < 4096) && decide (tag < 4096)
  | .ptcFetchDone port ctx vpn eccA eccB => decide (port < 24) && decide (ctx < 1024) && decide (vpn < 4194304) && decide (eccA < 4) && decide (eccB < 4)
  | .homeSliceSerialise port agt tag errs hs => decide (port < 25) && decide (agt < 4160) && decide (tag < 65536) && errs.all DramErr.wf && decide (hs < 32)
  | .snoopEgress hs sid can => decide (hs < 32) && decide (sid < 4096) && decide (can < 1024)
  | .rspI port src hs sid can => decide (port < 24) && decide (src < 4096) && decide (hs < 32) && decide (sid < 4096) && decide (can < 1024)
  | .rspS port src hs sid can => decide (port < 24) && decide (src < 4096) && decide (hs < 32) && decide (sid < 4096) && decide (can < 1024)
  | .rspDI port src hs sid can _ slots => decide (port < 24) && decide (src < 4096) && decide (hs < 32) && decide (sid < 4096) && decide (can < 1024) && slots.all Slot.wf
  | .rspDS port src hs sid can slots => decide (port < 24) && decide (src < 4096) && decide (hs < 32) && decide (sid < 4096) && decide (can < 1024) && slots.all Slot.wf
  | .rspDO port src hs sid can slots => decide (port < 24) && decide (src < 4096) && decide (hs < 32) && decide (sid < 4096) && decide (can < 1024) && slots.all Slot.wf
  | .rspDK port src hs sid can _ slots => decide (port < 24) && decide (src < 4096) && decide (hs < 32) && decide (sid < 4096) && decide (can < 1024) && slots.all Slot.wf
  | .rspWB port src hs sid can => decide (port < 24) && decide (src < 4096) && decide (hs < 32) && decide (sid < 4096) && decide (can < 1024)
  | .gntAck port src tag agt can => decide (port < 24) && decide (src < 4096) && decide (tag < 4096) && decide (agt < 4096) && decide (can < 1024)
  | .evictDataAccepted _ => true
  | .recall _ => true
  | .directoryWalkDone hs kind _ => decide (hs < 32) && decide (kind < 5)
  | .snoopTimeout hs sid can => decide (hs < 32) && decide (sid < 4096) && decide (can < 1024)
  | .gntAckTimeout port agt tag => decide (port < 24) && decide (agt < 4096) && decide (tag < 4096)
  | .completionEgress port agt tag => decide (port < 24) && decide (agt < 4096) && decide (tag < 4096)
  | .censusReport port src hs census can count _ slots => decide (port < 24) && decide (src < 4096) && decide (hs < 32) && decide (census < 65536) && decide (can < 1024) && decide (count < 33) && slots.all Slot.wf
  | .accFillArrives _ errs => errs.all DramErr.wf
  | .accIdleFlush _ => true
  | .int8ScaleWrite handle v => decide (handle < 1048576) && decide (v < 4294967296)
  | .stgCommit pf bank cmd ws => decide (pf < 2) && decide (bank < 2) && decide (cmd < 4294967296) && ws.all DwWrite.wf && cmd != 2 && cmd != 3
  | .commitTurn ctx => decide (ctx < 1024)
  | .applyPoint ctx => decide (ctx < 1024)
  | .shootdownDrainDone ctx => decide (ctx < 1024)
  | .stgReadback pf bank ws => decide (pf < 2) && decide (bank < 2) && ws.all DwWrite.wf
  | .stgClear pf bank ws => decide (pf < 2) && decide (bank < 2) && ws.all DwWrite.wf
  | .internalCommit ctx => decide (ctx < 1024)
  | .windowGeometryWrite ctx which v => decide (ctx < 1024) && decide (which < 2) && decide (v < 4294967296)
  | .bindingWrite agt entry v => decide (agt < 4096) && decide (entry < 8) && decide (v < 4294967296)
  | .moor => true
  | .revoke => true
  | .share => true
  | .unshare => true
  | .grantRevoke => true
  | .grantIssue => true
  | .probe port b => decide (port < 24) && b.wf
  | .probeAns port b => decide (port < 24) && b.wf
  | .jobDbell port vf data _ => decide (port < 2) && decide (vf < 256) && decide (data < 18446744073709551616)
  | .jobFetch ctx q _ m => decide (ctx < 1024) && decide (q < 4) && m.wf
  | .jobStep tile m => decide (tile < 64) && m.wf
  | .jobReduce tile m => decide (tile < 64) && m.wf
  | .jobConvert tile m => decide (tile < 64) && m.wf
  | .jobFill tile m => decide (tile < 64) && m.wf
  | .jobCopy tile m => decide (tile < 64) && m.wf
  | .jobChecksum tile m => decide (tile < 64) && m.wf
  | .jobNorm tile m => decide (tile < 64) && m.wf
  | .jobPublish _ => true
  | .publishComplete _ => true
  | .stripStart tile _ m => decide (tile < 64) && m.wf
  | .stripCommit tile => decide (tile < 64)
  | .stripApplyDone tile m => decide (tile < 64) && m.wf
  | .reductionAccComplete tag m => decide (tag < 65536) && m.wf
  | .jobComplete _ m => m.wf
  | .jobFaultTimeout kind _ m => decide (kind < 3) && m.wf
  | .jqEnableWrite queue v => decide (queue < 4096) && decide (v < 2)
  | .recipeLoad sess => decide (sess < 4160)
  | .recipeUnload n => decide (n < 256)
  | .trDbell port data => decide (port < 2) && decide (data < 4294967296)
  | .trEnableWrite ring v => decide (ring < 2) && decide (v < 2)
  | .tenderFetch ring rd => decide (ring < 2) && rd.wf
  | .tenderCopy te _ m => decide (te < 16) && m.wf
  | .tenderMigrate _ te _ => decide (te < 16)
  | .tenderPut te _ m => decide (te < 16) && m.wf
  | .tenderGet te _ => decide (te < 16)
  | .hostIn te rd m => decide (te < 16) && rd.wf && m.wf
  | .hostOut te _ m => decide (te < 16) && m.wf
  | .unwrap te _ _ _ _ m => decide (te < 16) && m.wf
  | .drain _ => true
  | .tenderChunkDone te _ _ m => decide (te < 16) && m.wf
  | .tenderComplete _ => true
  | .migrationStart kind _ => decide (kind < 4)
  | .migrationPassEnd frame => decide (frame < 200704)
  | .migrationFinalPassEnd frame m => decide (frame < 200704) && m.wf
  | .migrationDone frame => decide (frame < 200704)
  | .placementMigrationStart => true
  | .place => true
  | .placeEnableWrite v => decide (v < 2)
  | .blkPut port b m => decide (port < 24) && b.wf && m.wf
  | .blkGet port b m => decide (port < 24) && b.wf && m.wf
  | .blkGetData port b m => decide (port < 24) && b.wf && m.wf
  | .blkMwr port b m => decide (port < 24) && b.wf && m.wf
  | .blkAns port b => decide (port < 24) && b.wf
  | .remoteChunkResend xid m => decide (xid < 65536) && m.wf
  | .remoteTimeout xid => decide (xid < 65536)
  | .pmResync handle => decide (handle < 1048576)
  | .sweepRecordTake => true
  | .sweepChunk te rec m => decide (te < 16) && decide (rec < 256) && m.wf
  | .sweepFrameDone rec => decide (rec < 256)
  | .engineShootdownAck unit => decide (unit < 80)
  | .teAckTimeout unit m => decide (unit < 80) && m.wf
  | .dramQueueEnter _ cls ctx c => decide (cls < 4) && decide (ctx < 1024) && decide (c < 152)
  | .channelServe chan => decide (chan < 152)
  | .rowAutoClose chan _ => decide (chan < 152)
  | .refreshDue chan _ => decide (chan < 152)
  | .refreshDebtLimit chan _ => decide (chan < 152)
  | .retrainPeriod chan => decide (chan < 152)
  | .retrainForce chan => decide (chan < 152)
  | .rankPowerDown chan rank => decide (chan < 152) && decide (rank < 8)
  | .channelTrainingDone chan _ => decide (chan < 152)
  | .caParityAlert chan => decide (chan < 24)
  | .dimmPresentChange dimm _ => decide (dimm < 24)
  | .offline pair => decide (pair < 12)
  | .pwrOff pair slot => decide (pair < 12) && decide (slot < 2)
  | .pwrOn pair slot => decide (pair < 12) && decide (slot < 2)
  | .dimmSettleExpiry pair slot _ mts cap ranks serial => decide (pair < 12) && decide (slot < 2) && decide (mts < 65536) && decide (cap < 65536) && decide (ranks < 256) && decide (serial < 4294967296)
  | .online pair => decide (pair < 12)
  | .hbchFence stack chan => decide (stack < 4) && decide (chan < 32)
  | .hbmChannelFenced stack chan => decide (stack < 4) && decide (chan < 32)
  | .relayoutFrameDone stack => decide (stack < 4)
  | .relayoutFrameFreed stack => decide (stack < 4)
  | .ceWriteback _ => true
  | .ueBucketRoll => true
  | .mergeHoldExpiry _ errs => errs.all DramErr.wf
  | .scrubStart => true
  | .scrubCancel => true
  | .scrubLine m => m.wf
  | .ctxAlloc ctx => decide (ctx < 1024)
  | .ctxActivate ctx => decide (ctx < 1024)
  | .ctxReset ctx => decide (ctx < 1024)
  | .ctxFree ctx => decide (ctx < 1024)
  | .contextResetDrainEnd ctx m => decide (ctx < 1024) && m.wf
  | .contextResetDone ctx => decide (ctx < 1024)
  | .contextSweepDone ctx => decide (ctx < 1024)
  | .frzRelease agt => decide (agt < 4096)
  | .policerRefill => true
  | .shaperRefill => true
  | .ntfBucketRefill => true
  | .ntfRaise ctx vec => decide (ctx < 1024) && decide (vec < 64)
  | .notificationDeliver ctx vec => decide (ctx < 1024) && decide (vec < 64)
  | .vfFlr port vf => decide (port < 2) && decide (vf < 256)
  | .enterService => true
  | .enterMaintenance => true
  | .decommission => true
  | .arbCommit => true
  | .keyGenerate ctx => decide (ctx < 1024)
  | .keyRekey ctx => decide (ctx < 1024)
  | .rekeyChunk te rec m => decide (te < 16) && decide (rec < 256) && m.wf
  | .dmExtend ctx _ => decide (ctx < 1024)
  | .attestDevice => true
  | .attestContext ctx => decide (ctx < 1024)
  | .reportReady => true
  | .lsHello port _ _ => decide (port < 24)
  | .lsReply port _ _ => decide (port < 24)
  | .lsFinish port _ _ => decide (port < 24)
  | .lsDone port _ _ => decide (port < 24)
  | .lsAbort port => decide (port < 24)
  | .linkRekeyDue port => decide (port < 24)
  | .lkOffer port _ => decide (port < 24)
  | .lkAccept port _ => decide (port < 24)
  | .oldKeyExpire port => decide (port < 24)
  | .laneCountLimit port => decide (port < 24)
  | .linkRelease port => decide (port < 24)
  | .setForm slot => decide (slot < 16)
  | .setDestroy slot => decide (slot < 16)
  | .joinReq src _ _ => decide (src < 4096)
  | .joinAck src _ _ => decide (src < 4096)
  | .joinKey src _ _ => decide (src < 4096)
  | .joinDone src _ => decide (src < 4096)
  | .joinTimeout node => decide (node < 4096)
  | .dbgNonceRead => true
  | .dbgToken _ _ => true
  | .dbgNonceExpire => true
  | .jtagExtestSelect => true
  | .ideKmRequest port stream _ _ => decide (port < 2) && decide (stream < 4)
  | .idleFlit port f => decide (port < 24) && f.wf
  | .dataFlit port f m _ => decide (port < 24) && f.wf && m.wf
  | .contFlit port f m _ => decide (port < 24) && f.wf && m.wf
  | .handshakeFlit port f m _ => decide (port < 24) && f.wf && m.wf
  | .trainFlit port f => decide (port < 24) && f.wf
  | .flitTime port => decide (port < 24)
  | .rtxTimer port => decide (port < 24)
  | .creditReturnDue port => decide (port < 24)
  | .beaconIdle port pool => decide (port < 24) && decide (pool < 9)
  | .driftRetrain port => decide (port < 24)
  | .fastRetrain port => decide (port < 24)
  | .fastRetrainDone port => decide (port < 24)
  | .retrainLimitExpiry port => decide (port < 24)
  | .fullTraining port => decide (port < 24)
  | .fullTrainingDone port _ _ => decide (port < 24)
  | .laneFail port lane cause => decide (port < 24) && decide (lane < 9) && decide (cause < 4)
  | .portLossTimeout port => decide (port < 24)
  | .linkDownRetry port => decide (port < 24)
  | .narrowIdle port => decide (port < 24)
  | .widthChangeEffect port _ => decide (port < 24)
  | .portFence port => decide (port < 24)
  | .portRepair port => decide (port < 24)
  | .portRetrain port => decide (port < 24)
  | .portRestart port => decide (port < 24)
  | .faultRecordPost ctx => decide (ctx < 1024)
  | .faultBudgetRefill ctx => decide (ctx < 1024)
  | .frCoalExpiry ring => decide (ring < 8)
  | .frRepost ctx => decide (ctx < 1024)
  | .closeDone slot => decide (slot < 65536)
  | .drainCounterFree => true
  | .revokeDrainDone slot => decide (slot < 65536)
  | .drainTimeout slot => decide (slot < 65536)
  | .recallDone slot => decide (slot < 65536)
  | .agentLossTime agt => decide (agt < 4096)
  | .agtFence agt => decide (agt < 4096)
  | .purgeWalkDone hs agt => decide (hs < 32) && decide (agt < 4096)
  | .agtRejoin agt => decide (agt < 4096)
  | .sliceFailover hs => decide (hs < 32)
  | .censusClose hs => decide (hs < 32)
  | .failoverHoldEnd hs => decide (hs < 32)
  | .unkRelease hs can => decide (hs < 32) && decide (can < 1024)
  | .unitFence kind phys m => decide (kind < 3) && decide (phys < 68) && m.wf
  | .routerFailure plane router _ m => decide (plane < 2) && decide (router < 4096) && m.wf
  | .routeDrainDone plane router => decide (plane < 2) && decide (router < 4096)
  | .unitCmdFence kind phys => decide (kind < 3) && decide (phys < 256)
  | .quiesceDone kind phys m => decide (kind < 3) && decide (phys < 68) && m.wf
  | .unitCmdRepair kind phys => decide (kind < 3) && decide (phys < 256)
  | .repairSelftestDone kind phys _ => decide (kind < 5) && decide (phys < 68)
  | .unitCmdSwap kind phys dest => decide (kind < 3) && decide (phys < 256) && decide (dest < 256)
  | .swapDone kind phys => decide (kind < 3) && decide (phys < 68)
  | .keeperHeartbeat keeper => decide (keeper < 2)
  | .keeperFailover => true
  | .keeperSwap => true
  | .keeperRepair => true
  | .portLost port => decide (port < 24)
  | .linkSync port lost expected dir salt => decide (port < 24) && decide (lost < 32) && decide (expected < 4096) && decide (dir < 2) && decide (salt < 4294967296)
  | .linkSyncTimeout port => decide (port < 24)
  | .pciePortLost port => decide (port < 2)
  | .fwErase => true
  | .fwBlockWrite _ => true
  | .fwVerify _ => true
  | .fwActivate => true
  | .logAck v => decide (v < 4294967296)
  | .pwrgoodAonLow => true
  | .coreBrownOut => true
  | .rstNInput => true
  | .watchdogExpiry => true
  | .rstCmdCore => true
  | .rstCmdSystem => true
  | .dbgReq => true
  | .clockFailure => true
  | .lockup => true
  | .perst port => decide (port < 2)
  | .episodeEnd straps => decide (straps < 8)
  | .rstNSample _ => true
  | .trimLoadDone _ => true
  | .oscDlyWaitEnd locks => decide (locks < 4)
  | .powerOnBistDone _ => true
  | .keeperBootDone _ _ _ _ => true
  | .pllLockLoss pll => decide (pll < 2)
  | .pllEdgeLoss pll => decide (pll < 2)
  | .rootCmd => true
  | .srefLoss n => decide (n < 6)
  | .pcieRefclkLoss port => decide (port < 2)
  | .arithDivStep => true
  | .fcStart => true
  | .fcDone edges _ => decide (edges < 281474976710656)
  | .pstateTargetWrite v _ => decide (v < 256)
  | .p1GateIdle kind phys => decide (kind < 3) && decide (phys < 68)
  | .p2Idle => true
  | .wakeEvent => true
  | .p3Entry m => m.wf
  | .p3IdleTimeout => true
  | .p3Exit _ => true
  | .p3LinkGraceEnd => true
  | .thermalSample _ => true
  | .thermtrip => true
  | .energyBucketUpdate _ => true
  | .governorTick => true
  | .wearLedgerTick v => decide (v < 4)
  | .llRead sess msg port items => decide (sess < 4160) && decide (msg < 4294967296) && decide (port < 24) && items.all LlItem.wf
  | .llWrite sess msg port items _ => decide (sess < 4160) && decide (msg < 4294967296) && decide (port < 24) && items.all LlItem.wf
  | .llReadBlock sess msg port items => decide (sess < 4160) && decide (msg < 4294967296) && decide (port < 24) && items.all LlItem.wf
  | .llWriteBlock sess msg port items _ => decide (sess < 4160) && decide (msg < 4294967296) && decide (port < 24) && items.all LlItem.wf
  | .llSubscribe sess msg port items => decide (sess < 4160) && decide (msg < 4294967296) && decide (port < 24) && items.all LlItem.wf
  | .llUnsubscribe sess msg port items => decide (sess < 4160) && decide (msg < 4294967296) && decide (port < 24) && items.all LlItem.wf
  | .llPing sess msg port => decide (sess < 4160) && decide (msg < 4294967296) && decide (port < 24)
  | .llAck sess msg => decide (sess < 32) && decide (msg < 4294967296)
  | .subscriptionCheck sess => decide (sess < 32)
  | .eventResend sess msg => decide (sess < 32) && decide (msg < 4294967296)
  | .leaseAcquire sess => decide (sess < 4160)
  | .leaseRenew sess => decide (sess < 4160)
  | .leaseRelease sess => decide (sess < 4160)
  | .leaseExpire => true
  | .ssHello _ _ => true
  | .ssFinish _ _ _ => true
  | .llpHandshakeTimeout _ => true
  | .llpIdleTimeout sess => decide (sess < 32)
  | .llpDatagram sess ctr msg mgmt _ _ _ => decide (sess < 32) && decide (ctr < 18446744073709551616) && decide (msg < 4294967296) && decide (mgmt < 2)
  | .mbCmd port v _ => decide (port < 2) && decide (v < 4294967296)
  | .llm port tag agt len slots _ => decide (port < 24) && decide (tag < 4096) && decide (agt < 4096) && decide (len < 512) && slots.all Slot.wf
  | .nvFlashWriteDone => true
  | .pwrgoodDramRise => true
  | .pwrgoodCoreRise => true
  | .pcieLinkTraining port _ rate width => decide (port < 2) && decide (rate < 7) && decide (width < 9)
  | .pwrgoodAonRise straps => decide (straps < 8)
  | .pwrgoodDramFall => true
  | .rstNRelease => true
  | .dbgReqNRelease => true
  | .keeperHeartbeatTimeout keeper => decide (keeper < 2)
  | .mgmtLinkDown port => decide (port < 2)
  | .frHeadWrite port ring v => decide (port < 2) && decide (ring < 8) && decide (v < 65536)
  | .ntfHeadWrite port vf v _ => decide (port < 2) && decide (vf < 256) && decide (v < 65536)
  | .mbBufWrite port w => decide (port < 2) && w.wf

end Sys2Proof
end

