-- ==== Sys2Proof/Safety.lean ====
section
/-! DEFINITION. Sys2Proof/Safety.lean: what a sound state of the node is, in the terms the statements use. -/

namespace Sys2Proof.Machine

open Sys2Proof

/-- The stored memory is in canonical form: bytes, poison marks, the key each chunk was stored under and the marks of
bad cells (R373, R380, R455). -/
def State.memOk (s : State) : Prop :=
  Memory.wf s.mem = true ∧ Tab.wf 0 s.poison = true ∧ Tab.wf 0 s.chunkKey = true ∧ Tab.wf 0 s.dramBad = true

/-- The keys of a table rise strictly from `k` on: no key is listed twice. -/
def risingFrom {α : Type} : Nat → Tab α → Bool
  | _, [] => true
  | k, (k', _) :: t => decide (k ≤ k') && risingFrom (k' + 1) t

/-- Every object has one value: the keys of the object tables rise strictly. -/
def State.objsOk (s : State) : Prop := risingFrom 0 s.objs = true ∧ risingFrom 0 s.octs = true

/-- What every step keeps: memory and object tables in their one canonical form, and the LTC within its 64 bits (R624). -/
def State.Inv (s : State) : Prop := s.memOk ∧ s.objsOk ∧ s.ltc < 2 ^ 64

/-- Nothing that has left the node, no random draw and no key number is taken back from `s` to `t`. -/
def State.forward (s t : State) : Prop := s.out <:+ t.out ∧ s.freeCtr ≤ t.freeCtr ∧ s.nextKey ≤ t.nextKey

/-- The stored bytes, poison marks and keys of pool memory are the same in both. -/
def State.sameStored (s t : State) : Prop := t.mem = s.mem ∧ t.poison = s.poison ∧ t.chunkKey = s.chunkKey

/-- Every waiting command has its operands in range. -/
def State.queueOk (s : State) : Prop := ∀ c ∈ s.pending, c.wf = true

/-! ### What a port asks of a request (R32, R46-R64, R98-R121, R143, R408-R419) -/

/-- A port admits the request: it has a place, its source is the agent the link binds, present and not frozen, its tag is free, its form
is good, its CAN is the agent's, it is not sent again too early, no P3 entry has begun but for EvC and WbD, a binding with mask `m` names its context, the context takes requests, and
the policer does not colour it red. -/
structure State.Admits (s : State) (k : Kind) (port src : Nat) (h : Hdr) (slots : List Slot) (m : Nat) : Prop where
  place : s.retainedAt port < 4096
  turn : s.pool.any (fun w => w.port == port) = false
  source : h.agt = src
  life : (s.agent h.agt).life = .present
  frozen : k.evict = true ∨ (s.agent h.agt).frozen = false
  tag : s.reqs.any (fun q => q.port == port && q.h.agt == h.agt && q.h.tag == h.tag) = false
  form : formOk k h slots.length = true
  can : k.coherent = true → s.canAgent h.can = some h.agt
  patient : s.earlyRec (Req.arriving s.nextReq k port h slots) = none
  awake : k.evict = true ∨ s.pwr.entering = false
  bound : s.bindMask h.agt h.ctx = some m
  state : k.evict = true ∨ ¬((s.ctx h.ctx).st = .quiescing ∨ (s.ctx h.ctx).st = .sweeping ∨ (s.ctx h.ctx).st = .free)
  colour : k.evict = true ∨ (s.police port h.ctx (chargeOf k h slots.length) h.colour).1 ≠ 3
  range : h.ctx < 1024 ∧ port < 24

/-- The page of an admitted request is translated at its port by the entry `e`, whose rights and the mask `m` give what the kind needs, no
fence, retry slot, fetch or commit holds it, and its home slice takes requests by a route that does not change. -/
structure State.Maps (s : State) (k : Kind) (port : Nat) (h : Hdr) (slots : List Slot) (m : Nat) (e : Entry) : Prop where
  window : h.cva / 2 ^ 26 < s.ov O.win_count h.ctx
  fence : s.reqs.any (fun q => q.kind == .fence && q.phase == .fencing && q.h.sub == 1 && q.port == port && q.h.agt == h.agt
    && q.h.ctx == h.ctx) = false
  behind : s.reqs.any (fun q => (q.phase == .slotted || q.phase == .fetching) && q.port == port && q.h.ctx == h.ctx
    && q.h.cva / 2 ^ 26 == h.cva / 2 ^ 26) = false
  hit : (s.chart.ptc.find? (fun q => q.port == port && q.ctx == h.ctx && q.vpn == h.cva / 2 ^ 26)).map (·.ent) = some e
  pool : e.valid = true ∧ e.typ = 0 ∧ e.view = 0
  rights : k.needs.1 &&& ((e.rights &&& m) &&& k.needs.1) = k.needs.1
  gen : h.gchk = false ∨ h.gexp = e.gen
  some : (k = .rdonce ∨ k = .wrpart → h.len ≠ 0) ∧ (k = .acc → accEmpty h slots = false)
  remap : k = .rds ∨ k = .rdx ∨ k = .upg → s.remapHeld h.ctx (h.cva / 2 ^ 26) = false
  home : (s.slc (hsOf (e.frame * 2 ^ 26 + h.cva % 2 ^ 26))).phase = 0 ∧
    (s.slc (hsOf (e.frame * 2 ^ 26 + h.cva % 2 ^ 26))).noSpare = false ∧
    (s.slc (hsOf (e.frame * 2 ^ 26 + h.cva % 2 ^ 26))).hold = false
  route : s.rerouting port (e.frame * 2 ^ 26 + h.cva % 2 ^ 26) = false

/-- The commands that bring a request over a link, with the kind, header and slots each stands for. -/
def requestRows (port src : Nat) (h : Hdr) (slots : List Slot) : List (Instr × Kind × Hdr × List Slot) := [
  (.rds port src h, .rds, h, []), (.rdx port src h, .rdx, h, []), (.upg port src h, .upg, h, []),
  (.rdOnce port src h, .rdonce, h, []), (.wrFull port src h slots, .wrfull, h, slots), (.wrPart port src h slots, .wrpart, h, slots),
  (.evc port src h, .evc, h, []), (.wbd port src h slots, .wbd, h, slots), (.acc port src h slots, .acc, h, slots),
  (.atomFetchAdd port src h slots, .atom, { h with sub := 0 }, slots), (.atomSwap port src h slots, .atom, { h with sub := 1 }, slots),
  (.atomCompareSwap port src h slots, .atom, { h with sub := 2 }, slots)]

/-- A request that its port admits with the binding mask `m`, and the state in which it is retained: the policer has charged it. -/
def State.admitted (s : State) (k : Kind) (port : Nat) (h : Hdr) (slots : List Slot) (m : Nat) : Req × State :=
  let p := ({ s with nextReq := s.nextReq + 1 } : State).police port h.ctx (chargeOf k h slots.length) h.colour
  let r : Req := { Req.arriving s.nextReq k port h slots with colour := min p.1 2, mask := m }
  (r, { p.2.2 with reqs := p.2.2.reqs ++ [r] })

/-- The HINT commands with the header each stands for. -/
def hintRows (port src : Nat) (h : Hdr) : List (Instr × Hdr) := [
  (.hintPreferHbm port src h, { h with sub := 1 }), (.hintPreferDdr5 port src h, { h with sub := 2 }),
  (.hintExpectReads port src h, { h with sub := 3 })]

/-- The fence commands with the header each stands for. -/
def fenceRows (port src : Nat) (h : Hdr) : List (Instr × Hdr) :=
  [(.fenceC port src h, { h with sub := 0 }), (.fenceO port src h, { h with sub := 1 })]

/-! ### Flits (R457, R461, R505, R521) -/

/-- The state in which a flit has been counted on its lane once the session is up, anew where it is the lane's first under a new key, which is noted
(R520, R521). -/
def State.flitCounted (s : State) (p : Nat) (f : Flit) : State :=
  let x := s.lport p
  let u := if s.sessUp p = true then
      s.setLport p { x with rxCount := Tab.put 0 x.rxCount f.lane ((if s.freshLane p f = true then 0 else Tab.get 0 x.rxCount f.lane) + 1) }
    else s
  if s.freshLane p f = true then u.setSession p { s.session p with lanes := (s.session p).lanes ++ [f.lane] } else u

/-- A flit passes the checks before its acknowledgements are taken: its link runs, its CRC is good, and while the session is up its tag is
good, its key held, and its lane not too far ahead; before that it is an IDLE or a handshake flit. -/
structure State.FlitPasses (s : State) (p : Nat) (f : Flit) : Prop where
  port : p < 24
  runs : s.ov O.link_state p = 2 ∨ s.ov O.link_state p = 3
  crc : f.crcOk = true
  sealed : s.sessUp p = true → f.fkind ≠ 7 → f.tagOk = true ∧ s.phaseHeld p f = true
  lane : s.freshLane p f = false ∨ f.gap ≤ 16
  early : s.sessUp p = false → f.fkind = 7 ∨ f.fkind = 0

/-- The commands that bring a sequenced flit, with the flit each stands for. -/
def sequencedRows (p : Nat) (f : Flit) (m : Met) (k : Vouch) : List (Instr × Flit) :=
  [(.dataFlit p f m k, f), (.contFlit p f m k, { f with fkind := 6 }), (.handshakeFlit p f m k, { f with fkind := 7 })]

/-! ### Snoop responses (R159, R169, R191) -/

/-- The commands that bring a snoop response, with the kind of response, its dirty mark and its data. -/
def responseRows (port src hs sid can : Nat) (dirty : Bool) (slots : List Slot) : List (Instr × RspK × Bool × List Slot) := [
  (.rspI port src hs sid can, .i, false, []), (.rspS port src hs sid can, .s, false, []),
  (.rspDI port src hs sid can dirty slots, .di, dirty, slots), (.rspDS port src hs sid can slots, .ds, false, slots),
  (.rspDO port src hs sid can slots, .dO, false, slots), (.rspDK port src hs sid can dirty slots, .dk, dirty, slots),
  (.rspWB port src hs sid can, .wb, false, [])]

/-- The record of the snoop a response answers. -/
def State.snoopOf (s : State) (src hs sid can : Nat) (x : SnpRec) : Bool :=
  x.hs == hs && x.sid == sid && x.can == can && x.out && s.canAgent can == some src

/-- The state without the record of an answered snoop. -/
def State.snoopDone (s t : State) (src hs sid can : Nat) : State :=
  { t with coh := { t.coh with snoops := t.coh.snoops.filter (fun y => !s.snoopOf src hs sid can y) } }

/-! ### Strips (R267, R281) -/

/-- The commands by which a tile computes the strip it runs, with the kind of job each serves. -/
def stripRows (tile : Nat) (m : Met) : List (Instr × Nat) := [
  (.jobStep tile m, 1), (.jobReduce tile m, 2), (.jobConvert tile m, 3), (.jobFill tile m, 4), (.jobCopy tile m, 5),
  (.jobChecksum tile m, 6), (.jobNorm tile m, 7)]

/-- The streams a strip writes as it is computed: all of an in-place job's, and of a journaled job those it does not read (R281). -/
def State.directStreams (s : State) (j : Job) : List Nat :=
  (s.jobWrites j).filter (fun st => !(if j.inplace then [] else s.heldStreams j).contains st)

/-- A tile has a strip to compute: it runs one at its first stage that waits on no page. -/
structure State.Strips (s : State) (tile : Nat) (j : Job) (x : Strip) : Prop where
  runs : s.onTile tile = some (j, x)
  fresh : x.stage = 0
  unparked : x.parked = none

/-- A strip's pages are open to its context, and no line it reads or writes waits for a cache, a slice or a sweep record. -/
structure State.Computes (s : State) (j : Job) (x : Strip) : Prop where
  opened : ∀ p ∈ x.trs, s.frameClosed p.2.frame j.ctx = false
  ready : s.clear (wantsOf x.trs j.ctx (s.stripReads j x)) (wantsOf x.trs j.ctx ((s.directStreams j).flatMap (j.stripRanges x.idx))) = true

/-- The pieces of memory that the outputs of a strip's streams make. -/
def Work.pieces (w : Work) (x : Strip) (p : Nat → Bool) : List Piece :=
  (w.outs.filter (fun o => p o.1)).flatMap (fun o => o.2.runs.flatMap (fun r => piecesOf x.trs r.1 r.2))

/-! ### Lines of tender engines (R291, R303, R543) -/

/-- A chunk's lines may be moved now: none lies in a frame closed to the context, and no cache, home slice or sweep record keeps a read or a write
waiting. -/
def State.LinesClear (s : State) (c : Nat) (reads writes : List Want) : Prop :=
  s.closedWants c (reads ++ writes) = false ∧ s.clear reads writes = true

/-- The queues of a channel controller with a request added to the queue `q`, 0 L, 1 N, 2 B, 3 W (R344), while that queue has a free slot. -/
def Chan.take (x : Chan) (q : Nat) (r : Dreq) : Option Chan :=
  if q = 0 then (if x.l.length < 64 then some { x with l := x.l ++ [r] } else none)
  else if q = 1 then (if x.n.length < 128 then some { x with n := x.n ++ [r] } else none)
  else if q = 2 then (if x.b.length < 64 then some { x with b := x.b ++ [r] } else none)
  else if x.w.length < 64 then some { x with w := x.w ++ [r] } else none

/-- A request of a queue targets a bank. -/
def Chan.wants (x : Chan) (b : Nat) : Bool := x.all.any (fun r => bankOf r.line == b)

/-- The commands that may change pool memory: they write lines, complete or drop what writes them, take a link or a unit away, reset the node, or carry a
Light List message that may order any of this. Every other command leaves the stored bytes, poison and keys alone. -/
def storesPool : Instr → Bool
  | .wbd .. | .homeSliceSerialise .. | .rspI .. | .rspS .. | .rspDI .. | .rspDS .. | .rspDO .. | .rspDK .. | .rspWB .. | .gntAck ..
  | .evictDataAccepted .. | .recall .. | .directoryWalkDone .. | .snoopTimeout .. | .gntAckTimeout .. | .accFillArrives ..
  | .accIdleFlush .. | .applyPoint .. | .internalCommit .. | .probe .. | .probeAns .. | .jobFetch .. | .jobStep .. | .jobReduce ..
  | .jobConvert .. | .jobFill .. | .jobCopy .. | .jobChecksum .. | .jobNorm .. | .stripStart .. | .stripApplyDone ..
  | .reductionAccComplete .. | .jobComplete .. | .jobFaultTimeout .. | .tenderCopy .. | .tenderPut .. | .hostIn .. | .hostOut ..
  | .unwrap .. | .tenderChunkDone .. | .blkPut .. | .blkGet .. | .blkGetData .. | .blkMwr .. | .blkAns ..
  | .remoteChunkResend .. | .sweepRecordTake .. | .sweepChunk .. | .teAckTimeout .. | .relayoutFrameDone .. | .mergeHoldExpiry ..
  | .scrubLine .. | .contextResetDrainEnd .. | .rekeyChunk .. | .lsHello .. | .lsReply .. | .lsFinish .. | .lsDone .. | .lsAbort ..
  | .lkOffer .. | .lkAccept .. | .laneCountLimit .. | .idleFlit .. | .dataFlit .. | .contFlit .. | .handshakeFlit .. | .fullTrainingDone ..
  | .laneFail .. | .portLossTimeout .. | .portFence .. | .portRestart .. | .agentLossTime .. | .agtFence .. | .purgeWalkDone ..
  | .sliceFailover .. | .unitFence .. | .routerFailure .. | .unitCmdFence .. | .quiesceDone .. | .swapDone .. | .portLost .. | .linkSync ..
  | .linkSyncTimeout .. | .fwActivate .. | .pwrgoodAonLow .. | .coreBrownOut .. | .rstNInput .. | .watchdogExpiry .. | .rstCmdCore ..
  | .rstCmdSystem .. | .dbgReq .. | .clockFailure .. | .lockup .. | .rstNSample .. | .keeperBootDone .. | .srefLoss .. | .p2Idle ..
  | .p3Entry .. | .p3Exit .. | .llRead .. | .llWrite .. | .llReadBlock .. | .llWriteBlock .. | .llSubscribe .. | .llUnsubscribe ..
  | .failoverHoldEnd .. | .routeDrainDone .. | .repairSelftestDone .. | .llPing .. | .llpDatagram .. | .mbCmd .. | .llm .. => true
  | _ => false

end Sys2Proof.Machine
end

