-- ==== Sys2Proof/Certificates/Slice0/Obligations.lean ====
section
/-! DEFINITION. Sys2Proof/Certificates/Slice0/Obligations.lean: the statements for the provers. Each says which rules of the spec it formalises. -/

open Sys2Proof Sys2Proof.Machine

/-- A step takes the command at the front of the queue and runs it with the queue's rest; every command answers a next state; with none waiting, the
LTC counts one tick (R624; log 17). -/
def Obligations.StepTakesTheFrontCommand : Prop :=
  ∀ (s : State),
    (∀ c rest, s.pending = c :: rest → step s = exec c { s with pending := rest }) ∧
    (∀ c, ∃ t, exec c s = .next t) ∧
    (s.pending = [] → step s = .next { s with ltc := (s.ltc + 1) % 2 ^ 64 })

/-- The opcode table gives its rows no bits: no word spells a command, and placing one changes nothing. -/
def Obligations.TheTableGivesNoBits : Prop :=
  ∀ (s : State) (nbits w : Nat), decodeTableWord nbits w = none ∧ s.withFetchWord nbits w = s

/-- The state after reset meets the invariant every step keeps, and no command waits. -/
def Obligations.ResetMeetsTheInvariant : Prop := State.reset.Inv ∧ State.reset.queueOk ∧ State.reset.pending = []

/-- What the spec gives the node right after reset: the LTC at 0 (R624), MAINTENANCE (R438), Keeper A active and B standing by, POR with its reach
(R609), no channel fenced, every link down, the lease free, every agent unfrozen, and no context, extent or request. -/
def Obligations.ResetLeavesWhatTheSpecGives : Prop :=
  State.reset.ltc = 0 ∧ State.reset.ov O.lc_state = 1 ∧ State.reset.ov O.dbg_state = 0 ∧ State.reset.ov O.keeper_state = 0x10 ∧
    State.reset.ov O.keeper_active = 0 ∧ State.reset.ov O.rst_cause = 0xC0001 ∧ State.reset.ov O.pstate = 0 ∧
    (∀ n < 4, State.reset.ov O.hbm_fenced_ch n = 0xFF) ∧ (∀ p < 24, State.reset.ov O.link_state p = 0) ∧
    State.reset.ov O.lease_holder = 0 ∧ State.reset.agents = [] ∧ State.reset.ctxs = [] ∧ State.reset.chart.frames = [] ∧
    State.reset.reqs = [] ∧ State.reset.mem = [] ∧ State.reset.out = []

/-- From every state whose memory and object tables are in canonical form, with the LTC in its 64 bits, every step gives such a state. -/
def Obligations.EveryStepKeepsTheInvariant : Prop := ∀ (s t : State), s.Inv → step s = .next t → t.Inv

/-- A command leaves the waiting commands alone, and nothing the node has sent, no random draw and no key number is ever taken back, whatever the
command, reset included. -/
def Obligations.NothingSentIsTakenBack : Prop :=
  ∀ (c : Instr) (s t : State), exec c s = .next t → t.pending = s.pending ∧ s.forward t

/-- Pool memory keeps its bytes, its poison and its keys under every command but the listed ones that may store. -/
def Obligations.PoolMemoryIsKept : Prop :=
  ∀ (c : Instr) (s t : State), storesPool c = false → exec c s = .next t → s.sameStored t

/-- R373, R380, R381. A code word just stored reads back as stored, poison with its reason, and every other code word of another chunk, or of the
chunk when its key is unchanged, reads as before. -/
def Obligations.CodeWordsReadBack : Prop :=
  ∀ (s : State) (w v : Nat) (bs : Bytes) (r : Nat), s.memOk → r ≠ 0 →
    (s.cwStore w (.data bs)).cwStored w = .data (fitTo 64 bs) ∧
    (s.cwStore w (.poison r)).cwStored w = .poison r ∧
    (v ≠ w → (s.cwStore w (.poison r)).cwStored v = s.cwStored v) ∧
    (v ≠ w → v / 64 ≠ w / 64 ∨ Tab.get 0 s.chunkKey (w / 64) = s.frameKey (w * 64) →
      (s.cwStore w (.data bs)).cwStored v = s.cwStored v)

/-- An object holds what was last put into it, a counter its count, and every other object, item and subindex is unchanged. -/
def Obligations.ObjectsReadBack : Prop :=
  ∀ (s : State) (o p : Obj) (a b c d v n : Nat), s.objsOk →
    (s.setOv o v a b).ov o a b = v ∧
    (s.bump o a b n).ov o a b = (s.ov o a b + n) % 2 ^ (8 * o.ty.len) ∧
    (a < 2 ^ 24 → b < 256 → c < 2 ^ 24 → d < 256 → (o.id ≠ p.id ∨ (o = p ∧ (a ≠ c ∨ b ≠ d))) →
      (s.setOv o v a b).ov p c d = s.ov p c d ∧ (s.bump o a b n).ov p c d = s.ov p c d)

/-- R34. Each bit of the home slice of an address is the exclusive OR of the address bits the rule names. -/
def Obligations.HomeSliceOfAnAddress : Prop :=
  ∀ (ppa i : Nat), ppa < 2 ^ 44 → i < 5 →
    (hsOf ppa).testBit i = ((((((ppa.testBit (12 + i) ^^ ppa.testBit (17 + i)) ^^ ppa.testBit (22 + i)) ^^ ppa.testBit (27 + i)) ^^ ppa.testBit (32 + i))
      ^^ ppa.testBit (37 + i)) ^^ (decide (i < 2) && ppa.testBit (42 + i)))

/-- R32, R36, R46-R64, R104-R121. A request that its port admits and translates is retained, is on its way to the home slice of the pool address its
page's entry gives, has no completion yet, and changes nothing in memory, the contexts, the directory or what has left; only the count that dates what
is sent moves on. -/
def Obligations.RequestsReachTheirHomeSlice : Prop :=
  ∀ (s : State) (port src : Nat) (h : Hdr) (slots : List Slot) (m : Nat) (e : Entry), ∀ x ∈ requestRows port src h slots,
    s.Admits x.2.1 port src x.2.2.1 x.2.2.2 m → s.Maps x.2.1 port x.2.2.1 x.2.2.2 m e →
    ∃ t, exec x.1 s = .next t ∧ t.nextReq = s.nextReq + 1 ∧
      (∃ r ∈ t.reqs, r.id = s.nextReq ∧ r.kind = x.2.1 ∧ r.port = port ∧ r.h = x.2.2.1 ∧ r.slots = x.2.2.2 ∧ r.mask = m ∧
        r.phase = .sent ∧ r.ppa = e.frame * 2 ^ 26 + h.cva % 2 ^ 26 ∧ r.gen = e.gen ∧ r.rights = e.rights &&& m) ∧
      (∀ q ∈ s.reqs, q.id ≠ s.nextReq → q ∈ t.reqs) ∧ t.cmps = s.cmps ∧ t.out = s.out ∧ s.sameStored t ∧
      t.coh = { s.coh with clk := s.coh.clk + 1 } ∧
      t.ctxs = s.ctxs ∧ t.octs = s.octs ∧ t.agents = s.agents

/-- R127-R129. A fence that may close completes OK and lets the requests behind it go on; a fence never closes while a request it covers has neither
completed nor, for an ordering fence, been serialised. -/
def Obligations.FencesWaitForWhatTheyCover : Prop :=
  ∀ (s : State) (port agt tag : Nat),
    (∀ f, s.reqs.find? (fun q => q.port == port && q.h.agt == agt && q.h.tag == tag && q.kind == .fence && q.phase == .fencing) = some f →
      s.fenceReady f = true →
      exec (.fenceClose port agt tag) s = .next ((s.finish f .ok).releaseFenced ((s.finish f .ok).reqs.filter (fun q =>
        q.phase == .fenced && q.port == port && q.h.agt == agt && q.h.ctx == f.h.ctx)))) ∧
    (∀ t, exec (.fenceClose port agt tag) s = .next t → t ≠ s →
      ∃ f ∈ s.reqs, f.kind = .fence ∧ f.port = port ∧ f.h.agt = agt ∧ f.h.tag = tag ∧
        ∀ q ∈ s.reqs, q.port = port → q.h.agt = agt → q.h.ctx = f.h.ctx → q.id < f.id → q.phase = .done ∨ (f.h.sub = 1 ∧ q.ser = true))

/-- R111, R127, R249, R341. A HINT whose pages lie in its window and may be read sets their frames' targets and completes OK; a fence that no ordering
fence holds back is retained open; a doorbell that may be rung and is accepted moves its queue's tail and completes OK. Each wakes the node (R638).
R44, R63. A chart fetch that returns serves the requests waiting behind it with the entry it brought, and the port's next fetch starts. -/
def Obligations.HintsDoorbellsAndFetches : Prop :=
  (∀ (s : State) (port src : Nat) (h : Hdr) (slots : List Slot) (m : Nat),
     (∀ x ∈ hintRows port src h, ∀ a, a = s.admitted .hint port x.2 [] m → s.Admits .hint port src x.2 [] m → a.2.stir.fenceHeld a.1 = false →
       x.2.cva / 2 ^ 26 + (x.2.len - 1) < a.2.stir.ov O.win_count x.2.ctx → a.2.stir.hintDenied a.1 = false →
       exec x.1 s = .next ((a.2.stir.hintPages x.2.ctx (x.2.cva / 2 ^ 26) x.2.sub x.2.len).finish a.1 .ok (empty := x.2.len == 0))) ∧
     (∀ x ∈ fenceRows port src h, ∀ a, a = s.admitted .fence port x.2 [] m → s.Admits .fence port src x.2 [] m → a.2.stir.fenceHeld a.1 = false →
       exec x.1 s = .next (a.2.stir.updReq a.1.id (fun _ => { a.1 with phase := .fencing }))) ∧
     (∀ a q tail, a = s.admitted .dbell port h slots m → s.Admits .dbell port src h slots m → a.2.stir.fenceHeld a.1 = false → m.testBit 3 = true →
       q = 4 * h.ctx + bits (leNat ((slotBytes slots).take 8)) 16 2 → tail = leNat ((slotBytes slots).take 8) % 65536 →
       a.2.stir.ob O.jq_enable q = true → a.2.stir.ov O.jq_state q = 1 →
       (a.2.stir.ov O.jq_tail q + 65536 - a.2.stir.ov O.jq_head q) % 65536 ≤ (tail + 65536 - a.2.stir.ov O.jq_head q) % 65536 →
       (tail + 65536 - a.2.stir.ov O.jq_head q) % 65536 ≤ a.2.stir.ov O.jq_size q →
       exec (.dbell port src h slots) s = .next ((a.2.stir.setOv O.jq_tail tail q).finish a.1 .ok))) ∧
  (∀ (s : State) (port c vpn eccA eccB : Nat) (s1 s2 s3 : State), s.chart.fetches.contains (port, c, vpn) = true →
     s1 = { s with chart := { s.chart with fetches := s.chart.fetches.erase (port, c, vpn) } } →
     ∀ q i e, i = s.ov O.win_base c + vpn → q = s1.readChart i eccA eccB → s2 = q.2 → e = s2.entry i →
     s3 = (if q.1 = false ∧ e.valid = true ∧ e.typ = 0 then s2.touchPtc ⟨port, c, vpn, e⟩ else s2) →
     ∀ s4 : State, s4 = s3.serveFetched i q.1 (s3.behindFetch port c vpn) →
       (s4.nextFetch port = none → exec (.ptcFetchDone port c vpn eccA eccB) s = .next s4) ∧
       (∀ c' v', s4.nextFetch port = some (c', v') → exec (.ptcFetchDone port c vpn eccA eccB) s =
         .next (({ s4 with chart := { s4.chart with fetches := s4.chart.fetches ++ [(port, c', v')] } } : State).bump O.ptc_misses 0 port)))

/-- R122, R123, R172-R177, R240. A request that reaches its home slice is marked serialised and takes the extent's scale in force (R240). An eviction
is acted on at once; any other request waits in the line's wait list while the line is busy, and is served by the home state table otherwise. R132,
R133, R161, R165, R167, R139, R585. A snoop that no earlier one holds leaves by the port its line picks; a completion that may leave does so, frees
its header, keeps a grant record for a grant, and lets the port's oldest waiting request in; a snoop or a grant that is not answered in time makes its
agent lost. Neither leaves while the synchronisation of a lost port of its agent runs, nor a completion while an earlier one of its agent and line
waits at another port. -/
def Obligations.HomeSliceOrdersItsRequests : Prop :=
  (∀ (s : State) (port agt tag : Nat) (errs : List DramErr) (r r1 : Req) (u : State),
     s.arriving port agt tag = some r → r1 = { r with ser := true, scale := s.ov O.int8_scale (r.ext % 65536), phase := .served } →
     u = (s.meet errs).updReq r.id (fun _ => r1) →
     (∀ h, hsOf r.ppa ≠ h → exec (.homeSliceSerialise port agt tag errs h) s = .next s) ∧
     (r.kind = .evc → exec (.homeSliceSerialise port agt tag errs (hsOf r.ppa)) s = .next ((u.evc r1).work [r1.line])) ∧
     (r.kind = .wbd → exec (.homeSliceSerialise port agt tag errs (hsOf r.ppa)) s = .next ((u.wbd r1).work [r1.line])) ∧
     (r.kind.evict = false → u.closedTo r1 = true →
       exec (.homeSliceSerialise port agt tag errs (hsOf r.ppa)) s = .next ((u.straggler r1).finish r1 .revoked)) ∧
     (r.kind.evict = false → u.closedTo r1 = false → u.writeHeld r1 = false → (r1.kind.caching = true → u.remapHeld r1.h.ctx r1.vpn = false) →
       (r1.view = 0 ∨ viewOk r1.view r1.vpn (r1.h.cva % 2 ^ 26) r1.h.len = true) →
       ((u.dir r1.line).txn ≠ none → (u.dir r1.line).waits.length < 8 → u.slcRecords (hsLine r1.line) < 8192 →
         exec (.homeSliceSerialise port agt tag errs (hsOf r.ppa)) s = .next ((u.updReq r1.id (fun q => { q with phase := .waiting })).setDir r1.line
           { u.dir r1.line with waits := (u.dir r1.line).waits ++ [r1.id] })) ∧
       ((u.dir r1.line).txn = none → (u.dir r1.line).waits = [] →
         exec (.homeSliceSerialise port agt tag errs (hsOf r.ppa)) s = .next ((u.serve r1).1.work ((u.serve r1).2 ++ [r1.line]))))) ∧
  (∀ (s : State),
     (∀ hs sid can x a p, s.coh.snoops.find? (fun x => x.hs == hs && x.sid == sid && x.can == can && !x.out) = some x →
       s.canAgent can = some a → s.snpPort x = some p → s.snpBefore x p = false → s.syncHolds a = false →
       exec (.snoopEgress hs sid can) s = .next ((({ s with coh := { s.coh with snoops := s.coh.snoops.map (fun z =>
         if z = x then { x with out := true, port := p, since := s.ltc } else z) } } : State).bump O.snoops_sent hs).send p
         { chan := 1, hdr := packSnp x, slots := [], agt := a, line := some x.line })) ∧
     (∀ port agt tag c p, s.leaving port agt tag = some c → s.cmpPort c = some p → s.oldPortHolds c p = false → s.syncHolds agt = false → c.grant = 0 →
       exec (.completionEgress port agt tag) s = .next ((({ (s.dropReq c.reqId) with cmps := s.cmps.erase c } : State).send p
         { chan := 2, hdr := packCmp c, slots := c.slots, agt := c.agt, line := c.lineOf, arrival := c.port }).admitNext port)) ∧
     (∀ port agt tag c p u, s.leaving port agt tag = some c → s.cmpPort c = some p → s.oldPortHolds c p = false → s.syncHolds agt = false → c.grant ≠ 0 →
       s.grantsAt p < 4096 → u = ({ (s.dropReq c.reqId) with cmps := s.cmps.erase c } : State) →
       exec (.completionEgress port agt tag) s = .next ((({ u with coh := { u.coh with grants := u.coh.grants ++
         [⟨p, c.agt, c.tag, c.can, c.line, c.reqId⟩] } } : State).send p
         { chan := 2, hdr := packCmp c, slots := c.slots, agt := c.agt, line := c.lineOf, arrival := c.port }).admitNext port)) ∧
     (∀ port agt tag c p, s.leaving port agt tag = some c → s.cmpPort c = some p → s.oldPortHolds c p = true ∨ s.syncHolds agt = true →
       exec (.completionEgress port agt tag) s = .next (s.admitNext port)) ∧
     (∀ hs sid can x a, s.coh.snoops.find? (fun x => x.hs == hs && x.sid == sid && x.can == can && x.out) = some x →
       s.canAgent can = some a → s.portUp x.port = true → exec (.snoopTimeout hs sid can) s = .next (s.declareLost a 2)) ∧
     (∀ port agt tag, s.coh.grants.any (fun g => g.port == port && g.agt == agt && g.tag == tag) = true → s.portUp port = true →
       exec (.gntAckTimeout port agt tag) s = .next (s.declareLost agt 3)))

/-- R191, R158, R170. A line held under its recorded name and not claimed by an accumulator: which snoops its home opens for each request. A request
for a line that only sharers hold and that asks for a shared copy opens none; an owner is asked for its data; every holder but the requester loses its
copy before ownership is granted. -/
def Obligations.HomeTableOpensTheRightSnoops : Prop :=
  ∀ (s : State) (r : Req) (d : Dir), d = s.dir r.line → s.txnRoom (hsLine r.line) = true → d.owner ≠ some r.h.can →
    (r.kind = .rds → s.serveHeld r = ((s.served r).openTxn r.line (.fresh .rd r.id) (d.owner.toList.map (fun o => (o, .snpS, true))), [r.line])) ∧
    (r.kind = .rdx → s.serveHeld r = ((s.served r).openTxn r.line (.fresh .own r.id)
      (d.owner.toList.map (fun o => (o, .snpX, true)) ++ s.invSharers d (some r.h.can)), [r.line])) ∧
    (r.kind = .upg → d.exactSharer r.h.can = true → r.unk = false → s.serveHeld r = ((s.served r).openTxn r.line
      { Txn.fresh .own r.id with noData := true }
      (d.owner.toList.map (fun o => (o, .snpInv, true)) ++ s.invSharers d (some r.h.can)), [r.line])) ∧
    (r.kind = .rdonce → ∀ o, d.owner = some o →
      s.serveHeld r = ((s.served r).openTxn r.line (.fresh .rdonce r.id) [(o, .snpCur, true)], [r.line])) ∧
    (r.kind = .wrfull ∨ r.kind = .wrpart ∨ r.kind = .atom ∨ r.kind = .acc →
      s.serveHeld r = ((s.served r).openTxn r.line (.fresh .write r.id) (s.recallTargets d (s.reqCan r)), [r.line]))

/-- R159, R169, R171, R191. A response that its snoop allows, from a present agent to a running slice, is taken as the answer of that CAN and the line
is settled; one that the snoop does not allow is a coherence error and its sender is frozen. R162-R164, R178, R182. A GntAck frees its grant record
and ends the busy state of the line it grants; a victim whose data the memory path accepts passes its way to the line that claimed it. -/
def Obligations.ResponsesGrantsAndEvictions : Prop :=
  (∀ (s : State) (port src hs sid can : Nat) (dirty : Bool) (slots : List Slot) (x : SnpRec) (t : Txn) (p : Snp) (u : State),
     (s.agent src).life = .present → s.coh.snoops.find? (s.snoopOf src hs sid can) = some x → (s.slc hs).phase = 0 →
     u = (if x.since + usTicks (s.ov O.snoop_bound) < s.ltc then s.bump O.snoop_late src else s) →
     (u.dir x.line).txn = some t → t.snps.find? (fun q => q.can == can) = some p → t.sid = sid →
     ∀ c ∈ responseRows port src hs sid can dirty slots,
       (t.kind = .unk ∨ rspAllowed p.kind p.owner (p.owner && (u.dir x.line).st == .os) c.2.1 = true →
         exec c.1 s = .next (((s.snoopDone u src hs sid can).takeAnswer x.line t p c.2.1 c.2.2.1 c.2.2.2).work [x.line])) ∧
       (t.kind ≠ .unk → rspAllowed p.kind p.owner (p.owner && (u.dir x.line).st == .os) c.2.1 = false →
         exec c.1 s = .next (u.badRsp 2 src can x.line c.2.1.opcode port))) ∧
  (∀ (s : State),
     (∀ port src tag can g u, (s.agent src).life = .present →
       s.coh.grants.find? (fun g => g.port == port && g.agt == src && g.tag == tag) = some g →
       (s.slc (hsLine g.line)).phase = 0 → u = ({ s with coh := { s.coh with grants := s.coh.grants.erase g } } : State) →
       ∀ t, (u.dir g.line).txn = some t → t.granted = true → t.req = g.reqId →
         exec (.gntAck port src tag src can) s =
           .next ((u.setDir g.line (grantEnd (u.dir g.line) t ((u.dir g.line).nctx, (u.dir g.line).nvpn))).work [g.line])) ∧
     (∀ line c v t, (s.dir line).txn = some t → t.kind = .handover c → t.val = some v →
       exec (.evictDataAccepted line) s = .next (((s.homeData line v).passWay line c).1.work ((s.homeData line v).passWay line c).2)))

/-- R179, R180, R307, R537, R544. A wanted line's recall starts at once where no transaction is open and its slice has fewer than 256 recalls open,
and is held otherwise; a walk that has found nothing left to recall writes home what the slice still holds of the frames that are to be emptied, and
sets its slice's bit in what asked for it. R562, R563. A CENSUS report in time, of the running census and from the CAN's own agent, enters its
records; the last one ends the agent's report, and the agent is a laggard no longer unless a full set made it one, which is the model's reading (log
111). -/
def Obligations.RecallsWalksAndCensus : Prop :=
  (∀ (s : State),
     (∀ line, s.wanted line = true → (s.dir line).txn ≠ none ∨ s.recallRoom (hsLine line) = false →
       exec (.recall line) s = .next (s.setDir line { s.dir line with recalls := true })) ∧
     (∀ line, s.wanted line = true → (s.dir line).txn = none → s.recallRoom (hsLine line) = true →
       exec (.recall line) s = .next ((s.startRecall line).1.work ((s.startRecall line).2 ++ [line]))) ∧
     (∀ hs slot u, s.walkClear hs 0 slot = true → (s.ext slot).phase = 3 →
       u = (if (s.ext slot).closingFor = none then s.flushLines ((s.coh.acc.map (·.1) ++ s.coh.merge.map (·.1)).filter (fun l => hsLine l == hs &&
         (s.ext slot).frames.contains (frameOf (l * 128)))) else s) →
       (u.ext slot).phase = 3 → exec (.directoryWalkDone hs 0 slot) s = .next (u.setExt slot { u.ext slot with walk := setBit (u.ext slot).walk hs })) ∧
     (∀ hs c, s.walkClear hs 1 c = true → (s.ctx c).rphase = 2 →
       exec (.directoryWalkDone hs 1 c) s = .next (s.setCtx c { s.ctx c with rwalk := setBit (s.ctx c).rwalk hs })) ∧
     (∀ hs f, s.walkClear hs 2 f = true → s.migs.any (fun m => m.src == f && m.phase == 2) = true → ∀ u : State,
       u = s.flushLines ((s.coh.acc.map (·.1) ++ s.coh.merge.map (·.1)).filter (fun l => hsLine l == hs && (f :: (s.mirrorOf f).toList).contains (frameOf (l * 128)))) →
       exec (.directoryWalkDone hs 2 f) s = .next { u with migs := u.migs.map (fun m => if m.src = f ∧ m.phase = 2 then m.walked hs else m) }) ∧
     (∀ hs c, s.walkClear hs 3 c = true → exec (.directoryWalkDone hs 3 c) s = .next (s.setCommits (updCommit c (fun k =>
       if k.ph = 2 then { k with walk := setBit k.walk hs } else k) s.chart.commits)))) ∧
  (∀ (s : State) (port src hs census can count : Nat) (slots : List Slot) (u : State), (s.agent src).life = .present → count ≤ 32 →
     slots.length = ceilDiv count 4 → (s.slc hs).census = census → (s.slc hs).counted = true → s.canAgent can = some src → (s.slc hs).phase ≠ 1 →
     u = (censusWords count slots).foldl (fun t w => t.censusRecord hs can w) s →
     exec (.censusReport port src hs census can count false slots) s = .next u ∧
     exec (.censusReport port src hs census can count true slots) s = .next (u.setSlc hs { u.slc hs with
       queried := (u.slc hs).queried.filter (· != can),
       laggards := if (u.slc hs).full.contains can then (u.slc hs).laggards
         else (u.slc hs).laggards.filter (· != can) }))

/-- R184, R228, R231, R243. The starting value of a filling accumulator line arrives, poison with its reason, and the ACCs that waited are added in
order; an idle dirty line is written home, counted, and stays, clean, but never where `acc_idle_flush` is all ones; an extent's `int8_scale` takes a
finite value while it is MOORED. -/
def Obligations.AccumulatorLinesAreFilledAndWritten : Prop :=
  ∀ (s : State),
    (∀ line errs a u q, u = s.meet errs → u.accAt line = some a → a.filling = true →
      q = (u.bump O.acc_fills (hsLine line)).lineRead line ((a.pend.head?.map (fun p => (p.1.ctx, p.1.cva / 2 ^ 26))).getD (0, 0)).1
        ((a.pend.head?.map (fun p => (p.1.ctx, p.1.cva / 2 ^ 26))).getD (0, 0)).2 →
      ∀ z, z = (q.2.bump O.acc_poisoned (hsLine line) 0 (b2n (q.1.lo.reason != 0) + b2n (q.1.hi.reason != 0))).accApplyAll line
          { a with val := q.1.bytes, p0 := q.1.lo.reason, p1 := q.1.hi.reason, filling := false, pend := [] } a.pend →
        exec (.accFillArrives line errs) s = .next (z.2.setAcc line z.1)) ∧
    (∀ line a u, s.ov O.acc_idle_flush ≠ 0xFFFFFFFF → s.accAt line = some a → a.filling = false → a.dirty = true → u = s.bump O.acc_writebacks (hsLine line) →
      s.lostWrite (line * 128) = false → u.lostWrite (line * 128) = false →
      a.p0 = 0 → a.p1 = 0 → exec (.accIdleFlush line) s = .next (((u.setAcc line { a with dirty := false }).pageHint
        line true 0).lineHome line ⟨.data (slice 0 64 a.val), .data (slice 64 64 a.val)⟩)) ∧
    (∀ line, s.ov O.acc_idle_flush = 0xFFFFFFFF → exec (.accIdleFlush line) s = .next s) ∧
    (∀ handle v x, s.liveExt handle = some x → x.st = .moored → bits v 23 8 ≠ 255 →
      exec (.int8ScaleWrite handle v) s = .next (s.setOv O.int8_scale (v % 2 ^ 32) (handle % 65536)))

/-- R66-R69, R76, R77, R638. A bank that is not busy: the host's writes wake the node (R638) and are stored; COMMIT makes it busy with a commit of its
context at the end of the queue; READBACK and CLEAR answer at once. R68, R71-R73, R75, R78, R79, R537-R539. A commit's turn either rejects it by its
first failed check or readies its writes; its apply point writes them; an internal commit applies likewise and leaves a record, or vanishes where
nothing is left to write; an applied commit whose withdrawal has ended clears its bank with OK. -/
def Obligations.StagingBanksAndCommits : Prop :=
  (∀ (s : State) (pf b : Nat) (ws : List DwWrite) (u : State) (k : Stg), u = s.wake.stgWrites pf b ws → k = u.bank pf b → k.busy = false →
     (exec (.stgCommit pf b 1 ws) s = .next ({ u.setBank pf b { k with busy := true, cmd := 1 } with chart :=
       { (u.setBank pf b { k with busy := true, cmd := 1 }).chart with commits := (u.setBank pf b { k with busy := true, cmd := 1 }).chart.commits ++
         [⟨k.ctx, pf, b, none, [], [], 0, 0, 0, 0, false, 0⟩] } } : State)) ∧
     (exec (.stgReadback pf b ws) s = .next (u.readback pf b)) ∧
     (exec (.stgClear pf b ws) s = .next (u.setBank pf b { k with
       ctx := 0, count := 0, newGen := 0, digest := 0, slots := [], result := 0, slot := 0 }))) ∧
  (∀ (s : State) (c : Nat) (k : Commit), s.headCommit c = some k →
     (k.internal = none → k.ph = 0 →
       (∀ r i, s.commitFail k.port (s.bank k.port k.bank) = some (r, i) → exec (.commitTurn c) s = .next (s.rejectCommit k r i)) ∧
       (s.commitFail k.port (s.bank k.port k.bank) = none → (s.bank k.port k.bank).all.filter (s.remapping c) = [] →
         exec (.commitTurn c) s = .next (s.setCommits (updCommit c (fun _ => { k with
           ph := 1, writes := (s.bank k.port k.bank).all, remap := [] }) s.chart.commits)))) ∧
     (k.internal = none → k.ph = 1 ∨ (k.ph = 2 ∧ k.walk = 2 ^ 32 - 1) → s.openEpochs < 4 →
       exec (.applyPoint c) s = .next (((s.applyCommit k k.writes).bump O.commits_ok c).unparkStrips c)) ∧
     (∀ i ws u, k.internal = some i → (k.ph = 2 ∧ k.walk = 2 ^ 32 - 1) ∨ (k.ph < 2 ∧ (k.ph = 0 → s.internalWrites k ≠ []) ∧ ∀ x y z, i ≠ .publish x y z) → s.earlierWindow k = false → s.openEpochs < 4 → s.islandQueue < 8192 →
       ws = s.internalWrites k → u = (s.applyCommit k ws).bump O.commits_ok c →
       exec (.internalCommit c) s = .next (((u.noteNamer c i).queueRec (changedRec c (u.ov O.win_gen c) (ws.map (·.1)) i.aux)).unparkStrips c)) ∧
     (∀ i, k.internal = some i → k.ph = 0 → s.earlierWindow k = false → s.internalWrites k = [] →
       exec (.internalCommit c) s = .next ((s.setCommits (dropCommit c s.chart.commits)).unparkStrips c)) ∧
     (k.internal = none → k.ph = 3 → s.drained k = true → exec (.shootdownDrainDone c) s = .next
       ((if k.bumped then s.setOv O.shootdown_last (ticksUs (s.ltc - k.since) % 2 ^ 32) else s).endCommit k 0 0)))

/-- R48. A write of window geometry is applied exactly when the context is CONFIGURING, the window ends within the chart, overlaps no other window and
is not given zero entries; a rejected write changes nothing. -/
def Obligations.WindowGeometryIsChecked : Prop :=
  ∀ (s : State) (c which v b n : Nat), b = (if which = 0 then v else s.ov O.win_base c) → n = (if which = 0 then s.ov O.win_count c else v) →
    ((s.ctx c).st = .configuring → b + n ≤ 524288 → s.winOverlap c b n = false → (which = 0 ∨ v ≠ 0) →
      exec (.windowGeometryWrite c which v) s = .next (s.setOv (if which = 0 then O.win_base else O.win_count) v c)) ∧
    (((s.ctx c).st ≠ .configuring ∨ 524288 < b + n ∨ s.winOverlap c b n = true ∨ (which ≠ 0 ∧ v = 0)) →
      exec (.windowGeometryWrite c which v) s = .next s)

/-- R58-R60. A write of an agent's binding entry takes effect when it clears the entry, or names a context that is not FREE and that no other valid
entry of the agent names; else it is rejected and changes nothing. Where the entry named another context before, the agent is remembered to have lost
it now. After any write of a binding the agent's valid entries still name different contexts if they did before. -/
def Obligations.BindingsAreCheckedAndStayDistinct : Prop :=
  ∀ (s : State) (a i v c nv : Nat), a < 4096 → i < 8 → c = v % 1024 → nv = (if v.testBit 31 = true then 2 ^ 31 else 0) + v % 2 ^ 15 →
    (v.testBit 31 = true → (s.ctx c).st = .free ∨ (∃ j < 8, j ≠ i ∧ (s.binding a j).testBit 31 = true ∧ s.binding a j % 1024 = c) →
      exec (.bindingWrite a i v) s = .next s) ∧
    (v.testBit 31 = true → (s.ctx c).st ≠ .free → (∀ j < 8, j ≠ i → (s.binding a j).testBit 31 = true → s.binding a j % 1024 ≠ c) →
      ((s.binding a i).testBit 31 = false ∨ s.binding a i % 1024 = c → exec (.bindingWrite a i v) s = .next (s.setOv O.binding nv a i)) ∧
      ((s.binding a i).testBit 31 = true → s.binding a i % 1024 ≠ c → exec (.bindingWrite a i v) s =
        .next ((s.setOv O.binding nv a i).unbind a (s.binding a i % 1024)))) ∧
    (v.testBit 31 = false →
      ((s.binding a i).testBit 31 = false → exec (.bindingWrite a i v) s = .next (s.setOv O.binding nv a i)) ∧
      ((s.binding a i).testBit 31 = true → exec (.bindingWrite a i v) s =
        .next ((s.setOv O.binding nv a i).unbind a (s.binding a i % 1024)))) ∧
    (∀ t, s.objsOk → exec (.bindingWrite a i v) s = .next t →
      (∀ j < 8, ∀ k < 8, j ≠ k → (s.binding a j).testBit 31 = true → (s.binding a k).testBit 31 = true →
        s.binding a j % 1024 ≠ s.binding a k % 1024) →
      ∀ j < 8, ∀ k < 8, j ≠ k → (t.binding a j).testBit 31 = true → (t.binding a k).testBit 31 = true →
        t.binding a j % 1024 ≠ t.binding a k % 1024)

/-- R82-R93. The extent commands, written while no other runs: a MOOR of frames that are there, a REVOKE, a SHARE, an UNSHARE, a GRANT_REVOKE and a
GRANT_ISSUE of a MOORED extent; and the exchange by which a peer extent is looked up. -/
def Obligations.ExtentCommandsComplete : Prop :=
  ∀ (s : State), s.chart.extBusy = false →
    (∀ slot prim mir, 1 ≤ s.ov O.ext_count → s.ov O.ext_count ≤ 16384 → bits (s.ov O.ext_place) 1 3 = 0 → bits (s.ov O.ext_place) 6 1 = 0 →
      s.ov O.ext_mirror < 2 → s.canMoor (s.ov O.ext_ctx) = true → s.freeSlot = some slot → s.moorPlan = some (prim, mir) →
      exec .moor s = .next (s.moorAccept slot prim mir none)) ∧
    (∀ h c x, h = s.ov O.ext_handle → c = s.ov O.ext_ctx → s.liveExt h = some x → x.st = .moored →
      (exec .revoke s = .next (({ s with chart := { s.chart with extBusy := true } } : State).beginRevoke (h % 65536) { x with
        cmd := true, remoor := s.ob O.ext_remoor, target := c })) ∧
      (s.ov O.ext_cap < 32 → x.owner ≠ c → x.sharers.any (fun p => p.1 == c) = false → s.canMoor c = true → x.sharers.length < 8 →
        exec .share s = .next ((s.setExt (h % 65536) { x with sharers := x.sharers ++ [(c, s.ov O.ext_cap)] }).extDone 0)) ∧
      (x.sharers.any (fun p => p.1 == c) = true →
        exec .unshare s = .next (({ s with chart := { s.chart with extBusy := true } } : State).dropSharerOf (h % 65536) c true)) ∧
      (exec .grantRevoke s = .next ((s.setExt (h % 65536) { x with epoch := (x.epoch + 1) % 65536 }).extDone 0))) ∧
    (∀ x b, s.liveExt (s.ov O.grant_handle) = some x → x.st = .moored → s.ov O.node_number ≠ 0xFFF →
      b = grantBody (s.ov O.node_number) (s.ov O.grant_node) (s.ov O.grant_handle) (s.ov O.grant_rights) x.epoch →
      exec .grantIssue s = .next (s.setOct O.grant_out (natLe 16 (b * 2 ^ 64 + s.grantTag b)))) ∧
    (∀ port b, (∀ slot, s.honoured b.grant b.src b.handle 2 = some slot → exec (.probe port b) s =
        .next (s.blkAnswer port { b with bop := 6 } 7 0 [⟨fitTo 32 (natLe 4 (s.ext slot).frames.length), false⟩])) ∧
      (s.honoured b.grant b.src b.handle 2 = none → exec (.probe port b) s = .next (s.blkAnswer port { b with bop := 6 } 7 1 [⟨zeros 32, false⟩])) ∧
      exec (.probeAns port b) s = .next (s.probeAnswer b.xid b.status (leNat ((b.slots.headD ⟨zeros 32, false⟩).bytes.take 4))))

/-- R526-R535. Fault records: one that may be posted is written to its ring, and the request it belongs to completes FAULT and lets the requests
behind its page go; a refill adds a context's budget up to twice it; a waiting vector is raised; reposting goes over every entry with `fault_pend`.
R540-R545, R71, R82. The steps of a revocation: the last CLOSE makes the extent DRAINING, a freed counter starts the extent that waits, an empty or
timed-out drain begins the recall, closing the frames after a time-out and failing the requests held for them at a port, and the recall's end frees an
extent that is not to be moored again. -/
def Obligations.RevocationAndFaultRecords : Prop :=
  (∀ (s : State),
     (∀ c r g, s.postable c = some r → s.ringOf c = some g → r.req = none →
       exec (.faultRecordPost c) s = .next (({ s with frecs := s.frecs.erase r } : State).postRec r g)) ∧
     (∀ c r g i q u v ids, s.postable c = some r → s.ringOf c = some g → r.req = some i →
       u = ({ s with frecs := s.frecs.erase r } : State).postRec r g → u.req? i = some q → v = u.finish q .fault →
       ids = (v.reqs.filter (fun z => z.phase == .slotted && !z.slot && z.port == q.port && z.h.ctx == c
         && z.h.cva / 2 ^ 26 == q.h.cva / 2 ^ 26)).map (·.id) →
       exec (.faultRecordPost c) s = .next (({ v with reqs := v.reqs.map (fun z =>
         if ids.contains z.id then { z with phase := .fetching } else z) } : State).retranslate ids)) ∧
     (∀ c b, b = s.ov O.fault_budget c → exec (.faultBudgetRefill c) s =
       .next (s.setCtx c { s.ctx c with frTok := some (min b (tokens (s.ctx c).frTok b + b)) })) ∧
     (∀ r t, Tab.get (0, false) s.frMsi r = (t, true) → exec (.frCoalExpiry r) s =
       .next { s.emit (.msix (s.ov O.fr_port r) 0 r) with frMsi := Tab.put (0, false) s.frMsi r (s.ltc, false) }) ∧
     (∀ c, (s.ctx c).st ≠ .free → exec (.frRepost c) s = .next (s.repostAll c ((s.chart.ents.filter (fun p =>
       decide (s.ov O.win_base c ≤ p.1 ∧ p.1 < s.ov O.win_base c + s.ov O.win_count c) && p.2.faultPend)).map
         (fun p => (p.1 - s.ov O.win_base c, p.2)))))) ∧
  (∀ (s : State) (slot : Nat) (x : Ext), x = s.ext slot →
     (x.phase = 1 → s.closeEnded slot = true → x.closingFor = none →
       exec (.closeDone slot) s = .next (s.setExt slot { x with phase := 2, st := .draining })) ∧
     (s.countersUsed < 64 → s.closeWaiter = some slot →
       exec .drainCounterFree s = .next ((s.setExt slot { x with waitSince := 0 }).startClose slot)) ∧
     (x.phase = 2 → s.counted slot = false → exec (.revokeDrainDone slot) s = .next (s.startRecallPhase slot)) ∧
     (∀ t, x.phase = 2 → t = s.closeFrames x.closingFor (x.frames ++ x.mirrors) →
       exec (.drainTimeout slot) s = .next ((t.failClosed t.heldClosed).startRecallPhase slot)) ∧
     (x.phase = 3 → x.walk = 2 ^ 32 - 1 → s.counted slot = false → s.mwrs.any (fun m => m.slot == slot) = false →
       s.islandQueue + x.names.length ≤ 8192 → x.closingFor = none → x.remoor = false →
       exec (.recallDone slot) s = .next (((((s.freeFrames (x.frames ++ x.mirrors)).setExt slot
         { Ext.dflt with tag := (x.tag + 1) % 16, epoch := x.epoch }).postRevokes (x.handle slot) x.stragglers (if x.freed then 3 else 0)
         x.names).endExtCmd x.cmd 0).rekeyChecks.dropShares)))

/-- R256, R263, R267, R281. A tile that may compute its strip gathers its inputs, writes the outputs it need not hold, holds the others, and takes the
strip to its second stage with what the work found, for every kind of job; a strip with a page closed to its context fails its job with REVOKED. -/
def Obligations.TilesComputeTheirStrips : Prop :=
  ∀ (s u : State) (tile : Nat) (m : Met) (j : Job) (x : Strip), s.Strips tile j x → u = s.meet m.errs → ∀ c ∈ stripRows tile m, j.kind = c.2 →
    (∀ (g : Gather × State) (w : Work) (hold : List Nat), u.Computes j x → g = u.gatherCva j.ctx x.trs (cvaLines (u.stripReads j x)) →
      w = u.stripWork j x g.1 → hold = (if j.inplace then [] else u.heldStreams j) →
      exec c.1 s = .next ((g.2.writePieces 5 (w.pieces x (fun st => !hold.contains st))).updStrip j.id x.idx (fun y => { y with
        stage := 1, held := w.pieces x (fun st => hold.contains st), reds := w.reds, tally := some (w.tally (j.span x.idx).1) }))) ∧
    (∀ p ∈ x.trs, u.frameClosed p.2.frame j.ctx = true → exec c.1 s = .next ((u.failJob j.id 3).dropStrip j.id x.idx))

/-- R256, R268, R280. What the simple kinds compute from the bytes gathered: CHECKSUM the CRC-64 of its bytes and no output, COPY its source's bytes
as stored, poison with them, and FILL its argument converted to every element. -/
def Obligations.SimpleKindsComputeWhatTheySay : Prop :=
  ∀ (s : State) (j : Job) (x : Strip) (g : Gather),
    (j.kind = 6 → (s.stripWork j x g).outs = [] ∧ (s.stripWork j x g).reds = [] ∧
      (s.stripWork j x g).part = some (crc64 (gatherBytes g (j.cva 0 + (j.span x.idx).1) (j.span x.idx).2).1,
        (gatherBytes g (j.cva 0 + (j.span x.idx).1) (j.span x.idx).2).2)) ∧
    (j.kind = 5 → (s.stripWork j x g).outs.map (fun o => (o.1, o.2.runs)) =
      [(1, [(j.cva 1 + (j.span x.idx).1, (List.range (j.span x.idx).2).map (fun i => gatherGet g (j.cva 0 + (j.span x.idx).1 + i)))])]) ∧
    (j.kind = 4 → (s.stripWork j x g).outs = [(0, encodeStream (j.fmt 0) 0 (j.cva 0) (j.span x.idx).1
      (List.replicate (j.span x.idx).2 (elemDecode 0 j.arg, false)) j.round (fun a => gatherGet g a) (SrGen.seed j.seed x.idx))])

/-- R280. CHECKSUM combines the CRCs of its strips exactly: whatever the order in which the strips ended, the result of a job over unpoisoned strips
is the CRC-64 of their bytes joined. -/
def Obligations.ChecksumIsTheCrcOfTheWhole : Prop :=
  ∀ (j : Job) (ss : List Bytes), j.kind = 6 →
    j.parts.Perm (ss.zipIdx.map (fun p => (p.2, crc64 p.1, p.1.length, false))) → j.result = .of (crc64 ss.flatten)

/-- R279, R281-R284. A tile at a strip boundary replays a committed strip that lost its tile from the journal, else takes the strip that deficit round
robin picks; a computed journaled strip is committed to a record of its tile's journal, and one of a failed job leaves; a committed strip's outputs
are applied and its reductions sent; a reduction's completion ends it, one turned away is sent again, and one lost fails the job with REDUCE_LOST and
its target is poisoned. -/
def Obligations.StripsAreTakenCommittedAndApplied : Prop :=
  ∀ (s : State),
    (∀ tile ecc m u, tile < 64 → u = (s.ungate 1 tile).meet m.errs → u.onTile tile = none → u.tileReady tile = true →
      (∀ j x r, u.orphanStrip = some (j, x) → u.journalOf j.id x.idx = some r →
        exec (.stripStart tile ecc m) s = .next ((u.bump O.strips_replayed).updJob j.id (fun k => { k with
          rerun := true, reruns := k.reruns + 1, strips := k.strips.map (fun y => if y.idx = x.idx then
            { y with tile := tile, trs := r.trs, held := r.held, reds := r.reds, tally := r.tally } else y) }))) ∧
      (∀ j i c d k v w, u.orphanStrip = none → u.drrPick (Tab.get Drr.init u.jobs.drr tile) (u.liveCtxs.filterMap (fun c =>
          if (u.ov O.tile_quota c == 0xFFFF || decide (u.runningStrips c < u.ov O.tile_quota c)) ∧ (u.ctx c).st = .active then
            (u.jobWithStrip tile c).map (fun p => (c, u.stripCost p.1 p.2)) else none)) = (some c, d) → u.jobWithStrip tile c = some (j, i) →
        v = u.updJob j.id (fun k => if k.redo = [] then { k with next := k.next + 1 } else { k with redo := k.redo.drop 1 }) →
        k = d.settle (v.liveCtxs.any (fun a => v.ov O.svc_group a == d.group && (v.jobWithStrip tile a).isSome)) →
        w = ({ v with jobs := { v.jobs with drr := Tab.put Drr.init v.jobs.drr tile k } } : State) →
        exec (.stripStart tile ecc m) s = .next ((w.bump O.tile_strips 0 tile).enterStrip tile j i ecc none))) ∧
    (∀ tile j x, s.onTile tile = some (j, x) → j.inplace = false → x.stage = 1 →
      (∀ k r, j.fail = 0 → s.journalSpace (s.physOf 1 tile) = some k → r = ⟨j.id, x.idx, s.sec.journalKey, x.trs, x.held, x.reds, x.tally⟩ →
        exec (.stripCommit tile) s = .next (({ s with jobs := { s.jobs with journal := Tab.put none s.jobs.journal k (some r) } } : State).updStrip
          j.id x.idx (fun y => { y with stage := 2 }))) ∧
      (j.fail ≠ 0 → exec (.stripCommit tile) s = .next (s.leaveTile j x 0))) ∧
    (∀ tile m j x u, s.onTile tile = some (j, x) → (x.stage = 2 ∨ (j.inplace = true ∧ x.stage = 1)) → u = s.meet m.errs →
      (∀ p ∈ x.held, u.frameClosed (frameOf p.ppa) j.ctx = false) → u.clear [] (x.held.map (pieceWant x.trs j.ctx)) = true →
      exec (.stripApplyDone tile m) s = .next (x.reds.foldl (fun u r => u.sendRed j x r) ((u.writePieces 5 x.held).leaveTile j x 1))) ∧
    (∀ tag m c j r u, s.cmps.find? (fun c => c.port == innerPort && c.tag == tag) = some c →
      s.jobs.jobs.findSome? (fun j => (j.accs.find? (fun a => a.1 == tag)).map (fun a => (j, a.2))) = some (j, r) →
      u = (({ s with
        cmps := s.cmps.filter (fun x => !(x.port == innerPort && x.tag == tag)), reqs := s.reqs.filter (fun q => q.id != c.reqId) } : State).meet m.errs) →
      (c.status = .ok → exec (.reductionAccComplete tag m) s = .next (u.updJob j.id (fun k => { k with accs := k.accs.filter (fun a => a.1 != tag) }))) ∧
      (∀ q, c.status = .retry → s.req? c.reqId = some q → exec (.reductionAccComplete tag m) s = .next
        (({ u with reqs := u.reqs ++ [{ q with phase := .done, ser := false }] } : State).sendHome { q with phase := .done, ser := false })) ∧
      (∀ q, c.status = .accLost → s.req? c.reqId = some q → exec (.reductionAccComplete tag m) s = .next
        ((u.updJob j.id (fun k => { k with accs := k.accs.filter (fun a => a.1 != tag) })).failJob j.id 8 [r.spoil j.ctx q.gen])))

/-- R247-R250, R252, R253, R261. Doorbells and the enable of a queue, the fetch of a good descriptor that needs no constants, which starts its job,
and the time-out of a page that a queue or a strip waits for. R264, R272-R275, R286-R288. A PUBLISH that may run makes its commits and completes when
all have gone; a finished job's completion area is written where its page is mapped and open, it is counted and its vector raised; a recipe is loaded
into the lowest free number, and unloaded when no job uses it. -/
def Obligations.QueuesJobsAndRecipesComplete : Prop :=
  (∀ (s : State),
     (∀ port vf data keyed c u, u = s.wake → u.vfCtx port vf = some c → u.ideRefuses c keyed = false → (u.ctx c).st ≠ .quiescing →
       (u.ctx c).st ≠ .sweeping → exec (.jobDbell port vf data keyed) s = .next (u.doorbell c data).2) ∧
     (∀ qn u, u = ({ s with jobs := { s.jobs with qwait := Tab.put none s.jobs.qwait qn none } } : State) →
       exec (.jqEnableWrite qn 0) s = .next (((s.queueDrop qn).setOv O.jq_enable 0 qn).setOv O.jq_state 0 qn) ∧
       exec (.jqEnableWrite qn 1) s = .next ((u.setOv O.jq_enable 1 qn).setOv O.jq_state 1 qn)) ∧
     (∀ c q ecc m u qn cva e d v w j, q < 4 → u = s.meet m.errs → qn = 4 * c + q → u.pwr.entering = false → (u.ctx c).st = .active →
       u.ob O.jq_enable qn = true → u.ov O.jq_state qn = 1 → u.queueAsleep qn = false → u.ov O.jq_head qn ≠ u.ov O.jq_tail qn →
       u.queueJobs c q = [] → u.jobs.jobs.length < 1024 → cva = u.ov O.jq_base qn + 128 * (u.ov O.jq_head qn % u.ov O.jq_size qn) →
       cva / 2 ^ 26 < u.ov O.win_count c → u.dispRead ecc c cva 0 = (some (.ok e, d, false), v) → w = v.enterJob c q cva d 0 →
       w.jobs.jobs.getLast? = some j → (bit (fld j.desc 1 1) 2 = true ∨ j.kind = 8 → (w.queueJobs j.ctx j.queue).any (fun k => k.id != j.id) = false) →
       w.badDesc j = false → j.kind ≠ 1 → exec (.jobFetch c q ecc m) s = .next (w.beginJob j (zeros 128) 0)) ∧
     (∀ n x m, s.ov O.job_fault_timeout ≠ 0xFFFFFFFF → Tab.get none s.jobs.qwait n = some x →
       exec (.jobFaultTimeout 1 n m) s = .next ((s.queueDrop n).setOv O.jq_state 2 n)) ∧
     (∀ n m j x t, s.ov O.job_fault_timeout ≠ 0xFFFFFFFF → s.onTile n = some (j, x) → x.parked = some t →
       exec (.jobFaultTimeout 0 n m) s = .next ((s.meet m.errs).failJob j.id 2))) ∧
  (∀ (s : State),
     (∀ id j a b, s.job? id = some j → j.kind = 8 → j.begun = true → j.pub = 0 → j.fail = 0 → j.count ≠ 0 → a = bits j.arg 0 20 → b = bits j.arg 32 20 →
       a ≠ b → (∀ h ∈ [a, b], ∃ x, s.liveExt h = some x ∧ x.st = .moored ∧ x.owner = j.ctx ∧ x.frames.length = j.count) →
       (∀ m ∈ s.migs, (s.frame m.src).ext ≠ a % 65536 ∧ (s.frame m.src).ext ≠ b % 65536) →
       exec (.jobPublish id) s = .next ((s.setCommits (s.chart.commits ++ (s.rewriteWindows (s.namers a ++ s.namers b)).map (fun c =>
         (⟨c, 0, 0, some (.publish id (a % 65536) (b % 65536)), [], [], 0, 0, 0, 0, false, 0⟩ : Commit)))).updJob id (fun k => { k with pub := 1 }))) ∧
     (∀ id j, s.job? id = some j → j.pub = 1 → (∀ k ∈ s.chart.commits, ∀ a b, k.internal ≠ some (.publish id a b)) →
       exec (.publishComplete id) s = .next (s.updJob id (fun k => { k with pub := 2 }))) ∧
     (∀ id m j u e l v w, u = (s.meet m.errs).flushSpoil id → u.job? id = some j → j.finished = true → e = u.entry (u.ov O.win_base j.ctx + j.area / 2 ^ 26) →
       e.valid = true → e.typ = 0 → j.area / 2 ^ 26 < u.ov O.win_count j.ctx → u.frameClosed e.frame j.ctx = false →
       l = wantAt [(j.area / 2 ^ 26, e)] j.ctx j.area → u.clear [] [l] = true → v = u.innerWrite l.line 104 j.completion none →
       w = ((if j.status = 0 ∨ j.status = 5 then v.bump O.jobs_done else v.bump O.jobs_failed).bump O.tile_saturations 0 0 j.lastSats).setJobs
         (v.jobs.jobs.filter (fun k => k.id != j.id)) →
       exec (.jobComplete id m) s = .next (if j.notify then w.raiseWork j.ctx j.vector 0 else w)) ∧
     (∀ sess n u, imageOk (s.oct O.rcp_image) = true → s.canMoor (s.ov O.rcp_ctx) = true → s.loadedOf (s.ov O.rcp_ctx) < s.ov O.rcp_per_ctx →
       s.freeRecipe = some n → u = s.daymark (s.ov O.rcp_ctx) 2 (natLe 32 (Config.digest 1 0 (s.oct O.rcp_image))) →
       exec (.recipeLoad sess) s = .next ((({ u with jobs := { u.jobs with 
         rcps := Tab.put none u.jobs.rcps n (some ⟨s.ov O.rcp_ctx, s.oct O.rcp_image⟩) } } : State).setOv O.rcp_select n sess).setOv O.rcp_result 0)) ∧
     (∀ n r, (n = 0 ∨ 15 < n) → Tab.get none s.jobs.rcps n = some r →
       s.jobs.jobs.any (fun j => j.ctx == r.ctx && j.kind == 1 && j.recipe == n) = false →
       exec (.recipeUnload n) s = .next { s.setOv O.rcp_result 0 with jobs := { s.jobs with rcps := Tab.put none s.jobs.rcps n none } }))

/-- R296-R301, R309, R312. A tender ring: a good doorbell moves its tail, an enable is written, and the fetch of a descriptor that obeys its row
starts an operation and moves the head. R290, R300, R305, R308. A MIGRATE whose pages are translated and whose frames find destinations readies the
frames to move; a DRAIN that fits marks its pair; a chunk that has ended is counted; a finished operation leaves. -/
def Obligations.TenderOperationsRun : Prop :=
  (∀ (s : State) (ring : Nat),
     (∀ data u, u = s.wake → u.ob O.tr_enable ring = true →
       (u.ov O.tr_tail ring + 65536 - u.ov O.tr_head ring) % 65536 ≤ (data % 65536 + 65536 - u.ov O.tr_head ring) % 65536 →
       (data % 65536 + 65536 - u.ov O.tr_head ring) % 65536 ≤ u.ov O.tr_size ring →
       exec (.trDbell ring data) s = .next (u.setOv O.tr_tail (data % 65536) ring)) ∧
     (∀ v, ring < 2 → v < 2 → exec (.trEnableWrite ring v) s = .next (s.setOv O.tr_enable v ring)) ∧
     (∀ rd o act, ring < 2 → s.pwr.entering = false → s.ob O.tr_enable ring = true → s.ov O.tr_head ring ≠ s.ov O.tr_tail ring → rd.err = false →
       act = s.tends.ops.filter (fun o => o.ring == ring) → act.length < 16 → (bit (fld (fitTo 64 rd.data) 1 1) 1 = true → act = []) →
       o = ({ id := s.tends.nextOp, ring := ring, index := s.ov O.tr_head ring, desc := fitTo 64 rd.data,
               ctx := fld (fitTo 64 rd.data) 2 2 % 1024, next := 0, total := 0, redo := [], running := [], done := 0, fail := 0, poisoned := false,
               skipped := false, parked := none, asleep := none, remote := [], pages := [], started := false, key := 0 } : Tend) →
       tendForm o = true → (o.opc = 8 ∨ (s.ctx o.ctx).st = .active ∧ s.ov O.owner_port o.ctx = ring) → o.count ≠ 0 →
       exec (.tenderFetch ring rd) s = .next (({ s with tends := { s.tends with
         ops := s.tends.ops ++ [{ o with fail := s.startStatus o }], nextOp := o.id + 1 } } : State).setOv O.tr_head
           ((s.ov O.tr_head ring + 1) % 65536) ring))) ∧
  (∀ (s : State),
     (∀ id te ecc o trs u fs mv v, v = s.ungate 2 te → v.op? id = some o → o.opc = 2 → o.started = false → o.fail = 0 → o.count ≠ 0 → o.asleep = none →
       v.chunkPages o te ((List.range o.count).map (fun i => (o.src / 2 ^ 26 + i, 1))) ecc = (some trs, u) →
       fs = frameSet (trs.map (fun p => p.2.frame)) → mv = fs.filter (fun f => tierOf f != o.migPlace.2) →
       mv.any (fun f => (u.migOf f).isSome || (u.frame f).rcd.isSome) = false → u.movesFit o.migPlace.2 o.migPlace.1 mv [] = true →
       exec (.tenderMigrate id te ecc) s = .next (u.updOp id (fun y => { y with
         started := true, pages := mv, skipped := decide (mv.length < fs.length) }))) ∧
     (∀ id o u, s.op? id = some o → o.opc = 8 → o.started = false → o.fail = 0 → o.count ≠ 0 → s.startDrain (o.arg % 16) id false = (0, u) →
       exec (.drain id) s = .next (u.updOp id (fun y => { y with started := true }))) ∧
     (∀ te id chunk m o, s.op? id = some o → o.running.contains (chunk, te) = true → o.remote.any (fun r => r.chunk == chunk) = false →
       exec (.tenderChunkDone te id chunk m) s = .next ((s.updOp id (fun y => { y with
         running := y.running.filter (· != (chunk, te)), done := y.done + 1 })).bump O.te_chunks 0 te)) ∧
     (∀ id o u, s.op? id = some o → s.opFinished o = true → u = ((if o.opc = 7 ∧ o.fail = 0 ∧ o.count ≠ 0
       then s.daymark o.ctx 3 (slice 64 32 o.desc) else s).writeCompletion o).dropOp id →
       exec (.tenderComplete id) s = .next (if o.notify && (o.opc != 8 || (u.ctx o.ctx).st == .active) then u.raiseWork o.ctx o.vector 1 else u)))

/-- R290-R295, R302-R304, R309-R312, R317, R422. An engine whose round robin picks a chunk, with its pages translated and its lines free: COPY moves
the lines; PUT sends them and GET asks for them by the chunk's port, under a fresh exchange number; HOST_IN and HOST_OUT move them from and to the
host; UNWRAP checks its header, writes plaintext, and on a tag that does not fit writes its whole destination with zeros and ends with WRAP_BAD. -/
def Obligations.EnginesMoveChunks : Prop :=
  ∀ (s u : State) (te : Nat) (ecc : List (Nat × Nat × Nat)) (m : Met) (o : Tend) (k : Nat) (d : Drr) (rs : List (Nat × Nat × Nat)),
    u = (s.ungate 2 te).meet m.errs → rs = o.chunkRanges k →
    (∀ v trs a b, u.pickChunk te 1 = some (o, k, d) → u.chunkPages o te (needPages rs) ecc = (some trs, v) → a = chunkWants trs o.ctx rs 1 →
      b = chunkWants trs o.ctx rs 2 → v.LinesClear o.ctx a b →
      exec (.tenderCopy te ecc m) s = .next ((v.copyPairs o.id (a.zip b)).chunkTaken o k te d)) ∧
    (∀ v trs a w r x p, u.pickChunk te 3 = some (o, k, d) → u.chunkPages o te (needPages rs) ecc = (some trs, v) → a = chunkWants trs o.ctx rs 1 →
      v.shaperHas o.ctx = true → v.LinesClear o.ctx a [] → w = ((v.shaperTake o.ctx (0, o.id, k)).chunkTaken o k te d).openRemote o.id k →
      r = w.readLines a → x = r.2.1.foldl (fun (t : State) v => t.noteCopied o.id v) r.2.2 → x.blkPort k = some p →
      exec (.tenderPut te ecc m) s = .next (x.sendParts p (x.chunkHdr o k v.xid 1) (partsOf r.1))) ∧
    (∀ v trs w p, (s.ungate 2 te).pickChunk te 4 = some (o, k, d) → (s.ungate 2 te).chunkPages o te (needPages rs) ecc = (some trs, v) →
      w = (v.chunkTaken o k te d).openRemote o.id k → w.blkPort k = some p →
      exec (.tenderGet te ecc) s = .next (w.send p { chan := 3, hdr := blkPack (w.chunkHdr o k v.xid 2), slots := [] })) ∧
    (∀ rd x val, u.pickChunk te 5 = some (o, k, d) → u.liveExt o.handle = some x → x.st = .moored → rd.err = false →
      val = (fun i h => if rd.poison.getD (2 * i + h) false then .poison 8 else .data (slice (64 * h) 64 (if u.hostCipher o.ctx then
        hostLine 10 (u.ctx o.ctx).hostKey (o.src + k * 4096 + 128 * i) (slice (128 * i) 128 rd.data) else slice (128 * i) 128 rd.data))) →
      u.LinesClear o.ctx [] ((o.hostChunk x k).map ownWant) → exec (.hostIn te rd m) s =
        .next ((u.landLines o.id ((o.hostChunk x k).zip ((List.range 32).map (fun i => (⟨val i 0, val i 1⟩ : LineVal))))).chunkTaken o k te d)) ∧
    (∀ x, u.pickChunk te 6 = some (o, k, d) → u.liveExt o.handle = some x → x.st = .moored → u.LinesClear o.ctx ((o.hostChunk x k).map ownWant) [] →
      exec (.hostOut te false m) s = .next ((u.hostLines o (u.hostCipher o.ctx) (o.dst + k * 4096) (o.hostChunk x k)).chunkTaken o k te d)) ∧
    (u.pickChunk te 7 = some (o, k, d) → ∀ keyOk plain,
      (∀ v trs r tagOk, o.started = false → u.chunkPages o te (needPages (o.chunkRanges 0)) ecc = (some trs, v) →
        v.LinesClear o.ctx (chunkWants trs o.ctx (o.chunkRanges 0) 1) [] → r = v.readCva o.ctx trs [(o.src, 8192)] →
        exec (.unwrap te keyOk tagOk plain ecc m) s = .next (if r.2.1 = false ∧ v.wrapGood o keyOk r.1 = true then (r.2.2.charge te d).updOp o.id
          (fun y => { y with started := true, key := fld r.1 56 8, desc := y.desc ++ slice 72 32 r.1 }) else r.2.2.failOp o.id 0xA)) ∧
      (∀ v trs r ws all, o.started = true → u.chunkPages o te (needPages ((o.dst, o.key, 2) :: rs)) ecc = (some trs, v) →
        v.LinesClear o.ctx (chunkWants trs o.ctx rs 1) [] → ws = chunkWants trs o.ctx rs 2 → all = wantsOf trs o.ctx [(o.dst, o.key)] →
        r = v.readCva o.ctx trs ((rs.filter (fun x => x.2.2 == 1)).map (fun x => (x.1, x.2.1))) →
        (r.2.1 = false → r.2.2.LinesClear o.ctx [] ws →
          exec (.unwrap te keyOk true plain ecc m) s = .next ((r.2.2.landLines o.id (ws.zipIdx.map (fun p =>
            (p.1.line, (⟨.data (slice (128 * p.2) 64 plain), .data (slice (128 * p.2 + 64) 64 plain)⟩ : LineVal))))).chunkTaken o k te d)) ∧
        (r.2.2.LinesClear o.ctx [] all → exec (.unwrap te keyOk false plain ecc m) s = .next ((r.2.2.zeroLines (all.map (·.line))).failOp o.id 0xA))))

/-- R306, R307, R341-R343. Migrations: a record is taken for an operation's next page; a pass ends in another over the dirty chunks or in the write
hold; the final pass goes on over what was written meanwhile, then switches the extent's frame or mirror list and gives every window that names the
frame its commit; the end frees the source; placement follows the targets set. -/
def Obligations.MigrationRowsComplete : Prop :=
  ∀ (s : State),
    (∀ n o f d, s.op? n = some o → o.pages.find? s.canMove = some f → s.moveDest f o.migPlace.2 o.migPlace.1 [] = some d →
      exec (.migrationStart 0 n) s = .next ((s.beginMove f 0 n d).updOp n (fun y => { y with pages := y.pages.filter (· != f) }))) ∧
    (∀ f g ds, s.migOf f = some g → g.phase = 1 → g.todo = [] → ds = bitList g.dirty 16384 →
      (ds.length ≤ s.ov O.mig_final_chunks ∨ s.ov O.mig_passes ≤ g.passes + 1 →
        exec (.migrationPassEnd f) s = .next (s.updMig f (fun x => { x with passes := x.passes + 1, phase := 2, walk := 0 }))) ∧
      (s.ov O.mig_final_chunks < ds.length → g.passes + 1 < s.ov O.mig_passes →
        exec (.migrationPassEnd f) s = .next (s.updMig f (fun x => { x with passes := x.passes + 1, todo := ds })))) ∧
    (∀ f g m u r x v, s.migOf f = some g → g.phase = 3 → g.todo = [] → u = s.meet m.errs → r = u.frame g.src → x = u.ext r.ext →
      v = (u.setExt r.ext (if g.isMirror then { x with mirrors := x.mirrors.set r.pos g.dst } else { x with
        frames := x.frames.set r.pos g.dst, mirrors := (match g.mdst with | some d => x.mirrors.set r.pos d | none => x.mirrors) })) →
      (g.dirty ≠ 0 → exec (.migrationFinalPassEnd f m) s = .next (u.updMig f (fun x => { x with todo := bitList x.dirty 16384 }))) ∧
      (g.dirty = 0 → exec (.migrationFinalPassEnd f m) s = .next ((v.setCommits (v.chart.commits ++ (u.rewriteWindows (u.moveWindows g)).map (fun c =>
        (⟨c, 0, 0, some (.migration g.src), [], [], 0, 0, 0, 0, false, 0⟩ : Commit)))).updMig g.src (fun y => { y with phase := 4, todo := [] })))) ∧
    (∀ f g u, s.migOf f = some g → g.phase = 4 → s.chart.commits.any (fun k => k.internal == some (.migration f)) = false → g.kind = 0 → g.mdst = none →
      (s.frame f).target = 0 → u = (({ s with migs := s.migs.filter (fun m => m.src != f) } : State).freeFrame f).bump O.migrations_done →
      exec (.migrationDone f) s = .next (u.mirrorFields g.dst).rekeyChecks) ∧
    (s.ob O.place_enable = true → (s.migs.filter (fun g => g.kind == 1)).length < s.ov O.place_max →
      exec .placementMigrationStart s = .next (s.placeFirst s.placeable)) ∧
    (s.ov O.place_ctx < 1024 → s.ov O.place_vpn + s.ov O.place_count ≤ s.ov O.win_count (s.ov O.place_ctx) → (s.ctx (s.ov O.place_ctx)).st = .active →
      exec .place s = .next ((s.placePages (s.ov O.place_ctx) (s.ov O.place_target) (s.ov O.place_vpn) (s.ov O.place_count)).setOv O.place_result 0)) ∧
    (∀ v, exec (.placeEnableWrite v) s = .next (s.setOv O.place_enable v))

/-- R91, R312-R316, R422. What the node does with BLK messages of other nodes: each part of a PUT is kept until the last, with the first refusal of
its grant or range, and the whole is then answered with that refusal or waits for an engine; a GET waits for an engine or is refused; an engine writes
a PUT and answers it, and reads a GET's data and charges it to the owner's shaper; a mirror write is written and answered; an ANS or the last part of
a GET_DATA ends its exchange. R312, R316. An unanswered GET chunk is asked for again; an operation whose exchange times out ends with
NODE_UNREACHABLE, and a mirror whose write does is degraded; a degraded mirror begins its resync. -/
def Obligations.BlkExchangesComplete : Prop :=
  (∀ (s u : State) (port : Nat) (b : Blk) (m : Met) (slot : Nat), u = s.meet m.errs →
     (∀ old parts bad x c, c = { b with bop := 1 } → old = u.tends.served.find? (fun x => x.b.src == b.src && x.b.xid == b.xid && x.b.bop == 1 && !x.ready) →
       parts = ((old.map (·.parts)).getD []).filter (fun p => p.1 != b.part) ++ [(b.part, b.slots)] →
       bad = (if (old.map (·.bad)).getD 0 = 0 then (u.blkCheck c 1).1 else (old.map (·.bad)).getD 0) → x = ⟨{ c with slots := [] }, port, parts, bad, false⟩ →
       (parts.length < ceilDiv b.lines 2 → exec (.blkPut port b m) s = .next (u.keepServed x)) ∧
       (ceilDiv b.lines 2 ≤ parts.length → bad ≠ 0 → exec (.blkPut port b m) s = .next ((u.dropServed x).blkAnswer port c 5 bad [])) ∧
       (ceilDiv b.lines 2 ≤ parts.length → bad = 0 → exec (.blkPut port b m) s = .next (u.keepServed { x with ready := true }))) ∧
     (∀ c, c = { b with bop := 2 } →
       ((u.blkCheck c 0).1 = 0 → exec (.blkGet port b m) s = .next (u.keepServed ⟨{ c with slots := [] }, port, [], 0, true⟩)) ∧
       ((u.blkCheck c 0).1 ≠ 0 → exec (.blkGet port b m) s = .next (u.blkAnswer port c 5 (u.blkCheck c 0).1 []))) ∧
     (∀ te id k c d x ls v w, s.op? id = none → v = u.serveMwrs → v.pickCtx te = some (c, d) → v.resyncers.find? (fun r => (v.ext r.slot).owner == c) = none →
       v.servers.find? (fun x => (v.ext (x.b.handle % 65536)).owner == c) = some x → ls = v.servedLines slot x.b →
       (x.b.bop = 1 → v.blkCheck x.b 1 = (0, slot) → v.clear [] ls = true →
         w = ((v.dropServed x).landLines 0 ((ls.map (·.line)).zip (partVals x.parts x.b.lines))).blkAnswer x.port x.b 5 0 [] →
         exec (.tenderChunkDone te id k m) s = .next ((w.charge te d).bump O.te_chunks 0 te)) ∧
       (∀ r, x.b.bop = 2 → v.blkCheck x.b 0 = (0, slot) → v.shaperHas (v.ext slot).owner = true → v.clear ls [] = true →
         r = ((v.dropServed x).shaperTake (v.ext slot).owner (1, x.b.src, x.b.xid)).readLines ls →
         w = r.2.2.sendParts x.port (answer r.2.2 x.b 3 0 []) (partsOf r.1) →
         exec (.tenderChunkDone te id k m) s = .next ((w.charge te d).bump O.te_chunks 0 te))) ∧
     (∀ c l x, c = { b with bop := 4, slots := [] } → u.blkCheck c 2 = (0, slot) → l = u.extLine slot b.off → u.clear [] [ownWant l] = true →
       x = ⟨c, port, [(0, b.slots)], 0, true⟩ →
       exec (.blkMwr port b m) s = .next (((u.dropServed x).landLines 0 [(l, blkVal ((b.slots ++ []).take 4))]).blkAnswer port c 5 0 [])) ∧
     (∀ o r, s.exchange b.xid = some (o, r) → exec (.blkAns port b) s =
       .next (if b.status = 0 then s.dropRemote o.id r.xid else s.failOp o.id 7)) ∧
     (∀ w, s.exchange b.xid = none → s.mwrs.find? (fun w => w.xid == b.xid) = some w → exec (.blkAns port b) s =
       .next (if b.status = 0 then ({ s with mwrs := s.mwrs.filter (fun y => y.xid != b.xid) } : State).resyncEnd w.slot else s.degrade w.slot)) ∧
     (∀ o r parts rs n v, u.exchange b.xid = some (o, r) → parts = r.parts.filter (fun p => p.1 != b.part) ++ [(b.part, b.slots)] → o.asleep = none →
       rs = o.chunkRanges r.chunk → n = (chunkSpan o.lead o.count r.chunk).2 / 128 →
       v = u.updOp o.id (fun y => { y with remote := y.remote.map (fun q => if q.xid = r.xid then { q with parts := parts } else q) }) →
       (parts.length < ceilDiv n 2 → exec (.blkGetData port b m) s = .next v) ∧
       (∀ te trs w ws, ceilDiv n 2 ≤ parts.length → te = ((o.running.find? (fun x => x.1 == r.chunk)).map (·.2)).getD 0 →
         v.chunkPages o te (needPages rs) [] = (some trs, w) → ws = chunkWants trs o.ctx rs 2 → w.LinesClear o.ctx [] ws →
         exec (.blkGetData port b m) s = .next ((w.landLines o.id ((ws.map (·.line)).zip (partVals parts n))).dropRemote o.id r.xid)))) ∧
  (∀ (s : State),
     (∀ xid m o r p u, (s.meet m.errs).exchange xid = some (o, r) → o.asleep = none → o.opc = 4 →
       u = (s.meet m.errs).updOp o.id (fun y => { y with remote := y.remote.map (fun q => if q.xid = xid then { q with last := (s.meet m.errs).ltc } else q) }) →
       u.blkPort r.chunk = some p →
       exec (.remoteChunkResend xid m) s = .next (u.send p { chan := 3, hdr := blkPack (u.chunkHdr o r.chunk xid 2), slots := [] })) ∧
     (∀ xid o r, s.exchange xid = some (o, r) → exec (.remoteTimeout xid) s = .next (s.failOp o.id 8)) ∧
     (∀ xid w, s.exchange xid = none → s.mwrs.find? (fun w => w.xid == xid) = some w → exec (.remoteTimeout xid) s = .next (s.degrade w.slot)) ∧
     (∀ h x p, s.liveExt h = some x → x.peer = some p → p.state = 2 → s.ov O.node_number ≠ 0xFFF →
       exec (.pmResync h) s = .next { s.setExt (h % 65536) { x with peer := some { p with state := 3 } } with
         tends := { s.tends with resyncs := s.tends.resyncs ++ [⟨h % 65536, 0⟩] } }))

/-- R293-R295, R319-R331. A pending frame takes a free sweep record; an engine whose round robin serves the frame's owner does the sweep's next chunk
and is charged for it: a rekey reads it under the old slot and stores it under the new, a scrub zero-fills it where its bit is clear, and the
watermark passes it; a frame whose sweep has ended gives its record up and, when rekeyed, changes its slot; a unit that acknowledges a shootdown no
longer holds the commits it has no older work under, and one that does not is fenced. R375, R378, R390, R395-R399. A corrected code word is written
back unless its line was written since; the rate buckets roll; a merge entry is written at its hold; a scrub is refused, empty, or runs line by line
over what is populated, waiting under Foghorn, until its end or a CANCEL. What a refused or idle scrub leaves is the model's reading (log 41). -/
def Obligations.SweepsAndScrubs : Prop :=
  (∀ (s : State),
     (∀ f u, s.sweepQueue.head? = some f → s.takeRecord f = some u → exec .sweepRecordTake s =
       .next (u.settleExempt ((u.coh.merge.filter (fun p => p.2.exempt && frameOf (p.1 * 128) == f)).map (·.1)))) ∧
     (∀ te i m w u k d, u = (s.ungate 2 te).meet m.errs → u.sweepers.find? (fun p => p.1 == i) = some (k, w) → u.pickCtx te = some (w.ctx, d) →
       u.slcServes (hsLine (w.frame * 2 ^ 19 + w.mark)) = true →
       exec (.sweepChunk te i m) s = .next (((u.sweepStep i w).charge te d).bump O.te_chunks 0 te)) ∧
     (∀ i w ppa ls, ppa = w.frame * 2 ^ 26 + w.mark * 128 → ls = frameLines w.frame (w.mark / 32) →
       (w.rekey = true → ∀ q, q = s.readCws ((List.range 64).map (fun k => ppa / 64 + k)) →
         s.sweepStep i w = ls.foldl (fun t l => t.peerLine l 0) ((q.2.passChunk i w).storeCws q.1)) ∧
       (w.rekey = false → s.sweepStep i w = ((if s.scrubbing ppa = true then s.zeroChunk ppa else s).settleExempt ls).passChunk i w)) ∧
     (∀ i k w u, s.chart.sweeps.find? (fun p => p.1 == i) = some (k, w) → 524288 ≤ w.mark →
       u = ({ s with chart := { s.chart with sweeps := Tab.del i s.chart.sweeps } } : State) →
       (w.rekey = true → exec (.sweepFrameDone i) s = .next ((u.setFrame w.frame { s.frame w.frame with
         rcd := none, rekey := false, slot := 1 - (s.frame w.frame).slot }).rekeyCheck w.ctx)) ∧
       (w.rekey = false → exec (.sweepFrameDone i) s = .next (u.setFrame w.frame { s.frame w.frame with
         rcd := none, scrub := false, chunks := 0, touched := false }))) ∧
     (∀ n, exec (.engineShootdownAck n) s = .next (s.setCommits (s.chart.commits.map (fun k =>
       if k.ph = 3 ∧ (!s.staleWork k.ctx n) = true then { k with acks := clrBit k.acks n } else k)))) ∧
     (∀ n < 80, ∀ m, s.chart.commits.any (fun k => k.acks.testBit n) = true → s.physOf (if n < 64 then 1 else 2) (if n < 64 then n else n - 64) ≠ 255 →
       exec (.teAckTimeout n m) s = .next ((s.unitFence (if n < 64 then 1 else 2) (s.physOf (if n < 64 then 1 else 2)
         (if n < 64 then n else n - 64)) m 4).shootdownAck n))) ∧
  (∀ (s : State),
     (∀ cw, s.ces.contains cw = true → Tab.get 0 s.dramBad cw < 256 → exec (.ceWriteback cw) s =
       .next { s with ces := s.ces.filter (· != cw), dramBad := Tab.put 0 s.dramBad cw 0 }) ∧
     exec .ueBucketRoll s = .next { s with rates := s.rates.map (fun p => (p.1, (0 :: p.2).take (ceilDiv (s.ov O.ue_window) 1000))) } ∧
     (∀ line errs e u, u = s.meet errs → u.mergeAt line = some e → e.exempt = false → exec (.mergeHoldExpiry line errs) s =
       .next ((((u.setMerge line { e with mask := 0 }).pageHint line true 0).rmwHalf line 0 e).rmwHalf line 1 e)) ∧
     (s.scrub.running = true → exec .scrubStart s = .next s ∧
       exec .scrubCancel s = .next { s.setOv O.scrub_state 0 with scrub := { s.scrub with running := false, cancelled := true } }) ∧
     (s.scrub.running = false → (s.ov O.scrub_base % 4096 ≠ 0 ∨ s.ov O.scrub_len % 4096 ≠ 0 ∨ 200704 * 2 ^ 26 < s.ov O.scrub_base + s.ov O.scrub_len) →
       exec .scrubStart s = .next { s with scrub := { Scrub.start (s.ov O.scrub_base) (s.ov O.scrub_len) with status := 1, running := false } }) ∧
     (s.scrub.running = false → s.ov O.scrub_base % 4096 = 0 → s.ov O.scrub_len % 4096 = 0 → s.ov O.scrub_base + s.ov O.scrub_len ≤ 200704 * 2 ^ 26 →
       (s.ov O.scrub_len ≠ 0 → exec .scrubStart s = .next { s.setOv O.scrub_state 1 with scrub := Scrub.start (s.ov O.scrub_base) (s.ov O.scrub_len) }) ∧
       (s.ov O.scrub_len = 0 → exec .scrubStart s = .next { s with
         scrub := { Scrub.start (s.ov O.scrub_base) (s.ov O.scrub_len) with empty := true, running := false } })) ∧
     (∀ m p, p = s.scrub.pos → s.scrub.running = true →
       (s.populated (frameOf p) = false ∨ s.withdrawn (frameOf p) = true ∨ s.lost p = true → exec (.scrubLine m) s =
         .next (State.scrubEnd { s with scrub := { s.scrub with skipped := s.scrub.skipped + 1, pos := p + 128 } })) ∧
       (s.populated (frameOf p) = true → s.withdrawn (frameOf p) = false → s.lost p = false →
         (s.ob O.fog_state 0 (sectorOf (frameOf p)) = true → exec (.scrubLine m) s = .next (s.setOv O.scrub_state 2)) ∧
         (s.ob O.fog_state 0 (sectorOf (frameOf p)) = false → s.slcServes (hsOf p) = true → ∀ a b,
           a = (((s.meet m.errs).setOv O.scrub_state 1).flushMerge (p / 128)).scrubCw (p / 64) → b = a.2.scrubCw (p / 64 + 1) →
           exec (.scrubLine m) s = .next (State.scrubEnd { b.2 with scrub := b.2.scrub.enter p a.1 b.1 })))))

/-- R344, R345, R348, R355. A line request enters the queue of its kind while that queue has a free slot, with the page hint its line's access takes,
and wakes its rank; a channel whose queues have been empty for 2 µs retrains before it. A read that meets a write of its line in W is served from W
and enters no queue. R346-R348, R350. A channel controller serves W while it drains and when the read queues are empty; otherwise the group whose turn
the deficit round robin finds, from L, then N, then B. A row AUTO left open closes when no queued request targets it. R351, R352, R354, R355. A lit
channel's bank postpones its refresh while requests to it are queued or Foghorn is up, and the debt never passes the limit, where the bank is
refreshed at once. A channel retrains when idle, else in a window of 2 µs of empty queues, or is made to and counted; an idle rank powers down unless
`pd_idle` is 0. -/
def Obligations.ChannelsServeTheirQueues : Prop :=
  (∀ (s : State) (line cls ctx c : Nat) (x : Chan), c = s.chanFor line → x = s.chan c → s.lost (line * 128) = false →
     (∀ d, c ≠ d → exec (.dramQueueEnter line cls ctx d) s = .next s) ∧
     (cls < 3 → x.w.any (fun y => y.line == line) = true → exec (.dramQueueEnter line cls ctx c) s = .next (s.pageHint line false 0)) ∧
     (∀ h y, h = (if cls = 2 then 1 else Tab.get 0 s.dram.hints (2 * line + b2n (decide (3 ≤ cls)))) →
       (3 ≤ cls ∨ x.w.any (fun y => y.line == line) = false) → x.take (s.queueFor cls ctx) ⟨line, ctx, h, x.seq⟩ = some y →
       exec (.dramQueueEnter line cls ctx c) s = .next (((s.setChan c { y with
         seq := x.seq + 1, down := clrBit x.down (rankOf line),
         due := x.due && !(x.all.isEmpty && decide (x.emptyAt + usTicks 2 ≤ s.ltc)) }).pageHint line (decide (3 ≤ cls)) 0).foghorn (chanSector c)))) ∧
  (∀ (s : State) (c : Nat) (x : Chan), x = s.chan c →
     (∀ r d, d = (x.drain || decide (s.ov O.wq_high ≤ x.w.length)) → d = true ∨ x.l = [] ∧ x.n = [] ∧ x.b = [] → s.frFcfs c { x with drain := d } x.w = some r →
       exec (.channelServe c) s = .next (s.access c { x with w := dropDreq r x.w, drain := d && decide (s.ov O.wq_low < (dropDreq r x.w).length) } r)) ∧
     (x.drain = false → x.w.length < s.ov O.wq_high → ¬(x.l = [] ∧ x.n = [] ∧ x.b = []) → ∀ gs k d y, s.readGroups c x = (false, gs) →
       drrTurn (fun g => s.ov O.sg_quantum g) (fun g => if gs.contains g then some 128 else none) 192 x.drr.group (!x.drr.entered) x.drr.deficit = some (k, d) →
       y = { x with drr := Drr.settle ⟨k, true, d, x.drr.turn⟩ (decide (1 < (s.groupOf k x.l ++ s.groupOf k x.n ++ s.groupOf k x.b).length)) } →
       (∀ r, s.frFcfs c y (s.groupOf k x.l) = some r → exec (.channelServe c) s = .next (s.access c { y with l := dropDreq r x.l } r)) ∧
       (∀ r, s.frFcfs c y (s.groupOf k x.l) = none → s.frFcfs c y (s.groupOf k x.n) = some r →
         exec (.channelServe c) s = .next (s.access c { y with n := dropDreq r x.n } r)) ∧
       (∀ r, s.frFcfs c y (s.groupOf k x.l) = none → s.frFcfs c y (s.groupOf k x.n) = none → s.frFcfs c y (s.groupOf k x.b) = some r →
         exec (.channelServe c) s = .next (s.access c { y with b := dropDreq r x.b } r))) ∧
     (∀ b, x.autos.testBit b = true → x.all.any (fun r => bankOf r.line == b && x.openRow r.line) = false →
       exec (.rowAutoClose c b) s = .next (s.setChan c { x with rows := Tab.put 0 x.rows b 0, autos := clrBit x.autos b }))) ∧
  (∀ (s : State) (c b : Nat) (x : Chan), x = s.chan c →
     (s.chanLit c = true → (x.wants b || s.ob O.fog_state 0 (chanSector c)) = true →
       exec (.refreshDue c b) s = .next (if Tab.get 0 x.debt b < debtLimit c then s.setChan c { x with debt := Tab.put 0 x.debt b (Tab.get 0 x.debt b + 1) }
         else s.refreshNow c b (Tab.get 0 x.debt b))) ∧
     (s.chanLit c = true → (x.wants b || s.ob O.fog_state 0 (chanSector c)) = false →
       exec (.refreshDue c b) s = .next (s.setChan c { x with rows := Tab.put 0 x.rows b 0, autos := clrBit x.autos b, debt := Tab.put 0 x.debt b 0 })) ∧
     (c < 24 → Tab.get 0 x.debt b ≠ 0 → debtLimit c ≤ Tab.get 0 x.debt b → exec (.refreshDebtLimit c b) s = .next ((s.setChan c
       { x with rows := Tab.put 0 x.rows b 0, autos := clrBit x.autos b, debt := Tab.put 0 x.debt b (Tab.get 0 x.debt b - 1) }).bump O.dc_refresh_forced 0 c)) ∧
     (s.chanLit c = true → exec (.retrainPeriod c) s = .next (s.setChan c { x with due := x.all != [] })) ∧
     (x.due = true → (x.all = [] ∧ x.emptyAt + usTicks 2 ≤ s.ltc → exec (.retrainForce c) s = .next (s.setChan c { x with due := false })) ∧
       (x.all ≠ [] ∨ s.ltc < x.emptyAt + usTicks 2 →
         exec (.retrainForce c) s = .next (if c < 24 then (s.setChan c { x with due := false }).bump O.dc_retrain_forced 0 c
           else (s.setChan c { x with due := false }).bump O.hbch_retrain_forced ((c - 24) / 32) ((c - 24) % 32)))) ∧
     (∀ r, s.chanLit c = true → s.ov O.pd_idle ≠ 0 → x.all.any (fun y => rankOf y.line == r) = false →
       exec (.rankPowerDown c r) s = .next (s.setChan c { x with down := setBit x.down r })) ∧
     (s.ov O.pd_idle = 0 → exec (.rankPowerDown c b) s = .next s))

/-- R353, R359, R366-R369. Replacing a DIMM: a pair that holds no extent frame goes dark, its DIMMs lose and gain power, settle, pass or fail the SPD
check, and both channels are trained before the pair is LIT; a channel that fails training makes its pair dark, and too many parity alerts in a row
and a DIMM pulled out make a LIT pair dark. -/
def Obligations.DimmsAreReplaced : Prop :=
  ∀ (s : State) (m k : Nat), m < 12 → k < 2 →
    (s.pairHolds m = true ∨ s.pairSt m = 2 → exec (.offline m) s = .next (s.setOv O.dcp_result 1 m)) ∧
    (s.pairHolds m = false → s.pairSt m ≠ 2 → s.pairLit m = true → exec (.offline m) s = .next ((s.pairDark m 1).setOv O.dcp_result 0 m)) ∧
    (s.pairSt m = 2 → s.pairHolds m = false →
      ∀ u, u = (s.setOv O.dimm_pwr (clrBit (s.ov O.dimm_pwr m) k) m).setOv O.dcp_result 0 m →
      exec (.pwrOff m k) s = .next { u with dram := { u.dram with settling := flipMask u.dram.settling m k false } }) ∧
    (s.pairSt m ≠ 2 → exec (.pwrOff m k) s = .next (s.setOv O.dcp_result 1 m) ∧ exec (.pwrOn m k) s = .next (s.setOv O.dcp_result 1 m)) ∧
    (s.pairSt m = 2 → (s.ov O.dimm_present m).testBit k = true → exec (.pwrOn m k) s =
      .next { s.setOv O.dimm_pwr (setBit (s.ov O.dimm_pwr m) k) m with dram := { s.dram with settling := flipMask s.dram.settling m k true } }) ∧
    (∀ form mts cap ranks serial u, (Tab.get 0 s.dram.settling m).testBit k = true →
      u = ({ s with dram := { s.dram with settling := flipMask s.dram.settling m k false,
                                          spdBad := flipMask s.dram.spdBad m k !spdOk form mts cap } } : State).setOct
        O.dimm_info (dimmInfo cap ranks mts serial) m k →
      exec (.dimmSettleExpiry m k form mts cap ranks serial) s = .next (if spdOk form mts cap = true then u.setOv O.dcp_result 0 m
        else (u.setOv O.dcp_cause 6 m).setOv O.dcp_result 3 m)) ∧
    (s.pairSt m = 2 → s.ov O.dimm_present m % 4 = 3 → s.ov O.dimm_pwr m % 4 = 3 → Tab.get 0 s.dram.settling m = 0 → Tab.get 0 s.dram.spdBad m = 0 →
      ∀ u, u = s.setUnitSt O.dcp_state 3 m → exec (.online m) s = .next { u with dram := { u.dram with trained := Tab.put 0 u.dram.trained m 0 } }) ∧
    (∀ t u, s.pairSt m = 3 → t = setBit (Tab.get 0 s.dram.trained m) k → u = ({ s with dram := { s.dram with trained := Tab.put 0 s.dram.trained m t } } : State) →
      exec (.channelTrainingDone (2 * m + k) true) s = .next (if t = 3 then
        (((u.setUnitSt O.dcp_state 0 m).setOv O.dcp_cause 0 m).setOv O.dcp_frames (min 16384 (u.pairFramesFor m)) m).setOv O.dcp_result 0 m else u)) ∧
    (s.pairSt m ≠ 2 → s.pairLit m = true → exec (.channelTrainingDone (2 * m + k) false) s = .next (s.pairDark m 2)) ∧
    (s.pairSt m = 3 → s.pairLit m = false → exec (.channelTrainingDone (2 * m + k) false) s =
      .next ((((s.setUnitSt O.dcp_state 2 m).setOv O.dcp_cause 2 m).event 0x41 0 m noCtx 0).setOv O.dcp_result 2 m)) ∧
    (∀ x u, x = s.chan (2 * m + k) → u = (s.setChan (2 * m + k) { x with parity := x.parity + 1 }).bump O.dc_ca_parity 0 (2 * m + k) →
      exec (.caParityAlert (2 * m + k)) s = .next (if s.ov O.ca_retry_limit < x.parity + 1 then u.pairDark m 4 else u)) ∧
    (∀ u, u = s.setOv O.dimm_present (clrBit (s.ov O.dimm_present m) k) m → u.pairLit m = true →
      exec (.dimmPresentChange (2 * m + k) false) s = .next ((u.setOv O.dimm_pwr (clrBit (u.ov O.dimm_pwr m) k) m).pairDark m 3)) ∧
    (s.pairLit m = false → exec (.dimmPresentChange (2 * m + k) true) s = .next (s.setOv O.dimm_present (setBit (s.ov O.dimm_present m) k) m))

/-- R361-R365. The first fenced channel of a stack starts its re-layout, a second takes the stack out; the sector's journal records are lost. A fence
that would take it out needs its confirmation, which it uses up, and a DARK channel refuses one. A frame of the fenced channel's range is moved off;
the kept frames are re-established in rank order, and after 992 the stack runs with 990 frames. -/
def Obligations.HbmChannelsAreFencedAndRelaid : Prop :=
  ∀ (s : State) (n k : Nat), n < 4 → k < 32 →
    (s.ov O.hbch_state n k = 2 ∨ s.ov O.hbm_fenced_ch n ≠ 255 ∧ s.ob O.hbch_confirm = false →
      exec (.hbchFence n k) s = .next (s.setOv O.hbch_confirm 0)) ∧
    (s.ov O.hbch_state n k ≠ 2 → s.ov O.hbm_fenced_ch n = 255 ∨ s.ob O.hbch_confirm = true → exec (.hbchFence n k) s = .next ((s.setOv O.hbch_confirm 0).fenceHbm n k)) ∧
    (∀ v u, s.ov O.hbch_state n k ≠ 2 → v = ((s.setUnitSt O.hbch_state 2 n k).event 0x41 0 n noCtx 0).dropChan (24 + 32 * n + k) →
      u = ({ v with jobs := { v.jobs with journal := v.jobs.journal.filter (fun p => p.1 / 34 != n) } } : State) →
      exec (.hbmChannelFenced n k) s = .next (if s.ov O.hbm_fenced_ch n ≠ 255 then ((u.setOv O.hbm_state 5 n).setOv O.hbm_frames 0 n).abandonGone
        else ((u.setOv O.hbm_fenced_ch k n).setOv O.hbm_state (if u.rangeFrames n = [] then 3 else 1) n).setOv O.hbm_relaid 0 n)) ∧
    (∀ f e, s.ov O.hbm_state n = 1 ∨ s.ov O.hbm_state n = 2 → (s.rangeFrames n).find? (fun f => s.canMove f && !s.claimed f) = some f →
      s.moveDest f 0 (allSecs.filter (· != n)) [] = some e → exec (.relayoutFrameFreed n) s = .next ((s.setOv O.hbm_state 1 n).beginMove f 3 n e)) ∧
    (s.ov O.hbm_state n = 1 ∨ s.ov O.hbm_state n = 2 → s.rangeFrames n = [] → exec (.relayoutFrameFreed n) s = .next (s.setOv O.hbm_state 3 n)) ∧
    (∀ u, s.ov O.hbm_state n = 3 → s.ov O.hbm_relaid n < 992 → u = (s.setOv O.hbm_relaid (s.ov O.hbm_relaid n + 1) n).reestablish
        (channelCws (1024 * n + rankFrame (s.ov O.hbm_relaid n)) (s.ov O.hbm_fenced_ch n)) →
      exec (.relayoutFrameDone n) s = .next (if s.ov O.hbm_relaid n + 1 = 992 then (u.setOv O.hbm_state 4 n).setOv O.hbm_frames 990 n else u))

/-- R403. ACTIVATE of a configured context ends with NO_WINDOW when its `win_count` is zero, else with NO_KEY when its active key slot holds no key,
and otherwise becomes ACTIVE with the result OK, its Daymark extended and STATE raised; of any other context it ends with BAD_STATE, and while another
command of the context runs with BUSY, changing nothing else. -/
def Obligations.ActivateNeedsWindowAndKey : Prop :=
  ∀ (s : State) (c : Nat), c < 1024 →
    ((s.ctx c).cmd ≠ 0 → exec (.ctxActivate c) s = .next (s.setOv O.ctx_result 4 c)) ∧
    ((s.ctx c).cmd = 0 → (s.ctx c).st ≠ .configuring → exec (.ctxActivate c) s = .next (s.setOv O.ctx_result 1 c)) ∧
    ((s.ctx c).cmd = 0 → (s.ctx c).st = .configuring →
      (s.ov O.win_count c = 0 → exec (.ctxActivate c) s = .next (s.setOv O.ctx_result 2 c)) ∧
      (s.ov O.win_count c ≠ 0 → s.keyId c (s.ctx c).active = 0 → exec (.ctxActivate c) s = .next (s.setOv O.ctx_result 3 c)) ∧
      (s.ov O.win_count c ≠ 0 → s.keyId c (s.ctx c).active ≠ 0 →
        ∀ u, u = s.daymark c 1 (natLe 1 (s.ov O.enclave c) ++ zeros 31) →
          exec (.ctxActivate c) s = .next (((u.setCtx c { u.ctx c with st := .active }).raiseSys c 2).setOv O.ctx_result 0 c)))

/-- R402, R405-R407. The life of a context: ALLOC of a FREE one sets its objects to their defaults; RESET and FREE begin the reset, and FREE while
QUIESCING sets its end state; a finished reset ends CONFIGURING or SWEEPING, and a swept context becomes FREE. R404. While another context command of
the same context runs, ALLOC, ACTIVATE and RESET end with BUSY and change nothing else. -/
def Obligations.ContextsLiveInOrder : Prop :=
  (∀ (s : State) (c : Nat) (x : Ctx), c < 1024 → x = s.ctx c →
     (x.cmd = 0 → x.st = .free → ∀ u : State, u = { s.defaultScope c with
       pol := (s.defaultScope c).pol.filter (fun p => p.1 % 1024 != c) } → exec (.ctxAlloc c) s = .next (u.setCtx c { Ctx.dflt with st := .configuring })) ∧
     (x.cmd = 0 → x.st = .configuring ∨ x.st = .active → exec (.ctxReset c) s = .next (s.setCtx c { x with
       st := .quiescing, endFree := false, cmd := 3, rphase := 1, rstart := s.ltc, rwalk := 0 })) ∧
     (x.st = .configuring ∨ x.st = .active → exec (.ctxFree c) s = .next (s.setCtx c { x with
       st := .quiescing, endFree := true, cmd := 4, rphase := 1, rstart := s.ltc, rwalk := 0 })) ∧
     (x.st = .quiescing → exec (.ctxFree c) s = .next (s.setCtx c { x with endFree := true, cmd := 4 })) ∧
     (∀ m u v, x.rphase = 1 → u = (s.meet m.errs).failStragglers ((s.meet m.errs).reqs.filter (resetStraggler c)) →
       v = ((u.cancelJobs m c).cancelOps c).defaultX c → ∀ w, w = (({ v with jobs := { v.jobs with
         qwait := (List.range 4).foldl (fun t i => Tab.put none t (4 * c + i) none) v.jobs.qwait } } : State).zeroDeficit c).fillBuckets c →
       exec (.contextResetDrainEnd c m) s = .next (w.setCtx c { w.ctx c with vecs := [], rphase := 2, rwalk := 0 })) ∧
     (∀ u, x.rphase = 2 → x.rwalk = 2 ^ 32 - 1 → s.workGone c = true →
       u = ((s.clearPends c).bump O.ctx_resets c).setOv O.ctx_reset_time (ticksUs (s.ltc - x.rstart) % 2 ^ 32) c →
       (x.endFree = true → exec (.contextResetDone c) s = .next (u.enterSweeping c)) ∧
       (x.endFree = false → exec (.contextResetDone c) s = .next (((u.setCtx c { u.ctx c with st := .configuring, rphase := 0, cmd := 0 }).raiseSys
         c 2).setOv O.ctx_result 0 c))) ∧
     (x.st = .sweeping → s.sweptOut c = true →
       exec (.contextSweepDone c) s = .next ((((s.clearWindow c).defaultScope c).setCtx c Ctx.dflt).resolveFree))) ∧
  (∀ (s : State) (c : Nat), c < 1024 → (s.ctx c).cmd ≠ 0 → ∀ i ∈ [Instr.ctxAlloc c, Instr.ctxActivate c, Instr.ctxReset c],
     exec i s = .next (s.setOv O.ctx_result 4 c))

/-- R414, R417, R419-R430. Buckets fill at their times; a vector gathers a cause and a count, and is delivered by MSI-X or NTF once it may be; one
whose target agent no port reaches waits, counted once; a frozen agent is released; a VF's function-level reset empties its ring, and PF0's loses the
answers that waited at its mailbox. -/
def Obligations.NotificationsAndBucketsComplete : Prop :=
  ∀ (s : State),
    (exec .policerRefill s = .next (s.refillPols s.liveCtxs)) ∧
    (exec .shaperRefill s = .next (s.mapCtxs (fun c x => { x with shp := some (if s.ov O.shp_rate c = 0xFFFF then s.ov O.shp_burst c
      else min (s.ov O.shp_burst c) (tokens x.shp (s.ov O.shp_burst c) + 64 * s.ov O.shp_rate c)) }) s.liveCtxs)) ∧
    (exec .ntfBucketRefill s = .next (s.mapCtxs (fun c x => { x with ntfTok := some (if s.ov O.ntf_rate c = 0xFFFF then s.ov O.ntf_burst c
      else min (s.ov O.ntf_burst c) (tokens x.ntfTok (s.ov O.ntf_burst c) + s.ov O.ntf_rate c)) }) s.liveCtxs)) ∧
    (∀ c v q, q = Tab.get Vec.dflt (s.ctx c).vecs (v % 64) → exec (.ntfRaise c v) s = .next (s.setCtx c { s.ctx c with
      vecs := Tab.put Vec.dflt (s.ctx c).vecs (v % 64) { q with causes := setBit q.causes 5, count := satInc 65535 q.count } })) ∧
    (∀ c v q x tok, x = s.ctx c → q = Tab.get Vec.dflt x.vecs v → bits (s.ov O.ntf_vec c v) 62 2 = 1 → q.count ≠ 0 →
      (q.seen = false ∨ q.last + usTicks (s.ov O.ntf_coal c v) ≤ s.ltc) →
      tok = (if s.ov O.ntf_rate c = 0xFFFF then s.ov O.ntf_burst c else tokens x.ntfTok (s.ov O.ntf_burst c)) → tok ≠ 0 →
      s.ov O.ntf_func c ≠ 0 → s.ob O.ntf_ring_en c = false → s.ideSilent c (s.ov O.ntf_func c / 256) = false →
      exec (.notificationDeliver c v) s = .next (((s.setCtx c { x with
        ntfTok := some (tok - 1), vecs := Tab.put Vec.dflt x.vecs v ⟨0, 0, s.ltc, true, false⟩ }).bump O.ntf_sent c).emit
          (.msix (s.ov O.ntf_func c / 256) (s.ov O.ntf_func c % 256) v))) ∧
    (∀ c v q x tok p, x = s.ctx c → q = Tab.get Vec.dflt x.vecs v → bits (s.ov O.ntf_vec c v) 62 2 = 2 → q.count ≠ 0 →
      (q.seen = false ∨ q.last + usTicks (s.ov O.ntf_coal c v) ≤ s.ltc) →
      tok = (if s.ov O.ntf_rate c = 0xFFFF then s.ov O.ntf_burst c else tokens x.ntfTok (s.ov O.ntf_burst c)) → tok ≠ 0 →
      s.ntfPort (bits (s.ov O.ntf_vec c v) 48 12) = some p →
      exec (.notificationDeliver c v) s = .next (((s.setCtx c { x with
        ntfTok := some (tok - 1), vecs := Tab.put Vec.dflt x.vecs v ⟨0, 0, s.ltc, true, false⟩ }).bump O.ntf_sent c).send p
          ⟨2, packNtf (bits (s.ov O.ntf_vec c v) 48 12) c v (bits (s.ov O.ntf_vec c v) 0 48), [⟨natLe 8 (ntfRecord c v q s.ltc) ++ zeros 24, false⟩],
            bits (s.ov O.ntf_vec c v) 48 12, none, 32⟩)) ∧
    (∀ c v q x, x = s.ctx c → q = Tab.get Vec.dflt x.vecs v → bits (s.ov O.ntf_vec c v) 62 2 = 2 → q.count ≠ 0 → q.held = false →
      (q.seen = false ∨ q.last + usTicks (s.ov O.ntf_coal c v) ≤ s.ltc) → s.ntfPort (bits (s.ov O.ntf_vec c v) 48 12) = none →
      exec (.notificationDeliver c v) s =
        .next ((s.setCtx c { x with vecs := Tab.put Vec.dflt x.vecs v { q with held := true } }).bump O.ntf_held c)) ∧
    (∀ a u, (s.agent a).frozen = true → u = (s.setAgent a { s.agent a with frozen := false }).setOv O.frozen_agents
        (s.ov O.frozen_agents - 1) →
      exec (.frzRelease a) s = .next (if (u.ctx (leNat (((s.agent a).frz.drop 2).take 2))).st = .free then u
        else u.raiseSys (leNat (((s.agent a).frz.drop 2).take 2)) 3)) ∧
    (∀ port vf c u, u = s.bump O.pcie_flr 0 port → vf ≠ 0 → u.vfCtx port vf = some c → exec (.vfFlr port vf) s =
      .next ((u.setOv O.ntf_ring_en 0 c).setCtx c { u.ctx c with ntfHead := 0, ntfTail := 0 })) ∧
    (∀ port vf, vf ≠ 0 → (s.bump O.pcie_flr 0 port).vfCtx port vf = none → exec (.vfFlr port vf) s = .next (s.bump O.pcie_flr 0 port)) ∧
    (∀ port, exec (.vfFlr port 0) s = .next (((s.bump O.pcie_flr 0 port).muteWaits (32 + port)).idleBox port))

/-- R438, R440, R446. ENTER_SERVICE only from MAINTENANCE with the units ready, the trims good, no debug intrusion and every context FREE, refused
with the first condition that fails; ENTER_MAINTENANCE only when every context is FREE; DECOMMISSION only confirmed; `arb_commit` only raises F. -/
def Obligations.LifecycleCommandsAreChecked : Prop :=
  ∀ (s : State),
    (s.ov O.lc_state ≠ 1 → exec .enterService s = .next (s.setOv O.lc_result 1) ∧ exec .decommission s = .next (s.setOv O.lc_result 1)) ∧
    (s.ov O.lc_state = 1 →
      (s.unitsReady = true → (s.ov O.trim_state).testBit 0 = true → s.sec.invasive = false → s.sec.intruded = false →
        (∀ p ∈ s.ctxs, p.2.st = .free) → exec .enterService s = .next ((s.setOv O.lc_state 2).setOv O.lc_result 0)) ∧
      (s.unitsReady = false → exec .enterService s = .next (s.setOv O.lc_result 2)) ∧
      (s.unitsReady = true → (s.ov O.trim_state).testBit 0 = false → exec .enterService s = .next (s.setOv O.lc_result 3)) ∧
      (s.unitsReady = true → (s.ov O.trim_state).testBit 0 = true → s.sec.invasive = true ∨ s.sec.intruded = true →
        exec .enterService s = .next (s.setOv O.lc_result 4)) ∧
      (s.unitsReady = true → (s.ov O.trim_state).testBit 0 = true → s.sec.invasive = false → s.sec.intruded = false → s.allFree = false →
        exec .enterService s = .next (s.setOv O.lc_result 5)) ∧
      (s.ov O.lc_confirm ≠ 0xDEC00001 → exec .decommission s = .next (s.setOv O.lc_result 6)) ∧
      (s.ov O.lc_confirm = 0xDEC00001 → exec .decommission s = .next ((({ s with sec := { s.sec with
        sets := s.sec.sets.map (fun p => (p.1, { p.2 with key := 0 })) } } : State).setOv O.lc_state 3).setOv O.lc_result 0))) ∧
    (s.ov O.lc_state ≠ 2 → exec .enterMaintenance s = .next (s.setOv O.lc_result 1)) ∧
    (s.ov O.lc_state = 2 → (∀ p ∈ s.ctxs, p.2.st = .free) → exec .enterMaintenance s = .next ((s.setOv O.lc_state 1).setOv O.lc_result 0)) ∧
    (s.ov O.lc_state = 2 → s.allFree = false → exec .enterMaintenance s = .next (s.setOv O.lc_result 5)) ∧
    (s.ov O.arb_fused < s.sec.arb → exec .arbCommit s = .next (s.setOv O.arb_fused (min s.sec.arb 128))) ∧
    (s.sec.arb ≤ s.ov O.arb_fused → exec .arbCommit s = .next s)

/-- R448, R451-R453. A context in CONFIGURING without a key is given fresh ones; an ACTIVE one is given a key in its other slot, which becomes active,
and its frames are walked over; a chunk of the walk is rewritten under the new key and sent to a partner that mirrors it. The tenant extends its
Daymark. A report waits behind eight, is built, signed and shown. -/
def Obligations.ContextKeysAndReports : Prop :=
  ∀ (s : State) (c : Nat),
    (∀ x a b, x = s.ctx c → x.st = .configuring → x.keys = (0, 0) → a = s.newKey → b = a.2.newKey →
      exec (.keyGenerate c) s = .next ((b.2.setCtx c { x with keys := (a.1, 0), hostKey := b.1, active := 0 }).setOv O.key_result 0 c)) ∧
    ((s.ctx c).st ≠ .configuring → exec (.keyGenerate c) s = .next (s.setOv O.key_result 1 c)) ∧
    ((s.ctx c).rekeying = true → exec (.keyRekey c) s = .next (s.setOv O.key_result 2 c)) ∧
    ((s.ctx c).rekeying = false → (s.ctx c).st ≠ .active → exec (.keyRekey c) s = .next (s.setOv O.key_result 1 c)) ∧
    (∀ x a, x = s.ctx c → x.rekeying = false → x.st = .active → a = s.newKey → exec (.keyRekey c) s = .next ((((a.2.setCtx c
      { x with keys := setKey x.keys (1 - x.active) a.1, active := 1 - x.active, rekeying := true }).setOv O.key_result 0 c).pendRekey c).rekeyCheck c)) ∧
    (∀ te i k m w u r d ppa, u = (s.ungate 2 te).meet m.errs → u.sweepers.find? (fun p => p.1 == i) = some (k, w) → w.rekey = true →
      u.pickCtx te = some (w.ctx, d) → u.slcServes (hsLine (w.frame * 2 ^ 19 + w.mark)) = true →
      ppa = w.frame * 2 ^ 26 + w.mark * 128 → r = u.readCws ((List.range 64).map (fun k => ppa / 64 + k)) →
      exec (.rekeyChunk te i m) s = .next ((((frameLines w.frame (w.mark / 32)).foldl (fun t l => t.peerLine l 0) ((r.2.passChunk i w).storeCws r.1)).charge
        te d).bump O.te_chunks 0 te)) ∧
    (∀ bs, c < 1024 → (s.ctx c).st ≠ .free → exec (.dmExtend c bs) s = .next (s.daymark c 5 (fitTo 32 bs))) ∧
    (s.ov O.lc_state ≠ 3 → s.sec.att.length < 9 → exec .attestDevice s =
      .next { s with sec := { s.sec with att := s.sec.att ++ [(noCtx, s.oct O.att_nonce)] } }) ∧
    (s.ov O.lc_state ≠ 3 → c < 1024 → (s.ctx c).st ≠ .free →
      (s.sec.att.length < 9 → exec (.attestContext c) s = .next { s with sec := { s.sec with att := s.sec.att ++ [(c, s.oct O.ctx_att_nonce c)] } }) ∧
      (9 ≤ s.sec.att.length → exec (.attestContext c) s = .next (s.setOv O.ctx_att_result 2 c))) ∧
    (s.ov O.lc_state = 3 → exec .attestDevice s = .next (s.setOv O.att_result 1)) ∧
    (∀ nonce rest u, u = ({ s with sec := { s.sec with att := rest } } : State) →
      (s.sec.att = (noCtx, nonce) :: rest → exec .reportReady s = .next ((u.setOct O.att_report (u.report none nonce)).setOv O.att_result 0)) ∧
      (s.sec.att = (c, nonce) :: rest → c < 1024 → (u.ctx c).st ≠ .free →
        exec .reportReady s = .next ((u.setOct O.ctx_att_report (u.report (some c) nonce) c).setOv O.ctx_att_result 0 c)))

/-- R458, R459, R466. The link handshake: each message that follows its row moves the session to its next step and is answered with the row's message;
the first thing a message fails decides the reason it is refused with, and its session fails. Signatures, digests and drawn values are free or
operands (logs 1, 4, 21, 42). R461, R462, R466. The initiator of a session offers new key material when it falls due, the other accepts and both
switch; the old key expires; a lane whose count has run out takes the link down; a link held DOWN is released by command. -/
def Obligations.LinkSessionsAndKeys : Prop :=
  (∀ (s : State) (p : Nat) (body : Bytes) (k : Vouch) (x : Sess), s.ov O.link_state p = 2 → x = s.session p →
     (x.step = 0 → slice 0 1 body = [1] → body.length = 1608 + leNat (slice 1604 4 body) → (k.chain = true → k.sig = true → slice 1 1 (slice 1608 144 body) = [1] →
         ∀ n c part reply, n = s.freeBytes 32 → c = n.2.freeBytes 1568 →
           part = [1, 2, 0, 0] ++ n.1 ++ c.1 ++ natLe 4 (c.2.akCert ++ idCert).length ++ (c.2.akCert ++ idCert) →
           reply = part ++ c.2.sign 49856 (sha body ++ part) →
           exec (.lsHello p body k) s = .next ((((((c.2.setSession p { c.2.session p with init := false, step := 2, tr := body ++ reply, asm := [] }).deriveKeys
             p false).setOv O.link_sec_state 1 0 p).setPartner p 1 0 (slice 80 64 (slice 1608 144 body))).sendHs p 2 0 0 reply))) ∧
       (k.chain = false → exec (.lsHello p body k) s = .next (s.lsRefuse p 1)) ∧
       (k.chain = true → k.sig = false → exec (.lsHello p body k) s = .next (s.lsRefuse p 2)) ∧
       (k.chain = true → k.sig = true → slice 1 1 (slice 1608 144 body) ≠ [1] → exec (.lsHello p body k) s = .next (s.lsRefuse p 4))) ∧
     (x.step = 0 → slice 0 1 body ≠ [1] ∨ body.length ≠ 1608 + leNat (slice 1604 4 body) → exec (.lsHello p body k) s = .next (s.lsRefuse p 5)) ∧
     (∀ certs u y fin, x.step = 1 → slice 0 1 body = [1] → 1 ≤ leNat (slice 1 1 body) → leNat (slice 1 1 body) ≤ 4 → certs = slice 1608 (leNat (slice 1604 4 body)) body →
       body.length = 1608 + leNat (slice 1604 4 body) + (if leNat (slice 2 1 certs) = 1 then 29792 else 49856) →
       (k.chain = true → k.sig = true → leafKind certs = 1 ∨ leafKind certs = 16 ∨ leafKind certs = 17 → u = s.deriveKeys p true → y = u.session p →
         fin = [1, 0, 0, 0] ++ natLe 32 y.confI ++ u.sign 49856 (sha (x.tr ++ body)) →
         exec (.lsReply p body k) s = .next (((u.setSession p { y with step := 3, tr := x.tr ++ body ++ fin }).setPartner p (leafKind certs)
           (leNat (slice 4 2 certs)) (slice 80 64 certs)).sendHs p 3 0 0 fin)) ∧
       (k.chain = false → exec (.lsReply p body k) s = .next (s.lsRefuse p 1)) ∧
       (k.chain = true → k.sig = false → exec (.lsReply p body k) s = .next (s.lsRefuse p 2)) ∧
       (k.chain = true → k.sig = true → leafKind certs ≠ 1 → leafKind certs ≠ 16 → leafKind certs ≠ 17 → exec (.lsReply p body k) s = .next (s.lsRefuse p 4))) ∧
     (slice 0 1 body ≠ [1] → (x.step = 1 → exec (.lsReply p body k) s = .next (s.lsRefuse p 5)) ∧
       (x.step = 2 → exec (.lsFinish p body k) s = .next (s.lsRefuse p 5)) ∧ (x.step = 3 → exec (.lsDone p body k) s = .next (s.lsRefuse p 5))) ∧
     (x.step = 2 → slice 0 1 body = [1] → body.length = 49892 →
       (k.sig = true → k.conf = true → exec (.lsFinish p body k) s = .next ((s.sendHs p 4 0 0 ([1, 0, 0, 0] ++ natLe 32 x.confR)).sessionUp p)) ∧
       (k.sig = false → exec (.lsFinish p body k) s = .next (s.lsRefuse p 2)) ∧
       (k.sig = true → k.conf = false → exec (.lsFinish p body k) s = .next (s.lsRefuse p 3))) ∧
     (x.step = 3 → slice 0 1 body = [1] → body.length = 36 →
       (k.conf = true → exec (.lsDone p body k) s = .next (s.sessionUp p)) ∧ (k.conf = false → exec (.lsDone p body k) s = .next (s.lsRefuse p 3))) ∧
     (x.step ≠ 0 → exec (.lsAbort p) s = .next (s.sessFail p))) ∧
  (∀ (s : State) (p : Nat) (x : Sess), x = s.session p →
     (∀ k body, s.ov O.link_sec_state 0 p = 2 → x.init = true → k = s.freeBytes 1568 → body = [1, BitVec.ofNat 8 (b2n !x.txPhase), 0, 0] ++ k.1 →
       exec (.linkRekeyDue p) s = .next (((k.2.setSession p { x with offer := body }).setOv O.link_sec_state 3 0 p).sendHs p 6 0 0 body)) ∧
     (∀ body k, s.ov O.link_sec_state 0 p = 2 → x.init = false → slice 0 1 body = [1] → body.length = 1572 → k = s.freeBytes 1568 →
       exec (.lkOffer p body) s = .next ((k.2.sendHs p 7 0 0 ([1, BitVec.ofNat 8 (b2n !x.txPhase), 0, 0] ++ k.1)).switchKeys p)) ∧
     (∀ body, s.ov O.link_sec_state 0 p = 3 → x.init = true → x.offer ≠ [] → slice 0 1 body = [1] →
       (body.length = 1572 → exec (.lkAccept p body) s = .next (s.switchKeys p)) ∧
       (body.length ≠ 1572 → exec (.lkAccept p body) s = .next (s.lsRefuse p 5))) ∧
     exec (.oldKeyExpire p) s = .next (s.setSession p { x with oldKey := 0 }) ∧
     ((∃ c ∈ (s.lport p).txCount, laneLimit ≤ c.2) ∨ (∃ c ∈ (s.lport p).rxCount, laneLimit ≤ c.2) → exec (.laneCountLimit p) s = .next (s.linkDown p)) ∧
     (p < 24 → s.ov O.link_state p = 5 → exec (.linkRelease p) s =
       .next (((s.setOv O.link_state 0 p).setOv O.link_sec_state 0 0 p).setSession p Sess.dflt)))

/-- R467, R471, R472. Forming a device set: the founder draws the set's key and asks each other member to join; a member answers, and when its report
and chain check it is given the key and confirms; the set stands when every member has; a member that fails or stays silent ends the formation. The
port JOIN messages leave by and what a failed formation sends are the model's choice (log 44). -/
def Obligations.DeviceSetsAreFormed : Prop :=
  ∀ (s : State) (i src me : Nat) (body : Bytes) (k : Vouch), me = s.ov O.node_number →
    (i < 16 → (s.devSet i).st ≠ 0 → exec (.setForm i) s = .next (s.setOv O.set_result 1 i)) ∧
    (∀ list ns q e n v u others certs, i < 16 → (s.devSet i).st = 0 → list = fitTo 128 (s.oct O.set_members i) → ns = memberNodes list →
      (me = 0xFFF ∨ ns.contains me = false → exec (.setForm i) s = .next (s.setOv O.set_result 2 i)) ∧
      (me ≠ 0xFFF → ns.contains me = true → q = s.newKey → e = q.2.freeBytes 1568 → n = e.2.freeBytes 32 → others = (ns.filter (· != me)).eraseDups →
        v = n.2.setOct O.set_record (fitTo 16 (s.oct O.set_id i) ++ list ++ e.1) i →
        u = v.setDevSet i ⟨1, q.1, others.map (fun m => ⟨m, 0, []⟩), me, n.1, v.nodePort.getD 24⟩ → certs = idCert ++ u.akCert →
        (others = [] → exec (.setForm i) s = .next (u.formDone i)) ∧
        (others ≠ [] → u.nodePort = none → exec (.setForm i) s = .next (u.formFail i 4 (others.headD 0))) ∧
        (others ≠ [] → u.nodePort ≠ none →
          exec (.setForm i) s = .next (others.foldl (fun t m => t.sendJoin 8 m ([1] ++ natLe 1 ns.length ++ natLe 2 me ++ fitTo 16 (s.oct O.set_id i) ++ list
            ++ n.1 ++ natLe 4 certs.length ++ certs)) u)))) ∧
    (i < 16 → (s.devSet i).st = 2 → exec (.setDestroy i) s =
      .next (((s.setDevSet i DevSet.dflt).setOct O.set_record [] i).setOv O.set_result 0 i)) ∧
    (∀ n e u certs, ((List.range 16).find? (fun i => (s.devSet i).st == 3 && (s.devSet i).founder == src)).or
        ((List.range 16).find? (fun i => (s.devSet i).st == 0)) = some i → k.chain = true → k.sig = true → slice 0 1 body = [1] →
      (memberNodes (slice 20 128 body)).contains me = true → body.length = 184 + leNat (slice 180 4 body) → leNat (slice 2 2 body) = src →
      n = s.freeBytes 32 → e = n.2.freeBytes 1568 → u = e.2.setDevSet i ⟨3, 0, [], src, n.1, e.2.nodePort.getD 24⟩ → certs = idCert ++ u.akCert →
      exec (.joinReq src body k) s = .next (u.sendJoin 9 src ([1, 0] ++ natLe 2 me ++ n.1 ++ e.1 ++ u.report none (slice 148 32 body) ++ natLe 4 certs.length ++ certs))) ∧
    (k.sig = false → exec (.joinReq src body k) s = .next (s.sendJoin 9 src ([1, 1] ++ natLe 2 me ++ zeros 51716))) ∧
    (∀ x c e u, s.formingWith src 0 = some (i, x) →
      (slice 0 1 body = [1] → slice 1 1 body = [0] → leNat (slice 2 2 body) = src → body.length = 51720 + leNat (slice 51716 4 body) →
        k.chain = true → k.sig = true → s.goodReport x.nonce (slice 1604 256 body) = true →
        c = s.freeBytes 1568 → e = c.2.freeBytes 3184 → u = e.2.setDevSet i (x.advance src 1 (slice 4 32 body)) →
        exec (.joinAck src body k) s = .next (u.sendJoin 10 src ([1, 0, 0, 0] ++ c.1 ++ u.report none (slice 4 32 body) ++ fitTo 1712 (u.oct O.set_record i) ++ e.1))) ∧
      (k.sig = false ∨ k.chain = false ∨ slice 1 1 body ≠ [0] ∨ s.goodReport x.nonce (slice 1604 256 body) = false →
        exec (.joinAck src body k) s = .next (s.formFail i 3 src))) ∧
    (∀ x q r, s.sec.sets.find? (fun p => p.2.st == 3 && p.2.founder == src) = some (i, x) → r = slice 51684 1712 body →
      (slice 0 1 body = [1] → body.length = 56580 → k.sig = true → k.opens = true → s.goodReport x.nonce (slice 1572 256 body) = true → s.ov O.lc_state = 2 → q = s.newKey →
        exec (.joinKey src body k) s = .next (((((q.2.setOct O.set_record r i).setDevSet i { x with st := 2, key := q.1 }).setOct O.set_id (slice 0 16 r) i).setOct
          O.set_members (slice 16 128 r) i).sendJoin 11 src ([1, 0] ++ natLe 2 me ++ sha r))) ∧
      (k.sig = false ∨ k.opens = false ∨ s.goodReport x.nonce (slice 1572 256 body) = false ∨ s.ov O.lc_state ≠ 2 →
        exec (.joinKey src body k) s = .next ((s.setDevSet i DevSet.dflt).sendJoin 11 src ([1, 1] ++ natLe 2 me ++ zeros 32)))) ∧
    (∀ x y, s.formingWith src 1 = some (i, x) →
      (slice 0 1 body = [1] → slice 1 1 body = [0] → leNat (slice 2 2 body) = src → body.length = 36 →
        slice 4 32 body = sha (fitTo 1712 (s.oct O.set_record i)) → y = x.advance src 2 [] →
        exec (.joinDone src body) s = .next (if y.mems.all (fun m => m.st == 2) = true then (s.setDevSet i y).formDone i else s.setDevSet i y)) ∧
      (slice 1 1 body ≠ [0] ∨ slice 4 32 body ≠ sha (fitTo 1712 (s.oct O.set_record i)) → exec (.joinDone src body) s = .next (s.formFail i 3 src))) ∧
    (∀ x, s.sec.sets.find? (fun p => p.2.st == 1 && p.2.mems.any (fun m => m.node == src && m.st != 2)) = some (i, x) →
      exec (.joinTimeout src) s = .next (s.formFail i 4 src))

/-- R468, R470, R475-R478. A read of the nonce issues a fresh one, which expires; a token for this node over that nonce opens its scope once, INVASIVE
only in MAINTENANCE and never a decommissioned node; a boundary scan outside MAINTENANCE first destroys the keys; IDE streams are keyed and stopped by
an authenticated requester only. That a refused token leaves the nonce is the model's reading (log 45). -/
def Obligations.DebugAndIdeAreGuarded : Prop :=
  ∀ (s : State),
    (∀ q, q = s.freeBytes 16 → exec .dbgNonceRead s = .next { q.2 with sec := { q.2.sec with nonce := some (q.1, q.2.ltc) } }) ∧
    exec .dbgNonceExpire s = .next { s with sec := { s.sec with nonce := none } } ∧
    (∀ tok k, s.sec.nonce = none → exec (.dbgToken tok k) s = .next (s.setOv O.dbg_result 3)) ∧
    (∀ tok k n at_ sc, s.sec.nonce = some (n, at_) → k.sig = false ∨ slice 40 16 tok ≠ n ∨ slice 8 32 tok ≠ idDigest ∨ sc = 0 → sc = leNat (slice 1 1 tok) →
      exec (.dbgToken tok k) s = .next (s.setOv O.dbg_result 1)) ∧
    (∀ tok k n at_ sc, s.sec.nonce = some (n, at_) → slice 0 1 tok = [1] → sc = leNat (slice 1 1 tok) → sc = 1 ∨ sc = 2 → tok.length = 29856 →
      slice 8 32 tok = idDigest → slice 40 16 tok = n → k.sig = true →
      (s.ov O.lc_state = 3 ∨ sc = 2 ∧ s.ov O.lc_state ≠ 1 → exec (.dbgToken tok k) s = .next (s.setOv O.dbg_result 2)) ∧
      (∀ u, s.ov O.lc_state ≠ 3 → sc = 1 ∨ s.ov O.lc_state = 1 → u = ({ s with sec := { s.sec with nonce := none, invasive := s.sec.invasive || sc == 2 } } : State) →
        exec (.dbgToken tok k) s = .next ((u.setOv O.dbg_state (max (u.ov O.dbg_state) sc)).setOv O.dbg_result 0))) ∧
    (s.ov O.lc_state = 1 → exec .jtagExtestSelect s = .next s) ∧
    (∀ u, s.ov O.lc_state ≠ 1 → u = ({ s with
        ctxs := s.ctxs.map (fun p => (p.1, { p.2 with keys := (0, 0), hostKey := 0 })), grantKey := 0,
        sec := { s.sec with bootKey := 0, journalKey := 0 } } : State) →
      exec .jtagExtestSelect s = .next { u.setOv O.dbg_state 3 with sec := { u.sec with intruded := true } }) ∧
    (∀ port st go auth, port < 2 → (auth = false ∨ s.sec.bootKey = 0 → exec (.ideKmRequest port st go auth) s = .next (s.emit (.ideKm port false))) ∧
      (auth = true → s.sec.bootKey ≠ 0 → st < 4 → exec (.ideKmRequest port st go auth) s =
        .next ((s.setIde port (if go = true then setBit (Tab.get 0 s.sec.ide port) st else clrBit (Tab.get 0 s.sec.ide port) st)).emit (.ideKm port true))))

/-- R452. A context report asked of a FREE context is refused with BAD_STATE, and nothing else changes. -/
def Obligations.FreeContextsAreNotReported : Prop :=
  ∀ (s : State) (c : Nat), c < 1024 → (s.ctx c).st = .free → exec (.attestContext c) s = .next (s.setOv O.ctx_att_result 1 c)

/-- R439. A core reset, by command or by the watchdog's first expiry, and a Keeper fail-over leave the lifecycle state unchanged. -/
def Obligations.CoreResetsKeepTheLifecycle : Prop :=
  ∀ (s t : State), exec .rstCmdCore s = .next t ∨ (s.rst.armed = false ∧ exec .watchdogExpiry s = .next t) ∨ exec .keeperFailover s = .next t →
    t.ov O.lc_state = s.ov O.lc_state

/-- R505, R521. A flit that passes its checks has its acknowledgements taken. A sequenced flit is then delivered if its turn has come, dropped as a
duplicate, kept in the reorder buffer, or dropped as too far ahead; an IDLE flit that names a later number makes the port ask. -/
def Obligations.ReceivedFlitsAreOrdered : Prop :=
  ∀ (s : State) (p : Nat) (f : Flit) (m : Met) (k : Vouch),
    (∀ x ∈ sequencedRows p f m k, s.FlitPasses p x.2 → x.2.fkind ≠ 0 →
      ∀ (t : State) (d : Nat), t = (s.flitCounted p x.2).takeAck p x.2.ack x.2.sack → d = (x.2.seq + 4096 - (t.lport p).expected) % 4096 →
      (d = 0 → exec x.1 s = .next (if (t.deliverFlit p x.2 m k).1 then (t.deliverFlit p x.2 m k).2.drainReorder p m k 256
        else (t.deliverFlit p x.2 m k).2)) ∧
      (2048 ≤ d → exec x.1 s = .next (t.bump O.dup_dropped p)) ∧
      (1 ≤ d → d ≤ 256 → (t.lport p).reorder.any (fun g => g.seq == x.2.seq) = true →
        exec x.1 s = .next ((t.bump O.dup_dropped p).askNak p (t.lport p).expected)) ∧
      (1 ≤ d → d ≤ 256 → (t.lport p).reorder.any (fun g => g.seq == x.2.seq) = false →
        exec x.1 s = .next ((t.setLport p { t.lport p with reorder := (t.lport p).reorder ++ [x.2] }).askNak p (t.lport p).expected)) ∧
      (256 < d → d < 2048 → exec x.1 s = .next ((t.bump O.reorder_dropped p).askNak p (t.lport p).expected))) ∧
    (s.FlitPasses p { f with fkind := 0 } →
      ∀ t : State, t = (s.flitCounted p { f with fkind := 0 }).takeAck p f.ack f.sack →
        exec (.idleFlit p f) s = .next (if precedes (s.lport p).expected f.seq then t.askNak p (s.lport p).expected else t))

/-- R498, R503, R506, R508, R510, R519. What the transmitter of a port whose link is UP does at each of its times. The order among messages of open
channels is the model's choice (log 59). -/
def Obligations.TransmitterTimesComplete : Prop :=
  ∀ (s : State) (p : Nat), p < 24 → s.ov O.link_state p = 3 →
    (∀ u : State, u = s.widenIfReady p →
      (∀ f, (u.lport p).rtxq.findSome? (fun n => (u.lport p).replay.find? (fun g => g.seq == n)) = some f →
        exec (.flitTime p) s = .next (u.putAgain p f)) ∧
      ((u.lport p).rtxq.findSome? (fun n => (u.lport p).replay.find? (fun g => g.seq == n)) = none →
        ((u.lport p).replay.length < 2048 → exec (.flitTime p) s = .next (u.putNew p)) ∧
        (2048 ≤ (u.lport p).replay.length → u.needsControl p = false → (u.lport p).cur = none → Tab.get [] u.txq p = [] →
          exec (.flitTime p) s = .next (u.putIdle p)) ∧
        (2048 ≤ (u.lport p).replay.length → u.needsControl p = true ∨ (u.lport p).cur ≠ none ∨ Tab.get [] u.txq p ≠ [] →
          exec (.flitTime p) s = .next ((u.bump O.window_stall p).putIdle p)))) ∧
    ((s.lport p).replay ≠ [] → ∀ t : State, t = (s.setLport p { s.lport p with
        rtxq := if (s.lport p).rtxq.contains (s.lport p).oldest then (s.lport p).rtxq else (s.lport p).rtxq ++ [(s.lport p).oldest],
        misses := (s.lport p).misses + 1 }).bump O.rtx_timeouts p →
      exec (.rtxTimer p) s = .next (if (s.lport p).misses + 1 = s.ov O.rtx_limit p then t.startRetrain p else t)) ∧
    ((∃ i < 9, s.toReturn p i ≠ 0) → exec (.creditReturnDue p) s = .next (s.setLport p { s.lport p with due := true })) ∧
    (∀ pool < 9, (s.lport p).bcns.contains pool = false →
      exec (.beaconIdle p pool) s = .next (s.setLport p { s.lport p with bcns := (s.lport p).bcns ++ [pool] })) ∧
    ((s.lport p).driftDue = true → exec (.driftRetrain p) s = .next (s.startRetrain p)) ∧
    (s.ov O.pstate = 1 → s.ob O.narrow_enable p = true → 2 < s.txWidth p → (s.lport p).newWidth = 0 → (s.lport p).cur = none →
      Tab.get [] s.txq p = [] → exec (.narrowIdle p) s = .next (s.setLport p { s.lport p with newWidth := 2, wreq := 1 })) ∧
    ((s.lport p).newWidth ≠ 0 → (s.lport p).wreq = 0 → exec (.widthChangeEffect p true) s =
      .next ((s.setLport p { s.lport p with newWidth := 0, flitNo := 0 }).setOv O.width ((s.lport p).newWidth + 16 * s.rxWidth p) p))

/-- R511-R517, R520, R522. What training and its commands do: a fast retrain from UP, full training from DOWN, their frames and ends; a lane that
fails outside the map is only recorded, one in it makes the partner move it or the link narrow, in a fast retrain, or takes the link DOWN. Who joins a
retrain and what a lane failure does in SESSION are the model's reading (logs 58, 60). R518, R522, R577, R585. How a port is lost, fenced and
repaired: an expired loss time and RESTART take its link DOWN, FENCE also fails what its unit had not sent, and REPAIR takes a DARK unit to REPAIRING. -/
def Obligations.TrainingAndPortCommands : Prop :=
  (∀ (s : State) (p : Nat), p < 24 →
     (∀ u : State, u = (s.setOv O.link_state 4 p).setLport p { s.lport p with
         reorder := [], rtxq := [], frame := none, done := false, rtReq := 0, nak := none, driftDue := false, newWidth := 0,
         rxNew := 0, leftAt := s.ltc } → s.ov O.link_state p = 3 →
       exec (.fastRetrain p) s = .next (u.sendFrames p 2) ∧ exec (.portRetrain p) s = .next (u.sendFrames p 2)) ∧
     (s.ov O.link_state p ≠ 3 → exec (.portRetrain p) s = .next s) ∧
     (s.ov O.link_state p = 4 → exec (.retrainLimitExpiry p) s =
       .next ((s.setLport p { s.lport p with frame := none, done := false }).sendFrames p 2)) ∧
     (∀ u : State, u = (((List.range 9).foldl (fun t l => t.setOv O.rx_lane 0 p l) s).setOv O.rx_map (laneMap (List.range 8)) p) →
       s.ov O.link_state p = 0 → s.ov O.port_state p = 0 → s.ov O.pstate ≠ 3 →
       exec (.fullTraining p) s = .next (((u.setLport p { LPort.dflt with leftAt := s.ltc }).setOv O.link_state 1 p).sendFrames p 1) ∧
       exec (.linkDownRetry p) s = .next (((u.setLport p { LPort.dflt with leftAt := s.ltc }).setOv O.link_state 1 p).sendFrames p 1)) ∧
     (∀ f, f.kind = 3 → s.ov O.link_state p = 1 ∨ s.ov O.link_state p = 4 →
       exec (.trainFlit p f) s = .next (s.setLport p { s.lport p with done := true })) ∧
     (∀ f, f.kind = 1 → s.ov O.link_state p = 1 → exec (.trainFlit p f) s = .next (s.setLport p { s.lport p with frame := some f })) ∧
     (∀ f u, f.kind = 2 → u = (if s.ov O.link_state p = 3 then s.startRetrain p else s) → u.ov O.link_state p = 4 → ∀ v : State, v = u.setLport p { u.lport p with
         frame := some f, rxCount := Tab.put 0 (u.lport p).rxCount f.lane f.count } →
       exec (.trainFlit p f) s = .next (if (u.lport p).frame = none then v.sendFrames p 3 else v)) ∧
     (∀ bad ls x, s.ov O.link_state p = 1 → x = s.failLanes p 3 bad → ls = nextMap [0, 1, 2, 3, 4, 5, 6, 7] (fun l => !x.laneFailed p l) →
       (∀ f, (s.lport p).frame = some f → f.kind = 1 → (s.lport p).done = true → 2 ≤ ls.length →
         exec (.fullTrainingDone p true bad) s = .next (((((((((x.setRxMap p ls).setOv O.tx_map f.map p).setLport p
           { LPort.dflt with credits := poolSizes }).setWidth p (if (mapLanes f.map).length = 0 then 8 else widthOf (mapLanes f.map).length) ls.length).bump
           O.full_trainings p).sendFrames p 1).sendFrames p 3).setOv O.link_state 2 p).lsBegin p)) ∧
       ((s.lport p).frame = none ∨ (s.lport p).done = false ∨ ls.length < 2 → exec (.fullTrainingDone p true bad) s = .next (x.linkDown p)) ∧
       exec (.fullTrainingDone p false bad) s = .next (x.linkDown p)) ∧
     (∀ f x, s.ov O.link_state p = 4 → (s.lport p).frame = some f → f.kind = 2 → (s.lport p).done = true →
       x = (keepFrom f.expected (s.lport p).replay).map (fun r => { r with sacked := false }) → ∀ u v : State,
       u = ((s.setLport p { s.lport p with
           replay := x, rtxq := x.map (·.seq), oldest := (x.head?.map (·.seq)).getD (s.lport p).next, misses := 0, credits := f.free,
           flitNo := 0, frame := none, done := false }).setOv O.tx_map f.map p).setWidth
           p (heldWidth (if s.txWidth p = 0 then 8 else s.txWidth p) f.map) (heldWidth f.width (s.ov O.rx_map p)) →
       v = (if f.kphase = (s.session p).rxPhase then u.setSession p { s.session p with lanes := List.range 9 } else u) →
       exec (.fastRetrainDone p) s = .next (((v.bump O.fast_retrains p).setOv O.link_state 3 p).rerouteAll.sendAllQueries)) ∧
     (∀ l < 9, ∀ c x cur ls, s.ov O.link_state p = 2 ∨ s.ov O.link_state p = 3 ∨ s.ov O.link_state p = 4 → s.laneFailed p l = false →
       c ≠ 2 ∨ s.ov O.lane_ue_limit p ≠ 0xFFFF → x = s.failLanes p c [l] → cur = mapLanes (s.ov O.rx_map p) → ls = nextMap cur (fun k => !x.laneFailed p k) →
       ((List.range 8).find? (fun i => cur[i]? == some l) = none → exec (.laneFail p l c) s = .next x) ∧
       (∀ i, (List.range 8).find? (fun i => cur[i]? == some l) = some i →
         (ls.length < 2 ∨ s.ov O.link_state p = 2 → exec (.laneFail p l c) s = .next (x.linkDown p)) ∧
         (2 ≤ ls.length → s.ov O.link_state p = 3 → ∀ u v : State, u = (x.askMove p i).setRxMap p ls →
           v = (if ls.length = cur.length ∧ cur.length = 8 then (u.bump O.lane_moves p).event 0x22 3 p noCtx 0 else u) →
           exec (.laneFail p l c) s = .next ((v.setWidth p (v.txWidth p) ls.length).startRetrain p))))) ∧
  (∀ (s : State) (p : Nat), p < 24 →
     (s.ov O.link_state p = 4 → exec (.portLossTimeout p) s = .next (s.linkDown p).leaseCheck) ∧
     (s.ov O.link_state p ≠ 5 → exec (.portRestart p) s = .next (s.linkDown p).leaseCheck) ∧
     (s.ov O.port_state p ≠ 2 → ∀ (t u : State), t = ((s.linkDown p).setUnitSt O.port_state 2 p).bump O.fences →
       u = t.failPort 0 (t.reqs.filter (t.unsentReq p)) →
       exec (.portFence p) s = .next (u.failPool p (u.pool.filter (fun w => w.port == p))).leaseCheck) ∧
     (s.ov O.port_state p = 2 → exec (.portRepair p) s = .next (s.setUnitSt O.port_state 3 p)))

/-- R547-R556, R563, R569. An agent without a route or fenced by the operator is declared lost; one that is ABSENT rejoins; a closed census leaves the
agents that have not reported as laggards; the hold's end frees the slice's replay copies and sends it the requests held for it; a CAN is released.
R394, R556-R562. The spare that has a lost slice's role empties what the slice held: its merge buffer's half-lines and its dirty accumulator lines
become poison, its ACCs and ATOMs complete ACC_LOST, replay copies go home, and every present CAN is asked for its census. -/
def Obligations.AgentsAndSlicesAreLost : Prop :=
  (∀ (s : State),
     (∀ a < 4096, s.noRoute a = true → s.pwr.grace = false → exec (.agentLossTime a) s = .next (s.declareLost a 1)) ∧
     (∀ a < 4096, (s.agent a).life = .present → exec (.agtFence a) s = .next (s.declareLost a 4)) ∧
     (∀ a < 4096, (s.agent a).life = .absent → exec (.agtRejoin a) s = .next (s.setAgent a { s.agent a with life := .present })) ∧
     (∀ hs < 32, ∀ a, (s.agent a).life = .purging → s.slcServes hs = true → s.cansOf a = [] →
       (setBit (s.agent a).purge hs = allSlices → exec (.purgeWalkDone hs a) s = .next ((s.setAgent a { s.agent a with
         purge := allSlices, life := .absent }).setOv O.purge_time (ticksUs (s.ltc - (s.agent a).purgeAt) % 2 ^ 32) a)) ∧
       (setBit (s.agent a).purge hs ≠ allSlices →
         exec (.purgeWalkDone hs a) s = .next (s.setAgent a { s.agent a with purge := setBit (s.agent a).purge hs }))) ∧
     (∀ hs, (s.slc hs).phase = 2 → exec (.censusClose hs) s = .next (s.setSlc hs { s.slc hs with
       phase := 3, laggards := ((s.slc hs).laggards ++ (s.slc hs).queried).eraseDups, queried := [], unsent := [] })) ∧
     (∀ hs, (s.slc hs).phase = 3 → s.coh.snoops.any (fun y => y.hs == hs) = false →
       exec (.failoverHoldEnd hs) s = .next (((((s.freeCopies hs).setSlc hs { s.slc hs with phase := 0, retained := [] }).reissue hs (s.slc hs).retained).bump O.reissued hs 0
         (s.reqs.filter (fun r => r.phase == .holding && (s.slc hs).retained.contains r.id)).length).setOv O.hold_time_last
         (ticksUs (s.ltc - (s.slc hs).since) % 2 ^ 32) hs)) ∧
     (∀ hs can, exec (.unkRelease hs can) s = .next (s.setSlc hs { s.slc hs with unres := (s.slc hs).unres.filter (fun u => u.1 != can) }))) ∧
  (∀ (s : State) (h : Nat) (x : Slc) (acc : List Nat) (rs : List Req) (u v w : State), x = s.slc h → x.phase = 1 → s.lit 0 h = true →
     acc = (s.coh.acc.filter (fun p => hsLine p.1 == h && (p.2.dirty || p.2.pend != []))).map (·.1) →
     rs = s.reqs.filter (fun r => x.retained.contains r.id && r.phase == .holding && (r.kind == .acc || r.kind == .atom)) →
     u = { s with coh := { s.coh with
       merge := s.coh.merge.filter (fun p => hsLine p.1 != h), acc := s.coh.acc.filter (fun p => hsLine p.1 != h) } } →
     v = (((u.poisonMerge (s.coh.merge.filter (fun p => hsLine p.1 == h))).poisonLines 4 (acc ++ rs.map (fun r => r.ppa / 128))).failAccs h rs).setOv
       O.acc_tags_poisoned acc.length h →
     w = (v.setOv O.replayed 0 h).replayCopies (s.coh.repl.filter (fun p => p.2.1 == h)) →
     exec (.sliceFailover h) s = .next ((w.setSlc h { w.slc h with
       phase := 2, census := (x.census + 1) % 65536, counted := true, queried := w.presentCans, unsent := w.presentCans, laggards := [], full := [],
       noSpare := false }).sendQueries h))

/-- R22, R30, R31, R575-R578, R617, R618. A critical error fences a unit with cause 3; a router failure changes its routes, once what was sent on them
has arrived, and fences a unit whose other router has failed; FENCE, SWAP and REPAIR begin what their rows say, quiesce first, and answer; a tested
unit, Keeper or port comes back or goes dark. Which routers a unit has, and the cause a channel pair reads, are the model's choice (log 50). -/
def Obligations.UnitsFailAndAreRepaired : Prop :=
  ∀ (s : State) (kind p : Nat), kind < 3 → p < physCount kind →
    (∀ m, s.unitState kind p ≠ 1 → exec (.unitFence kind p m) s = .next (s.unitFence kind p m 3)) ∧
    (∀ plane r m att u, s.pwr.routers.contains (routerKey plane r) = false →
      u = ({ s with pwr := { s.pwr with routers := s.pwr.routers ++ [routerKey plane r], routing := s.pwr.routing ++ [routerKey plane r] } } : State) →
      (att = none ∨ u.pwr.routers.contains (routerKey (1 - plane % 2) r) = false → exec (.routerFailure plane r att m) s = .next u) ∧
      (∀ k n, att = some (k, n) → u.pwr.routers.contains (routerKey (1 - plane % 2) r) = true → exec (.routerFailure plane r att m) s = .next (u.routerFence k n m)) ∧
      (u.unitState kind p ≠ 1 → u.routerFence kind p m = u.unitFence kind p m 6) ∧
      (∀ n < 24, u.ov O.port_state n ≠ 2 → u.routerFence 4 n m = u.portDark n) ∧ (∀ n < 12, u.routerFence 5 n m = u.pairDark n 0) ∧
      (∀ n < 128, u.routerFence 6 n m = u.fenceHbm (n / 32) (n % 32))) ∧
    (∀ plane r u, u = ({ s with pwr := { s.pwr with routing := s.pwr.routing.filter (· != routerKey plane r) } } : State) →
      (s.pwr.routing.contains (routerKey plane r) = true → exec (.routeDrainDone plane r) s =
        .next (if s.oldRouteBusy = true then s else u.sendHeld (s.reqs.filter (fun q => q.phase == .holding)))) ∧
      (s.pwr.routing.contains (routerKey plane r) = false → exec (.routeDrainDone plane r) s = .next s)) ∧
    (s.unitBusy = false →
      (s.unitState kind p = 2 → exec (.unitCmdFence kind p) s = .next (s.setOv O.unit_result 1)) ∧
      (s.unitState kind p = 1 ∨ s.unitState kind p = 3 → exec (.unitCmdFence kind p) s = .next ((s.goDark kind p 1).setOv O.unit_result 0)) ∧
      (kind ≠ 0 → s.unitState kind p = 0 → exec (.unitCmdFence kind p) s = .next (s.beginQuiesce kind p 1 0xFF)) ∧
      (∀ u, kind = 0 → s.unitState kind p = 0 → u = s.beginQuiesce kind p 1 0xFF → exec (.unitCmdFence kind p) s =
        .next (match u.spareFor 0 p, u.roleOf 0 p with
          | none, some h => u.beginEmptying h
          | _, _ => u)) ∧
      ((s.unit kind p).st = 2 → exec (.unitCmdRepair kind p) s = .next ((s.setUnit kind p { s.unit kind p with st := 3 }).setOv O.unit_result 0)) ∧
      ((s.unit kind p).st ≠ 2 → exec (.unitCmdRepair kind p) s = .next (s.setOv O.unit_result 1)) ∧
      (s.unitState kind p = 0 → ∀ q, s.spareFor kind p = some q → exec (.unitCmdSwap kind p 0xFF) s = .next (s.beginQuiesce kind p 2 q)) ∧
      (s.unitState kind p = 0 → s.spareFor kind p = none → exec (.unitCmdSwap kind p 0xFF) s = .next (s.setOv O.unit_result 2)) ∧
      (s.unitState kind p ≠ 0 → exec (.unitCmdSwap kind p 0xFF) s = .next (s.setOv O.unit_result 1))) ∧
    (∀ n m u, (s.unit kind p).doing = 1 → s.roleOf kind p = some n → u = (s.goDark kind p 1).setOv O.unit_result 0 →
      (∀ q, s.spareFor kind p = some q → s.unitIdle kind n = true → exec (.quiesceDone kind p m) s = .next (u.passRole kind n q)) ∧
      (s.spareFor kind p = none → s.unitIdle kind n = true → kind = 0 → s.sliceEmpty n = true → exec (.quiesceDone kind p m) s = .next (u.leaveEmpty n)) ∧
      (s.spareFor kind p = none → s.unitIdle kind n = true → kind ≠ 0 → exec (.quiesceDone kind p m) s = .next (u.giveSpare kind n p)) ∧
      (s.unitIdle kind n = false → exec (.quiesceDone kind p m) s = .next ((s.unitFence kind p m 4).setOv O.unit_result 0))) ∧
    (∀ ok u, (s.unit kind p).st = 3 → u = (if ok = true then { s.unit kind p with st := 0, doing := 0 } else { s.unit kind p with st := 2, cause := 5, doing := 0 } : Machine.Unit) →
      exec (.repairSelftestDone kind p ok) s = .next (if ok = true
        then ((s.setUnit kind p u).event 0x03 2 p noCtx (unitDetail kind 0xFF u.cause)).adopt kind p
        else (s.setUnit kind p u).event 0x03 2 p noCtx (unitDetail kind 0xFF u.cause))) ∧
    (∀ ok k, k < 2 → s.keeper k = 3 → exec (.repairSelftestDone 3 k ok) s =
      .next ((s.setKeeper k (if ok = true then 1 else 2)).event 0x03 2 k noCtx (unitDetail 3 0xFF (if ok = true then 0 else 5)))) ∧
    (∀ ok n, n < 24 → s.ov O.port_state n = 3 → exec (.repairSelftestDone 4 n ok) s = .next (s.setUnitSt O.port_state (if ok = true then 0 else 2) n)) ∧
    (∀ n, (s.unit kind p).doing = 2 → s.roleOf kind p = some n →
      (∀ q, s.unitIdle kind n = true → s.swapSpare kind p = some q → exec (.swapDone kind p) s =
        .next (((s.passRole kind n q).setUnit kind p { s.unit kind p with st := 3, doing := 0 }).setOv O.unit_result 0)) ∧
      (kind ≠ 0 → s.unitIdle kind n = false → exec (.swapDone kind p) s =
        .next ((s.setUnit kind p { s.unit kind p with doing := 0 }).setOv O.unit_result 3)))

/-- R577, R580. A heartbeat ends what its silence armed; the active Keeper that falls silent, or that KEEPER_SWAP relieves, hands over to a standby
one and the fail-over is counted and recorded; without one it goes dark. A dark Keeper is repaired. The events logged and that KEEPER_SWAP counts as a
fail-over are the model's choice (log 51). R585-R589. A lost port takes its link down; what it had sent and what waited is answered for over another
port, from where the partner says it stopped; when no partner answers in time the exchange fails. A lost PCI Express port silences its ring's
operations and moves its contexts to the other. Which link a LINK_SYNC names is the model's reading (log 47). -/
def Obligations.KeepersAndLostPorts : Prop :=
  (∀ (s : State) (a : Nat), a = s.ov O.keeper_active % 2 →
     (∀ k, k < 2 → s.keeper k ≠ 2 → exec (.keeperHeartbeat k) s = .next { s with rst := { s.rst with armed := false, roms := clrBit s.rst.roms k } }) ∧
     (s.keeper a = 0 → s.keeper (1 - a) = 1 → exec .keeperFailover s = .next
       (((((s.setKeeper a 2).setKeeper (1 - a) 0).setOv O.keeper_active (1 - a)).bump O.keeper_failovers).event 0x10 2 a noCtx 0)) ∧
     (s.keeper a = 0 → s.keeper (1 - a) ≠ 1 → exec .keeperFailover s = .next (s.setKeeper a 2)) ∧
     (s.keeper a = 0 → s.keeper (1 - a) = 1 → exec .keeperSwap s = .next
       (((((s.setKeeper a 3).setKeeper (1 - a) 0).setOv O.keeper_active (1 - a)).bump O.keeper_failovers).event 0x10 2 a noCtx 0)) ∧
     (s.keeper a = 0 → s.keeper (1 - a) ≠ 1 → exec .keeperSwap s = .next s) ∧
     (s.keeper 0 = 2 → exec .keeperRepair s = .next (s.setKeeper 0 3)) ∧
     (s.keeper 0 ≠ 2 → s.keeper 1 = 2 → exec .keeperRepair s = .next (s.setKeeper 1 3)) ∧
     (s.keeper 0 ≠ 2 → s.keeper 1 ≠ 2 → exec .keeperRepair s = .next s)) ∧
  (∀ (s : State) (p q : Nat), p < 24 →
     exec (.portLost p) s = .next (s.linkDown p).leaseCheck ∧
     (∀ expected salt l, s.lostPorts.find? (fun x => x.1 == p && x.2.via == q) = some (p, l) → exec (.linkSync q p expected 1 salt) s =
       .next (((({ s with lostPorts := Tab.del p s.lostPorts } : State).resendLost p q (l.msgs expected)).bump O.port_syncs 0 p).rerouteAll)) ∧
     (∀ expected salt, s.lostPorts.find? (fun x => x.1 == p && x.2.via == q) = none → exec (.linkSync q p expected 1 salt) s = .next (s.bump O.chan_errors q)) ∧
     (∀ expected salt n u, (List.range 24).find? (fun n => n != q && s.portUp q && s.partnerKey n == s.partnerKey q
         && (s.session n).rxSalt == salt && (s.session n).rxKey != 0) = some n →
       u = (s.send q { chan := 4, hdr := packSync p (s.lport n).expected 1 salt, slots := [] }).linkDown n →
       exec (.linkSync q p expected 0 salt) s = .next (({ u with lostPorts := Tab.del n u.lostPorts } : State).resendLost n q
         (Lost.msgs ⟨q, (s.lport n).replay, (s.lport n).cur.map (·.1), (s.lport n).expected, 0, 0, []⟩ expected))) ∧
     (∀ l, s.lostPorts.find? (fun x => x.1 == p) = some (p, l) → exec (.linkSyncTimeout p) s = .next (s.syncFail p l)) ∧
     (∀ n v u, n < 2 → (s.ov O.pcie_link 0 n).testBit 15 = true → s.ov O.pstate ≠ 3 → v = ({ s with tends := { s.tends with
         ops := s.tends.ops.map (fun o => if o.ring = n then { o with mute := true } else o) } } : State) → u = ((v.pcieDown n).bump O.pcie_losses 0 n).event 0x60 3 n noCtx 0 →
       exec (.pciePortLost n) s = .next (State.leaseCheck (if (u.ov O.pcie_link 0 (1 - n)).testBit 15 = true then u.moveOwners n u.liveCtxs else u))))

/-- R590, R591, R595. A partition that is not the running one is erased and written block by block, which unverifies it; an image that is whole, not
older than F and rightly signed is verified; only a verified one is activated, which records its measurement and resets the core. The Light List's
alert is cleared by an acknowledgement that reaches it. Flash blocks and their order are the model's choice (logs 49, 62). -/
def Obligations.FirmwareIsStaged : Prop :=
  ∀ (s : State) (p : Nat), p = s.ov O.fw_part →
    (s.fwRunning = true → exec .fwErase s = .next (s.setOv O.fw_result 1)) ∧
    (s.fwRunning = false → exec .fwErase s = .next ((s.setFlash p ⟨[], false, false⟩).setOv O.fw_result 0)) ∧
    (∀ bs, s.ov O.fw_offset % 4096 ≠ 0 → exec (.fwBlockWrite bs) s = .next s) ∧
    (∀ bs, s.ov O.fw_offset % 4096 = 0 → s.fwRunning = true → exec (.fwBlockWrite bs) s = .next (s.setOv O.fw_result 1)) ∧
    (∀ bs, s.ov O.fw_offset % 4096 = 0 → s.fwRunning = false → exec (.fwBlockWrite bs) s = .next ((s.setFlash p
      ⟨Tab.put (List.replicate 4096 0xFF) (s.flash p).blocks (s.ov O.fw_offset / 4096) (fitTo 4096 bs), false, false⟩).setOv O.fw_result 0)) ∧
    (∀ sg, s.headerOk p = false → exec (.fwVerify sg) s = .next (s.setOv O.fw_result 2)) ∧
    (∀ sg, s.headerOk p = true → (s.image p).arb < s.ov O.arb_fused → exec (.fwVerify sg) s = .next (s.setOv O.fw_result 3)) ∧
    (s.headerOk p = true → s.ov O.arb_fused ≤ (s.image p).arb → exec (.fwVerify false) s = .next (s.setOv O.fw_result 2)) ∧
    (s.headerOk p = true → s.ov O.arb_fused ≤ (s.image p).arb → exec (.fwVerify true) s =
      .next (((s.setFlash p { s.flash p with verified := true }).setOv O.fw_staged_version (s.image p).version).setOv O.fw_result 0)) ∧
    ((s.flash p).verified = false → exec .fwActivate s = .next (s.setOv O.fw_result 4)) ∧
    ((s.flash p).verified = true → exec .fwActivate s = .next (State.softReset
      ((((s.setOct O.boot_meas (s.image p).meas).setOv O.boot_pref p).event 0x71 0 0 noCtx 0).setOv O.fw_result 0) 1)) ∧
    (∀ v, exec (.logAck v) s = .next (if s.log.lastAlert ≤ v then
      { s.setOv O.log_ack v with log := { (s.setOv O.log_ack v).log with lastAlert := 0 } } else s.setOv O.log_ack v))

/-- R598, R599, R601, R602, R604, R609. A reset source whose reach is wider than the running episode's widens it, or begins one; its cause and the
reach are recorded, and a level source is held until it is released. DBG_REQ_N counts while debug is not INVASIVE; a watchdog that expires again after
the episode it caused resets the system, and before the Keeper ROM starts it is stopped; PERST resets its own port only. -/
def Obligations.ResetSourcesWidenTheEpisode : Prop :=
  ∀ (s : State) (f : Nat → State) (g : Nat → State),
    (∀ b, f b = ((if s.rst.reach < reachOf b then s.widen (reachOf b) else s).cause b).causeReach) →
    (∀ b, g b = { f b with rst := { (f b).rst with asserted := setBit (f b).rst.asserted b, sample := false } }) →
    exec .clockFailure s = .next (f 6) ∧
    exec .lockup s = .next (f 7) ∧
    exec .pwrgoodAonLow s = .next { g 0 with rst := { (g 0).rst with
      aon := false, dramGood := false, coreGood := false, dramEn := false, coreEn := false, oscDone := false } } ∧
    (s.ov O.pstate ≠ 3 → s.rst.coreEn = true → exec .coreBrownOut s = .next { g 3 with rst := { (g 3).rst with coreGood := false } }) ∧
    (s.ov O.pstate = 3 ∨ s.rst.coreEn = false → exec .coreBrownOut s = .next { s with rst := { s.rst with coreGood := false } }) ∧
    (s.rst.rstDrive = false → exec .rstNInput s = .next (g 4)) ∧
    (s.rst.rstDrive = true → exec .rstNInput s = .next s) ∧
    (s.ov O.dbg_state = 2 → exec .dbgReq s = .next (g 5)) ∧
    (s.ov O.dbg_state ≠ 2 → exec .dbgReq s = .next (s.bump O.dbg_req_ignored)) ∧
    (s.rst.reach < 2 → 3 ≤ s.rst.stage → s.rst.armed = false → exec .watchdogExpiry s = .next { f 8 with rst := { (f 8).rst with armed := true } }) ∧
    (s.rst.reach = 0 → 3 ≤ s.rst.stage → s.rst.armed = true → exec .watchdogExpiry s = .next (f 9)) ∧
    (2 ≤ s.rst.reach ∨ s.rst.stage < 3 → exec .watchdogExpiry s = .next s) ∧
    (∀ u, u = ({ s with rst := { s.rst with cmd := 0 } } : State) → exec .rstCmdCore s = .next (u.assertSrc 11 false) ∧
      exec .rstCmdSystem s = .next (u.assertSrc 10 false)) ∧
    (∀ n, n < 2 → s.rst.coreGood = true → exec (.perst n) s = .next ((((s.bump O.pcie_perst 0 n).resetFunctions n).pcieLost n).leaseCheck))

/-- R601. While `dbg_state` is not INVASIVE, a low DBG_REQ_N is counted in `dbg_req_ignored` and has no other effect. -/
def Obligations.DebugRequestsAreIgnored : Prop :=
  ∀ (s : State), s.ov O.dbg_state ≠ 2 → exec .dbgReq s = .next (s.bump O.dbg_req_ignored)

/-- R604-R606, R610-R615. An episode ends when nothing is asserted: a core one restarts the Keepers, a wider one samples RST_N, and the trim load,
BIST and boot follow, each from its own stage; a load that fails is repeated once and then falls to its defaults. The choice of a boot part and its
events are the model's (logs 53, 55). -/
def Obligations.StartUpRunsInOrder : Prop :=
  ∀ (s : State),
    (∀ straps u v, s.rst.reach = 1 → s.rst.asserted = 0 → s.rst.sample = false → s.rst.stage ≠ 1 →
      u = ({ s with rst := { s.rst with reach := 0, roms := 3, stage := min s.rst.stage 3, warm := s.rst.stage == 4 || s.rst.warm } } : State) →
      v = (u.setKeeper s.rst.pref 0).setKeeper (1 - s.rst.pref) 1 → exec (.episodeEnd straps) s = .next v) ∧
    (∀ straps u, 2 ≤ s.rst.reach → s.rst.asserted = 0 → s.rst.sample = false → s.rst.aon = true → s.rst.coreGood = true →
      u = (if s.rst.oscDone = true then (s.setOv O.osc_dly (straps % 8)).chooseRoot else s.setOv O.osc_dly (straps % 8)) →
      exec (.episodeEnd straps) s = .next { u with ltc := if s.rst.reach = 3 then 0 else s.ltc, rst := { s.rst with rstDrive := false, sample := true, stage := 1 } }) ∧
    (∀ straps, s.rst.asserted ≠ 0 → exec (.episodeEnd straps) s = .next s) ∧
    (s.rst.sample = true →
      exec (.rstNSample false) s = .next (({ s with rst := { s.rst with sample := false, reach := 0 } } : State).startLoad) ∧
      exec (.rstNSample true) s = .next { s.assertSrc 4 true with rst := { (s.assertSrc 4 true).rst with rstDrive := true, stage := 0 } }) ∧
    (s.rst.loading = true →
      exec (.trimLoadDone true) s = .next { s.setOv O.trim_state 1 with rst := { s.rst with loading := false, trimFails := 0, stage := 2 } } ∧
      (s.rst.trimFails = 0 → exec (.trimLoadDone false) s = .next { s.bump O.trim_loads with rst := { s.rst with trimFails := 1 } }) ∧
      (s.rst.trimFails ≠ 0 → ∀ u, u = (s.setOv O.trim_state 2).cause 13 →
        exec (.trimLoadDone false) s = .next { u with rst := { s.rst with loading := false, trimFails := 0, stage := 2 } })) ∧
    (∀ locks, s.rst.oscDone = false → s.rst.aon = true → exec (.oscDlyWaitEnd locks) s =
      .next (State.chooseRoot { s.setOv O.pll_lock (locks % 4) with rst := { s.rst with oscDone := true } })) ∧
    (∀ fails, s.rst.stage = 2 → s.rst.reach = 0 → exec (.powerOnBistDone fails) s = .next { s.bistFail fails with rst := { s.rst with stage := 3 } }) ∧
    (∀ a b idOk bad k u p v, s.rst.stage = 3 → s.rst.reach = 0 → k = (bad.foldl (fun t k => if k < 2 then t.setKeeper k 2 else t) s).pickKeeper →
      k.keeper 0 ≠ 2 ∨ k.keeper 1 ≠ 2 → u = (if k.rst.warm = true then k else k.bump O.boot_count) →
      (u.bootPart a b = (some p, v) → v.rst.warm = false → exec (.keeperBootDone a b idOk bad) s = .next (v.coldBoot p idOk).serveWaits) ∧
      (u.bootPart a b = (some p, v) → v.rst.warm = true → exec (.keeperBootDone a b idOk bad) s = .next (v.warmBoot p).serveWaits) ∧
      (u.bootPart a b = (none, v) → exec (.keeperBootDone a b idOk bad) s = .next v.toRecovery.serveWaits))

/-- R636-R642. What `pstate_target` seeks; a unit idle in P1 is gated; P2 is entered from P1 when sought and idle and left at any wake; P3 is entered
when sought, idle and with an island engine: every line is recalled and, when no copy is left, the checkpoint written. A wake or the time-out before
then ends it with BUSY and the former target. P3 is left with its checkpoint; without one the core restarts. That the checkpoint and what follows are
one step and the checkpoint's bound are the model's choice (log 57). R644-R647, R649. Temperatures are kept with their hottest and their peak;
THERMTRIP_N latches; the energy bucket gains 780 W and loses what the rails report, never above its size; the governor moves one level at a time, up
before down, between 0 and 10; the ledger counts its seconds and is written to flash each hour. R625-R635. The root follows the loss of its PLL and
the operator's command; references and their ports; the CK_ARITH divider steps towards the governor's; the frequency counter's start and end. -/
def Obligations.PowerClocksAndHeat : Prop :=
  (∀ (s : State),
     (∀ v llp, 4 ≤ v → exec (.pstateTargetWrite v llp) s = .next s) ∧
     (∀ v, v < 3 → s.ov O.pstate = 3 → exec (.pstateTargetWrite v true) s = .next { s.setOv O.pstate_target v with rst := { s.rst with coreEn := true } } ∧
       exec (.pstateTargetWrite v false) s = .next s) ∧
     (∀ llp u, s.ov O.pstate ≠ 3 → u = s.wake → (u.islandEngine = false → exec (.pstateTargetWrite 3 llp) s = .next (u.pstateResult 3)) ∧
       (u.islandEngine = true → exec (.pstateTargetWrite 3 llp) s =
         .next { u.setOv O.pstate_target 3 with pwr := { u.pwr with seek3 := some (u.pwr.seek3.getD (u.ov O.pstate_target)) } })) ∧
     (∀ v llp u, v < 3 → s.ov O.pstate ≠ 3 → u = s.wake.setOv O.pstate (min v 1) → exec (.pstateTargetWrite v llp) s =
       .next { (u.setOv O.pstate_target v).pstateResult 0 with pwr := { u.pwr with seek3 := none, gated := if v = 0 then [] else u.pwr.gated } }) ∧
     (∀ kind p n, s.roleOf kind p = some n → kind = 1 ∨ kind = 2 → s.lit kind n = true → s.unitIdle kind n = true → s.ov O.pstate = 1 →
       s.pwr.gated.contains (kind, p) = false → exec (.p1GateIdle kind p) s = .next { s with pwr := { s.pwr with gated := s.pwr.gated ++ [(kind, p)] } }) ∧
     (s.ov O.pstate = 1 → s.ov O.pstate_target = 2 → s.idle = true → exec .p2Idle s =
       .next { (s.flushMerges.setOv O.arith_div 0).setOv O.pstate 2 with pwr := { s.flushMerges.pwr with selfRef := true } }) ∧
     (s.pwr.entering = false → s.ov O.pstate = 2 → exec .wakeEvent s =
       .next { (s.setOv O.pstate 1).setOv O.arith_div 16 with pwr := { s.pwr with selfRef := false } }) ∧
     (∀ old, s.pwr.seek3 = some old → s.ov O.pstate ≠ 3 → s.islandEngine = true → ∀ m,
       (s.pwr.entering = false → s.idle = true → ∀ u w, u = (s.meet m.errs).flushAll →
         w = ((u.coh.dir.filter (fun d => d.2.way)).map (·.1)).foldl State.recallLine { u with pwr := { u.pwr with entering := true } } →
         exec (.p3Entry m) s = .next (if w.noCopies = true then w.finishP3 else w)) ∧
       (s.pwr.entering = true → (s.noCopies = true → exec (.p3Entry m) s = .next s.finishP3) ∧ (s.noCopies = false → exec (.p3Entry m) s = .next s))) ∧
     (∀ u b v, u = ((((List.range 24).foldl State.linkSleep s.flushAll).pcieDown 0).pcieDown 1).saveWear → b = u.freeBelow (2 ^ 22 + 1) →
       v = ((((b.2.setOv O.ckpt_bytes b.1).bump O.p3_entries).setOv O.pstate 3).pstateResult 0).setOv O.hbch_confirm 0 → s.finishP3 = { v with
         nextKey := v.nextKey + 1, rst := { v.rst with coreEn := false },
         pwr := { v.pwr with seek3 := none, entering := false, ckpt := true, wrapKey := v.nextKey, selfRef := true, grace := true, gated := [] } }) ∧
     (∀ old u, s.pwr.seek3 = some old → u = ({ (s.setOv O.pstate_target old).pstateResult 2 with pwr := { s.pwr with seek3 := none, entering := false } } : State) →
       (s.pwr.entering = false → exec .p3IdleTimeout s = .next u) ∧ (s.pwr.entering = true → exec .wakeEvent s = .next u)) ∧
     (∀ fails u v, s.ov O.pstate = 3 → s.rst.coreGood = true → s.rst.coreEn = true →
       (s.pwr.ckpt = false → exec (.p3Exit fails) s = .next (s.assertSrc 3 false)) ∧
       (s.pwr.ckpt = true → u = ((s.bistFail (fails.filter (fun f => f.1 != 3))).applySparing.resetFunctions 0).resetFunctions 1 →
         v = (u.setOv O.pstate (min (u.ov O.pstate_target) 1)).setOv O.arith_div u.govDiv →
         exec (.p3Exit fails) s = .next { v with pwr := { v.pwr with ckpt := false, wrapKey := 0, selfRef := false } })) ∧
     (s.ov O.pstate ≠ 3 → exec .p3LinkGraceEnd s = .next { s with pwr := { s.pwr with grace := false } })) ∧
  (∀ (s : State),
     (∀ ts u h, u = (List.range (ts.take 72).length).foldl (fun t i => t.setOv O.temp ((ts.take 72).getD i 0) 0 i) s →
       h = hotSpot ((List.range 71).map (fun i => u.ov O.temp 0 (i + 1))) 1 (0, u.ov O.temp 0 0) → ∀ v, v = (u.setOv O.temp_max h.2).setOv O.temp_max_sensor h.1 →
       exec (.thermalSample ts) s = .next (if f32Lt (v.ov O.temp_peak) h.2 = true then v.setOv O.temp_peak h.2 else v)) ∧
     exec .thermtrip s = .next { s with rst := { s.rst with thermtrip := true } } ∧
     (∀ rails (p : Nat) b u, p = (rails.map (·.2)).foldl (· + ·) 0 → b = min 12000000000 (s.pwr.bucket + (780000 - (p : Int))) →
       u = s.bump O.pmbus_fallbacks 0 0 (rails.filter (fun r => !r.1)).length →
       exec (.energyBucketUpdate rails) s = .next { (u.setOv O.power_w (f32Of p 1000)).setOv O.bucket_j (f32Of b 1000000) with pwr := { u.pwr with bucket := b, mw := p } }) ∧
     (∀ l hot limit up down, l = s.ov O.gov_level → hot = f32 (s.ov O.temp_max) → limit = f32 (s.ov O.hot_limit) →
       up = (decide (s.pwr.bucket ≤ 0) || !(hot.lt? limit).getD false || decide (1050000 < s.pwr.mw)) →
       down = (decide ((s.ov O.gov_release : Int) * 1000000 ≤ s.pwr.bucket) && !((limit.lt? (Val.add hot (.fin false 5 0))).getD true) &&
         decide (s.pwr.mw ≤ 1050000)) →
       (up = true → l < 10 → exec .governorTick s = .next (((s.setOv O.gov_level (l + 1)).bump O.gov_actions).event 0x70 0 0 noCtx 0)) ∧
       (up = false → down = true → 0 < l → exec .governorTick s = .next (((s.setOv O.gov_level (l - 1)).bump O.gov_actions).event 0x70 0 0 noCtx 0)) ∧
       (up = true ∧ l = 10 ∨ up = false ∧ (down = false ∨ l = 0) → exec .governorTick s = .next s)) ∧
     (∀ v u x, u = s.bump O.wear_bins 0 (8 * (v % 4) + tempBin (s.ov O.temp_max)) → x = u.setOv O.wear_used (u.wearUsed % 2 ^ 32) →
       ∀ y, y = ({ x with pwr := { x.pwr with wearSecs := x.pwr.wearSecs + 1 } } : State) →
       exec (.wearLedgerTick v) s = .next (if x.pwr.wearSecs + 1 = 3600 then y.saveWear else y))) ∧
  (∀ (s : State),
     (∀ n < 2, exec (.pllLockLoss n) s = .next (if s.ov O.root_sel = n then (s.pllUnlock n).switchRoot false else s.pllUnlock n)) ∧
     (∀ n < 2, exec (.pllEdgeLoss n) s = .next (if s.ov O.root_sel = n then (s.pllUnlock n).switchRoot true else s.pllUnlock n)) ∧
     ((s.ov O.pll_lock).testBit (1 - s.ov O.root_sel % 2) = true → exec .rootCmd s = .next (s.switchRoot false)) ∧
     (∀ n < 4, exec (.srefLoss n) s = .next (((List.range 24).filter (fun p => s.srefOf p == n)).foldl State.moveSref (s.setOv O.sref_state 1 0 n))) ∧
     (∀ n, 4 ≤ n → n < 6 → exec (.srefLoss n) s = .next (s.setOv O.sref_state 1 0 n)) ∧
     (∀ n, exec (.pcieRefclkLoss n) s = .next (s.pcieLost n).leaseCheck) ∧
     (s.ov O.arith_div ≠ 0 → s.ov O.arith_div < s.govDiv → exec .arithDivStep s = .next (s.setOv O.arith_div (s.ov O.arith_div + 1))) ∧
     (s.govDiv < s.ov O.arith_div → exec .arithDivStep s = .next (s.setOv O.arith_div (s.ov O.arith_div - 1))) ∧
     (s.ov O.fc_state ≠ 1 → s.ov O.fc_count ≠ 0 → exec .fcStart s = .next (s.setOv O.fc_state 1)) ∧
     (s.ov O.fc_state ≠ 1 → s.ov O.fc_count = 0 → exec .fcStart s = .next (s.setOv O.fc_result (2 ^ 63))) ∧
     (∀ n, s.ov O.fc_state = 1 → exec (.fcDone n false) s = .next ((s.setOv O.fc_result (n % 2 ^ 48)).setOv O.fc_state 0) ∧
       exec (.fcDone n true) s = .next ((s.setOv O.fc_result (2 ^ 62)).setOv O.fc_state 0)))

/-- R598, R604, R688-R690, R698. The supplies and pins of the board: each rise and release ends the source it held, the falls of the DRAM rail keep or
lose the checkpoint, a port trains with flits or falls, and a Keeper that stays silent in its ROM goes dark. R431, R533, R677. Writes of the direct
window, each a wake event: a fault ring's head moves by its own port and within what is pending, a notification head by its function's context unless
the port wants IDE, and the mailbox's length and buffer take what is written, which clears its ready bit. -/
def Obligations.BoardAndWindowWrites : Prop :=
  (∀ (s : State) (n : Nat), n < 2 →
     (∀ straps, s.rst.aon = false → exec (.pwrgoodAonRise straps) s = .next (State.releaseSrc
       { s.setOv O.osc_dly (straps % 8) with rst := { s.rst with aon := true, dramEn := true, oscDone := false } } 0)) ∧
     (∀ u, u = (if s.rst.reach = 3 then s.powerDimms else s) → exec .pwrgoodDramRise s = .next { u with rst := { s.rst with
       dramGood := true, coreEn := s.rst.coreEn || (s.rst.dramEn && s.ov O.pstate != 3) } }) ∧
     exec .pwrgoodCoreRise s = .next (State.releaseSrc { s with rst := { s.rst with coreGood := true } } 3) ∧
     (s.ov O.pstate ≠ 3 → exec .pwrgoodDramFall s = .next { s with rst := { s.rst with dramGood := false } }) ∧
     (s.ov O.pstate = 3 → exec .pwrgoodDramFall s =
       .next { s with rst := { s.rst with dramGood := false }, pwr := { s.pwr with ckpt := false, wrapKey := 0 } }) ∧
     exec .rstNRelease s = .next { s with rst := { s.rst with asserted := clrBit s.rst.asserted 4 } } ∧
     exec .dbgReqNRelease s = .next { s with rst := { s.rst with asserted := clrBit s.rst.asserted 5 } } ∧
     (∀ rate width, s.rst.coreGood = true → exec (.pcieLinkTraining n true rate width) s =
       .next (s.setOv O.pcie_link (2 ^ 15 + rate % 16 * 2 ^ 8 + width % 32) 0 n).leaseCheck) ∧
     (∀ rate width, s.rst.coreGood = true → exec (.pcieLinkTraining n false rate width) s = .next ((s.bump O.pcie_noflit 0 n).pcieDown n).leaseCheck) ∧
     (s.rst.roms.testBit n = true → exec (.keeperHeartbeatTimeout n) s =
       .next { s.setKeeper n 2 with rst := { s.rst with roms := clrBit s.rst.roms n } }) ∧
     (s.rst.roms.testBit n = false → exec (.keeperHeartbeatTimeout n) s = .next s) ∧
     exec (.mgmtLinkDown n) s = .next { s.event 0x13 3 n noCtx 0 with ll := { s.ll with mgmtDown := setBit s.ll.mgmtDown n } }) ∧
  (∀ (s u : State) (p : Nat), p < 2 → u = s.wake →
     (∀ r v, r < 8 → u.ov O.fr_port r = p → (v % 65536 + 65536 - u.ov O.fr_head r) % 65536 ≤ (u.ov O.fr_tail r + 65536 - u.ov O.fr_head r) % 65536 →
       exec (.frHeadWrite p r v) s = .next (u.setOv O.fr_head (v % 65536) r)) ∧
     (∀ r v, u.ov O.fr_port r ≠ p ∨ (u.ov O.fr_tail r + 65536 - u.ov O.fr_head r) % 65536 < (v % 65536 + 65536 - u.ov O.fr_head r) % 65536 →
       exec (.frHeadWrite p r v) s = .next u) ∧
     (∀ vf c v keyed, u.vfCtx p vf = some c → u.ideRefuses c keyed = false →
       exec (.ntfHeadWrite p vf v keyed) s = .next (u.setCtx c { u.ctx c with ntfHead := v % 65536 })) ∧
     (∀ vf c v keyed, u.vfCtx p vf = some c → u.ideRefuses c keyed = true → exec (.ntfHeadWrite p vf v keyed) s = .next (u.bump O.ide_rejects 0 p)) ∧
     (∀ w, w.off = 0x1008 → exec (.mbBufWrite p w) s = .next (u.setBox p { u.box p with ready := false, reqLen := leNat (slice 0 4 w.val) })) ∧
     (∀ w, 0x1040 ≤ w.off → w.off < 0x2000 →
       exec (.mbBufWrite p w) s = .next (u.setBox p { u.box p with ready := false, buf := splice (w.off - 0x1040) w.val (u.box p).buf })))

/-- R656, R663-R667, R673, R674. A message of a session that acts for a principal is carried out and answered on its session while a Keeper serves;
while none does it waits, a repeated LLP message once and a ninth of a session answered BUSY. Its items are carried out in order: one that a check
stops ends with that check's status and changes nothing, any other reads, writes, takes a block, or changes a subscription. Which failure an item of
the wrong form has is the model's reading (log 63). R661, R662. The lease: HOST0, HOST1 and FABRIC may take it while it is free, lapsed or theirs,
renew and release it while they hold it, and are refused else; every other session is refused by role. An expiry frees it. R654, R677, R678, R680,
R681. The other routes: a mailbox submits once, a wake event, of a length it may have, and its answer is ready when the message is done, an
acknowledgement having none; a fifth message of an agent on MGT is answered BUSY; what waited for the flash is there. That messages are answered in
their own command while a Keeper serves is the model's choice (log 67). -/
def Obligations.LightListAndLease : Prop :=
  (∀ (s : State) (n msg port : Nat) (l : List LlItem) (k z : Vouch) (f : Nat → List LlItem → Vouch → State) (mine : List LlWait),
     s.principal n ≠ 0 → 32 ≤ n ∨ s.rst.recovery = false → z = ⟨false, false, false, false⟩ → mine = s.ll.waits.filter (fun w => w.sess == n) →
     (∀ op l k, f op l k = (if s.llReady = true then (s.carry n port op l k).2.answerTo n msg port (s.carry n port op l k).1
       else if n < 32 ∧ mine.any (fun w => w.msg == msg) = true then s
       else if 8 ≤ mine.length then s.answerTo n msg port (msgHead op 8 0)
       else { s with ll := { s.ll with waits := s.ll.waits ++ [⟨n, msg, port, op, l, k, false⟩] } })) →
     exec (.llRead n msg port l) s = .next (f 1 l z) ∧ exec (.llWrite n msg port l k) s = .next (f 2 l k) ∧
     exec (.llReadBlock n msg port l) s = .next (f 3 l z) ∧ exec (.llWriteBlock n msg port l k) s = .next (f 4 l k) ∧
     exec (.llSubscribe n msg port l) s = .next (f 5 l z) ∧ exec (.llUnsubscribe n msg port l) s = .next (f 6 l z) ∧
     exec (.llPing n msg port) s = .next (f 7 [] z) ∧
     (∀ op u c q, u = (if s.holds (s.principal n) = true ∧ writesDevice op l = true then s.renewLease else s) →
       c = ⟨n, s.holds (s.principal n), decide (64 ≤ n) && (s.agent (n - 64)).frozen, decide (64 ≤ n) && s.nodeAt port, k⟩ → q = u.items c op l →
       s.carry n port op l k = (if routeLimit n < 8 + q.1.length then msgHead op 0xA 0 else msgHead op 0 l.length ++ q.1, q.2)) ∧
     (∀ c op x t q, q = s.item c op x → s.items c op (x :: t) = (itemBytes op x q.1 q.2.1 ++ (q.2.2.items c op t).1, (q.2.2.items c op t).2)) ∧
     (∀ c op x e, resolve x.scope x.index x.sub = .error e → s.item c op x = (e, [], s)) ∧
     (∀ c op x r, resolve x.scope x.index x.sub = .ok r →
       (s.stops c op r x ≠ 0 → s.item c op x = (s.stops c op r x, [], s)) ∧
       (s.stops c 1 r x = 0 → s.item c 1 x = (0, (s.readObj c.sess r).1, (s.readObj c.sess r).2)) ∧
       (s.stops c 2 r x = 0 → s.item c 2 x = ((s.writeObj c.sess r x.val c.vouch).1, [], (s.writeObj c.sess r x.val c.vouch).2)) ∧
       (s.stops c 3 r x = 0 → s.item c 3 x = s.readBlock c.sess r x) ∧
       (s.stops c 4 r x = 0 → s.item c 4 x = ((s.writeBlock c r x).1, [], (s.writeBlock c r x).2)) ∧
       (s.stops c 5 r x = 0 → s.item c 5 x = ((s.subscribe c.sess r x).1, [], (s.subscribe c.sess r x).2)) ∧
       (s.stops c 6 r x = 0 → s.item c 6 x = (0, [], s.unsubscribe c.sess x)))) ∧
  (∀ (s : State) (n who : Nat), who = s.principal n →
     (who < 3 ∨ 5 < who → exec (.leaseAcquire n) s = .next (s.setOv O.lease_result 3 n) ∧ exec (.leaseRenew n) s = .next (s.setOv O.lease_result 3 n) ∧
       exec (.leaseRelease n) s = .next (s.setOv O.lease_result 3 n)) ∧
     (3 ≤ who → who ≤ 5 →
       (s.ov O.lease_holder = 0 ∨ s.ov O.lease_holder = who ∨ s.ll.leaseAt + s.leaseTicks ≤ s.ltc →
         exec (.leaseAcquire n) s = .next ((s.setOv O.lease_holder who).renewLease.setOv O.lease_result 0 n)) ∧
       (s.ov O.lease_holder ≠ 0 → s.ov O.lease_holder ≠ who → s.ltc < s.ll.leaseAt + s.leaseTicks →
         exec (.leaseAcquire n) s = .next (s.setOv O.lease_result 1 n) ∧ exec (.leaseRenew n) s = .next (s.setOv O.lease_result 2 n) ∧
         exec (.leaseRelease n) s = .next (s.setOv O.lease_result 2 n)) ∧
       (s.ov O.lease_holder = who → s.ltc < s.ll.leaseAt + s.leaseTicks →
         exec (.leaseRenew n) s = .next (s.renewLease.setOv O.lease_result 0 n) ∧
         exec (.leaseRelease n) s = .next ((s.setOv O.lease_holder 0).setOv O.lease_result 0 n))) ∧
     exec .leaseExpire s = .next (s.setOv O.lease_holder 0)) ∧
  (∀ (s w : State) (p : Nat) (x : Mbox) (k : Vouch), w = s.wake → x = w.box p → p < 2 →
     (∀ v, v ≠ 1 ∨ x.busy = true → exec (.mbCmd p v k) s = .next w) ∧
     (∀ u, x.busy = false → u = w.setBox p { x with busy := true } →
       (x.reqLen < 8 ∨ 4032 < x.reqLen → exec (.mbCmd p 1 k) s = .next (u.boxAnswer p (msgHead 0 0xA 0))) ∧
       (8 ≤ x.reqLen → x.reqLen ≤ 4032 → ∀ v, v = u.message (32 + p) 0 0 (x.buf.take x.reqLen) k →
         exec (.mbCmd p 1 k) s = .next (if byteAt x.buf 0 = 9 then v.setBox p { v.box p with busy := false } else v))) ∧
     (∀ body, w.boxAnswer p body = State.setBox (w.emit (.mailbox p body)) p { x with
       busy := false, ready := true, ansLen := body.length, buf := splice 0 body x.buf }) ∧
     (∀ port tag agt len slots, port < 24 → agt < 4096 →
       ((s.ll.waits.filter (fun w => w.sess == 64 + agt)).length < 4 →
         exec (.llm port tag agt len slots k) s = .next (s.message (64 + agt) tag port ((slotBytes slots).take len) k)) ∧
       (4 ≤ (s.ll.waits.filter (fun w => w.sess == 64 + agt)).length →
         exec (.llm port tag agt len slots k) s = .next (s.llmAnswer agt tag port (msgHead (byteAt ((slotBytes slots).take len) 0) 8 0)))) ∧
     exec .nvFlashWriteDone s = .next { s with ll := { s.ll with nv := [] } })

/-- R668-R674. LLP: a first hello is sent a cookie, one with its cookie the controller's part, a good finish opens a session; a datagram is taken
once, its message answered again from memory when it is repeated and dropped when it is older than those kept; an acknowledgement and a resend settle
an event; silence ends a handshake and a session. The answer to a hello without a good cookie is the model's reading (log 66). -/
def Obligations.LlpSessionsComplete : Prop :=
  ∀ (s : State) (a n : Nat) (body : Bytes) (k : Vouch) (h : LlHs) (x : LlSess), h = Tab.get LlHs.dflt s.ll.hs a → x = s.llSess n →
    (s.llReady = true → s.rst.recovery = false → 20 ≤ body.length → byteAt body 0 = 1 →
      (∀ q, slice 4 16 body = zeros 16 → q = s.freeBytes 16 →
        exec (.ssHello a body) s = .next ((q.2.setHs a { LlHs.dflt with cookie := q.1, cookieAt := q.2.ltc, step := 1, startAt := q.2.ltc }).llpHs a 2 q.1)) ∧
      (∀ c q ct cf certs reply sig, slice 4 16 body ≠ zeros 16 → h.step ≠ 0 → slice 4 16 body = h.cookie → s.ltc ≤ h.cookieAt + usTicks 10000000 →
        body.length = 1652 → s.clientOf (slice 20 32 body) = some c → (s.ll.sess.filter (fun p => decide (p.1 < 32))).length < 32 →
        q = s.freeBytes 32 → ct = q.2.freeBytes 1568 → cf = ct.2.freeBelow (2 ^ 256) → certs = idCert ++ cf.2.akCert →
        reply = q.1 ++ ct.1 ++ natLe 4 certs.length ++ certs → sig = cf.2.sign 49856 (sha body) →
        exec (.ssHello a body) s = .next ((cf.2.setHs a { h with
          step := 3, client := c, digest := slice 20 32 body, tr := body ++ reply ++ sig, conf := cf.1, startAt := s.ltc }).llpHs a 3 (reply ++ sig))) ∧
      (slice 4 16 body ≠ zeros 16 → slice 4 16 body ≠ h.cookie → exec (.ssHello a body) s = .next (s.llpRefuse a 6))) ∧
    (h.step = 3 → body.length = 29892 → byteAt body 0 = 4 → sha (slice 4 64 body) = h.digest → s.clientOf h.digest = some h.client →
      (∀ i, k.sig = true → k.conf = true → s.freeLlSess = some i → exec (.ssFinish a body k) s = .next (s.ssUp a i h)) ∧
      (k.sig = false → exec (.ssFinish a body k) s = .next (s.llpRefuse a 3)) ∧
      (k.sig = true → k.conf = false → exec (.ssFinish a body k) s = .next (s.llpRefuse a 4))) ∧
    (h.step = 3 → exec (.llpHandshakeTimeout a) s = .next ((s.dropHs a).bump O.llp_hs_failures)) ∧
    (∀ u, n < 32 → x.who ≠ 0 → u = (s.dropCopies (· == n)).setLlSess n LlSess.dflt → exec (.llpIdleTimeout n) s =
      .next (((u.setOv O.llp_sessions (u.ll.sess.filter (fun p => decide (p.1 < 32))).length).setOct O.llp_session_info (zeros 16) 0 n).leaseCheck)) ∧
    (∀ ctr msg mg, exec (.llpDatagram n ctr msg mg false body k) s = .next s) ∧
    (∀ ctr msg mg, n < 32 → x.who ≠ 0 →
      (x.seen.contains ctr = true ∨ ctr + 1024 < x.high → exec (.llpDatagram n ctr msg mg true body k) s = .next (s.bump O.llp_replays)) ∧
      (x.seen.contains ctr = false → x.high ≤ ctr + 1024 → ∀ u v, u = s.setLlSess n { x with
          high := max x.high ctr, seen := (x.seen ++ [ctr]).filter (fun c => decide (max x.high ctr ≤ c + 1024)), lastAt := s.ltc } →
        v = ({ u with ll := { u.ll with mgmtDown := clrBit u.ll.mgmtDown (mg % 2) } } : State) → byteAt body 0 ≠ 9 →
        (∀ p, x.answers.find? (fun p => p.1 == msg) = some p → exec (.llpDatagram n ctr msg mg true body k) s = .next (v.llpSend n msg false p.2)) ∧
        (x.answers.find? (fun p => p.1 == msg) = none → x.answers.length < 64 →
          exec (.llpDatagram n ctr msg mg true body k) s = .next (v.message n msg 0 body k)) ∧
        (x.answers.find? (fun p => p.1 == msg) = none → x.answers.length = 64 → x.answers.all (fun p => decide (msg < p.1)) = true →
          exec (.llpDatagram n ctr msg mg true body k) s = .next v))) ∧
    (∀ msg, exec (.llAck n msg) s = .next (s.setLlSess n { x with subs := x.subs.map (fun u => if u.msg = some msg then { u with msg := none } else u) })) ∧
    (n < 32 → x.who ≠ 0 → exec (.subscriptionCheck n) s = .next ((List.range x.subs.length).foldl (fun t i => t.checkSub n i) s)) ∧
    (∀ msg i u, n < 32 → x.subs.findIdx? (fun u => u.msg == some msg) = some i → x.subs[i]? = some u →
      exec (.eventResend n msg) s = .next (s.sendEvent n i msg u))
end

