-- ==== Sys2Proof/Laws/State.lean ====
section
/-! SUPPORT. Sys2Proof/Laws/State.lean: what each elementary update of the state leaves as it was: one lemma per field and update, and one
per reading, each true by definition. -/

namespace Sys2Proof.Machine

open Sys2Proof

/-! ### `State.setOv` writes `objs` -/

@[simp] theorem State.setOv_pending (s : State) (o : Obj) (v : Nat) (a : Nat) (b : Nat) : (s.setOv o v a b).pending = s.pending := rfl
@[simp] theorem State.setOv_ltc (s : State) (o : Obj) (v : Nat) (a : Nat) (b : Nat) : (s.setOv o v a b).ltc = s.ltc := rfl
@[simp] theorem State.setOv_freeCtr (s : State) (o : Obj) (v : Nat) (a : Nat) (b : Nat) : (s.setOv o v a b).freeCtr = s.freeCtr := rfl
@[simp] theorem State.setOv_octs (s : State) (o : Obj) (v : Nat) (a : Nat) (b : Nat) : (s.setOv o v a b).octs = s.octs := rfl
@[simp] theorem State.setOv_mem (s : State) (o : Obj) (v : Nat) (a : Nat) (b : Nat) : (s.setOv o v a b).mem = s.mem := rfl
@[simp] theorem State.setOv_poison (s : State) (o : Obj) (v : Nat) (a : Nat) (b : Nat) : (s.setOv o v a b).poison = s.poison := rfl
@[simp] theorem State.setOv_chunkKey (s : State) (o : Obj) (v : Nat) (a : Nat) (b : Nat) : (s.setOv o v a b).chunkKey = s.chunkKey := rfl
@[simp] theorem State.setOv_dramBad (s : State) (o : Obj) (v : Nat) (a : Nat) (b : Nat) : (s.setOv o v a b).dramBad = s.dramBad := rfl
@[simp] theorem State.setOv_coh (s : State) (o : Obj) (v : Nat) (a : Nat) (b : Nat) : (s.setOv o v a b).coh = s.coh := rfl
@[simp] theorem State.setOv_chart (s : State) (o : Obj) (v : Nat) (a : Nat) (b : Nat) : (s.setOv o v a b).chart = s.chart := rfl
@[simp] theorem State.setOv_reqs (s : State) (o : Obj) (v : Nat) (a : Nat) (b : Nat) : (s.setOv o v a b).reqs = s.reqs := rfl
@[simp] theorem State.setOv_nextReq (s : State) (o : Obj) (v : Nat) (a : Nat) (b : Nat) : (s.setOv o v a b).nextReq = s.nextReq := rfl
@[simp] theorem State.setOv_cmps (s : State) (o : Obj) (v : Nat) (a : Nat) (b : Nat) : (s.setOv o v a b).cmps = s.cmps := rfl
@[simp] theorem State.setOv_frecs (s : State) (o : Obj) (v : Nat) (a : Nat) (b : Nat) : (s.setOv o v a b).frecs = s.frecs := rfl
@[simp] theorem State.setOv_ctxs (s : State) (o : Obj) (v : Nat) (a : Nat) (b : Nat) : (s.setOv o v a b).ctxs = s.ctxs := rfl
@[simp] theorem State.setOv_pol (s : State) (o : Obj) (v : Nat) (a : Nat) (b : Nat) : (s.setOv o v a b).pol = s.pol := rfl
@[simp] theorem State.setOv_agents (s : State) (o : Obj) (v : Nat) (a : Nat) (b : Nat) : (s.setOv o v a b).agents = s.agents := rfl
@[simp] theorem State.setOv_slices (s : State) (o : Obj) (v : Nat) (a : Nat) (b : Nat) : (s.setOv o v a b).slices = s.slices := rfl
@[simp] theorem State.setOv_txq (s : State) (o : Obj) (v : Nat) (a : Nat) (b : Nat) : (s.setOv o v a b).txq = s.txq := rfl
@[simp] theorem State.setOv_out (s : State) (o : Obj) (v : Nat) (a : Nat) (b : Nat) : (s.setOv o v a b).out = s.out := rfl
@[simp] theorem State.setOv_log (s : State) (o : Obj) (v : Nat) (a : Nat) (b : Nat) : (s.setOv o v a b).log = s.log := rfl
@[simp] theorem State.setOv_maps (s : State) (o : Obj) (v : Nat) (a : Nat) (b : Nat) : (s.setOv o v a b).maps = s.maps := rfl
@[simp] theorem State.setOv_migs (s : State) (o : Obj) (v : Nat) (a : Nat) (b : Nat) : (s.setOv o v a b).migs = s.migs := rfl
@[simp] theorem State.setOv_mwrs (s : State) (o : Obj) (v : Nat) (a : Nat) (b : Nat) : (s.setOv o v a b).mwrs = s.mwrs := rfl
@[simp] theorem State.setOv_xid (s : State) (o : Obj) (v : Nat) (a : Nat) (b : Nat) : (s.setOv o v a b).xid = s.xid := rfl
@[simp] theorem State.setOv_rates (s : State) (o : Obj) (v : Nat) (a : Nat) (b : Nat) : (s.setOv o v a b).rates = s.rates := rfl
@[simp] theorem State.setOv_drains (s : State) (o : Obj) (v : Nat) (a : Nat) (b : Nat) : (s.setOv o v a b).drains = s.drains := rfl
@[simp] theorem State.setOv_ecache (s : State) (o : Obj) (v : Nat) (a : Nat) (b : Nat) : (s.setOv o v a b).ecache = s.ecache := rfl
@[simp] theorem State.setOv_frMsi (s : State) (o : Obj) (v : Nat) (a : Nat) (b : Nat) : (s.setOv o v a b).frMsi = s.frMsi := rfl
@[simp] theorem State.setOv_epochNow (s : State) (o : Obj) (v : Nat) (a : Nat) (b : Nat) : (s.setOv o v a b).epochNow = s.epochNow := rfl
@[simp] theorem State.setOv_grantKey (s : State) (o : Obj) (v : Nat) (a : Nat) (b : Nat) : (s.setOv o v a b).grantKey = s.grantKey := rfl
@[simp] theorem State.setOv_jobs (s : State) (o : Obj) (v : Nat) (a : Nat) (b : Nat) : (s.setOv o v a b).jobs = s.jobs := rfl
@[simp] theorem State.setOv_tends (s : State) (o : Obj) (v : Nat) (a : Nat) (b : Nat) : (s.setOv o v a b).tends = s.tends := rfl
@[simp] theorem State.setOv_units (s : State) (o : Obj) (v : Nat) (a : Nat) (b : Nat) : (s.setOv o v a b).units = s.units := rfl
@[simp] theorem State.setOv_nextKey (s : State) (o : Obj) (v : Nat) (a : Nat) (b : Nat) : (s.setOv o v a b).nextKey = s.nextKey := rfl
@[simp] theorem State.setOv_pwr (s : State) (o : Obj) (v : Nat) (a : Nat) (b : Nat) : (s.setOv o v a b).pwr = s.pwr := rfl
@[simp] theorem State.setOv_dram (s : State) (o : Obj) (v : Nat) (a : Nat) (b : Nat) : (s.setOv o v a b).dram = s.dram := rfl
@[simp] theorem State.setOv_ces (s : State) (o : Obj) (v : Nat) (a : Nat) (b : Nat) : (s.setOv o v a b).ces = s.ces := rfl
@[simp] theorem State.setOv_scrub (s : State) (o : Obj) (v : Nat) (a : Nat) (b : Nat) : (s.setOv o v a b).scrub = s.scrub := rfl
@[simp] theorem State.setOv_pool (s : State) (o : Obj) (v : Nat) (a : Nat) (b : Nat) : (s.setOv o v a b).pool = s.pool := rfl
@[simp] theorem State.setOv_ports (s : State) (o : Obj) (v : Nat) (a : Nat) (b : Nat) : (s.setOv o v a b).ports = s.ports := rfl
@[simp] theorem State.setOv_lostPorts (s : State) (o : Obj) (v : Nat) (a : Nat) (b : Nat) : (s.setOv o v a b).lostPorts = s.lostPorts := rfl
@[simp] theorem State.setOv_sess (s : State) (o : Obj) (v : Nat) (a : Nat) (b : Nat) : (s.setOv o v a b).sess = s.sess := rfl
@[simp] theorem State.setOv_sec (s : State) (o : Obj) (v : Nat) (a : Nat) (b : Nat) : (s.setOv o v a b).sec = s.sec := rfl
@[simp] theorem State.setOv_rst (s : State) (o : Obj) (v : Nat) (a : Nat) (b : Nat) : (s.setOv o v a b).rst = s.rst := rfl
@[simp] theorem State.setOv_ll (s : State) (o : Obj) (v : Nat) (a : Nat) (b : Nat) : (s.setOv o v a b).ll = s.ll := rfl
@[simp] theorem State.setOv_read_oct (s : State) (o : Obj) (v : Nat) (a : Nat) (b : Nat) (ob : Obj) (k1 k2 : Nat) : (s.setOv o v a b).oct ob k1 k2 = s.oct ob k1 k2 := rfl
@[simp] theorem State.setOv_read_ctx (s : State) (o : Obj) (v : Nat) (a : Nat) (b : Nat) (k1 : Nat) : (s.setOv o v a b).ctx k1 = s.ctx k1 := rfl
@[simp] theorem State.setOv_read_agent (s : State) (o : Obj) (v : Nat) (a : Nat) (b : Nat) (k1 : Nat) : (s.setOv o v a b).agent k1 = s.agent k1 := rfl
@[simp] theorem State.setOv_read_slc (s : State) (o : Obj) (v : Nat) (a : Nat) (b : Nat) (k1 : Nat) : (s.setOv o v a b).slc k1 = s.slc k1 := rfl
@[simp] theorem State.setOv_read_dir (s : State) (o : Obj) (v : Nat) (a : Nat) (b : Nat) (k1 : Nat) : (s.setOv o v a b).dir k1 = s.dir k1 := rfl
@[simp] theorem State.setOv_read_ext (s : State) (o : Obj) (v : Nat) (a : Nat) (b : Nat) (k1 : Nat) : (s.setOv o v a b).ext k1 = s.ext k1 := rfl
@[simp] theorem State.setOv_read_frame (s : State) (o : Obj) (v : Nat) (a : Nat) (b : Nat) (k1 : Nat) : (s.setOv o v a b).frame k1 = s.frame k1 := rfl
@[simp] theorem State.setOv_read_entry (s : State) (o : Obj) (v : Nat) (a : Nat) (b : Nat) (k1 : Nat) : (s.setOv o v a b).entry k1 = s.entry k1 := rfl
@[simp] theorem State.setOv_read_lport (s : State) (o : Obj) (v : Nat) (a : Nat) (b : Nat) (k1 : Nat) : (s.setOv o v a b).lport k1 = s.lport k1 := rfl
@[simp] theorem State.setOv_read_session (s : State) (o : Obj) (v : Nat) (a : Nat) (b : Nat) (k1 : Nat) : (s.setOv o v a b).session k1 = s.session k1 := rfl

/-! ### `State.bump` writes `objs` -/

@[simp] theorem State.bump_pending (s : State) (o : Obj) (a : Nat) (b : Nat) (n : Nat) : (s.bump o a b n).pending = s.pending := rfl
@[simp] theorem State.bump_ltc (s : State) (o : Obj) (a : Nat) (b : Nat) (n : Nat) : (s.bump o a b n).ltc = s.ltc := rfl
@[simp] theorem State.bump_freeCtr (s : State) (o : Obj) (a : Nat) (b : Nat) (n : Nat) : (s.bump o a b n).freeCtr = s.freeCtr := rfl
@[simp] theorem State.bump_octs (s : State) (o : Obj) (a : Nat) (b : Nat) (n : Nat) : (s.bump o a b n).octs = s.octs := rfl
@[simp] theorem State.bump_mem (s : State) (o : Obj) (a : Nat) (b : Nat) (n : Nat) : (s.bump o a b n).mem = s.mem := rfl
@[simp] theorem State.bump_poison (s : State) (o : Obj) (a : Nat) (b : Nat) (n : Nat) : (s.bump o a b n).poison = s.poison := rfl
@[simp] theorem State.bump_chunkKey (s : State) (o : Obj) (a : Nat) (b : Nat) (n : Nat) : (s.bump o a b n).chunkKey = s.chunkKey := rfl
@[simp] theorem State.bump_dramBad (s : State) (o : Obj) (a : Nat) (b : Nat) (n : Nat) : (s.bump o a b n).dramBad = s.dramBad := rfl
@[simp] theorem State.bump_coh (s : State) (o : Obj) (a : Nat) (b : Nat) (n : Nat) : (s.bump o a b n).coh = s.coh := rfl
@[simp] theorem State.bump_chart (s : State) (o : Obj) (a : Nat) (b : Nat) (n : Nat) : (s.bump o a b n).chart = s.chart := rfl
@[simp] theorem State.bump_reqs (s : State) (o : Obj) (a : Nat) (b : Nat) (n : Nat) : (s.bump o a b n).reqs = s.reqs := rfl
@[simp] theorem State.bump_nextReq (s : State) (o : Obj) (a : Nat) (b : Nat) (n : Nat) : (s.bump o a b n).nextReq = s.nextReq := rfl
@[simp] theorem State.bump_cmps (s : State) (o : Obj) (a : Nat) (b : Nat) (n : Nat) : (s.bump o a b n).cmps = s.cmps := rfl
@[simp] theorem State.bump_frecs (s : State) (o : Obj) (a : Nat) (b : Nat) (n : Nat) : (s.bump o a b n).frecs = s.frecs := rfl
@[simp] theorem State.bump_ctxs (s : State) (o : Obj) (a : Nat) (b : Nat) (n : Nat) : (s.bump o a b n).ctxs = s.ctxs := rfl
@[simp] theorem State.bump_pol (s : State) (o : Obj) (a : Nat) (b : Nat) (n : Nat) : (s.bump o a b n).pol = s.pol := rfl
@[simp] theorem State.bump_agents (s : State) (o : Obj) (a : Nat) (b : Nat) (n : Nat) : (s.bump o a b n).agents = s.agents := rfl
@[simp] theorem State.bump_slices (s : State) (o : Obj) (a : Nat) (b : Nat) (n : Nat) : (s.bump o a b n).slices = s.slices := rfl
@[simp] theorem State.bump_txq (s : State) (o : Obj) (a : Nat) (b : Nat) (n : Nat) : (s.bump o a b n).txq = s.txq := rfl
@[simp] theorem State.bump_out (s : State) (o : Obj) (a : Nat) (b : Nat) (n : Nat) : (s.bump o a b n).out = s.out := rfl
@[simp] theorem State.bump_log (s : State) (o : Obj) (a : Nat) (b : Nat) (n : Nat) : (s.bump o a b n).log = s.log := rfl
@[simp] theorem State.bump_maps (s : State) (o : Obj) (a : Nat) (b : Nat) (n : Nat) : (s.bump o a b n).maps = s.maps := rfl
@[simp] theorem State.bump_migs (s : State) (o : Obj) (a : Nat) (b : Nat) (n : Nat) : (s.bump o a b n).migs = s.migs := rfl
@[simp] theorem State.bump_mwrs (s : State) (o : Obj) (a : Nat) (b : Nat) (n : Nat) : (s.bump o a b n).mwrs = s.mwrs := rfl
@[simp] theorem State.bump_xid (s : State) (o : Obj) (a : Nat) (b : Nat) (n : Nat) : (s.bump o a b n).xid = s.xid := rfl
@[simp] theorem State.bump_rates (s : State) (o : Obj) (a : Nat) (b : Nat) (n : Nat) : (s.bump o a b n).rates = s.rates := rfl
@[simp] theorem State.bump_drains (s : State) (o : Obj) (a : Nat) (b : Nat) (n : Nat) : (s.bump o a b n).drains = s.drains := rfl
@[simp] theorem State.bump_ecache (s : State) (o : Obj) (a : Nat) (b : Nat) (n : Nat) : (s.bump o a b n).ecache = s.ecache := rfl
@[simp] theorem State.bump_frMsi (s : State) (o : Obj) (a : Nat) (b : Nat) (n : Nat) : (s.bump o a b n).frMsi = s.frMsi := rfl
@[simp] theorem State.bump_epochNow (s : State) (o : Obj) (a : Nat) (b : Nat) (n : Nat) : (s.bump o a b n).epochNow = s.epochNow := rfl
@[simp] theorem State.bump_grantKey (s : State) (o : Obj) (a : Nat) (b : Nat) (n : Nat) : (s.bump o a b n).grantKey = s.grantKey := rfl
@[simp] theorem State.bump_jobs (s : State) (o : Obj) (a : Nat) (b : Nat) (n : Nat) : (s.bump o a b n).jobs = s.jobs := rfl
@[simp] theorem State.bump_tends (s : State) (o : Obj) (a : Nat) (b : Nat) (n : Nat) : (s.bump o a b n).tends = s.tends := rfl
@[simp] theorem State.bump_units (s : State) (o : Obj) (a : Nat) (b : Nat) (n : Nat) : (s.bump o a b n).units = s.units := rfl
@[simp] theorem State.bump_nextKey (s : State) (o : Obj) (a : Nat) (b : Nat) (n : Nat) : (s.bump o a b n).nextKey = s.nextKey := rfl
@[simp] theorem State.bump_pwr (s : State) (o : Obj) (a : Nat) (b : Nat) (n : Nat) : (s.bump o a b n).pwr = s.pwr := rfl
@[simp] theorem State.bump_dram (s : State) (o : Obj) (a : Nat) (b : Nat) (n : Nat) : (s.bump o a b n).dram = s.dram := rfl
@[simp] theorem State.bump_ces (s : State) (o : Obj) (a : Nat) (b : Nat) (n : Nat) : (s.bump o a b n).ces = s.ces := rfl
@[simp] theorem State.bump_scrub (s : State) (o : Obj) (a : Nat) (b : Nat) (n : Nat) : (s.bump o a b n).scrub = s.scrub := rfl
@[simp] theorem State.bump_pool (s : State) (o : Obj) (a : Nat) (b : Nat) (n : Nat) : (s.bump o a b n).pool = s.pool := rfl
@[simp] theorem State.bump_ports (s : State) (o : Obj) (a : Nat) (b : Nat) (n : Nat) : (s.bump o a b n).ports = s.ports := rfl
@[simp] theorem State.bump_lostPorts (s : State) (o : Obj) (a : Nat) (b : Nat) (n : Nat) : (s.bump o a b n).lostPorts = s.lostPorts := rfl
@[simp] theorem State.bump_sess (s : State) (o : Obj) (a : Nat) (b : Nat) (n : Nat) : (s.bump o a b n).sess = s.sess := rfl
@[simp] theorem State.bump_sec (s : State) (o : Obj) (a : Nat) (b : Nat) (n : Nat) : (s.bump o a b n).sec = s.sec := rfl
@[simp] theorem State.bump_rst (s : State) (o : Obj) (a : Nat) (b : Nat) (n : Nat) : (s.bump o a b n).rst = s.rst := rfl
@[simp] theorem State.bump_ll (s : State) (o : Obj) (a : Nat) (b : Nat) (n : Nat) : (s.bump o a b n).ll = s.ll := rfl
@[simp] theorem State.bump_read_oct (s : State) (o : Obj) (a : Nat) (b : Nat) (n : Nat) (ob : Obj) (k1 k2 : Nat) : (s.bump o a b n).oct ob k1 k2 = s.oct ob k1 k2 := rfl
@[simp] theorem State.bump_read_ctx (s : State) (o : Obj) (a : Nat) (b : Nat) (n : Nat) (k1 : Nat) : (s.bump o a b n).ctx k1 = s.ctx k1 := rfl
@[simp] theorem State.bump_read_agent (s : State) (o : Obj) (a : Nat) (b : Nat) (n : Nat) (k1 : Nat) : (s.bump o a b n).agent k1 = s.agent k1 := rfl
@[simp] theorem State.bump_read_slc (s : State) (o : Obj) (a : Nat) (b : Nat) (n : Nat) (k1 : Nat) : (s.bump o a b n).slc k1 = s.slc k1 := rfl
@[simp] theorem State.bump_read_dir (s : State) (o : Obj) (a : Nat) (b : Nat) (n : Nat) (k1 : Nat) : (s.bump o a b n).dir k1 = s.dir k1 := rfl
@[simp] theorem State.bump_read_ext (s : State) (o : Obj) (a : Nat) (b : Nat) (n : Nat) (k1 : Nat) : (s.bump o a b n).ext k1 = s.ext k1 := rfl
@[simp] theorem State.bump_read_frame (s : State) (o : Obj) (a : Nat) (b : Nat) (n : Nat) (k1 : Nat) : (s.bump o a b n).frame k1 = s.frame k1 := rfl
@[simp] theorem State.bump_read_entry (s : State) (o : Obj) (a : Nat) (b : Nat) (n : Nat) (k1 : Nat) : (s.bump o a b n).entry k1 = s.entry k1 := rfl
@[simp] theorem State.bump_read_lport (s : State) (o : Obj) (a : Nat) (b : Nat) (n : Nat) (k1 : Nat) : (s.bump o a b n).lport k1 = s.lport k1 := rfl
@[simp] theorem State.bump_read_session (s : State) (o : Obj) (a : Nat) (b : Nat) (n : Nat) (k1 : Nat) : (s.bump o a b n).session k1 = s.session k1 := rfl

/-! ### `State.setOct` writes `octs` -/

@[simp] theorem State.setOct_pending (s : State) (o : Obj) (v : Bytes) (a : Nat) (b : Nat) : (s.setOct o v a b).pending = s.pending := rfl
@[simp] theorem State.setOct_ltc (s : State) (o : Obj) (v : Bytes) (a : Nat) (b : Nat) : (s.setOct o v a b).ltc = s.ltc := rfl
@[simp] theorem State.setOct_freeCtr (s : State) (o : Obj) (v : Bytes) (a : Nat) (b : Nat) : (s.setOct o v a b).freeCtr = s.freeCtr := rfl
@[simp] theorem State.setOct_objs (s : State) (o : Obj) (v : Bytes) (a : Nat) (b : Nat) : (s.setOct o v a b).objs = s.objs := rfl
@[simp] theorem State.setOct_mem (s : State) (o : Obj) (v : Bytes) (a : Nat) (b : Nat) : (s.setOct o v a b).mem = s.mem := rfl
@[simp] theorem State.setOct_poison (s : State) (o : Obj) (v : Bytes) (a : Nat) (b : Nat) : (s.setOct o v a b).poison = s.poison := rfl
@[simp] theorem State.setOct_chunkKey (s : State) (o : Obj) (v : Bytes) (a : Nat) (b : Nat) : (s.setOct o v a b).chunkKey = s.chunkKey := rfl
@[simp] theorem State.setOct_dramBad (s : State) (o : Obj) (v : Bytes) (a : Nat) (b : Nat) : (s.setOct o v a b).dramBad = s.dramBad := rfl
@[simp] theorem State.setOct_coh (s : State) (o : Obj) (v : Bytes) (a : Nat) (b : Nat) : (s.setOct o v a b).coh = s.coh := rfl
@[simp] theorem State.setOct_chart (s : State) (o : Obj) (v : Bytes) (a : Nat) (b : Nat) : (s.setOct o v a b).chart = s.chart := rfl
@[simp] theorem State.setOct_reqs (s : State) (o : Obj) (v : Bytes) (a : Nat) (b : Nat) : (s.setOct o v a b).reqs = s.reqs := rfl
@[simp] theorem State.setOct_nextReq (s : State) (o : Obj) (v : Bytes) (a : Nat) (b : Nat) : (s.setOct o v a b).nextReq = s.nextReq := rfl
@[simp] theorem State.setOct_cmps (s : State) (o : Obj) (v : Bytes) (a : Nat) (b : Nat) : (s.setOct o v a b).cmps = s.cmps := rfl
@[simp] theorem State.setOct_frecs (s : State) (o : Obj) (v : Bytes) (a : Nat) (b : Nat) : (s.setOct o v a b).frecs = s.frecs := rfl
@[simp] theorem State.setOct_ctxs (s : State) (o : Obj) (v : Bytes) (a : Nat) (b : Nat) : (s.setOct o v a b).ctxs = s.ctxs := rfl
@[simp] theorem State.setOct_pol (s : State) (o : Obj) (v : Bytes) (a : Nat) (b : Nat) : (s.setOct o v a b).pol = s.pol := rfl
@[simp] theorem State.setOct_agents (s : State) (o : Obj) (v : Bytes) (a : Nat) (b : Nat) : (s.setOct o v a b).agents = s.agents := rfl
@[simp] theorem State.setOct_slices (s : State) (o : Obj) (v : Bytes) (a : Nat) (b : Nat) : (s.setOct o v a b).slices = s.slices := rfl
@[simp] theorem State.setOct_txq (s : State) (o : Obj) (v : Bytes) (a : Nat) (b : Nat) : (s.setOct o v a b).txq = s.txq := rfl
@[simp] theorem State.setOct_out (s : State) (o : Obj) (v : Bytes) (a : Nat) (b : Nat) : (s.setOct o v a b).out = s.out := rfl
@[simp] theorem State.setOct_log (s : State) (o : Obj) (v : Bytes) (a : Nat) (b : Nat) : (s.setOct o v a b).log = s.log := rfl
@[simp] theorem State.setOct_maps (s : State) (o : Obj) (v : Bytes) (a : Nat) (b : Nat) : (s.setOct o v a b).maps = s.maps := rfl
@[simp] theorem State.setOct_migs (s : State) (o : Obj) (v : Bytes) (a : Nat) (b : Nat) : (s.setOct o v a b).migs = s.migs := rfl
@[simp] theorem State.setOct_mwrs (s : State) (o : Obj) (v : Bytes) (a : Nat) (b : Nat) : (s.setOct o v a b).mwrs = s.mwrs := rfl
@[simp] theorem State.setOct_xid (s : State) (o : Obj) (v : Bytes) (a : Nat) (b : Nat) : (s.setOct o v a b).xid = s.xid := rfl
@[simp] theorem State.setOct_rates (s : State) (o : Obj) (v : Bytes) (a : Nat) (b : Nat) : (s.setOct o v a b).rates = s.rates := rfl
@[simp] theorem State.setOct_drains (s : State) (o : Obj) (v : Bytes) (a : Nat) (b : Nat) : (s.setOct o v a b).drains = s.drains := rfl
@[simp] theorem State.setOct_ecache (s : State) (o : Obj) (v : Bytes) (a : Nat) (b : Nat) : (s.setOct o v a b).ecache = s.ecache := rfl
@[simp] theorem State.setOct_frMsi (s : State) (o : Obj) (v : Bytes) (a : Nat) (b : Nat) : (s.setOct o v a b).frMsi = s.frMsi := rfl
@[simp] theorem State.setOct_epochNow (s : State) (o : Obj) (v : Bytes) (a : Nat) (b : Nat) : (s.setOct o v a b).epochNow = s.epochNow := rfl
@[simp] theorem State.setOct_grantKey (s : State) (o : Obj) (v : Bytes) (a : Nat) (b : Nat) : (s.setOct o v a b).grantKey = s.grantKey := rfl
@[simp] theorem State.setOct_jobs (s : State) (o : Obj) (v : Bytes) (a : Nat) (b : Nat) : (s.setOct o v a b).jobs = s.jobs := rfl
@[simp] theorem State.setOct_tends (s : State) (o : Obj) (v : Bytes) (a : Nat) (b : Nat) : (s.setOct o v a b).tends = s.tends := rfl
@[simp] theorem State.setOct_units (s : State) (o : Obj) (v : Bytes) (a : Nat) (b : Nat) : (s.setOct o v a b).units = s.units := rfl
@[simp] theorem State.setOct_nextKey (s : State) (o : Obj) (v : Bytes) (a : Nat) (b : Nat) : (s.setOct o v a b).nextKey = s.nextKey := rfl
@[simp] theorem State.setOct_pwr (s : State) (o : Obj) (v : Bytes) (a : Nat) (b : Nat) : (s.setOct o v a b).pwr = s.pwr := rfl
@[simp] theorem State.setOct_dram (s : State) (o : Obj) (v : Bytes) (a : Nat) (b : Nat) : (s.setOct o v a b).dram = s.dram := rfl
@[simp] theorem State.setOct_ces (s : State) (o : Obj) (v : Bytes) (a : Nat) (b : Nat) : (s.setOct o v a b).ces = s.ces := rfl
@[simp] theorem State.setOct_scrub (s : State) (o : Obj) (v : Bytes) (a : Nat) (b : Nat) : (s.setOct o v a b).scrub = s.scrub := rfl
@[simp] theorem State.setOct_pool (s : State) (o : Obj) (v : Bytes) (a : Nat) (b : Nat) : (s.setOct o v a b).pool = s.pool := rfl
@[simp] theorem State.setOct_ports (s : State) (o : Obj) (v : Bytes) (a : Nat) (b : Nat) : (s.setOct o v a b).ports = s.ports := rfl
@[simp] theorem State.setOct_lostPorts (s : State) (o : Obj) (v : Bytes) (a : Nat) (b : Nat) : (s.setOct o v a b).lostPorts = s.lostPorts := rfl
@[simp] theorem State.setOct_sess (s : State) (o : Obj) (v : Bytes) (a : Nat) (b : Nat) : (s.setOct o v a b).sess = s.sess := rfl
@[simp] theorem State.setOct_sec (s : State) (o : Obj) (v : Bytes) (a : Nat) (b : Nat) : (s.setOct o v a b).sec = s.sec := rfl
@[simp] theorem State.setOct_rst (s : State) (o : Obj) (v : Bytes) (a : Nat) (b : Nat) : (s.setOct o v a b).rst = s.rst := rfl
@[simp] theorem State.setOct_ll (s : State) (o : Obj) (v : Bytes) (a : Nat) (b : Nat) : (s.setOct o v a b).ll = s.ll := rfl
@[simp] theorem State.setOct_read_ov (s : State) (o : Obj) (v : Bytes) (a : Nat) (b : Nat) (ob : Obj) (k1 k2 : Nat) : (s.setOct o v a b).ov ob k1 k2 = s.ov ob k1 k2 := rfl
@[simp] theorem State.setOct_read_ctx (s : State) (o : Obj) (v : Bytes) (a : Nat) (b : Nat) (k1 : Nat) : (s.setOct o v a b).ctx k1 = s.ctx k1 := rfl
@[simp] theorem State.setOct_read_agent (s : State) (o : Obj) (v : Bytes) (a : Nat) (b : Nat) (k1 : Nat) : (s.setOct o v a b).agent k1 = s.agent k1 := rfl
@[simp] theorem State.setOct_read_slc (s : State) (o : Obj) (v : Bytes) (a : Nat) (b : Nat) (k1 : Nat) : (s.setOct o v a b).slc k1 = s.slc k1 := rfl
@[simp] theorem State.setOct_read_dir (s : State) (o : Obj) (v : Bytes) (a : Nat) (b : Nat) (k1 : Nat) : (s.setOct o v a b).dir k1 = s.dir k1 := rfl
@[simp] theorem State.setOct_read_ext (s : State) (o : Obj) (v : Bytes) (a : Nat) (b : Nat) (k1 : Nat) : (s.setOct o v a b).ext k1 = s.ext k1 := rfl
@[simp] theorem State.setOct_read_frame (s : State) (o : Obj) (v : Bytes) (a : Nat) (b : Nat) (k1 : Nat) : (s.setOct o v a b).frame k1 = s.frame k1 := rfl
@[simp] theorem State.setOct_read_entry (s : State) (o : Obj) (v : Bytes) (a : Nat) (b : Nat) (k1 : Nat) : (s.setOct o v a b).entry k1 = s.entry k1 := rfl
@[simp] theorem State.setOct_read_lport (s : State) (o : Obj) (v : Bytes) (a : Nat) (b : Nat) (k1 : Nat) : (s.setOct o v a b).lport k1 = s.lport k1 := rfl
@[simp] theorem State.setOct_read_session (s : State) (o : Obj) (v : Bytes) (a : Nat) (b : Nat) (k1 : Nat) : (s.setOct o v a b).session k1 = s.session k1 := rfl

/-! ### `State.clockTick` writes `ltc` -/

@[simp] theorem State.clockTick_pending (s : State) : (s.clockTick).pending = s.pending := rfl
@[simp] theorem State.clockTick_freeCtr (s : State) : (s.clockTick).freeCtr = s.freeCtr := rfl
@[simp] theorem State.clockTick_objs (s : State) : (s.clockTick).objs = s.objs := rfl
@[simp] theorem State.clockTick_octs (s : State) : (s.clockTick).octs = s.octs := rfl
@[simp] theorem State.clockTick_mem (s : State) : (s.clockTick).mem = s.mem := rfl
@[simp] theorem State.clockTick_poison (s : State) : (s.clockTick).poison = s.poison := rfl
@[simp] theorem State.clockTick_chunkKey (s : State) : (s.clockTick).chunkKey = s.chunkKey := rfl
@[simp] theorem State.clockTick_dramBad (s : State) : (s.clockTick).dramBad = s.dramBad := rfl
@[simp] theorem State.clockTick_coh (s : State) : (s.clockTick).coh = s.coh := rfl
@[simp] theorem State.clockTick_chart (s : State) : (s.clockTick).chart = s.chart := rfl
@[simp] theorem State.clockTick_reqs (s : State) : (s.clockTick).reqs = s.reqs := rfl
@[simp] theorem State.clockTick_nextReq (s : State) : (s.clockTick).nextReq = s.nextReq := rfl
@[simp] theorem State.clockTick_cmps (s : State) : (s.clockTick).cmps = s.cmps := rfl
@[simp] theorem State.clockTick_frecs (s : State) : (s.clockTick).frecs = s.frecs := rfl
@[simp] theorem State.clockTick_ctxs (s : State) : (s.clockTick).ctxs = s.ctxs := rfl
@[simp] theorem State.clockTick_pol (s : State) : (s.clockTick).pol = s.pol := rfl
@[simp] theorem State.clockTick_agents (s : State) : (s.clockTick).agents = s.agents := rfl
@[simp] theorem State.clockTick_slices (s : State) : (s.clockTick).slices = s.slices := rfl
@[simp] theorem State.clockTick_txq (s : State) : (s.clockTick).txq = s.txq := rfl
@[simp] theorem State.clockTick_out (s : State) : (s.clockTick).out = s.out := rfl
@[simp] theorem State.clockTick_log (s : State) : (s.clockTick).log = s.log := rfl
@[simp] theorem State.clockTick_maps (s : State) : (s.clockTick).maps = s.maps := rfl
@[simp] theorem State.clockTick_migs (s : State) : (s.clockTick).migs = s.migs := rfl
@[simp] theorem State.clockTick_mwrs (s : State) : (s.clockTick).mwrs = s.mwrs := rfl
@[simp] theorem State.clockTick_xid (s : State) : (s.clockTick).xid = s.xid := rfl
@[simp] theorem State.clockTick_rates (s : State) : (s.clockTick).rates = s.rates := rfl
@[simp] theorem State.clockTick_drains (s : State) : (s.clockTick).drains = s.drains := rfl
@[simp] theorem State.clockTick_ecache (s : State) : (s.clockTick).ecache = s.ecache := rfl
@[simp] theorem State.clockTick_frMsi (s : State) : (s.clockTick).frMsi = s.frMsi := rfl
@[simp] theorem State.clockTick_epochNow (s : State) : (s.clockTick).epochNow = s.epochNow := rfl
@[simp] theorem State.clockTick_grantKey (s : State) : (s.clockTick).grantKey = s.grantKey := rfl
@[simp] theorem State.clockTick_jobs (s : State) : (s.clockTick).jobs = s.jobs := rfl
@[simp] theorem State.clockTick_tends (s : State) : (s.clockTick).tends = s.tends := rfl
@[simp] theorem State.clockTick_units (s : State) : (s.clockTick).units = s.units := rfl
@[simp] theorem State.clockTick_nextKey (s : State) : (s.clockTick).nextKey = s.nextKey := rfl
@[simp] theorem State.clockTick_pwr (s : State) : (s.clockTick).pwr = s.pwr := rfl
@[simp] theorem State.clockTick_dram (s : State) : (s.clockTick).dram = s.dram := rfl
@[simp] theorem State.clockTick_ces (s : State) : (s.clockTick).ces = s.ces := rfl
@[simp] theorem State.clockTick_scrub (s : State) : (s.clockTick).scrub = s.scrub := rfl
@[simp] theorem State.clockTick_pool (s : State) : (s.clockTick).pool = s.pool := rfl
@[simp] theorem State.clockTick_ports (s : State) : (s.clockTick).ports = s.ports := rfl
@[simp] theorem State.clockTick_lostPorts (s : State) : (s.clockTick).lostPorts = s.lostPorts := rfl
@[simp] theorem State.clockTick_sess (s : State) : (s.clockTick).sess = s.sess := rfl
@[simp] theorem State.clockTick_sec (s : State) : (s.clockTick).sec = s.sec := rfl
@[simp] theorem State.clockTick_rst (s : State) : (s.clockTick).rst = s.rst := rfl
@[simp] theorem State.clockTick_ll (s : State) : (s.clockTick).ll = s.ll := rfl
@[simp] theorem State.clockTick_read_ov (s : State) (ob : Obj) (k1 k2 : Nat) : (s.clockTick).ov ob k1 k2 = s.ov ob k1 k2 := rfl
@[simp] theorem State.clockTick_read_oct (s : State) (ob : Obj) (k1 k2 : Nat) : (s.clockTick).oct ob k1 k2 = s.oct ob k1 k2 := rfl
@[simp] theorem State.clockTick_read_ctx (s : State) (k1 : Nat) : (s.clockTick).ctx k1 = s.ctx k1 := rfl
@[simp] theorem State.clockTick_read_agent (s : State) (k1 : Nat) : (s.clockTick).agent k1 = s.agent k1 := rfl
@[simp] theorem State.clockTick_read_slc (s : State) (k1 : Nat) : (s.clockTick).slc k1 = s.slc k1 := rfl
@[simp] theorem State.clockTick_read_dir (s : State) (k1 : Nat) : (s.clockTick).dir k1 = s.dir k1 := rfl
@[simp] theorem State.clockTick_read_ext (s : State) (k1 : Nat) : (s.clockTick).ext k1 = s.ext k1 := rfl
@[simp] theorem State.clockTick_read_frame (s : State) (k1 : Nat) : (s.clockTick).frame k1 = s.frame k1 := rfl
@[simp] theorem State.clockTick_read_entry (s : State) (k1 : Nat) : (s.clockTick).entry k1 = s.entry k1 := rfl
@[simp] theorem State.clockTick_read_lport (s : State) (k1 : Nat) : (s.clockTick).lport k1 = s.lport k1 := rfl
@[simp] theorem State.clockTick_read_session (s : State) (k1 : Nat) : (s.clockTick).session k1 = s.session k1 := rfl

/-! ### `State.setCtx` writes `ctxs` -/

@[simp] theorem State.setCtx_pending (s : State) (c : Nat) (x : Ctx) : (s.setCtx c x).pending = s.pending := rfl
@[simp] theorem State.setCtx_ltc (s : State) (c : Nat) (x : Ctx) : (s.setCtx c x).ltc = s.ltc := rfl
@[simp] theorem State.setCtx_freeCtr (s : State) (c : Nat) (x : Ctx) : (s.setCtx c x).freeCtr = s.freeCtr := rfl
@[simp] theorem State.setCtx_objs (s : State) (c : Nat) (x : Ctx) : (s.setCtx c x).objs = s.objs := rfl
@[simp] theorem State.setCtx_octs (s : State) (c : Nat) (x : Ctx) : (s.setCtx c x).octs = s.octs := rfl
@[simp] theorem State.setCtx_mem (s : State) (c : Nat) (x : Ctx) : (s.setCtx c x).mem = s.mem := rfl
@[simp] theorem State.setCtx_poison (s : State) (c : Nat) (x : Ctx) : (s.setCtx c x).poison = s.poison := rfl
@[simp] theorem State.setCtx_chunkKey (s : State) (c : Nat) (x : Ctx) : (s.setCtx c x).chunkKey = s.chunkKey := rfl
@[simp] theorem State.setCtx_dramBad (s : State) (c : Nat) (x : Ctx) : (s.setCtx c x).dramBad = s.dramBad := rfl
@[simp] theorem State.setCtx_coh (s : State) (c : Nat) (x : Ctx) : (s.setCtx c x).coh = s.coh := rfl
@[simp] theorem State.setCtx_chart (s : State) (c : Nat) (x : Ctx) : (s.setCtx c x).chart = s.chart := rfl
@[simp] theorem State.setCtx_reqs (s : State) (c : Nat) (x : Ctx) : (s.setCtx c x).reqs = s.reqs := rfl
@[simp] theorem State.setCtx_nextReq (s : State) (c : Nat) (x : Ctx) : (s.setCtx c x).nextReq = s.nextReq := rfl
@[simp] theorem State.setCtx_cmps (s : State) (c : Nat) (x : Ctx) : (s.setCtx c x).cmps = s.cmps := rfl
@[simp] theorem State.setCtx_frecs (s : State) (c : Nat) (x : Ctx) : (s.setCtx c x).frecs = s.frecs := rfl
@[simp] theorem State.setCtx_pol (s : State) (c : Nat) (x : Ctx) : (s.setCtx c x).pol = s.pol := rfl
@[simp] theorem State.setCtx_agents (s : State) (c : Nat) (x : Ctx) : (s.setCtx c x).agents = s.agents := rfl
@[simp] theorem State.setCtx_slices (s : State) (c : Nat) (x : Ctx) : (s.setCtx c x).slices = s.slices := rfl
@[simp] theorem State.setCtx_txq (s : State) (c : Nat) (x : Ctx) : (s.setCtx c x).txq = s.txq := rfl
@[simp] theorem State.setCtx_out (s : State) (c : Nat) (x : Ctx) : (s.setCtx c x).out = s.out := rfl
@[simp] theorem State.setCtx_log (s : State) (c : Nat) (x : Ctx) : (s.setCtx c x).log = s.log := rfl
@[simp] theorem State.setCtx_maps (s : State) (c : Nat) (x : Ctx) : (s.setCtx c x).maps = s.maps := rfl
@[simp] theorem State.setCtx_migs (s : State) (c : Nat) (x : Ctx) : (s.setCtx c x).migs = s.migs := rfl
@[simp] theorem State.setCtx_mwrs (s : State) (c : Nat) (x : Ctx) : (s.setCtx c x).mwrs = s.mwrs := rfl
@[simp] theorem State.setCtx_xid (s : State) (c : Nat) (x : Ctx) : (s.setCtx c x).xid = s.xid := rfl
@[simp] theorem State.setCtx_rates (s : State) (c : Nat) (x : Ctx) : (s.setCtx c x).rates = s.rates := rfl
@[simp] theorem State.setCtx_drains (s : State) (c : Nat) (x : Ctx) : (s.setCtx c x).drains = s.drains := rfl
@[simp] theorem State.setCtx_ecache (s : State) (c : Nat) (x : Ctx) : (s.setCtx c x).ecache = s.ecache := rfl
@[simp] theorem State.setCtx_frMsi (s : State) (c : Nat) (x : Ctx) : (s.setCtx c x).frMsi = s.frMsi := rfl
@[simp] theorem State.setCtx_epochNow (s : State) (c : Nat) (x : Ctx) : (s.setCtx c x).epochNow = s.epochNow := rfl
@[simp] theorem State.setCtx_grantKey (s : State) (c : Nat) (x : Ctx) : (s.setCtx c x).grantKey = s.grantKey := rfl
@[simp] theorem State.setCtx_jobs (s : State) (c : Nat) (x : Ctx) : (s.setCtx c x).jobs = s.jobs := rfl
@[simp] theorem State.setCtx_tends (s : State) (c : Nat) (x : Ctx) : (s.setCtx c x).tends = s.tends := rfl
@[simp] theorem State.setCtx_units (s : State) (c : Nat) (x : Ctx) : (s.setCtx c x).units = s.units := rfl
@[simp] theorem State.setCtx_nextKey (s : State) (c : Nat) (x : Ctx) : (s.setCtx c x).nextKey = s.nextKey := rfl
@[simp] theorem State.setCtx_pwr (s : State) (c : Nat) (x : Ctx) : (s.setCtx c x).pwr = s.pwr := rfl
@[simp] theorem State.setCtx_dram (s : State) (c : Nat) (x : Ctx) : (s.setCtx c x).dram = s.dram := rfl
@[simp] theorem State.setCtx_ces (s : State) (c : Nat) (x : Ctx) : (s.setCtx c x).ces = s.ces := rfl
@[simp] theorem State.setCtx_scrub (s : State) (c : Nat) (x : Ctx) : (s.setCtx c x).scrub = s.scrub := rfl
@[simp] theorem State.setCtx_pool (s : State) (c : Nat) (x : Ctx) : (s.setCtx c x).pool = s.pool := rfl
@[simp] theorem State.setCtx_ports (s : State) (c : Nat) (x : Ctx) : (s.setCtx c x).ports = s.ports := rfl
@[simp] theorem State.setCtx_lostPorts (s : State) (c : Nat) (x : Ctx) : (s.setCtx c x).lostPorts = s.lostPorts := rfl
@[simp] theorem State.setCtx_sess (s : State) (c : Nat) (x : Ctx) : (s.setCtx c x).sess = s.sess := rfl
@[simp] theorem State.setCtx_sec (s : State) (c : Nat) (x : Ctx) : (s.setCtx c x).sec = s.sec := rfl
@[simp] theorem State.setCtx_rst (s : State) (c : Nat) (x : Ctx) : (s.setCtx c x).rst = s.rst := rfl
@[simp] theorem State.setCtx_ll (s : State) (c : Nat) (x : Ctx) : (s.setCtx c x).ll = s.ll := rfl
@[simp] theorem State.setCtx_read_ov (s : State) (c : Nat) (x : Ctx) (ob : Obj) (k1 k2 : Nat) : (s.setCtx c x).ov ob k1 k2 = s.ov ob k1 k2 := rfl
@[simp] theorem State.setCtx_read_oct (s : State) (c : Nat) (x : Ctx) (ob : Obj) (k1 k2 : Nat) : (s.setCtx c x).oct ob k1 k2 = s.oct ob k1 k2 := rfl
@[simp] theorem State.setCtx_read_agent (s : State) (c : Nat) (x : Ctx) (k1 : Nat) : (s.setCtx c x).agent k1 = s.agent k1 := rfl
@[simp] theorem State.setCtx_read_slc (s : State) (c : Nat) (x : Ctx) (k1 : Nat) : (s.setCtx c x).slc k1 = s.slc k1 := rfl
@[simp] theorem State.setCtx_read_dir (s : State) (c : Nat) (x : Ctx) (k1 : Nat) : (s.setCtx c x).dir k1 = s.dir k1 := rfl
@[simp] theorem State.setCtx_read_ext (s : State) (c : Nat) (x : Ctx) (k1 : Nat) : (s.setCtx c x).ext k1 = s.ext k1 := rfl
@[simp] theorem State.setCtx_read_frame (s : State) (c : Nat) (x : Ctx) (k1 : Nat) : (s.setCtx c x).frame k1 = s.frame k1 := rfl
@[simp] theorem State.setCtx_read_entry (s : State) (c : Nat) (x : Ctx) (k1 : Nat) : (s.setCtx c x).entry k1 = s.entry k1 := rfl
@[simp] theorem State.setCtx_read_lport (s : State) (c : Nat) (x : Ctx) (k1 : Nat) : (s.setCtx c x).lport k1 = s.lport k1 := rfl
@[simp] theorem State.setCtx_read_session (s : State) (c : Nat) (x : Ctx) (k1 : Nat) : (s.setCtx c x).session k1 = s.session k1 := rfl

/-! ### `State.setAgent` writes `agents` -/

@[simp] theorem State.setAgent_pending (s : State) (a : Nat) (x : Agent) : (s.setAgent a x).pending = s.pending := rfl
@[simp] theorem State.setAgent_ltc (s : State) (a : Nat) (x : Agent) : (s.setAgent a x).ltc = s.ltc := rfl
@[simp] theorem State.setAgent_freeCtr (s : State) (a : Nat) (x : Agent) : (s.setAgent a x).freeCtr = s.freeCtr := rfl
@[simp] theorem State.setAgent_objs (s : State) (a : Nat) (x : Agent) : (s.setAgent a x).objs = s.objs := rfl
@[simp] theorem State.setAgent_octs (s : State) (a : Nat) (x : Agent) : (s.setAgent a x).octs = s.octs := rfl
@[simp] theorem State.setAgent_mem (s : State) (a : Nat) (x : Agent) : (s.setAgent a x).mem = s.mem := rfl
@[simp] theorem State.setAgent_poison (s : State) (a : Nat) (x : Agent) : (s.setAgent a x).poison = s.poison := rfl
@[simp] theorem State.setAgent_chunkKey (s : State) (a : Nat) (x : Agent) : (s.setAgent a x).chunkKey = s.chunkKey := rfl
@[simp] theorem State.setAgent_dramBad (s : State) (a : Nat) (x : Agent) : (s.setAgent a x).dramBad = s.dramBad := rfl
@[simp] theorem State.setAgent_coh (s : State) (a : Nat) (x : Agent) : (s.setAgent a x).coh = s.coh := rfl
@[simp] theorem State.setAgent_chart (s : State) (a : Nat) (x : Agent) : (s.setAgent a x).chart = s.chart := rfl
@[simp] theorem State.setAgent_reqs (s : State) (a : Nat) (x : Agent) : (s.setAgent a x).reqs = s.reqs := rfl
@[simp] theorem State.setAgent_nextReq (s : State) (a : Nat) (x : Agent) : (s.setAgent a x).nextReq = s.nextReq := rfl
@[simp] theorem State.setAgent_cmps (s : State) (a : Nat) (x : Agent) : (s.setAgent a x).cmps = s.cmps := rfl
@[simp] theorem State.setAgent_frecs (s : State) (a : Nat) (x : Agent) : (s.setAgent a x).frecs = s.frecs := rfl
@[simp] theorem State.setAgent_ctxs (s : State) (a : Nat) (x : Agent) : (s.setAgent a x).ctxs = s.ctxs := rfl
@[simp] theorem State.setAgent_pol (s : State) (a : Nat) (x : Agent) : (s.setAgent a x).pol = s.pol := rfl
@[simp] theorem State.setAgent_slices (s : State) (a : Nat) (x : Agent) : (s.setAgent a x).slices = s.slices := rfl
@[simp] theorem State.setAgent_txq (s : State) (a : Nat) (x : Agent) : (s.setAgent a x).txq = s.txq := rfl
@[simp] theorem State.setAgent_out (s : State) (a : Nat) (x : Agent) : (s.setAgent a x).out = s.out := rfl
@[simp] theorem State.setAgent_log (s : State) (a : Nat) (x : Agent) : (s.setAgent a x).log = s.log := rfl
@[simp] theorem State.setAgent_maps (s : State) (a : Nat) (x : Agent) : (s.setAgent a x).maps = s.maps := rfl
@[simp] theorem State.setAgent_migs (s : State) (a : Nat) (x : Agent) : (s.setAgent a x).migs = s.migs := rfl
@[simp] theorem State.setAgent_mwrs (s : State) (a : Nat) (x : Agent) : (s.setAgent a x).mwrs = s.mwrs := rfl
@[simp] theorem State.setAgent_xid (s : State) (a : Nat) (x : Agent) : (s.setAgent a x).xid = s.xid := rfl
@[simp] theorem State.setAgent_rates (s : State) (a : Nat) (x : Agent) : (s.setAgent a x).rates = s.rates := rfl
@[simp] theorem State.setAgent_drains (s : State) (a : Nat) (x : Agent) : (s.setAgent a x).drains = s.drains := rfl
@[simp] theorem State.setAgent_ecache (s : State) (a : Nat) (x : Agent) : (s.setAgent a x).ecache = s.ecache := rfl
@[simp] theorem State.setAgent_frMsi (s : State) (a : Nat) (x : Agent) : (s.setAgent a x).frMsi = s.frMsi := rfl
@[simp] theorem State.setAgent_epochNow (s : State) (a : Nat) (x : Agent) : (s.setAgent a x).epochNow = s.epochNow := rfl
@[simp] theorem State.setAgent_grantKey (s : State) (a : Nat) (x : Agent) : (s.setAgent a x).grantKey = s.grantKey := rfl
@[simp] theorem State.setAgent_jobs (s : State) (a : Nat) (x : Agent) : (s.setAgent a x).jobs = s.jobs := rfl
@[simp] theorem State.setAgent_tends (s : State) (a : Nat) (x : Agent) : (s.setAgent a x).tends = s.tends := rfl
@[simp] theorem State.setAgent_units (s : State) (a : Nat) (x : Agent) : (s.setAgent a x).units = s.units := rfl
@[simp] theorem State.setAgent_nextKey (s : State) (a : Nat) (x : Agent) : (s.setAgent a x).nextKey = s.nextKey := rfl
@[simp] theorem State.setAgent_pwr (s : State) (a : Nat) (x : Agent) : (s.setAgent a x).pwr = s.pwr := rfl
@[simp] theorem State.setAgent_dram (s : State) (a : Nat) (x : Agent) : (s.setAgent a x).dram = s.dram := rfl
@[simp] theorem State.setAgent_ces (s : State) (a : Nat) (x : Agent) : (s.setAgent a x).ces = s.ces := rfl
@[simp] theorem State.setAgent_scrub (s : State) (a : Nat) (x : Agent) : (s.setAgent a x).scrub = s.scrub := rfl
@[simp] theorem State.setAgent_pool (s : State) (a : Nat) (x : Agent) : (s.setAgent a x).pool = s.pool := rfl
@[simp] theorem State.setAgent_ports (s : State) (a : Nat) (x : Agent) : (s.setAgent a x).ports = s.ports := rfl
@[simp] theorem State.setAgent_lostPorts (s : State) (a : Nat) (x : Agent) : (s.setAgent a x).lostPorts = s.lostPorts := rfl
@[simp] theorem State.setAgent_sess (s : State) (a : Nat) (x : Agent) : (s.setAgent a x).sess = s.sess := rfl
@[simp] theorem State.setAgent_sec (s : State) (a : Nat) (x : Agent) : (s.setAgent a x).sec = s.sec := rfl
@[simp] theorem State.setAgent_rst (s : State) (a : Nat) (x : Agent) : (s.setAgent a x).rst = s.rst := rfl
@[simp] theorem State.setAgent_ll (s : State) (a : Nat) (x : Agent) : (s.setAgent a x).ll = s.ll := rfl
@[simp] theorem State.setAgent_read_ov (s : State) (a : Nat) (x : Agent) (ob : Obj) (k1 k2 : Nat) : (s.setAgent a x).ov ob k1 k2 = s.ov ob k1 k2 := rfl
@[simp] theorem State.setAgent_read_oct (s : State) (a : Nat) (x : Agent) (ob : Obj) (k1 k2 : Nat) : (s.setAgent a x).oct ob k1 k2 = s.oct ob k1 k2 := rfl
@[simp] theorem State.setAgent_read_ctx (s : State) (a : Nat) (x : Agent) (k1 : Nat) : (s.setAgent a x).ctx k1 = s.ctx k1 := rfl
@[simp] theorem State.setAgent_read_slc (s : State) (a : Nat) (x : Agent) (k1 : Nat) : (s.setAgent a x).slc k1 = s.slc k1 := rfl
@[simp] theorem State.setAgent_read_dir (s : State) (a : Nat) (x : Agent) (k1 : Nat) : (s.setAgent a x).dir k1 = s.dir k1 := rfl
@[simp] theorem State.setAgent_read_ext (s : State) (a : Nat) (x : Agent) (k1 : Nat) : (s.setAgent a x).ext k1 = s.ext k1 := rfl
@[simp] theorem State.setAgent_read_frame (s : State) (a : Nat) (x : Agent) (k1 : Nat) : (s.setAgent a x).frame k1 = s.frame k1 := rfl
@[simp] theorem State.setAgent_read_entry (s : State) (a : Nat) (x : Agent) (k1 : Nat) : (s.setAgent a x).entry k1 = s.entry k1 := rfl
@[simp] theorem State.setAgent_read_lport (s : State) (a : Nat) (x : Agent) (k1 : Nat) : (s.setAgent a x).lport k1 = s.lport k1 := rfl
@[simp] theorem State.setAgent_read_session (s : State) (a : Nat) (x : Agent) (k1 : Nat) : (s.setAgent a x).session k1 = s.session k1 := rfl

/-! ### `State.setSlc` writes `slices` -/

@[simp] theorem State.setSlc_pending (s : State) (h : Nat) (x : Slc) : (s.setSlc h x).pending = s.pending := rfl
@[simp] theorem State.setSlc_ltc (s : State) (h : Nat) (x : Slc) : (s.setSlc h x).ltc = s.ltc := rfl
@[simp] theorem State.setSlc_freeCtr (s : State) (h : Nat) (x : Slc) : (s.setSlc h x).freeCtr = s.freeCtr := rfl
@[simp] theorem State.setSlc_objs (s : State) (h : Nat) (x : Slc) : (s.setSlc h x).objs = s.objs := rfl
@[simp] theorem State.setSlc_octs (s : State) (h : Nat) (x : Slc) : (s.setSlc h x).octs = s.octs := rfl
@[simp] theorem State.setSlc_mem (s : State) (h : Nat) (x : Slc) : (s.setSlc h x).mem = s.mem := rfl
@[simp] theorem State.setSlc_poison (s : State) (h : Nat) (x : Slc) : (s.setSlc h x).poison = s.poison := rfl
@[simp] theorem State.setSlc_chunkKey (s : State) (h : Nat) (x : Slc) : (s.setSlc h x).chunkKey = s.chunkKey := rfl
@[simp] theorem State.setSlc_dramBad (s : State) (h : Nat) (x : Slc) : (s.setSlc h x).dramBad = s.dramBad := rfl
@[simp] theorem State.setSlc_coh (s : State) (h : Nat) (x : Slc) : (s.setSlc h x).coh = s.coh := rfl
@[simp] theorem State.setSlc_chart (s : State) (h : Nat) (x : Slc) : (s.setSlc h x).chart = s.chart := rfl
@[simp] theorem State.setSlc_reqs (s : State) (h : Nat) (x : Slc) : (s.setSlc h x).reqs = s.reqs := rfl
@[simp] theorem State.setSlc_nextReq (s : State) (h : Nat) (x : Slc) : (s.setSlc h x).nextReq = s.nextReq := rfl
@[simp] theorem State.setSlc_cmps (s : State) (h : Nat) (x : Slc) : (s.setSlc h x).cmps = s.cmps := rfl
@[simp] theorem State.setSlc_frecs (s : State) (h : Nat) (x : Slc) : (s.setSlc h x).frecs = s.frecs := rfl
@[simp] theorem State.setSlc_ctxs (s : State) (h : Nat) (x : Slc) : (s.setSlc h x).ctxs = s.ctxs := rfl
@[simp] theorem State.setSlc_pol (s : State) (h : Nat) (x : Slc) : (s.setSlc h x).pol = s.pol := rfl
@[simp] theorem State.setSlc_agents (s : State) (h : Nat) (x : Slc) : (s.setSlc h x).agents = s.agents := rfl
@[simp] theorem State.setSlc_txq (s : State) (h : Nat) (x : Slc) : (s.setSlc h x).txq = s.txq := rfl
@[simp] theorem State.setSlc_out (s : State) (h : Nat) (x : Slc) : (s.setSlc h x).out = s.out := rfl
@[simp] theorem State.setSlc_log (s : State) (h : Nat) (x : Slc) : (s.setSlc h x).log = s.log := rfl
@[simp] theorem State.setSlc_maps (s : State) (h : Nat) (x : Slc) : (s.setSlc h x).maps = s.maps := rfl
@[simp] theorem State.setSlc_migs (s : State) (h : Nat) (x : Slc) : (s.setSlc h x).migs = s.migs := rfl
@[simp] theorem State.setSlc_mwrs (s : State) (h : Nat) (x : Slc) : (s.setSlc h x).mwrs = s.mwrs := rfl
@[simp] theorem State.setSlc_xid (s : State) (h : Nat) (x : Slc) : (s.setSlc h x).xid = s.xid := rfl
@[simp] theorem State.setSlc_rates (s : State) (h : Nat) (x : Slc) : (s.setSlc h x).rates = s.rates := rfl
@[simp] theorem State.setSlc_drains (s : State) (h : Nat) (x : Slc) : (s.setSlc h x).drains = s.drains := rfl
@[simp] theorem State.setSlc_ecache (s : State) (h : Nat) (x : Slc) : (s.setSlc h x).ecache = s.ecache := rfl
@[simp] theorem State.setSlc_frMsi (s : State) (h : Nat) (x : Slc) : (s.setSlc h x).frMsi = s.frMsi := rfl
@[simp] theorem State.setSlc_epochNow (s : State) (h : Nat) (x : Slc) : (s.setSlc h x).epochNow = s.epochNow := rfl
@[simp] theorem State.setSlc_grantKey (s : State) (h : Nat) (x : Slc) : (s.setSlc h x).grantKey = s.grantKey := rfl
@[simp] theorem State.setSlc_jobs (s : State) (h : Nat) (x : Slc) : (s.setSlc h x).jobs = s.jobs := rfl
@[simp] theorem State.setSlc_tends (s : State) (h : Nat) (x : Slc) : (s.setSlc h x).tends = s.tends := rfl
@[simp] theorem State.setSlc_units (s : State) (h : Nat) (x : Slc) : (s.setSlc h x).units = s.units := rfl
@[simp] theorem State.setSlc_nextKey (s : State) (h : Nat) (x : Slc) : (s.setSlc h x).nextKey = s.nextKey := rfl
@[simp] theorem State.setSlc_pwr (s : State) (h : Nat) (x : Slc) : (s.setSlc h x).pwr = s.pwr := rfl
@[simp] theorem State.setSlc_dram (s : State) (h : Nat) (x : Slc) : (s.setSlc h x).dram = s.dram := rfl
@[simp] theorem State.setSlc_ces (s : State) (h : Nat) (x : Slc) : (s.setSlc h x).ces = s.ces := rfl
@[simp] theorem State.setSlc_scrub (s : State) (h : Nat) (x : Slc) : (s.setSlc h x).scrub = s.scrub := rfl
@[simp] theorem State.setSlc_pool (s : State) (h : Nat) (x : Slc) : (s.setSlc h x).pool = s.pool := rfl
@[simp] theorem State.setSlc_ports (s : State) (h : Nat) (x : Slc) : (s.setSlc h x).ports = s.ports := rfl
@[simp] theorem State.setSlc_lostPorts (s : State) (h : Nat) (x : Slc) : (s.setSlc h x).lostPorts = s.lostPorts := rfl
@[simp] theorem State.setSlc_sess (s : State) (h : Nat) (x : Slc) : (s.setSlc h x).sess = s.sess := rfl
@[simp] theorem State.setSlc_sec (s : State) (h : Nat) (x : Slc) : (s.setSlc h x).sec = s.sec := rfl
@[simp] theorem State.setSlc_rst (s : State) (h : Nat) (x : Slc) : (s.setSlc h x).rst = s.rst := rfl
@[simp] theorem State.setSlc_ll (s : State) (h : Nat) (x : Slc) : (s.setSlc h x).ll = s.ll := rfl
@[simp] theorem State.setSlc_read_ov (s : State) (h : Nat) (x : Slc) (ob : Obj) (k1 k2 : Nat) : (s.setSlc h x).ov ob k1 k2 = s.ov ob k1 k2 := rfl
@[simp] theorem State.setSlc_read_oct (s : State) (h : Nat) (x : Slc) (ob : Obj) (k1 k2 : Nat) : (s.setSlc h x).oct ob k1 k2 = s.oct ob k1 k2 := rfl
@[simp] theorem State.setSlc_read_ctx (s : State) (h : Nat) (x : Slc) (k1 : Nat) : (s.setSlc h x).ctx k1 = s.ctx k1 := rfl
@[simp] theorem State.setSlc_read_agent (s : State) (h : Nat) (x : Slc) (k1 : Nat) : (s.setSlc h x).agent k1 = s.agent k1 := rfl
@[simp] theorem State.setSlc_read_dir (s : State) (h : Nat) (x : Slc) (k1 : Nat) : (s.setSlc h x).dir k1 = s.dir k1 := rfl
@[simp] theorem State.setSlc_read_ext (s : State) (h : Nat) (x : Slc) (k1 : Nat) : (s.setSlc h x).ext k1 = s.ext k1 := rfl
@[simp] theorem State.setSlc_read_frame (s : State) (h : Nat) (x : Slc) (k1 : Nat) : (s.setSlc h x).frame k1 = s.frame k1 := rfl
@[simp] theorem State.setSlc_read_entry (s : State) (h : Nat) (x : Slc) (k1 : Nat) : (s.setSlc h x).entry k1 = s.entry k1 := rfl
@[simp] theorem State.setSlc_read_lport (s : State) (h : Nat) (x : Slc) (k1 : Nat) : (s.setSlc h x).lport k1 = s.lport k1 := rfl
@[simp] theorem State.setSlc_read_session (s : State) (h : Nat) (x : Slc) (k1 : Nat) : (s.setSlc h x).session k1 = s.session k1 := rfl

/-! ### `State.setCoh` writes `coh` -/

@[simp] theorem State.setCoh_pending (s : State) (c : Coh) : (s.setCoh c).pending = s.pending := rfl
@[simp] theorem State.setCoh_ltc (s : State) (c : Coh) : (s.setCoh c).ltc = s.ltc := rfl
@[simp] theorem State.setCoh_freeCtr (s : State) (c : Coh) : (s.setCoh c).freeCtr = s.freeCtr := rfl
@[simp] theorem State.setCoh_objs (s : State) (c : Coh) : (s.setCoh c).objs = s.objs := rfl
@[simp] theorem State.setCoh_octs (s : State) (c : Coh) : (s.setCoh c).octs = s.octs := rfl
@[simp] theorem State.setCoh_mem (s : State) (c : Coh) : (s.setCoh c).mem = s.mem := rfl
@[simp] theorem State.setCoh_poison (s : State) (c : Coh) : (s.setCoh c).poison = s.poison := rfl
@[simp] theorem State.setCoh_chunkKey (s : State) (c : Coh) : (s.setCoh c).chunkKey = s.chunkKey := rfl
@[simp] theorem State.setCoh_dramBad (s : State) (c : Coh) : (s.setCoh c).dramBad = s.dramBad := rfl
@[simp] theorem State.setCoh_chart (s : State) (c : Coh) : (s.setCoh c).chart = s.chart := rfl
@[simp] theorem State.setCoh_reqs (s : State) (c : Coh) : (s.setCoh c).reqs = s.reqs := rfl
@[simp] theorem State.setCoh_nextReq (s : State) (c : Coh) : (s.setCoh c).nextReq = s.nextReq := rfl
@[simp] theorem State.setCoh_cmps (s : State) (c : Coh) : (s.setCoh c).cmps = s.cmps := rfl
@[simp] theorem State.setCoh_frecs (s : State) (c : Coh) : (s.setCoh c).frecs = s.frecs := rfl
@[simp] theorem State.setCoh_ctxs (s : State) (c : Coh) : (s.setCoh c).ctxs = s.ctxs := rfl
@[simp] theorem State.setCoh_pol (s : State) (c : Coh) : (s.setCoh c).pol = s.pol := rfl
@[simp] theorem State.setCoh_agents (s : State) (c : Coh) : (s.setCoh c).agents = s.agents := rfl
@[simp] theorem State.setCoh_slices (s : State) (c : Coh) : (s.setCoh c).slices = s.slices := rfl
@[simp] theorem State.setCoh_txq (s : State) (c : Coh) : (s.setCoh c).txq = s.txq := rfl
@[simp] theorem State.setCoh_out (s : State) (c : Coh) : (s.setCoh c).out = s.out := rfl
@[simp] theorem State.setCoh_log (s : State) (c : Coh) : (s.setCoh c).log = s.log := rfl
@[simp] theorem State.setCoh_maps (s : State) (c : Coh) : (s.setCoh c).maps = s.maps := rfl
@[simp] theorem State.setCoh_migs (s : State) (c : Coh) : (s.setCoh c).migs = s.migs := rfl
@[simp] theorem State.setCoh_mwrs (s : State) (c : Coh) : (s.setCoh c).mwrs = s.mwrs := rfl
@[simp] theorem State.setCoh_xid (s : State) (c : Coh) : (s.setCoh c).xid = s.xid := rfl
@[simp] theorem State.setCoh_rates (s : State) (c : Coh) : (s.setCoh c).rates = s.rates := rfl
@[simp] theorem State.setCoh_drains (s : State) (c : Coh) : (s.setCoh c).drains = s.drains := rfl
@[simp] theorem State.setCoh_ecache (s : State) (c : Coh) : (s.setCoh c).ecache = s.ecache := rfl
@[simp] theorem State.setCoh_frMsi (s : State) (c : Coh) : (s.setCoh c).frMsi = s.frMsi := rfl
@[simp] theorem State.setCoh_epochNow (s : State) (c : Coh) : (s.setCoh c).epochNow = s.epochNow := rfl
@[simp] theorem State.setCoh_grantKey (s : State) (c : Coh) : (s.setCoh c).grantKey = s.grantKey := rfl
@[simp] theorem State.setCoh_jobs (s : State) (c : Coh) : (s.setCoh c).jobs = s.jobs := rfl
@[simp] theorem State.setCoh_tends (s : State) (c : Coh) : (s.setCoh c).tends = s.tends := rfl
@[simp] theorem State.setCoh_units (s : State) (c : Coh) : (s.setCoh c).units = s.units := rfl
@[simp] theorem State.setCoh_nextKey (s : State) (c : Coh) : (s.setCoh c).nextKey = s.nextKey := rfl
@[simp] theorem State.setCoh_pwr (s : State) (c : Coh) : (s.setCoh c).pwr = s.pwr := rfl
@[simp] theorem State.setCoh_dram (s : State) (c : Coh) : (s.setCoh c).dram = s.dram := rfl
@[simp] theorem State.setCoh_ces (s : State) (c : Coh) : (s.setCoh c).ces = s.ces := rfl
@[simp] theorem State.setCoh_scrub (s : State) (c : Coh) : (s.setCoh c).scrub = s.scrub := rfl
@[simp] theorem State.setCoh_pool (s : State) (c : Coh) : (s.setCoh c).pool = s.pool := rfl
@[simp] theorem State.setCoh_ports (s : State) (c : Coh) : (s.setCoh c).ports = s.ports := rfl
@[simp] theorem State.setCoh_lostPorts (s : State) (c : Coh) : (s.setCoh c).lostPorts = s.lostPorts := rfl
@[simp] theorem State.setCoh_sess (s : State) (c : Coh) : (s.setCoh c).sess = s.sess := rfl
@[simp] theorem State.setCoh_sec (s : State) (c : Coh) : (s.setCoh c).sec = s.sec := rfl
@[simp] theorem State.setCoh_rst (s : State) (c : Coh) : (s.setCoh c).rst = s.rst := rfl
@[simp] theorem State.setCoh_ll (s : State) (c : Coh) : (s.setCoh c).ll = s.ll := rfl
@[simp] theorem State.setCoh_read_ov (s : State) (c : Coh) (ob : Obj) (k1 k2 : Nat) : (s.setCoh c).ov ob k1 k2 = s.ov ob k1 k2 := rfl
@[simp] theorem State.setCoh_read_oct (s : State) (c : Coh) (ob : Obj) (k1 k2 : Nat) : (s.setCoh c).oct ob k1 k2 = s.oct ob k1 k2 := rfl
@[simp] theorem State.setCoh_read_ctx (s : State) (c : Coh) (k1 : Nat) : (s.setCoh c).ctx k1 = s.ctx k1 := rfl
@[simp] theorem State.setCoh_read_agent (s : State) (c : Coh) (k1 : Nat) : (s.setCoh c).agent k1 = s.agent k1 := rfl
@[simp] theorem State.setCoh_read_slc (s : State) (c : Coh) (k1 : Nat) : (s.setCoh c).slc k1 = s.slc k1 := rfl
@[simp] theorem State.setCoh_read_ext (s : State) (c : Coh) (k1 : Nat) : (s.setCoh c).ext k1 = s.ext k1 := rfl
@[simp] theorem State.setCoh_read_frame (s : State) (c : Coh) (k1 : Nat) : (s.setCoh c).frame k1 = s.frame k1 := rfl
@[simp] theorem State.setCoh_read_entry (s : State) (c : Coh) (k1 : Nat) : (s.setCoh c).entry k1 = s.entry k1 := rfl
@[simp] theorem State.setCoh_read_lport (s : State) (c : Coh) (k1 : Nat) : (s.setCoh c).lport k1 = s.lport k1 := rfl
@[simp] theorem State.setCoh_read_session (s : State) (c : Coh) (k1 : Nat) : (s.setCoh c).session k1 = s.session k1 := rfl

/-! ### `State.setChart` writes `chart` -/

@[simp] theorem State.setChart_pending (s : State) (c : Chart) : (s.setChart c).pending = s.pending := rfl
@[simp] theorem State.setChart_ltc (s : State) (c : Chart) : (s.setChart c).ltc = s.ltc := rfl
@[simp] theorem State.setChart_freeCtr (s : State) (c : Chart) : (s.setChart c).freeCtr = s.freeCtr := rfl
@[simp] theorem State.setChart_objs (s : State) (c : Chart) : (s.setChart c).objs = s.objs := rfl
@[simp] theorem State.setChart_octs (s : State) (c : Chart) : (s.setChart c).octs = s.octs := rfl
@[simp] theorem State.setChart_mem (s : State) (c : Chart) : (s.setChart c).mem = s.mem := rfl
@[simp] theorem State.setChart_poison (s : State) (c : Chart) : (s.setChart c).poison = s.poison := rfl
@[simp] theorem State.setChart_chunkKey (s : State) (c : Chart) : (s.setChart c).chunkKey = s.chunkKey := rfl
@[simp] theorem State.setChart_dramBad (s : State) (c : Chart) : (s.setChart c).dramBad = s.dramBad := rfl
@[simp] theorem State.setChart_coh (s : State) (c : Chart) : (s.setChart c).coh = s.coh := rfl
@[simp] theorem State.setChart_reqs (s : State) (c : Chart) : (s.setChart c).reqs = s.reqs := rfl
@[simp] theorem State.setChart_nextReq (s : State) (c : Chart) : (s.setChart c).nextReq = s.nextReq := rfl
@[simp] theorem State.setChart_cmps (s : State) (c : Chart) : (s.setChart c).cmps = s.cmps := rfl
@[simp] theorem State.setChart_frecs (s : State) (c : Chart) : (s.setChart c).frecs = s.frecs := rfl
@[simp] theorem State.setChart_ctxs (s : State) (c : Chart) : (s.setChart c).ctxs = s.ctxs := rfl
@[simp] theorem State.setChart_pol (s : State) (c : Chart) : (s.setChart c).pol = s.pol := rfl
@[simp] theorem State.setChart_agents (s : State) (c : Chart) : (s.setChart c).agents = s.agents := rfl
@[simp] theorem State.setChart_slices (s : State) (c : Chart) : (s.setChart c).slices = s.slices := rfl
@[simp] theorem State.setChart_txq (s : State) (c : Chart) : (s.setChart c).txq = s.txq := rfl
@[simp] theorem State.setChart_out (s : State) (c : Chart) : (s.setChart c).out = s.out := rfl
@[simp] theorem State.setChart_log (s : State) (c : Chart) : (s.setChart c).log = s.log := rfl
@[simp] theorem State.setChart_maps (s : State) (c : Chart) : (s.setChart c).maps = s.maps := rfl
@[simp] theorem State.setChart_migs (s : State) (c : Chart) : (s.setChart c).migs = s.migs := rfl
@[simp] theorem State.setChart_mwrs (s : State) (c : Chart) : (s.setChart c).mwrs = s.mwrs := rfl
@[simp] theorem State.setChart_xid (s : State) (c : Chart) : (s.setChart c).xid = s.xid := rfl
@[simp] theorem State.setChart_rates (s : State) (c : Chart) : (s.setChart c).rates = s.rates := rfl
@[simp] theorem State.setChart_drains (s : State) (c : Chart) : (s.setChart c).drains = s.drains := rfl
@[simp] theorem State.setChart_ecache (s : State) (c : Chart) : (s.setChart c).ecache = s.ecache := rfl
@[simp] theorem State.setChart_frMsi (s : State) (c : Chart) : (s.setChart c).frMsi = s.frMsi := rfl
@[simp] theorem State.setChart_epochNow (s : State) (c : Chart) : (s.setChart c).epochNow = s.epochNow := rfl
@[simp] theorem State.setChart_grantKey (s : State) (c : Chart) : (s.setChart c).grantKey = s.grantKey := rfl
@[simp] theorem State.setChart_jobs (s : State) (c : Chart) : (s.setChart c).jobs = s.jobs := rfl
@[simp] theorem State.setChart_tends (s : State) (c : Chart) : (s.setChart c).tends = s.tends := rfl
@[simp] theorem State.setChart_units (s : State) (c : Chart) : (s.setChart c).units = s.units := rfl
@[simp] theorem State.setChart_nextKey (s : State) (c : Chart) : (s.setChart c).nextKey = s.nextKey := rfl
@[simp] theorem State.setChart_pwr (s : State) (c : Chart) : (s.setChart c).pwr = s.pwr := rfl
@[simp] theorem State.setChart_dram (s : State) (c : Chart) : (s.setChart c).dram = s.dram := rfl
@[simp] theorem State.setChart_ces (s : State) (c : Chart) : (s.setChart c).ces = s.ces := rfl
@[simp] theorem State.setChart_scrub (s : State) (c : Chart) : (s.setChart c).scrub = s.scrub := rfl
@[simp] theorem State.setChart_pool (s : State) (c : Chart) : (s.setChart c).pool = s.pool := rfl
@[simp] theorem State.setChart_ports (s : State) (c : Chart) : (s.setChart c).ports = s.ports := rfl
@[simp] theorem State.setChart_lostPorts (s : State) (c : Chart) : (s.setChart c).lostPorts = s.lostPorts := rfl
@[simp] theorem State.setChart_sess (s : State) (c : Chart) : (s.setChart c).sess = s.sess := rfl
@[simp] theorem State.setChart_sec (s : State) (c : Chart) : (s.setChart c).sec = s.sec := rfl
@[simp] theorem State.setChart_rst (s : State) (c : Chart) : (s.setChart c).rst = s.rst := rfl
@[simp] theorem State.setChart_ll (s : State) (c : Chart) : (s.setChart c).ll = s.ll := rfl
@[simp] theorem State.setChart_read_ov (s : State) (c : Chart) (ob : Obj) (k1 k2 : Nat) : (s.setChart c).ov ob k1 k2 = s.ov ob k1 k2 := rfl
@[simp] theorem State.setChart_read_oct (s : State) (c : Chart) (ob : Obj) (k1 k2 : Nat) : (s.setChart c).oct ob k1 k2 = s.oct ob k1 k2 := rfl
@[simp] theorem State.setChart_read_ctx (s : State) (c : Chart) (k1 : Nat) : (s.setChart c).ctx k1 = s.ctx k1 := rfl
@[simp] theorem State.setChart_read_agent (s : State) (c : Chart) (k1 : Nat) : (s.setChart c).agent k1 = s.agent k1 := rfl
@[simp] theorem State.setChart_read_slc (s : State) (c : Chart) (k1 : Nat) : (s.setChart c).slc k1 = s.slc k1 := rfl
@[simp] theorem State.setChart_read_dir (s : State) (c : Chart) (k1 : Nat) : (s.setChart c).dir k1 = s.dir k1 := rfl
@[simp] theorem State.setChart_read_lport (s : State) (c : Chart) (k1 : Nat) : (s.setChart c).lport k1 = s.lport k1 := rfl
@[simp] theorem State.setChart_read_session (s : State) (c : Chart) (k1 : Nat) : (s.setChart c).session k1 = s.session k1 := rfl

/-! ### `State.setDir` writes `coh` -/

@[simp] theorem State.setDir_pending (s : State) (l : Nat) (d : Dir) : (s.setDir l d).pending = s.pending := rfl
@[simp] theorem State.setDir_ltc (s : State) (l : Nat) (d : Dir) : (s.setDir l d).ltc = s.ltc := rfl
@[simp] theorem State.setDir_freeCtr (s : State) (l : Nat) (d : Dir) : (s.setDir l d).freeCtr = s.freeCtr := rfl
@[simp] theorem State.setDir_objs (s : State) (l : Nat) (d : Dir) : (s.setDir l d).objs = s.objs := rfl
@[simp] theorem State.setDir_octs (s : State) (l : Nat) (d : Dir) : (s.setDir l d).octs = s.octs := rfl
@[simp] theorem State.setDir_mem (s : State) (l : Nat) (d : Dir) : (s.setDir l d).mem = s.mem := rfl
@[simp] theorem State.setDir_poison (s : State) (l : Nat) (d : Dir) : (s.setDir l d).poison = s.poison := rfl
@[simp] theorem State.setDir_chunkKey (s : State) (l : Nat) (d : Dir) : (s.setDir l d).chunkKey = s.chunkKey := rfl
@[simp] theorem State.setDir_dramBad (s : State) (l : Nat) (d : Dir) : (s.setDir l d).dramBad = s.dramBad := rfl
@[simp] theorem State.setDir_chart (s : State) (l : Nat) (d : Dir) : (s.setDir l d).chart = s.chart := rfl
@[simp] theorem State.setDir_reqs (s : State) (l : Nat) (d : Dir) : (s.setDir l d).reqs = s.reqs := rfl
@[simp] theorem State.setDir_nextReq (s : State) (l : Nat) (d : Dir) : (s.setDir l d).nextReq = s.nextReq := rfl
@[simp] theorem State.setDir_cmps (s : State) (l : Nat) (d : Dir) : (s.setDir l d).cmps = s.cmps := rfl
@[simp] theorem State.setDir_frecs (s : State) (l : Nat) (d : Dir) : (s.setDir l d).frecs = s.frecs := rfl
@[simp] theorem State.setDir_ctxs (s : State) (l : Nat) (d : Dir) : (s.setDir l d).ctxs = s.ctxs := rfl
@[simp] theorem State.setDir_pol (s : State) (l : Nat) (d : Dir) : (s.setDir l d).pol = s.pol := rfl
@[simp] theorem State.setDir_agents (s : State) (l : Nat) (d : Dir) : (s.setDir l d).agents = s.agents := rfl
@[simp] theorem State.setDir_slices (s : State) (l : Nat) (d : Dir) : (s.setDir l d).slices = s.slices := rfl
@[simp] theorem State.setDir_txq (s : State) (l : Nat) (d : Dir) : (s.setDir l d).txq = s.txq := rfl
@[simp] theorem State.setDir_out (s : State) (l : Nat) (d : Dir) : (s.setDir l d).out = s.out := rfl
@[simp] theorem State.setDir_log (s : State) (l : Nat) (d : Dir) : (s.setDir l d).log = s.log := rfl
@[simp] theorem State.setDir_maps (s : State) (l : Nat) (d : Dir) : (s.setDir l d).maps = s.maps := rfl
@[simp] theorem State.setDir_migs (s : State) (l : Nat) (d : Dir) : (s.setDir l d).migs = s.migs := rfl
@[simp] theorem State.setDir_mwrs (s : State) (l : Nat) (d : Dir) : (s.setDir l d).mwrs = s.mwrs := rfl
@[simp] theorem State.setDir_xid (s : State) (l : Nat) (d : Dir) : (s.setDir l d).xid = s.xid := rfl
@[simp] theorem State.setDir_rates (s : State) (l : Nat) (d : Dir) : (s.setDir l d).rates = s.rates := rfl
@[simp] theorem State.setDir_drains (s : State) (l : Nat) (d : Dir) : (s.setDir l d).drains = s.drains := rfl
@[simp] theorem State.setDir_ecache (s : State) (l : Nat) (d : Dir) : (s.setDir l d).ecache = s.ecache := rfl
@[simp] theorem State.setDir_frMsi (s : State) (l : Nat) (d : Dir) : (s.setDir l d).frMsi = s.frMsi := rfl
@[simp] theorem State.setDir_epochNow (s : State) (l : Nat) (d : Dir) : (s.setDir l d).epochNow = s.epochNow := rfl
@[simp] theorem State.setDir_grantKey (s : State) (l : Nat) (d : Dir) : (s.setDir l d).grantKey = s.grantKey := rfl
@[simp] theorem State.setDir_jobs (s : State) (l : Nat) (d : Dir) : (s.setDir l d).jobs = s.jobs := rfl
@[simp] theorem State.setDir_tends (s : State) (l : Nat) (d : Dir) : (s.setDir l d).tends = s.tends := rfl
@[simp] theorem State.setDir_units (s : State) (l : Nat) (d : Dir) : (s.setDir l d).units = s.units := rfl
@[simp] theorem State.setDir_nextKey (s : State) (l : Nat) (d : Dir) : (s.setDir l d).nextKey = s.nextKey := rfl
@[simp] theorem State.setDir_pwr (s : State) (l : Nat) (d : Dir) : (s.setDir l d).pwr = s.pwr := rfl
@[simp] theorem State.setDir_dram (s : State) (l : Nat) (d : Dir) : (s.setDir l d).dram = s.dram := rfl
@[simp] theorem State.setDir_ces (s : State) (l : Nat) (d : Dir) : (s.setDir l d).ces = s.ces := rfl
@[simp] theorem State.setDir_scrub (s : State) (l : Nat) (d : Dir) : (s.setDir l d).scrub = s.scrub := rfl
@[simp] theorem State.setDir_pool (s : State) (l : Nat) (d : Dir) : (s.setDir l d).pool = s.pool := rfl
@[simp] theorem State.setDir_ports (s : State) (l : Nat) (d : Dir) : (s.setDir l d).ports = s.ports := rfl
@[simp] theorem State.setDir_lostPorts (s : State) (l : Nat) (d : Dir) : (s.setDir l d).lostPorts = s.lostPorts := rfl
@[simp] theorem State.setDir_sess (s : State) (l : Nat) (d : Dir) : (s.setDir l d).sess = s.sess := rfl
@[simp] theorem State.setDir_sec (s : State) (l : Nat) (d : Dir) : (s.setDir l d).sec = s.sec := rfl
@[simp] theorem State.setDir_rst (s : State) (l : Nat) (d : Dir) : (s.setDir l d).rst = s.rst := rfl
@[simp] theorem State.setDir_ll (s : State) (l : Nat) (d : Dir) : (s.setDir l d).ll = s.ll := rfl
@[simp] theorem State.setDir_read_ov (s : State) (l : Nat) (d : Dir) (ob : Obj) (k1 k2 : Nat) : (s.setDir l d).ov ob k1 k2 = s.ov ob k1 k2 := rfl
@[simp] theorem State.setDir_read_oct (s : State) (l : Nat) (d : Dir) (ob : Obj) (k1 k2 : Nat) : (s.setDir l d).oct ob k1 k2 = s.oct ob k1 k2 := rfl
@[simp] theorem State.setDir_read_ctx (s : State) (l : Nat) (d : Dir) (k1 : Nat) : (s.setDir l d).ctx k1 = s.ctx k1 := rfl
@[simp] theorem State.setDir_read_agent (s : State) (l : Nat) (d : Dir) (k1 : Nat) : (s.setDir l d).agent k1 = s.agent k1 := rfl
@[simp] theorem State.setDir_read_slc (s : State) (l : Nat) (d : Dir) (k1 : Nat) : (s.setDir l d).slc k1 = s.slc k1 := rfl
@[simp] theorem State.setDir_read_ext (s : State) (l : Nat) (d : Dir) (k1 : Nat) : (s.setDir l d).ext k1 = s.ext k1 := rfl
@[simp] theorem State.setDir_read_frame (s : State) (l : Nat) (d : Dir) (k1 : Nat) : (s.setDir l d).frame k1 = s.frame k1 := rfl
@[simp] theorem State.setDir_read_entry (s : State) (l : Nat) (d : Dir) (k1 : Nat) : (s.setDir l d).entry k1 = s.entry k1 := rfl
@[simp] theorem State.setDir_read_lport (s : State) (l : Nat) (d : Dir) (k1 : Nat) : (s.setDir l d).lport k1 = s.lport k1 := rfl
@[simp] theorem State.setDir_read_session (s : State) (l : Nat) (d : Dir) (k1 : Nat) : (s.setDir l d).session k1 = s.session k1 := rfl

/-! ### `State.setExt` writes `chart` -/

@[simp] theorem State.setExt_pending (s : State) (slot : Nat) (x : Ext) : (s.setExt slot x).pending = s.pending := rfl
@[simp] theorem State.setExt_ltc (s : State) (slot : Nat) (x : Ext) : (s.setExt slot x).ltc = s.ltc := rfl
@[simp] theorem State.setExt_freeCtr (s : State) (slot : Nat) (x : Ext) : (s.setExt slot x).freeCtr = s.freeCtr := rfl
@[simp] theorem State.setExt_objs (s : State) (slot : Nat) (x : Ext) : (s.setExt slot x).objs = s.objs := rfl
@[simp] theorem State.setExt_octs (s : State) (slot : Nat) (x : Ext) : (s.setExt slot x).octs = s.octs := rfl
@[simp] theorem State.setExt_mem (s : State) (slot : Nat) (x : Ext) : (s.setExt slot x).mem = s.mem := rfl
@[simp] theorem State.setExt_poison (s : State) (slot : Nat) (x : Ext) : (s.setExt slot x).poison = s.poison := rfl
@[simp] theorem State.setExt_chunkKey (s : State) (slot : Nat) (x : Ext) : (s.setExt slot x).chunkKey = s.chunkKey := rfl
@[simp] theorem State.setExt_dramBad (s : State) (slot : Nat) (x : Ext) : (s.setExt slot x).dramBad = s.dramBad := rfl
@[simp] theorem State.setExt_coh (s : State) (slot : Nat) (x : Ext) : (s.setExt slot x).coh = s.coh := rfl
@[simp] theorem State.setExt_reqs (s : State) (slot : Nat) (x : Ext) : (s.setExt slot x).reqs = s.reqs := rfl
@[simp] theorem State.setExt_nextReq (s : State) (slot : Nat) (x : Ext) : (s.setExt slot x).nextReq = s.nextReq := rfl
@[simp] theorem State.setExt_cmps (s : State) (slot : Nat) (x : Ext) : (s.setExt slot x).cmps = s.cmps := rfl
@[simp] theorem State.setExt_frecs (s : State) (slot : Nat) (x : Ext) : (s.setExt slot x).frecs = s.frecs := rfl
@[simp] theorem State.setExt_ctxs (s : State) (slot : Nat) (x : Ext) : (s.setExt slot x).ctxs = s.ctxs := rfl
@[simp] theorem State.setExt_pol (s : State) (slot : Nat) (x : Ext) : (s.setExt slot x).pol = s.pol := rfl
@[simp] theorem State.setExt_agents (s : State) (slot : Nat) (x : Ext) : (s.setExt slot x).agents = s.agents := rfl
@[simp] theorem State.setExt_slices (s : State) (slot : Nat) (x : Ext) : (s.setExt slot x).slices = s.slices := rfl
@[simp] theorem State.setExt_txq (s : State) (slot : Nat) (x : Ext) : (s.setExt slot x).txq = s.txq := rfl
@[simp] theorem State.setExt_out (s : State) (slot : Nat) (x : Ext) : (s.setExt slot x).out = s.out := rfl
@[simp] theorem State.setExt_log (s : State) (slot : Nat) (x : Ext) : (s.setExt slot x).log = s.log := rfl
@[simp] theorem State.setExt_maps (s : State) (slot : Nat) (x : Ext) : (s.setExt slot x).maps = s.maps := rfl
@[simp] theorem State.setExt_migs (s : State) (slot : Nat) (x : Ext) : (s.setExt slot x).migs = s.migs := rfl
@[simp] theorem State.setExt_mwrs (s : State) (slot : Nat) (x : Ext) : (s.setExt slot x).mwrs = s.mwrs := rfl
@[simp] theorem State.setExt_xid (s : State) (slot : Nat) (x : Ext) : (s.setExt slot x).xid = s.xid := rfl
@[simp] theorem State.setExt_rates (s : State) (slot : Nat) (x : Ext) : (s.setExt slot x).rates = s.rates := rfl
@[simp] theorem State.setExt_drains (s : State) (slot : Nat) (x : Ext) : (s.setExt slot x).drains = s.drains := rfl
@[simp] theorem State.setExt_ecache (s : State) (slot : Nat) (x : Ext) : (s.setExt slot x).ecache = s.ecache := rfl
@[simp] theorem State.setExt_frMsi (s : State) (slot : Nat) (x : Ext) : (s.setExt slot x).frMsi = s.frMsi := rfl
@[simp] theorem State.setExt_epochNow (s : State) (slot : Nat) (x : Ext) : (s.setExt slot x).epochNow = s.epochNow := rfl
@[simp] theorem State.setExt_grantKey (s : State) (slot : Nat) (x : Ext) : (s.setExt slot x).grantKey = s.grantKey := rfl
@[simp] theorem State.setExt_jobs (s : State) (slot : Nat) (x : Ext) : (s.setExt slot x).jobs = s.jobs := rfl
@[simp] theorem State.setExt_tends (s : State) (slot : Nat) (x : Ext) : (s.setExt slot x).tends = s.tends := rfl
@[simp] theorem State.setExt_units (s : State) (slot : Nat) (x : Ext) : (s.setExt slot x).units = s.units := rfl
@[simp] theorem State.setExt_nextKey (s : State) (slot : Nat) (x : Ext) : (s.setExt slot x).nextKey = s.nextKey := rfl
@[simp] theorem State.setExt_pwr (s : State) (slot : Nat) (x : Ext) : (s.setExt slot x).pwr = s.pwr := rfl
@[simp] theorem State.setExt_dram (s : State) (slot : Nat) (x : Ext) : (s.setExt slot x).dram = s.dram := rfl
@[simp] theorem State.setExt_ces (s : State) (slot : Nat) (x : Ext) : (s.setExt slot x).ces = s.ces := rfl
@[simp] theorem State.setExt_scrub (s : State) (slot : Nat) (x : Ext) : (s.setExt slot x).scrub = s.scrub := rfl
@[simp] theorem State.setExt_pool (s : State) (slot : Nat) (x : Ext) : (s.setExt slot x).pool = s.pool := rfl
@[simp] theorem State.setExt_ports (s : State) (slot : Nat) (x : Ext) : (s.setExt slot x).ports = s.ports := rfl
@[simp] theorem State.setExt_lostPorts (s : State) (slot : Nat) (x : Ext) : (s.setExt slot x).lostPorts = s.lostPorts := rfl
@[simp] theorem State.setExt_sess (s : State) (slot : Nat) (x : Ext) : (s.setExt slot x).sess = s.sess := rfl
@[simp] theorem State.setExt_sec (s : State) (slot : Nat) (x : Ext) : (s.setExt slot x).sec = s.sec := rfl
@[simp] theorem State.setExt_rst (s : State) (slot : Nat) (x : Ext) : (s.setExt slot x).rst = s.rst := rfl
@[simp] theorem State.setExt_ll (s : State) (slot : Nat) (x : Ext) : (s.setExt slot x).ll = s.ll := rfl
@[simp] theorem State.setExt_read_ov (s : State) (slot : Nat) (x : Ext) (ob : Obj) (k1 k2 : Nat) : (s.setExt slot x).ov ob k1 k2 = s.ov ob k1 k2 := rfl
@[simp] theorem State.setExt_read_oct (s : State) (slot : Nat) (x : Ext) (ob : Obj) (k1 k2 : Nat) : (s.setExt slot x).oct ob k1 k2 = s.oct ob k1 k2 := rfl
@[simp] theorem State.setExt_read_ctx (s : State) (slot : Nat) (x : Ext) (k1 : Nat) : (s.setExt slot x).ctx k1 = s.ctx k1 := rfl
@[simp] theorem State.setExt_read_agent (s : State) (slot : Nat) (x : Ext) (k1 : Nat) : (s.setExt slot x).agent k1 = s.agent k1 := rfl
@[simp] theorem State.setExt_read_slc (s : State) (slot : Nat) (x : Ext) (k1 : Nat) : (s.setExt slot x).slc k1 = s.slc k1 := rfl
@[simp] theorem State.setExt_read_dir (s : State) (slot : Nat) (x : Ext) (k1 : Nat) : (s.setExt slot x).dir k1 = s.dir k1 := rfl
@[simp] theorem State.setExt_read_lport (s : State) (slot : Nat) (x : Ext) (k1 : Nat) : (s.setExt slot x).lport k1 = s.lport k1 := rfl
@[simp] theorem State.setExt_read_session (s : State) (slot : Nat) (x : Ext) (k1 : Nat) : (s.setExt slot x).session k1 = s.session k1 := rfl

/-! ### `State.setFrame` writes `chart` -/

@[simp] theorem State.setFrame_pending (s : State) (f : Nat) (x : Frame) : (s.setFrame f x).pending = s.pending := rfl
@[simp] theorem State.setFrame_ltc (s : State) (f : Nat) (x : Frame) : (s.setFrame f x).ltc = s.ltc := rfl
@[simp] theorem State.setFrame_freeCtr (s : State) (f : Nat) (x : Frame) : (s.setFrame f x).freeCtr = s.freeCtr := rfl
@[simp] theorem State.setFrame_objs (s : State) (f : Nat) (x : Frame) : (s.setFrame f x).objs = s.objs := rfl
@[simp] theorem State.setFrame_octs (s : State) (f : Nat) (x : Frame) : (s.setFrame f x).octs = s.octs := rfl
@[simp] theorem State.setFrame_mem (s : State) (f : Nat) (x : Frame) : (s.setFrame f x).mem = s.mem := rfl
@[simp] theorem State.setFrame_poison (s : State) (f : Nat) (x : Frame) : (s.setFrame f x).poison = s.poison := rfl
@[simp] theorem State.setFrame_chunkKey (s : State) (f : Nat) (x : Frame) : (s.setFrame f x).chunkKey = s.chunkKey := rfl
@[simp] theorem State.setFrame_dramBad (s : State) (f : Nat) (x : Frame) : (s.setFrame f x).dramBad = s.dramBad := rfl
@[simp] theorem State.setFrame_coh (s : State) (f : Nat) (x : Frame) : (s.setFrame f x).coh = s.coh := rfl
@[simp] theorem State.setFrame_reqs (s : State) (f : Nat) (x : Frame) : (s.setFrame f x).reqs = s.reqs := rfl
@[simp] theorem State.setFrame_nextReq (s : State) (f : Nat) (x : Frame) : (s.setFrame f x).nextReq = s.nextReq := rfl
@[simp] theorem State.setFrame_cmps (s : State) (f : Nat) (x : Frame) : (s.setFrame f x).cmps = s.cmps := rfl
@[simp] theorem State.setFrame_frecs (s : State) (f : Nat) (x : Frame) : (s.setFrame f x).frecs = s.frecs := rfl
@[simp] theorem State.setFrame_ctxs (s : State) (f : Nat) (x : Frame) : (s.setFrame f x).ctxs = s.ctxs := rfl
@[simp] theorem State.setFrame_pol (s : State) (f : Nat) (x : Frame) : (s.setFrame f x).pol = s.pol := rfl
@[simp] theorem State.setFrame_agents (s : State) (f : Nat) (x : Frame) : (s.setFrame f x).agents = s.agents := rfl
@[simp] theorem State.setFrame_slices (s : State) (f : Nat) (x : Frame) : (s.setFrame f x).slices = s.slices := rfl
@[simp] theorem State.setFrame_txq (s : State) (f : Nat) (x : Frame) : (s.setFrame f x).txq = s.txq := rfl
@[simp] theorem State.setFrame_out (s : State) (f : Nat) (x : Frame) : (s.setFrame f x).out = s.out := rfl
@[simp] theorem State.setFrame_log (s : State) (f : Nat) (x : Frame) : (s.setFrame f x).log = s.log := rfl
@[simp] theorem State.setFrame_maps (s : State) (f : Nat) (x : Frame) : (s.setFrame f x).maps = s.maps := rfl
@[simp] theorem State.setFrame_migs (s : State) (f : Nat) (x : Frame) : (s.setFrame f x).migs = s.migs := rfl
@[simp] theorem State.setFrame_mwrs (s : State) (f : Nat) (x : Frame) : (s.setFrame f x).mwrs = s.mwrs := rfl
@[simp] theorem State.setFrame_xid (s : State) (f : Nat) (x : Frame) : (s.setFrame f x).xid = s.xid := rfl
@[simp] theorem State.setFrame_rates (s : State) (f : Nat) (x : Frame) : (s.setFrame f x).rates = s.rates := rfl
@[simp] theorem State.setFrame_drains (s : State) (f : Nat) (x : Frame) : (s.setFrame f x).drains = s.drains := rfl
@[simp] theorem State.setFrame_ecache (s : State) (f : Nat) (x : Frame) : (s.setFrame f x).ecache = s.ecache := rfl
@[simp] theorem State.setFrame_frMsi (s : State) (f : Nat) (x : Frame) : (s.setFrame f x).frMsi = s.frMsi := rfl
@[simp] theorem State.setFrame_epochNow (s : State) (f : Nat) (x : Frame) : (s.setFrame f x).epochNow = s.epochNow := rfl
@[simp] theorem State.setFrame_grantKey (s : State) (f : Nat) (x : Frame) : (s.setFrame f x).grantKey = s.grantKey := rfl
@[simp] theorem State.setFrame_jobs (s : State) (f : Nat) (x : Frame) : (s.setFrame f x).jobs = s.jobs := rfl
@[simp] theorem State.setFrame_tends (s : State) (f : Nat) (x : Frame) : (s.setFrame f x).tends = s.tends := rfl
@[simp] theorem State.setFrame_units (s : State) (f : Nat) (x : Frame) : (s.setFrame f x).units = s.units := rfl
@[simp] theorem State.setFrame_nextKey (s : State) (f : Nat) (x : Frame) : (s.setFrame f x).nextKey = s.nextKey := rfl
@[simp] theorem State.setFrame_pwr (s : State) (f : Nat) (x : Frame) : (s.setFrame f x).pwr = s.pwr := rfl
@[simp] theorem State.setFrame_dram (s : State) (f : Nat) (x : Frame) : (s.setFrame f x).dram = s.dram := rfl
@[simp] theorem State.setFrame_ces (s : State) (f : Nat) (x : Frame) : (s.setFrame f x).ces = s.ces := rfl
@[simp] theorem State.setFrame_scrub (s : State) (f : Nat) (x : Frame) : (s.setFrame f x).scrub = s.scrub := rfl
@[simp] theorem State.setFrame_pool (s : State) (f : Nat) (x : Frame) : (s.setFrame f x).pool = s.pool := rfl
@[simp] theorem State.setFrame_ports (s : State) (f : Nat) (x : Frame) : (s.setFrame f x).ports = s.ports := rfl
@[simp] theorem State.setFrame_lostPorts (s : State) (f : Nat) (x : Frame) : (s.setFrame f x).lostPorts = s.lostPorts := rfl
@[simp] theorem State.setFrame_sess (s : State) (f : Nat) (x : Frame) : (s.setFrame f x).sess = s.sess := rfl
@[simp] theorem State.setFrame_sec (s : State) (f : Nat) (x : Frame) : (s.setFrame f x).sec = s.sec := rfl
@[simp] theorem State.setFrame_rst (s : State) (f : Nat) (x : Frame) : (s.setFrame f x).rst = s.rst := rfl
@[simp] theorem State.setFrame_ll (s : State) (f : Nat) (x : Frame) : (s.setFrame f x).ll = s.ll := rfl
@[simp] theorem State.setFrame_read_ov (s : State) (f : Nat) (x : Frame) (ob : Obj) (k1 k2 : Nat) : (s.setFrame f x).ov ob k1 k2 = s.ov ob k1 k2 := rfl
@[simp] theorem State.setFrame_read_oct (s : State) (f : Nat) (x : Frame) (ob : Obj) (k1 k2 : Nat) : (s.setFrame f x).oct ob k1 k2 = s.oct ob k1 k2 := rfl
@[simp] theorem State.setFrame_read_ctx (s : State) (f : Nat) (x : Frame) (k1 : Nat) : (s.setFrame f x).ctx k1 = s.ctx k1 := rfl
@[simp] theorem State.setFrame_read_agent (s : State) (f : Nat) (x : Frame) (k1 : Nat) : (s.setFrame f x).agent k1 = s.agent k1 := rfl
@[simp] theorem State.setFrame_read_slc (s : State) (f : Nat) (x : Frame) (k1 : Nat) : (s.setFrame f x).slc k1 = s.slc k1 := rfl
@[simp] theorem State.setFrame_read_dir (s : State) (f : Nat) (x : Frame) (k1 : Nat) : (s.setFrame f x).dir k1 = s.dir k1 := rfl
@[simp] theorem State.setFrame_read_lport (s : State) (f : Nat) (x : Frame) (k1 : Nat) : (s.setFrame f x).lport k1 = s.lport k1 := rfl
@[simp] theorem State.setFrame_read_session (s : State) (f : Nat) (x : Frame) (k1 : Nat) : (s.setFrame f x).session k1 = s.session k1 := rfl

/-! ### `State.setEntry` writes `chart` -/

@[simp] theorem State.setEntry_pending (s : State) (i : Nat) (e : Entry) : (s.setEntry i e).pending = s.pending := rfl
@[simp] theorem State.setEntry_ltc (s : State) (i : Nat) (e : Entry) : (s.setEntry i e).ltc = s.ltc := rfl
@[simp] theorem State.setEntry_freeCtr (s : State) (i : Nat) (e : Entry) : (s.setEntry i e).freeCtr = s.freeCtr := rfl
@[simp] theorem State.setEntry_objs (s : State) (i : Nat) (e : Entry) : (s.setEntry i e).objs = s.objs := rfl
@[simp] theorem State.setEntry_octs (s : State) (i : Nat) (e : Entry) : (s.setEntry i e).octs = s.octs := rfl
@[simp] theorem State.setEntry_mem (s : State) (i : Nat) (e : Entry) : (s.setEntry i e).mem = s.mem := rfl
@[simp] theorem State.setEntry_poison (s : State) (i : Nat) (e : Entry) : (s.setEntry i e).poison = s.poison := rfl
@[simp] theorem State.setEntry_chunkKey (s : State) (i : Nat) (e : Entry) : (s.setEntry i e).chunkKey = s.chunkKey := rfl
@[simp] theorem State.setEntry_dramBad (s : State) (i : Nat) (e : Entry) : (s.setEntry i e).dramBad = s.dramBad := rfl
@[simp] theorem State.setEntry_coh (s : State) (i : Nat) (e : Entry) : (s.setEntry i e).coh = s.coh := rfl
@[simp] theorem State.setEntry_reqs (s : State) (i : Nat) (e : Entry) : (s.setEntry i e).reqs = s.reqs := rfl
@[simp] theorem State.setEntry_nextReq (s : State) (i : Nat) (e : Entry) : (s.setEntry i e).nextReq = s.nextReq := rfl
@[simp] theorem State.setEntry_cmps (s : State) (i : Nat) (e : Entry) : (s.setEntry i e).cmps = s.cmps := rfl
@[simp] theorem State.setEntry_frecs (s : State) (i : Nat) (e : Entry) : (s.setEntry i e).frecs = s.frecs := rfl
@[simp] theorem State.setEntry_ctxs (s : State) (i : Nat) (e : Entry) : (s.setEntry i e).ctxs = s.ctxs := rfl
@[simp] theorem State.setEntry_pol (s : State) (i : Nat) (e : Entry) : (s.setEntry i e).pol = s.pol := rfl
@[simp] theorem State.setEntry_agents (s : State) (i : Nat) (e : Entry) : (s.setEntry i e).agents = s.agents := rfl
@[simp] theorem State.setEntry_slices (s : State) (i : Nat) (e : Entry) : (s.setEntry i e).slices = s.slices := rfl
@[simp] theorem State.setEntry_txq (s : State) (i : Nat) (e : Entry) : (s.setEntry i e).txq = s.txq := rfl
@[simp] theorem State.setEntry_out (s : State) (i : Nat) (e : Entry) : (s.setEntry i e).out = s.out := rfl
@[simp] theorem State.setEntry_log (s : State) (i : Nat) (e : Entry) : (s.setEntry i e).log = s.log := rfl
@[simp] theorem State.setEntry_maps (s : State) (i : Nat) (e : Entry) : (s.setEntry i e).maps = s.maps := rfl
@[simp] theorem State.setEntry_migs (s : State) (i : Nat) (e : Entry) : (s.setEntry i e).migs = s.migs := rfl
@[simp] theorem State.setEntry_mwrs (s : State) (i : Nat) (e : Entry) : (s.setEntry i e).mwrs = s.mwrs := rfl
@[simp] theorem State.setEntry_xid (s : State) (i : Nat) (e : Entry) : (s.setEntry i e).xid = s.xid := rfl
@[simp] theorem State.setEntry_rates (s : State) (i : Nat) (e : Entry) : (s.setEntry i e).rates = s.rates := rfl
@[simp] theorem State.setEntry_drains (s : State) (i : Nat) (e : Entry) : (s.setEntry i e).drains = s.drains := rfl
@[simp] theorem State.setEntry_ecache (s : State) (i : Nat) (e : Entry) : (s.setEntry i e).ecache = s.ecache := rfl
@[simp] theorem State.setEntry_frMsi (s : State) (i : Nat) (e : Entry) : (s.setEntry i e).frMsi = s.frMsi := rfl
@[simp] theorem State.setEntry_epochNow (s : State) (i : Nat) (e : Entry) : (s.setEntry i e).epochNow = s.epochNow := rfl
@[simp] theorem State.setEntry_grantKey (s : State) (i : Nat) (e : Entry) : (s.setEntry i e).grantKey = s.grantKey := rfl
@[simp] theorem State.setEntry_jobs (s : State) (i : Nat) (e : Entry) : (s.setEntry i e).jobs = s.jobs := rfl
@[simp] theorem State.setEntry_tends (s : State) (i : Nat) (e : Entry) : (s.setEntry i e).tends = s.tends := rfl
@[simp] theorem State.setEntry_units (s : State) (i : Nat) (e : Entry) : (s.setEntry i e).units = s.units := rfl
@[simp] theorem State.setEntry_nextKey (s : State) (i : Nat) (e : Entry) : (s.setEntry i e).nextKey = s.nextKey := rfl
@[simp] theorem State.setEntry_pwr (s : State) (i : Nat) (e : Entry) : (s.setEntry i e).pwr = s.pwr := rfl
@[simp] theorem State.setEntry_dram (s : State) (i : Nat) (e : Entry) : (s.setEntry i e).dram = s.dram := rfl
@[simp] theorem State.setEntry_ces (s : State) (i : Nat) (e : Entry) : (s.setEntry i e).ces = s.ces := rfl
@[simp] theorem State.setEntry_scrub (s : State) (i : Nat) (e : Entry) : (s.setEntry i e).scrub = s.scrub := rfl
@[simp] theorem State.setEntry_pool (s : State) (i : Nat) (e : Entry) : (s.setEntry i e).pool = s.pool := rfl
@[simp] theorem State.setEntry_ports (s : State) (i : Nat) (e : Entry) : (s.setEntry i e).ports = s.ports := rfl
@[simp] theorem State.setEntry_lostPorts (s : State) (i : Nat) (e : Entry) : (s.setEntry i e).lostPorts = s.lostPorts := rfl
@[simp] theorem State.setEntry_sess (s : State) (i : Nat) (e : Entry) : (s.setEntry i e).sess = s.sess := rfl
@[simp] theorem State.setEntry_sec (s : State) (i : Nat) (e : Entry) : (s.setEntry i e).sec = s.sec := rfl
@[simp] theorem State.setEntry_rst (s : State) (i : Nat) (e : Entry) : (s.setEntry i e).rst = s.rst := rfl
@[simp] theorem State.setEntry_ll (s : State) (i : Nat) (e : Entry) : (s.setEntry i e).ll = s.ll := rfl
@[simp] theorem State.setEntry_read_ov (s : State) (i : Nat) (e : Entry) (ob : Obj) (k1 k2 : Nat) : (s.setEntry i e).ov ob k1 k2 = s.ov ob k1 k2 := rfl
@[simp] theorem State.setEntry_read_oct (s : State) (i : Nat) (e : Entry) (ob : Obj) (k1 k2 : Nat) : (s.setEntry i e).oct ob k1 k2 = s.oct ob k1 k2 := rfl
@[simp] theorem State.setEntry_read_ctx (s : State) (i : Nat) (e : Entry) (k1 : Nat) : (s.setEntry i e).ctx k1 = s.ctx k1 := rfl
@[simp] theorem State.setEntry_read_agent (s : State) (i : Nat) (e : Entry) (k1 : Nat) : (s.setEntry i e).agent k1 = s.agent k1 := rfl
@[simp] theorem State.setEntry_read_slc (s : State) (i : Nat) (e : Entry) (k1 : Nat) : (s.setEntry i e).slc k1 = s.slc k1 := rfl
@[simp] theorem State.setEntry_read_dir (s : State) (i : Nat) (e : Entry) (k1 : Nat) : (s.setEntry i e).dir k1 = s.dir k1 := rfl
@[simp] theorem State.setEntry_read_lport (s : State) (i : Nat) (e : Entry) (k1 : Nat) : (s.setEntry i e).lport k1 = s.lport k1 := rfl
@[simp] theorem State.setEntry_read_session (s : State) (i : Nat) (e : Entry) (k1 : Nat) : (s.setEntry i e).session k1 = s.session k1 := rfl

/-! ### `State.setBank` writes `chart` -/

@[simp] theorem State.setBank_pending (s : State) (pf b : Nat) (x : Stg) : (s.setBank pf b x).pending = s.pending := rfl
@[simp] theorem State.setBank_ltc (s : State) (pf b : Nat) (x : Stg) : (s.setBank pf b x).ltc = s.ltc := rfl
@[simp] theorem State.setBank_freeCtr (s : State) (pf b : Nat) (x : Stg) : (s.setBank pf b x).freeCtr = s.freeCtr := rfl
@[simp] theorem State.setBank_objs (s : State) (pf b : Nat) (x : Stg) : (s.setBank pf b x).objs = s.objs := rfl
@[simp] theorem State.setBank_octs (s : State) (pf b : Nat) (x : Stg) : (s.setBank pf b x).octs = s.octs := rfl
@[simp] theorem State.setBank_mem (s : State) (pf b : Nat) (x : Stg) : (s.setBank pf b x).mem = s.mem := rfl
@[simp] theorem State.setBank_poison (s : State) (pf b : Nat) (x : Stg) : (s.setBank pf b x).poison = s.poison := rfl
@[simp] theorem State.setBank_chunkKey (s : State) (pf b : Nat) (x : Stg) : (s.setBank pf b x).chunkKey = s.chunkKey := rfl
@[simp] theorem State.setBank_dramBad (s : State) (pf b : Nat) (x : Stg) : (s.setBank pf b x).dramBad = s.dramBad := rfl
@[simp] theorem State.setBank_coh (s : State) (pf b : Nat) (x : Stg) : (s.setBank pf b x).coh = s.coh := rfl
@[simp] theorem State.setBank_reqs (s : State) (pf b : Nat) (x : Stg) : (s.setBank pf b x).reqs = s.reqs := rfl
@[simp] theorem State.setBank_nextReq (s : State) (pf b : Nat) (x : Stg) : (s.setBank pf b x).nextReq = s.nextReq := rfl
@[simp] theorem State.setBank_cmps (s : State) (pf b : Nat) (x : Stg) : (s.setBank pf b x).cmps = s.cmps := rfl
@[simp] theorem State.setBank_frecs (s : State) (pf b : Nat) (x : Stg) : (s.setBank pf b x).frecs = s.frecs := rfl
@[simp] theorem State.setBank_ctxs (s : State) (pf b : Nat) (x : Stg) : (s.setBank pf b x).ctxs = s.ctxs := rfl
@[simp] theorem State.setBank_pol (s : State) (pf b : Nat) (x : Stg) : (s.setBank pf b x).pol = s.pol := rfl
@[simp] theorem State.setBank_agents (s : State) (pf b : Nat) (x : Stg) : (s.setBank pf b x).agents = s.agents := rfl
@[simp] theorem State.setBank_slices (s : State) (pf b : Nat) (x : Stg) : (s.setBank pf b x).slices = s.slices := rfl
@[simp] theorem State.setBank_txq (s : State) (pf b : Nat) (x : Stg) : (s.setBank pf b x).txq = s.txq := rfl
@[simp] theorem State.setBank_out (s : State) (pf b : Nat) (x : Stg) : (s.setBank pf b x).out = s.out := rfl
@[simp] theorem State.setBank_log (s : State) (pf b : Nat) (x : Stg) : (s.setBank pf b x).log = s.log := rfl
@[simp] theorem State.setBank_maps (s : State) (pf b : Nat) (x : Stg) : (s.setBank pf b x).maps = s.maps := rfl
@[simp] theorem State.setBank_migs (s : State) (pf b : Nat) (x : Stg) : (s.setBank pf b x).migs = s.migs := rfl
@[simp] theorem State.setBank_mwrs (s : State) (pf b : Nat) (x : Stg) : (s.setBank pf b x).mwrs = s.mwrs := rfl
@[simp] theorem State.setBank_xid (s : State) (pf b : Nat) (x : Stg) : (s.setBank pf b x).xid = s.xid := rfl
@[simp] theorem State.setBank_rates (s : State) (pf b : Nat) (x : Stg) : (s.setBank pf b x).rates = s.rates := rfl
@[simp] theorem State.setBank_drains (s : State) (pf b : Nat) (x : Stg) : (s.setBank pf b x).drains = s.drains := rfl
@[simp] theorem State.setBank_ecache (s : State) (pf b : Nat) (x : Stg) : (s.setBank pf b x).ecache = s.ecache := rfl
@[simp] theorem State.setBank_frMsi (s : State) (pf b : Nat) (x : Stg) : (s.setBank pf b x).frMsi = s.frMsi := rfl
@[simp] theorem State.setBank_epochNow (s : State) (pf b : Nat) (x : Stg) : (s.setBank pf b x).epochNow = s.epochNow := rfl
@[simp] theorem State.setBank_grantKey (s : State) (pf b : Nat) (x : Stg) : (s.setBank pf b x).grantKey = s.grantKey := rfl
@[simp] theorem State.setBank_jobs (s : State) (pf b : Nat) (x : Stg) : (s.setBank pf b x).jobs = s.jobs := rfl
@[simp] theorem State.setBank_tends (s : State) (pf b : Nat) (x : Stg) : (s.setBank pf b x).tends = s.tends := rfl
@[simp] theorem State.setBank_units (s : State) (pf b : Nat) (x : Stg) : (s.setBank pf b x).units = s.units := rfl
@[simp] theorem State.setBank_nextKey (s : State) (pf b : Nat) (x : Stg) : (s.setBank pf b x).nextKey = s.nextKey := rfl
@[simp] theorem State.setBank_pwr (s : State) (pf b : Nat) (x : Stg) : (s.setBank pf b x).pwr = s.pwr := rfl
@[simp] theorem State.setBank_dram (s : State) (pf b : Nat) (x : Stg) : (s.setBank pf b x).dram = s.dram := rfl
@[simp] theorem State.setBank_ces (s : State) (pf b : Nat) (x : Stg) : (s.setBank pf b x).ces = s.ces := rfl
@[simp] theorem State.setBank_scrub (s : State) (pf b : Nat) (x : Stg) : (s.setBank pf b x).scrub = s.scrub := rfl
@[simp] theorem State.setBank_pool (s : State) (pf b : Nat) (x : Stg) : (s.setBank pf b x).pool = s.pool := rfl
@[simp] theorem State.setBank_ports (s : State) (pf b : Nat) (x : Stg) : (s.setBank pf b x).ports = s.ports := rfl
@[simp] theorem State.setBank_lostPorts (s : State) (pf b : Nat) (x : Stg) : (s.setBank pf b x).lostPorts = s.lostPorts := rfl
@[simp] theorem State.setBank_sess (s : State) (pf b : Nat) (x : Stg) : (s.setBank pf b x).sess = s.sess := rfl
@[simp] theorem State.setBank_sec (s : State) (pf b : Nat) (x : Stg) : (s.setBank pf b x).sec = s.sec := rfl
@[simp] theorem State.setBank_rst (s : State) (pf b : Nat) (x : Stg) : (s.setBank pf b x).rst = s.rst := rfl
@[simp] theorem State.setBank_ll (s : State) (pf b : Nat) (x : Stg) : (s.setBank pf b x).ll = s.ll := rfl
@[simp] theorem State.setBank_read_ov (s : State) (pf b : Nat) (x : Stg) (ob : Obj) (k1 k2 : Nat) : (s.setBank pf b x).ov ob k1 k2 = s.ov ob k1 k2 := rfl
@[simp] theorem State.setBank_read_oct (s : State) (pf b : Nat) (x : Stg) (ob : Obj) (k1 k2 : Nat) : (s.setBank pf b x).oct ob k1 k2 = s.oct ob k1 k2 := rfl
@[simp] theorem State.setBank_read_ctx (s : State) (pf b : Nat) (x : Stg) (k1 : Nat) : (s.setBank pf b x).ctx k1 = s.ctx k1 := rfl
@[simp] theorem State.setBank_read_agent (s : State) (pf b : Nat) (x : Stg) (k1 : Nat) : (s.setBank pf b x).agent k1 = s.agent k1 := rfl
@[simp] theorem State.setBank_read_slc (s : State) (pf b : Nat) (x : Stg) (k1 : Nat) : (s.setBank pf b x).slc k1 = s.slc k1 := rfl
@[simp] theorem State.setBank_read_dir (s : State) (pf b : Nat) (x : Stg) (k1 : Nat) : (s.setBank pf b x).dir k1 = s.dir k1 := rfl
@[simp] theorem State.setBank_read_lport (s : State) (pf b : Nat) (x : Stg) (k1 : Nat) : (s.setBank pf b x).lport k1 = s.lport k1 := rfl
@[simp] theorem State.setBank_read_session (s : State) (pf b : Nat) (x : Stg) (k1 : Nat) : (s.setBank pf b x).session k1 = s.session k1 := rfl

/-! ### `State.send` writes `txq` -/

@[simp] theorem State.send_pending (s : State) (port : Nat) (m : Msg) : (s.send port m).pending = s.pending := rfl
@[simp] theorem State.send_ltc (s : State) (port : Nat) (m : Msg) : (s.send port m).ltc = s.ltc := rfl
@[simp] theorem State.send_freeCtr (s : State) (port : Nat) (m : Msg) : (s.send port m).freeCtr = s.freeCtr := rfl
@[simp] theorem State.send_objs (s : State) (port : Nat) (m : Msg) : (s.send port m).objs = s.objs := rfl
@[simp] theorem State.send_octs (s : State) (port : Nat) (m : Msg) : (s.send port m).octs = s.octs := rfl
@[simp] theorem State.send_mem (s : State) (port : Nat) (m : Msg) : (s.send port m).mem = s.mem := rfl
@[simp] theorem State.send_poison (s : State) (port : Nat) (m : Msg) : (s.send port m).poison = s.poison := rfl
@[simp] theorem State.send_chunkKey (s : State) (port : Nat) (m : Msg) : (s.send port m).chunkKey = s.chunkKey := rfl
@[simp] theorem State.send_dramBad (s : State) (port : Nat) (m : Msg) : (s.send port m).dramBad = s.dramBad := rfl
@[simp] theorem State.send_coh (s : State) (port : Nat) (m : Msg) : (s.send port m).coh = s.coh := rfl
@[simp] theorem State.send_chart (s : State) (port : Nat) (m : Msg) : (s.send port m).chart = s.chart := rfl
@[simp] theorem State.send_reqs (s : State) (port : Nat) (m : Msg) : (s.send port m).reqs = s.reqs := rfl
@[simp] theorem State.send_nextReq (s : State) (port : Nat) (m : Msg) : (s.send port m).nextReq = s.nextReq := rfl
@[simp] theorem State.send_cmps (s : State) (port : Nat) (m : Msg) : (s.send port m).cmps = s.cmps := rfl
@[simp] theorem State.send_frecs (s : State) (port : Nat) (m : Msg) : (s.send port m).frecs = s.frecs := rfl
@[simp] theorem State.send_ctxs (s : State) (port : Nat) (m : Msg) : (s.send port m).ctxs = s.ctxs := rfl
@[simp] theorem State.send_pol (s : State) (port : Nat) (m : Msg) : (s.send port m).pol = s.pol := rfl
@[simp] theorem State.send_agents (s : State) (port : Nat) (m : Msg) : (s.send port m).agents = s.agents := rfl
@[simp] theorem State.send_slices (s : State) (port : Nat) (m : Msg) : (s.send port m).slices = s.slices := rfl
@[simp] theorem State.send_out (s : State) (port : Nat) (m : Msg) : (s.send port m).out = s.out := rfl
@[simp] theorem State.send_log (s : State) (port : Nat) (m : Msg) : (s.send port m).log = s.log := rfl
@[simp] theorem State.send_maps (s : State) (port : Nat) (m : Msg) : (s.send port m).maps = s.maps := rfl
@[simp] theorem State.send_migs (s : State) (port : Nat) (m : Msg) : (s.send port m).migs = s.migs := rfl
@[simp] theorem State.send_mwrs (s : State) (port : Nat) (m : Msg) : (s.send port m).mwrs = s.mwrs := rfl
@[simp] theorem State.send_xid (s : State) (port : Nat) (m : Msg) : (s.send port m).xid = s.xid := rfl
@[simp] theorem State.send_rates (s : State) (port : Nat) (m : Msg) : (s.send port m).rates = s.rates := rfl
@[simp] theorem State.send_drains (s : State) (port : Nat) (m : Msg) : (s.send port m).drains = s.drains := rfl
@[simp] theorem State.send_ecache (s : State) (port : Nat) (m : Msg) : (s.send port m).ecache = s.ecache := rfl
@[simp] theorem State.send_frMsi (s : State) (port : Nat) (m : Msg) : (s.send port m).frMsi = s.frMsi := rfl
@[simp] theorem State.send_epochNow (s : State) (port : Nat) (m : Msg) : (s.send port m).epochNow = s.epochNow := rfl
@[simp] theorem State.send_grantKey (s : State) (port : Nat) (m : Msg) : (s.send port m).grantKey = s.grantKey := rfl
@[simp] theorem State.send_jobs (s : State) (port : Nat) (m : Msg) : (s.send port m).jobs = s.jobs := rfl
@[simp] theorem State.send_tends (s : State) (port : Nat) (m : Msg) : (s.send port m).tends = s.tends := rfl
@[simp] theorem State.send_units (s : State) (port : Nat) (m : Msg) : (s.send port m).units = s.units := rfl
@[simp] theorem State.send_nextKey (s : State) (port : Nat) (m : Msg) : (s.send port m).nextKey = s.nextKey := rfl
@[simp] theorem State.send_pwr (s : State) (port : Nat) (m : Msg) : (s.send port m).pwr = s.pwr := rfl
@[simp] theorem State.send_dram (s : State) (port : Nat) (m : Msg) : (s.send port m).dram = s.dram := rfl
@[simp] theorem State.send_ces (s : State) (port : Nat) (m : Msg) : (s.send port m).ces = s.ces := rfl
@[simp] theorem State.send_scrub (s : State) (port : Nat) (m : Msg) : (s.send port m).scrub = s.scrub := rfl
@[simp] theorem State.send_pool (s : State) (port : Nat) (m : Msg) : (s.send port m).pool = s.pool := rfl
@[simp] theorem State.send_ports (s : State) (port : Nat) (m : Msg) : (s.send port m).ports = s.ports := rfl
@[simp] theorem State.send_lostPorts (s : State) (port : Nat) (m : Msg) : (s.send port m).lostPorts = s.lostPorts := rfl
@[simp] theorem State.send_sess (s : State) (port : Nat) (m : Msg) : (s.send port m).sess = s.sess := rfl
@[simp] theorem State.send_sec (s : State) (port : Nat) (m : Msg) : (s.send port m).sec = s.sec := rfl
@[simp] theorem State.send_rst (s : State) (port : Nat) (m : Msg) : (s.send port m).rst = s.rst := rfl
@[simp] theorem State.send_ll (s : State) (port : Nat) (m : Msg) : (s.send port m).ll = s.ll := rfl
@[simp] theorem State.send_read_ov (s : State) (port : Nat) (m : Msg) (ob : Obj) (k1 k2 : Nat) : (s.send port m).ov ob k1 k2 = s.ov ob k1 k2 := rfl
@[simp] theorem State.send_read_oct (s : State) (port : Nat) (m : Msg) (ob : Obj) (k1 k2 : Nat) : (s.send port m).oct ob k1 k2 = s.oct ob k1 k2 := rfl
@[simp] theorem State.send_read_ctx (s : State) (port : Nat) (m : Msg) (k1 : Nat) : (s.send port m).ctx k1 = s.ctx k1 := rfl
@[simp] theorem State.send_read_agent (s : State) (port : Nat) (m : Msg) (k1 : Nat) : (s.send port m).agent k1 = s.agent k1 := rfl
@[simp] theorem State.send_read_slc (s : State) (port : Nat) (m : Msg) (k1 : Nat) : (s.send port m).slc k1 = s.slc k1 := rfl
@[simp] theorem State.send_read_dir (s : State) (port : Nat) (m : Msg) (k1 : Nat) : (s.send port m).dir k1 = s.dir k1 := rfl
@[simp] theorem State.send_read_ext (s : State) (port : Nat) (m : Msg) (k1 : Nat) : (s.send port m).ext k1 = s.ext k1 := rfl
@[simp] theorem State.send_read_frame (s : State) (port : Nat) (m : Msg) (k1 : Nat) : (s.send port m).frame k1 = s.frame k1 := rfl
@[simp] theorem State.send_read_entry (s : State) (port : Nat) (m : Msg) (k1 : Nat) : (s.send port m).entry k1 = s.entry k1 := rfl
@[simp] theorem State.send_read_lport (s : State) (port : Nat) (m : Msg) (k1 : Nat) : (s.send port m).lport k1 = s.lport k1 := rfl
@[simp] theorem State.send_read_session (s : State) (port : Nat) (m : Msg) (k1 : Nat) : (s.send port m).session k1 = s.session k1 := rfl

/-! ### `State.emit` writes `out` -/

@[simp] theorem State.emit_pending (s : State) (o : Out) : (s.emit o).pending = s.pending := rfl
@[simp] theorem State.emit_ltc (s : State) (o : Out) : (s.emit o).ltc = s.ltc := rfl
@[simp] theorem State.emit_freeCtr (s : State) (o : Out) : (s.emit o).freeCtr = s.freeCtr := rfl
@[simp] theorem State.emit_objs (s : State) (o : Out) : (s.emit o).objs = s.objs := rfl
@[simp] theorem State.emit_octs (s : State) (o : Out) : (s.emit o).octs = s.octs := rfl
@[simp] theorem State.emit_mem (s : State) (o : Out) : (s.emit o).mem = s.mem := rfl
@[simp] theorem State.emit_poison (s : State) (o : Out) : (s.emit o).poison = s.poison := rfl
@[simp] theorem State.emit_chunkKey (s : State) (o : Out) : (s.emit o).chunkKey = s.chunkKey := rfl
@[simp] theorem State.emit_dramBad (s : State) (o : Out) : (s.emit o).dramBad = s.dramBad := rfl
@[simp] theorem State.emit_coh (s : State) (o : Out) : (s.emit o).coh = s.coh := rfl
@[simp] theorem State.emit_chart (s : State) (o : Out) : (s.emit o).chart = s.chart := rfl
@[simp] theorem State.emit_reqs (s : State) (o : Out) : (s.emit o).reqs = s.reqs := rfl
@[simp] theorem State.emit_nextReq (s : State) (o : Out) : (s.emit o).nextReq = s.nextReq := rfl
@[simp] theorem State.emit_cmps (s : State) (o : Out) : (s.emit o).cmps = s.cmps := rfl
@[simp] theorem State.emit_frecs (s : State) (o : Out) : (s.emit o).frecs = s.frecs := rfl
@[simp] theorem State.emit_ctxs (s : State) (o : Out) : (s.emit o).ctxs = s.ctxs := rfl
@[simp] theorem State.emit_pol (s : State) (o : Out) : (s.emit o).pol = s.pol := rfl
@[simp] theorem State.emit_agents (s : State) (o : Out) : (s.emit o).agents = s.agents := rfl
@[simp] theorem State.emit_slices (s : State) (o : Out) : (s.emit o).slices = s.slices := rfl
@[simp] theorem State.emit_txq (s : State) (o : Out) : (s.emit o).txq = s.txq := rfl
@[simp] theorem State.emit_log (s : State) (o : Out) : (s.emit o).log = s.log := rfl
@[simp] theorem State.emit_maps (s : State) (o : Out) : (s.emit o).maps = s.maps := rfl
@[simp] theorem State.emit_migs (s : State) (o : Out) : (s.emit o).migs = s.migs := rfl
@[simp] theorem State.emit_mwrs (s : State) (o : Out) : (s.emit o).mwrs = s.mwrs := rfl
@[simp] theorem State.emit_xid (s : State) (o : Out) : (s.emit o).xid = s.xid := rfl
@[simp] theorem State.emit_rates (s : State) (o : Out) : (s.emit o).rates = s.rates := rfl
@[simp] theorem State.emit_drains (s : State) (o : Out) : (s.emit o).drains = s.drains := rfl
@[simp] theorem State.emit_ecache (s : State) (o : Out) : (s.emit o).ecache = s.ecache := rfl
@[simp] theorem State.emit_frMsi (s : State) (o : Out) : (s.emit o).frMsi = s.frMsi := rfl
@[simp] theorem State.emit_epochNow (s : State) (o : Out) : (s.emit o).epochNow = s.epochNow := rfl
@[simp] theorem State.emit_grantKey (s : State) (o : Out) : (s.emit o).grantKey = s.grantKey := rfl
@[simp] theorem State.emit_jobs (s : State) (o : Out) : (s.emit o).jobs = s.jobs := rfl
@[simp] theorem State.emit_tends (s : State) (o : Out) : (s.emit o).tends = s.tends := rfl
@[simp] theorem State.emit_units (s : State) (o : Out) : (s.emit o).units = s.units := rfl
@[simp] theorem State.emit_nextKey (s : State) (o : Out) : (s.emit o).nextKey = s.nextKey := rfl
@[simp] theorem State.emit_pwr (s : State) (o : Out) : (s.emit o).pwr = s.pwr := rfl
@[simp] theorem State.emit_dram (s : State) (o : Out) : (s.emit o).dram = s.dram := rfl
@[simp] theorem State.emit_ces (s : State) (o : Out) : (s.emit o).ces = s.ces := rfl
@[simp] theorem State.emit_scrub (s : State) (o : Out) : (s.emit o).scrub = s.scrub := rfl
@[simp] theorem State.emit_pool (s : State) (o : Out) : (s.emit o).pool = s.pool := rfl
@[simp] theorem State.emit_ports (s : State) (o : Out) : (s.emit o).ports = s.ports := rfl
@[simp] theorem State.emit_lostPorts (s : State) (o : Out) : (s.emit o).lostPorts = s.lostPorts := rfl
@[simp] theorem State.emit_sess (s : State) (o : Out) : (s.emit o).sess = s.sess := rfl
@[simp] theorem State.emit_sec (s : State) (o : Out) : (s.emit o).sec = s.sec := rfl
@[simp] theorem State.emit_rst (s : State) (o : Out) : (s.emit o).rst = s.rst := rfl
@[simp] theorem State.emit_ll (s : State) (o : Out) : (s.emit o).ll = s.ll := rfl
@[simp] theorem State.emit_read_ov (s : State) (o : Out) (ob : Obj) (k1 k2 : Nat) : (s.emit o).ov ob k1 k2 = s.ov ob k1 k2 := rfl
@[simp] theorem State.emit_read_oct (s : State) (o : Out) (ob : Obj) (k1 k2 : Nat) : (s.emit o).oct ob k1 k2 = s.oct ob k1 k2 := rfl
@[simp] theorem State.emit_read_ctx (s : State) (o : Out) (k1 : Nat) : (s.emit o).ctx k1 = s.ctx k1 := rfl
@[simp] theorem State.emit_read_agent (s : State) (o : Out) (k1 : Nat) : (s.emit o).agent k1 = s.agent k1 := rfl
@[simp] theorem State.emit_read_slc (s : State) (o : Out) (k1 : Nat) : (s.emit o).slc k1 = s.slc k1 := rfl
@[simp] theorem State.emit_read_dir (s : State) (o : Out) (k1 : Nat) : (s.emit o).dir k1 = s.dir k1 := rfl
@[simp] theorem State.emit_read_ext (s : State) (o : Out) (k1 : Nat) : (s.emit o).ext k1 = s.ext k1 := rfl
@[simp] theorem State.emit_read_frame (s : State) (o : Out) (k1 : Nat) : (s.emit o).frame k1 = s.frame k1 := rfl
@[simp] theorem State.emit_read_entry (s : State) (o : Out) (k1 : Nat) : (s.emit o).entry k1 = s.entry k1 := rfl
@[simp] theorem State.emit_read_lport (s : State) (o : Out) (k1 : Nat) : (s.emit o).lport k1 = s.lport k1 := rfl
@[simp] theorem State.emit_read_session (s : State) (o : Out) (k1 : Nat) : (s.emit o).session k1 = s.session k1 := rfl

/-! ### `State.updReq` writes `reqs` -/

@[simp] theorem State.updReq_pending (s : State) (id : Nat) (f : Req → Req) : (s.updReq id f).pending = s.pending := rfl
@[simp] theorem State.updReq_ltc (s : State) (id : Nat) (f : Req → Req) : (s.updReq id f).ltc = s.ltc := rfl
@[simp] theorem State.updReq_freeCtr (s : State) (id : Nat) (f : Req → Req) : (s.updReq id f).freeCtr = s.freeCtr := rfl
@[simp] theorem State.updReq_objs (s : State) (id : Nat) (f : Req → Req) : (s.updReq id f).objs = s.objs := rfl
@[simp] theorem State.updReq_octs (s : State) (id : Nat) (f : Req → Req) : (s.updReq id f).octs = s.octs := rfl
@[simp] theorem State.updReq_mem (s : State) (id : Nat) (f : Req → Req) : (s.updReq id f).mem = s.mem := rfl
@[simp] theorem State.updReq_poison (s : State) (id : Nat) (f : Req → Req) : (s.updReq id f).poison = s.poison := rfl
@[simp] theorem State.updReq_chunkKey (s : State) (id : Nat) (f : Req → Req) : (s.updReq id f).chunkKey = s.chunkKey := rfl
@[simp] theorem State.updReq_dramBad (s : State) (id : Nat) (f : Req → Req) : (s.updReq id f).dramBad = s.dramBad := rfl
@[simp] theorem State.updReq_coh (s : State) (id : Nat) (f : Req → Req) : (s.updReq id f).coh = s.coh := rfl
@[simp] theorem State.updReq_chart (s : State) (id : Nat) (f : Req → Req) : (s.updReq id f).chart = s.chart := rfl
@[simp] theorem State.updReq_nextReq (s : State) (id : Nat) (f : Req → Req) : (s.updReq id f).nextReq = s.nextReq := rfl
@[simp] theorem State.updReq_cmps (s : State) (id : Nat) (f : Req → Req) : (s.updReq id f).cmps = s.cmps := rfl
@[simp] theorem State.updReq_frecs (s : State) (id : Nat) (f : Req → Req) : (s.updReq id f).frecs = s.frecs := rfl
@[simp] theorem State.updReq_ctxs (s : State) (id : Nat) (f : Req → Req) : (s.updReq id f).ctxs = s.ctxs := rfl
@[simp] theorem State.updReq_pol (s : State) (id : Nat) (f : Req → Req) : (s.updReq id f).pol = s.pol := rfl
@[simp] theorem State.updReq_agents (s : State) (id : Nat) (f : Req → Req) : (s.updReq id f).agents = s.agents := rfl
@[simp] theorem State.updReq_slices (s : State) (id : Nat) (f : Req → Req) : (s.updReq id f).slices = s.slices := rfl
@[simp] theorem State.updReq_txq (s : State) (id : Nat) (f : Req → Req) : (s.updReq id f).txq = s.txq := rfl
@[simp] theorem State.updReq_out (s : State) (id : Nat) (f : Req → Req) : (s.updReq id f).out = s.out := rfl
@[simp] theorem State.updReq_log (s : State) (id : Nat) (f : Req → Req) : (s.updReq id f).log = s.log := rfl
@[simp] theorem State.updReq_maps (s : State) (id : Nat) (f : Req → Req) : (s.updReq id f).maps = s.maps := rfl
@[simp] theorem State.updReq_migs (s : State) (id : Nat) (f : Req → Req) : (s.updReq id f).migs = s.migs := rfl
@[simp] theorem State.updReq_mwrs (s : State) (id : Nat) (f : Req → Req) : (s.updReq id f).mwrs = s.mwrs := rfl
@[simp] theorem State.updReq_xid (s : State) (id : Nat) (f : Req → Req) : (s.updReq id f).xid = s.xid := rfl
@[simp] theorem State.updReq_rates (s : State) (id : Nat) (f : Req → Req) : (s.updReq id f).rates = s.rates := rfl
@[simp] theorem State.updReq_drains (s : State) (id : Nat) (f : Req → Req) : (s.updReq id f).drains = s.drains := rfl
@[simp] theorem State.updReq_ecache (s : State) (id : Nat) (f : Req → Req) : (s.updReq id f).ecache = s.ecache := rfl
@[simp] theorem State.updReq_frMsi (s : State) (id : Nat) (f : Req → Req) : (s.updReq id f).frMsi = s.frMsi := rfl
@[simp] theorem State.updReq_epochNow (s : State) (id : Nat) (f : Req → Req) : (s.updReq id f).epochNow = s.epochNow := rfl
@[simp] theorem State.updReq_grantKey (s : State) (id : Nat) (f : Req → Req) : (s.updReq id f).grantKey = s.grantKey := rfl
@[simp] theorem State.updReq_jobs (s : State) (id : Nat) (f : Req → Req) : (s.updReq id f).jobs = s.jobs := rfl
@[simp] theorem State.updReq_tends (s : State) (id : Nat) (f : Req → Req) : (s.updReq id f).tends = s.tends := rfl
@[simp] theorem State.updReq_units (s : State) (id : Nat) (f : Req → Req) : (s.updReq id f).units = s.units := rfl
@[simp] theorem State.updReq_nextKey (s : State) (id : Nat) (f : Req → Req) : (s.updReq id f).nextKey = s.nextKey := rfl
@[simp] theorem State.updReq_pwr (s : State) (id : Nat) (f : Req → Req) : (s.updReq id f).pwr = s.pwr := rfl
@[simp] theorem State.updReq_dram (s : State) (id : Nat) (f : Req → Req) : (s.updReq id f).dram = s.dram := rfl
@[simp] theorem State.updReq_ces (s : State) (id : Nat) (f : Req → Req) : (s.updReq id f).ces = s.ces := rfl
@[simp] theorem State.updReq_scrub (s : State) (id : Nat) (f : Req → Req) : (s.updReq id f).scrub = s.scrub := rfl
@[simp] theorem State.updReq_pool (s : State) (id : Nat) (f : Req → Req) : (s.updReq id f).pool = s.pool := rfl
@[simp] theorem State.updReq_ports (s : State) (id : Nat) (f : Req → Req) : (s.updReq id f).ports = s.ports := rfl
@[simp] theorem State.updReq_lostPorts (s : State) (id : Nat) (f : Req → Req) : (s.updReq id f).lostPorts = s.lostPorts := rfl
@[simp] theorem State.updReq_sess (s : State) (id : Nat) (f : Req → Req) : (s.updReq id f).sess = s.sess := rfl
@[simp] theorem State.updReq_sec (s : State) (id : Nat) (f : Req → Req) : (s.updReq id f).sec = s.sec := rfl
@[simp] theorem State.updReq_rst (s : State) (id : Nat) (f : Req → Req) : (s.updReq id f).rst = s.rst := rfl
@[simp] theorem State.updReq_ll (s : State) (id : Nat) (f : Req → Req) : (s.updReq id f).ll = s.ll := rfl
@[simp] theorem State.updReq_read_ov (s : State) (id : Nat) (f : Req → Req) (ob : Obj) (k1 k2 : Nat) : (s.updReq id f).ov ob k1 k2 = s.ov ob k1 k2 := rfl
@[simp] theorem State.updReq_read_oct (s : State) (id : Nat) (f : Req → Req) (ob : Obj) (k1 k2 : Nat) : (s.updReq id f).oct ob k1 k2 = s.oct ob k1 k2 := rfl
@[simp] theorem State.updReq_read_ctx (s : State) (id : Nat) (f : Req → Req) (k1 : Nat) : (s.updReq id f).ctx k1 = s.ctx k1 := rfl
@[simp] theorem State.updReq_read_agent (s : State) (id : Nat) (f : Req → Req) (k1 : Nat) : (s.updReq id f).agent k1 = s.agent k1 := rfl
@[simp] theorem State.updReq_read_slc (s : State) (id : Nat) (f : Req → Req) (k1 : Nat) : (s.updReq id f).slc k1 = s.slc k1 := rfl
@[simp] theorem State.updReq_read_dir (s : State) (id : Nat) (f : Req → Req) (k1 : Nat) : (s.updReq id f).dir k1 = s.dir k1 := rfl
@[simp] theorem State.updReq_read_ext (s : State) (id : Nat) (f : Req → Req) (k1 : Nat) : (s.updReq id f).ext k1 = s.ext k1 := rfl
@[simp] theorem State.updReq_read_frame (s : State) (id : Nat) (f : Req → Req) (k1 : Nat) : (s.updReq id f).frame k1 = s.frame k1 := rfl
@[simp] theorem State.updReq_read_entry (s : State) (id : Nat) (f : Req → Req) (k1 : Nat) : (s.updReq id f).entry k1 = s.entry k1 := rfl
@[simp] theorem State.updReq_read_lport (s : State) (id : Nat) (f : Req → Req) (k1 : Nat) : (s.updReq id f).lport k1 = s.lport k1 := rfl
@[simp] theorem State.updReq_read_session (s : State) (id : Nat) (f : Req → Req) (k1 : Nat) : (s.updReq id f).session k1 = s.session k1 := rfl

/-! ### `State.setLport` writes `ports` -/

@[simp] theorem State.setLport_pending (s : State) (p : Nat) (x : LPort) : (s.setLport p x).pending = s.pending := rfl
@[simp] theorem State.setLport_ltc (s : State) (p : Nat) (x : LPort) : (s.setLport p x).ltc = s.ltc := rfl
@[simp] theorem State.setLport_freeCtr (s : State) (p : Nat) (x : LPort) : (s.setLport p x).freeCtr = s.freeCtr := rfl
@[simp] theorem State.setLport_objs (s : State) (p : Nat) (x : LPort) : (s.setLport p x).objs = s.objs := rfl
@[simp] theorem State.setLport_octs (s : State) (p : Nat) (x : LPort) : (s.setLport p x).octs = s.octs := rfl
@[simp] theorem State.setLport_mem (s : State) (p : Nat) (x : LPort) : (s.setLport p x).mem = s.mem := rfl
@[simp] theorem State.setLport_poison (s : State) (p : Nat) (x : LPort) : (s.setLport p x).poison = s.poison := rfl
@[simp] theorem State.setLport_chunkKey (s : State) (p : Nat) (x : LPort) : (s.setLport p x).chunkKey = s.chunkKey := rfl
@[simp] theorem State.setLport_dramBad (s : State) (p : Nat) (x : LPort) : (s.setLport p x).dramBad = s.dramBad := rfl
@[simp] theorem State.setLport_coh (s : State) (p : Nat) (x : LPort) : (s.setLport p x).coh = s.coh := rfl
@[simp] theorem State.setLport_chart (s : State) (p : Nat) (x : LPort) : (s.setLport p x).chart = s.chart := rfl
@[simp] theorem State.setLport_reqs (s : State) (p : Nat) (x : LPort) : (s.setLport p x).reqs = s.reqs := rfl
@[simp] theorem State.setLport_nextReq (s : State) (p : Nat) (x : LPort) : (s.setLport p x).nextReq = s.nextReq := rfl
@[simp] theorem State.setLport_cmps (s : State) (p : Nat) (x : LPort) : (s.setLport p x).cmps = s.cmps := rfl
@[simp] theorem State.setLport_frecs (s : State) (p : Nat) (x : LPort) : (s.setLport p x).frecs = s.frecs := rfl
@[simp] theorem State.setLport_ctxs (s : State) (p : Nat) (x : LPort) : (s.setLport p x).ctxs = s.ctxs := rfl
@[simp] theorem State.setLport_pol (s : State) (p : Nat) (x : LPort) : (s.setLport p x).pol = s.pol := rfl
@[simp] theorem State.setLport_agents (s : State) (p : Nat) (x : LPort) : (s.setLport p x).agents = s.agents := rfl
@[simp] theorem State.setLport_slices (s : State) (p : Nat) (x : LPort) : (s.setLport p x).slices = s.slices := rfl
@[simp] theorem State.setLport_txq (s : State) (p : Nat) (x : LPort) : (s.setLport p x).txq = s.txq := rfl
@[simp] theorem State.setLport_out (s : State) (p : Nat) (x : LPort) : (s.setLport p x).out = s.out := rfl
@[simp] theorem State.setLport_log (s : State) (p : Nat) (x : LPort) : (s.setLport p x).log = s.log := rfl
@[simp] theorem State.setLport_maps (s : State) (p : Nat) (x : LPort) : (s.setLport p x).maps = s.maps := rfl
@[simp] theorem State.setLport_migs (s : State) (p : Nat) (x : LPort) : (s.setLport p x).migs = s.migs := rfl
@[simp] theorem State.setLport_mwrs (s : State) (p : Nat) (x : LPort) : (s.setLport p x).mwrs = s.mwrs := rfl
@[simp] theorem State.setLport_xid (s : State) (p : Nat) (x : LPort) : (s.setLport p x).xid = s.xid := rfl
@[simp] theorem State.setLport_rates (s : State) (p : Nat) (x : LPort) : (s.setLport p x).rates = s.rates := rfl
@[simp] theorem State.setLport_drains (s : State) (p : Nat) (x : LPort) : (s.setLport p x).drains = s.drains := rfl
@[simp] theorem State.setLport_ecache (s : State) (p : Nat) (x : LPort) : (s.setLport p x).ecache = s.ecache := rfl
@[simp] theorem State.setLport_frMsi (s : State) (p : Nat) (x : LPort) : (s.setLport p x).frMsi = s.frMsi := rfl
@[simp] theorem State.setLport_epochNow (s : State) (p : Nat) (x : LPort) : (s.setLport p x).epochNow = s.epochNow := rfl
@[simp] theorem State.setLport_grantKey (s : State) (p : Nat) (x : LPort) : (s.setLport p x).grantKey = s.grantKey := rfl
@[simp] theorem State.setLport_jobs (s : State) (p : Nat) (x : LPort) : (s.setLport p x).jobs = s.jobs := rfl
@[simp] theorem State.setLport_tends (s : State) (p : Nat) (x : LPort) : (s.setLport p x).tends = s.tends := rfl
@[simp] theorem State.setLport_units (s : State) (p : Nat) (x : LPort) : (s.setLport p x).units = s.units := rfl
@[simp] theorem State.setLport_nextKey (s : State) (p : Nat) (x : LPort) : (s.setLport p x).nextKey = s.nextKey := rfl
@[simp] theorem State.setLport_pwr (s : State) (p : Nat) (x : LPort) : (s.setLport p x).pwr = s.pwr := rfl
@[simp] theorem State.setLport_dram (s : State) (p : Nat) (x : LPort) : (s.setLport p x).dram = s.dram := rfl
@[simp] theorem State.setLport_ces (s : State) (p : Nat) (x : LPort) : (s.setLport p x).ces = s.ces := rfl
@[simp] theorem State.setLport_scrub (s : State) (p : Nat) (x : LPort) : (s.setLport p x).scrub = s.scrub := rfl
@[simp] theorem State.setLport_pool (s : State) (p : Nat) (x : LPort) : (s.setLport p x).pool = s.pool := rfl
@[simp] theorem State.setLport_lostPorts (s : State) (p : Nat) (x : LPort) : (s.setLport p x).lostPorts = s.lostPorts := rfl
@[simp] theorem State.setLport_sess (s : State) (p : Nat) (x : LPort) : (s.setLport p x).sess = s.sess := rfl
@[simp] theorem State.setLport_sec (s : State) (p : Nat) (x : LPort) : (s.setLport p x).sec = s.sec := rfl
@[simp] theorem State.setLport_rst (s : State) (p : Nat) (x : LPort) : (s.setLport p x).rst = s.rst := rfl
@[simp] theorem State.setLport_ll (s : State) (p : Nat) (x : LPort) : (s.setLport p x).ll = s.ll := rfl
@[simp] theorem State.setLport_read_ov (s : State) (p : Nat) (x : LPort) (ob : Obj) (k1 k2 : Nat) : (s.setLport p x).ov ob k1 k2 = s.ov ob k1 k2 := rfl
@[simp] theorem State.setLport_read_oct (s : State) (p : Nat) (x : LPort) (ob : Obj) (k1 k2 : Nat) : (s.setLport p x).oct ob k1 k2 = s.oct ob k1 k2 := rfl
@[simp] theorem State.setLport_read_ctx (s : State) (p : Nat) (x : LPort) (k1 : Nat) : (s.setLport p x).ctx k1 = s.ctx k1 := rfl
@[simp] theorem State.setLport_read_agent (s : State) (p : Nat) (x : LPort) (k1 : Nat) : (s.setLport p x).agent k1 = s.agent k1 := rfl
@[simp] theorem State.setLport_read_slc (s : State) (p : Nat) (x : LPort) (k1 : Nat) : (s.setLport p x).slc k1 = s.slc k1 := rfl
@[simp] theorem State.setLport_read_dir (s : State) (p : Nat) (x : LPort) (k1 : Nat) : (s.setLport p x).dir k1 = s.dir k1 := rfl
@[simp] theorem State.setLport_read_ext (s : State) (p : Nat) (x : LPort) (k1 : Nat) : (s.setLport p x).ext k1 = s.ext k1 := rfl
@[simp] theorem State.setLport_read_frame (s : State) (p : Nat) (x : LPort) (k1 : Nat) : (s.setLport p x).frame k1 = s.frame k1 := rfl
@[simp] theorem State.setLport_read_entry (s : State) (p : Nat) (x : LPort) (k1 : Nat) : (s.setLport p x).entry k1 = s.entry k1 := rfl
@[simp] theorem State.setLport_read_session (s : State) (p : Nat) (x : LPort) (k1 : Nat) : (s.setLport p x).session k1 = s.session k1 := rfl

/-! ### `State.setSession` writes `sess` -/

@[simp] theorem State.setSession_pending (s : State) (p : Nat) (x : Sess) : (s.setSession p x).pending = s.pending := rfl
@[simp] theorem State.setSession_ltc (s : State) (p : Nat) (x : Sess) : (s.setSession p x).ltc = s.ltc := rfl
@[simp] theorem State.setSession_freeCtr (s : State) (p : Nat) (x : Sess) : (s.setSession p x).freeCtr = s.freeCtr := rfl
@[simp] theorem State.setSession_objs (s : State) (p : Nat) (x : Sess) : (s.setSession p x).objs = s.objs := rfl
@[simp] theorem State.setSession_octs (s : State) (p : Nat) (x : Sess) : (s.setSession p x).octs = s.octs := rfl
@[simp] theorem State.setSession_mem (s : State) (p : Nat) (x : Sess) : (s.setSession p x).mem = s.mem := rfl
@[simp] theorem State.setSession_poison (s : State) (p : Nat) (x : Sess) : (s.setSession p x).poison = s.poison := rfl
@[simp] theorem State.setSession_chunkKey (s : State) (p : Nat) (x : Sess) : (s.setSession p x).chunkKey = s.chunkKey := rfl
@[simp] theorem State.setSession_dramBad (s : State) (p : Nat) (x : Sess) : (s.setSession p x).dramBad = s.dramBad := rfl
@[simp] theorem State.setSession_coh (s : State) (p : Nat) (x : Sess) : (s.setSession p x).coh = s.coh := rfl
@[simp] theorem State.setSession_chart (s : State) (p : Nat) (x : Sess) : (s.setSession p x).chart = s.chart := rfl
@[simp] theorem State.setSession_reqs (s : State) (p : Nat) (x : Sess) : (s.setSession p x).reqs = s.reqs := rfl
@[simp] theorem State.setSession_nextReq (s : State) (p : Nat) (x : Sess) : (s.setSession p x).nextReq = s.nextReq := rfl
@[simp] theorem State.setSession_cmps (s : State) (p : Nat) (x : Sess) : (s.setSession p x).cmps = s.cmps := rfl
@[simp] theorem State.setSession_frecs (s : State) (p : Nat) (x : Sess) : (s.setSession p x).frecs = s.frecs := rfl
@[simp] theorem State.setSession_ctxs (s : State) (p : Nat) (x : Sess) : (s.setSession p x).ctxs = s.ctxs := rfl
@[simp] theorem State.setSession_pol (s : State) (p : Nat) (x : Sess) : (s.setSession p x).pol = s.pol := rfl
@[simp] theorem State.setSession_agents (s : State) (p : Nat) (x : Sess) : (s.setSession p x).agents = s.agents := rfl
@[simp] theorem State.setSession_slices (s : State) (p : Nat) (x : Sess) : (s.setSession p x).slices = s.slices := rfl
@[simp] theorem State.setSession_txq (s : State) (p : Nat) (x : Sess) : (s.setSession p x).txq = s.txq := rfl
@[simp] theorem State.setSession_out (s : State) (p : Nat) (x : Sess) : (s.setSession p x).out = s.out := rfl
@[simp] theorem State.setSession_log (s : State) (p : Nat) (x : Sess) : (s.setSession p x).log = s.log := rfl
@[simp] theorem State.setSession_maps (s : State) (p : Nat) (x : Sess) : (s.setSession p x).maps = s.maps := rfl
@[simp] theorem State.setSession_migs (s : State) (p : Nat) (x : Sess) : (s.setSession p x).migs = s.migs := rfl
@[simp] theorem State.setSession_mwrs (s : State) (p : Nat) (x : Sess) : (s.setSession p x).mwrs = s.mwrs := rfl
@[simp] theorem State.setSession_xid (s : State) (p : Nat) (x : Sess) : (s.setSession p x).xid = s.xid := rfl
@[simp] theorem State.setSession_rates (s : State) (p : Nat) (x : Sess) : (s.setSession p x).rates = s.rates := rfl
@[simp] theorem State.setSession_drains (s : State) (p : Nat) (x : Sess) : (s.setSession p x).drains = s.drains := rfl
@[simp] theorem State.setSession_ecache (s : State) (p : Nat) (x : Sess) : (s.setSession p x).ecache = s.ecache := rfl
@[simp] theorem State.setSession_frMsi (s : State) (p : Nat) (x : Sess) : (s.setSession p x).frMsi = s.frMsi := rfl
@[simp] theorem State.setSession_epochNow (s : State) (p : Nat) (x : Sess) : (s.setSession p x).epochNow = s.epochNow := rfl
@[simp] theorem State.setSession_grantKey (s : State) (p : Nat) (x : Sess) : (s.setSession p x).grantKey = s.grantKey := rfl
@[simp] theorem State.setSession_jobs (s : State) (p : Nat) (x : Sess) : (s.setSession p x).jobs = s.jobs := rfl
@[simp] theorem State.setSession_tends (s : State) (p : Nat) (x : Sess) : (s.setSession p x).tends = s.tends := rfl
@[simp] theorem State.setSession_units (s : State) (p : Nat) (x : Sess) : (s.setSession p x).units = s.units := rfl
@[simp] theorem State.setSession_nextKey (s : State) (p : Nat) (x : Sess) : (s.setSession p x).nextKey = s.nextKey := rfl
@[simp] theorem State.setSession_pwr (s : State) (p : Nat) (x : Sess) : (s.setSession p x).pwr = s.pwr := rfl
@[simp] theorem State.setSession_dram (s : State) (p : Nat) (x : Sess) : (s.setSession p x).dram = s.dram := rfl
@[simp] theorem State.setSession_ces (s : State) (p : Nat) (x : Sess) : (s.setSession p x).ces = s.ces := rfl
@[simp] theorem State.setSession_scrub (s : State) (p : Nat) (x : Sess) : (s.setSession p x).scrub = s.scrub := rfl
@[simp] theorem State.setSession_pool (s : State) (p : Nat) (x : Sess) : (s.setSession p x).pool = s.pool := rfl
@[simp] theorem State.setSession_ports (s : State) (p : Nat) (x : Sess) : (s.setSession p x).ports = s.ports := rfl
@[simp] theorem State.setSession_lostPorts (s : State) (p : Nat) (x : Sess) : (s.setSession p x).lostPorts = s.lostPorts := rfl
@[simp] theorem State.setSession_sec (s : State) (p : Nat) (x : Sess) : (s.setSession p x).sec = s.sec := rfl
@[simp] theorem State.setSession_rst (s : State) (p : Nat) (x : Sess) : (s.setSession p x).rst = s.rst := rfl
@[simp] theorem State.setSession_ll (s : State) (p : Nat) (x : Sess) : (s.setSession p x).ll = s.ll := rfl
@[simp] theorem State.setSession_read_ov (s : State) (p : Nat) (x : Sess) (ob : Obj) (k1 k2 : Nat) : (s.setSession p x).ov ob k1 k2 = s.ov ob k1 k2 := rfl
@[simp] theorem State.setSession_read_oct (s : State) (p : Nat) (x : Sess) (ob : Obj) (k1 k2 : Nat) : (s.setSession p x).oct ob k1 k2 = s.oct ob k1 k2 := rfl
@[simp] theorem State.setSession_read_ctx (s : State) (p : Nat) (x : Sess) (k1 : Nat) : (s.setSession p x).ctx k1 = s.ctx k1 := rfl
@[simp] theorem State.setSession_read_agent (s : State) (p : Nat) (x : Sess) (k1 : Nat) : (s.setSession p x).agent k1 = s.agent k1 := rfl
@[simp] theorem State.setSession_read_slc (s : State) (p : Nat) (x : Sess) (k1 : Nat) : (s.setSession p x).slc k1 = s.slc k1 := rfl
@[simp] theorem State.setSession_read_dir (s : State) (p : Nat) (x : Sess) (k1 : Nat) : (s.setSession p x).dir k1 = s.dir k1 := rfl
@[simp] theorem State.setSession_read_ext (s : State) (p : Nat) (x : Sess) (k1 : Nat) : (s.setSession p x).ext k1 = s.ext k1 := rfl
@[simp] theorem State.setSession_read_frame (s : State) (p : Nat) (x : Sess) (k1 : Nat) : (s.setSession p x).frame k1 = s.frame k1 := rfl
@[simp] theorem State.setSession_read_entry (s : State) (p : Nat) (x : Sess) (k1 : Nat) : (s.setSession p x).entry k1 = s.entry k1 := rfl
@[simp] theorem State.setSession_read_lport (s : State) (p : Nat) (x : Sess) (k1 : Nat) : (s.setSession p x).lport k1 = s.lport k1 := rfl

/-! ### `State.setJobs` writes `jobs` -/

@[simp] theorem State.setJobs_pending (s : State) (js : List Job) : (s.setJobs js).pending = s.pending := rfl
@[simp] theorem State.setJobs_ltc (s : State) (js : List Job) : (s.setJobs js).ltc = s.ltc := rfl
@[simp] theorem State.setJobs_freeCtr (s : State) (js : List Job) : (s.setJobs js).freeCtr = s.freeCtr := rfl
@[simp] theorem State.setJobs_objs (s : State) (js : List Job) : (s.setJobs js).objs = s.objs := rfl
@[simp] theorem State.setJobs_octs (s : State) (js : List Job) : (s.setJobs js).octs = s.octs := rfl
@[simp] theorem State.setJobs_mem (s : State) (js : List Job) : (s.setJobs js).mem = s.mem := rfl
@[simp] theorem State.setJobs_poison (s : State) (js : List Job) : (s.setJobs js).poison = s.poison := rfl
@[simp] theorem State.setJobs_chunkKey (s : State) (js : List Job) : (s.setJobs js).chunkKey = s.chunkKey := rfl
@[simp] theorem State.setJobs_dramBad (s : State) (js : List Job) : (s.setJobs js).dramBad = s.dramBad := rfl
@[simp] theorem State.setJobs_coh (s : State) (js : List Job) : (s.setJobs js).coh = s.coh := rfl
@[simp] theorem State.setJobs_chart (s : State) (js : List Job) : (s.setJobs js).chart = s.chart := rfl
@[simp] theorem State.setJobs_reqs (s : State) (js : List Job) : (s.setJobs js).reqs = s.reqs := rfl
@[simp] theorem State.setJobs_nextReq (s : State) (js : List Job) : (s.setJobs js).nextReq = s.nextReq := rfl
@[simp] theorem State.setJobs_cmps (s : State) (js : List Job) : (s.setJobs js).cmps = s.cmps := rfl
@[simp] theorem State.setJobs_frecs (s : State) (js : List Job) : (s.setJobs js).frecs = s.frecs := rfl
@[simp] theorem State.setJobs_ctxs (s : State) (js : List Job) : (s.setJobs js).ctxs = s.ctxs := rfl
@[simp] theorem State.setJobs_pol (s : State) (js : List Job) : (s.setJobs js).pol = s.pol := rfl
@[simp] theorem State.setJobs_agents (s : State) (js : List Job) : (s.setJobs js).agents = s.agents := rfl
@[simp] theorem State.setJobs_slices (s : State) (js : List Job) : (s.setJobs js).slices = s.slices := rfl
@[simp] theorem State.setJobs_txq (s : State) (js : List Job) : (s.setJobs js).txq = s.txq := rfl
@[simp] theorem State.setJobs_out (s : State) (js : List Job) : (s.setJobs js).out = s.out := rfl
@[simp] theorem State.setJobs_log (s : State) (js : List Job) : (s.setJobs js).log = s.log := rfl
@[simp] theorem State.setJobs_maps (s : State) (js : List Job) : (s.setJobs js).maps = s.maps := rfl
@[simp] theorem State.setJobs_migs (s : State) (js : List Job) : (s.setJobs js).migs = s.migs := rfl
@[simp] theorem State.setJobs_mwrs (s : State) (js : List Job) : (s.setJobs js).mwrs = s.mwrs := rfl
@[simp] theorem State.setJobs_xid (s : State) (js : List Job) : (s.setJobs js).xid = s.xid := rfl
@[simp] theorem State.setJobs_rates (s : State) (js : List Job) : (s.setJobs js).rates = s.rates := rfl
@[simp] theorem State.setJobs_drains (s : State) (js : List Job) : (s.setJobs js).drains = s.drains := rfl
@[simp] theorem State.setJobs_ecache (s : State) (js : List Job) : (s.setJobs js).ecache = s.ecache := rfl
@[simp] theorem State.setJobs_frMsi (s : State) (js : List Job) : (s.setJobs js).frMsi = s.frMsi := rfl
@[simp] theorem State.setJobs_epochNow (s : State) (js : List Job) : (s.setJobs js).epochNow = s.epochNow := rfl
@[simp] theorem State.setJobs_grantKey (s : State) (js : List Job) : (s.setJobs js).grantKey = s.grantKey := rfl
@[simp] theorem State.setJobs_tends (s : State) (js : List Job) : (s.setJobs js).tends = s.tends := rfl
@[simp] theorem State.setJobs_units (s : State) (js : List Job) : (s.setJobs js).units = s.units := rfl
@[simp] theorem State.setJobs_nextKey (s : State) (js : List Job) : (s.setJobs js).nextKey = s.nextKey := rfl
@[simp] theorem State.setJobs_pwr (s : State) (js : List Job) : (s.setJobs js).pwr = s.pwr := rfl
@[simp] theorem State.setJobs_dram (s : State) (js : List Job) : (s.setJobs js).dram = s.dram := rfl
@[simp] theorem State.setJobs_ces (s : State) (js : List Job) : (s.setJobs js).ces = s.ces := rfl
@[simp] theorem State.setJobs_scrub (s : State) (js : List Job) : (s.setJobs js).scrub = s.scrub := rfl
@[simp] theorem State.setJobs_pool (s : State) (js : List Job) : (s.setJobs js).pool = s.pool := rfl
@[simp] theorem State.setJobs_ports (s : State) (js : List Job) : (s.setJobs js).ports = s.ports := rfl
@[simp] theorem State.setJobs_lostPorts (s : State) (js : List Job) : (s.setJobs js).lostPorts = s.lostPorts := rfl
@[simp] theorem State.setJobs_sess (s : State) (js : List Job) : (s.setJobs js).sess = s.sess := rfl
@[simp] theorem State.setJobs_sec (s : State) (js : List Job) : (s.setJobs js).sec = s.sec := rfl
@[simp] theorem State.setJobs_rst (s : State) (js : List Job) : (s.setJobs js).rst = s.rst := rfl
@[simp] theorem State.setJobs_ll (s : State) (js : List Job) : (s.setJobs js).ll = s.ll := rfl
@[simp] theorem State.setJobs_read_ov (s : State) (js : List Job) (ob : Obj) (k1 k2 : Nat) : (s.setJobs js).ov ob k1 k2 = s.ov ob k1 k2 := rfl
@[simp] theorem State.setJobs_read_oct (s : State) (js : List Job) (ob : Obj) (k1 k2 : Nat) : (s.setJobs js).oct ob k1 k2 = s.oct ob k1 k2 := rfl
@[simp] theorem State.setJobs_read_ctx (s : State) (js : List Job) (k1 : Nat) : (s.setJobs js).ctx k1 = s.ctx k1 := rfl
@[simp] theorem State.setJobs_read_agent (s : State) (js : List Job) (k1 : Nat) : (s.setJobs js).agent k1 = s.agent k1 := rfl
@[simp] theorem State.setJobs_read_slc (s : State) (js : List Job) (k1 : Nat) : (s.setJobs js).slc k1 = s.slc k1 := rfl
@[simp] theorem State.setJobs_read_dir (s : State) (js : List Job) (k1 : Nat) : (s.setJobs js).dir k1 = s.dir k1 := rfl
@[simp] theorem State.setJobs_read_ext (s : State) (js : List Job) (k1 : Nat) : (s.setJobs js).ext k1 = s.ext k1 := rfl
@[simp] theorem State.setJobs_read_frame (s : State) (js : List Job) (k1 : Nat) : (s.setJobs js).frame k1 = s.frame k1 := rfl
@[simp] theorem State.setJobs_read_entry (s : State) (js : List Job) (k1 : Nat) : (s.setJobs js).entry k1 = s.entry k1 := rfl
@[simp] theorem State.setJobs_read_lport (s : State) (js : List Job) (k1 : Nat) : (s.setJobs js).lport k1 = s.lport k1 := rfl
@[simp] theorem State.setJobs_read_session (s : State) (js : List Job) (k1 : Nat) : (s.setJobs js).session k1 = s.session k1 := rfl

/-! ### `State.updOp` writes `tends` -/

@[simp] theorem State.updOp_pending (s : State) (id : Nat) (f : Tend → Tend) : (s.updOp id f).pending = s.pending := rfl
@[simp] theorem State.updOp_ltc (s : State) (id : Nat) (f : Tend → Tend) : (s.updOp id f).ltc = s.ltc := rfl
@[simp] theorem State.updOp_freeCtr (s : State) (id : Nat) (f : Tend → Tend) : (s.updOp id f).freeCtr = s.freeCtr := rfl
@[simp] theorem State.updOp_objs (s : State) (id : Nat) (f : Tend → Tend) : (s.updOp id f).objs = s.objs := rfl
@[simp] theorem State.updOp_octs (s : State) (id : Nat) (f : Tend → Tend) : (s.updOp id f).octs = s.octs := rfl
@[simp] theorem State.updOp_mem (s : State) (id : Nat) (f : Tend → Tend) : (s.updOp id f).mem = s.mem := rfl
@[simp] theorem State.updOp_poison (s : State) (id : Nat) (f : Tend → Tend) : (s.updOp id f).poison = s.poison := rfl
@[simp] theorem State.updOp_chunkKey (s : State) (id : Nat) (f : Tend → Tend) : (s.updOp id f).chunkKey = s.chunkKey := rfl
@[simp] theorem State.updOp_dramBad (s : State) (id : Nat) (f : Tend → Tend) : (s.updOp id f).dramBad = s.dramBad := rfl
@[simp] theorem State.updOp_coh (s : State) (id : Nat) (f : Tend → Tend) : (s.updOp id f).coh = s.coh := rfl
@[simp] theorem State.updOp_chart (s : State) (id : Nat) (f : Tend → Tend) : (s.updOp id f).chart = s.chart := rfl
@[simp] theorem State.updOp_reqs (s : State) (id : Nat) (f : Tend → Tend) : (s.updOp id f).reqs = s.reqs := rfl
@[simp] theorem State.updOp_nextReq (s : State) (id : Nat) (f : Tend → Tend) : (s.updOp id f).nextReq = s.nextReq := rfl
@[simp] theorem State.updOp_cmps (s : State) (id : Nat) (f : Tend → Tend) : (s.updOp id f).cmps = s.cmps := rfl
@[simp] theorem State.updOp_frecs (s : State) (id : Nat) (f : Tend → Tend) : (s.updOp id f).frecs = s.frecs := rfl
@[simp] theorem State.updOp_ctxs (s : State) (id : Nat) (f : Tend → Tend) : (s.updOp id f).ctxs = s.ctxs := rfl
@[simp] theorem State.updOp_pol (s : State) (id : Nat) (f : Tend → Tend) : (s.updOp id f).pol = s.pol := rfl
@[simp] theorem State.updOp_agents (s : State) (id : Nat) (f : Tend → Tend) : (s.updOp id f).agents = s.agents := rfl
@[simp] theorem State.updOp_slices (s : State) (id : Nat) (f : Tend → Tend) : (s.updOp id f).slices = s.slices := rfl
@[simp] theorem State.updOp_txq (s : State) (id : Nat) (f : Tend → Tend) : (s.updOp id f).txq = s.txq := rfl
@[simp] theorem State.updOp_out (s : State) (id : Nat) (f : Tend → Tend) : (s.updOp id f).out = s.out := rfl
@[simp] theorem State.updOp_log (s : State) (id : Nat) (f : Tend → Tend) : (s.updOp id f).log = s.log := rfl
@[simp] theorem State.updOp_maps (s : State) (id : Nat) (f : Tend → Tend) : (s.updOp id f).maps = s.maps := rfl
@[simp] theorem State.updOp_migs (s : State) (id : Nat) (f : Tend → Tend) : (s.updOp id f).migs = s.migs := rfl
@[simp] theorem State.updOp_mwrs (s : State) (id : Nat) (f : Tend → Tend) : (s.updOp id f).mwrs = s.mwrs := rfl
@[simp] theorem State.updOp_xid (s : State) (id : Nat) (f : Tend → Tend) : (s.updOp id f).xid = s.xid := rfl
@[simp] theorem State.updOp_rates (s : State) (id : Nat) (f : Tend → Tend) : (s.updOp id f).rates = s.rates := rfl
@[simp] theorem State.updOp_drains (s : State) (id : Nat) (f : Tend → Tend) : (s.updOp id f).drains = s.drains := rfl
@[simp] theorem State.updOp_ecache (s : State) (id : Nat) (f : Tend → Tend) : (s.updOp id f).ecache = s.ecache := rfl
@[simp] theorem State.updOp_frMsi (s : State) (id : Nat) (f : Tend → Tend) : (s.updOp id f).frMsi = s.frMsi := rfl
@[simp] theorem State.updOp_epochNow (s : State) (id : Nat) (f : Tend → Tend) : (s.updOp id f).epochNow = s.epochNow := rfl
@[simp] theorem State.updOp_grantKey (s : State) (id : Nat) (f : Tend → Tend) : (s.updOp id f).grantKey = s.grantKey := rfl
@[simp] theorem State.updOp_jobs (s : State) (id : Nat) (f : Tend → Tend) : (s.updOp id f).jobs = s.jobs := rfl
@[simp] theorem State.updOp_units (s : State) (id : Nat) (f : Tend → Tend) : (s.updOp id f).units = s.units := rfl
@[simp] theorem State.updOp_nextKey (s : State) (id : Nat) (f : Tend → Tend) : (s.updOp id f).nextKey = s.nextKey := rfl
@[simp] theorem State.updOp_pwr (s : State) (id : Nat) (f : Tend → Tend) : (s.updOp id f).pwr = s.pwr := rfl
@[simp] theorem State.updOp_dram (s : State) (id : Nat) (f : Tend → Tend) : (s.updOp id f).dram = s.dram := rfl
@[simp] theorem State.updOp_ces (s : State) (id : Nat) (f : Tend → Tend) : (s.updOp id f).ces = s.ces := rfl
@[simp] theorem State.updOp_scrub (s : State) (id : Nat) (f : Tend → Tend) : (s.updOp id f).scrub = s.scrub := rfl
@[simp] theorem State.updOp_pool (s : State) (id : Nat) (f : Tend → Tend) : (s.updOp id f).pool = s.pool := rfl
@[simp] theorem State.updOp_ports (s : State) (id : Nat) (f : Tend → Tend) : (s.updOp id f).ports = s.ports := rfl
@[simp] theorem State.updOp_lostPorts (s : State) (id : Nat) (f : Tend → Tend) : (s.updOp id f).lostPorts = s.lostPorts := rfl
@[simp] theorem State.updOp_sess (s : State) (id : Nat) (f : Tend → Tend) : (s.updOp id f).sess = s.sess := rfl
@[simp] theorem State.updOp_sec (s : State) (id : Nat) (f : Tend → Tend) : (s.updOp id f).sec = s.sec := rfl
@[simp] theorem State.updOp_rst (s : State) (id : Nat) (f : Tend → Tend) : (s.updOp id f).rst = s.rst := rfl
@[simp] theorem State.updOp_ll (s : State) (id : Nat) (f : Tend → Tend) : (s.updOp id f).ll = s.ll := rfl
@[simp] theorem State.updOp_read_ov (s : State) (id : Nat) (f : Tend → Tend) (ob : Obj) (k1 k2 : Nat) : (s.updOp id f).ov ob k1 k2 = s.ov ob k1 k2 := rfl
@[simp] theorem State.updOp_read_oct (s : State) (id : Nat) (f : Tend → Tend) (ob : Obj) (k1 k2 : Nat) : (s.updOp id f).oct ob k1 k2 = s.oct ob k1 k2 := rfl
@[simp] theorem State.updOp_read_ctx (s : State) (id : Nat) (f : Tend → Tend) (k1 : Nat) : (s.updOp id f).ctx k1 = s.ctx k1 := rfl
@[simp] theorem State.updOp_read_agent (s : State) (id : Nat) (f : Tend → Tend) (k1 : Nat) : (s.updOp id f).agent k1 = s.agent k1 := rfl
@[simp] theorem State.updOp_read_slc (s : State) (id : Nat) (f : Tend → Tend) (k1 : Nat) : (s.updOp id f).slc k1 = s.slc k1 := rfl
@[simp] theorem State.updOp_read_dir (s : State) (id : Nat) (f : Tend → Tend) (k1 : Nat) : (s.updOp id f).dir k1 = s.dir k1 := rfl
@[simp] theorem State.updOp_read_ext (s : State) (id : Nat) (f : Tend → Tend) (k1 : Nat) : (s.updOp id f).ext k1 = s.ext k1 := rfl
@[simp] theorem State.updOp_read_frame (s : State) (id : Nat) (f : Tend → Tend) (k1 : Nat) : (s.updOp id f).frame k1 = s.frame k1 := rfl
@[simp] theorem State.updOp_read_entry (s : State) (id : Nat) (f : Tend → Tend) (k1 : Nat) : (s.updOp id f).entry k1 = s.entry k1 := rfl
@[simp] theorem State.updOp_read_lport (s : State) (id : Nat) (f : Tend → Tend) (k1 : Nat) : (s.updOp id f).lport k1 = s.lport k1 := rfl
@[simp] theorem State.updOp_read_session (s : State) (id : Nat) (f : Tend → Tend) (k1 : Nat) : (s.updOp id f).session k1 = s.session k1 := rfl

/-! ### `State.setChan` writes `dram` -/

@[simp] theorem State.setChan_pending (s : State) (c : Nat) (x : Chan) : (s.setChan c x).pending = s.pending := rfl
@[simp] theorem State.setChan_ltc (s : State) (c : Nat) (x : Chan) : (s.setChan c x).ltc = s.ltc := rfl
@[simp] theorem State.setChan_freeCtr (s : State) (c : Nat) (x : Chan) : (s.setChan c x).freeCtr = s.freeCtr := rfl
@[simp] theorem State.setChan_objs (s : State) (c : Nat) (x : Chan) : (s.setChan c x).objs = s.objs := rfl
@[simp] theorem State.setChan_octs (s : State) (c : Nat) (x : Chan) : (s.setChan c x).octs = s.octs := rfl
@[simp] theorem State.setChan_mem (s : State) (c : Nat) (x : Chan) : (s.setChan c x).mem = s.mem := rfl
@[simp] theorem State.setChan_poison (s : State) (c : Nat) (x : Chan) : (s.setChan c x).poison = s.poison := rfl
@[simp] theorem State.setChan_chunkKey (s : State) (c : Nat) (x : Chan) : (s.setChan c x).chunkKey = s.chunkKey := rfl
@[simp] theorem State.setChan_dramBad (s : State) (c : Nat) (x : Chan) : (s.setChan c x).dramBad = s.dramBad := rfl
@[simp] theorem State.setChan_coh (s : State) (c : Nat) (x : Chan) : (s.setChan c x).coh = s.coh := rfl
@[simp] theorem State.setChan_chart (s : State) (c : Nat) (x : Chan) : (s.setChan c x).chart = s.chart := rfl
@[simp] theorem State.setChan_reqs (s : State) (c : Nat) (x : Chan) : (s.setChan c x).reqs = s.reqs := rfl
@[simp] theorem State.setChan_nextReq (s : State) (c : Nat) (x : Chan) : (s.setChan c x).nextReq = s.nextReq := rfl
@[simp] theorem State.setChan_cmps (s : State) (c : Nat) (x : Chan) : (s.setChan c x).cmps = s.cmps := rfl
@[simp] theorem State.setChan_frecs (s : State) (c : Nat) (x : Chan) : (s.setChan c x).frecs = s.frecs := rfl
@[simp] theorem State.setChan_ctxs (s : State) (c : Nat) (x : Chan) : (s.setChan c x).ctxs = s.ctxs := rfl
@[simp] theorem State.setChan_pol (s : State) (c : Nat) (x : Chan) : (s.setChan c x).pol = s.pol := rfl
@[simp] theorem State.setChan_agents (s : State) (c : Nat) (x : Chan) : (s.setChan c x).agents = s.agents := rfl
@[simp] theorem State.setChan_slices (s : State) (c : Nat) (x : Chan) : (s.setChan c x).slices = s.slices := rfl
@[simp] theorem State.setChan_txq (s : State) (c : Nat) (x : Chan) : (s.setChan c x).txq = s.txq := rfl
@[simp] theorem State.setChan_out (s : State) (c : Nat) (x : Chan) : (s.setChan c x).out = s.out := rfl
@[simp] theorem State.setChan_log (s : State) (c : Nat) (x : Chan) : (s.setChan c x).log = s.log := rfl
@[simp] theorem State.setChan_maps (s : State) (c : Nat) (x : Chan) : (s.setChan c x).maps = s.maps := rfl
@[simp] theorem State.setChan_migs (s : State) (c : Nat) (x : Chan) : (s.setChan c x).migs = s.migs := rfl
@[simp] theorem State.setChan_mwrs (s : State) (c : Nat) (x : Chan) : (s.setChan c x).mwrs = s.mwrs := rfl
@[simp] theorem State.setChan_xid (s : State) (c : Nat) (x : Chan) : (s.setChan c x).xid = s.xid := rfl
@[simp] theorem State.setChan_rates (s : State) (c : Nat) (x : Chan) : (s.setChan c x).rates = s.rates := rfl
@[simp] theorem State.setChan_drains (s : State) (c : Nat) (x : Chan) : (s.setChan c x).drains = s.drains := rfl
@[simp] theorem State.setChan_ecache (s : State) (c : Nat) (x : Chan) : (s.setChan c x).ecache = s.ecache := rfl
@[simp] theorem State.setChan_frMsi (s : State) (c : Nat) (x : Chan) : (s.setChan c x).frMsi = s.frMsi := rfl
@[simp] theorem State.setChan_epochNow (s : State) (c : Nat) (x : Chan) : (s.setChan c x).epochNow = s.epochNow := rfl
@[simp] theorem State.setChan_grantKey (s : State) (c : Nat) (x : Chan) : (s.setChan c x).grantKey = s.grantKey := rfl
@[simp] theorem State.setChan_jobs (s : State) (c : Nat) (x : Chan) : (s.setChan c x).jobs = s.jobs := rfl
@[simp] theorem State.setChan_tends (s : State) (c : Nat) (x : Chan) : (s.setChan c x).tends = s.tends := rfl
@[simp] theorem State.setChan_units (s : State) (c : Nat) (x : Chan) : (s.setChan c x).units = s.units := rfl
@[simp] theorem State.setChan_nextKey (s : State) (c : Nat) (x : Chan) : (s.setChan c x).nextKey = s.nextKey := rfl
@[simp] theorem State.setChan_pwr (s : State) (c : Nat) (x : Chan) : (s.setChan c x).pwr = s.pwr := rfl
@[simp] theorem State.setChan_ces (s : State) (c : Nat) (x : Chan) : (s.setChan c x).ces = s.ces := rfl
@[simp] theorem State.setChan_scrub (s : State) (c : Nat) (x : Chan) : (s.setChan c x).scrub = s.scrub := rfl
@[simp] theorem State.setChan_pool (s : State) (c : Nat) (x : Chan) : (s.setChan c x).pool = s.pool := rfl
@[simp] theorem State.setChan_ports (s : State) (c : Nat) (x : Chan) : (s.setChan c x).ports = s.ports := rfl
@[simp] theorem State.setChan_lostPorts (s : State) (c : Nat) (x : Chan) : (s.setChan c x).lostPorts = s.lostPorts := rfl
@[simp] theorem State.setChan_sess (s : State) (c : Nat) (x : Chan) : (s.setChan c x).sess = s.sess := rfl
@[simp] theorem State.setChan_sec (s : State) (c : Nat) (x : Chan) : (s.setChan c x).sec = s.sec := rfl
@[simp] theorem State.setChan_rst (s : State) (c : Nat) (x : Chan) : (s.setChan c x).rst = s.rst := rfl
@[simp] theorem State.setChan_ll (s : State) (c : Nat) (x : Chan) : (s.setChan c x).ll = s.ll := rfl
@[simp] theorem State.setChan_read_ov (s : State) (c : Nat) (x : Chan) (ob : Obj) (k1 k2 : Nat) : (s.setChan c x).ov ob k1 k2 = s.ov ob k1 k2 := rfl
@[simp] theorem State.setChan_read_oct (s : State) (c : Nat) (x : Chan) (ob : Obj) (k1 k2 : Nat) : (s.setChan c x).oct ob k1 k2 = s.oct ob k1 k2 := rfl
@[simp] theorem State.setChan_read_ctx (s : State) (c : Nat) (x : Chan) (k1 : Nat) : (s.setChan c x).ctx k1 = s.ctx k1 := rfl
@[simp] theorem State.setChan_read_agent (s : State) (c : Nat) (x : Chan) (k1 : Nat) : (s.setChan c x).agent k1 = s.agent k1 := rfl
@[simp] theorem State.setChan_read_slc (s : State) (c : Nat) (x : Chan) (k1 : Nat) : (s.setChan c x).slc k1 = s.slc k1 := rfl
@[simp] theorem State.setChan_read_dir (s : State) (c : Nat) (x : Chan) (k1 : Nat) : (s.setChan c x).dir k1 = s.dir k1 := rfl
@[simp] theorem State.setChan_read_ext (s : State) (c : Nat) (x : Chan) (k1 : Nat) : (s.setChan c x).ext k1 = s.ext k1 := rfl
@[simp] theorem State.setChan_read_frame (s : State) (c : Nat) (x : Chan) (k1 : Nat) : (s.setChan c x).frame k1 = s.frame k1 := rfl
@[simp] theorem State.setChan_read_entry (s : State) (c : Nat) (x : Chan) (k1 : Nat) : (s.setChan c x).entry k1 = s.entry k1 := rfl
@[simp] theorem State.setChan_read_lport (s : State) (c : Nat) (x : Chan) (k1 : Nat) : (s.setChan c x).lport k1 = s.lport k1 := rfl
@[simp] theorem State.setChan_read_session (s : State) (c : Nat) (x : Chan) (k1 : Nat) : (s.setChan c x).session k1 = s.session k1 := rfl

/-! ### `State.setLlSess` writes `ll` -/

@[simp] theorem State.setLlSess_pending (s : State) (n : Nat) (x : LlSess) : (s.setLlSess n x).pending = s.pending := rfl
@[simp] theorem State.setLlSess_ltc (s : State) (n : Nat) (x : LlSess) : (s.setLlSess n x).ltc = s.ltc := rfl
@[simp] theorem State.setLlSess_freeCtr (s : State) (n : Nat) (x : LlSess) : (s.setLlSess n x).freeCtr = s.freeCtr := rfl
@[simp] theorem State.setLlSess_objs (s : State) (n : Nat) (x : LlSess) : (s.setLlSess n x).objs = s.objs := rfl
@[simp] theorem State.setLlSess_octs (s : State) (n : Nat) (x : LlSess) : (s.setLlSess n x).octs = s.octs := rfl
@[simp] theorem State.setLlSess_mem (s : State) (n : Nat) (x : LlSess) : (s.setLlSess n x).mem = s.mem := rfl
@[simp] theorem State.setLlSess_poison (s : State) (n : Nat) (x : LlSess) : (s.setLlSess n x).poison = s.poison := rfl
@[simp] theorem State.setLlSess_chunkKey (s : State) (n : Nat) (x : LlSess) : (s.setLlSess n x).chunkKey = s.chunkKey := rfl
@[simp] theorem State.setLlSess_dramBad (s : State) (n : Nat) (x : LlSess) : (s.setLlSess n x).dramBad = s.dramBad := rfl
@[simp] theorem State.setLlSess_coh (s : State) (n : Nat) (x : LlSess) : (s.setLlSess n x).coh = s.coh := rfl
@[simp] theorem State.setLlSess_chart (s : State) (n : Nat) (x : LlSess) : (s.setLlSess n x).chart = s.chart := rfl
@[simp] theorem State.setLlSess_reqs (s : State) (n : Nat) (x : LlSess) : (s.setLlSess n x).reqs = s.reqs := rfl
@[simp] theorem State.setLlSess_nextReq (s : State) (n : Nat) (x : LlSess) : (s.setLlSess n x).nextReq = s.nextReq := rfl
@[simp] theorem State.setLlSess_cmps (s : State) (n : Nat) (x : LlSess) : (s.setLlSess n x).cmps = s.cmps := rfl
@[simp] theorem State.setLlSess_frecs (s : State) (n : Nat) (x : LlSess) : (s.setLlSess n x).frecs = s.frecs := rfl
@[simp] theorem State.setLlSess_ctxs (s : State) (n : Nat) (x : LlSess) : (s.setLlSess n x).ctxs = s.ctxs := rfl
@[simp] theorem State.setLlSess_pol (s : State) (n : Nat) (x : LlSess) : (s.setLlSess n x).pol = s.pol := rfl
@[simp] theorem State.setLlSess_agents (s : State) (n : Nat) (x : LlSess) : (s.setLlSess n x).agents = s.agents := rfl
@[simp] theorem State.setLlSess_slices (s : State) (n : Nat) (x : LlSess) : (s.setLlSess n x).slices = s.slices := rfl
@[simp] theorem State.setLlSess_txq (s : State) (n : Nat) (x : LlSess) : (s.setLlSess n x).txq = s.txq := rfl
@[simp] theorem State.setLlSess_out (s : State) (n : Nat) (x : LlSess) : (s.setLlSess n x).out = s.out := rfl
@[simp] theorem State.setLlSess_log (s : State) (n : Nat) (x : LlSess) : (s.setLlSess n x).log = s.log := rfl
@[simp] theorem State.setLlSess_maps (s : State) (n : Nat) (x : LlSess) : (s.setLlSess n x).maps = s.maps := rfl
@[simp] theorem State.setLlSess_migs (s : State) (n : Nat) (x : LlSess) : (s.setLlSess n x).migs = s.migs := rfl
@[simp] theorem State.setLlSess_mwrs (s : State) (n : Nat) (x : LlSess) : (s.setLlSess n x).mwrs = s.mwrs := rfl
@[simp] theorem State.setLlSess_xid (s : State) (n : Nat) (x : LlSess) : (s.setLlSess n x).xid = s.xid := rfl
@[simp] theorem State.setLlSess_rates (s : State) (n : Nat) (x : LlSess) : (s.setLlSess n x).rates = s.rates := rfl
@[simp] theorem State.setLlSess_drains (s : State) (n : Nat) (x : LlSess) : (s.setLlSess n x).drains = s.drains := rfl
@[simp] theorem State.setLlSess_ecache (s : State) (n : Nat) (x : LlSess) : (s.setLlSess n x).ecache = s.ecache := rfl
@[simp] theorem State.setLlSess_frMsi (s : State) (n : Nat) (x : LlSess) : (s.setLlSess n x).frMsi = s.frMsi := rfl
@[simp] theorem State.setLlSess_epochNow (s : State) (n : Nat) (x : LlSess) : (s.setLlSess n x).epochNow = s.epochNow := rfl
@[simp] theorem State.setLlSess_grantKey (s : State) (n : Nat) (x : LlSess) : (s.setLlSess n x).grantKey = s.grantKey := rfl
@[simp] theorem State.setLlSess_jobs (s : State) (n : Nat) (x : LlSess) : (s.setLlSess n x).jobs = s.jobs := rfl
@[simp] theorem State.setLlSess_tends (s : State) (n : Nat) (x : LlSess) : (s.setLlSess n x).tends = s.tends := rfl
@[simp] theorem State.setLlSess_units (s : State) (n : Nat) (x : LlSess) : (s.setLlSess n x).units = s.units := rfl
@[simp] theorem State.setLlSess_nextKey (s : State) (n : Nat) (x : LlSess) : (s.setLlSess n x).nextKey = s.nextKey := rfl
@[simp] theorem State.setLlSess_pwr (s : State) (n : Nat) (x : LlSess) : (s.setLlSess n x).pwr = s.pwr := rfl
@[simp] theorem State.setLlSess_dram (s : State) (n : Nat) (x : LlSess) : (s.setLlSess n x).dram = s.dram := rfl
@[simp] theorem State.setLlSess_ces (s : State) (n : Nat) (x : LlSess) : (s.setLlSess n x).ces = s.ces := rfl
@[simp] theorem State.setLlSess_scrub (s : State) (n : Nat) (x : LlSess) : (s.setLlSess n x).scrub = s.scrub := rfl
@[simp] theorem State.setLlSess_pool (s : State) (n : Nat) (x : LlSess) : (s.setLlSess n x).pool = s.pool := rfl
@[simp] theorem State.setLlSess_ports (s : State) (n : Nat) (x : LlSess) : (s.setLlSess n x).ports = s.ports := rfl
@[simp] theorem State.setLlSess_lostPorts (s : State) (n : Nat) (x : LlSess) : (s.setLlSess n x).lostPorts = s.lostPorts := rfl
@[simp] theorem State.setLlSess_sess (s : State) (n : Nat) (x : LlSess) : (s.setLlSess n x).sess = s.sess := rfl
@[simp] theorem State.setLlSess_sec (s : State) (n : Nat) (x : LlSess) : (s.setLlSess n x).sec = s.sec := rfl
@[simp] theorem State.setLlSess_rst (s : State) (n : Nat) (x : LlSess) : (s.setLlSess n x).rst = s.rst := rfl
@[simp] theorem State.setLlSess_read_ov (s : State) (n : Nat) (x : LlSess) (ob : Obj) (k1 k2 : Nat) : (s.setLlSess n x).ov ob k1 k2 = s.ov ob k1 k2 := rfl
@[simp] theorem State.setLlSess_read_oct (s : State) (n : Nat) (x : LlSess) (ob : Obj) (k1 k2 : Nat) : (s.setLlSess n x).oct ob k1 k2 = s.oct ob k1 k2 := rfl
@[simp] theorem State.setLlSess_read_ctx (s : State) (n : Nat) (x : LlSess) (k1 : Nat) : (s.setLlSess n x).ctx k1 = s.ctx k1 := rfl
@[simp] theorem State.setLlSess_read_agent (s : State) (n : Nat) (x : LlSess) (k1 : Nat) : (s.setLlSess n x).agent k1 = s.agent k1 := rfl
@[simp] theorem State.setLlSess_read_slc (s : State) (n : Nat) (x : LlSess) (k1 : Nat) : (s.setLlSess n x).slc k1 = s.slc k1 := rfl
@[simp] theorem State.setLlSess_read_dir (s : State) (n : Nat) (x : LlSess) (k1 : Nat) : (s.setLlSess n x).dir k1 = s.dir k1 := rfl
@[simp] theorem State.setLlSess_read_ext (s : State) (n : Nat) (x : LlSess) (k1 : Nat) : (s.setLlSess n x).ext k1 = s.ext k1 := rfl
@[simp] theorem State.setLlSess_read_frame (s : State) (n : Nat) (x : LlSess) (k1 : Nat) : (s.setLlSess n x).frame k1 = s.frame k1 := rfl
@[simp] theorem State.setLlSess_read_entry (s : State) (n : Nat) (x : LlSess) (k1 : Nat) : (s.setLlSess n x).entry k1 = s.entry k1 := rfl
@[simp] theorem State.setLlSess_read_lport (s : State) (n : Nat) (x : LlSess) (k1 : Nat) : (s.setLlSess n x).lport k1 = s.lport k1 := rfl
@[simp] theorem State.setLlSess_read_session (s : State) (n : Nat) (x : LlSess) (k1 : Nat) : (s.setLlSess n x).session k1 = s.session k1 := rfl

/-! ### `State.setAcc` writes `coh` -/

@[simp] theorem State.setAcc_pending (s : State) (line : Nat) (a : AccLine) : (s.setAcc line a).pending = s.pending := rfl
@[simp] theorem State.setAcc_ltc (s : State) (line : Nat) (a : AccLine) : (s.setAcc line a).ltc = s.ltc := rfl
@[simp] theorem State.setAcc_freeCtr (s : State) (line : Nat) (a : AccLine) : (s.setAcc line a).freeCtr = s.freeCtr := rfl
@[simp] theorem State.setAcc_objs (s : State) (line : Nat) (a : AccLine) : (s.setAcc line a).objs = s.objs := rfl
@[simp] theorem State.setAcc_octs (s : State) (line : Nat) (a : AccLine) : (s.setAcc line a).octs = s.octs := rfl
@[simp] theorem State.setAcc_mem (s : State) (line : Nat) (a : AccLine) : (s.setAcc line a).mem = s.mem := rfl
@[simp] theorem State.setAcc_poison (s : State) (line : Nat) (a : AccLine) : (s.setAcc line a).poison = s.poison := rfl
@[simp] theorem State.setAcc_chunkKey (s : State) (line : Nat) (a : AccLine) : (s.setAcc line a).chunkKey = s.chunkKey := rfl
@[simp] theorem State.setAcc_dramBad (s : State) (line : Nat) (a : AccLine) : (s.setAcc line a).dramBad = s.dramBad := rfl
@[simp] theorem State.setAcc_chart (s : State) (line : Nat) (a : AccLine) : (s.setAcc line a).chart = s.chart := rfl
@[simp] theorem State.setAcc_reqs (s : State) (line : Nat) (a : AccLine) : (s.setAcc line a).reqs = s.reqs := rfl
@[simp] theorem State.setAcc_nextReq (s : State) (line : Nat) (a : AccLine) : (s.setAcc line a).nextReq = s.nextReq := rfl
@[simp] theorem State.setAcc_cmps (s : State) (line : Nat) (a : AccLine) : (s.setAcc line a).cmps = s.cmps := rfl
@[simp] theorem State.setAcc_frecs (s : State) (line : Nat) (a : AccLine) : (s.setAcc line a).frecs = s.frecs := rfl
@[simp] theorem State.setAcc_ctxs (s : State) (line : Nat) (a : AccLine) : (s.setAcc line a).ctxs = s.ctxs := rfl
@[simp] theorem State.setAcc_pol (s : State) (line : Nat) (a : AccLine) : (s.setAcc line a).pol = s.pol := rfl
@[simp] theorem State.setAcc_agents (s : State) (line : Nat) (a : AccLine) : (s.setAcc line a).agents = s.agents := rfl
@[simp] theorem State.setAcc_slices (s : State) (line : Nat) (a : AccLine) : (s.setAcc line a).slices = s.slices := rfl
@[simp] theorem State.setAcc_txq (s : State) (line : Nat) (a : AccLine) : (s.setAcc line a).txq = s.txq := rfl
@[simp] theorem State.setAcc_out (s : State) (line : Nat) (a : AccLine) : (s.setAcc line a).out = s.out := rfl
@[simp] theorem State.setAcc_log (s : State) (line : Nat) (a : AccLine) : (s.setAcc line a).log = s.log := rfl
@[simp] theorem State.setAcc_maps (s : State) (line : Nat) (a : AccLine) : (s.setAcc line a).maps = s.maps := rfl
@[simp] theorem State.setAcc_migs (s : State) (line : Nat) (a : AccLine) : (s.setAcc line a).migs = s.migs := rfl
@[simp] theorem State.setAcc_mwrs (s : State) (line : Nat) (a : AccLine) : (s.setAcc line a).mwrs = s.mwrs := rfl
@[simp] theorem State.setAcc_xid (s : State) (line : Nat) (a : AccLine) : (s.setAcc line a).xid = s.xid := rfl
@[simp] theorem State.setAcc_rates (s : State) (line : Nat) (a : AccLine) : (s.setAcc line a).rates = s.rates := rfl
@[simp] theorem State.setAcc_drains (s : State) (line : Nat) (a : AccLine) : (s.setAcc line a).drains = s.drains := rfl
@[simp] theorem State.setAcc_ecache (s : State) (line : Nat) (a : AccLine) : (s.setAcc line a).ecache = s.ecache := rfl
@[simp] theorem State.setAcc_frMsi (s : State) (line : Nat) (a : AccLine) : (s.setAcc line a).frMsi = s.frMsi := rfl
@[simp] theorem State.setAcc_epochNow (s : State) (line : Nat) (a : AccLine) : (s.setAcc line a).epochNow = s.epochNow := rfl
@[simp] theorem State.setAcc_grantKey (s : State) (line : Nat) (a : AccLine) : (s.setAcc line a).grantKey = s.grantKey := rfl
@[simp] theorem State.setAcc_jobs (s : State) (line : Nat) (a : AccLine) : (s.setAcc line a).jobs = s.jobs := rfl
@[simp] theorem State.setAcc_tends (s : State) (line : Nat) (a : AccLine) : (s.setAcc line a).tends = s.tends := rfl
@[simp] theorem State.setAcc_units (s : State) (line : Nat) (a : AccLine) : (s.setAcc line a).units = s.units := rfl
@[simp] theorem State.setAcc_nextKey (s : State) (line : Nat) (a : AccLine) : (s.setAcc line a).nextKey = s.nextKey := rfl
@[simp] theorem State.setAcc_pwr (s : State) (line : Nat) (a : AccLine) : (s.setAcc line a).pwr = s.pwr := rfl
@[simp] theorem State.setAcc_dram (s : State) (line : Nat) (a : AccLine) : (s.setAcc line a).dram = s.dram := rfl
@[simp] theorem State.setAcc_ces (s : State) (line : Nat) (a : AccLine) : (s.setAcc line a).ces = s.ces := rfl
@[simp] theorem State.setAcc_scrub (s : State) (line : Nat) (a : AccLine) : (s.setAcc line a).scrub = s.scrub := rfl
@[simp] theorem State.setAcc_pool (s : State) (line : Nat) (a : AccLine) : (s.setAcc line a).pool = s.pool := rfl
@[simp] theorem State.setAcc_ports (s : State) (line : Nat) (a : AccLine) : (s.setAcc line a).ports = s.ports := rfl
@[simp] theorem State.setAcc_lostPorts (s : State) (line : Nat) (a : AccLine) : (s.setAcc line a).lostPorts = s.lostPorts := rfl
@[simp] theorem State.setAcc_sess (s : State) (line : Nat) (a : AccLine) : (s.setAcc line a).sess = s.sess := rfl
@[simp] theorem State.setAcc_sec (s : State) (line : Nat) (a : AccLine) : (s.setAcc line a).sec = s.sec := rfl
@[simp] theorem State.setAcc_rst (s : State) (line : Nat) (a : AccLine) : (s.setAcc line a).rst = s.rst := rfl
@[simp] theorem State.setAcc_ll (s : State) (line : Nat) (a : AccLine) : (s.setAcc line a).ll = s.ll := rfl
@[simp] theorem State.setAcc_read_ov (s : State) (line : Nat) (a : AccLine) (ob : Obj) (k1 k2 : Nat) : (s.setAcc line a).ov ob k1 k2 = s.ov ob k1 k2 := rfl
@[simp] theorem State.setAcc_read_oct (s : State) (line : Nat) (a : AccLine) (ob : Obj) (k1 k2 : Nat) : (s.setAcc line a).oct ob k1 k2 = s.oct ob k1 k2 := rfl
@[simp] theorem State.setAcc_read_ctx (s : State) (line : Nat) (a : AccLine) (k1 : Nat) : (s.setAcc line a).ctx k1 = s.ctx k1 := rfl
@[simp] theorem State.setAcc_read_agent (s : State) (line : Nat) (a : AccLine) (k1 : Nat) : (s.setAcc line a).agent k1 = s.agent k1 := rfl
@[simp] theorem State.setAcc_read_slc (s : State) (line : Nat) (a : AccLine) (k1 : Nat) : (s.setAcc line a).slc k1 = s.slc k1 := rfl
@[simp] theorem State.setAcc_read_ext (s : State) (line : Nat) (a : AccLine) (k1 : Nat) : (s.setAcc line a).ext k1 = s.ext k1 := rfl
@[simp] theorem State.setAcc_read_frame (s : State) (line : Nat) (a : AccLine) (k1 : Nat) : (s.setAcc line a).frame k1 = s.frame k1 := rfl
@[simp] theorem State.setAcc_read_entry (s : State) (line : Nat) (a : AccLine) (k1 : Nat) : (s.setAcc line a).entry k1 = s.entry k1 := rfl
@[simp] theorem State.setAcc_read_lport (s : State) (line : Nat) (a : AccLine) (k1 : Nat) : (s.setAcc line a).lport k1 = s.lport k1 := rfl
@[simp] theorem State.setAcc_read_session (s : State) (line : Nat) (a : AccLine) (k1 : Nat) : (s.setAcc line a).session k1 = s.session k1 := rfl

/-! ### `State.tick` writes `coh` -/

@[simp] theorem State.tick_pending (s : State) : (s.tick).pending = s.pending := rfl
@[simp] theorem State.tick_ltc (s : State) : (s.tick).ltc = s.ltc := rfl
@[simp] theorem State.tick_freeCtr (s : State) : (s.tick).freeCtr = s.freeCtr := rfl
@[simp] theorem State.tick_objs (s : State) : (s.tick).objs = s.objs := rfl
@[simp] theorem State.tick_octs (s : State) : (s.tick).octs = s.octs := rfl
@[simp] theorem State.tick_mem (s : State) : (s.tick).mem = s.mem := rfl
@[simp] theorem State.tick_poison (s : State) : (s.tick).poison = s.poison := rfl
@[simp] theorem State.tick_chunkKey (s : State) : (s.tick).chunkKey = s.chunkKey := rfl
@[simp] theorem State.tick_dramBad (s : State) : (s.tick).dramBad = s.dramBad := rfl
@[simp] theorem State.tick_chart (s : State) : (s.tick).chart = s.chart := rfl
@[simp] theorem State.tick_reqs (s : State) : (s.tick).reqs = s.reqs := rfl
@[simp] theorem State.tick_nextReq (s : State) : (s.tick).nextReq = s.nextReq := rfl
@[simp] theorem State.tick_cmps (s : State) : (s.tick).cmps = s.cmps := rfl
@[simp] theorem State.tick_frecs (s : State) : (s.tick).frecs = s.frecs := rfl
@[simp] theorem State.tick_ctxs (s : State) : (s.tick).ctxs = s.ctxs := rfl
@[simp] theorem State.tick_pol (s : State) : (s.tick).pol = s.pol := rfl
@[simp] theorem State.tick_agents (s : State) : (s.tick).agents = s.agents := rfl
@[simp] theorem State.tick_slices (s : State) : (s.tick).slices = s.slices := rfl
@[simp] theorem State.tick_txq (s : State) : (s.tick).txq = s.txq := rfl
@[simp] theorem State.tick_out (s : State) : (s.tick).out = s.out := rfl
@[simp] theorem State.tick_log (s : State) : (s.tick).log = s.log := rfl
@[simp] theorem State.tick_maps (s : State) : (s.tick).maps = s.maps := rfl
@[simp] theorem State.tick_migs (s : State) : (s.tick).migs = s.migs := rfl
@[simp] theorem State.tick_mwrs (s : State) : (s.tick).mwrs = s.mwrs := rfl
@[simp] theorem State.tick_xid (s : State) : (s.tick).xid = s.xid := rfl
@[simp] theorem State.tick_rates (s : State) : (s.tick).rates = s.rates := rfl
@[simp] theorem State.tick_drains (s : State) : (s.tick).drains = s.drains := rfl
@[simp] theorem State.tick_ecache (s : State) : (s.tick).ecache = s.ecache := rfl
@[simp] theorem State.tick_frMsi (s : State) : (s.tick).frMsi = s.frMsi := rfl
@[simp] theorem State.tick_epochNow (s : State) : (s.tick).epochNow = s.epochNow := rfl
@[simp] theorem State.tick_grantKey (s : State) : (s.tick).grantKey = s.grantKey := rfl
@[simp] theorem State.tick_jobs (s : State) : (s.tick).jobs = s.jobs := rfl
@[simp] theorem State.tick_tends (s : State) : (s.tick).tends = s.tends := rfl
@[simp] theorem State.tick_units (s : State) : (s.tick).units = s.units := rfl
@[simp] theorem State.tick_nextKey (s : State) : (s.tick).nextKey = s.nextKey := rfl
@[simp] theorem State.tick_pwr (s : State) : (s.tick).pwr = s.pwr := rfl
@[simp] theorem State.tick_dram (s : State) : (s.tick).dram = s.dram := rfl
@[simp] theorem State.tick_ces (s : State) : (s.tick).ces = s.ces := rfl
@[simp] theorem State.tick_scrub (s : State) : (s.tick).scrub = s.scrub := rfl
@[simp] theorem State.tick_pool (s : State) : (s.tick).pool = s.pool := rfl
@[simp] theorem State.tick_ports (s : State) : (s.tick).ports = s.ports := rfl
@[simp] theorem State.tick_lostPorts (s : State) : (s.tick).lostPorts = s.lostPorts := rfl
@[simp] theorem State.tick_sess (s : State) : (s.tick).sess = s.sess := rfl
@[simp] theorem State.tick_sec (s : State) : (s.tick).sec = s.sec := rfl
@[simp] theorem State.tick_rst (s : State) : (s.tick).rst = s.rst := rfl
@[simp] theorem State.tick_ll (s : State) : (s.tick).ll = s.ll := rfl
@[simp] theorem State.tick_read_ov (s : State) (ob : Obj) (k1 k2 : Nat) : (s.tick).ov ob k1 k2 = s.ov ob k1 k2 := rfl
@[simp] theorem State.tick_read_oct (s : State) (ob : Obj) (k1 k2 : Nat) : (s.tick).oct ob k1 k2 = s.oct ob k1 k2 := rfl
@[simp] theorem State.tick_read_ctx (s : State) (k1 : Nat) : (s.tick).ctx k1 = s.ctx k1 := rfl
@[simp] theorem State.tick_read_agent (s : State) (k1 : Nat) : (s.tick).agent k1 = s.agent k1 := rfl
@[simp] theorem State.tick_read_slc (s : State) (k1 : Nat) : (s.tick).slc k1 = s.slc k1 := rfl
@[simp] theorem State.tick_read_ext (s : State) (k1 : Nat) : (s.tick).ext k1 = s.ext k1 := rfl
@[simp] theorem State.tick_read_frame (s : State) (k1 : Nat) : (s.tick).frame k1 = s.frame k1 := rfl
@[simp] theorem State.tick_read_entry (s : State) (k1 : Nat) : (s.tick).entry k1 = s.entry k1 := rfl
@[simp] theorem State.tick_read_lport (s : State) (k1 : Nat) : (s.tick).lport k1 = s.lport k1 := rfl
@[simp] theorem State.tick_read_session (s : State) (k1 : Nat) : (s.tick).session k1 = s.session k1 := rfl

/-! ### `State.dropReq` writes `reqs` -/

@[simp] theorem State.dropReq_pending (s : State) (id : Nat) : (s.dropReq id).pending = s.pending := rfl
@[simp] theorem State.dropReq_ltc (s : State) (id : Nat) : (s.dropReq id).ltc = s.ltc := rfl
@[simp] theorem State.dropReq_freeCtr (s : State) (id : Nat) : (s.dropReq id).freeCtr = s.freeCtr := rfl
@[simp] theorem State.dropReq_objs (s : State) (id : Nat) : (s.dropReq id).objs = s.objs := rfl
@[simp] theorem State.dropReq_octs (s : State) (id : Nat) : (s.dropReq id).octs = s.octs := rfl
@[simp] theorem State.dropReq_mem (s : State) (id : Nat) : (s.dropReq id).mem = s.mem := rfl
@[simp] theorem State.dropReq_poison (s : State) (id : Nat) : (s.dropReq id).poison = s.poison := rfl
@[simp] theorem State.dropReq_chunkKey (s : State) (id : Nat) : (s.dropReq id).chunkKey = s.chunkKey := rfl
@[simp] theorem State.dropReq_dramBad (s : State) (id : Nat) : (s.dropReq id).dramBad = s.dramBad := rfl
@[simp] theorem State.dropReq_coh (s : State) (id : Nat) : (s.dropReq id).coh = s.coh := rfl
@[simp] theorem State.dropReq_chart (s : State) (id : Nat) : (s.dropReq id).chart = s.chart := rfl
@[simp] theorem State.dropReq_nextReq (s : State) (id : Nat) : (s.dropReq id).nextReq = s.nextReq := rfl
@[simp] theorem State.dropReq_cmps (s : State) (id : Nat) : (s.dropReq id).cmps = s.cmps := rfl
@[simp] theorem State.dropReq_frecs (s : State) (id : Nat) : (s.dropReq id).frecs = s.frecs := rfl
@[simp] theorem State.dropReq_ctxs (s : State) (id : Nat) : (s.dropReq id).ctxs = s.ctxs := rfl
@[simp] theorem State.dropReq_pol (s : State) (id : Nat) : (s.dropReq id).pol = s.pol := rfl
@[simp] theorem State.dropReq_agents (s : State) (id : Nat) : (s.dropReq id).agents = s.agents := rfl
@[simp] theorem State.dropReq_slices (s : State) (id : Nat) : (s.dropReq id).slices = s.slices := rfl
@[simp] theorem State.dropReq_txq (s : State) (id : Nat) : (s.dropReq id).txq = s.txq := rfl
@[simp] theorem State.dropReq_out (s : State) (id : Nat) : (s.dropReq id).out = s.out := rfl
@[simp] theorem State.dropReq_log (s : State) (id : Nat) : (s.dropReq id).log = s.log := rfl
@[simp] theorem State.dropReq_maps (s : State) (id : Nat) : (s.dropReq id).maps = s.maps := rfl
@[simp] theorem State.dropReq_migs (s : State) (id : Nat) : (s.dropReq id).migs = s.migs := rfl
@[simp] theorem State.dropReq_mwrs (s : State) (id : Nat) : (s.dropReq id).mwrs = s.mwrs := rfl
@[simp] theorem State.dropReq_xid (s : State) (id : Nat) : (s.dropReq id).xid = s.xid := rfl
@[simp] theorem State.dropReq_rates (s : State) (id : Nat) : (s.dropReq id).rates = s.rates := rfl
@[simp] theorem State.dropReq_drains (s : State) (id : Nat) : (s.dropReq id).drains = s.drains := rfl
@[simp] theorem State.dropReq_ecache (s : State) (id : Nat) : (s.dropReq id).ecache = s.ecache := rfl
@[simp] theorem State.dropReq_frMsi (s : State) (id : Nat) : (s.dropReq id).frMsi = s.frMsi := rfl
@[simp] theorem State.dropReq_epochNow (s : State) (id : Nat) : (s.dropReq id).epochNow = s.epochNow := rfl
@[simp] theorem State.dropReq_grantKey (s : State) (id : Nat) : (s.dropReq id).grantKey = s.grantKey := rfl
@[simp] theorem State.dropReq_jobs (s : State) (id : Nat) : (s.dropReq id).jobs = s.jobs := rfl
@[simp] theorem State.dropReq_tends (s : State) (id : Nat) : (s.dropReq id).tends = s.tends := rfl
@[simp] theorem State.dropReq_units (s : State) (id : Nat) : (s.dropReq id).units = s.units := rfl
@[simp] theorem State.dropReq_nextKey (s : State) (id : Nat) : (s.dropReq id).nextKey = s.nextKey := rfl
@[simp] theorem State.dropReq_pwr (s : State) (id : Nat) : (s.dropReq id).pwr = s.pwr := rfl
@[simp] theorem State.dropReq_dram (s : State) (id : Nat) : (s.dropReq id).dram = s.dram := rfl
@[simp] theorem State.dropReq_ces (s : State) (id : Nat) : (s.dropReq id).ces = s.ces := rfl
@[simp] theorem State.dropReq_scrub (s : State) (id : Nat) : (s.dropReq id).scrub = s.scrub := rfl
@[simp] theorem State.dropReq_pool (s : State) (id : Nat) : (s.dropReq id).pool = s.pool := rfl
@[simp] theorem State.dropReq_ports (s : State) (id : Nat) : (s.dropReq id).ports = s.ports := rfl
@[simp] theorem State.dropReq_lostPorts (s : State) (id : Nat) : (s.dropReq id).lostPorts = s.lostPorts := rfl
@[simp] theorem State.dropReq_sess (s : State) (id : Nat) : (s.dropReq id).sess = s.sess := rfl
@[simp] theorem State.dropReq_sec (s : State) (id : Nat) : (s.dropReq id).sec = s.sec := rfl
@[simp] theorem State.dropReq_rst (s : State) (id : Nat) : (s.dropReq id).rst = s.rst := rfl
@[simp] theorem State.dropReq_ll (s : State) (id : Nat) : (s.dropReq id).ll = s.ll := rfl
@[simp] theorem State.dropReq_read_ov (s : State) (id : Nat) (ob : Obj) (k1 k2 : Nat) : (s.dropReq id).ov ob k1 k2 = s.ov ob k1 k2 := rfl
@[simp] theorem State.dropReq_read_oct (s : State) (id : Nat) (ob : Obj) (k1 k2 : Nat) : (s.dropReq id).oct ob k1 k2 = s.oct ob k1 k2 := rfl
@[simp] theorem State.dropReq_read_ctx (s : State) (id : Nat) (k1 : Nat) : (s.dropReq id).ctx k1 = s.ctx k1 := rfl
@[simp] theorem State.dropReq_read_agent (s : State) (id : Nat) (k1 : Nat) : (s.dropReq id).agent k1 = s.agent k1 := rfl
@[simp] theorem State.dropReq_read_slc (s : State) (id : Nat) (k1 : Nat) : (s.dropReq id).slc k1 = s.slc k1 := rfl
@[simp] theorem State.dropReq_read_dir (s : State) (id : Nat) (k1 : Nat) : (s.dropReq id).dir k1 = s.dir k1 := rfl
@[simp] theorem State.dropReq_read_ext (s : State) (id : Nat) (k1 : Nat) : (s.dropReq id).ext k1 = s.ext k1 := rfl
@[simp] theorem State.dropReq_read_frame (s : State) (id : Nat) (k1 : Nat) : (s.dropReq id).frame k1 = s.frame k1 := rfl
@[simp] theorem State.dropReq_read_entry (s : State) (id : Nat) (k1 : Nat) : (s.dropReq id).entry k1 = s.entry k1 := rfl
@[simp] theorem State.dropReq_read_lport (s : State) (id : Nat) (k1 : Nat) : (s.dropReq id).lport k1 = s.lport k1 := rfl
@[simp] theorem State.dropReq_read_session (s : State) (id : Nat) (k1 : Nat) : (s.dropReq id).session k1 = s.session k1 := rfl

end Sys2Proof.Machine
end

