-- ==== Sys2Proof/Laws/Tables.lean ====
section
/-! SUPPORT. Sys2Proof/Laws/Tables.lean: the laws of sparse tables and of the memory operations built on them: what is read after a
write, and that the canonical form is kept. -/

namespace Sys2Proof

theorem Tab.get_ins {α : Type} (d : α) (k : Nat) (v : α) (t : Tab α) (j : Nat) :
    Tab.get d (Tab.ins k v t) j = if k = j then v else Tab.get d t j := by
  induction t with
  | nil => simp [Tab.ins, Tab.get]
  | cons p t ih =>
    obtain ⟨k', v'⟩ := p
    unfold Tab.ins
    split
    · simp [Tab.get]
    · split
      · subst k'
        by_cases h : k = j <;> simp [Tab.get, h]
      · by_cases h : k' = j
        · subst h
          simp [Tab.get, *]
        · simp [Tab.get, h, ih]

theorem Tab.wfFrom_mono {α : Type} [DecidableEq α] {d : α} {j k : Nat} {t : Tab α} (h : Tab.wfFrom d k t = true) (hjk : j ≤ k) :
    Tab.wfFrom d j t = true := by
  cases t with
  | nil => rfl
  | cons p t =>
    simp only [Tab.wfFrom, Bool.and_eq_true, decide_eq_true_eq] at h ⊢
    exact ⟨⟨Nat.le_trans hjk h.1.1, h.1.2⟩, h.2⟩

theorem Tab.get_below {α : Type} [DecidableEq α] {d : α} {k j : Nat} {t : Tab α} (h : Tab.wfFrom d k t = true) (hj : j < k) :
    Tab.get d t j = d := by
  induction t generalizing k with
  | nil => rfl
  | cons p t ih =>
    obtain ⟨k', v'⟩ := p
    simp only [Tab.wfFrom, Bool.and_eq_true, decide_eq_true_eq] at h
    have : ¬ k' = j := by omega
    simp only [Tab.get, this, if_false]
    exact ih h.2 (by omega)

theorem Tab.wfFrom_ins {α : Type} [DecidableEq α] {d v : α} {k j : Nat} {t : Tab α} (h : Tab.wfFrom d j t = true) (hj : j ≤ k)
    (hv : v ≠ d) : Tab.wfFrom d j (Tab.ins k v t) = true := by
  induction t generalizing j with
  | nil => simp [Tab.ins, Tab.wfFrom, hj, hv]
  | cons p t ih =>
    obtain ⟨k', v'⟩ := p
    simp only [Tab.wfFrom, Bool.and_eq_true, decide_eq_true_eq] at h
    unfold Tab.ins
    split
    · simp only [Tab.wfFrom, Bool.and_eq_true, decide_eq_true_eq]
      exact ⟨⟨hj, hv⟩, ⟨by omega, h.1.2⟩, h.2⟩
    · split
      · simp only [Tab.wfFrom, Bool.and_eq_true, decide_eq_true_eq]
        subst k'
        exact ⟨⟨hj, hv⟩, h.2⟩
      · simp only [Tab.wfFrom, Bool.and_eq_true, decide_eq_true_eq]
        exact ⟨h.1, ih h.2 (by omega)⟩

theorem Tab.wfFrom_del {α : Type} [DecidableEq α] {d : α} {k j : Nat} {t : Tab α} (h : Tab.wfFrom d j t = true) :
    Tab.wfFrom d j (Tab.del k t) = true := by
  induction t generalizing j with
  | nil => rfl
  | cons p t ih =>
    obtain ⟨k', v'⟩ := p
    simp only [Tab.wfFrom, Bool.and_eq_true, decide_eq_true_eq] at h
    unfold Tab.del
    split
    · exact Tab.wfFrom_mono h.2 (by omega)
    · simp only [Tab.wfFrom, Bool.and_eq_true, decide_eq_true_eq]
      exact ⟨h.1, ih h.2⟩

/-- A write keeps the canonical form. -/
theorem Tab.wf_put {α : Type} [DecidableEq α] {d : α} {t : Tab α} (h : Tab.wf d t = true) (k : Nat) (v : α) :
    Tab.wf d (Tab.put d t k v) = true := by
  unfold Tab.put
  split
  · exact Tab.wfFrom_del h
  · exact Tab.wfFrom_ins h (Nat.zero_le k) ‹_›

theorem Tab.wfFrom_filter {α : Type} [DecidableEq α] {d : α} {j : Nat} {t : Tab α} (h : Tab.wfFrom d j t = true)
    (p : Nat × α → Bool) : Tab.wfFrom d j (t.filter p) = true := by
  induction t generalizing j with
  | nil => rfl
  | cons x t ih =>
    obtain ⟨k', v'⟩ := x
    simp only [Tab.wfFrom, Bool.and_eq_true, decide_eq_true_eq] at h
    rw [List.filter_cons]
    split
    · simp only [Tab.wfFrom, Bool.and_eq_true, decide_eq_true_eq]
      exact ⟨h.1, ih h.2⟩
    · exact ih (Tab.wfFrom_mono h.2 (by omega))

/-- Dropping pairs keeps the canonical form. -/
theorem Tab.wf_filter {α : Type} [DecidableEq α] {d : α} {t : Tab α} (h : Tab.wf d t = true) (p : Nat × α → Bool) :
    Tab.wf d (t.filter p) = true := Tab.wfFrom_filter h p

theorem Tab.get_del {α : Type} [DecidableEq α] {d : α} {j : Nat} {t : Tab α} (h : Tab.wfFrom d j t = true) (k i : Nat) :
    Tab.get d (Tab.del k t) i = if k = i then d else Tab.get d t i := by
  induction t generalizing j with
  | nil => simp [Tab.del, Tab.get]
  | cons p t ih =>
    obtain ⟨k', v'⟩ := p
    simp only [Tab.wfFrom, Bool.and_eq_true, decide_eq_true_eq] at h
    unfold Tab.del
    split
    · subst k'
      by_cases hi : k = i
      · subst hi
        rw [if_pos rfl]
        exact Tab.get_below h.2 (Nat.lt_succ_self k)
      · simp [Tab.get, hi]
    · by_cases hi : k' = i
      · subst hi
        simp [Tab.get, *]
      · simp only [Tab.get, hi, if_false]
        exact ih h.2

/-- In a table in canonical form, what was written is read, and every other key reads as before. -/
theorem Tab.get_put {α : Type} [DecidableEq α] {d : α} {t : Tab α} (h : Tab.wf d t = true) (k : Nat) (v : α) (i : Nat) :
    Tab.get d (Tab.put d t k v) i = if k = i then v else Tab.get d t i := by
  unfold Tab.put
  split
  · subst v
    exact Tab.get_del h k i
  · exact Tab.get_ins d k v t i

namespace Machine

theorem risingFrom_mono {α : Type} {j k : Nat} {t : Tab α} (h : risingFrom k t = true) (hjk : j ≤ k) : risingFrom j t = true := by
  cases t with
  | nil => rfl
  | cons p t =>
    simp only [risingFrom, Bool.and_eq_true, decide_eq_true_eq] at h ⊢
    exact ⟨Nat.le_trans hjk h.1, h.2⟩

theorem risingFrom_ins {α : Type} {v : α} {k j : Nat} {t : Tab α} (h : risingFrom j t = true) (hj : j ≤ k) :
    risingFrom j (Tab.ins k v t) = true := by
  induction t generalizing j with
  | nil => simp [Tab.ins, risingFrom, hj]
  | cons p t ih =>
    obtain ⟨k', v'⟩ := p
    simp only [risingFrom, Bool.and_eq_true, decide_eq_true_eq] at h
    unfold Tab.ins
    split
    · simp only [risingFrom, Bool.and_eq_true, decide_eq_true_eq]
      exact ⟨hj, by omega, h.2⟩
    · split
      · simp only [risingFrom, Bool.and_eq_true, decide_eq_true_eq]
        subst k'
        exact ⟨hj, h.2⟩
      · simp only [risingFrom, Bool.and_eq_true, decide_eq_true_eq]
        exact ⟨h.1, ih h.2 (by omega)⟩

theorem risingFrom_del {α : Type} {k j : Nat} {t : Tab α} (h : risingFrom j t = true) : risingFrom j (Tab.del k t) = true := by
  induction t generalizing j with
  | nil => rfl
  | cons p t ih =>
    obtain ⟨k', v'⟩ := p
    simp only [risingFrom, Bool.and_eq_true, decide_eq_true_eq] at h
    unfold Tab.del
    split
    · exact risingFrom_mono h.2 (by omega)
    · simp only [risingFrom, Bool.and_eq_true, decide_eq_true_eq]
      exact ⟨h.1, ih h.2⟩

theorem risingFrom_put {α : Type} [DecidableEq α] {d v : α} {k : Nat} {t : Tab α} (h : risingFrom 0 t = true) :
    risingFrom 0 (Tab.put d t k v) = true := by
  unfold Tab.put
  split
  · exact risingFrom_del h
  · exact risingFrom_ins h (Nat.zero_le k)

theorem risingFrom_filter {α : Type} {j : Nat} {t : Tab α} (h : risingFrom j t = true) (p : Nat × α → Bool) :
    risingFrom j (t.filter p) = true := by
  induction t generalizing j with
  | nil => rfl
  | cons x t ih =>
    obtain ⟨k', v'⟩ := x
    simp only [risingFrom, Bool.and_eq_true, decide_eq_true_eq] at h
    rw [List.filter_cons]
    split
    · simp only [risingFrom, Bool.and_eq_true, decide_eq_true_eq]
      exact ⟨h.1, ih h.2⟩
    · exact ih (risingFrom_mono h.2 (by omega))

/-- Storing bytes keeps the canonical form of memory. -/
theorem putBytes_wf {m : List Host.Cell} (h : Memory.wf m = true) (a : Nat) (bs : Bytes) : Memory.wf (putBytes m a bs) = true := by
  induction bs generalizing m a with
  | nil => exact h
  | cons b bs ih => exact ih (Tab.wf_put h a b) (a + 1)

/-- A read after a store: the byte stored where it was stored, every other byte as before. -/
theorem putBytes_get {m : List Host.Cell} (h : Memory.wf m = true) (a : Nat) (bs : Bytes) (i : Nat) :
    Tab.get 0 (putBytes m a bs) i = if a ≤ i ∧ i < a + bs.length then bs.getD (i - a) 0 else Tab.get 0 m i := by
  induction bs generalizing m a with
  | nil => simp [putBytes] <;> omega
  | cons b bs ih =>
    rw [putBytes, ih (Tab.wf_put h a b), Tab.get_put h]
    by_cases hi : a = i
    · subst hi
      have : ¬(a + 1 ≤ a ∧ a < a + 1 + bs.length) := by omega
      simp [this]
    · by_cases hr : a + 1 ≤ i ∧ i < a + 1 + bs.length
      · have h1 : a ≤ i ∧ i < a + (b :: bs).length := by simp; omega
        have h2 : i - a = (i - (a + 1)) + 1 := by omega
        rw [if_pos hr, if_pos h1, h2, List.getD_cons_succ]
      · have h1 : ¬(a ≤ i ∧ i < a + (b :: bs).length) := by simp; omega
        rw [if_neg hr, if_neg h1, if_neg hi]

end Machine

end Sys2Proof
end

