-- ==== Sys2Proof/Laws/Objects.lean ====
section
/-! SUPPORT. Sys2Proof/Laws/Objects.lean: what an object reads as after a write, a count or an octet write: the value written, and every other
value as before. -/

namespace Sys2Proof

theorem Tab.get_del_ne {α : Type} {d : α} {k i : Nat} {t : Tab α} (h : k ≠ i) : Tab.get d (Tab.del k t) i = Tab.get d t i := by
  induction t with
  | nil => rfl
  | cons p t ih =>
    obtain ⟨k', v'⟩ := p
    unfold Tab.del
    split
    · subst k'
      simp [Tab.get, h]
    · simp only [Tab.get, ih]

/-- A write leaves every other key of any table as it was. -/
theorem Tab.get_put_ne {α : Type} [DecidableEq α] {d e : α} {k i : Nat} {v : α} {t : Tab α} (h : k ≠ i) :
    Tab.get e (Tab.put d t k v) i = Tab.get e t i := by
  unfold Tab.put
  split
  · exact Tab.get_del_ne h
  · rw [Tab.get_ins, if_neg h]

namespace Machine

theorem get_below {α : Type} {d : α} {k j : Nat} {t : Tab α} (h : risingFrom k t = true) (hj : j < k) : Tab.get d t j = d := by
  induction t generalizing k with
  | nil => rfl
  | cons p t ih =>
    obtain ⟨k', v'⟩ := p
    simp only [risingFrom, Bool.and_eq_true, decide_eq_true_eq] at h
    have : ¬ k' = j := by omega
    simp only [Tab.get, this, if_false]
    exact ih h.2 (by omega)

theorem get_del_self {α : Type} {d : α} {j k : Nat} {t : Tab α} (h : risingFrom j t = true) : Tab.get d (Tab.del k t) k = d := by
  induction t generalizing j with
  | nil => rfl
  | cons p t ih =>
    obtain ⟨k', v'⟩ := p
    simp only [risingFrom, Bool.and_eq_true, decide_eq_true_eq] at h
    unfold Tab.del
    split
    · subst k'
      exact get_below h.2 (Nat.lt_succ_self k)
    · rename_i hk
      have : ¬ k' = k := fun e => hk e.symm
      simp only [Tab.get, this, if_false]
      exact ih h.2

/-- A write is read back in a table whose keys rise. -/
theorem get_put_self {α : Type} [DecidableEq α] {d : α} {k : Nat} {v : α} {t : Tab α} (h : risingFrom 0 t = true) :
    Tab.get d (Tab.put d t k v) k = v := by
  unfold Tab.put
  split
  · subst v
    exact get_del_self h
  · rw [Tab.get_ins, if_pos rfl]

/-- Values of two objects lie at two keys, for items and places in range. -/
theorem Obj.key_ne_of_id {o p : Obj} {a b c d : Nat} (h : o.id ≠ p.id) (ha : a < 2 ^ 24) (hb : b < 2 ^ 8) (hc : c < 2 ^ 24)
    (hd : d < 2 ^ 8) : o.key a b ≠ p.key c d := by
  unfold Obj.key
  omega

/-- Values of one object for two items or places lie at two keys. -/
theorem Obj.key_ne_of_item {o : Obj} {a b c d : Nat} (h : a ≠ c ∨ b ≠ d) (hb : b < 2 ^ 8) (hd : d < 2 ^ 8) :
    o.key a b ≠ o.key c d := by
  unfold Obj.key
  omega

theorem State.ov_setOv_ne (s : State) {o p : Obj} {v a b c d : Nat} (h : o.key a b ≠ p.key c d) :
    (s.setOv o v a b).ov p c d = s.ov p c d := Tab.get_put_ne h

theorem State.ov_setOv_self {s : State} (h : s.objsOk) (o : Obj) (v a b : Nat) : (s.setOv o v a b).ov o a b = v :=
  get_put_self h.1

theorem State.ov_bump_ne (s : State) {o p : Obj} {a b n c d : Nat} (h : o.key a b ≠ p.key c d) :
    (s.bump o a b n).ov p c d = s.ov p c d := Tab.get_put_ne h

theorem State.ov_bump_self {s : State} (h : s.objsOk) (o : Obj) (a b n : Nat) :
    (s.bump o a b n).ov o a b = (s.ov o a b + n) % 2 ^ (8 * o.ty.len) :=
  get_put_self h.1

theorem State.oct_setOct_ne (s : State) {o p : Obj} {v : Bytes} {a b c d : Nat} (h : o.key a b ≠ p.key c d) :
    (s.setOct o v a b).oct p c d = s.oct p c d := Tab.get_put_ne h

theorem State.oct_setOct_self {s : State} (h : s.objsOk) (o : Obj) (v : Bytes) (a b : Nat) :
    (s.setOct o v a b).oct o a b = fitTo o.ty.len v := get_put_self h.2

theorem State.objsOk_setOv {s : State} (h : s.objsOk) (o : Obj) (v a b : Nat) : (s.setOv o v a b).objsOk :=
  ⟨risingFrom_put h.1, h.2⟩

theorem State.objsOk_bump {s : State} (h : s.objsOk) (o : Obj) (a b n : Nat) : (s.bump o a b n).objsOk :=
  ⟨risingFrom_put h.1, h.2⟩

theorem State.objsOk_setOct {s : State} (h : s.objsOk) (o : Obj) (v : Bytes) (a b : Nat) : (s.setOct o v a b).objsOk :=
  ⟨h.1, risingFrom_put h.2⟩

end Machine

end Sys2Proof
end

