-- ==== Sys2Proof/Laws/Admission.lean ====
section
/-! SUPPORT. Sys2Proof/Laws/Admission.lean: what the policer changes, and the path of a request that its port admits. -/

namespace Sys2Proof.Machine

open Sys2Proof

/-- Every reading but the policer's own. -/
theorem police_same (s : State) (p c b k : Nat) :
    (s.police p c b k).2.2.reqs = s.reqs ∧ (s.police p c b k).2.2.nextReq = s.nextReq ∧ (s.police p c b k).2.2.cmps = s.cmps ∧
    (s.police p c b k).2.2.out = s.out ∧ (s.police p c b k).2.2.mem = s.mem ∧ (s.police p c b k).2.2.poison = s.poison ∧
    (s.police p c b k).2.2.chunkKey = s.chunkKey ∧ (s.police p c b k).2.2.coh = s.coh ∧ (s.police p c b k).2.2.ctxs = s.ctxs ∧
    (s.police p c b k).2.2.octs = s.octs ∧ (s.police p c b k).2.2.agents = s.agents ∧ (s.police p c b k).2.2.chart = s.chart ∧
    (s.police p c b k).2.2.slices = s.slices ∧ (s.police p c b k).2.2.epochNow = s.epochNow := by
  unfold State.police
  dsimp only
  generalize (if s.ob O.colour_aware c = true then k else 1) = k'
  split
  · refine ⟨?_, ?_, ?_, ?_, ?_, ?_, ?_, ?_, ?_, ?_, ?_, ?_, ?_, ?_⟩ <;> rfl
  · split <;> (refine ⟨?_, ?_, ?_, ?_, ?_, ?_, ?_, ?_, ?_, ?_, ?_, ?_, ?_, ?_⟩ <;> rfl)

theorem police_ov (s : State) (p c b k : Nat) {o : Obj} {i j : Nat} (hc : c < 2 ^ 24) (hi : i < 2 ^ 24) (hj : j < 2 ^ 8)
    (h1 : O.pol_red.id ≠ o.id) (h2 : O.pol_yellow.id ≠ o.id) (h3 : O.pol_green.id ≠ o.id) :
    (s.police p c b k).2.2.ov o i j = s.ov o i j := by
  have h0 : 0 < 2 ^ 8 := by decide
  unfold State.police
  dsimp only
  generalize (if s.ob O.colour_aware c = true then k else 1) = k'
  split
  · exact State.ov_bump_ne s (Obj.key_ne_of_id h1 hc h0 hi hj)
  · split
    · exact State.ov_bump_ne _ (Obj.key_ne_of_id h2 hc h0 hi hj)
    · exact State.ov_bump_ne _ (Obj.key_ne_of_id h3 hc h0 hi hj)

theorem police_fst (s : State) (n p c b k : Nat) : (({ s with nextReq := n } : State).police p c b k).1 = (s.police p c b k).1 := by
  unfold State.police
  dsimp only
  have e1 : ({ s with nextReq := n } : State).ob O.colour_aware c = s.ob O.colour_aware c := rfl
  have e2 : ({ s with nextReq := n } : State).buckets p c = s.buckets p c := rfl
  rw [e1, e2]
  generalize (if s.ob O.colour_aware c = true then k else 1) = k'
  split
  · rfl
  · split <;> rfl

/-- The other registers. -/
theorem State.stir_ov (s : State) {o : Obj} {i j : Nat} (h1 : O.pstate.key 0 0 ≠ o.key i j) (h2 : O.arith_div.key 0 0 ≠ o.key i j)
    : s.stir.ov o i j = s.ov o i j := by
  unfold State.stir State.wake
  split
  · rfl
  · split
    · show ((s.setOv O.pstate 1).setOv O.arith_div 16).ov o i j = _
      rw [State.ov_setOv_ne _ h2, State.ov_setOv_ne _ h1]
    · rfl

/-- What a request wakes: the power registers only. -/
theorem stir_same (s : State) :
    s.stir.reqs = s.reqs ∧ s.stir.nextReq = s.nextReq ∧ s.stir.cmps = s.cmps ∧ s.stir.out = s.out ∧ s.stir.mem = s.mem ∧
    s.stir.poison = s.poison ∧ s.stir.chunkKey = s.chunkKey ∧ s.stir.coh = s.coh ∧ s.stir.ctxs = s.ctxs ∧ s.stir.octs = s.octs ∧
    s.stir.agents = s.agents ∧ s.stir.chart = s.chart ∧ s.stir.slices = s.slices ∧ s.stir.epochNow = s.epochNow := by
  unfold State.stir State.wake
  split
  · refine ⟨?_, ?_, ?_, ?_, ?_, ?_, ?_, ?_, ?_, ?_, ?_, ?_, ?_, ?_⟩ <;> rfl
  · split <;> (refine ⟨?_, ?_, ?_, ?_, ?_, ?_, ?_, ?_, ?_, ?_, ?_, ?_, ?_, ?_⟩ <;> rfl)

/-- Whether a route change waits for a pair depends on the routers and the sparing table only. -/
theorem State.rerouting_congr {s t : State} (h1 : t.maps = s.maps) (h2 : t.pwr.routers = s.pwr.routers) (h3 : t.pwr.routing = s.pwr.routing)
    (p a : Nat) : t.rerouting p a = s.rerouting p a := by
  unfold State.rerouting State.travels State.routeOn State.bypassed State.physOf State.mapOf
  rw [h1, h2, h3]

theorem stir_routes (s : State) : s.stir.maps = s.maps ∧ s.stir.pwr.routers = s.pwr.routers ∧ s.stir.pwr.routing = s.pwr.routing := by
  unfold State.stir State.wake
  split
  · exact ⟨rfl, rfl, rfl⟩
  · split <;> exact ⟨rfl, rfl, rfl⟩

theorem police_routes (s : State) (p c b k : Nat) :
    (s.police p c b k).2.2.maps = s.maps ∧ (s.police p c b k).2.2.pwr = s.pwr := by
  unfold State.police
  dsimp only
  generalize (if s.ob O.colour_aware c = true then k else 1) = k'
  split
  · exact ⟨rfl, rfl⟩
  · split <;> exact ⟨rfl, rfl⟩

theorem State.proceed_mapped {u : State} {r : Req} (h : u.stir.fenceHeld r = false) (h1 : r.kind ≠ .fence) (h2 : r.kind ≠ .dbell)
    (h3 : r.kind ≠ .hint) : u.proceed r = u.stir.translate r := by
  unfold State.proceed
  dsimp only
  rw [h, if_neg (by decide)]
  split <;> first | rfl | (exfalso; simp_all; done)

/-- The admission path of a request that its port admits: it is charged, retained, and goes on. -/
theorem State.receive_adm {s : State} {k : Kind} {port src : Nat} {h : Hdr} {slots : List Slot} {m : Nat}
    (A : s.Admits k port src h slots m) :
    s.receive k port src h slots = (s.admitted k port h slots m).2.proceed (s.admitted k port h slots m).1 := by
  have h1 : ¬(4096 ≤ s.retainedAt port ∨ s.pool.any (fun w => w.port == port) = true) := by
    rw [A.turn]; have := A.place; simp; omega
  rw [State.receive, if_neg h1]
  unfold State.arrive
  dsimp only
  have e1 : ({ s with nextReq := s.nextReq + 1 } : State).agent h.agt = s.agent h.agt := rfl
  have e2 : ({ s with nextReq := s.nextReq + 1 } : State).earlyRec (Req.arriving s.nextReq k port h slots) = none := A.patient
  have e3 : ({ s with nextReq := s.nextReq + 1 } : State).bindMask h.agt h.ctx = some m := A.bound
  have e4 : k.evict = true ∨ ¬((({ s with nextReq := s.nextReq + 1 } : State).ctx h.ctx).st = .quiescing ∨ (({ s with nextReq := s.nextReq + 1 } : State).ctx h.ctx).st = .sweeping ∨ (({ s with nextReq := s.nextReq + 1 } : State).ctx h.ctx).st = .free) := A.state
  have e5 : (({ s with nextReq := s.nextReq + 1 } : State).police port h.ctx (chargeOf k h slots.length) h.colour).1 ≠ 3 ∨ k.evict = true := by
    rw [police_fst]; exact A.colour.symm
  have e6 : ¬(k.coherent = true ∧ ({ s with nextReq := s.nextReq + 1 } : State).canAgent h.can ≠ some h.agt) :=
    fun x => x.2 (A.can x.1)
  rw [if_neg (fun x => x A.source), if_neg (fun x => x A.life), if_neg (fun x => by
      rcases A.frozen with f | f
      · rw [f] at x; cases x.2
      · rw [e1, f] at x; cases x.1),
    if_neg (fun x => by rw [A.tag] at x; cases x), if_neg (fun x => by rw [A.form] at x; cases x), if_neg e6]
  rw [e2]
  dsimp only
  rw [if_neg (fun x => by
      rcases A.awake with f | f
      · rw [f] at x; cases x.2
      · rw [show ({ s with nextReq := s.nextReq + 1 } : State).pwr.entering = s.pwr.entering from rfl, f] at x; cases x.1), e3]
  dsimp only
  rw [if_neg (fun x => by
      rcases e4 with f | f
      · rw [f] at x; cases x.2
      · exact f x.1), if_neg (fun x => by
      rcases e5 with f | f
      · exact f x.1
      · rw [f] at x; cases x.2)]
  rfl

/-- The same with the policer's state and the colour named. -/
theorem State.receive_admits {s : State} {k : Kind} {port src : Nat} {h : Hdr} {slots : List Slot} {m : Nat}
    (A : s.Admits k port src h slots m) :
    ∃ c u, u = (({ s with nextReq := s.nextReq + 1 } : State).police port h.ctx (chargeOf k h slots.length) h.colour).2.2 ∧
    s.receive k port src h slots = ({ u with reqs := u.reqs ++ [{ Req.arriving s.nextReq k port h slots with colour := c, mask := m }] } : State).proceed
      { Req.arriving s.nextReq k port h slots with colour := c, mask := m } :=
  ⟨_, _, rfl, State.receive_adm A⟩

end Sys2Proof.Machine
end

