-- ==== Sys2Proof/Laws/Bytes.lean ====
section
/-! SUPPORT. Sys2Proof/Laws/Bytes.lean: the CRC over joined bytes, stored bytes read back, and tables some of whose rows are dropped. -/

namespace Sys2Proof.Machine

open Sys2Proof

/-! ### The CRC-64 is linear (R280) -/

theorem crcBit_xor (a b : Nat) : crcBit (a ^^^ b) = crcBit a ^^^ crcBit b := by
  have h : ∀ c, crcBit c = (c / 2) ^^^ (if c % 2 = 1 then 0xC96C5795D7870F42 else 0) := by
    intro c; unfold crcBit; split <;> simp
  have d : (a ^^^ b) / 2 = a / 2 ^^^ b / 2 := Nat.xor_div_two ..
  have m : (a ^^^ b) % 2 = (a % 2 + b % 2) % 2 := by
    have e : ((a ^^^ b) % 2 = 1) ↔ (a ^^^ b).testBit 0 = true := by simp [Nat.testBit_zero]
    rw [Nat.testBit_xor, Nat.testBit_zero, Nat.testBit_zero] at e
    rcases Nat.mod_two_eq_zero_or_one a with ha | ha <;> rcases Nat.mod_two_eq_zero_or_one b with hb | hb <;>
      rcases Nat.mod_two_eq_zero_or_one (a ^^^ b) with hc | hc <;> simp [ha, hb, hc] at e ⊢
  rw [h, h, h, d]
  rcases Nat.mod_two_eq_zero_or_one a with ha | ha <;> rcases Nat.mod_two_eq_zero_or_one b with hb | hb <;>
    rw [ha, hb] at m <;> simp [ha, hb, m]
  · rw [Nat.xor_assoc]
  · rw [Nat.xor_assoc, Nat.xor_assoc, Nat.xor_comm (b/2)]
  · rw [Nat.xor_assoc, ← Nat.xor_assoc 14514072000185962306, Nat.xor_comm 14514072000185962306, Nat.xor_assoc, Nat.xor_self]; simp

theorem crcByte_xor (a b : Nat) (x : Byte) : crcByte (a ^^^ b) x = crcByte a 0 ^^^ crcByte b x := by
  unfold crcByte
  have : a ^^^ b ^^^ x.toNat = (a ^^^ (0 : Byte).toNat) ^^^ (b ^^^ x.toNat) := by
    simp [Nat.xor_assoc]
  rw [this]
  simp only [crcBit_xor]

theorem crc_split : ∀ (bs : Bytes) (a b : Nat), bs.foldl crcByte (a ^^^ b) = (List.replicate bs.length (0 : Byte)).foldl crcByte a ^^^ bs.foldl crcByte b
  | [], a, b => rfl
  | x :: t, a, b => by
    simp only [List.foldl_cons, List.length_cons, List.replicate_succ]
    rw [crcByte_xor, crc_split t]

theorem crcJoin_append (a b : Bytes) : crcJoin (crc64 a) (crc64 b) b.length = crc64 (a ++ b) := by
  unfold crcJoin crc64
  rw [List.foldl_append]
  have := crc_split b (a.foldl crcByte 0xFFFFFFFFFFFFFFFF ^^^ 0xFFFFFFFFFFFFFFFF) 0xFFFFFFFFFFFFFFFF
  rw [Nat.xor_assoc _ _ 0xFFFFFFFFFFFFFFFF, Nat.xor_self, Nat.xor_zero] at this
  rw [this, Nat.xor_assoc]

abbrev P4 := Nat × Nat × Nat × Bool

/-! ### Bytes of a code word -/

theorem range_map_get (bs : Bytes) (h : bs.length = 64) : (List.range 64).map (fun i => bs.getD i 0) = bs := by
  apply List.ext_getElem
  · simp [h]
  · intro i h1 h2
    simp [h2]
theorem fitTo_len (n : Nat) (bs : Bytes) : (fitTo n bs).length = n := by simp [fitTo, slice, zeros] <;> omega
theorem rawBytes_put_self (s : State) (h : Memory.wf s.mem = true) (a : Nat) (bs : Bytes) (hb : bs.length = 64) :
    (List.range 64).map (fun i => Tab.get 0 (putBytes s.mem a bs) (a + i)) = bs := by
  conv => rhs; rw [← range_map_get bs hb]
  apply List.map_congr_left
  intro i hi
  rw [List.mem_range] at hi
  rw [putBytes_get h, if_pos (by omega)]
  simp
theorem rawBytes_put_other (s : State) (h : Memory.wf s.mem = true) (v w : Nat) (bs : Bytes) (hb : bs.length = 64) (hv : v ≠ w) :
    (List.range 64).map (fun i => Tab.get 0 (putBytes s.mem (w * 64) bs) (v * 64 + i)) = (List.range 64).map (fun i => Tab.get 0 s.mem (v * 64 + i)) := by
  apply List.map_congr_left
  intro i hi
  rw [List.mem_range] at hi
  rw [putBytes_get h, if_neg (by omega)]

/-! ### Tables -/

theorem get_filter {α : Type} {d : α} {t : Tab α} {p : Nat × α → Bool} {k : Nat} (h : ∀ v, p (k, v) = true) :
    Tab.get d (t.filter p) k = Tab.get d t k := by
  induction t with
  | nil => rfl
  | cons e t ih =>
    obtain ⟨j, v⟩ := e
    by_cases hj : k = j
    · subst hj; simp [List.filter_cons, h v, Tab.get]
    · have hj' : ¬ j = k := fun e => hj e.symm
      by_cases hp : p (j, v) = true
      · simp [hp, Tab.get, hj', ih]
      · simp [hp, Tab.get, hj', ih]

end Sys2Proof.Machine
end

