-- ==== Sys2Proof/Laws/Keeps.lean ====
section
/-! SUPPORT. Sys2Proof/Laws/Keeps.lean: what every operation of the node keeps: the waiting commands, what has left, the draws
and key numbers used, the canonical form of memory and of the object tables, and, where it writes no pool memory, the stored
bits. One lemma per operation follows in the files beside this one, generated by rule from the operations' own text. -/

namespace Sys2Proof.Machine

open Sys2Proof

/-- What is to be kept: the queue, what has left so far, the draws and key numbers used so far, whether the invariant is
asked, and the stored memory where it is not written. -/
structure Kept where
  queue : List Instr
  sent : List Out
  draws : Nat
  keys : Nat
  ok : Bool
  stored : Option (List Host.Cell × Tab Nat × Tab Nat)

/-- A state keeps it. -/
def keeps (k : Kept) (s : State) : Prop :=
  s.pending = k.queue ∧ k.sent <:+ s.out ∧ k.draws ≤ s.freeCtr ∧ k.keys ≤ s.nextKey ∧ (k.ok = true → s.Inv) ∧
    ∀ m ∈ k.stored, (s.mem, s.poison, s.chunkKey) = m

/-- What a state itself asks to be kept. -/
def State.kept (s : State) (ok stored : Bool) : Kept :=
  ⟨s.pending, s.out, s.freeCtr, s.nextKey, ok, if stored then some (s.mem, s.poison, s.chunkKey) else none⟩

theorem State.keeps_self (s : State) (ok stored : Bool) (h : ok = true → s.Inv) : keeps (s.kept ok stored) s := by
  refine ⟨rfl, List.suffix_refl _, Nat.le_refl _, Nat.le_refl _, h, ?_⟩
  intro m hm
  cases stored <;> simp [State.kept] at hm
  exact hm

theorem keeps_cut {p : Prop} (k : Kept) (x : State) (h1 : keeps k x) (h2 : keeps k x → p) : p := h2 h1

/-- A local function of states. -/
theorem keeps_cutf {p : Prop} (k : Kept) (f : State → State) (h1 : ∀ t, keeps k t → keeps k (f t))
    (h2 : (∀ t, keeps k t → keeps k (f t)) → p) : p := h2 h1

/-- A local function that answers a state. -/
theorem keeps_cutg {α : Type} {p : Prop} (k : Kept) (f : α → State) (h1 : ∀ t, keeps k (f t))
    (h2 : (∀ t, keeps k (f t)) → p) : p := h2 h1

/-- A local function of two arguments that answers a state. -/
theorem keeps_cutg2 {α β : Type} {p : Prop} (k : Kept) (f : α → β → State) (h1 : ∀ t u, keeps k (f t u))
    (h2 : (∀ t u, keeps k (f t u)) → p) : p := h2 h1

/-- A local function of three arguments that answers a state. -/
theorem keeps_cutg3 {α β γ : Type} {p : Prop} (k : Kept) (f : α → β → γ → State) (h1 : ∀ t u v, keeps k (f t u v))
    (h2 : (∀ t u v, keeps k (f t u v)) → p) : p := h2 h1

/-- A local function of a state and an argument. -/
theorem keeps_cutf2 {α : Type} {p : Prop} (k : Kept) (f : State → α → State) (h1 : ∀ t u, keeps k t → keeps k (f t u))
    (h2 : (∀ t u, keeps k t → keeps k (f t u)) → p) : p := h2 h1

/-- A local function of a state and two arguments. -/
theorem keeps_cutf3 {α β : Type} {p : Prop} (k : Kept) (f : State → α → β → State)
    (h1 : ∀ t u v, keeps k t → keeps k (f t u v)) (h2 : (∀ t u v, keeps k t → keeps k (f t u v)) → p) : p := h2 h1

/-- A local function of an argument and a state. -/
theorem keeps_cuth {α : Type} {p : Prop} (k : Kept) (f : α → State → State) (h1 : ∀ t u, keeps k u → keeps k (f t u))
    (h2 : (∀ t u, keeps k u → keeps k (f t u)) → p) : p := h2 h1

theorem keeps_of_snd {α : Type} {k : Kept} {q : α × State} {a : α} {t : State} (e : q = (a, t)) (h : keeps k q.2) : keeps k t
    := by
  subst e
  exact h

theorem keeps_of_fst {α : Type} {k : Kept} {q : State × α} {a : α} {t : State} (e : q = (t, a)) (h : keeps k q.1) : keeps k t
    := by
  subst e
  exact h

theorem keeps_ite {k : Kept} {c : Prop} [Decidable c] {a b : State} (h1 : keeps k a) (h2 : keeps k b) :
    keeps k (if c then a else b) := by
  split <;> assumption

theorem keeps_ite_snd {α : Type} {k : Kept} {c : Prop} [Decidable c] {a b : α × State} (h1 : keeps k a.2) (h2 : keeps k b.2) :
    keeps k (if c then a else b).2 := by
  split <;> assumption

/-- Two ways to an answer. -/
theorem of_ite {α : Type} {p : Prop} {c : Prop} [Decidable c] {a b v : α} (h1 : a = v → p) (h2 : b = v → p) :
    (if c then a else b) = v → p := by
  split <;> assumption

theorem keeps_foldl {α : Type} {k : Kept} {f : State → α → State} {s : State} {l : List α} (h : keeps k s)
    (hf : ∀ t x, keeps k t → keeps k (f t x)) : keeps k (l.foldl f s) := by
  induction l generalizing s with
  | nil => exact h
  | cons x l ih => exact ih (hf s x h)

theorem keeps_foldl_fst {α β : Type} {k : Kept} {f : State × β → α → State × β} {s : State × β} {l : List α} (h : keeps k s.1)
    (hf : ∀ t x, keeps k t.1 → keeps k (f t x).1) : keeps k (l.foldl f s).1 := by
  induction l generalizing s with
  | nil => exact h
  | cons x l ih => exact ih (hf s x h)

theorem keeps_foldl_snd {α β : Type} {k : Kept} {f : β × State → α → β × State} {s : β × State} {l : List α} (h : keeps k s.2)
    (hf : ∀ t x, keeps k t.2 → keeps k (f t x).2) : keeps k (l.foldl f s).2 := by
  induction l generalizing s with
  | nil => exact h
  | cons x l ih => exact ih (hf s x h)

/-- Fields that hold none of what is kept may change at will. -/
theorem keeps_upd {k : Kept} {s : State} {x_coh x_chart x_reqs x_nextReq x_cmps x_frecs x_ctxs x_pol x_agents x_slices x_txq
    x_log x_maps x_migs x_mwrs x_xid x_rates x_drains x_ecache x_frMsi x_epochNow x_grantKey x_jobs x_tends x_units x_pwr
    x_dram x_ces x_scrub x_pool x_ports x_lostPorts x_sess x_sec x_rst x_ll} (h : keeps k s) :
    keeps k (State.mk s.pending s.ltc s.freeCtr s.objs s.octs s.mem s.poison s.chunkKey s.dramBad x_coh x_chart x_reqs
    x_nextReq x_cmps x_frecs x_ctxs x_pol x_agents x_slices x_txq s.out x_log x_maps x_migs x_mwrs x_xid x_rates x_drains
    x_ecache x_frMsi x_epochNow x_grantKey x_jobs x_tends x_units s.nextKey x_pwr x_dram x_ces x_scrub x_pool x_ports
    x_lostPorts x_sess x_sec x_rst x_ll) := h

theorem keeps_upd_eq {k : Kept} {s : State} {x_coh x_chart x_reqs x_nextReq x_cmps x_frecs x_ctxs x_pol x_agents x_slices x_txq
    x_log x_maps x_migs x_mwrs x_xid x_rates x_drains x_ecache x_frMsi x_epochNow x_grantKey x_jobs x_tends x_units x_pwr
    x_dram x_ces x_scrub x_pool x_ports x_lostPorts x_sess x_sec x_rst x_ll} :
    keeps k (State.mk s.pending s.ltc s.freeCtr s.objs s.octs s.mem s.poison s.chunkKey s.dramBad x_coh x_chart x_reqs
    x_nextReq x_cmps x_frecs x_ctxs x_pol x_agents x_slices x_txq s.out x_log x_maps x_migs x_mwrs x_xid x_rates x_drains
    x_ecache x_frMsi x_epochNow x_grantKey x_jobs x_tends x_units s.nextKey x_pwr x_dram x_ces x_scrub x_pool x_ports
    x_lostPorts x_sess x_sec x_rst x_ll) = keeps k s := rfl

/-- The draw counter and the key counter may rise. -/
theorem keeps_ctrs {k : Kept} {s : State} {x_freeCtr x_nextKey x_coh x_chart x_reqs x_nextReq x_cmps x_frecs x_ctxs x_pol
    x_agents x_slices x_txq x_log x_maps x_migs x_mwrs x_xid x_rates x_drains x_ecache x_frMsi x_epochNow x_grantKey x_jobs
    x_tends x_units x_pwr x_dram x_ces x_scrub x_pool x_ports x_lostPorts x_sess x_sec x_rst x_ll} (h : keeps k s) (h1 :
    s.freeCtr ≤ x_freeCtr)
    (h2 : s.nextKey ≤ x_nextKey) :
    keeps k (State.mk s.pending s.ltc x_freeCtr s.objs s.octs s.mem s.poison s.chunkKey s.dramBad x_coh x_chart x_reqs
    x_nextReq x_cmps x_frecs x_ctxs x_pol x_agents x_slices x_txq s.out x_log x_maps x_migs x_mwrs x_xid x_rates x_drains
    x_ecache x_frMsi x_epochNow x_grantKey x_jobs x_tends x_units x_nextKey x_pwr x_dram x_ces x_scrub x_pool x_ports
    x_lostPorts x_sess x_sec x_rst x_ll) :=
  ⟨h.1, h.2.1, Nat.le_trans h.2.2.1 h1, Nat.le_trans h.2.2.2.1 h2, h.2.2.2.2⟩

theorem keeps_objs {k : Kept} {s : State} (h : keeps k s) (o : Tab Nat) (c : Tab Bytes)
    (h1 : s.objsOk → risingFrom 0 o = true ∧ risingFrom 0 c = true) : keeps k { s with objs := o, octs := c } :=
  ⟨h.1, h.2.1, h.2.2.1, h.2.2.2.1, fun e => ⟨(h.2.2.2.2.1 e).1, h1 (h.2.2.2.2.1 e).2.1, (h.2.2.2.2.1 e).2.2⟩, h.2.2.2.2.2⟩

theorem keeps_objs_of {k : Kept} {s : State} (h : keeps k s) (o : Tab Nat) (c : Tab Bytes)
    (h1 : k.ok = true → risingFrom 0 o = true ∧ risingFrom 0 c = true) : keeps k { s with objs := o, octs := c } :=
  ⟨h.1, h.2.1, h.2.2.1, h.2.2.2.1, fun e => ⟨(h.2.2.2.2.1 e).1, h1 e, (h.2.2.2.2.1 e).2.2⟩, h.2.2.2.2.2⟩

theorem keeps_stored_of {k : Kept} {s : State} (hm : k.stored = none) (h : keeps k s) (m : List Host.Cell) (p c d : Tab Nat)
    (h1 : k.ok = true → Memory.wf m = true ∧ Tab.wf 0 p = true ∧ Tab.wf 0 c = true ∧ Tab.wf 0 d = true) :
    keeps k { s with mem := m, poison := p, chunkKey := c, dramBad := d } :=
  ⟨h.1, h.2.1, h.2.2.1, h.2.2.2.1, fun e => ⟨h1 e, (h.2.2.2.2.1 e).2⟩, by
    intro m hm'
    rw [hm] at hm'
    cases hm'⟩

theorem keeps_ltc {k : Kept} {s : State} (h : keeps k s) (v : Nat) (r : Rst) (h1 : k.ok = true → v < 2 ^ 64) :
    keeps k { s with ltc := v, rst := r } :=
  ⟨h.1, h.2.1, h.2.2.1, h.2.2.2.1, fun e => ⟨(h.2.2.2.2.1 e).1, (h.2.2.2.2.1 e).2.1, h1 e⟩, h.2.2.2.2.2⟩

theorem keeps_stored {k : Kept} {s : State} (hm : k.stored = none) (h : keeps k s) (m : List Host.Cell) (p c d : Tab Nat)
    (h1 : s.memOk → Memory.wf m = true ∧ Tab.wf 0 p = true ∧ Tab.wf 0 c = true ∧ Tab.wf 0 d = true) :
    keeps k { s with mem := m, poison := p, chunkKey := c, dramBad := d } :=
  ⟨h.1, h.2.1, h.2.2.1, h.2.2.2.1, fun e => ⟨h1 (h.2.2.2.2.1 e).1, (h.2.2.2.2.1 e).2⟩, by
    intro m hm'
    rw [hm] at hm'
    cases hm'⟩

theorem keeps_bad {k : Kept} {s : State} (h : keeps k s) (d : Tab Nat)
    (h1 : Tab.wf 0 s.dramBad = true → Tab.wf 0 d = true) : keeps k { s with dramBad := d } :=
  ⟨h.1, h.2.1, h.2.2.1, h.2.2.2.1,
    fun e => ⟨⟨(h.2.2.2.2.1 e).1.1, (h.2.2.2.2.1 e).1.2.1, (h.2.2.2.2.1 e).1.2.2.1, h1 (h.2.2.2.2.1 e).1.2.2.2⟩,
      (h.2.2.2.2.1 e).2⟩, h.2.2.2.2.2⟩

theorem State.setOv_keeps {k : Kept} {s : State} {o : Obj} {v a b : Nat} (h : keeps k s) : keeps k (s.setOv o v a b) :=
  keeps_objs h _ _ (fun e => ⟨risingFrom_put e.1, e.2⟩)

theorem State.bump_keeps {k : Kept} {s : State} {o : Obj} {a b n : Nat} (h : keeps k s) : keeps k (s.bump o a b n) :=
    State.setOv_keeps h
theorem State.setOct_keeps {k : Kept} {s : State} {o : Obj} {v : Bytes} {a b : Nat} (h : keeps k s) :
    keeps k (s.setOct o v a b) :=
  keeps_objs h _ _ (fun e => ⟨e.1, risingFrom_put e.2⟩)

theorem State.clockTick_keeps {k : Kept} {s : State} (h : keeps k s) : keeps k s.clockTick :=
  ⟨h.1, h.2.1, h.2.2.1, h.2.2.2.1,
    fun e => ⟨(h.2.2.2.2.1 e).1, (h.2.2.2.2.1 e).2.1, Nat.mod_lt _ (by decide)⟩, h.2.2.2.2.2⟩

theorem State.emit_keeps {k : Kept} {s : State} {o : Out} (h : keeps k s) : keeps k (s.emit o) :=
  ⟨h.1, h.2.1.trans (List.suffix_cons _ _), h.2.2⟩

theorem State.meet_keeps {k : Kept} {s : State} {errs : List DramErr} (h : keeps k s) : keeps k (s.meet errs) :=
  keeps_foldl h (fun _ _ ht => by
    split
    · split
      · exact State.bump_keeps ht
      · exact ht
    · exact keeps_bad ht _ (fun w => Tab.wf_put w _ _))

theorem State.cwStore_keeps {k : Kept} (hm : k.stored = none) {s : State} {cw : Nat} {v : Cw} (h : keeps k s) :
    keeps k (s.cwStore cw v) := by
  unfold State.cwStore
  lift_lets
  intro t
  have ht : keeps k t := keeps_bad (s := { s with ces := s.ces.filter (fun c => c / 2 != cw / 2) }) (keeps_upd h) _
    (fun e => Tab.wf_put e cw 0)
  clear_value t
  split
  · exact keeps_stored hm ht _ _ _ t.dramBad (fun e => ⟨putBytes_wf e.1 _ _, Tab.wf_put e.2.1 _ _, Tab.wf_put e.2.2.1 _ _,
    e.2.2.2⟩)
  · exact keeps_stored hm ht t.mem _ t.chunkKey t.dramBad (fun e => ⟨e.1, Tab.wf_put e.2.1 _ _, e.2.2.1, e.2.2.2⟩)

end Sys2Proof.Machine
end

