-- ==== Sys2Proof/Laws/KeepsMemory.lean ====
section
/-! SUPPORT. Sys2Proof/Laws/KeepsMemory.lean: what the operations of Ops, Lines, Faulting, Admission, Accum, Home, Egress keep. -/

namespace Sys2Proof.Machine

open Sys2Proof

theorem State.setSlc_keeps {K : Kept} {s a1 a2} (h : keeps K s) :
    keeps K (State.setSlc s a1 a2) := by
  unfold State.setSlc
  repeat' first
    | with_reducible assumption
    | simp only [keeps_upd_eq]

theorem State.pstateResult_keeps {K : Kept} {s a1} (h : keeps K s) :
    keeps K (State.pstateResult s a1) := by
  unfold State.pstateResult
  repeat' first
    | with_reducible assumption
    | with_reducible apply State.setOv_keeps

theorem State.stopP3_keeps {K : Kept} {s} (h : keeps K s) :
    keeps K (State.stopP3 s) := by
  unfold State.stopP3
  repeat' first
    | with_reducible assumption
    | (intro x; first | (refine keeps_cut K x ?_ ?_; rotate_left; intro hx; (try clear_value x); rotate_right; unfold x) | clear_value x | skip)
    | lift_lets
    | with_reducible apply State.pstateResult_keeps
    | with_reducible apply State.setOv_keeps
    | split
    | simp only [keeps_upd_eq]
    | dsimp only

theorem State.setCtx_keeps {K : Kept} {s a1 a2} (h : keeps K s) :
    keeps K (State.setCtx s a1 a2) := by
  unfold State.setCtx
  repeat' first
    | with_reducible assumption
    | simp only [keeps_upd_eq]

theorem State.raiseVec_keeps {K : Kept} {s a1 a2 a3} (h : keeps K s) :
    keeps K (State.raiseVec s a1 a2 a3) := by
  unfold State.raiseVec
  repeat' first
    | with_reducible assumption
    | (intro x; first | (refine keeps_cut K x ?_ ?_; rotate_left; intro hx; (try clear_value x); rotate_right; unfold x) | clear_value x | skip)
    | lift_lets
    | with_reducible apply State.setCtx_keeps

theorem State.raiseWork_keeps {K : Kept} {s a1 a2 a3} (h : keeps K s) :
    keeps K (State.raiseWork s a1 a2 a3) := by
  unfold State.raiseWork
  repeat' first
    | with_reducible assumption
    | with_reducible apply State.raiseVec_keeps
    | with_reducible apply keeps_ite
    | split

theorem State.setCoh_keeps {K : Kept} {s a1} (h : keeps K s) :
    keeps K (State.setCoh s a1) := by
  unfold State.setCoh
  repeat' first
    | with_reducible assumption
    | simp only [keeps_upd_eq]

theorem State.freeBelow_keeps {K : Kept} {s a1} (h : keeps K s) :
    keeps K (State.freeBelow s a1).2 := by
  unfold State.freeBelow
  repeat' first
    | with_reducible assumption
    | simp only [keeps_upd_eq]
    | with_reducible apply keeps_ctrs
    | exact Nat.le_refl _
    | exact Nat.le_succ _
    | dsimp only

theorem State.event_keeps {K : Kept} {s a1 a2 a3 a4 a5} (h : keeps K s) :
    keeps K (State.event s a1 a2 a3 a4 a5) := by
  unfold State.event
  repeat' first
    | with_reducible assumption
    | (intro x; first | (refine keeps_cut K x ?_ ?_; rotate_left; intro hx; (try clear_value x); rotate_right; unfold x) | clear_value x | skip)
    | lift_lets
    | with_reducible apply State.emit_keeps
    | with_reducible apply State.bump_keeps
    | with_reducible apply State.setOv_keeps
    | with_reducible apply keeps_ite
    | split
    | simp only [keeps_upd_eq]

theorem State.notePoison_keeps {K : Kept} {s a1 a2} (h : keeps K s) :
    keeps K (State.notePoison s a1 a2) := by
  unfold State.notePoison
  repeat' first
    | with_reducible assumption
    | (intro x; first | (refine keeps_cut K x ?_ ?_; rotate_left; intro hx; (try clear_value x); rotate_right; unfold x) | clear_value x | skip)
    | lift_lets
    | with_reducible apply State.event_keeps
    | with_reducible apply State.bump_keeps
    | with_reducible apply keeps_ite
    | split

theorem State.cwWrite_keeps {K : Kept} (hm : K.stored = none) {s a1 a2} (h : keeps K s) :
    keeps K (State.cwWrite s a1 a2) := by
  unfold State.cwWrite
  repeat' first
    | with_reducible assumption
    | (intro x; first | (refine keeps_cut K x ?_ ?_; rotate_left; intro hx; (try clear_value x); rotate_right; unfold x) | clear_value x | skip)
    | lift_lets
    | with_reducible apply State.cwStore_keeps hm
    | with_reducible apply State.notePoison_keeps
    | with_reducible apply keeps_ite
    | split
    | dsimp only

theorem State.setFrame_keeps {K : Kept} {s a1 a2} (h : keeps K s) :
    keeps K (State.setFrame s a1 a2) := by
  unfold State.setFrame
  repeat' first
    | with_reducible assumption
    | (intro x; first | (refine keeps_cut K x ?_ ?_; rotate_left; intro hx; (try clear_value x); rotate_right; unfold x) | clear_value x | skip)
    | lift_lets
    | simp only [keeps_upd_eq]

theorem State.wake_keeps {K : Kept} {s} (h : keeps K s) :
    keeps K (State.wake s) := by
  unfold State.wake
  repeat' first
    | with_reducible assumption
    | (intro x; first | (refine keeps_cut K x ?_ ?_; rotate_left; intro hx; (try clear_value x); rotate_right; unfold x) | clear_value x | skip)
    | lift_lets
    | with_reducible apply State.stopP3_keeps
    | with_reducible apply State.setOv_keeps
    | with_reducible apply keeps_ite
    | split
    | simp only [keeps_upd_eq]

theorem State.send_keeps {K : Kept} {s a1 a2} (h : keeps K s) :
    keeps K (State.send s a1 a2) := by
  unfold State.send
  repeat' first
    | with_reducible assumption
    | simp only [keeps_upd_eq]

theorem State.freeBytes_keeps {K : Kept} {s a1} (h : keeps K s) :
    keeps K (State.freeBytes s a1).2 := by
  unfold State.freeBytes
  repeat' first
    | with_reducible assumption
    | simp only [keeps_upd_eq]
    | with_reducible apply keeps_ctrs
    | exact Nat.le_refl _
    | exact Nat.le_succ _
    | dsimp only

theorem State.readChart_keeps {K : Kept} {s a1 a2 a3} (h : keeps K s) :
    keeps K (State.readChart s a1 a2 a3).2 := by
  unfold State.readChart
  repeat' first
    | with_reducible assumption
    | (intro x; first | (refine keeps_cut K x ?_ ?_; rotate_left; intro hx; (try clear_value x); rotate_right; unfold x) | (refine keeps_cut K x.2 ?_ ?_; rotate_left; intro hx; (try clear_value x); rotate_right; unfold x) | (refine keeps_cutf2 K x ?_ ?_; rotate_left; intro hf; (try clear_value x); rotate_right; unfold x) | clear_value x | skip)
    | lift_lets
    | with_reducible apply hf
    | with_reducible apply State.bump_keeps
    | with_reducible apply keeps_ite
    | with_reducible apply keeps_ite_snd
    | split
    | simp only [keeps_upd_eq]
    | dsimp only

theorem State.raiseSys_keeps {K : Kept} {s a1 a2} (h : keeps K s) :
    keeps K (State.raiseSys s a1 a2) := by
  unfold State.raiseSys
  repeat' first
    | with_reducible assumption
    | with_reducible apply State.raiseVec_keeps

theorem State.setBank_keeps {K : Kept} {s a1 a2 a3} (h : keeps K s) :
    keeps K (State.setBank s a1 a2 a3) := by
  unfold State.setBank
  repeat' first
    | with_reducible assumption
    | (intro x; first | (refine keeps_cut K x ?_ ?_; rotate_left; intro hx; (try clear_value x); rotate_right; unfold x) | clear_value x | skip)
    | lift_lets
    | simp only [keeps_upd_eq]

theorem State.countPoisonRead_keeps {K : Kept} {s a1} (h : keeps K s) :
    keeps K (State.countPoisonRead s a1) := by
  unfold State.countPoisonRead
  repeat' first
    | with_reducible assumption
    | with_reducible apply State.bump_keeps
    | with_reducible apply keeps_ite
    | split

theorem State.setChart_keeps {K : Kept} {s a1} (h : keeps K s) :
    keeps K (State.setChart s a1) := by
  unfold State.setChart
  repeat' first
    | with_reducible assumption
    | simp only [keeps_upd_eq]

theorem State.setLport_keeps {K : Kept} {s a1 a2} (h : keeps K s) :
    keeps K (State.setLport s a1 a2) := by
  unfold State.setLport
  repeat' first
    | with_reducible assumption
    | simp only [keeps_upd_eq]

theorem State.setAgent_keeps {K : Kept} {s a1 a2} (h : keeps K s) :
    keeps K (State.setAgent s a1 a2) := by
  unfold State.setAgent
  repeat' first
    | with_reducible assumption
    | simp only [keeps_upd_eq]

theorem State.protoErr_keeps {K : Kept} {s a1} (h : keeps K s) :
    keeps K (State.protoErr s a1) := by
  unfold State.protoErr
  repeat' first
    | with_reducible assumption
    | with_reducible apply State.bump_keeps

theorem State.setDir_keeps {K : Kept} {s a1 a2} (h : keeps K s) :
    keeps K (State.setDir s a1 a2) := by
  unfold State.setDir
  repeat' first
    | with_reducible assumption
    | (intro x; first | (refine keeps_cut K x ?_ ?_; rotate_left; intro hx; (try clear_value x); rotate_right; unfold x) | clear_value x | skip)
    | lift_lets
    | simp only [keeps_upd_eq]

theorem State.countUe_keeps {K : Kept} {s a1} (h : keeps K s) :
    keeps K (State.countUe s a1) := by
  unfold State.countUe
  repeat' first
    | with_reducible assumption
    | with_reducible apply State.bump_keeps
    | with_reducible apply keeps_ite
    | split

theorem State.countCe_keeps {K : Kept} {s a1} (h : keeps K s) :
    keeps K (State.countCe s a1) := by
  unfold State.countCe
  repeat' first
    | with_reducible assumption
    | with_reducible apply State.bump_keeps
    | with_reducible apply keeps_ite
    | split

theorem State.setSession_keeps {K : Kept} {s a1 a2} (h : keeps K s) :
    keeps K (State.setSession s a1 a2) := by
  unfold State.setSession
  repeat' first
    | with_reducible assumption
    | simp only [keeps_upd_eq]

theorem State.violation_keeps {K : Kept} {s a1 a2 a3 a4 a5 a6} (h : keeps K s) :
    keeps K (State.violation s a1 a2 a3 a4 a5 a6) := by
  unfold State.violation
  repeat' first
    | with_reducible assumption
    | (intro x; first | (refine keeps_cut K x ?_ ?_; rotate_left; intro hx; (try clear_value x); rotate_right; unfold x) | clear_value x | skip)
    | lift_lets
    | with_reducible apply State.protoErr_keeps
    | with_reducible apply State.setAgent_keeps
    | with_reducible apply State.raiseSys_keeps
    | with_reducible apply State.event_keeps
    | with_reducible apply State.bump_keeps
    | with_reducible apply keeps_ite
    | split

theorem State.freeRx_keeps {K : Kept} {s a1 a2 a3} (h : keeps K s) :
    keeps K (State.freeRx s a1 a2 a3) := by
  unfold State.freeRx
  repeat' first
    | with_reducible assumption
    | (intro x; first | (refine keeps_cut K x ?_ ?_; rotate_left; intro hx; (try clear_value x); rotate_right; unfold x) | clear_value x | skip)
    | lift_lets
    | with_reducible apply State.setLport_keeps

theorem State.setUnitSt_keeps {K : Kept} {s a1 a2 a3 a4} (h : keeps K s) :
    keeps K (State.setUnitSt s a1 a2 a3 a4) := by
  unfold State.setUnitSt
  repeat' first
    | with_reducible assumption
    | with_reducible apply State.bump_keeps
    | with_reducible apply State.setOv_keeps
    | with_reducible apply keeps_ite
    | split

theorem State.setExt_keeps {K : Kept} {s a1 a2} (h : keeps K s) :
    keeps K (State.setExt s a1 a2) := by
  unfold State.setExt
  repeat' first
    | with_reducible assumption
    | (intro x; first | (refine keeps_cut K x ?_ ?_; rotate_left; intro hx; (try clear_value x); rotate_right; unfold x) | clear_value x | skip)
    | lift_lets
    | simp only [keeps_upd_eq]

theorem State.setEntry_keeps {K : Kept} {s a1 a2} (h : keeps K s) :
    keeps K (State.setEntry s a1 a2) := by
  unfold State.setEntry
  repeat' first
    | with_reducible assumption
    | (intro x; first | (refine keeps_cut K x ?_ ?_; rotate_left; intro hx; (try clear_value x); rotate_right; unfold x) | clear_value x | skip)
    | lift_lets
    | simp only [keeps_upd_eq]

theorem State.countDelivered_keeps {K : Kept} {s a1 a2} (h : keeps K s) :
    keeps K (State.countDelivered s a1 a2) := by
  unfold State.countDelivered
  repeat' first
    | with_reducible assumption
    | (intro x; first | (refine keeps_cut K x ?_ ?_; rotate_left; intro hx; (try clear_value x); rotate_right; unfold x) | clear_value x | skip)
    | lift_lets
    | with_reducible apply State.countPoisonRead_keeps
    | split
    | dsimp only

theorem State.touchFrame_keeps {K : Kept} {s a1} (h : keeps K s) :
    keeps K (State.touchFrame s a1) := by
  unfold State.touchFrame
  repeat' first
    | with_reducible assumption
    | (intro x; first | (refine keeps_cut K x ?_ ?_; rotate_left; intro hx; (try clear_value x); rotate_right; unfold x) | clear_value x | skip)
    | lift_lets
    | with_reducible apply State.setFrame_keeps
    | with_reducible apply keeps_ite
    | split

theorem State.touchScrub_keeps {K : Kept} {s a1} (h : keeps K s) :
    keeps K (State.touchScrub s a1) := by
  unfold State.touchScrub
  repeat' first
    | with_reducible assumption
    | with_reducible apply State.touchFrame_keeps
    | split

theorem State.setMerge_keeps {K : Kept} {s a1 a2} (h : keeps K s) :
    keeps K (State.setMerge s a1 a2) := by
  unfold State.setMerge
  repeat' first
    | with_reducible assumption
    | (intro x; first | (refine keeps_cut K x ?_ ?_; rotate_left; intro hx; (try clear_value x); rotate_right; unfold x) | clear_value x | skip)
    | lift_lets
    | with_reducible apply keeps_ite
    | split
    | simp only [keeps_upd_eq]

theorem State.pageHint_keeps {K : Kept} {s a1 a2 a3} (h : keeps K s) :
    keeps K (State.pageHint s a1 a2 a3) := by
  unfold State.pageHint
  repeat' first
    | with_reducible assumption
    | (intro x; first | (refine keeps_cut K x ?_ ?_; rotate_left; intro hx; (try clear_value x); rotate_right; unfold x) | clear_value x | skip)
    | lift_lets
    | simp only [keeps_upd_eq]

theorem State.wantWriteback_keeps {K : Kept} {s a1} (h : keeps K s) :
    keeps K (State.wantWriteback s a1) := by
  unfold State.wantWriteback
  repeat' first
    | with_reducible assumption
    | with_reducible apply keeps_ite
    | split
    | simp only [keeps_upd_eq]

theorem State.foghorn_keeps {K : Kept} {s a1} (h : keeps K s) :
    keeps K (State.foghorn s a1) := by
  unfold State.foghorn
  repeat' first
    | with_reducible assumption
    | (intro x; first | (refine keeps_cut K x ?_ ?_; rotate_left; intro hx; (try clear_value x); rotate_right; unfold x) | clear_value x | skip)
    | lift_lets
    | with_reducible apply State.bump_keeps
    | with_reducible apply State.setOv_keeps
    | with_reducible apply keeps_ite
    | split
    | simp only [keeps_upd_eq]

theorem State.dropChan_keeps {K : Kept} {s a1} (h : keeps K s) :
    keeps K (State.dropChan s a1) := by
  unfold State.dropChan
  repeat' first
    | with_reducible assumption
    | (intro x; first | (refine keeps_cut K x ?_ ?_; rotate_left; intro hx; (try clear_value x); rotate_right; unfold x) | clear_value x | skip)
    | lift_lets
    | with_reducible apply State.foghorn_keeps
    | simp only [keeps_upd_eq]

theorem State.freeFrame_keeps {K : Kept} {s a1} (h : keeps K s) :
    keeps K (State.freeFrame s a1) := by
  unfold State.freeFrame
  repeat' first
    | with_reducible assumption
    | (intro x; first | (refine keeps_cut K x ?_ ?_; rotate_left; intro hx; (try clear_value x); rotate_right; unfold x) | clear_value x | skip)
    | lift_lets
    | with_reducible apply State.setFrame_keeps
    | split
    | simp only [keeps_upd_eq]
    | dsimp only

theorem State.dropMig_keeps {K : Kept} {s a1} (h : keeps K s) :
    keeps K (State.dropMig s a1) := by
  unfold State.dropMig
  repeat' first
    | with_reducible assumption
    | (intro x; first | (refine keeps_cut K x ?_ ?_; rotate_left; intro hx; (try clear_value x); rotate_right; unfold x) | clear_value x | skip)
    | lift_lets
    | with_reducible apply State.freeFrame_keeps
    | with_reducible apply keeps_foldl
    | with_reducible apply keeps_foldl_fst
    | with_reducible apply keeps_foldl_snd
    | simp only [keeps_upd_eq]

theorem State.abandonGone_keeps {K : Kept} {s} (h : keeps K s) :
    keeps K (State.abandonGone s) := by
  unfold State.abandonGone
  repeat' first
    | with_reducible assumption
    | (intro x; first | (refine keeps_cut K x ?_ ?_; rotate_left; intro hx; (try clear_value x); rotate_right; unfold x) | (refine keeps_cutf2 K x ?_ ?_; rotate_left; intro hf; (try clear_value x); rotate_right; unfold x) | clear_value x | skip)
    | lift_lets
    | with_reducible apply hf
    | with_reducible apply State.dropMig_keeps
    | with_reducible apply keeps_ite
    | with_reducible apply keeps_foldl
    | with_reducible apply keeps_foldl_fst
    | with_reducible apply keeps_foldl_snd
    | split
    | simp only [keeps_upd_eq]

theorem State.fenceHbm_keeps {K : Kept} {s a1 a2} (h : keeps K s) :
    keeps K (State.fenceHbm s a1 a2) := by
  unfold State.fenceHbm
  repeat' first
    | with_reducible assumption
    | (intro x; first | (refine keeps_cut K x ?_ ?_; rotate_left; intro hx; (try clear_value x); rotate_right; unfold x) | clear_value x | skip)
    | lift_lets
    | with_reducible apply State.abandonGone_keeps
    | with_reducible apply State.dropChan_keeps
    | with_reducible apply State.setUnitSt_keeps
    | with_reducible apply State.event_keeps
    | with_reducible apply State.setOv_keeps
    | with_reducible apply keeps_ite
    | split
    | simp only [keeps_upd_eq]

theorem State.pairDark_keeps {K : Kept} {s a1 a2} (h : keeps K s) :
    keeps K (State.pairDark s a1 a2) := by
  unfold State.pairDark
  repeat' first
    | with_reducible assumption
    | (intro x; first | (refine keeps_cut K x ?_ ?_; rotate_left; intro hx; (try clear_value x); rotate_right; unfold x) | clear_value x | skip)
    | lift_lets
    | with_reducible apply State.abandonGone_keeps
    | with_reducible apply State.dropChan_keeps
    | with_reducible apply State.setUnitSt_keeps
    | with_reducible apply State.event_keeps
    | with_reducible apply State.setOv_keeps
    | with_reducible apply keeps_ite
    | split
    | simp only [keeps_upd_eq]

theorem State.rateAdd_keeps {K : Kept} {s a1} (h : keeps K s) :
    keeps K (State.rateAdd s a1) := by
  unfold State.rateAdd
  repeat' first
    | with_reducible assumption
    | (intro x; first | (refine keeps_cut K x ?_ ?_; rotate_left; intro hx; (try clear_value x); rotate_right; unfold x) | clear_value x | skip)
    | lift_lets
    | split
    | simp only [keeps_upd_eq]
    | dsimp only

theorem State.noteUe_keeps {K : Kept} {s a1} (h : keeps K s) :
    keeps K (State.noteUe s a1) := by
  unfold State.noteUe
  repeat' first
    | with_reducible assumption
    | (intro x; first | (refine keeps_cut K x ?_ ?_; rotate_left; intro hx; (try clear_value x); rotate_right; unfold x) | clear_value x | skip)
    | lift_lets
    | with_reducible apply State.rateAdd_keeps
    | with_reducible apply State.pairDark_keeps
    | with_reducible apply State.fenceHbm_keeps
    | with_reducible apply State.countUe_keeps
    | with_reducible apply keeps_ite
    | split

theorem State.noteCe_keeps {K : Kept} {s a1 a2} (h : keeps K s) :
    keeps K (State.noteCe s a1 a2) := by
  unfold State.noteCe
  repeat' first
    | with_reducible assumption
    | (intro x; first | (refine keeps_cut K x ?_ ?_; rotate_left; intro hx; (try clear_value x); rotate_right; unfold x) | clear_value x | skip)
    | lift_lets
    | with_reducible apply State.rateAdd_keeps
    | with_reducible apply State.countCe_keeps
    | with_reducible apply State.event_keeps
    | with_reducible apply State.setOv_keeps
    | with_reducible apply keeps_ite
    | split

theorem State.cwFrom_keeps {K : Kept} (hm : K.stored = none) {s a1} (h : keeps K s) :
    keeps K (State.cwFrom s a1).2 := by
  unfold State.cwFrom
  repeat' first
    | with_reducible assumption
    | (intro x; first | (refine keeps_cut K x ?_ ?_; rotate_left; intro hx; (try clear_value x); rotate_right; unfold x) | (refine keeps_cut K x.2 ?_ ?_; rotate_left; intro hx; (try clear_value x); rotate_right; unfold x) | clear_value x | skip)
    | lift_lets
    | with_reducible apply State.noteCe_keeps
    | with_reducible apply State.noteUe_keeps
    | with_reducible apply State.wantWriteback_keeps
    | with_reducible apply State.cwStore_keeps hm
    | with_reducible apply State.notePoison_keeps
    | with_reducible apply State.bump_keeps
    | with_reducible apply keeps_ite
    | with_reducible apply keeps_ite_snd
    | split
    | dsimp only
    | (refine keeps_of_snd (by with_reducible assumption) ?_)
    | (refine keeps_of_fst (by with_reducible assumption) ?_)
    | dsimp only

theorem State.cwRead_keeps {K : Kept} (hm : K.stored = none) {s a1} (h : keeps K s) :
    keeps K (State.cwRead s a1).2 := by
  unfold State.cwRead
  repeat' first
    | with_reducible assumption
    | with_reducible apply State.cwFrom_keeps hm
    | with_reducible apply keeps_ite
    | with_reducible apply keeps_ite_snd
    | split
    | (refine keeps_of_snd (by with_reducible assumption) ?_)
    | (refine keeps_of_fst (by with_reducible assumption) ?_)
    | dsimp only

theorem State.markDirty_keeps {K : Kept} {s a1} (h : keeps K s) :
    keeps K (State.markDirty s a1) := by
  unfold State.markDirty
  repeat' first
    | with_reducible assumption
    | (intro x; first | (refine keeps_cut K x ?_ ?_; rotate_left; intro hx; (try clear_value x); rotate_right; unfold x) | clear_value x | skip)
    | lift_lets
    | with_reducible apply keeps_ite
    | split
    | simp only [keeps_upd_eq]

theorem State.sendBlk_keeps {K : Kept} {s a1 a2} (h : keeps K s) :
    keeps K (State.sendBlk s a1 a2) := by
  unfold State.sendBlk
  repeat' first
    | with_reducible assumption
    | with_reducible apply State.send_keeps
    | split

theorem State.peerWrite_keeps {K : Kept} {s a1 a2 a3} (h : keeps K s) :
    keeps K (State.peerWrite s a1 a2 a3) := by
  unfold State.peerWrite
  repeat' first
    | with_reducible assumption
    | (intro x; first | (refine keeps_cut K x ?_ ?_; rotate_left; intro hx; (try clear_value x); rotate_right; unfold x) | clear_value x | skip)
    | lift_lets
    | with_reducible apply State.sendBlk_keeps
    | with_reducible apply keeps_ite
    | split
    | simp only [keeps_upd_eq]
    | dsimp only

theorem State.peerLine_keeps {K : Kept} {s a1 a2} (h : keeps K s) :
    keeps K (State.peerLine s a1 a2) := by
  unfold State.peerLine
  repeat' first
    | with_reducible assumption
    | with_reducible apply State.peerWrite_keeps

theorem State.cwHome_keeps {K : Kept} (hm : K.stored = none) {s a1 a2} (h : keeps K s) :
    keeps K (State.cwHome s a1 a2) := by
  unfold State.cwHome
  repeat' first
    | with_reducible assumption
    | with_reducible apply State.peerLine_keeps
    | with_reducible apply State.markDirty_keeps
    | with_reducible apply State.cwWrite_keeps hm

theorem State.rmwHalf_keeps {K : Kept} (hm : K.stored = none) {s a1 a2 a3} (h : keeps K s) :
    keeps K (State.rmwHalf s a1 a2 a3) := by
  unfold State.rmwHalf
  repeat' first
    | with_reducible assumption
    | (intro x; first | (refine keeps_cut K x ?_ ?_; rotate_left; intro hx; (try clear_value x); rotate_right; unfold x) | (refine keeps_cut K x.2 ?_ ?_; rotate_left; intro hx; (try clear_value x); rotate_right; unfold x) | clear_value x | skip)
    | lift_lets
    | with_reducible apply State.cwHome_keeps hm
    | with_reducible apply State.cwRead_keeps hm
    | with_reducible apply State.bump_keeps
    | with_reducible apply keeps_ite
    | split
    | dsimp only
    | (refine keeps_of_snd (by with_reducible assumption) ?_)
    | (refine keeps_of_fst (by with_reducible assumption) ?_)

theorem State.flushMerge_keeps {K : Kept} (hm : K.stored = none) {s a1} (h : keeps K s) :
    keeps K (State.flushMerge s a1) := by
  unfold State.flushMerge
  repeat' first
    | with_reducible assumption
    | (intro x; first | (refine keeps_cut K x ?_ ?_; rotate_left; intro hx; (try clear_value x); rotate_right; unfold x) | clear_value x | skip)
    | lift_lets
    | with_reducible apply State.rmwHalf_keeps hm
    | with_reducible apply State.pageHint_keeps
    | with_reducible apply State.setMerge_keeps
    | with_reducible apply keeps_ite
    | split
    | dsimp only

theorem State.trimMerge_keeps {K : Kept} (hm : K.stored = none) {a0 a1 a2 s} (h : keeps K s) :
    keeps K (State.trimMerge a0 a1 a2 s) := by
  induction a2 generalizing a0 a1 s with
  | zero =>
    first | rw [State.trimMerge] | unfold State.trimMerge
    repeat' first
      | with_reducible assumption
      | with_reducible apply State.flushMerge_keeps hm
      | with_reducible apply keeps_ite
      | split
  | succ n ih =>
    first | rw [State.trimMerge] | unfold State.trimMerge
    repeat' first
      | with_reducible assumption
      | with_reducible apply ih
      | with_reducible apply State.flushMerge_keeps hm
      | with_reducible apply keeps_ite
      | split

theorem State.mergeRoom_keeps {K : Kept} (hm : K.stored = none) {s a1} (h : keeps K s) :
    keeps K (State.mergeRoom s a1) := by
  unfold State.mergeRoom
  repeat' first
    | with_reducible assumption
    | with_reducible apply State.trimMerge_keeps hm
    | with_reducible apply keeps_ite
    | split

theorem State.abandon_keeps {K : Kept} {s a1} (h : keeps K s) :
    keeps K (State.abandon s a1) := by
  unfold State.abandon
  repeat' first
    | with_reducible assumption
    | (intro x; first | (refine keeps_cut K x ?_ ?_; rotate_left; intro hx; (try clear_value x); rotate_right; unfold x) | clear_value x | skip)
    | lift_lets
    | with_reducible apply State.dropMig_keeps
    | with_reducible apply State.setFrame_keeps
    | with_reducible apply keeps_ite
    | split

theorem State.abandonIf_keeps {K : Kept} {s a1} (h : keeps K s) :
    keeps K (State.abandonIf s a1) := by
  unfold State.abandonIf
  repeat' first
    | with_reducible assumption
    | intro x
    | with_reducible apply State.abandon_keeps
    | with_reducible apply keeps_foldl
    | with_reducible apply keeps_foldl_fst
    | with_reducible apply keeps_foldl_snd

theorem State.zeroChunk_keeps {K : Kept} (hm : K.stored = none) {s : State} {a1 : Nat} (h : keeps K s) :
    keeps K (State.zeroChunk s a1) := by
  unfold State.zeroChunk
  lift_lets
  intro base f r s1 z
  have h1 : keeps K s1 := by
    unfold s1
    split
    · exact h
    · exact keeps_stored hm h _ _ _ _
        (fun e => ⟨Tab.wf_filter e.1 _, Tab.wf_filter e.2.1 _, Tab.wf_put e.2.2.1 _ _, Tab.wf_filter e.2.2.2 _⟩)
  exact keeps_foldl (State.setFrame_keeps h1) (fun _ _ ht => State.peerWrite_keeps ht)

theorem State.writeHalf_keeps {K : Kept} (hm : K.stored = none) {s a1 a2 a3 a4 a5} (h : keeps K s) :
    keeps K (State.writeHalf s a1 a2 a3 a4 a5) := by
  unfold State.writeHalf
  repeat' first
    | with_reducible assumption
    | (intro x; first | (refine keeps_cut K x ?_ ?_; rotate_left; intro hx; (try clear_value x); rotate_right; unfold x) | clear_value x | skip)
    | lift_lets
    | with_reducible apply State.cwHome_keeps hm
    | with_reducible apply State.setMerge_keeps
    | with_reducible apply State.bump_keeps
    | with_reducible apply keeps_ite
    | split
    | simp only [keeps_upd_eq]

theorem State.lineWrite_keeps {K : Kept} (hm : K.stored = none) {s a1 a2 a3 a4} (h : keeps K s) :
    keeps K (State.lineWrite s a1 a2 a3 a4) := by
  unfold State.lineWrite
  repeat' first
    | with_reducible assumption
    | (intro x; first | (refine keeps_cut K x ?_ ?_; rotate_left; intro hx; (try clear_value x); rotate_right; unfold x) | clear_value x | skip)
    | lift_lets
    | with_reducible apply State.writeHalf_keeps hm
    | with_reducible apply State.trimMerge_keeps hm
    | with_reducible apply State.flushMerge_keeps hm
    | with_reducible apply keeps_ite
    | split

theorem State.setChan_keeps {K : Kept} {s a1 a2} (h : keeps K s) :
    keeps K (State.setChan s a1 a2) := by
  unfold State.setChan
  repeat' first
    | with_reducible assumption
    | (intro x; first | (refine keeps_cut K x ?_ ?_; rotate_left; intro hx; (try clear_value x); rotate_right; unfold x) | clear_value x | skip)
    | lift_lets
    | simp only [keeps_upd_eq]

theorem State.rollRates_keeps {K : Kept} {s} (h : keeps K s) :
    keeps K (State.rollRates s) := by
  unfold State.rollRates
  repeat' first
    | with_reducible assumption
    | (intro x; first | (refine keeps_cut K x ?_ ?_; rotate_left; intro hx; (try clear_value x); rotate_right; unfold x) | clear_value x | skip)
    | lift_lets
    | simp only [keeps_upd_eq]

theorem State.takeRecord_keeps {K : Kept} {s t : State} {f : Nat} (e : s.takeRecord f = some t) (h : keeps K s) : keeps K t := by
  unfold State.takeRecord at e
  dsimp only at e
  split at e
  · cases e
    exact h
  · cases e
  · cases e
    exact State.setFrame_keeps (keeps_upd h)

theorem State.zeroFill_keeps {K : Kept} (hm : K.stored = none) {s a1} (h : keeps K s) :
    keeps K (State.zeroFill s a1) := by
  unfold State.zeroFill
  repeat' first
    | with_reducible assumption
    | with_reducible apply State.zeroChunk_keeps hm
    | with_reducible apply State.bump_keeps

theorem State.prepFrame_keeps {K : Kept} (hm : K.stored = none) {s t : State} {p : Nat} (e : s.prepFrame p = some t) (h : keeps K s) :
    keeps K t := by
  unfold State.prepFrame at e
  split at e
  · rw [Option.map_eq_some_iff] at e
    obtain ⟨s1, he, e⟩ := e
    subst e
    exact State.zeroFill_keeps hm (State.takeRecord_keeps he h)
  · cases e
    exact h

theorem State.prepWrite_keeps {K : Kept} (hm : K.stored = none) {s t : State} {p : Nat} (e : s.prepWrite p = some t) (h : keeps K s) :
    keeps K t := by
  unfold State.prepWrite at e
  split at e
  · cases e
  · rename_i s1 he
    have h1 : keeps K s1 := State.prepFrame_keeps hm he h
    split at e
    · cases e
      exact h1
    · exact State.prepFrame_keeps hm e h1

theorem State.poisonCw_keeps {K : Kept} (hm : K.stored = none) {s a1 a2} (h : keeps K s) :
    keeps K (State.poisonCw s a1 a2) := by
  unfold State.poisonCw
  repeat' first
    | with_reducible assumption
    | (intro x; first | (refine keeps_cut K x ?_ ?_; rotate_left; intro hx; (try clear_value x); rotate_right; unfold x) | clear_value x | skip)
    | lift_lets
    | with_reducible apply State.zeroFill_keeps hm
    | with_reducible apply State.cwHome_keeps hm
    | with_reducible apply keeps_ite
    | split
    | dsimp only

theorem State.lineHome_keeps {K : Kept} (hm : K.stored = none) {s a1 a2} (h : keeps K s) :
    keeps K (State.lineHome s a1 a2) := by
  unfold State.lineHome
  repeat' first
    | with_reducible assumption
    | (intro x; first | (refine keeps_cut K x ?_ ?_; rotate_left; intro hx; (try clear_value x); rotate_right; unfold x) | clear_value x | skip)
    | lift_lets
    | with_reducible apply State.cwHome_keeps hm
    | with_reducible apply State.setMerge_keeps
    | with_reducible apply State.bump_keeps
    | split
    | dsimp only

theorem State.lineRead_keeps {K : Kept} (hm : K.stored = none) {s a1 a2 a3} (h : keeps K s) :
    keeps K (State.lineRead s a1 a2 a3).2 := by
  unfold State.lineRead
  repeat' first
    | with_reducible assumption
    | (intro x; first | (refine keeps_cut K x ?_ ?_; rotate_left; intro hx; (try clear_value x); rotate_right; unfold x) | (refine keeps_cut K x.2 ?_ ?_; rotate_left; intro hx; (try clear_value x); rotate_right; unfold x) | clear_value x | skip)
    | lift_lets
    | with_reducible apply State.flushMerge_keeps hm
    | with_reducible apply State.cwRead_keeps hm
    | with_reducible apply State.bump_keeps
    | with_reducible apply keeps_ite
    | with_reducible apply keeps_ite_snd
    | split
    | dsimp only
    | (refine keeps_of_snd (by with_reducible assumption) ?_)
    | (refine keeps_of_fst (by with_reducible assumption) ?_)
    | dsimp only

theorem State.noteLostWrite_keeps {K : Kept} {s a1} (h : keeps K s) :
    keeps K (State.noteLostWrite s a1) := by
  unfold State.noteLostWrite
  repeat' first
    | with_reducible assumption
    | (intro x; first | (refine keeps_cut K x ?_ ?_; rotate_left; intro hx; (try clear_value x); rotate_right; unfold x) | clear_value x | skip)
    | lift_lets
    | with_reducible apply State.event_keeps
    | with_reducible apply State.bump_keeps
    | with_reducible apply keeps_ite
    | split

theorem State.noteWait_keeps {K : Kept} {s a1} (h : keeps K s) :
    keeps K (State.noteWait s a1) := by
  unfold State.noteWait
  repeat' first
    | with_reducible assumption
    | with_reducible apply State.bump_keeps
    | with_reducible apply State.setOv_keeps
    | with_reducible apply keeps_ite
    | split

theorem State.raiseRing_keeps {K : Kept} {s a1} (h : keeps K s) :
    keeps K (State.raiseRing s a1) := by
  unfold State.raiseRing
  repeat' first
    | with_reducible assumption
    | (intro x; first | (refine keeps_cut K x ?_ ?_; rotate_left; intro hx; (try clear_value x); rotate_right; unfold x) | clear_value x | skip)
    | lift_lets
    | with_reducible apply State.emit_keeps
    | with_reducible apply keeps_ite
    | split
    | simp only [keeps_upd_eq]

theorem State.postRec_keeps {K : Kept} {s a1 a2} (h : keeps K s) :
    keeps K (State.postRec s a1 a2) := by
  unfold State.postRec
  repeat' first
    | with_reducible assumption
    | (intro x; first | (refine keeps_cut K x ?_ ?_; rotate_left; intro hx; (try clear_value x); rotate_right; unfold x) | clear_value x | skip)
    | lift_lets
    | with_reducible apply State.raiseRing_keeps
    | with_reducible apply State.emit_keeps
    | with_reducible apply State.bump_keeps
    | with_reducible apply State.setCtx_keeps
    | with_reducible apply State.setOv_keeps
    | with_reducible apply keeps_ite
    | split

theorem State.queueRec_keeps {K : Kept} {s a1} (h : keeps K s) :
    keeps K (State.queueRec s a1) := by
  unfold State.queueRec
  repeat' first
    | with_reducible assumption
    | (intro x; first | (refine keeps_cut K x ?_ ?_; rotate_left; intro hx; (try clear_value x); rotate_right; unfold x) | clear_value x | skip)
    | lift_lets
    | with_reducible apply State.postRec_keeps
    | with_reducible apply State.noteWait_keeps
    | with_reducible apply keeps_ite
    | split
    | simp only [keeps_upd_eq]
    | dsimp only

theorem State.pageFault_keeps {K : Kept} {s a1 a2 a3 a4 a5 a6} (h : keeps K s) :
    keeps K (State.pageFault s a1 a2 a3 a4 a5 a6) := by
  unfold State.pageFault
  repeat' first
    | with_reducible assumption
    | (intro x; first | (refine keeps_cut K x ?_ ?_; rotate_left; intro hx; (try clear_value x); rotate_right; unfold x) | clear_value x | skip)
    | lift_lets
    | with_reducible apply State.queueRec_keeps
    | with_reducible apply State.setEntry_keeps
    | with_reducible apply State.bump_keeps
    | with_reducible apply keeps_ite
    | split

theorem State.dropReq_keeps {K : Kept} {s a1} (h : keeps K s) :
    keeps K (State.dropReq s a1) := by
  unfold State.dropReq
  repeat' first
    | with_reducible assumption
    | simp only [keeps_upd_eq]

theorem State.dropParts_keeps {K : Kept} {s a1} (h : keeps K s) :
    keeps K (State.dropParts s a1) := by
  unfold State.dropParts
  repeat' first
    | with_reducible assumption
    | simp only [keeps_upd_eq]

theorem State.updReq_keeps {K : Kept} {s a1 a2} (h : keeps K s) :
    keeps K (State.updReq s a1 a2) := by
  unfold State.updReq
  repeat' first
    | with_reducible assumption
    | with_reducible apply keeps_ite
    | split
    | simp only [keeps_upd_eq]

theorem State.formCmp_keeps {K : Kept} {s a1 a2 a3 a4 a5 a6 a7 a8 a9} (h : keeps K s) :
    keeps K (State.formCmp s a1 a2 a3 a4 a5 a6 a7 a8 a9) := by
  unfold State.formCmp
  repeat' first
    | with_reducible assumption
    | (intro x; first | (refine keeps_cut K x ?_ ?_; rotate_left; intro hx; (try clear_value x); rotate_right; unfold x) | clear_value x | skip)
    | lift_lets
    | with_reducible apply State.updReq_keeps
    | with_reducible apply State.dropReq_keeps
    | with_reducible apply State.setAgent_keeps
    | with_reducible apply keeps_ite
    | split
    | simp only [keeps_upd_eq]

theorem State.finish_keeps {K : Kept} {s a1 a2 a3 a4 a5 a6 a7 a8 a9} (h : keeps K s) :
    keeps K (State.finish s a1 a2 a3 a4 a5 a6 a7 a8 a9) := by
  unfold State.finish
  repeat' first
    | with_reducible assumption
    | with_reducible apply State.formCmp_keeps
    | with_reducible apply State.dropParts_keeps
    | with_reducible apply State.dropReq_keeps
    | with_reducible apply keeps_ite
    | split

theorem State.violate_keeps {K : Kept} {s a1 a2} (h : keeps K s) :
    keeps K (State.violate s a1 a2) := by
  unfold State.violate
  repeat' first
    | with_reducible assumption
    | with_reducible apply State.finish_keeps
    | with_reducible apply State.violation_keeps

theorem State.doorbell_keeps {K : Kept} {s a1 a2} (h : keeps K s) :
    keeps K (State.doorbell s a1 a2).2 := by
  unfold State.doorbell
  repeat' first
    | with_reducible assumption
    | (intro x; first | (refine keeps_cut K x ?_ ?_; rotate_left; intro hx; (try clear_value x); rotate_right; unfold x) | (refine keeps_cut K x.2 ?_ ?_; rotate_left; intro hx; (try clear_value x); rotate_right; unfold x) | clear_value x | skip)
    | lift_lets
    | with_reducible apply State.bump_keeps
    | with_reducible apply State.setOv_keeps
    | with_reducible apply keeps_ite
    | with_reducible apply keeps_ite_snd
    | split
    | dsimp only

theorem State.setTarget_keeps {K : Kept} {s a1 a2} (h : keeps K s) :
    keeps K (State.setTarget s a1 a2) := by
  unfold State.setTarget
  repeat' first
    | with_reducible assumption
    | (intro x; first | (refine keeps_cut K x ?_ ?_; rotate_left; intro hx; (try clear_value x); rotate_right; unfold x) | clear_value x | skip)
    | lift_lets
    | with_reducible apply State.setFrame_keeps
    | with_reducible apply keeps_ite
    | split
    | simp only [keeps_upd_eq]

theorem State.hintPages_keeps {K : Kept} {s a1 a2 a3 a4} (h : keeps K s) :
    keeps K (State.hintPages s a1 a2 a3 a4) := by
  induction a4 generalizing s a1 a2 a3 with
  | zero =>
    first | rw [State.hintPages] | unfold State.hintPages
    repeat' first
      | with_reducible assumption
      | (intro x; first | (refine keeps_cut K x ?_ ?_; rotate_left; intro hx; (try clear_value x); rotate_right; unfold x) | clear_value x | skip)
      | lift_lets
      | with_reducible apply State.setTarget_keeps
      | with_reducible apply keeps_ite
      | split
  | succ n ih =>
    first | rw [State.hintPages] | unfold State.hintPages
    repeat' first
      | with_reducible assumption
      | (intro x; first | (refine keeps_cut K x ?_ ?_; rotate_left; intro hx; (try clear_value x); rotate_right; unfold x) | clear_value x | skip)
      | lift_lets
      | with_reducible apply ih
      | with_reducible apply State.setTarget_keeps
      | with_reducible apply keeps_ite
      | split

theorem State.touchPtc_keeps {K : Kept} {s a1} (h : keeps K s) :
    keeps K (State.touchPtc s a1) := by
  unfold State.touchPtc
  repeat' first
    | with_reducible assumption
    | (intro x; first | (refine keeps_cut K x ?_ ?_; rotate_left; intro hx; (try clear_value x); rotate_right; unfold x) | clear_value x | skip)
    | lift_lets
    | simp only [keeps_upd_eq]

theorem State.sendHome_keeps {K : Kept} {s a1} (h : keeps K s) :
    keeps K (State.sendHome s a1) := by
  unfold State.sendHome
  repeat' first
    | with_reducible assumption
    | (intro x; first | (refine keeps_cut K x ?_ ?_; rotate_left; intro hx; (try clear_value x); rotate_right; unfold x) | clear_value x | skip)
    | lift_lets
    | with_reducible apply State.finish_keeps
    | with_reducible apply State.updReq_keeps
    | with_reducible apply keeps_ite
    | split
    | simp only [keeps_upd_eq]

theorem State.reqFault_keeps {K : Kept} {s a1 a2 a3 a4} (h : keeps K s) :
    keeps K (State.reqFault s a1 a2 a3 a4) := by
  unfold State.reqFault
  repeat' first
    | with_reducible assumption
    | (intro x; first | (refine keeps_cut K x ?_ ?_; rotate_left; intro hx; (try clear_value x); rotate_right; unfold x) | (refine keeps_cutf K x ?_ ?_; rotate_left; intro hf; (try clear_value x); rotate_right; unfold x) | clear_value x | skip)
    | lift_lets
    | with_reducible apply hf
    | with_reducible apply State.finish_keeps
    | with_reducible apply State.updReq_keeps
    | with_reducible apply State.queueRec_keeps
    | with_reducible apply State.postRec_keeps
    | with_reducible apply State.noteWait_keeps
    | with_reducible apply State.setEntry_keeps
    | with_reducible apply State.bump_keeps
    | with_reducible apply keeps_ite
    | split
    | simp only [keeps_upd_eq]
    | dsimp only

theorem State.withEntry_keeps {K : Kept} {s a1 a2 a3} (h : keeps K s) :
    keeps K (State.withEntry s a1 a2 a3) := by
  unfold State.withEntry
  repeat' first
    | with_reducible assumption
    | (intro x; first | (refine keeps_cut K x ?_ ?_; rotate_left; intro hx; (try clear_value x); rotate_right; unfold x) | clear_value x | skip)
    | lift_lets
    | with_reducible apply State.reqFault_keeps
    | with_reducible apply State.sendHome_keeps
    | with_reducible apply State.violate_keeps
    | with_reducible apply State.finish_keeps
    | with_reducible apply keeps_ite
    | split

theorem State.translate_keeps {K : Kept} {s a1} (h : keeps K s) :
    keeps K (State.translate s a1) := by
  unfold State.translate
  repeat' first
    | with_reducible assumption
    | (intro x; first | (refine keeps_cut K x ?_ ?_; rotate_left; intro hx; (try clear_value x); rotate_right; unfold x) | clear_value x | skip)
    | lift_lets
    | with_reducible apply State.withEntry_keeps
    | with_reducible apply State.touchPtc_keeps
    | with_reducible apply State.violate_keeps
    | with_reducible apply State.updReq_keeps
    | with_reducible apply State.bump_keeps
    | with_reducible apply keeps_ite
    | split
    | simp only [keeps_upd_eq]
    | dsimp only

theorem State.stir_keeps {K : Kept} {s} (h : keeps K s) :
    keeps K (State.stir s) := by
  unfold State.stir
  repeat' first
    | with_reducible assumption
    | with_reducible apply State.wake_keeps
    | with_reducible apply keeps_ite
    | split

theorem State.dbell_keeps {K : Kept} {s a1} (h : keeps K s) :
    keeps K (State.dbell s a1) := by
  unfold State.dbell
  repeat' first
    | with_reducible assumption
    | (intro x; first | (refine keeps_cut K x ?_ ?_; rotate_left; intro hx; (try clear_value x); rotate_right; unfold x) | (refine keeps_cut K x.2 ?_ ?_; rotate_left; intro hx; (try clear_value x); rotate_right; unfold x) | clear_value x | skip)
    | lift_lets
    | with_reducible apply State.doorbell_keeps
    | with_reducible apply State.finish_keeps
    | with_reducible apply keeps_ite
    | split

theorem State.hint_keeps {K : Kept} {s a1} (h : keeps K s) :
    keeps K (State.hint s a1) := by
  unfold State.hint
  repeat' first
    | with_reducible assumption
    | (intro x; first | (refine keeps_cut K x ?_ ?_; rotate_left; intro hx; (try clear_value x); rotate_right; unfold x) | clear_value x | skip)
    | lift_lets
    | with_reducible apply State.hintPages_keeps
    | with_reducible apply State.violate_keeps
    | with_reducible apply State.finish_keeps
    | with_reducible apply keeps_ite
    | split

theorem State.proceed_keeps {K : Kept} {s a1} (h : keeps K s) :
    keeps K (State.proceed s a1) := by
  unfold State.proceed
  repeat' first
    | with_reducible assumption
    | (intro x; first | (refine keeps_cut K x ?_ ?_; rotate_left; intro hx; (try clear_value x); rotate_right; unfold x) | clear_value x | skip)
    | lift_lets
    | with_reducible apply State.hint_keeps
    | with_reducible apply State.dbell_keeps
    | with_reducible apply State.stir_keeps
    | with_reducible apply State.translate_keeps
    | with_reducible apply State.updReq_keeps
    | with_reducible apply keeps_ite
    | split
    | dsimp only

theorem State.police_keeps {K : Kept} {s a1 a2 a3 a4} (h : keeps K s) :
    keeps K (State.police s a1 a2 a3 a4).2.2 := by
  unfold State.police
  repeat' first
    | with_reducible assumption
    | (intro x; first | (refine keeps_cut K x ?_ ?_; rotate_left; intro hx; (try clear_value x); rotate_right; unfold x) | (refine keeps_cut K x.2.2 ?_ ?_; rotate_left; intro hx; (try clear_value x); rotate_right; unfold x) | (refine keeps_cutg2 K x ?_ ?_; rotate_left; intro hf; (try clear_value x); rotate_right; unfold x) | clear_value x | skip)
    | lift_lets
    | with_reducible apply hf
    | with_reducible apply State.bump_keeps
    | with_reducible apply keeps_ite
    | split
    | simp only [keeps_upd_eq]
    | dsimp only

theorem State.retranslate_keeps {K : Kept} {s a1} (h : keeps K s) :
    keeps K (State.retranslate s a1) := by
  induction a1 generalizing s with
  | nil =>
    first | rw [State.retranslate] | unfold State.retranslate
    repeat' first
      | with_reducible assumption
      | with_reducible apply State.translate_keeps
      | split
  | cons y t ih =>
    first | rw [State.retranslate] | unfold State.retranslate
    repeat' first
      | with_reducible assumption
      | with_reducible apply ih
      | with_reducible apply State.translate_keeps
      | split

theorem State.earlyResend_keeps {K : Kept} {s a1 a2} (h : keeps K s) :
    keeps K (State.earlyResend s a1 a2) := by
  unfold State.earlyResend
  repeat' first
    | with_reducible assumption
    | (intro x; first | (refine keeps_cut K x ?_ ?_; rotate_left; intro hx; (try clear_value x); rotate_right; unfold x) | clear_value x | skip)
    | lift_lets
    | with_reducible apply State.violate_keeps
    | with_reducible apply State.finish_keeps
    | with_reducible apply State.setAgent_keeps
    | with_reducible apply State.bump_keeps
    | with_reducible apply keeps_ite
    | split

theorem State.arrive_keeps {K : Kept} {s a1 a2 a3 a4 a5} (h : keeps K s) :
    keeps K (State.arrive s a1 a2 a3 a4 a5) := by
  unfold State.arrive
  repeat' first
    | with_reducible assumption
    | (intro x; first | (refine keeps_cut K x ?_ ?_; rotate_left; intro hx; (try clear_value x); rotate_right; unfold x) | (refine keeps_cut K x.2.2 ?_ ?_; rotate_left; intro hx; (try clear_value x); rotate_right; unfold x) | clear_value x | skip)
    | lift_lets
    | with_reducible apply State.earlyResend_keeps
    | with_reducible apply State.police_keeps
    | with_reducible apply State.proceed_keeps
    | with_reducible apply State.violate_keeps
    | with_reducible apply State.finish_keeps
    | with_reducible apply State.bump_keeps
    | with_reducible apply keeps_ite
    | split
    | simp only [keeps_upd_eq]
    | dsimp only

theorem State.releaseFenced_keeps {K : Kept} {s a1} (h : keeps K s) :
    keeps K (State.releaseFenced s a1) := by
  induction a1 generalizing s with
  | nil =>
    first | rw [State.releaseFenced] | unfold State.releaseFenced
    repeat' first
      | with_reducible assumption
      | with_reducible apply State.proceed_keeps
  | cons y t ih =>
    first | rw [State.releaseFenced] | unfold State.releaseFenced
    repeat' first
      | with_reducible assumption
      | with_reducible apply ih
      | with_reducible apply State.proceed_keeps

theorem State.serveFetched_keeps {K : Kept} {s a1 a2 a3} (h : keeps K s) :
    keeps K (State.serveFetched s a1 a2 a3) := by
  induction a3 generalizing s a1 a2 with
  | nil =>
    first | rw [State.serveFetched] | unfold State.serveFetched
    repeat' first
      | with_reducible assumption
      | (intro x; first | (refine keeps_cut K x ?_ ?_; rotate_left; intro hx; (try clear_value x); rotate_right; unfold x) | clear_value x | skip)
      | lift_lets
      | with_reducible apply State.withEntry_keeps
      | with_reducible apply State.reqFault_keeps
      | with_reducible apply State.updReq_keeps
      | with_reducible apply keeps_ite
      | split
  | cons y t ih =>
    first | rw [State.serveFetched] | unfold State.serveFetched
    repeat' first
      | with_reducible assumption
      | (intro x; first | (refine keeps_cut K x ?_ ?_; rotate_left; intro hx; (try clear_value x); rotate_right; unfold x) | clear_value x | skip)
      | lift_lets
      | with_reducible apply ih
      | with_reducible apply State.withEntry_keeps
      | with_reducible apply State.reqFault_keeps
      | with_reducible apply State.updReq_keeps
      | with_reducible apply keeps_ite
      | split

theorem State.closeFence_keeps {K : Kept} {s a1 a2 a3} (h : keeps K s) :
    keeps K (State.closeFence s a1 a2 a3) := by
  unfold State.closeFence
  repeat' first
    | with_reducible assumption
    | (intro x; first | (refine keeps_cut K x ?_ ?_; rotate_left; intro hx; (try clear_value x); rotate_right; unfold x) | clear_value x | skip)
    | lift_lets
    | with_reducible apply State.releaseFenced_keeps
    | with_reducible apply State.finish_keeps
    | with_reducible apply keeps_ite
    | split
    | dsimp only

theorem State.fetchDone_keeps {K : Kept} {s a1 a2 a3 a4 a5} (h : keeps K s) :
    keeps K (State.fetchDone s a1 a2 a3 a4 a5) := by
  unfold State.fetchDone
  repeat' first
    | with_reducible assumption
    | (intro x; first | (refine keeps_cut K x ?_ ?_; rotate_left; intro hx; (try clear_value x); rotate_right; unfold x) | (refine keeps_cut K x.2 ?_ ?_; rotate_left; intro hx; (try clear_value x); rotate_right; unfold x) | clear_value x | skip)
    | lift_lets
    | with_reducible apply State.serveFetched_keeps
    | with_reducible apply State.touchPtc_keeps
    | with_reducible apply State.readChart_keeps
    | with_reducible apply State.bump_keeps
    | with_reducible apply keeps_ite
    | split
    | simp only [keeps_upd_eq]
    | dsimp only
    | (refine keeps_of_snd (by with_reducible assumption) ?_)
    | (refine keeps_of_fst (by with_reducible assumption) ?_)

theorem State.accAdds_keeps {K : Kept} {s a1 a2 a3 a4 a5 a6} (h : keeps K s) :
    keeps K (State.accAdds s a1 a2 a3 a4 a5 a6).2 := by
  induction a5 generalizing s a1 a2 a3 a4 a6 with
  | nil =>
    first | rw [State.accAdds] | unfold State.accAdds
    repeat' first
      | with_reducible assumption
      | (intro x; first | (refine keeps_cut K x ?_ ?_; rotate_left; intro hx; (try clear_value x); rotate_right; unfold x) | (refine keeps_cut K x.2 ?_ ?_; rotate_left; intro hx; (try clear_value x); rotate_right; unfold x) | clear_value x | skip)
      | lift_lets
      | with_reducible apply State.bump_keeps
      | with_reducible apply keeps_ite
      | with_reducible apply keeps_ite_snd
      | split
      | dsimp only
  | cons y t ih =>
    first | rw [State.accAdds] | unfold State.accAdds
    repeat' first
      | with_reducible assumption
      | (intro x; first | (refine keeps_cut K x ?_ ?_; rotate_left; intro hx; (try clear_value x); rotate_right; unfold x) | (refine keeps_cut K x.2 ?_ ?_; rotate_left; intro hx; (try clear_value x); rotate_right; unfold x) | clear_value x | skip)
      | lift_lets
      | with_reducible apply ih
      | with_reducible apply State.bump_keeps
      | with_reducible apply keeps_ite
      | with_reducible apply keeps_ite_snd
      | split
      | dsimp only

theorem State.accPoison_keeps {K : Kept} {s a1 a2 a3 a4} (h : keeps K s) :
    keeps K (State.accPoison s a1 a2 a3 a4).2 := by
  unfold State.accPoison
  repeat' first
    | with_reducible assumption
    | (intro x; first | (refine keeps_cut K x ?_ ?_; rotate_left; intro hx; (try clear_value x); rotate_right; unfold x) | (refine keeps_cut K x.2 ?_ ?_; rotate_left; intro hx; (try clear_value x); rotate_right; unfold x) | clear_value x | skip)
    | lift_lets
    | with_reducible apply State.bump_keeps
    | with_reducible apply keeps_ite
    | with_reducible apply keeps_ite_snd
    | split
    | dsimp only

theorem State.accApply_keeps {K : Kept} {s a1 a2 a3 a4} (h : keeps K s) :
    keeps K (State.accApply s a1 a2 a3 a4).2 := by
  unfold State.accApply
  repeat' first
    | with_reducible assumption
    | (intro x; first | (refine keeps_cut K x ?_ ?_; rotate_left; intro hx; (try clear_value x); rotate_right; unfold x) | (refine keeps_cut K x.2 ?_ ?_; rotate_left; intro hx; (try clear_value x); rotate_right; unfold x) | clear_value x | skip)
    | lift_lets
    | with_reducible apply State.accPoison_keeps
    | with_reducible apply State.accAdds_keeps
    | with_reducible apply keeps_ite
    | with_reducible apply keeps_ite_snd
    | split
    | dsimp only

theorem State.accApplyAll_keeps {K : Kept} {s a1 a2 a3} (h : keeps K s) :
    keeps K (State.accApplyAll s a1 a2 a3).2 := by
  induction a3 generalizing s a1 a2 with
  | nil =>
    first | rw [State.accApplyAll] | unfold State.accApplyAll
    repeat' first
      | with_reducible assumption
      | (intro x; first | (refine keeps_cut K x ?_ ?_; rotate_left; intro hx; (try clear_value x); rotate_right; unfold x) | (refine keeps_cut K x.2 ?_ ?_; rotate_left; intro hx; (try clear_value x); rotate_right; unfold x) | clear_value x | skip)
      | lift_lets
      | with_reducible apply State.accApply_keeps
      | dsimp only
  | cons y t ih =>
    first | rw [State.accApplyAll] | unfold State.accApplyAll
    repeat' first
      | with_reducible assumption
      | (intro x; first | (refine keeps_cut K x ?_ ?_; rotate_left; intro hx; (try clear_value x); rotate_right; unfold x) | (refine keeps_cut K x.2 ?_ ?_; rotate_left; intro hx; (try clear_value x); rotate_right; unfold x) | clear_value x | skip)
      | lift_lets
      | with_reducible apply ih
      | with_reducible apply State.accApply_keeps
      | dsimp only

theorem State.setAcc_keeps {K : Kept} {s a1 a2} (h : keeps K s) :
    keeps K (State.setAcc s a1 a2) := by
  unfold State.setAcc
  repeat' first
    | with_reducible assumption
    | (intro x; first | (refine keeps_cut K x ?_ ?_; rotate_left; intro hx; (try clear_value x); rotate_right; unfold x) | clear_value x | skip)
    | lift_lets
    | simp only [keeps_upd_eq]

theorem State.accFill_keeps {K : Kept} (hm : K.stored = none) {s a1} (h : keeps K s) :
    keeps K (State.accFill s a1) := by
  unfold State.accFill
  repeat' first
    | with_reducible assumption
    | (intro x; first | (refine keeps_cut K x ?_ ?_; rotate_left; intro hx; (try clear_value x); rotate_right; unfold x) | (refine keeps_cut K x.2 ?_ ?_; rotate_left; intro hx; (try clear_value x); rotate_right; unfold x) | clear_value x | skip)
    | lift_lets
    | with_reducible apply State.setAcc_keeps
    | with_reducible apply State.accApplyAll_keeps
    | with_reducible apply State.lineRead_keeps hm
    | with_reducible apply State.bump_keeps
    | with_reducible apply keeps_ite
    | split
    | dsimp only
    | (refine keeps_of_snd (by with_reducible assumption) ?_)
    | (refine keeps_of_fst (by with_reducible assumption) ?_)

theorem State.accFlush_keeps {K : Kept} (hm : K.stored = none) {s a1} (h : keeps K s) :
    keeps K (State.accFlush s a1) := by
  unfold State.accFlush
  repeat' first
    | with_reducible assumption
    | (intro x; first | (refine keeps_cut K x ?_ ?_; rotate_left; intro hx; (try clear_value x); rotate_right; unfold x) | (refine keeps_cut K x.2 ?_ ?_; rotate_left; intro hx; (try clear_value x); rotate_right; unfold x) | clear_value x | skip)
    | lift_lets
    | with_reducible apply State.accFill_keeps hm
    | with_reducible apply State.setAcc_keeps
    | with_reducible apply State.accPoison_keeps
    | with_reducible apply State.noteLostWrite_keeps
    | with_reducible apply State.lineHome_keeps hm
    | with_reducible apply State.pageHint_keeps
    | with_reducible apply keeps_ite
    | split
    | dsimp only
    | (refine keeps_of_snd (by with_reducible assumption) ?_)
    | (refine keeps_of_fst (by with_reducible assumption) ?_)

theorem State.delAcc_keeps {K : Kept} {s a1} (h : keeps K s) :
    keeps K (State.delAcc s a1) := by
  unfold State.delAcc
  repeat' first
    | with_reducible assumption
    | (intro x; first | (refine keeps_cut K x ?_ ?_; rotate_left; intro hx; (try clear_value x); rotate_right; unfold x) | clear_value x | skip)
    | lift_lets
    | simp only [keeps_upd_eq]

theorem State.accEnd_keeps {K : Kept} (hm : K.stored = none) {s a1} (h : keeps K s) :
    keeps K (State.accEnd s a1) := by
  unfold State.accEnd
  repeat' first
    | with_reducible assumption
    | (intro x; first | (refine keeps_cut K x ?_ ?_; rotate_left; intro hx; (try clear_value x); rotate_right; unfold x) | clear_value x | skip)
    | lift_lets
    | with_reducible apply State.delAcc_keeps
    | with_reducible apply State.accFlush_keeps hm
    | with_reducible apply keeps_ite
    | split
    | simp only [keeps_upd_eq]

theorem State.accEnter_keeps {K : Kept} {s a1 a2} (h : keeps K s) :
    keeps K (State.accEnter s a1 a2) := by
  unfold State.accEnter
  repeat' first
    | with_reducible assumption
    | (intro x; first | (refine keeps_cut K x ?_ ?_; rotate_left; intro hx; (try clear_value x); rotate_right; unfold x) | (refine keeps_cut K x.2 ?_ ?_; rotate_left; intro hx; (try clear_value x); rotate_right; unfold x) | clear_value x | skip)
    | lift_lets
    | with_reducible apply State.setAcc_keeps
    | with_reducible apply State.accApply_keeps
    | with_reducible apply State.bump_keeps
    | split
    | dsimp only
    | (refine keeps_of_snd (by with_reducible assumption) ?_)
    | (refine keeps_of_fst (by with_reducible assumption) ?_)

theorem State.tick_keeps {K : Kept} {s} (h : keeps K s) :
    keeps K (State.tick s) := by
  unfold State.tick
  repeat' first
    | with_reducible assumption
    | (intro x; first | (refine keeps_cut K x ?_ ?_; rotate_left; intro hx; (try clear_value x); rotate_right; unfold x) | clear_value x | skip)
    | lift_lets
    | simp only [keeps_upd_eq]

theorem State.atomApply_keeps {K : Kept} (hm : K.stored = none) {s a1} (h : keeps K s) :
    keeps K (State.atomApply s a1) := by
  unfold State.atomApply
  repeat' first
    | with_reducible assumption
    | (intro x; first | (refine keeps_cut K x ?_ ?_; rotate_left; intro hx; (try clear_value x); rotate_right; unfold x) | (refine keeps_cut K x.2 ?_ ?_; rotate_left; intro hx; (try clear_value x); rotate_right; unfold x) | clear_value x | skip)
    | lift_lets
    | with_reducible apply State.finish_keeps
    | with_reducible apply State.lineRead_keeps hm
    | with_reducible apply State.lineWrite_keeps hm
    | with_reducible apply State.writeHalf_keeps hm
    | with_reducible apply State.flushMerge_keeps hm
    | with_reducible apply State.countPoisonRead_keeps
    | with_reducible apply keeps_ite
    | split
    | dsimp only
    | (refine keeps_of_snd (by with_reducible assumption) ?_)
    | (refine keeps_of_fst (by with_reducible assumption) ?_)

theorem State.accIdle_keeps {K : Kept} (hm : K.stored = none) {s a1} (h : keeps K s) :
    keeps K (State.accIdle s a1) := by
  unfold State.accIdle
  repeat' first
    | with_reducible assumption
    | with_reducible apply State.accFlush_keeps hm
    | with_reducible apply State.bump_keeps
    | with_reducible apply keeps_ite
    | split

theorem State.accAccept_keeps {K : Kept} (hm : K.stored = none) {s a1} (h : keeps K s) :
    keeps K (State.accAccept s a1) := by
  unfold State.accAccept
  repeat' first
    | with_reducible assumption
    | (intro x; first | (refine keeps_cut K x ?_ ?_; rotate_left; intro hx; (try clear_value x); rotate_right; unfold x) | (refine keeps_cut K x.2 ?_ ?_; rotate_left; intro hx; (try clear_value x); rotate_right; unfold x) | clear_value x | skip)
    | lift_lets
    | with_reducible apply State.tick_keeps
    | with_reducible apply State.accEnter_keeps
    | with_reducible apply State.accEnd_keeps hm
    | with_reducible apply State.accFlush_keeps hm
    | with_reducible apply State.setAcc_keeps
    | with_reducible apply State.accApply_keeps
    | with_reducible apply State.finish_keeps
    | (refine State.prepWrite_keeps hm (by with_reducible assumption) ?_)
    | with_reducible apply State.touchScrub_keeps
    | with_reducible apply State.bump_keeps
    | with_reducible apply keeps_ite
    | split
    | dsimp only
    | (refine keeps_of_snd (by with_reducible assumption) ?_)
    | (refine keeps_of_fst (by with_reducible assumption) ?_)

theorem State.dropPeek_keeps {K : Kept} {s a1} (h : keeps K s) :
    keeps K (State.dropPeek s a1) := by
  unfold State.dropPeek
  repeat' first
    | with_reducible assumption
    | (intro x; first | (refine keeps_cut K x ?_ ?_; rotate_left; intro hx; (try clear_value x); rotate_right; unfold x) | clear_value x | skip)
    | lift_lets
    | simp only [keeps_upd_eq]

theorem State.loseOwner_keeps {K : Kept} (hm : K.stored = none) {s a1 a2} (h : keeps K s) :
    keeps K (State.loseOwner s a1 a2).1 := by
  unfold State.loseOwner
  repeat' first
    | with_reducible assumption
    | (intro x; first | (refine keeps_cut K x ?_ ?_; rotate_left; intro hx; (try clear_value x); rotate_right; unfold x) | (refine keeps_cut K x.1 ?_ ?_; rotate_left; intro hx; (try clear_value x); rotate_right; unfold x) | clear_value x | skip)
    | lift_lets
    | with_reducible apply State.poisonCw_keeps hm
    | with_reducible apply State.event_keeps
    | with_reducible apply State.bump_keeps
    | with_reducible apply keeps_ite
    | split
    | dsimp only

theorem State.addSnoop_keeps {K : Kept} (hm : K.stored = none) {s a1 a2 a3 a4 a5} (h : keeps K s) :
    keeps K (State.addSnoop s a1 a2 a3 a4 a5).2 := by
  unfold State.addSnoop
  repeat' first
    | with_reducible assumption
    | (intro x; first | (refine keeps_cut K x ?_ ?_; rotate_left; intro hx; (try clear_value x); rotate_right; unfold x) | (refine keeps_cut K x.1 ?_ ?_; rotate_left; intro hx; (try clear_value x); rotate_right; unfold x) | (refine keeps_cut K x.2 ?_ ?_; rotate_left; intro hx; (try clear_value x); rotate_right; unfold x) | clear_value x | skip)
    | lift_lets
    | with_reducible apply State.loseOwner_keeps hm
    | with_reducible apply State.setDir_keeps
    | with_reducible apply keeps_ite
    | with_reducible apply keeps_ite_snd
    | split
    | simp only [keeps_upd_eq]
    | dsimp only

theorem State.addSnoops_keeps {K : Kept} (hm : K.stored = none) {s a1 a2 a3} (h : keeps K s) :
    keeps K (State.addSnoops s a1 a2 a3).2 := by
  induction a3 generalizing s a1 a2 with
  | nil =>
    first | rw [State.addSnoops] | unfold State.addSnoops
    repeat' first
      | with_reducible assumption
      | (intro x; first | (refine keeps_cut K x ?_ ?_; rotate_left; intro hx; (try clear_value x); rotate_right; unfold x) | (refine keeps_cut K x.2 ?_ ?_; rotate_left; intro hx; (try clear_value x); rotate_right; unfold x) | clear_value x | skip)
      | lift_lets
      | with_reducible apply State.addSnoop_keeps hm
      | dsimp only
  | cons y t ih =>
    first | rw [State.addSnoops] | unfold State.addSnoops
    repeat' first
      | with_reducible assumption
      | (intro x; first | (refine keeps_cut K x ?_ ?_; rotate_left; intro hx; (try clear_value x); rotate_right; unfold x) | (refine keeps_cut K x.2 ?_ ?_; rotate_left; intro hx; (try clear_value x); rotate_right; unfold x) | clear_value x | skip)
      | lift_lets
      | with_reducible apply ih
      | with_reducible apply State.addSnoop_keeps hm
      | dsimp only

theorem State.takeSid_keeps {K : Kept} {s a1} (h : keeps K s) :
    keeps K (State.takeSid s a1).2 := by
  unfold State.takeSid
  repeat' first
    | with_reducible assumption
    | (intro x; first | (refine keeps_cut K x ?_ ?_; rotate_left; intro hx; (try clear_value x); rotate_right; unfold x) | (refine keeps_cut K x.2 ?_ ?_; rotate_left; intro hx; (try clear_value x); rotate_right; unfold x) | clear_value x | skip)
    | lift_lets
    | simp only [keeps_upd_eq]
    | dsimp only

theorem State.openTxn_keeps {K : Kept} (hm : K.stored = none) {s a1 a2 a3} (h : keeps K s) :
    keeps K (State.openTxn s a1 a2 a3) := by
  unfold State.openTxn
  repeat' first
    | with_reducible assumption
    | (intro x; first | (refine keeps_cut K x ?_ ?_; rotate_left; intro hx; (try clear_value x); rotate_right; unfold x) | (refine keeps_cut K x.2 ?_ ?_; rotate_left; intro hx; (try clear_value x); rotate_right; unfold x) | clear_value x | skip)
    | lift_lets
    | with_reducible apply State.takeSid_keeps
    | with_reducible apply State.addSnoops_keeps hm
    | with_reducible apply State.dropPeek_keeps
    | with_reducible apply State.setDir_keeps

theorem State.startSingle_keeps {K : Kept} (hm : K.stored = none) {s a1 a2} (h : keeps K s) :
    keeps K (State.startSingle s a1 a2) := by
  unfold State.startSingle
  repeat' first
    | with_reducible assumption
    | (intro x; first | (refine keeps_cut K x ?_ ?_; rotate_left; intro hx; (try clear_value x); rotate_right; unfold x) | clear_value x | skip)
    | lift_lets
    | with_reducible apply State.openTxn_keeps hm
    | with_reducible apply keeps_ite
    | split

theorem State.txnVal_keeps {K : Kept} (hm : K.stored = none) {s a1 a2} (h : keeps K s) :
    keeps K (State.txnVal s a1 a2).2.2 := by
  unfold State.txnVal
  repeat' first
    | with_reducible assumption
    | (intro x; first | (refine keeps_cut K x ?_ ?_; rotate_left; intro hx; (try clear_value x); rotate_right; unfold x) | (refine keeps_cut K x.2 ?_ ?_; rotate_left; intro hx; (try clear_value x); rotate_right; unfold x) | (refine keeps_cut K x.2.2 ?_ ?_; rotate_left; intro hx; (try clear_value x); rotate_right; unfold x) | clear_value x | skip)
    | lift_lets
    | with_reducible apply State.lineRead_keeps hm
    | split
    | dsimp only
    | (refine keeps_of_snd (by with_reducible assumption) ?_)
    | (refine keeps_of_fst (by with_reducible assumption) ?_)
    | dsimp only

theorem State.countRange_keeps {K : Kept} {s a1 a2 a3 a4} (h : keeps K s) :
    keeps K (State.countRange s a1 a2 a3 a4) := by
  unfold State.countRange
  repeat' first
    | with_reducible assumption
    | (intro x; first | (refine keeps_cut K x ?_ ?_; rotate_left; intro hx; (try clear_value x); rotate_right; unfold x) | clear_value x | skip)
    | lift_lets
    | with_reducible apply State.countPoisonRead_keeps
    | with_reducible apply keeps_ite
    | split

theorem State.countGather_keeps {K : Kept} {s a1 a2} (h : keeps K s) :
    keeps K (State.countGather s a1 a2) := by
  induction a2 generalizing s a1 with
  | nil =>
    first | rw [State.countGather] | unfold State.countGather
    repeat' first
      | with_reducible assumption
      | with_reducible apply State.countDelivered_keeps
  | cons y t ih =>
    first | rw [State.countGather] | unfold State.countGather
    repeat' first
      | with_reducible assumption
      | with_reducible apply ih
      | with_reducible apply State.countDelivered_keeps

theorem State.viewDone_keeps {K : Kept} {s a1} (h : keeps K s) :
    keeps K (State.viewDone s a1) := by
  unfold State.viewDone
  repeat' first
    | with_reducible assumption
    | (intro x; first | (refine keeps_cut K x ?_ ?_; rotate_left; intro hx; (try clear_value x); rotate_right; unfold x) | clear_value x | skip)
    | lift_lets
    | with_reducible apply State.countGather_keeps
    | with_reducible apply State.finish_keeps
    | with_reducible apply State.bump_keeps
    | with_reducible apply keeps_ite
    | split

theorem State.partCame_keeps {K : Kept} {s a1 a2 a3 a4} (h : keeps K s) :
    keeps K (State.partCame s a1 a2 a3 a4) := by
  unfold State.partCame
  repeat' first
    | with_reducible assumption
    | (intro x; first | (refine keeps_cut K x ?_ ?_; rotate_left; intro hx; (try clear_value x); rotate_right; unfold x) | clear_value x | skip)
    | lift_lets
    | with_reducible apply State.viewDone_keeps
    | with_reducible apply State.updReq_keeps
    | with_reducible apply State.dropReq_keeps
    | with_reducible apply keeps_ite
    | split
    | dsimp only

theorem State.waitFull_keeps {K : Kept} {s a1} (h : keeps K s) :
    keeps K (State.waitFull s a1) := by
  unfold State.waitFull
  repeat' first
    | with_reducible assumption
    | with_reducible apply State.finish_keeps
    | with_reducible apply State.bump_keeps

theorem State.joinLine_keeps {K : Kept} {s a1} (h : keeps K s) :
    keeps K (State.joinLine s a1) := by
  unfold State.joinLine
  repeat' first
    | with_reducible assumption
    | (intro x; first | (refine keeps_cut K x ?_ ?_; rotate_left; intro hx; (try clear_value x); rotate_right; unfold x) | clear_value x | skip)
    | lift_lets
    | with_reducible apply State.waitFull_keeps
    | with_reducible apply State.finish_keeps
    | with_reducible apply State.updReq_keeps
    | with_reducible apply State.setDir_keeps
    | with_reducible apply keeps_ite
    | split

theorem State.askParts_keeps {K : Kept} {s a1 a2} (h : keeps K s) :
    keeps K (State.askParts s a1 a2) := by
  induction a2 generalizing s a1 with
  | nil =>
    first | rw [State.askParts] | unfold State.askParts
    repeat' first
      | with_reducible assumption
      | (intro x; first | (refine keeps_cut K x ?_ ?_; rotate_left; intro hx; (try clear_value x); rotate_right; unfold x) | clear_value x | skip)
      | lift_lets
      | with_reducible apply State.joinLine_keeps
      | with_reducible apply keeps_ite
      | split
      | simp only [keeps_upd_eq]
  | cons y t ih =>
    first | rw [State.askParts] | unfold State.askParts
    repeat' first
      | with_reducible assumption
      | (intro x; first | (refine keeps_cut K x ?_ ?_; rotate_left; intro hx; (try clear_value x); rotate_right; unfold x) | clear_value x | skip)
      | lift_lets
      | with_reducible apply ih
      | with_reducible apply State.joinLine_keeps
      | with_reducible apply keeps_ite
      | split
      | simp only [keeps_upd_eq]

theorem State.setPeek_keeps {K : Kept} {s a1 a2} (h : keeps K s) :
    keeps K (State.setPeek s a1 a2) := by
  unfold State.setPeek
  repeat' first
    | with_reducible assumption
    | (intro x; first | (refine keeps_cut K x ?_ ?_; rotate_left; intro hx; (try clear_value x); rotate_right; unfold x) | clear_value x | skip)
    | lift_lets
    | simp only [keeps_upd_eq]

theorem State.deliver_keeps {K : Kept} {s a1 a2 a3} (h : keeps K s) :
    keeps K (State.deliver s a1 a2 a3) := by
  unfold State.deliver
  repeat' first
    | with_reducible assumption
    | (intro x; first | (refine keeps_cut K x ?_ ?_; rotate_left; intro hx; (try clear_value x); rotate_right; unfold x) | clear_value x | skip)
    | lift_lets
    | with_reducible apply State.setPeek_keeps
    | with_reducible apply State.askParts_keeps
    | with_reducible apply State.partCame_keeps
    | with_reducible apply State.viewDone_keeps
    | with_reducible apply State.countRange_keeps
    | with_reducible apply State.finish_keeps
    | with_reducible apply State.updReq_keeps
    | with_reducible apply State.dropReq_keeps
    | with_reducible apply State.bump_keeps
    | with_reducible apply keeps_ite
    | split
    | dsimp only

theorem State.endOnce_keeps {K : Kept} (hm : K.stored = none) {s a1 a2} (h : keeps K s) :
    keeps K (State.endOnce s a1 a2) := by
  unfold State.endOnce
  repeat' first
    | with_reducible assumption
    | (intro x; first | (refine keeps_cut K x ?_ ?_; rotate_left; intro hx; (try clear_value x); rotate_right; unfold x) | (refine keeps_cut K x.2.2 ?_ ?_; rotate_left; intro hx; (try clear_value x); rotate_right; unfold x) | clear_value x | skip)
    | lift_lets
    | with_reducible apply State.deliver_keeps
    | with_reducible apply State.txnVal_keeps hm
    | with_reducible apply State.dropReq_keeps
    | with_reducible apply State.setDir_keeps
    | with_reducible apply keeps_ite
    | split

theorem State.cohErr_keeps {K : Kept} {s a1 a2 a3 a4 a5 a6 a7 a8} (h : keeps K s) :
    keeps K (State.cohErr s a1 a2 a3 a4 a5 a6 a7 a8) := by
  unfold State.cohErr
  repeat' first
    | with_reducible assumption
    | (intro x; first | (refine keeps_cut K x ?_ ?_; rotate_left; intro hx; (try clear_value x); rotate_right; unfold x) | clear_value x | skip)
    | lift_lets
    | with_reducible apply State.violation_keeps
    | with_reducible apply State.setOct_keeps
    | with_reducible apply State.bump_keeps

theorem State.badRsp_keeps {K : Kept} {s a1 a2 a3 a4 a5 a6} (h : keeps K s) :
    keeps K (State.badRsp s a1 a2 a3 a4 a5 a6) := by
  unfold State.badRsp
  repeat' first
    | with_reducible assumption
    | (intro x; first | (refine keeps_cut K x ?_ ?_; rotate_left; intro hx; (try clear_value x); rotate_right; unfold x) | clear_value x | skip)
    | lift_lets
    | with_reducible apply State.violation_keeps
    | with_reducible apply State.setOct_keeps
    | with_reducible apply State.bump_keeps

theorem State.homeData_keeps {K : Kept} (hm : K.stored = none) {s a1 a2} (h : keeps K s) :
    keeps K (State.homeData s a1 a2) := by
  unfold State.homeData
  repeat' first
    | with_reducible assumption
    | (intro x; first | (refine keeps_cut K x ?_ ?_; rotate_left; intro hx; (try clear_value x); rotate_right; unfold x) | clear_value x | skip)
    | lift_lets
    | with_reducible apply State.tick_keeps
    | with_reducible apply State.lineHome_keeps hm
    | (refine State.prepWrite_keeps hm (by with_reducible assumption) ?_)
    | with_reducible apply State.mergeRoom_keeps hm
    | with_reducible apply State.setMerge_keeps
    | with_reducible apply State.touchScrub_keeps
    | split
    | dsimp only

theorem State.served_keeps {K : Kept} {s a1} (h : keeps K s) :
    keeps K (State.served s a1) := by
  unfold State.served
  repeat' first
    | with_reducible assumption
    | with_reducible apply State.updReq_keeps

theorem State.openFor_keeps {K : Kept} (hm : K.stored = none) {s a1 a2 a3} (h : keeps K s) :
    keeps K (State.openFor s a1 a2 a3).1 := by
  unfold State.openFor
  repeat' first
    | with_reducible assumption
    | with_reducible apply State.served_keeps
    | with_reducible apply State.waitFull_keeps
    | with_reducible apply State.openTxn_keeps hm
    | with_reducible apply keeps_ite
    | split
    | dsimp only

theorem State.startUnk_keeps {K : Kept} (hm : K.stored = none) {s a1} (h : keeps K s) :
    keeps K (State.startUnk s a1) := by
  unfold State.startUnk
  repeat' first
    | with_reducible assumption
    | (intro x; first | (refine keeps_cut K x ?_ ?_; rotate_left; intro hx; (try clear_value x); rotate_right; unfold x) | clear_value x | skip)
    | lift_lets
    | with_reducible apply State.openTxn_keeps hm
    | with_reducible apply State.updReq_keeps
    | with_reducible apply State.setDir_keeps
    | with_reducible apply State.bump_keeps
    | with_reducible apply keeps_ite
    | split

theorem State.deliverMem_keeps {K : Kept} (hm : K.stored = none) {s a1} (h : keeps K s) :
    keeps K (State.deliverMem s a1) := by
  unfold State.deliverMem
  repeat' first
    | with_reducible assumption
    | (intro x; first | (refine keeps_cut K x ?_ ?_; rotate_left; intro hx; (try clear_value x); rotate_right; unfold x) | (refine keeps_cut K x.2 ?_ ?_; rotate_left; intro hx; (try clear_value x); rotate_right; unfold x) | clear_value x | skip)
    | lift_lets
    | with_reducible apply State.deliver_keeps
    | with_reducible apply State.lineRead_keeps hm

theorem State.touchDir_keeps {K : Kept} {s a1} (h : keeps K s) :
    keeps K (State.touchDir s a1) := by
  unfold State.touchDir
  repeat' first
    | with_reducible assumption
    | (intro x; first | (refine keeps_cut K x ?_ ?_; rotate_left; intro hx; (try clear_value x); rotate_right; unfold x) | clear_value x | skip)
    | lift_lets
    | with_reducible apply State.tick_keeps
    | with_reducible apply State.setDir_keeps

theorem State.sweepRetry_keeps {K : Kept} {s a1} (h : keeps K s) :
    keeps K (State.sweepRetry s a1) := by
  unfold State.sweepRetry
  repeat' first
    | with_reducible assumption
    | with_reducible apply State.finish_keeps
    | with_reducible apply State.touchScrub_keeps

theorem State.applyWrite_keeps {K : Kept} (hm : K.stored = none) {s a1} (h : keeps K s) :
    keeps K (State.applyWrite s a1) := by
  unfold State.applyWrite
  repeat' first
    | with_reducible assumption
    | with_reducible apply State.sweepRetry_keeps
    | with_reducible apply State.atomApply_keeps hm
    | with_reducible apply State.finish_keeps
    | (refine State.prepWrite_keeps hm (by with_reducible assumption) ?_)
    | with_reducible apply State.lineWrite_keeps hm
    | with_reducible apply State.bump_keeps
    | with_reducible apply keeps_ite
    | split

theorem State.takeWay_keeps {K : Kept} (hm : K.stored = none) {s a1} (h : keeps K s) :
    keeps K (State.takeWay s a1).2 := by
  unfold State.takeWay
  repeat' first
    | with_reducible assumption
    | (intro x; first | (refine keeps_cut K x ?_ ?_; rotate_left; intro hx; (try clear_value x); rotate_right; unfold x) | (refine keeps_cut K x.2 ?_ ?_; rotate_left; intro hx; (try clear_value x); rotate_right; unfold x) | clear_value x | skip)
    | lift_lets
    | with_reducible apply State.touchDir_keeps
    | with_reducible apply State.served_keeps
    | with_reducible apply State.waitFull_keeps
    | with_reducible apply State.openTxn_keeps hm
    | with_reducible apply State.finish_keeps
    | with_reducible apply State.setDir_keeps
    | with_reducible apply State.bump_keeps
    | with_reducible apply keeps_ite
    | with_reducible apply keeps_ite_snd
    | split
    | dsimp only
    | (refine keeps_of_snd (by with_reducible assumption) ?_)
    | (refine keeps_of_fst (by with_reducible assumption) ?_)
    | dsimp only

theorem State.serveU_keeps {K : Kept} (hm : K.stored = none) {s a1} (h : keeps K s) :
    keeps K (State.serveU s a1).1 := by
  unfold State.serveU
  repeat' first
    | with_reducible assumption
    | (intro x; first | (refine keeps_cut K x ?_ ?_; rotate_left; intro hx; (try clear_value x); rotate_right; unfold x) | (refine keeps_cut K x.1 ?_ ?_; rotate_left; intro hx; (try clear_value x); rotate_right; unfold x) | (refine keeps_cut K x.2 ?_ ?_; rotate_left; intro hx; (try clear_value x); rotate_right; unfold x) | clear_value x | skip)
    | lift_lets
    | with_reducible apply State.takeWay_keeps hm
    | with_reducible apply State.applyWrite_keeps hm
    | with_reducible apply State.deliverMem_keeps hm
    | with_reducible apply State.served_keeps
    | with_reducible apply State.openTxn_keeps hm
    | with_reducible apply State.accAccept_keeps hm
    | with_reducible apply State.setDir_keeps
    | split
    | dsimp only
    | (refine keeps_of_snd (by with_reducible assumption) ?_)
    | (refine keeps_of_fst (by with_reducible assumption) ?_)
    | dsimp only

theorem State.badReq_keeps {K : Kept} {s a1 a2} (h : keeps K s) :
    keeps K (State.badReq s a1 a2) := by
  unfold State.badReq
  repeat' first
    | with_reducible assumption
    | (intro x; first | (refine keeps_cut K x ?_ ?_; rotate_left; intro hx; (try clear_value x); rotate_right; unfold x) | clear_value x | skip)
    | lift_lets
    | with_reducible apply State.cohErr_keeps
    | with_reducible apply State.finish_keeps

theorem State.serveHeld_keeps {K : Kept} (hm : K.stored = none) {s a1} (h : keeps K s) :
    keeps K (State.serveHeld s a1).1 := by
  unfold State.serveHeld
  repeat' first
    | with_reducible assumption
    | (intro x; first | (refine keeps_cut K x ?_ ?_; rotate_left; intro hx; (try clear_value x); rotate_right; unfold x) | (refine keeps_cut K x.1 ?_ ?_; rotate_left; intro hx; (try clear_value x); rotate_right; unfold x) | clear_value x | skip)
    | lift_lets
    | with_reducible apply State.badReq_keeps
    | with_reducible apply State.deliverMem_keeps hm
    | with_reducible apply State.openFor_keeps hm
    | with_reducible apply keeps_ite
    | split
    | dsimp only
    | (refine keeps_of_snd (by with_reducible assumption) ?_)
    | (refine keeps_of_fst (by with_reducible assumption) ?_)
    | dsimp only

theorem State.serve_keeps {K : Kept} (hm : K.stored = none) {s a1} (h : keeps K s) :
    keeps K (State.serve s a1).1 := by
  unfold State.serve
  repeat' first
    | with_reducible assumption
    | (intro x; first | (refine keeps_cut K x ?_ ?_; rotate_left; intro hx; (try clear_value x); rotate_right; unfold x) | (refine keeps_cut K x.1 ?_ ?_; rotate_left; intro hx; (try clear_value x); rotate_right; unfold x) | (refine keeps_cut K x.2 ?_ ?_; rotate_left; intro hx; (try clear_value x); rotate_right; unfold x) | clear_value x | skip)
    | lift_lets
    | with_reducible apply State.serveHeld_keeps hm
    | with_reducible apply State.serveU_keeps hm
    | with_reducible apply State.takeWay_keeps hm
    | with_reducible apply State.touchDir_keeps
    | with_reducible apply State.deliverMem_keeps hm
    | with_reducible apply State.startUnk_keeps hm
    | with_reducible apply State.openFor_keeps hm
    | with_reducible apply State.waitFull_keeps
    | with_reducible apply State.accAccept_keeps hm
    | with_reducible apply State.accEnd_keeps hm
    | with_reducible apply State.accFlush_keeps hm
    | with_reducible apply State.finish_keeps
    | with_reducible apply State.noteLostWrite_keeps
    | with_reducible apply State.pageHint_keeps
    | with_reducible apply State.bump_keeps
    | with_reducible apply keeps_ite
    | split
    | dsimp only
    | (refine keeps_of_snd (by with_reducible assumption) ?_)
    | (refine keeps_of_fst (by with_reducible assumption) ?_)
    | dsimp only

theorem State.noteKinds_keeps {K : Kept} {s a1 a2} (h : keeps K s) :
    keeps K (State.noteKinds s a1 a2) := by
  induction a2 generalizing s a1 with
  | nil =>
    first | rw [State.noteKinds] | unfold State.noteKinds
    repeat' first
      | with_reducible assumption
      | (intro x; first | (refine keeps_cut K x ?_ ?_; rotate_left; intro hx; (try clear_value x); rotate_right; unfold x) | clear_value x | skip)
      | lift_lets
      | with_reducible apply State.setOct_keeps
      | with_reducible apply State.protoErr_keeps
      | with_reducible apply State.bump_keeps
  | cons y t ih =>
    first | rw [State.noteKinds] | unfold State.noteKinds
    repeat' first
      | with_reducible assumption
      | (intro x; first | (refine keeps_cut K x ?_ ?_; rotate_left; intro hx; (try clear_value x); rotate_right; unfold x) | clear_value x | skip)
      | lift_lets
      | with_reducible apply ih
      | with_reducible apply State.setOct_keeps
      | with_reducible apply State.protoErr_keeps
      | with_reducible apply State.bump_keeps

theorem State.endUnk_keeps {K : Kept} (hm : K.stored = none) {s a1 a2} (h : keeps K s) :
    keeps K (State.endUnk s a1 a2) := by
  unfold State.endUnk
  repeat' first
    | with_reducible assumption
    | (intro x; first | (refine keeps_cut K x ?_ ?_; rotate_left; intro hx; (try clear_value x); rotate_right; unfold x) | clear_value x | skip)
    | lift_lets
    | with_reducible apply State.noteKinds_keeps
    | with_reducible apply State.openTxn_keeps hm
    | with_reducible apply State.setDir_keeps
    | with_reducible apply keeps_foldl
    | with_reducible apply keeps_foldl_fst
    | with_reducible apply keeps_foldl_snd
    | split
    | dsimp only

theorem State.passWay_keeps {K : Kept} {s a1 a2} (h : keeps K s) :
    keeps K (State.passWay s a1 a2).1 := by
  unfold State.passWay
  repeat' first
    | with_reducible assumption
    | (intro x; first | (refine keeps_cut K x ?_ ?_; rotate_left; intro hx; (try clear_value x); rotate_right; unfold x) | (refine keeps_cut K x.1 ?_ ?_; rotate_left; intro hx; (try clear_value x); rotate_right; unfold x) | clear_value x | skip)
    | lift_lets
    | with_reducible apply State.tick_keeps
    | with_reducible apply State.setDir_keeps
    | split
    | dsimp only
    | (refine keeps_of_snd (by with_reducible assumption) ?_)
    | (refine keeps_of_fst (by with_reducible assumption) ?_)
    | dsimp only

theorem State.formGrant_keeps {K : Kept} {s a1 a2 a3 a4 a5} (h : keeps K s) :
    keeps K (State.formGrant s a1 a2 a3 a4 a5) := by
  unfold State.formGrant
  repeat' first
    | with_reducible assumption
    | (intro x; first | (refine keeps_cut K x ?_ ?_; rotate_left; intro hx; (try clear_value x); rotate_right; unfold x) | clear_value x | skip)
    | lift_lets
    | with_reducible apply State.finish_keeps
    | with_reducible apply State.dropReq_keeps
    | with_reducible apply State.countDelivered_keeps
    | with_reducible apply State.setDir_keeps
    | with_reducible apply State.bump_keeps
    | with_reducible apply keeps_ite
    | split
    | dsimp only

theorem State.endRds_keeps {K : Kept} (hm : K.stored = none) {s a1 a2} (h : keeps K s) :
    keeps K (State.endRds s a1 a2) := by
  unfold State.endRds
  repeat' first
    | with_reducible assumption
    | (intro x; first | (refine keeps_cut K x ?_ ?_; rotate_left; intro hx; (try clear_value x); rotate_right; unfold x) | (refine keeps_cut K x.2.2 ?_ ?_; rotate_left; intro hx; (try clear_value x); rotate_right; unfold x) | (refine keeps_cutg3 K x ?_ ?_; rotate_left; intro hf; (try clear_value x); rotate_right; unfold x) | clear_value x | skip)
    | lift_lets
    | with_reducible apply hf
    | with_reducible apply State.formGrant_keeps
    | with_reducible apply State.txnVal_keeps hm
    | with_reducible apply keeps_ite
    | split
    | dsimp only

theorem State.endOwn_keeps {K : Kept} (hm : K.stored = none) {s a1 a2} (h : keeps K s) :
    keeps K (State.endOwn s a1 a2) := by
  unfold State.endOwn
  repeat' first
    | with_reducible assumption
    | (intro x; first | (refine keeps_cut K x ?_ ?_; rotate_left; intro hx; (try clear_value x); rotate_right; unfold x) | (refine keeps_cut K x.2.2 ?_ ?_; rotate_left; intro hx; (try clear_value x); rotate_right; unfold x) | clear_value x | skip)
    | lift_lets
    | with_reducible apply State.formGrant_keeps
    | with_reducible apply State.txnVal_keeps hm
    | with_reducible apply keeps_ite
    | split

theorem State.complete_keeps {K : Kept} (hm : K.stored = none) {s a1 a2} (h : keeps K s) :
    keeps K (State.complete s a1 a2).1 := by
  unfold State.complete
  repeat' first
    | with_reducible assumption
    | (intro x; first | (refine keeps_cut K x ?_ ?_; rotate_left; intro hx; (try clear_value x); rotate_right; unfold x) | (refine keeps_cut K x.1 ?_ ?_; rotate_left; intro hx; (try clear_value x); rotate_right; unfold x) | clear_value x | skip)
    | lift_lets
    | with_reducible apply State.endOwn_keeps hm
    | with_reducible apply State.endRds_keeps hm
    | with_reducible apply State.passWay_keeps
    | with_reducible apply State.endUnk_keeps hm
    | with_reducible apply State.endOnce_keeps hm
    | with_reducible apply State.updReq_keeps
    | with_reducible apply State.poisonCw_keeps hm
    | with_reducible apply State.setDir_keeps
    | with_reducible apply keeps_ite
    | split
    | dsimp only
    | (refine keeps_of_snd (by with_reducible assumption) ?_)
    | (refine keeps_of_fst (by with_reducible assumption) ?_)
    | dsimp only

theorem State.startRecall_keeps {K : Kept} (hm : K.stored = none) {s a1} (h : keeps K s) :
    keeps K (State.startRecall s a1).1 := by
  unfold State.startRecall
  repeat' first
    | with_reducible assumption
    | (intro x; first | (refine keeps_cut K x ?_ ?_; rotate_left; intro hx; (try clear_value x); rotate_right; unfold x) | (refine keeps_cut K x.1 ?_ ?_; rotate_left; intro hx; (try clear_value x); rotate_right; unfold x) | clear_value x | skip)
    | lift_lets
    | with_reducible apply State.openTxn_keeps hm
    | with_reducible apply State.accEnd_keeps hm
    | with_reducible apply State.flushMerge_keeps hm
    | with_reducible apply State.setDir_keeps
    | with_reducible apply keeps_ite
    | split
    | dsimp only

theorem State.settle_keeps {K : Kept} (hm : K.stored = none) {a0 a1 s} (h : keeps K s) :
    keeps K (State.settle a0 a1 s) := by
  induction a0 generalizing a1 s with
  | zero =>
    first | rw [State.settle] | unfold State.settle
    repeat' first
      | with_reducible assumption
      | (intro x; first | (refine keeps_cut K x ?_ ?_; rotate_left; intro hx; (try clear_value x); rotate_right; unfold x) | (refine keeps_cut K x.1 ?_ ?_; rotate_left; intro hx; (try clear_value x); rotate_right; unfold x) | clear_value x | skip)
      | lift_lets
      | with_reducible apply State.startRecall_keeps hm
      | with_reducible apply State.complete_keeps hm
      | with_reducible apply State.serve_keeps hm
      | with_reducible apply State.startSingle_keeps hm
      | with_reducible apply State.setDir_keeps
      | with_reducible apply keeps_ite
      | split
      | dsimp only
      | (refine keeps_of_snd (by with_reducible assumption) ?_)
      | (refine keeps_of_fst (by with_reducible assumption) ?_)
  | succ n ih =>
    cases a1 with
    | nil =>
      unfold State.settle
      exact h
    | cons y t =>
      rw [State.settle]
      repeat' first
        | with_reducible assumption
        | (intro x; first | (refine keeps_cut K x ?_ ?_; rotate_left; intro hx; (try clear_value x); rotate_right; unfold x) | (refine keeps_cut K x.1 ?_ ?_; rotate_left; intro hx; (try clear_value x); rotate_right; unfold x) | clear_value x | skip)
        | lift_lets
        | with_reducible apply ih
        | with_reducible apply State.startRecall_keeps hm
        | with_reducible apply State.complete_keeps hm
        | with_reducible apply State.serve_keeps hm
        | with_reducible apply State.startSingle_keeps hm
        | with_reducible apply State.setDir_keeps
        | with_reducible apply keeps_ite
        | split
        | dsimp only
        | (refine keeps_of_snd (by with_reducible assumption) ?_)
        | (refine keeps_of_fst (by with_reducible assumption) ?_)

theorem State.work_keeps {K : Kept} (hm : K.stored = none) {s a1} (h : keeps K s) :
    keeps K (State.work s a1) := by
  unfold State.work
  repeat' first
    | with_reducible assumption
    | with_reducible apply State.settle_keeps hm

theorem State.finishHeldWbd_keeps {K : Kept} {s a1 a2} (h : keeps K s) :
    keeps K (State.finishHeldWbd s a1 a2) := by
  unfold State.finishHeldWbd
  repeat' first
    | with_reducible assumption
    | with_reducible apply State.finish_keeps
    | with_reducible apply keeps_ite
    | split

theorem State.takeAnswer_keeps {K : Kept} (hm : K.stored = none) {s a1 a2 a3 a4 a5 a6} (h : keeps K s) :
    keeps K (State.takeAnswer s a1 a2 a3 a4 a5 a6) := by
  unfold State.takeAnswer
  repeat' first
    | with_reducible assumption
    | (intro x; first | (refine keeps_cut K x ?_ ?_; rotate_left; intro hx; (try clear_value x); rotate_right; unfold x) | clear_value x | skip)
    | lift_lets
    | with_reducible apply State.finishHeldWbd_keeps
    | with_reducible apply State.homeData_keeps hm
    | with_reducible apply State.setDir_keeps
    | with_reducible apply keeps_ite
    | split
    | dsimp only

theorem State.respond_keeps {K : Kept} (hm : K.stored = none) {s a1 a2 a3 a4 a5 a6 a7 a8} (h : keeps K s) :
    keeps K (State.respond s a1 a2 a3 a4 a5 a6 a7 a8) := by
  unfold State.respond
  repeat' first
    | with_reducible assumption
    | (intro x; first | (refine keeps_cut K x ?_ ?_; rotate_left; intro hx; (try clear_value x); rotate_right; unfold x) | (refine keeps_cutf K x ?_ ?_; rotate_left; intro hf; (try clear_value x); rotate_right; unfold x) | clear_value x | skip)
    | lift_lets
    | with_reducible apply hf
    | with_reducible apply State.takeAnswer_keeps hm
    | with_reducible apply State.work_keeps hm
    | with_reducible apply State.homeData_keeps hm
    | with_reducible apply State.badRsp_keeps
    | with_reducible apply State.cohErr_keeps
    | with_reducible apply State.bump_keeps
    | with_reducible apply keeps_ite
    | split
    | simp only [keeps_upd_eq]
    | dsimp only

theorem State.ackLine_keeps {K : Kept} (hm : K.stored = none) {s t : State} {l i : Nat} (e : s.ackLine l i = some t) (h : keeps K s) :
    keeps K t := by
  unfold State.ackLine at e
  dsimp only at e
  split at e
  · split at e
    · cases e
      exact State.work_keeps hm (State.setDir_keeps h)
    · cases e
  · cases e

theorem State.ackLine_getD_keeps {K : Kept} (hm : K.stored = none) {s d : State} {l i : Nat} (h : keeps K s) (hd : keeps K d) :
    keeps K ((s.ackLine l i).getD d) := by
  cases e : s.ackLine l i with
  | none => exact hd
  | some t => exact State.ackLine_keeps hm e h

theorem State.straggler_keeps {K : Kept} {s a1} (h : keeps K s) :
    keeps K (State.straggler s a1) := by
  unfold State.straggler
  repeat' first
    | with_reducible assumption
    | (intro x; first | (refine keeps_cut K x ?_ ?_; rotate_left; intro hx; (try clear_value x); rotate_right; unfold x) | clear_value x | skip)
    | lift_lets
    | with_reducible apply State.setExt_keeps
    | with_reducible apply State.bump_keeps

theorem State.gntAck_keeps {K : Kept} (hm : K.stored = none) {s a1 a2 a3 a4 a5} (h : keeps K s) :
    keeps K (State.gntAck s a1 a2 a3 a4 a5) := by
  unfold State.gntAck
  repeat' first
    | with_reducible assumption
    | (intro x; first | (refine keeps_cut K x ?_ ?_; rotate_left; intro hx; (try clear_value x); rotate_right; unfold x) | clear_value x | skip)
    | lift_lets
    | (refine State.ackLine_keeps hm (by with_reducible assumption) ?_)
    | with_reducible apply State.badRsp_keeps
    | with_reducible apply State.violation_keeps
    | with_reducible apply State.bump_keeps
    | with_reducible apply keeps_ite
    | split
    | simp only [keeps_upd_eq]
    | dsimp only

theorem State.evc_keeps {K : Kept} {s a1} (h : keeps K s) :
    keeps K (State.evc s a1) := by
  unfold State.evc
  repeat' first
    | with_reducible assumption
    | (intro x; first | (refine keeps_cut K x ?_ ?_; rotate_left; intro hx; (try clear_value x); rotate_right; unfold x) | (refine keeps_cutg K x ?_ ?_; rotate_left; intro hf; (try clear_value x); rotate_right; unfold x) | clear_value x | skip)
    | lift_lets
    | with_reducible apply hf
    | with_reducible apply State.badReq_keeps
    | with_reducible apply State.finish_keeps
    | with_reducible apply State.setDir_keeps
    | with_reducible apply keeps_ite
    | split
    | dsimp only

theorem State.takeWbd_keeps {K : Kept} (hm : K.stored = none) {s a1} (h : keeps K s) :
    keeps K (State.takeWbd s a1) := by
  unfold State.takeWbd
  repeat' first
    | with_reducible assumption
    | with_reducible apply State.homeData_keeps hm
    | with_reducible apply State.finish_keeps
    | with_reducible apply State.noteLostWrite_keeps
    | with_reducible apply State.pageHint_keeps
    | with_reducible apply keeps_ite
    | split

theorem State.wbd_keeps {K : Kept} (hm : K.stored = none) {s a1} (h : keeps K s) :
    keeps K (State.wbd s a1) := by
  unfold State.wbd
  repeat' first
    | with_reducible assumption
    | (intro x; first | (refine keeps_cut K x ?_ ?_; rotate_left; intro hx; (try clear_value x); rotate_right; unfold x) | clear_value x | skip)
    | lift_lets
    | with_reducible apply State.takeWbd_keeps hm
    | with_reducible apply State.badReq_keeps
    | with_reducible apply State.served_keeps
    | with_reducible apply State.homeData_keeps hm
    | with_reducible apply State.finish_keeps
    | with_reducible apply State.noteLostWrite_keeps
    | with_reducible apply State.setDir_keeps
    | with_reducible apply keeps_ite
    | split
    | dsimp only

theorem State.homeAct_keeps {K : Kept} (hm : K.stored = none) {s a1} (h : keeps K s) :
    keeps K (State.homeAct s a1) := by
  unfold State.homeAct
  repeat' first
    | with_reducible assumption
    | (intro x; first | (refine keeps_cut K x ?_ ?_; rotate_left; intro hx; (try clear_value x); rotate_right; unfold x) | (refine keeps_cut K x.1 ?_ ?_; rotate_left; intro hx; (try clear_value x); rotate_right; unfold x) | clear_value x | skip)
    | lift_lets
    | with_reducible apply State.wbd_keeps hm
    | with_reducible apply State.evc_keeps
    | with_reducible apply State.straggler_keeps
    | with_reducible apply State.work_keeps hm
    | with_reducible apply State.serve_keeps hm
    | with_reducible apply State.waitFull_keeps
    | with_reducible apply State.finish_keeps
    | with_reducible apply State.updReq_keeps
    | with_reducible apply State.setDir_keeps
    | with_reducible apply State.bump_keeps
    | with_reducible apply keeps_ite
    | split
    | dsimp only
    | (refine keeps_of_snd (by with_reducible assumption) ?_)
    | (refine keeps_of_fst (by with_reducible assumption) ?_)

theorem State.serialise_keeps {K : Kept} (hm : K.stored = none) {s a1 a2 a3 a4 a5} (h : keeps K s) :
    keeps K (State.serialise s a1 a2 a3 a4 a5) := by
  unfold State.serialise
  repeat' first
    | with_reducible assumption
    | (intro x; first | (refine keeps_cut K x ?_ ?_; rotate_left; intro hx; (try clear_value x); rotate_right; unfold x) | clear_value x | skip)
    | lift_lets
    | with_reducible apply State.homeAct_keeps hm
    | with_reducible apply State.updReq_keeps
    | with_reducible apply State.meet_keeps
    | with_reducible apply keeps_ite
    | split
    | dsimp only

theorem State.undoGrant_keeps {K : Kept} (hm : K.stored = none) {s a1 a2 a3} (h : keeps K s) :
    keeps K (State.undoGrant s a1 a2 a3) := by
  unfold State.undoGrant
  repeat' first
    | with_reducible assumption
    | (intro x; first | (refine keeps_cut K x ?_ ?_; rotate_left; intro hx; (try clear_value x); rotate_right; unfold x) | clear_value x | skip)
    | lift_lets
    | with_reducible apply State.work_keeps hm
    | with_reducible apply State.setDir_keeps
    | with_reducible apply keeps_ite
    | split
    | dsimp only

theorem State.evictAccepted_keeps {K : Kept} (hm : K.stored = none) {s a1} (h : keeps K s) :
    keeps K (State.evictAccepted s a1) := by
  unfold State.evictAccepted
  repeat' first
    | with_reducible assumption
    | (intro x; first | (refine keeps_cut K x ?_ ?_; rotate_left; intro hx; (try clear_value x); rotate_right; unfold x) | (refine keeps_cut K x.1 ?_ ?_; rotate_left; intro hx; (try clear_value x); rotate_right; unfold x) | clear_value x | skip)
    | lift_lets
    | with_reducible apply State.work_keeps hm
    | with_reducible apply State.passWay_keeps
    | with_reducible apply State.homeData_keeps hm
    | split
    | dsimp only
    | (refine keeps_of_snd (by with_reducible assumption) ?_)
    | (refine keeps_of_fst (by with_reducible assumption) ?_)

theorem State.snpEgress_keeps {K : Kept} {s a1 a2 a3} (h : keeps K s) :
    keeps K (State.snpEgress s a1 a2 a3) := by
  unfold State.snpEgress
  repeat' first
    | with_reducible assumption
    | (intro x; first | (refine keeps_cut K x ?_ ?_; rotate_left; intro hx; (try clear_value x); rotate_right; unfold x) | clear_value x | skip)
    | lift_lets
    | with_reducible apply State.send_keeps
    | with_reducible apply State.bump_keeps
    | with_reducible apply keeps_ite
    | split
    | simp only [keeps_upd_eq]
    | dsimp only

theorem State.cmpEgress_keeps {K : Kept} {s a1 a2 a3} (h : keeps K s) :
    keeps K (State.cmpEgress s a1 a2 a3) := by
  unfold State.cmpEgress
  repeat' first
    | with_reducible assumption
    | (intro x; first | (refine keeps_cut K x ?_ ?_; rotate_left; intro hx; (try clear_value x); rotate_right; unfold x) | clear_value x | skip)
    | lift_lets
    | with_reducible apply State.dropReq_keeps
    | with_reducible apply State.send_keeps
    | with_reducible apply keeps_ite
    | split
    | simp only [keeps_upd_eq]
    | dsimp only

end Sys2Proof.Machine
end

