-- ==== Sys2Proof/Laws/KeepsChart.lean ====
section
/-! SUPPORT. Sys2Proof/Laws/KeepsChart.lean: what the operations of Chart, Extents, Service, Inside, Units keep. -/

namespace Sys2Proof.Machine

open Sys2Proof

theorem State.noteNamer_keeps {K : Kept} {s a1 a2} (h : keeps K s) :
    keeps K (State.noteNamer s a1 a2) := by
  unfold State.noteNamer
  repeat' first
    | with_reducible assumption
    | (intro x; first | (refine keeps_cut K x ?_ ?_; rotate_left; intro hx; (try clear_value x); rotate_right; unfold x) | clear_value x | skip)
    | lift_lets
    | with_reducible apply State.setExt_keeps
    | split
    | dsimp only

theorem State.unbind_keeps {K : Kept} {s a1 a2} (h : keeps K s) :
    keeps K (State.unbind s a1 a2) := by
  unfold State.unbind
  repeat' first
    | with_reducible assumption
    | (intro x; first | (refine keeps_cut K x ?_ ?_; rotate_left; intro hx; (try clear_value x); rotate_right; unfold x) | clear_value x | skip)
    | lift_lets
    | with_reducible apply State.setAgent_keeps

theorem State.writeBinding_keeps {K : Kept} {s a1 a2 a3} (h : keeps K s) :
    keeps K (State.writeBinding s a1 a2 a3).2 := by
  unfold State.writeBinding
  repeat' first
    | with_reducible assumption
    | (intro x; first | (refine keeps_cut K x ?_ ?_; rotate_left; intro hx; (try clear_value x); rotate_right; unfold x) | (refine keeps_cut K x.2 ?_ ?_; rotate_left; intro hx; (try clear_value x); rotate_right; unfold x) | clear_value x | skip)
    | lift_lets
    | with_reducible apply State.unbind_keeps
    | with_reducible apply State.setOv_keeps
    | with_reducible apply keeps_ite
    | with_reducible apply keeps_ite_snd
    | split
    | dsimp only

theorem State.applyEntry_keeps {K : Kept} {s a1 a2 a3} (h : keeps K s) :
    keeps K (State.applyEntry s a1 a2 a3).1 := by
  unfold State.applyEntry
  repeat' first
    | with_reducible assumption
    | (intro x; first | (refine keeps_cut K x ?_ ?_; rotate_left; intro hx; (try clear_value x); rotate_right; unfold x) | (refine keeps_cut K x.1 ?_ ?_; rotate_left; intro hx; (try clear_value x); rotate_right; unfold x) | clear_value x | skip)
    | lift_lets
    | with_reducible apply State.setTarget_keeps
    | with_reducible apply State.setEntry_keeps
    | with_reducible apply keeps_ite
    | split
    | dsimp only

theorem State.applyEntries_keeps {K : Kept} {s a1 a2 a3} (h : keeps K s) :
    keeps K (State.applyEntries s a1 a2 a3).1 := by
  induction a3 generalizing s a1 a2 with
  | nil =>
    first | rw [State.applyEntries] | unfold State.applyEntries
    repeat' first
      | with_reducible assumption
      | (intro x; first | (refine keeps_cut K x ?_ ?_; rotate_left; intro hx; (try clear_value x); rotate_right; unfold x) | (refine keeps_cut K x.1 ?_ ?_; rotate_left; intro hx; (try clear_value x); rotate_right; unfold x) | clear_value x | skip)
      | lift_lets
      | with_reducible apply State.applyEntry_keeps
      | with_reducible apply keeps_ite
      | split
      | dsimp only
  | cons y t ih =>
    first | rw [State.applyEntries] | unfold State.applyEntries
    repeat' first
      | with_reducible assumption
      | (intro x; first | (refine keeps_cut K x ?_ ?_; rotate_left; intro hx; (try clear_value x); rotate_right; unfold x) | (refine keeps_cut K x.1 ?_ ?_; rotate_left; intro hx; (try clear_value x); rotate_right; unfold x) | clear_value x | skip)
      | lift_lets
      | with_reducible apply ih
      | with_reducible apply State.applyEntry_keeps
      | with_reducible apply keeps_ite
      | split
      | dsimp only

theorem State.dropPages_keeps {K : Kept} {s a1 a2} (h : keeps K s) :
    keeps K (State.dropPages s a1 a2) := by
  unfold State.dropPages
  repeat' first
    | with_reducible assumption
    | (intro x; first | (refine keeps_cut K x ?_ ?_; rotate_left; intro hx; (try clear_value x); rotate_right; unfold x) | clear_value x | skip)
    | lift_lets
    | simp only [keeps_upd_eq]

theorem State.retryHeld_keeps {K : Kept} {s a1 a2} (h : keeps K s) :
    keeps K (State.retryHeld s a1 a2) := by
  unfold State.retryHeld
  repeat' first
    | with_reducible assumption
    | (intro x; first | (refine keeps_cut K x ?_ ?_; rotate_left; intro hx; (try clear_value x); rotate_right; unfold x) | clear_value x | skip)
    | lift_lets
    | with_reducible apply State.retranslate_keeps
    | with_reducible apply keeps_ite
    | split
    | simp only [keeps_upd_eq]
    | dsimp only

theorem State.setCommits_keeps {K : Kept} {s a1} (h : keeps K s) :
    keeps K (State.setCommits s a1) := by
  unfold State.setCommits
  repeat' first
    | with_reducible assumption
    | (intro x; first | (refine keeps_cut K x ?_ ?_; rotate_left; intro hx; (try clear_value x); rotate_right; unfold x) | clear_value x | skip)
    | lift_lets
    | simp only [keeps_upd_eq]

theorem State.applyCommit_keeps {K : Kept} {s a1 a2} (h : keeps K s) :
    keeps K (State.applyCommit s a1 a2) := by
  unfold State.applyCommit
  repeat' first
    | with_reducible assumption
    | (intro x; first | (refine keeps_cut K x ?_ ?_; rotate_left; intro hx; (try clear_value x); rotate_right; unfold x) | (refine keeps_cut K x.1 ?_ ?_; rotate_left; intro hx; (try clear_value x); rotate_right; unfold x) | clear_value x | skip)
    | lift_lets
    | with_reducible apply State.setCommits_keeps
    | with_reducible apply State.retryHeld_keeps
    | with_reducible apply State.dropPages_keeps
    | with_reducible apply State.applyEntries_keeps
    | with_reducible apply State.bump_keeps
    | with_reducible apply State.setOv_keeps
    | with_reducible apply keeps_ite
    | split
    | simp only [keeps_upd_eq]

theorem State.applyPoint_keeps {K : Kept} {s a1} (h : keeps K s) :
    keeps K (State.applyPoint s a1) := by
  unfold State.applyPoint
  repeat' first
    | with_reducible assumption
    | with_reducible apply State.applyCommit_keeps
    | with_reducible apply State.bump_keeps
    | with_reducible apply keeps_ite
    | split

theorem State.stgClear_keeps {K : Kept} {s a1 a2} (h : keeps K s) :
    keeps K (State.stgClear s a1 a2) := by
  unfold State.stgClear
  repeat' first
    | with_reducible assumption
    | (intro x; first | (refine keeps_cut K x ?_ ?_; rotate_left; intro hx; (try clear_value x); rotate_right; unfold x) | clear_value x | skip)
    | lift_lets
    | with_reducible apply State.setBank_keeps

theorem State.endCommit_keeps {K : Kept} {s a1 a2 a3} (h : keeps K s) :
    keeps K (State.endCommit s a1 a2 a3) := by
  unfold State.endCommit
  repeat' first
    | with_reducible assumption
    | (intro x; first | (refine keeps_cut K x ?_ ?_; rotate_left; intro hx; (try clear_value x); rotate_right; unfold x) | clear_value x | skip)
    | lift_lets
    | with_reducible apply State.setCommits_keeps
    | with_reducible apply State.setBank_keeps

theorem State.drainDone_keeps {K : Kept} {s a1} (h : keeps K s) :
    keeps K (State.drainDone s a1) := by
  unfold State.drainDone
  repeat' first
    | with_reducible assumption
    | (intro x; first | (refine keeps_cut K x ?_ ?_; rotate_left; intro hx; (try clear_value x); rotate_right; unfold x) | clear_value x | skip)
    | lift_lets
    | with_reducible apply State.endCommit_keeps
    | with_reducible apply State.setCommits_keeps
    | with_reducible apply State.setOv_keeps
    | with_reducible apply keeps_ite
    | split
    | dsimp only

theorem State.addInternals_keeps {K : Kept} {s a1 a2} (h : keeps K s) :
    keeps K (State.addInternals s a1 a2) := by
  unfold State.addInternals
  repeat' first
    | with_reducible assumption
    | with_reducible apply State.setCommits_keeps

theorem State.readback_keeps {K : Kept} {s a1 a2} (h : keeps K s) :
    keeps K (State.readback s a1 a2) := by
  unfold State.readback
  repeat' first
    | with_reducible assumption
    | (intro x; first | (refine keeps_cut K x ?_ ?_; rotate_left; intro hx; (try clear_value x); rotate_right; unfold x) | (refine keeps_cutg3 K x ?_ ?_; rotate_left; intro hf; (try clear_value x); rotate_right; unfold x) | clear_value x | skip)
    | lift_lets
    | with_reducible apply hf
    | with_reducible apply State.setBank_keeps
    | with_reducible apply keeps_ite
    | with_reducible apply keeps_foldl
    | with_reducible apply keeps_foldl_fst
    | with_reducible apply keeps_foldl_snd
    | split
    | dsimp only

theorem State.rejectCommit_keeps {K : Kept} {s a1 a2 a3} (h : keeps K s) :
    keeps K (State.rejectCommit s a1 a2 a3) := by
  unfold State.rejectCommit
  repeat' first
    | with_reducible assumption
    | with_reducible apply State.endCommit_keeps
    | with_reducible apply State.bump_keeps
    | with_reducible apply State.setOv_keeps

theorem State.writeGeometry_keeps {K : Kept} {s a1 a2 a3} (h : keeps K s) :
    keeps K (State.writeGeometry s a1 a2 a3).2 := by
  unfold State.writeGeometry
  repeat' first
    | with_reducible assumption
    | (intro x; first | (refine keeps_cut K x ?_ ?_; rotate_left; intro hx; (try clear_value x); rotate_right; unfold x) | (refine keeps_cut K x.2 ?_ ?_; rotate_left; intro hx; (try clear_value x); rotate_right; unfold x) | clear_value x | skip)
    | lift_lets
    | with_reducible apply State.setOv_keeps
    | with_reducible apply keeps_ite
    | with_reducible apply keeps_ite_snd
    | split
    | dsimp only

theorem State.internalCommit_keeps {K : Kept} {s a1} (h : keeps K s) :
    keeps K (State.internalCommit s a1) := by
  unfold State.internalCommit
  repeat' first
    | with_reducible assumption
    | (intro x; first | (refine keeps_cut K x ?_ ?_; rotate_left; intro hx; (try clear_value x); rotate_right; unfold x) | clear_value x | skip)
    | lift_lets
    | with_reducible apply State.applyCommit_keeps
    | with_reducible apply State.setCommits_keeps
    | with_reducible apply State.noteNamer_keeps
    | with_reducible apply State.queueRec_keeps
    | with_reducible apply State.bump_keeps
    | with_reducible apply keeps_ite
    | split
    | dsimp only

theorem State.stgWrites_keeps {K : Kept} {s a1 a2 a3} (h : keeps K s) :
    keeps K (State.stgWrites s a1 a2 a3) := by
  induction a3 generalizing s a1 a2 with
  | nil =>
    first | rw [State.stgWrites] | unfold State.stgWrites
    repeat' first
      | with_reducible assumption
      | with_reducible apply State.setBank_keeps
  | cons y t ih =>
    first | rw [State.stgWrites] | unfold State.stgWrites
    repeat' first
      | with_reducible assumption
      | with_reducible apply ih
      | with_reducible apply State.setBank_keeps

theorem State.commitTurn_keeps {K : Kept} {s a1} (h : keeps K s) :
    keeps K (State.commitTurn s a1) := by
  unfold State.commitTurn
  repeat' first
    | with_reducible assumption
    | (intro x; first | (refine keeps_cut K x ?_ ?_; rotate_left; intro hx; (try clear_value x); rotate_right; unfold x) | clear_value x | skip)
    | lift_lets
    | with_reducible apply State.rejectCommit_keeps
    | with_reducible apply State.setCommits_keeps
    | with_reducible apply State.bump_keeps
    | with_reducible apply keeps_ite
    | split
    | dsimp only

theorem State.mirrorFields_keeps {K : Kept} {s a1} (h : keeps K s) :
    keeps K (State.mirrorFields s a1) := by
  unfold State.mirrorFields
  repeat' first
    | with_reducible assumption
    | (intro x; first | (refine keeps_cut K x ?_ ?_; rotate_left; intro hx; (try clear_value x); rotate_right; unfold x) | clear_value x | skip)
    | lift_lets
    | with_reducible apply keeps_ite
    | split
    | simp only [keeps_upd_eq]

theorem State.shootdownAck_keeps {K : Kept} {s a1} (h : keeps K s) :
    keeps K (State.shootdownAck s a1) := by
  unfold State.shootdownAck
  repeat' first
    | with_reducible assumption
    | with_reducible apply State.setCommits_keeps
    | with_reducible apply keeps_ite
    | split

theorem State.stgCmd_keeps {K : Kept} {s a1 a2 a3 a4} (h : keeps K s) :
    keeps K (State.stgCmd s a1 a2 a3 a4) := by
  unfold State.stgCmd
  repeat' first
    | with_reducible assumption
    | (intro x; first | (refine keeps_cut K x ?_ ?_; rotate_left; intro hx; (try clear_value x); rotate_right; unfold x) | clear_value x | skip)
    | lift_lets
    | with_reducible apply State.stgWrites_keeps
    | with_reducible apply State.readback_keeps
    | with_reducible apply State.stgClear_keeps
    | with_reducible apply State.setBank_keeps
    | with_reducible apply keeps_ite
    | split
    | simp only [keeps_upd_eq]
    | dsimp only

theorem State.grantIssue_keeps {K : Kept} {s} (h : keeps K s) :
    keeps K (State.grantIssue s).2 := by
  unfold State.grantIssue
  repeat' first
    | with_reducible assumption
    | (intro x; first | (refine keeps_cut K x ?_ ?_; rotate_left; intro hx; (try clear_value x); rotate_right; unfold x) | (refine keeps_cut K x.2 ?_ ?_; rotate_left; intro hx; (try clear_value x); rotate_right; unfold x) | clear_value x | skip)
    | lift_lets
    | with_reducible apply State.setOct_keeps
    | with_reducible apply keeps_ite
    | with_reducible apply keeps_ite_snd
    | split
    | dsimp only
    | (refine keeps_of_snd (by with_reducible assumption) ?_)
    | (refine keeps_of_fst (by with_reducible assumption) ?_)
    | dsimp only

theorem State.extDone_keeps {K : Kept} {s a1} (h : keeps K s) :
    keeps K (State.extDone s a1) := by
  unfold State.extDone
  repeat' first
    | with_reducible assumption
    | (intro x; first | (refine keeps_cut K x ?_ ?_; rotate_left; intro hx; (try clear_value x); rotate_right; unfold x) | clear_value x | skip)
    | lift_lets
    | with_reducible apply State.setOv_keeps
    | simp only [keeps_upd_eq]

theorem State.startClose_keeps {K : Kept} {s a1} (h : keeps K s) :
    keeps K (State.startClose s a1) := by
  unfold State.startClose
  repeat' first
    | with_reducible assumption
    | (intro x; first | (refine keeps_cut K x ?_ ?_; rotate_left; intro hx; (try clear_value x); rotate_right; unfold x) | clear_value x | skip)
    | lift_lets
    | with_reducible apply State.addInternals_keeps
    | with_reducible apply State.setExt_keeps
    | split
    | dsimp only

theorem State.enterClose_keeps {K : Kept} {s a1} (h : keeps K s) :
    keeps K (State.enterClose s a1) := by
  unfold State.enterClose
  repeat' first
    | with_reducible assumption
    | (intro x; first | (refine keeps_cut K x ?_ ?_; rotate_left; intro hx; (try clear_value x); rotate_right; unfold x) | clear_value x | skip)
    | lift_lets
    | with_reducible apply State.startClose_keeps
    | with_reducible apply State.setExt_keeps
    | with_reducible apply keeps_ite
    | split
    | simp only [keeps_upd_eq]

theorem State.dropSharerOf_keeps {K : Kept} {s a1 a2 a3} (h : keeps K s) :
    keeps K (State.dropSharerOf s a1 a2 a3) := by
  unfold State.dropSharerOf
  repeat' first
    | with_reducible assumption
    | (intro x; first | (refine keeps_cut K x ?_ ?_; rotate_left; intro hx; (try clear_value x); rotate_right; unfold x) | clear_value x | skip)
    | lift_lets
    | with_reducible apply State.enterClose_keeps
    | with_reducible apply State.setExt_keeps
    | with_reducible apply keeps_ite
    | split

theorem State.unshare_keeps {K : Kept} {s} (h : keeps K s) :
    keeps K (State.unshare s) := by
  unfold State.unshare
  repeat' first
    | with_reducible assumption
    | (intro x; first | (refine keeps_cut K x ?_ ?_; rotate_left; intro hx; (try clear_value x); rotate_right; unfold x) | clear_value x | skip)
    | lift_lets
    | with_reducible apply State.dropSharerOf_keeps
    | with_reducible apply State.extDone_keeps
    | with_reducible apply keeps_ite
    | split
    | simp only [keeps_upd_eq]
    | dsimp only

theorem State.postRevokes_keeps {K : Kept} {s a1 a2 a3 a4} (h : keeps K s) :
    keeps K (State.postRevokes s a1 a2 a3 a4) := by
  induction a4 generalizing s a1 a2 a3 with
  | nil =>
    first | rw [State.postRevokes] | unfold State.postRevokes
    repeat' first
      | with_reducible assumption
      | with_reducible apply State.queueRec_keeps
  | cons y t ih =>
    first | rw [State.postRevokes] | unfold State.postRevokes
    repeat' first
      | with_reducible assumption
      | with_reducible apply ih
      | with_reducible apply State.queueRec_keeps

theorem State.grantRevoke_keeps {K : Kept} {s} (h : keeps K s) :
    keeps K (State.grantRevoke s) := by
  unfold State.grantRevoke
  repeat' first
    | with_reducible assumption
    | (intro x; first | (refine keeps_cut K x ?_ ?_; rotate_left; intro hx; (try clear_value x); rotate_right; unfold x) | clear_value x | skip)
    | lift_lets
    | with_reducible apply State.extDone_keeps
    | with_reducible apply State.setExt_keeps
    | with_reducible apply keeps_ite
    | split
    | dsimp only

theorem State.closeDone_keeps {K : Kept} {s a1} (h : keeps K s) :
    keeps K (State.closeDone s a1) := by
  unfold State.closeDone
  repeat' first
    | with_reducible assumption
    | (intro x; first | (refine keeps_cut K x ?_ ?_; rotate_left; intro hx; (try clear_value x); rotate_right; unfold x) | clear_value x | skip)
    | lift_lets
    | with_reducible apply State.setExt_keeps
    | with_reducible apply keeps_ite
    | split

theorem State.endExtCmd_keeps {K : Kept} {s a1 a2} (h : keeps K s) :
    keeps K (State.endExtCmd s a1 a2) := by
  unfold State.endExtCmd
  repeat' first
    | with_reducible assumption
    | with_reducible apply State.extDone_keeps
    | with_reducible apply keeps_ite
    | split

theorem State.freeFrames_keeps {K : Kept} {s a1} (h : keeps K s) :
    keeps K (State.freeFrames s a1) := by
  induction a1 generalizing s with
  | nil =>
    first | rw [State.freeFrames] | unfold State.freeFrames
    repeat' first
      | with_reducible assumption
      | with_reducible apply State.freeFrame_keeps
  | cons y t ih =>
    first | rw [State.freeFrames] | unfold State.freeFrames
    repeat' first
      | with_reducible assumption
      | with_reducible apply ih
      | with_reducible apply State.freeFrame_keeps

theorem State.moorFrame_keeps {K : Kept} {s a1 a2 a3 a4 a5} (h : keeps K s) :
    keeps K (State.moorFrame s a1 a2 a3 a4 a5) := by
  unfold State.moorFrame
  repeat' first
    | with_reducible assumption
    | (intro x; first | (refine keeps_cut K x ?_ ?_; rotate_left; intro hx; (try clear_value x); rotate_right; unfold x) | clear_value x | skip)
    | lift_lets
    | with_reducible apply State.setFrame_keeps

theorem State.moorFrames_keeps {K : Kept} {s a1 a2 a3 a4 a5} (h : keeps K s) :
    keeps K (State.moorFrames s a1 a2 a3 a4 a5) := by
  induction a4 generalizing s a1 a2 a3 a5 with
  | nil =>
    first | rw [State.moorFrames] | unfold State.moorFrames
    repeat' first
      | with_reducible assumption
      | with_reducible apply State.moorFrame_keeps
  | cons y t ih =>
    first | rw [State.moorFrames] | unfold State.moorFrames
    repeat' first
      | with_reducible assumption
      | with_reducible apply ih
      | with_reducible apply State.moorFrame_keeps

theorem State.openFrames_keeps {K : Kept} {s a1 a2} (h : keeps K s) :
    keeps K (State.openFrames s a1 a2) := by
  induction a2 generalizing s a1 with
  | nil =>
    first | rw [State.openFrames] | unfold State.openFrames
    repeat' first
      | with_reducible assumption
      | (intro x; first | (refine keeps_cut K x ?_ ?_; rotate_left; intro hx; (try clear_value x); rotate_right; unfold x) | clear_value x | skip)
      | lift_lets
      | with_reducible apply State.setFrame_keeps
  | cons y t ih =>
    first | rw [State.openFrames] | unfold State.openFrames
    repeat' first
      | with_reducible assumption
      | (intro x; first | (refine keeps_cut K x ?_ ?_; rotate_left; intro hx; (try clear_value x); rotate_right; unfold x) | clear_value x | skip)
      | lift_lets
      | with_reducible apply ih
      | with_reducible apply State.setFrame_keeps

theorem State.recallDone_keeps {K : Kept} {s a1} (h : keeps K s) :
    keeps K (State.recallDone s a1) := by
  unfold State.recallDone
  repeat' first
    | with_reducible assumption
    | (intro x; first | (refine keeps_cut K x ?_ ?_; rotate_left; intro hx; (try clear_value x); rotate_right; unfold x) | clear_value x | skip)
    | lift_lets
    | with_reducible apply State.openFrames_keeps
    | with_reducible apply State.moorFrames_keeps
    | with_reducible apply State.freeFrames_keeps
    | with_reducible apply State.endExtCmd_keeps
    | with_reducible apply State.postRevokes_keeps
    | with_reducible apply State.enterClose_keeps
    | with_reducible apply State.setExt_keeps
    | with_reducible apply State.setOv_keeps
    | with_reducible apply keeps_ite
    | split
    | dsimp only

theorem State.flushLines_keeps {K : Kept} (hm : K.stored = none) {s a1} (h : keeps K s) :
    keeps K (State.flushLines s a1) := by
  induction a1 generalizing s with
  | nil =>
    first | rw [State.flushLines] | unfold State.flushLines
    repeat' first
      | with_reducible assumption
      | with_reducible apply State.accEnd_keeps hm
      | with_reducible apply State.flushMerge_keeps hm
      | with_reducible apply keeps_ite
      | split
  | cons y t ih =>
    first | rw [State.flushLines] | unfold State.flushLines
    repeat' first
      | with_reducible assumption
      | with_reducible apply ih
      | with_reducible apply State.accEnd_keeps hm
      | with_reducible apply State.flushMerge_keeps hm
      | with_reducible apply keeps_ite
      | split

theorem State.beginRevoke_keeps {K : Kept} {s a1 a2} (h : keeps K s) :
    keeps K (State.beginRevoke s a1 a2) := by
  unfold State.beginRevoke
  repeat' first
    | with_reducible assumption
    | (intro x; first | (refine keeps_cut K x ?_ ?_; rotate_left; intro hx; (try clear_value x); rotate_right; unfold x) | clear_value x | skip)
    | lift_lets
    | with_reducible apply State.enterClose_keeps
    | with_reducible apply State.setExt_keeps
    | with_reducible apply keeps_ite
    | split

theorem State.revoke_keeps {K : Kept} {s} (h : keeps K s) :
    keeps K (State.revoke s) := by
  unfold State.revoke
  repeat' first
    | with_reducible assumption
    | (intro x; first | (refine keeps_cut K x ?_ ?_; rotate_left; intro hx; (try clear_value x); rotate_right; unfold x) | clear_value x | skip)
    | lift_lets
    | with_reducible apply State.beginRevoke_keeps
    | with_reducible apply State.extDone_keeps
    | with_reducible apply keeps_ite
    | split
    | simp only [keeps_upd_eq]
    | dsimp only

theorem State.moorAccept_keeps {K : Kept} {s a1 a2 a3 a4} (h : keeps K s) :
    keeps K (State.moorAccept s a1 a2 a3 a4) := by
  unfold State.moorAccept
  repeat' first
    | with_reducible assumption
    | (intro x; first | (refine keeps_cut K x ?_ ?_; rotate_left; intro hx; (try clear_value x); rotate_right; unfold x) | clear_value x | skip)
    | lift_lets
    | with_reducible apply State.moorFrames_keeps
    | with_reducible apply State.extDone_keeps
    | with_reducible apply State.setExt_keeps
    | with_reducible apply State.setOv_keeps

theorem State.probeAnswer_keeps {K : Kept} {s a1 a2 a3} (h : keeps K s) :
    keeps K (State.probeAnswer s a1 a2 a3) := by
  unfold State.probeAnswer
  repeat' first
    | with_reducible assumption
    | (intro x; first | (refine keeps_cut K x ?_ ?_; rotate_left; intro hx; (try clear_value x); rotate_right; unfold x) | clear_value x | skip)
    | lift_lets
    | with_reducible apply State.moorAccept_keeps
    | with_reducible apply State.extDone_keeps
    | with_reducible apply keeps_ite
    | split
    | dsimp only

theorem State.counterFree_keeps {K : Kept} {s} (h : keeps K s) :
    keeps K (State.counterFree s) := by
  unfold State.counterFree
  repeat' first
    | with_reducible assumption
    | (intro x; first | (refine keeps_cut K x ?_ ?_; rotate_left; intro hx; (try clear_value x); rotate_right; unfold x) | clear_value x | skip)
    | lift_lets
    | with_reducible apply State.startClose_keeps
    | with_reducible apply State.setExt_keeps
    | with_reducible apply keeps_ite
    | split
    | dsimp only

theorem State.closeFrames_keeps {K : Kept} {s a1 a2} (h : keeps K s) :
    keeps K (State.closeFrames s a1 a2) := by
  induction a2 generalizing s a1 with
  | nil =>
    first | rw [State.closeFrames] | unfold State.closeFrames
    repeat' first
      | with_reducible assumption
      | (intro x; first | (refine keeps_cut K x ?_ ?_; rotate_left; intro hx; (try clear_value x); rotate_right; unfold x) | clear_value x | skip)
      | lift_lets
      | with_reducible apply State.setFrame_keeps
  | cons y t ih =>
    first | rw [State.closeFrames] | unfold State.closeFrames
    repeat' first
      | with_reducible assumption
      | (intro x; first | (refine keeps_cut K x ?_ ?_; rotate_left; intro hx; (try clear_value x); rotate_right; unfold x) | clear_value x | skip)
      | lift_lets
      | with_reducible apply ih
      | with_reducible apply State.setFrame_keeps

theorem State.recallLine_keeps {K : Kept} (hm : K.stored = none) {s a1} (h : keeps K s) :
    keeps K (State.recallLine s a1) := by
  unfold State.recallLine
  repeat' first
    | with_reducible assumption
    | (intro x; first | (refine keeps_cut K x ?_ ?_; rotate_left; intro hx; (try clear_value x); rotate_right; unfold x) | (refine keeps_cut K x.1 ?_ ?_; rotate_left; intro hx; (try clear_value x); rotate_right; unfold x) | clear_value x | skip)
    | lift_lets
    | with_reducible apply State.work_keeps hm
    | with_reducible apply State.startRecall_keeps hm
    | with_reducible apply State.setDir_keeps
    | with_reducible apply keeps_ite
    | split

theorem State.share_keeps {K : Kept} {s} (h : keeps K s) :
    keeps K (State.share s) := by
  unfold State.share
  repeat' first
    | with_reducible assumption
    | (intro x; first | (refine keeps_cut K x ?_ ?_; rotate_left; intro hx; (try clear_value x); rotate_right; unfold x) | clear_value x | skip)
    | lift_lets
    | with_reducible apply State.extDone_keeps
    | with_reducible apply State.setExt_keeps
    | with_reducible apply keeps_ite
    | split
    | dsimp only

theorem State.walkDone_keeps {K : Kept} (hm : K.stored = none) {s a1 a2 a3} (h : keeps K s) :
    keeps K (State.walkDone s a1 a2 a3) := by
  unfold State.walkDone
  repeat' first
    | with_reducible assumption
    | (intro x; first | (refine keeps_cut K x ?_ ?_; rotate_left; intro hx; (try clear_value x); rotate_right; unfold x) | clear_value x | skip)
    | lift_lets
    | with_reducible apply State.flushLines_keeps hm
    | with_reducible apply State.setCommits_keeps
    | with_reducible apply State.setExt_keeps
    | with_reducible apply State.setCtx_keeps
    | with_reducible apply keeps_ite
    | split
    | simp only [keeps_upd_eq]
    | dsimp only

theorem State.startRecallPhase_keeps {K : Kept} {s a1} (h : keeps K s) :
    keeps K (State.startRecallPhase s a1) := by
  unfold State.startRecallPhase
  repeat' first
    | with_reducible assumption
    | (intro x; first | (refine keeps_cut K x ?_ ?_; rotate_left; intro hx; (try clear_value x); rotate_right; unfold x) | clear_value x | skip)
    | lift_lets
    | with_reducible apply State.setExt_keeps
    | with_reducible apply keeps_ite
    | split

theorem State.revokeDrained_keeps {K : Kept} {s a1} (h : keeps K s) :
    keeps K (State.revokeDrained s a1) := by
  unfold State.revokeDrained
  repeat' first
    | with_reducible assumption
    | with_reducible apply State.startRecallPhase_keeps
    | with_reducible apply keeps_ite
    | split

theorem State.failClosed_keeps {K : Kept} {s a1} (h : keeps K s) :
    keeps K (State.failClosed s a1) := by
  induction a1 generalizing s with
  | nil =>
    first | rw [State.failClosed] | unfold State.failClosed
    repeat' first
      | with_reducible assumption
      | with_reducible apply State.straggler_keeps
      | with_reducible apply State.finish_keeps
  | cons y t ih =>
    first | rw [State.failClosed] | unfold State.failClosed
    repeat' first
      | with_reducible assumption
      | with_reducible apply ih
      | with_reducible apply State.straggler_keeps
      | with_reducible apply State.finish_keeps

theorem State.drainTimeout_keeps {K : Kept} {s a1} (h : keeps K s) :
    keeps K (State.drainTimeout s a1) := by
  unfold State.drainTimeout
  repeat' first
    | with_reducible assumption
    | (intro x; first | (refine keeps_cut K x ?_ ?_; rotate_left; intro hx; (try clear_value x); rotate_right; unfold x) | clear_value x | skip)
    | lift_lets
    | with_reducible apply State.failClosed_keeps
    | with_reducible apply State.startRecallPhase_keeps
    | with_reducible apply State.closeFrames_keeps
    | with_reducible apply keeps_ite
    | split

theorem State.moor_keeps {K : Kept} {s} (h : keeps K s) :
    keeps K (State.moor s) := by
  unfold State.moor
  repeat' first
    | with_reducible assumption
    | (intro x; first | (refine keeps_cut K x ?_ ?_; rotate_left; intro hx; (try clear_value x); rotate_right; unfold x) | clear_value x | skip)
    | lift_lets
    | with_reducible apply State.moorAccept_keeps
    | with_reducible apply State.extDone_keeps
    | with_reducible apply State.sendBlk_keeps
    | with_reducible apply keeps_ite
    | split
    | simp only [keeps_upd_eq]
    | dsimp only

theorem State.extOp_keeps {K : Kept} {s a1} (h : keeps K s) :
    keeps K (State.extOp s a1).2 := by
  unfold State.extOp
  repeat' first
    | with_reducible assumption
    | with_reducible apply State.moor_keeps
    | with_reducible apply State.share_keeps
    | with_reducible apply State.revoke_keeps
    | with_reducible apply State.grantRevoke_keeps
    | with_reducible apply State.unshare_keeps
    | with_reducible apply keeps_ite
    | with_reducible apply keeps_ite_snd
    | split
    | (refine keeps_of_snd (by with_reducible assumption) ?_)
    | (refine keeps_of_fst (by with_reducible assumption) ?_)
    | dsimp only

theorem State.deliverNtf_keeps {K : Kept} {s a1 a2} (h : keeps K s) :
    keeps K (State.deliverNtf s a1 a2) := by
  unfold State.deliverNtf
  repeat' first
    | with_reducible assumption
    | (intro x; first | (refine keeps_cut K x ?_ ?_; rotate_left; intro hx; (try clear_value x); rotate_right; unfold x) | clear_value x | skip)
    | lift_lets
    | with_reducible apply State.send_keeps
    | with_reducible apply State.emit_keeps
    | with_reducible apply State.bump_keeps
    | with_reducible apply State.setCtx_keeps
    | with_reducible apply keeps_ite
    | split
    | dsimp only

theorem State.postWaiting_keeps {K : Kept} {s a1} (h : keeps K s) :
    keeps K (State.postWaiting s a1) := by
  unfold State.postWaiting
  repeat' first
    | with_reducible assumption
    | (intro x; first | (refine keeps_cut K x ?_ ?_; rotate_left; intro hx; (try clear_value x); rotate_right; unfold x) | clear_value x | skip)
    | lift_lets
    | with_reducible apply State.retranslate_keeps
    | with_reducible apply State.finish_keeps
    | with_reducible apply State.postRec_keeps
    | with_reducible apply keeps_ite
    | split
    | simp only [keeps_upd_eq]
    | dsimp only

theorem State.mapCtxs_keeps {K : Kept} {s a1 a2} (h : keeps K s) :
    keeps K (State.mapCtxs s a1 a2) := by
  induction a2 generalizing s a1 with
  | nil =>
    first | rw [State.mapCtxs] | unfold State.mapCtxs
    repeat' first
      | with_reducible assumption
      | with_reducible apply State.setCtx_keeps
  | cons y t ih =>
    first | rw [State.mapCtxs] | unfold State.mapCtxs
    repeat' first
      | with_reducible assumption
      | with_reducible apply ih
      | with_reducible apply State.setCtx_keeps

theorem State.frCoal_keeps {K : Kept} {s a1} (h : keeps K s) :
    keeps K (State.frCoal s a1) := by
  unfold State.frCoal
  repeat' first
    | with_reducible assumption
    | (intro x; first | (refine keeps_cut K x ?_ ?_; rotate_left; intro hx; (try clear_value x); rotate_right; unfold x) | clear_value x | skip)
    | lift_lets
    | with_reducible apply State.emit_keeps
    | with_reducible apply keeps_ite
    | split
    | simp only [keeps_upd_eq]

theorem State.repostAll_keeps {K : Kept} {s a1 a2} (h : keeps K s) :
    keeps K (State.repostAll s a1 a2) := by
  induction a2 generalizing s a1 with
  | nil =>
    first | rw [State.repostAll] | unfold State.repostAll
    repeat' first
      | with_reducible assumption
      | (intro x; first | (refine keeps_cut K x ?_ ?_; rotate_left; intro hx; (try clear_value x); rotate_right; unfold x) | clear_value x | skip)
      | lift_lets
      | with_reducible apply State.queueRec_keeps
      | with_reducible apply keeps_ite
      | split
  | cons y t ih =>
    first | rw [State.repostAll] | unfold State.repostAll
    repeat' first
      | with_reducible assumption
      | (intro x; first | (refine keeps_cut K x ?_ ?_; rotate_left; intro hx; (try clear_value x); rotate_right; unfold x) | clear_value x | skip)
      | lift_lets
      | with_reducible apply ih
      | with_reducible apply State.queueRec_keeps
      | with_reducible apply keeps_ite
      | split

theorem State.ntfRaise_keeps {K : Kept} {s a1 a2} (h : keeps K s) :
    keeps K (State.ntfRaise s a1 a2) := by
  unfold State.ntfRaise
  repeat' first
    | with_reducible assumption
    | with_reducible apply State.raiseVec_keeps

theorem State.refillPol_keeps {K : Kept} {s a1 a2} (h : keeps K s) :
    keeps K (State.refillPol s a1 a2) := by
  induction a2 generalizing s a1 with
  | nil =>
    first | rw [State.refillPol] | unfold State.refillPol
    repeat' first
      | with_reducible assumption
      | (intro x; first | (refine keeps_cut K x ?_ ?_; rotate_left; intro hx; (try clear_value x); rotate_right; unfold x) | clear_value x | skip)
      | lift_lets
      | with_reducible apply keeps_ite
      | split
      | simp only [keeps_upd_eq]
  | cons y t ih =>
    first | rw [State.refillPol] | unfold State.refillPol
    repeat' first
      | with_reducible assumption
      | (intro x; first | (refine keeps_cut K x ?_ ?_; rotate_left; intro hx; (try clear_value x); rotate_right; unfold x) | clear_value x | skip)
      | lift_lets
      | with_reducible apply ih
      | with_reducible apply keeps_ite
      | split
      | simp only [keeps_upd_eq]

theorem State.refillPols_keeps {K : Kept} {s a1} (h : keeps K s) :
    keeps K (State.refillPols s a1) := by
  induction a1 generalizing s with
  | nil =>
    first | rw [State.refillPols] | unfold State.refillPols
    repeat' first
      | with_reducible assumption
      | with_reducible apply State.refillPol_keeps
  | cons y t ih =>
    first | rw [State.refillPols] | unfold State.refillPols
    repeat' first
      | with_reducible assumption
      | with_reducible apply ih
      | with_reducible apply State.refillPol_keeps

theorem State.ntfHeadWrite_keeps {K : Kept} {s a1 a2 a3 a4} (h : keeps K s) :
    keeps K (State.ntfHeadWrite s a1 a2 a3 a4) := by
  unfold State.ntfHeadWrite
  repeat' first
    | with_reducible assumption
    | (intro x; first | (refine keeps_cut K x ?_ ?_; rotate_left; intro hx; (try clear_value x); rotate_right; unfold x) | clear_value x | skip)
    | lift_lets
    | with_reducible apply State.bump_keeps
    | with_reducible apply State.setCtx_keeps
    | with_reducible apply keeps_ite
    | split
    | dsimp only

theorem State.vfFlr_keeps {K : Kept} {s a1 a2} (h : keeps K s) :
    keeps K (State.vfFlr s a1 a2) := by
  unfold State.vfFlr
  repeat' first
    | with_reducible assumption
    | (intro x; first | (refine keeps_cut K x ?_ ?_; rotate_left; intro hx; (try clear_value x); rotate_right; unfold x) | clear_value x | skip)
    | lift_lets
    | with_reducible apply State.bump_keeps
    | with_reducible apply State.setCtx_keeps
    | with_reducible apply State.setOv_keeps
    | split
    | dsimp only

theorem State.frHeadWrite_keeps {K : Kept} {s a1 a2 a3} (h : keeps K s) :
    keeps K (State.frHeadWrite s a1 a2 a3) := by
  unfold State.frHeadWrite
  repeat' first
    | with_reducible assumption
    | (intro x; first | (refine keeps_cut K x ?_ ?_; rotate_left; intro hx; (try clear_value x); rotate_right; unfold x) | clear_value x | skip)
    | lift_lets
    | with_reducible apply State.setOv_keeps
    | with_reducible apply keeps_ite
    | split

theorem State.ntfRefill_keeps {K : Kept} {s} (h : keeps K s) :
    keeps K (State.ntfRefill s) := by
  unfold State.ntfRefill
  repeat' first
    | with_reducible assumption
    | (intro x; first | (refine keeps_cut K x ?_ ?_; rotate_left; intro hx; (try clear_value x); rotate_right; unfold x) | clear_value x | skip)
    | lift_lets
    | with_reducible apply State.mapCtxs_keeps
    | with_reducible apply keeps_ite
    | split

theorem State.shaperRefill_keeps {K : Kept} {s} (h : keeps K s) :
    keeps K (State.shaperRefill s) := by
  unfold State.shaperRefill
  repeat' first
    | with_reducible assumption
    | (intro x; first | (refine keeps_cut K x ?_ ?_; rotate_left; intro hx; (try clear_value x); rotate_right; unfold x) | clear_value x | skip)
    | lift_lets
    | with_reducible apply State.mapCtxs_keeps
    | with_reducible apply keeps_ite
    | split

theorem State.faultRefill_keeps {K : Kept} {s a1} (h : keeps K s) :
    keeps K (State.faultRefill s a1) := by
  unfold State.faultRefill
  repeat' first
    | with_reducible assumption
    | (intro x; first | (refine keeps_cut K x ?_ ?_; rotate_left; intro hx; (try clear_value x); rotate_right; unfold x) | clear_value x | skip)
    | lift_lets
    | with_reducible apply State.setCtx_keeps

theorem State.frRepost_keeps {K : Kept} {s a1} (h : keeps K s) :
    keeps K (State.frRepost s a1).2 := by
  unfold State.frRepost
  repeat' first
    | with_reducible assumption
    | (intro x; first | (refine keeps_cut K x ?_ ?_; rotate_left; intro hx; (try clear_value x); rotate_right; unfold x) | (refine keeps_cut K x.2 ?_ ?_; rotate_left; intro hx; (try clear_value x); rotate_right; unfold x) | clear_value x | skip)
    | lift_lets
    | with_reducible apply State.repostAll_keeps
    | with_reducible apply keeps_ite
    | with_reducible apply keeps_ite_snd
    | split
    | dsimp only

theorem State.frzRelease_keeps {K : Kept} {s a1} (h : keeps K s) :
    keeps K (State.frzRelease s a1).2 := by
  unfold State.frzRelease
  repeat' first
    | with_reducible assumption
    | (intro x; first | (refine keeps_cut K x ?_ ?_; rotate_left; intro hx; (try clear_value x); rotate_right; unfold x) | (refine keeps_cut K x.2 ?_ ?_; rotate_left; intro hx; (try clear_value x); rotate_right; unfold x) | clear_value x | skip)
    | lift_lets
    | with_reducible apply State.setAgent_keeps
    | with_reducible apply State.raiseSys_keeps
    | with_reducible apply State.setOv_keeps
    | with_reducible apply keeps_ite
    | with_reducible apply keeps_ite_snd
    | split
    | dsimp only

theorem State.fillBuckets_keeps {K : Kept} {s a1} (h : keeps K s) :
    keeps K (State.fillBuckets s a1) := by
  unfold State.fillBuckets
  repeat' first
    | with_reducible assumption
    | (intro x; first | (refine keeps_cut K x ?_ ?_; rotate_left; intro hx; (try clear_value x); rotate_right; unfold x) | clear_value x | skip)
    | lift_lets
    | with_reducible apply State.setCtx_keeps
    | with_reducible apply keeps_foldl
    | with_reducible apply keeps_foldl_fst
    | with_reducible apply keeps_foldl_snd
    | simp only [keeps_upd_eq]

theorem State.policerRefill_keeps {K : Kept} {s} (h : keeps K s) :
    keeps K (State.policerRefill s) := by
  unfold State.policerRefill
  repeat' first
    | with_reducible assumption
    | with_reducible apply State.refillPols_keeps

theorem State.poisonRange_keeps {K : Kept} (hm : K.stored = none) {s a1 a2 a3 a4} (h : keeps K s) :
    keeps K (State.poisonRange s a1 a2 a3 a4) := by
  unfold State.poisonRange
  repeat' first
    | with_reducible assumption
    | (intro x; first | (refine keeps_cut K x ?_ ?_; rotate_left; intro hx; (try clear_value x); rotate_right; unfold x) | (refine keeps_cutf2 K x ?_ ?_; rotate_left; intro hf; (try clear_value x); rotate_right; unfold x) | clear_value x | skip)
    | lift_lets
    | with_reducible apply hf
    | with_reducible apply State.poisonCw_keeps hm
    | with_reducible apply State.setMerge_keeps
    | with_reducible apply keeps_ite
    | split
    | dsimp only

theorem State.holdExempt_keeps {K : Kept} (hm : K.stored = none) {s a1 a2 a3 a4} (h : keeps K s) :
    keeps K (State.holdExempt s a1 a2 a3 a4) := by
  unfold State.holdExempt
  repeat' first
    | with_reducible assumption
    | (intro x; first | (refine keeps_cut K x ?_ ?_; rotate_left; intro hx; (try clear_value x); rotate_right; unfold x) | clear_value x | skip)
    | lift_lets
    | with_reducible apply State.tick_keeps
    | with_reducible apply State.mergeRoom_keeps hm
    | with_reducible apply State.setMerge_keeps
    | with_reducible apply State.touchScrub_keeps
    | with_reducible apply keeps_ite
    | split

theorem State.endAcc_keeps {K : Kept} (hm : K.stored = none) {s a1} (h : keeps K s) :
    keeps K (State.endAcc s a1) := by
  unfold State.endAcc
  repeat' first
    | with_reducible assumption
    | with_reducible apply State.accEnd_keeps hm
    | with_reducible apply keeps_ite
    | split

theorem State.innerWrite_keeps {K : Kept} (hm : K.stored = none) {s a1 a2 a3 a4} (h : keeps K s) :
    keeps K (State.innerWrite s a1 a2 a3 a4) := by
  unfold State.innerWrite
  repeat' first
    | with_reducible assumption
    | (intro x; first | (refine keeps_cut K x ?_ ?_; rotate_left; intro hx; (try clear_value x); rotate_right; unfold x) | clear_value x | skip)
    | lift_lets
    | with_reducible apply State.endAcc_keeps hm
    | with_reducible apply State.holdExempt_keeps hm
    | with_reducible apply State.poisonRange_keeps hm
    | with_reducible apply State.noteLostWrite_keeps
    | (refine State.prepWrite_keeps hm (by with_reducible assumption) ?_)
    | with_reducible apply State.lineWrite_keeps hm
    | with_reducible apply State.pageHint_keeps
    | with_reducible apply keeps_ite
    | split
    | dsimp only

theorem State.innerRead_keeps {K : Kept} (hm : K.stored = none) {s a1 a2 a3} (h : keeps K s) :
    keeps K (State.innerRead s a1 a2 a3).2 := by
  unfold State.innerRead
  repeat' first
    | with_reducible assumption
    | (intro x; first | (refine keeps_cut K x ?_ ?_; rotate_left; intro hx; (try clear_value x); rotate_right; unfold x) | (refine keeps_cut K x.2 ?_ ?_; rotate_left; intro hx; (try clear_value x); rotate_right; unfold x) | clear_value x | skip)
    | lift_lets
    | with_reducible apply State.dropPeek_keeps
    | with_reducible apply State.accFlush_keeps hm
    | with_reducible apply State.lineRead_keeps hm
    | with_reducible apply keeps_ite
    | with_reducible apply keeps_ite_snd
    | split
    | dsimp only
    | (refine keeps_of_snd (by with_reducible assumption) ?_)
    | (refine keeps_of_fst (by with_reducible assumption) ?_)
    | dsimp only

theorem State.gatherCva_keeps {K : Kept} (hm : K.stored = none) {s a1 a2 a3} (h : keeps K s) :
    keeps K (State.gatherCva s a1 a2 a3).2 := by
  induction a3 generalizing s a1 a2 with
  | nil =>
    first | rw [State.gatherCva] | unfold State.gatherCva
    repeat' first
      | with_reducible assumption
      | (intro x; first | (refine keeps_cut K x ?_ ?_; rotate_left; intro hx; (try clear_value x); rotate_right; unfold x) | (refine keeps_cut K x.2 ?_ ?_; rotate_left; intro hx; (try clear_value x); rotate_right; unfold x) | clear_value x | skip)
      | lift_lets
      | with_reducible apply State.innerRead_keeps hm
      | dsimp only
  | cons y t ih =>
    first | rw [State.gatherCva] | unfold State.gatherCva
    repeat' first
      | with_reducible assumption
      | (intro x; first | (refine keeps_cut K x ?_ ?_; rotate_left; intro hx; (try clear_value x); rotate_right; unfold x) | (refine keeps_cut K x.2 ?_ ?_; rotate_left; intro hx; (try clear_value x); rotate_right; unfold x) | clear_value x | skip)
      | lift_lets
      | with_reducible apply ih
      | with_reducible apply State.innerRead_keeps hm
      | dsimp only

theorem State.ask_keeps {K : Kept} (hm : K.stored = none) {s a1 a2} (h : keeps K s) :
    keeps K (State.ask s a1 a2) := by
  unfold State.ask
  repeat' first
    | with_reducible assumption
    | (intro x; first | (refine keeps_cut K x ?_ ?_; rotate_left; intro hx; (try clear_value x); rotate_right; unfold x) | clear_value x | skip)
    | lift_lets
    | with_reducible apply State.work_keeps hm
    | with_reducible apply State.joinLine_keeps
    | with_reducible apply keeps_ite
    | split
    | simp only [keeps_upd_eq]

theorem State.readPage_keeps {K : Kept} {s a1 a2 a3} (h : keeps K s) :
    keeps K (State.readPage s a1 a2 a3).2 := by
  unfold State.readPage
  repeat' first
    | with_reducible assumption
    | (intro x; first | (refine keeps_cut K x ?_ ?_; rotate_left; intro hx; (try clear_value x); rotate_right; unfold x) | (refine keeps_cut K x.2 ?_ ?_; rotate_left; intro hx; (try clear_value x); rotate_right; unfold x) | clear_value x | skip)
    | lift_lets
    | with_reducible apply State.readChart_keeps
    | with_reducible apply keeps_ite
    | with_reducible apply keeps_ite_snd
    | split
    | dsimp only

theorem State.pageFor_keeps {K : Kept} {s a1 a2 a3 a4 a5 a6} (h : keeps K s) :
    keeps K (State.pageFor s a1 a2 a3 a4 a5 a6).2 := by
  unfold State.pageFor
  repeat' first
    | with_reducible assumption
    | (intro x; first | (refine keeps_cut K x ?_ ?_; rotate_left; intro hx; (try clear_value x); rotate_right; unfold x) | (refine keeps_cut K x.2 ?_ ?_; rotate_left; intro hx; (try clear_value x); rotate_right; unfold x) | clear_value x | skip)
    | lift_lets
    | with_reducible apply State.pageFault_keeps
    | with_reducible apply keeps_ite
    | with_reducible apply keeps_ite_snd
    | split
    | dsimp only

theorem State.pageVia_keeps {K : Kept} {s a1 a2 a3 a4 a5 a6} (h : keeps K s) :
    keeps K (State.pageVia s a1 a2 a3 a4 a5 a6).2 := by
  unfold State.pageVia
  repeat' first
    | with_reducible assumption
    | (intro x; first | (refine keeps_cut K x ?_ ?_; rotate_left; intro hx; (try clear_value x); rotate_right; unfold x) | (refine keeps_cut K x.2 ?_ ?_; rotate_left; intro hx; (try clear_value x); rotate_right; unfold x) | clear_value x | skip)
    | lift_lets
    | with_reducible apply State.pageFor_keeps
    | with_reducible apply State.readPage_keeps
    | split
    | dsimp only
    | (refine keeps_of_snd (by with_reducible assumption) ?_)
    | (refine keeps_of_fst (by with_reducible assumption) ?_)
    | dsimp only

theorem State.writePieces_keeps {K : Kept} (hm : K.stored = none) {s a1 a2} (h : keeps K s) :
    keeps K (State.writePieces s a1 a2) := by
  induction a2 generalizing s a1 with
  | nil =>
    first | rw [State.writePieces] | unfold State.writePieces
    repeat' first
      | with_reducible assumption
      | with_reducible apply State.innerWrite_keeps hm
      | with_reducible apply keeps_ite
      | split
  | cons y t ih =>
    first | rw [State.writePieces] | unfold State.writePieces
    repeat' first
      | with_reducible assumption
      | with_reducible apply ih
      | with_reducible apply State.innerWrite_keeps hm
      | with_reducible apply keeps_ite
      | split

theorem State.cachePage_keeps {K : Kept} {s a1 a2 a3 a4} (h : keeps K s) :
    keeps K (State.cachePage s a1 a2 a3 a4) := by
  unfold State.cachePage
  repeat' first
    | with_reducible assumption
    | (intro x; first | (refine keeps_cut K x ?_ ?_; rotate_left; intro hx; (try clear_value x); rotate_right; unfold x) | clear_value x | skip)
    | lift_lets
    | simp only [keeps_upd_eq]

theorem State.pagesFor_keeps {K : Kept} {s a1 a2 a3 a4 a5} (h : keeps K s) :
    keeps K (State.pagesFor s a1 a2 a3 a4 a5).2.2 := by
  induction a5 generalizing s a1 a2 a3 a4 with
  | nil =>
    first | rw [State.pagesFor] | unfold State.pagesFor
    repeat' first
      | with_reducible assumption
      | (intro x; first | (refine keeps_cut K x ?_ ?_; rotate_left; intro hx; (try clear_value x); rotate_right; unfold x) | (refine keeps_cut K x.2 ?_ ?_; rotate_left; intro hx; (try clear_value x); rotate_right; unfold x) | (refine keeps_cut K x.2.2 ?_ ?_; rotate_left; intro hx; (try clear_value x); rotate_right; unfold x) | clear_value x | skip)
      | lift_lets
      | with_reducible apply State.cachePage_keeps
      | with_reducible apply State.pageVia_keeps
      | split
      | dsimp only
      | (refine keeps_of_snd (by with_reducible assumption) ?_)
      | (refine keeps_of_fst (by with_reducible assumption) ?_)
      | dsimp only
  | cons y t ih =>
    first | rw [State.pagesFor] | unfold State.pagesFor
    repeat' first
      | with_reducible assumption
      | (intro x; first | (refine keeps_cut K x ?_ ?_; rotate_left; intro hx; (try clear_value x); rotate_right; unfold x) | (refine keeps_cut K x.2 ?_ ?_; rotate_left; intro hx; (try clear_value x); rotate_right; unfold x) | (refine keeps_cut K x.2.2 ?_ ?_; rotate_left; intro hx; (try clear_value x); rotate_right; unfold x) | clear_value x | skip)
      | lift_lets
      | with_reducible apply ih
      | with_reducible apply State.cachePage_keeps
      | with_reducible apply State.pageVia_keeps
      | split
      | dsimp only
      | (refine keeps_of_snd (by with_reducible assumption) ?_)
      | (refine keeps_of_fst (by with_reducible assumption) ?_)
      | dsimp only

theorem State.askAll_keeps {K : Kept} (hm : K.stored = none) {s a1 a2} (h : keeps K s) :
    keeps K (State.askAll s a1 a2) := by
  unfold State.askAll
  repeat' first
    | with_reducible assumption
    | (intro x; first | (refine keeps_cut K x ?_ ?_; rotate_left; intro hx; (try clear_value x); rotate_right; unfold x) | clear_value x | skip)
    | lift_lets
    | with_reducible apply State.ask_keeps hm
    | with_reducible apply State.touchFrame_keeps
    | with_reducible apply keeps_ite
    | with_reducible apply keeps_foldl
    | with_reducible apply keeps_foldl_fst
    | with_reducible apply keeps_foldl_snd
    | split

theorem State.innerLine_keeps {K : Kept} (hm : K.stored = none) {s a1 a2} (h : keeps K s) :
    keeps K (State.innerLine s a1 a2) := by
  unfold State.innerLine
  repeat' first
    | with_reducible assumption
    | (intro x; first | (refine keeps_cut K x ?_ ?_; rotate_left; intro hx; (try clear_value x); rotate_right; unfold x) | clear_value x | skip)
    | lift_lets
    | with_reducible apply State.endAcc_keeps hm
    | with_reducible apply State.homeData_keeps hm
    | with_reducible apply State.noteLostWrite_keeps
    | with_reducible apply State.pageHint_keeps
    | with_reducible apply keeps_ite
    | split

theorem State.setPhys_keeps {K : Kept} {s a1 a2 a3} (h : keeps K s) :
    keeps K (State.setPhys s a1 a2 a3) := by
  unfold State.setPhys
  repeat' first
    | with_reducible assumption
    | simp only [keeps_upd_eq]

theorem State.takeRole_keeps {K : Kept} {s a1 a2 a3} (h : keeps K s) :
    keeps K (State.takeRole s a1 a2 a3) := by
  unfold State.takeRole
  repeat' first
    | with_reducible assumption
    | with_reducible apply State.setPhys_keeps
    | with_reducible apply State.event_keeps
    | with_reducible apply State.bump_keeps

theorem State.setUnit_keeps {K : Kept} {s a1 a2 a3} (h : keeps K s) :
    keeps K (State.setUnit s a1 a2 a3) := by
  unfold State.setUnit
  repeat' first
    | with_reducible assumption
    | (intro x; first | (refine keeps_cut K x ?_ ?_; rotate_left; intro hx; (try clear_value x); rotate_right; unfold x) | clear_value x | skip)
    | lift_lets
    | with_reducible apply State.bump_keeps
    | with_reducible apply keeps_ite
    | split
    | simp only [keeps_upd_eq]

theorem State.giveSpare_keeps {K : Kept} {s a1 a2 a3} (h : keeps K s) :
    keeps K (State.giveSpare s a1 a2 a3) := by
  unfold State.giveSpare
  repeat' first
    | with_reducible assumption
    | with_reducible apply State.takeRole_keeps
    | with_reducible apply State.setPhys_keeps
    | with_reducible apply State.event_keeps
    | split

end Sys2Proof.Machine
end

