-- ==== Sys2Proof/Laws/KeepsWork.lean ====
section
/-! SUPPORT. Sys2Proof/Laws/KeepsWork.lean: what the operations of Recipes, Jobs, Migrate, Tenders, Sweeps keep. -/

namespace Sys2Proof.Machine

open Sys2Proof

theorem State.setJobs_keeps {K : Kept} {s a1} (h : keeps K s) :
    keeps K (State.setJobs s a1) := by
  unfold State.setJobs
  repeat' first
    | with_reducible assumption
    | (intro x; first | (refine keeps_cut K x ?_ ?_; rotate_left; intro hx; (try clear_value x); rotate_right; unfold x) | clear_value x | skip)
    | lift_lets
    | simp only [keeps_upd_eq]

theorem State.updJob_keeps {K : Kept} {s a1 a2} (h : keeps K s) :
    keeps K (State.updJob s a1 a2) := by
  unfold State.updJob
  repeat' first
    | with_reducible assumption
    | with_reducible apply State.setJobs_keeps
    | with_reducible apply keeps_ite
    | split

theorem State.spoilOne_keeps {K : Kept} (hm : K.stored = none) {s a1 a2 a3} (h : keeps K s) :
    keeps K (State.spoilOne s a1 a2 a3) := by
  unfold State.spoilOne
  repeat' first
    | with_reducible assumption
    | with_reducible apply State.updJob_keeps
    | with_reducible apply State.askAll_keeps hm
    | with_reducible apply State.writePieces_keeps hm
    | with_reducible apply keeps_ite
    | split

theorem State.flushSpoil_keeps {K : Kept} (hm : K.stored = none) {s a1} (h : keeps K s) :
    keeps K (State.flushSpoil s a1) := by
  unfold State.flushSpoil
  repeat' first
    | with_reducible assumption
    | intro x
    | with_reducible apply State.spoilOne_keeps hm
    | with_reducible apply State.updJob_keeps
    | with_reducible apply keeps_foldl
    | with_reducible apply keeps_foldl_fst
    | with_reducible apply keeps_foldl_snd
    | split

theorem State.failJob_keeps {K : Kept} (hm : K.stored = none) {s a1 a2 a3} (h : keeps K s) :
    keeps K (State.failJob s a1 a2 a3) := by
  unfold State.failJob
  repeat' first
    | with_reducible assumption
    | (intro x; first | (refine keeps_cut K x ?_ ?_; rotate_left; intro hx; (try clear_value x); rotate_right; unfold x) | clear_value x | skip)
    | lift_lets
    | with_reducible apply State.flushSpoil_keeps hm
    | with_reducible apply State.updJob_keeps
    | with_reducible apply keeps_ite
    | with_reducible apply keeps_foldl
    | with_reducible apply keeps_foldl_fst
    | with_reducible apply keeps_foldl_snd
    | split
    | dsimp only

theorem State.enterStrip_keeps {K : Kept} (hm : K.stored = none) {s a1 a2 a3 a4 a5} (h : keeps K s) :
    keeps K (State.enterStrip s a1 a2 a3 a4 a5) := by
  unfold State.enterStrip
  repeat' first
    | with_reducible assumption
    | (intro x; first | (refine keeps_cut K x ?_ ?_; rotate_left; intro hx; (try clear_value x); rotate_right; unfold x) | (refine keeps_cut K x.2.2 ?_ ?_; rotate_left; intro hx; (try clear_value x); rotate_right; unfold x) | (refine keeps_cuth K x ?_ ?_; rotate_left; intro hf; (try clear_value x); rotate_right; unfold x) | clear_value x | skip)
    | lift_lets
    | with_reducible apply hf
    | with_reducible apply State.failJob_keeps hm
    | with_reducible apply State.updJob_keeps
    | with_reducible apply State.pagesFor_keeps
    | with_reducible apply keeps_ite
    | split
    | dsimp only

theorem State.publish_keeps {K : Kept} {s a1} (h : keeps K s) :
    keeps K (State.publish s a1) := by
  unfold State.publish
  repeat' first
    | with_reducible assumption
    | (intro x; first | (refine keeps_cut K x ?_ ?_; rotate_left; intro hx; (try clear_value x); rotate_right; unfold x) | clear_value x | skip)
    | lift_lets
    | with_reducible apply State.updJob_keeps
    | with_reducible apply State.addInternals_keeps
    | with_reducible apply keeps_ite
    | split
    | dsimp only

theorem State.countTally_keeps {K : Kept} {s a1} (h : keeps K s) :
    keeps K (State.countTally s a1) := by
  unfold State.countTally
  repeat' first
    | with_reducible assumption
    | with_reducible apply State.bump_keeps
    | split

theorem State.unparkStrips_keeps {K : Kept} (hm : K.stored = none) {s a1} (h : keeps K s) :
    keeps K (State.unparkStrips s a1) := by
  unfold State.unparkStrips
  repeat' first
    | with_reducible assumption
    | (intro x; first | (refine keeps_cut K x ?_ ?_; rotate_left; intro hx; (try clear_value x); rotate_right; unfold x) | clear_value x | skip)
    | lift_lets
    | with_reducible apply State.enterStrip_keeps hm
    | with_reducible apply keeps_ite
    | with_reducible apply keeps_foldl
    | with_reducible apply keeps_foldl_fst
    | with_reducible apply keeps_foldl_snd
    | split
    | simp only [keeps_upd_eq]
    | dsimp only

theorem State.notifyJob_keeps {K : Kept} {s a1} (h : keeps K s) :
    keeps K (State.notifyJob s a1) := by
  unfold State.notifyJob
  repeat' first
    | with_reducible assumption
    | with_reducible apply State.raiseWork_keeps
    | with_reducible apply keeps_ite
    | split

theorem State.endJob_keeps {K : Kept} {s a1} (h : keeps K s) :
    keeps K (State.endJob s a1) := by
  unfold State.endJob
  repeat' first
    | with_reducible assumption
    | (intro x; first | (refine keeps_cut K x ?_ ?_; rotate_left; intro hx; (try clear_value x); rotate_right; unfold x) | clear_value x | skip)
    | lift_lets
    | with_reducible apply State.setJobs_keeps
    | with_reducible apply State.bump_keeps
    | with_reducible apply keeps_ite
    | split

theorem State.finishJob_keeps {K : Kept} (hm : K.stored = none) {s a1} (h : keeps K s) :
    keeps K (State.finishJob s a1) := by
  unfold State.finishJob
  repeat' first
    | with_reducible assumption
    | (intro x; first | (refine keeps_cut K x ?_ ?_; rotate_left; intro hx; (try clear_value x); rotate_right; unfold x) | clear_value x | skip)
    | lift_lets
    | with_reducible apply State.endJob_keeps
    | with_reducible apply State.notifyJob_keeps
    | with_reducible apply State.askAll_keeps hm
    | with_reducible apply State.innerWrite_keeps hm
    | with_reducible apply State.queueRec_keeps
    | with_reducible apply keeps_ite
    | split

theorem State.jobComplete_keeps {K : Kept} (hm : K.stored = none) {s a1 a2} (h : keeps K s) :
    keeps K (State.jobComplete s a1 a2) := by
  unfold State.jobComplete
  repeat' first
    | with_reducible assumption
    | (intro x; first | (refine keeps_cut K x ?_ ?_; rotate_left; intro hx; (try clear_value x); rotate_right; unfold x) | clear_value x | skip)
    | lift_lets
    | with_reducible apply State.finishJob_keeps hm
    | with_reducible apply State.flushSpoil_keeps hm
    | with_reducible apply State.meet_keeps
    | with_reducible apply keeps_ite
    | split
    | dsimp only

theorem State.redLost_keeps {K : Kept} (hm : K.stored = none) {s a1 a2 a3 a4} (h : keeps K s) :
    keeps K (State.redLost s a1 a2 a3 a4) := by
  unfold State.redLost
  repeat' first
    | with_reducible assumption
    | with_reducible apply State.failJob_keeps hm
    | with_reducible apply State.updJob_keeps

theorem State.enterJob_keeps {K : Kept} {s a1 a2 a3 a4 a5} (h : keeps K s) :
    keeps K (State.enterJob s a1 a2 a3 a4 a5) := by
  unfold State.enterJob
  repeat' first
    | with_reducible assumption
    | (intro x; first | (refine keeps_cut K x ?_ ?_; rotate_left; intro hx; (try clear_value x); rotate_right; unfold x) | clear_value x | skip)
    | lift_lets
    | simp only [keeps_upd_eq]

theorem State.updStrip_keeps {K : Kept} {s a1 a2 a3} (h : keeps K s) :
    keeps K (State.updStrip s a1 a2 a3) := by
  unfold State.updStrip
  repeat' first
    | with_reducible assumption
    | with_reducible apply State.updJob_keeps
    | with_reducible apply keeps_ite
    | split

theorem State.dropStrip_keeps {K : Kept} {s a1 a2} (h : keeps K s) :
    keeps K (State.dropStrip s a1 a2) := by
  unfold State.dropStrip
  repeat' first
    | with_reducible assumption
    | with_reducible apply State.updJob_keeps

theorem State.compute_keeps {K : Kept} (hm : K.stored = none) {s a1 a2 a3} (h : keeps K s) :
    keeps K (State.compute s a1 a2 a3) := by
  unfold State.compute
  repeat' first
    | with_reducible assumption
    | (intro x; first | (refine keeps_cut K x ?_ ?_; rotate_left; intro hx; (try clear_value x); rotate_right; unfold x) | (refine keeps_cut K x.2 ?_ ?_; rotate_left; intro hx; (try clear_value x); rotate_right; unfold x) | clear_value x | skip)
    | lift_lets
    | with_reducible apply State.dropStrip_keeps
    | with_reducible apply State.updStrip_keeps
    | with_reducible apply State.failJob_keeps hm
    | with_reducible apply State.askAll_keeps hm
    | with_reducible apply State.writePieces_keeps hm
    | with_reducible apply State.gatherCva_keeps hm
    | with_reducible apply State.meet_keeps
    | with_reducible apply keeps_ite
    | split
    | dsimp only
    | (refine keeps_of_snd (by with_reducible assumption) ?_)
    | (refine keeps_of_fst (by with_reducible assumption) ?_)

theorem State.dropRecord_keeps {K : Kept} {s a1 a2} (h : keeps K s) :
    keeps K (State.dropRecord s a1 a2) := by
  unfold State.dropRecord
  repeat' first
    | with_reducible assumption
    | (intro x; first | (refine keeps_cut K x ?_ ?_; rotate_left; intro hx; (try clear_value x); rotate_right; unfold x) | clear_value x | skip)
    | lift_lets
    | simp only [keeps_upd_eq]

theorem State.loseStrip_keeps {K : Kept} (hm : K.stored = none) {s a1 a2} (h : keeps K s) :
    keeps K (State.loseStrip s a1 a2) := by
  unfold State.loseStrip
  repeat' first
    | with_reducible assumption
    | (intro x; first | (refine keeps_cut K x ?_ ?_; rotate_left; intro hx; (try clear_value x); rotate_right; unfold x) | clear_value x | skip)
    | lift_lets
    | with_reducible apply State.dropRecord_keeps
    | with_reducible apply State.failJob_keeps hm
    | with_reducible apply State.updJob_keeps
    | with_reducible apply State.bump_keeps
    | with_reducible apply keeps_ite
    | split

theorem State.redsLost_keeps {K : Kept} (hm : K.stored = none) {s a1} (h : keeps K s) :
    keeps K (State.redsLost s a1) := by
  unfold State.redsLost
  repeat' first
    | with_reducible assumption
    | (intro x; first | (refine keeps_cut K x ?_ ?_; rotate_left; intro hx; (try clear_value x); rotate_right; unfold x) | clear_value x | skip)
    | lift_lets
    | with_reducible apply State.redLost_keeps hm
    | with_reducible apply State.dropReq_keeps
    | with_reducible apply State.setDir_keeps
    | with_reducible apply keeps_ite
    | with_reducible apply keeps_foldl
    | with_reducible apply keeps_foldl_fst
    | with_reducible apply keeps_foldl_snd
    | split
    | dsimp only

theorem State.tileFailed_keeps {K : Kept} (hm : K.stored = none) {s a1 a2} (h : keeps K s) :
    keeps K (State.tileFailed s a1 a2) := by
  unfold State.tileFailed
  repeat' first
    | with_reducible assumption
    | (intro x; first | (refine keeps_cut K x ?_ ?_; rotate_left; intro hx; (try clear_value x); rotate_right; unfold x) | clear_value x | skip)
    | lift_lets
    | with_reducible apply State.redsLost_keeps hm
    | with_reducible apply State.loseStrip_keeps hm
    | with_reducible apply State.dropStrip_keeps
    | with_reducible apply State.updStrip_keeps
    | with_reducible apply State.updJob_keeps
    | with_reducible apply State.meet_keeps
    | with_reducible apply State.bump_keeps
    | with_reducible apply keeps_ite
    | split
    | simp only [keeps_upd_eq]
    | dsimp only

theorem State.dispRead_keeps {K : Kept} (hm : K.stored = none) {s a1 a2 a3 a4} (h : keeps K s) :
    keeps K (State.dispRead s a1 a2 a3 a4).2 := by
  unfold State.dispRead
  repeat' first
    | with_reducible assumption
    | (intro x; first | (refine keeps_cut K x ?_ ?_; rotate_left; intro hx; (try clear_value x); rotate_right; unfold x) | (refine keeps_cut K x.2 ?_ ?_; rotate_left; intro hx; (try clear_value x); rotate_right; unfold x) | clear_value x | skip)
    | lift_lets
    | with_reducible apply State.askAll_keeps hm
    | with_reducible apply State.pageFor_keeps
    | with_reducible apply State.readPage_keeps
    | with_reducible apply State.gatherCva_keeps hm
    | with_reducible apply keeps_ite
    | with_reducible apply keeps_ite_snd
    | split
    | dsimp only
    | (refine keeps_of_snd (by with_reducible assumption) ?_)
    | (refine keeps_of_fst (by with_reducible assumption) ?_)
    | dsimp only

theorem State.queueDrop_keeps {K : Kept} {s a1} (h : keeps K s) :
    keeps K (State.queueDrop s a1) := by
  unfold State.queueDrop
  repeat' first
    | with_reducible assumption
    | (intro x; first | (refine keeps_cut K x ?_ ?_; rotate_left; intro hx; (try clear_value x); rotate_right; unfold x) | clear_value x | skip)
    | lift_lets
    | simp only [keeps_upd_eq]

theorem State.sendRed_keeps {K : Kept} {s a1 a2 a3} (h : keeps K s) :
    keeps K (State.sendRed s a1 a2 a3) := by
  unfold State.sendRed
  repeat' first
    | with_reducible assumption
    | (intro x; first | (refine keeps_cut K x ?_ ?_; rotate_left; intro hx; (try clear_value x); rotate_right; unfold x) | clear_value x | skip)
    | lift_lets
    | with_reducible apply State.updJob_keeps
    | with_reducible apply State.sendHome_keeps
    | simp only [keeps_upd_eq]

theorem State.queueWait_keeps {K : Kept} {s a1 a2} (h : keeps K s) :
    keeps K (State.queueWait s a1 a2) := by
  unfold State.queueWait
  repeat' first
    | with_reducible assumption
    | (intro x; first | (refine keeps_cut K x ?_ ?_; rotate_left; intro hx; (try clear_value x); rotate_right; unfold x) | clear_value x | skip)
    | lift_lets
    | with_reducible apply State.queueDrop_keeps
    | with_reducible apply State.setOv_keeps
    | with_reducible apply keeps_ite
    | split
    | simp only [keeps_upd_eq]

theorem State.beginJob_keeps {K : Kept} {s a1 a2 a3} (h : keeps K s) :
    keeps K (State.beginJob s a1 a2 a3) := by
  unfold State.beginJob
  repeat' first
    | with_reducible assumption
    | (intro x; first | (refine keeps_cut K x ?_ ?_; rotate_left; intro hx; (try clear_value x); rotate_right; unfold x) | clear_value x | skip)
    | lift_lets
    | with_reducible apply State.updJob_keeps
    | with_reducible apply State.setOv_keeps
    | simp only [keeps_upd_eq]

theorem State.tryStart_keeps {K : Kept} (hm : K.stored = none) {s a1 a2} (h : keeps K s) :
    keeps K (State.tryStart s a1 a2) := by
  unfold State.tryStart
  repeat' first
    | with_reducible assumption
    | (intro x; first | (refine keeps_cut K x ?_ ?_; rotate_left; intro hx; (try clear_value x); rotate_right; unfold x) | (refine keeps_cut K x.2 ?_ ?_; rotate_left; intro hx; (try clear_value x); rotate_right; unfold x) | clear_value x | skip)
    | lift_lets
    | with_reducible apply State.beginJob_keeps
    | with_reducible apply State.queueWait_keeps
    | with_reducible apply State.dispRead_keeps hm
    | with_reducible apply keeps_ite
    | split
    | dsimp only
    | (refine keeps_of_snd (by with_reducible assumption) ?_)
    | (refine keeps_of_fst (by with_reducible assumption) ?_)

theorem State.jobFetch_keeps {K : Kept} (hm : K.stored = none) {s a1 a2 a3 a4} (h : keeps K s) :
    keeps K (State.jobFetch s a1 a2 a3 a4) := by
  unfold State.jobFetch
  repeat' first
    | with_reducible assumption
    | (intro x; first | (refine keeps_cut K x ?_ ?_; rotate_left; intro hx; (try clear_value x); rotate_right; unfold x) | (refine keeps_cut K x.2 ?_ ?_; rotate_left; intro hx; (try clear_value x); rotate_right; unfold x) | (refine keeps_cutf K x ?_ ?_; rotate_left; intro hf; (try clear_value x); rotate_right; unfold x) | clear_value x | skip)
    | lift_lets
    | with_reducible apply hf
    | with_reducible apply State.tryStart_keeps hm
    | with_reducible apply State.queueWait_keeps
    | with_reducible apply State.dispRead_keeps hm
    | with_reducible apply State.enterJob_keeps
    | with_reducible apply State.meet_keeps
    | with_reducible apply keeps_ite
    | split
    | dsimp only
    | (refine keeps_of_snd (by with_reducible assumption) ?_)
    | (refine keeps_of_fst (by with_reducible assumption) ?_)

theorem State.leaveTile_keeps {K : Kept} {s a1 a2 a3} (h : keeps K s) :
    keeps K (State.leaveTile s a1 a2 a3) := by
  unfold State.leaveTile
  repeat' first
    | with_reducible assumption
    | (intro x; first | (refine keeps_cut K x ?_ ?_; rotate_left; intro hx; (try clear_value x); rotate_right; unfold x) | clear_value x | skip)
    | lift_lets
    | with_reducible apply State.dropRecord_keeps
    | with_reducible apply State.countTally_keeps
    | with_reducible apply State.updJob_keeps

theorem State.cancelJob_keeps {K : Kept} (hm : K.stored = none) {s a1} (h : keeps K s) :
    keeps K (State.cancelJob s a1) := by
  unfold State.cancelJob
  repeat' first
    | with_reducible assumption
    | (intro x; first | (refine keeps_cut K x ?_ ?_; rotate_left; intro hx; (try clear_value x); rotate_right; unfold x) | clear_value x | skip)
    | lift_lets
    | with_reducible apply State.failJob_keeps hm
    | with_reducible apply State.updJob_keeps

theorem State.jqEnable_keeps {K : Kept} {s a1 a2} (h : keeps K s) :
    keeps K (State.jqEnable s a1 a2) := by
  unfold State.jqEnable
  repeat' first
    | with_reducible assumption
    | (intro x; first | (refine keeps_cut K x ?_ ?_; rotate_left; intro hx; (try clear_value x); rotate_right; unfold x) | clear_value x | skip)
    | lift_lets
    | with_reducible apply State.queueDrop_keeps
    | with_reducible apply State.setOv_keeps
    | with_reducible apply keeps_ite
    | split
    | simp only [keeps_upd_eq]

theorem State.publishDone_keeps {K : Kept} {s a1} (h : keeps K s) :
    keeps K (State.publishDone s a1) := by
  unfold State.publishDone
  repeat' first
    | with_reducible assumption
    | (intro x; first | (refine keeps_cut K x ?_ ?_; rotate_left; intro hx; (try clear_value x); rotate_right; unfold x) | clear_value x | skip)
    | lift_lets
    | with_reducible apply State.updJob_keeps
    | with_reducible apply keeps_ite
    | split
    | dsimp only

theorem State.jobBell_keeps {K : Kept} {s a1 a2 a3 a4} (h : keeps K s) :
    keeps K (State.jobBell s a1 a2 a3 a4) := by
  unfold State.jobBell
  repeat' first
    | with_reducible assumption
    | with_reducible apply State.doorbell_keeps
    | with_reducible apply State.bump_keeps
    | with_reducible apply keeps_ite
    | split
    | (refine keeps_of_snd (by with_reducible assumption) ?_)
    | (refine keeps_of_fst (by with_reducible assumption) ?_)

theorem State.stripCommit_keeps {K : Kept} {s a1} (h : keeps K s) :
    keeps K (State.stripCommit s a1) := by
  unfold State.stripCommit
  repeat' first
    | with_reducible assumption
    | (intro x; first | (refine keeps_cut K x ?_ ?_; rotate_left; intro hx; (try clear_value x); rotate_right; unfold x) | clear_value x | skip)
    | lift_lets
    | with_reducible apply State.leaveTile_keeps
    | with_reducible apply State.updStrip_keeps
    | with_reducible apply keeps_ite
    | split
    | simp only [keeps_upd_eq]
    | dsimp only

theorem State.jobTimeout_keeps {K : Kept} (hm : K.stored = none) {s a1 a2 a3} (h : keeps K s) :
    keeps K (State.jobTimeout s a1 a2 a3) := by
  unfold State.jobTimeout
  repeat' first
    | with_reducible assumption
    | with_reducible apply State.queueDrop_keeps
    | with_reducible apply State.failJob_keeps hm
    | with_reducible apply State.meet_keeps
    | with_reducible apply State.setOv_keeps
    | with_reducible apply keeps_ite
    | split

theorem State.redComplete_keeps {K : Kept} (hm : K.stored = none) {s a1 a2} (h : keeps K s) :
    keeps K (State.redComplete s a1 a2) := by
  unfold State.redComplete
  repeat' first
    | with_reducible assumption
    | (intro x; first | (refine keeps_cut K x ?_ ?_; rotate_left; intro hx; (try clear_value x); rotate_right; unfold x) | clear_value x | skip)
    | lift_lets
    | with_reducible apply State.redLost_keeps hm
    | with_reducible apply State.failJob_keeps hm
    | with_reducible apply State.updJob_keeps
    | with_reducible apply State.sendHome_keeps
    | with_reducible apply State.meet_keeps
    | split
    | simp only [keeps_upd_eq]
    | dsimp only

theorem State.replayStrip_keeps {K : Kept} (hm : K.stored = none) {s a1 a2 a3} (h : keeps K s) :
    keeps K (State.replayStrip s a1 a2 a3) := by
  unfold State.replayStrip
  repeat' first
    | with_reducible assumption
    | with_reducible apply State.loseStrip_keeps hm
    | with_reducible apply State.updJob_keeps
    | with_reducible apply State.bump_keeps
    | with_reducible apply keeps_ite
    | split

theorem State.stripStart_keeps {K : Kept} (hm : K.stored = none) {s a1 a2 a3} (h : keeps K s) :
    keeps K (State.stripStart s a1 a2 a3) := by
  unfold State.stripStart
  repeat' first
    | with_reducible assumption
    | (intro x; first | (refine keeps_cut K x ?_ ?_; rotate_left; intro hx; (try clear_value x); rotate_right; unfold x) | clear_value x | skip)
    | lift_lets
    | with_reducible apply State.replayStrip_keeps hm
    | with_reducible apply State.enterStrip_keeps hm
    | with_reducible apply State.updJob_keeps
    | with_reducible apply State.meet_keeps
    | with_reducible apply State.bump_keeps
    | with_reducible apply keeps_ite
    | split
    | simp only [keeps_upd_eq]
    | dsimp only

theorem State.stripApply_keeps {K : Kept} (hm : K.stored = none) {s a1 a2} (h : keeps K s) :
    keeps K (State.stripApply s a1 a2) := by
  unfold State.stripApply
  repeat' first
    | with_reducible assumption
    | (intro x; first | (refine keeps_cut K x ?_ ?_; rotate_left; intro hx; (try clear_value x); rotate_right; unfold x) | clear_value x | skip)
    | lift_lets
    | with_reducible apply State.leaveTile_keeps
    | with_reducible apply State.sendRed_keeps
    | with_reducible apply State.failJob_keeps hm
    | with_reducible apply State.askAll_keeps hm
    | with_reducible apply State.writePieces_keeps hm
    | with_reducible apply State.meet_keeps
    | with_reducible apply keeps_ite
    | with_reducible apply keeps_foldl
    | with_reducible apply keeps_foldl_fst
    | with_reducible apply keeps_foldl_snd
    | split
    | dsimp only

theorem State.cancelJobs_keeps {K : Kept} (hm : K.stored = none) {s a1 a2} (h : keeps K s) :
    keeps K (State.cancelJobs s a1 a2) := by
  unfold State.cancelJobs
  repeat' first
    | with_reducible assumption
    | intro x
    | with_reducible apply State.cancelJob_keeps hm
    | with_reducible apply State.meet_keeps
    | with_reducible apply keeps_foldl
    | with_reducible apply keeps_foldl_fst
    | with_reducible apply keeps_foldl_snd

theorem State.updOps_keeps {K : Kept} {s a1 a2} (h : keeps K s) :
    keeps K (State.updOps s a1 a2) := by
  unfold State.updOps
  repeat' first
    | with_reducible assumption
    | (intro x; first | (refine keeps_cut K x ?_ ?_; rotate_left; intro hx; (try clear_value x); rotate_right; unfold x) | clear_value x | skip)
    | lift_lets
    | with_reducible apply keeps_ite
    | split
    | simp only [keeps_upd_eq]

theorem State.updMig_keeps {K : Kept} {s a1 a2} (h : keeps K s) :
    keeps K (State.updMig s a1 a2) := by
  unfold State.updMig
  repeat' first
    | with_reducible assumption
    | with_reducible apply keeps_ite
    | split
    | simp only [keeps_upd_eq]

theorem State.noteMoved_keeps {K : Kept} {s a1 a2} (h : keeps K s) :
    keeps K (State.noteMoved s a1 a2) := by
  unfold State.noteMoved
  repeat' first
    | with_reducible assumption
    | with_reducible apply State.updOps_keeps
    | with_reducible apply State.bump_keeps
    | with_reducible apply keeps_ite
    | split

theorem State.copyLines_keeps {K : Kept} (hm : K.stored = none) {s a1 a2 a3} (h : keeps K s) :
    keeps K (State.copyLines s a1 a2 a3) := by
  induction a3 generalizing s a1 a2 with
  | nil =>
    first | rw [State.copyLines] | unfold State.copyLines
    repeat' first
      | with_reducible assumption
      | (intro x; first | (refine keeps_cut K x ?_ ?_; rotate_left; intro hx; (try clear_value x); rotate_right; unfold x) | (refine keeps_cut K x.2 ?_ ?_; rotate_left; intro hx; (try clear_value x); rotate_right; unfold x) | (refine keeps_cutf2 K x ?_ ?_; rotate_left; intro hf; (try clear_value x); rotate_right; unfold x) | clear_value x | skip)
      | lift_lets
      | with_reducible apply hf
      | with_reducible apply State.noteMoved_keeps
      | with_reducible apply State.innerLine_keeps hm
      | with_reducible apply State.innerRead_keeps hm
      | with_reducible apply State.notePoison_keeps
      | with_reducible apply keeps_ite
      | with_reducible apply keeps_foldl
      | with_reducible apply keeps_foldl_fst
      | with_reducible apply keeps_foldl_snd
      | split
  | cons y t ih =>
    first | rw [State.copyLines] | unfold State.copyLines
    repeat' first
      | with_reducible assumption
      | (intro x; first | (refine keeps_cut K x ?_ ?_; rotate_left; intro hx; (try clear_value x); rotate_right; unfold x) | (refine keeps_cut K x.2 ?_ ?_; rotate_left; intro hx; (try clear_value x); rotate_right; unfold x) | (refine keeps_cutf2 K x ?_ ?_; rotate_left; intro hf; (try clear_value x); rotate_right; unfold x) | clear_value x | skip)
      | lift_lets
      | with_reducible apply hf
      | with_reducible apply ih
      | with_reducible apply State.noteMoved_keeps
      | with_reducible apply State.innerLine_keeps hm
      | with_reducible apply State.innerRead_keeps hm
      | with_reducible apply State.notePoison_keeps
      | with_reducible apply keeps_ite
      | with_reducible apply keeps_foldl
      | with_reducible apply keeps_foldl_fst
      | with_reducible apply keeps_foldl_snd
      | split

theorem State.copyChunk_keeps {K : Kept} (hm : K.stored = none) {s a1 a2} (h : keeps K s) :
    keeps K (State.copyChunk s a1 a2).2 := by
  unfold State.copyChunk
  repeat' first
    | with_reducible assumption
    | (intro x; first | (refine keeps_cut K x ?_ ?_; rotate_left; intro hx; (try clear_value x); rotate_right; unfold x) | (refine keeps_cut K x.2 ?_ ?_; rotate_left; intro hx; (try clear_value x); rotate_right; unfold x) | clear_value x | skip)
    | lift_lets
    | with_reducible apply State.copyLines_keeps hm
    | with_reducible apply State.updMig_keeps
    | with_reducible apply State.updOps_keeps
    | with_reducible apply State.askAll_keeps hm
    | with_reducible apply keeps_ite
    | with_reducible apply keeps_ite_snd
    | split
    | dsimp only

theorem State.beginMove_keeps {K : Kept} {s a1 a2 a3 a4} (h : keeps K s) :
    keeps K (State.beginMove s a1 a2 a3 a4) := by
  unfold State.beginMove
  repeat' first
    | with_reducible assumption
    | (intro x; first | (refine keeps_cut K x ?_ ?_; rotate_left; intro hx; (try clear_value x); rotate_right; unfold x) | (refine keeps_cutf3 K x ?_ ?_; rotate_left; intro hf; (try clear_value x); rotate_right; unfold x) | clear_value x | skip)
    | lift_lets
    | with_reducible apply hf
    | with_reducible apply State.setFrame_keeps
    | split
    | simp only [keeps_upd_eq]
    | dsimp only

theorem State.placeFirst_keeps {K : Kept} {s a1} (h : keeps K s) :
    keeps K (State.placeFirst s a1) := by
  induction a1 generalizing s with
  | nil =>
    first | rw [State.placeFirst] | unfold State.placeFirst
    repeat' first
      | with_reducible assumption
      | with_reducible apply State.beginMove_keeps
      | with_reducible apply keeps_ite
      | split
  | cons y t ih =>
    first | rw [State.placeFirst] | unfold State.placeFirst
    repeat' first
      | with_reducible assumption
      | with_reducible apply ih
      | with_reducible apply State.beginMove_keeps
      | with_reducible apply keeps_ite
      | split

theorem State.switchFrames_keeps {K : Kept} {s a1} (h : keeps K s) :
    keeps K (State.switchFrames s a1) := by
  unfold State.switchFrames
  repeat' first
    | with_reducible assumption
    | (intro x; first | (refine keeps_cut K x ?_ ?_; rotate_left; intro hx; (try clear_value x); rotate_right; unfold x) | clear_value x | skip)
    | lift_lets
    | with_reducible apply State.updMig_keeps
    | with_reducible apply State.addInternals_keeps
    | with_reducible apply State.setExt_keeps
    | with_reducible apply keeps_ite
    | split
    | dsimp only

theorem State.drainCheck_keeps {K : Kept} {s a1} (h : keeps K s) :
    keeps K (State.drainCheck s a1) := by
  unfold State.drainCheck
  repeat' first
    | with_reducible assumption
    | (intro x; first | (refine keeps_cut K x ?_ ?_; rotate_left; intro hx; (try clear_value x); rotate_right; unfold x) | clear_value x | skip)
    | lift_lets
    | with_reducible apply State.setUnitSt_keeps
    | with_reducible apply State.setOv_keeps
    | with_reducible apply keeps_ite
    | split
    | simp only [keeps_upd_eq]

theorem State.drainFails_keeps {K : Kept} {s a1} (h : keeps K s) :
    keeps K (State.drainFails s a1) := by
  unfold State.drainFails
  repeat' first
    | with_reducible assumption
    | (intro x; first | (refine keeps_cut K x ?_ ?_; rotate_left; intro hx; (try clear_value x); rotate_right; unfold x) | clear_value x | skip)
    | lift_lets
    | with_reducible apply State.setUnitSt_keeps
    | with_reducible apply State.setOv_keeps
    | with_reducible apply keeps_ite
    | split
    | simp only [keeps_upd_eq]

theorem State.markDraining_keeps {K : Kept} {s a1} (h : keeps K s) :
    keeps K (State.markDraining s a1) := by
  unfold State.markDraining
  repeat' first
    | with_reducible assumption
    | with_reducible apply State.setUnitSt_keeps

theorem State.startDrain_keeps {K : Kept} {s a1 a2 a3} (h : keeps K s) :
    keeps K (State.startDrain s a1 a2 a3).2 := by
  unfold State.startDrain
  repeat' first
    | with_reducible assumption
    | (intro x; first | (refine keeps_cut K x ?_ ?_; rotate_left; intro hx; (try clear_value x); rotate_right; unfold x) | (refine keeps_cut K x.2 ?_ ?_; rotate_left; intro hx; (try clear_value x); rotate_right; unfold x) | clear_value x | skip)
    | lift_lets
    | with_reducible apply State.markDraining_keeps
    | with_reducible apply State.drainCheck_keeps
    | with_reducible apply keeps_ite
    | with_reducible apply keeps_ite_snd
    | split
    | simp only [keeps_upd_eq]
    | dsimp only

theorem State.drainMove_keeps {K : Kept} {s a1} (h : keeps K s) :
    keeps K (State.drainMove s a1) := by
  unfold State.drainMove
  repeat' first
    | with_reducible assumption
    | (intro x; first | (refine keeps_cut K x ?_ ?_; rotate_left; intro hx; (try clear_value x); rotate_right; unfold x) | (refine keeps_cut K x.2 ?_ ?_; rotate_left; intro hx; (try clear_value x); rotate_right; unfold x) | clear_value x | skip)
    | lift_lets
    | with_reducible apply State.startDrain_keeps
    | with_reducible apply State.drainFails_keeps
    | with_reducible apply State.drainCheck_keeps
    | with_reducible apply State.beginMove_keeps
    | with_reducible apply keeps_ite
    | split
    | dsimp only
    | (refine keeps_of_snd (by with_reducible assumption) ?_)
    | (refine keeps_of_fst (by with_reducible assumption) ?_)

theorem State.relayMove_keeps {K : Kept} {s a1} (h : keeps K s) :
    keeps K (State.relayMove s a1) := by
  unfold State.relayMove
  repeat' first
    | with_reducible assumption
    | with_reducible apply State.beginMove_keeps
    | with_reducible apply State.setOv_keeps
    | with_reducible apply keeps_ite
    | split

theorem State.abandonClosed_keeps {K : Kept} {s} (h : keeps K s) :
    keeps K (State.abandonClosed s) := by
  unfold State.abandonClosed
  repeat' first
    | with_reducible assumption
    | with_reducible apply State.abandonIf_keeps

theorem State.placeStart_keeps {K : Kept} {s} (h : keeps K s) :
    keeps K (State.placeStart s) := by
  unfold State.placeStart
  repeat' first
    | with_reducible assumption
    | with_reducible apply State.placeFirst_keeps
    | with_reducible apply keeps_ite
    | split

theorem State.migrationDone_keeps {K : Kept} {s a1} (h : keeps K s) :
    keeps K (State.migrationDone s a1) := by
  unfold State.migrationDone
  repeat' first
    | with_reducible assumption
    | (intro x; first | (refine keeps_cut K x ?_ ?_; rotate_left; intro hx; (try clear_value x); rotate_right; unfold x) | clear_value x | skip)
    | lift_lets
    | with_reducible apply State.drainCheck_keeps
    | with_reducible apply State.mirrorFields_keeps
    | with_reducible apply State.setTarget_keeps
    | with_reducible apply State.freeFrame_keeps
    | with_reducible apply State.bump_keeps
    | with_reducible apply State.setOv_keeps
    | with_reducible apply keeps_ite
    | split
    | simp only [keeps_upd_eq]
    | dsimp only

theorem State.passEnd_keeps {K : Kept} {s a1} (h : keeps K s) :
    keeps K (State.passEnd s a1) := by
  unfold State.passEnd
  repeat' first
    | with_reducible assumption
    | (intro x; first | (refine keeps_cut K x ?_ ?_; rotate_left; intro hx; (try clear_value x); rotate_right; unfold x) | clear_value x | skip)
    | lift_lets
    | with_reducible apply State.updMig_keeps
    | with_reducible apply keeps_ite
    | split
    | dsimp only

theorem State.placePages_keeps {K : Kept} {s a1 a2 a3 a4} (h : keeps K s) :
    keeps K (State.placePages s a1 a2 a3 a4) := by
  induction a4 generalizing s a1 a2 a3 with
  | zero =>
    first | rw [State.placePages] | unfold State.placePages
    repeat' first
      | with_reducible assumption
      | (intro x; first | (refine keeps_cut K x ?_ ?_; rotate_left; intro hx; (try clear_value x); rotate_right; unfold x) | clear_value x | skip)
      | lift_lets
      | with_reducible apply State.setTarget_keeps
      | with_reducible apply keeps_ite
      | split
  | succ n ih =>
    first | rw [State.placePages] | unfold State.placePages
    repeat' first
      | with_reducible assumption
      | (intro x; first | (refine keeps_cut K x ?_ ?_; rotate_left; intro hx; (try clear_value x); rotate_right; unfold x) | clear_value x | skip)
      | lift_lets
      | with_reducible apply ih
      | with_reducible apply State.setTarget_keeps
      | with_reducible apply keeps_ite
      | split

theorem State.place_keeps {K : Kept} {s} (h : keeps K s) :
    keeps K (State.place s) := by
  unfold State.place
  repeat' first
    | with_reducible assumption
    | (intro x; first | (refine keeps_cut K x ?_ ?_; rotate_left; intro hx; (try clear_value x); rotate_right; unfold x) | clear_value x | skip)
    | lift_lets
    | with_reducible apply State.placePages_keeps
    | with_reducible apply State.setOv_keeps
    | with_reducible apply keeps_ite
    | split

theorem State.finalPassEnd_keeps {K : Kept} {s a1 a2} (h : keeps K s) :
    keeps K (State.finalPassEnd s a1 a2) := by
  unfold State.finalPassEnd
  repeat' first
    | with_reducible assumption
    | with_reducible apply State.switchFrames_keeps
    | with_reducible apply State.updMig_keeps
    | with_reducible apply State.meet_keeps
    | with_reducible apply keeps_ite
    | split

theorem State.dropServed_keeps {K : Kept} {s a1} (h : keeps K s) :
    keeps K (State.dropServed s a1) := by
  unfold State.dropServed
  repeat' first
    | with_reducible assumption
    | (intro x; first | (refine keeps_cut K x ?_ ?_; rotate_left; intro hx; (try clear_value x); rotate_right; unfold x) | clear_value x | skip)
    | lift_lets
    | simp only [keeps_upd_eq]

theorem State.keepServed_keeps {K : Kept} {s a1} (h : keeps K s) :
    keeps K (State.keepServed s a1) := by
  unfold State.keepServed
  repeat' first
    | with_reducible assumption
    | (intro x; first | (refine keeps_cut K x ?_ ?_; rotate_left; intro hx; (try clear_value x); rotate_right; unfold x) | clear_value x | skip)
    | lift_lets
    | simp only [keeps_upd_eq]

theorem State.updOp_keeps {K : Kept} {s a1 a2} (h : keeps K s) :
    keeps K (State.updOp s a1 a2) := by
  unfold State.updOp
  repeat' first
    | with_reducible assumption
    | (intro x; first | (refine keeps_cut K x ?_ ?_; rotate_left; intro hx; (try clear_value x); rotate_right; unfold x) | clear_value x | skip)
    | lift_lets
    | with_reducible apply keeps_ite
    | split
    | simp only [keeps_upd_eq]

theorem State.noteCopied_keeps {K : Kept} {s a1 a2} (h : keeps K s) :
    keeps K (State.noteCopied s a1 a2) := by
  unfold State.noteCopied
  repeat' first
    | with_reducible assumption
    | with_reducible apply State.updOp_keeps
    | with_reducible apply State.bump_keeps
    | with_reducible apply keeps_ite
    | split

theorem State.landLines_keeps {K : Kept} (hm : K.stored = none) {s a1 a2} (h : keeps K s) :
    keeps K (State.landLines s a1 a2) := by
  induction a2 generalizing s a1 with
  | nil =>
    first | rw [State.landLines] | unfold State.landLines
    repeat' first
      | with_reducible assumption
      | with_reducible apply State.noteCopied_keeps
      | with_reducible apply State.innerLine_keeps hm
  | cons y t ih =>
    first | rw [State.landLines] | unfold State.landLines
    repeat' first
      | with_reducible assumption
      | with_reducible apply ih
      | with_reducible apply State.noteCopied_keeps
      | with_reducible apply State.innerLine_keeps hm

theorem State.blkAnswer_keeps {K : Kept} {s a1 a2 a3 a4 a5} (h : keeps K s) :
    keeps K (State.blkAnswer s a1 a2 a3 a4 a5) := by
  unfold State.blkAnswer
  repeat' first
    | with_reducible assumption
    | with_reducible apply State.send_keeps

theorem State.serveMwr_keeps {K : Kept} (hm : K.stored = none) {s a1} (h : keeps K s) :
    keeps K (State.serveMwr s a1) := by
  unfold State.serveMwr
  repeat' first
    | with_reducible assumption
    | (intro x; first | (refine keeps_cut K x ?_ ?_; rotate_left; intro hx; (try clear_value x); rotate_right; unfold x) | clear_value x | skip)
    | lift_lets
    | with_reducible apply State.blkAnswer_keeps
    | with_reducible apply State.landLines_keeps hm
    | with_reducible apply State.keepServed_keeps
    | with_reducible apply State.dropServed_keeps
    | with_reducible apply State.askAll_keeps hm
    | with_reducible apply keeps_ite
    | split

theorem State.serveMwrs_keeps {K : Kept} (hm : K.stored = none) {s} (h : keeps K s) :
    keeps K (State.serveMwrs s) := by
  unfold State.serveMwrs
  repeat' first
    | with_reducible assumption
    | intro x
    | with_reducible apply State.serveMwr_keeps hm
    | with_reducible apply keeps_foldl
    | with_reducible apply keeps_foldl_fst
    | with_reducible apply keeps_foldl_snd

theorem State.sendParts_keeps {K : Kept} {s a1 a2 a3} (h : keeps K s) :
    keeps K (State.sendParts s a1 a2 a3) := by
  induction a3 generalizing s a1 a2 with
  | nil =>
    first | rw [State.sendParts] | unfold State.sendParts
    repeat' first
      | with_reducible assumption
      | with_reducible apply State.send_keeps
  | cons y t ih =>
    first | rw [State.sendParts] | unfold State.sendParts
    repeat' first
      | with_reducible assumption
      | with_reducible apply ih
      | with_reducible apply State.send_keeps

theorem State.shaperTake_keeps {K : Kept} {s a1 a2} (h : keeps K s) :
    keeps K (State.shaperTake s a1 a2) := by
  unfold State.shaperTake
  repeat' first
    | with_reducible assumption
    | (intro x; first | (refine keeps_cut K x ?_ ?_; rotate_left; intro hx; (try clear_value x); rotate_right; unfold x) | clear_value x | skip)
    | lift_lets
    | with_reducible apply State.setCtx_keeps
    | with_reducible apply keeps_ite
    | split
    | simp only [keeps_upd_eq]

theorem State.readLines_keeps {K : Kept} (hm : K.stored = none) {s a1} (h : keeps K s) :
    keeps K (State.readLines s a1).2.2 := by
  induction a1 generalizing s with
  | nil =>
    first | rw [State.readLines] | unfold State.readLines
    repeat' first
      | with_reducible assumption
      | (intro x; first | (refine keeps_cut K x ?_ ?_; rotate_left; intro hx; (try clear_value x); rotate_right; unfold x) | (refine keeps_cut K x.2 ?_ ?_; rotate_left; intro hx; (try clear_value x); rotate_right; unfold x) | (refine keeps_cut K x.2.2 ?_ ?_; rotate_left; intro hx; (try clear_value x); rotate_right; unfold x) | clear_value x | skip)
      | lift_lets
      | with_reducible apply State.innerRead_keeps hm
      | dsimp only
  | cons y t ih =>
    first | rw [State.readLines] | unfold State.readLines
    repeat' first
      | with_reducible assumption
      | (intro x; first | (refine keeps_cut K x ?_ ?_; rotate_left; intro hx; (try clear_value x); rotate_right; unfold x) | (refine keeps_cut K x.2 ?_ ?_; rotate_left; intro hx; (try clear_value x); rotate_right; unfold x) | (refine keeps_cut K x.2.2 ?_ ?_; rotate_left; intro hx; (try clear_value x); rotate_right; unfold x) | clear_value x | skip)
      | lift_lets
      | with_reducible apply ih
      | with_reducible apply State.innerRead_keeps hm
      | dsimp only

theorem State.shaperWait_keeps {K : Kept} {s a1 a2} (h : keeps K s) :
    keeps K (State.shaperWait s a1 a2) := by
  unfold State.shaperWait
  repeat' first
    | with_reducible assumption
    | (intro x; first | (refine keeps_cut K x ?_ ?_; rotate_left; intro hx; (try clear_value x); rotate_right; unfold x) | clear_value x | skip)
    | lift_lets
    | with_reducible apply State.bump_keeps
    | with_reducible apply keeps_ite
    | split
    | simp only [keeps_upd_eq]

theorem State.serveChunk_keeps {K : Kept} (hm : K.stored = none) {s a1} (h : keeps K s) :
    keeps K (State.serveChunk s a1).2 := by
  unfold State.serveChunk
  repeat' first
    | with_reducible assumption
    | (intro x; first | (refine keeps_cut K x ?_ ?_; rotate_left; intro hx; (try clear_value x); rotate_right; unfold x) | (refine keeps_cut K x.2 ?_ ?_; rotate_left; intro hx; (try clear_value x); rotate_right; unfold x) | (refine keeps_cut K x.2.2 ?_ ?_; rotate_left; intro hx; (try clear_value x); rotate_right; unfold x) | clear_value x | skip)
    | lift_lets
    | with_reducible apply State.shaperWait_keeps
    | with_reducible apply State.readLines_keeps hm
    | with_reducible apply State.shaperTake_keeps
    | with_reducible apply State.sendParts_keeps
    | with_reducible apply State.blkAnswer_keeps
    | with_reducible apply State.landLines_keeps hm
    | with_reducible apply State.dropServed_keeps
    | with_reducible apply State.askAll_keeps hm
    | with_reducible apply keeps_ite
    | with_reducible apply keeps_ite_snd
    | split
    | dsimp only

theorem State.peerLines_keeps {K : Kept} (hm : K.stored = none) {s a1} (h : keeps K s) :
    keeps K (State.peerLines s a1) := by
  induction a1 generalizing s with
  | nil =>
    first | rw [State.peerLines] | unfold State.peerLines
    repeat' first
      | with_reducible assumption
      | (intro x; first | (refine keeps_cut K x ?_ ?_; rotate_left; intro hx; (try clear_value x); rotate_right; unfold x) | (refine keeps_cut K x.2 ?_ ?_; rotate_left; intro hx; (try clear_value x); rotate_right; unfold x) | clear_value x | skip)
      | lift_lets
      | with_reducible apply State.innerRead_keeps hm
      | with_reducible apply State.peerWrite_keeps
  | cons y t ih =>
    first | rw [State.peerLines] | unfold State.peerLines
    repeat' first
      | with_reducible assumption
      | (intro x; first | (refine keeps_cut K x ?_ ?_; rotate_left; intro hx; (try clear_value x); rotate_right; unfold x) | (refine keeps_cut K x.2 ?_ ?_; rotate_left; intro hx; (try clear_value x); rotate_right; unfold x) | clear_value x | skip)
      | lift_lets
      | with_reducible apply ih
      | with_reducible apply State.innerRead_keeps hm
      | with_reducible apply State.peerWrite_keeps

theorem State.resyncChunk_keeps {K : Kept} (hm : K.stored = none) {s a1} (h : keeps K s) :
    keeps K (State.resyncChunk s a1).2 := by
  unfold State.resyncChunk
  repeat' first
    | with_reducible assumption
    | (intro x; first | (refine keeps_cut K x ?_ ?_; rotate_left; intro hx; (try clear_value x); rotate_right; unfold x) | (refine keeps_cut K x.2 ?_ ?_; rotate_left; intro hx; (try clear_value x); rotate_right; unfold x) | clear_value x | skip)
    | lift_lets
    | with_reducible apply State.peerLines_keeps hm
    | with_reducible apply State.askAll_keeps hm
    | with_reducible apply keeps_ite
    | with_reducible apply keeps_ite_snd
    | split
    | simp only [keeps_upd_eq]
    | dsimp only

theorem State.charge_keeps {K : Kept} {s a1 a2} (h : keeps K s) :
    keeps K (State.charge s a1 a2) := by
  unfold State.charge
  repeat' first
    | with_reducible assumption
    | (intro x; first | (refine keeps_cut K x ?_ ?_; rotate_left; intro hx; (try clear_value x); rotate_right; unfold x) | clear_value x | skip)
    | lift_lets
    | simp only [keeps_upd_eq]

theorem State.ownChunk_keeps {K : Kept} (hm : K.stored = none) {s a1} (h : keeps K s) :
    keeps K (State.ownChunk s a1) := by
  unfold State.ownChunk
  repeat' first
    | with_reducible assumption
    | (intro x; first | (refine keeps_cut K x ?_ ?_; rotate_left; intro hx; (try clear_value x); rotate_right; unfold x) | (refine keeps_cut K x.2 ?_ ?_; rotate_left; intro hx; (try clear_value x); rotate_right; unfold x) | clear_value x | skip)
    | lift_lets
    | with_reducible apply State.charge_keeps
    | with_reducible apply State.resyncChunk_keeps hm
    | with_reducible apply State.serveChunk_keeps hm
    | with_reducible apply State.copyChunk_keeps hm
    | with_reducible apply State.bump_keeps
    | with_reducible apply keeps_ite
    | split
    | dsimp only
    | (refine keeps_of_snd (by with_reducible assumption) ?_)
    | (refine keeps_of_fst (by with_reducible assumption) ?_)

theorem State.chunkDone_keeps {K : Kept} (hm : K.stored = none) {s a1 a2 a3 a4} (h : keeps K s) :
    keeps K (State.chunkDone s a1 a2 a3 a4) := by
  unfold State.chunkDone
  repeat' first
    | with_reducible assumption
    | with_reducible apply State.ownChunk_keeps hm
    | with_reducible apply State.serveMwrs_keeps hm
    | with_reducible apply State.updOp_keeps
    | with_reducible apply State.meet_keeps
    | with_reducible apply State.bump_keeps
    | with_reducible apply keeps_ite
    | split

theorem State.blkProbe_keeps {K : Kept} {s a1 a2} (h : keeps K s) :
    keeps K (State.blkProbe s a1 a2) := by
  unfold State.blkProbe
  repeat' first
    | with_reducible assumption
    | with_reducible apply State.blkAnswer_keeps
    | split

theorem State.trBell_keeps {K : Kept} {s a1 a2} (h : keeps K s) :
    keeps K (State.trBell s a1 a2) := by
  unfold State.trBell
  repeat' first
    | with_reducible assumption
    | (intro x; first | (refine keeps_cut K x ?_ ?_; rotate_left; intro hx; (try clear_value x); rotate_right; unfold x) | clear_value x | skip)
    | lift_lets
    | with_reducible apply State.bump_keeps
    | with_reducible apply State.setOv_keeps
    | with_reducible apply keeps_ite
    | split

theorem State.tenderFetch_keeps {K : Kept} {s a1 a2} (h : keeps K s) :
    keeps K (State.tenderFetch s a1 a2) := by
  unfold State.tenderFetch
  repeat' first
    | with_reducible assumption
    | (intro x; first | (refine keeps_cut K x ?_ ?_; rotate_left; intro hx; (try clear_value x); rotate_right; unfold x) | clear_value x | skip)
    | lift_lets
    | with_reducible apply State.setOv_keeps
    | with_reducible apply keeps_ite
    | split
    | simp only [keeps_upd_eq]

theorem State.blkPut_keeps {K : Kept} {s a1 a2} (h : keeps K s) :
    keeps K (State.blkPut s a1 a2) := by
  unfold State.blkPut
  repeat' first
    | with_reducible assumption
    | (intro x; first | (refine keeps_cut K x ?_ ?_; rotate_left; intro hx; (try clear_value x); rotate_right; unfold x) | clear_value x | skip)
    | lift_lets
    | with_reducible apply State.blkAnswer_keeps
    | with_reducible apply State.keepServed_keeps
    | with_reducible apply State.dropServed_keeps
    | with_reducible apply keeps_ite
    | split
    | apply keeps_ite

theorem State.failOp_keeps {K : Kept} {s a1 a2} (h : keeps K s) :
    keeps K (State.failOp s a1 a2) := by
  unfold State.failOp
  repeat' first
    | with_reducible assumption
    | with_reducible apply State.updOp_keeps
    | with_reducible apply keeps_ite
    | split

theorem State.hostLines_keeps {K : Kept} (hm : K.stored = none) {s a1 a2 a3 a4} (h : keeps K s) :
    keeps K (State.hostLines s a1 a2 a3 a4) := by
  induction a4 generalizing s a1 a2 a3 with
  | nil =>
    first | rw [State.hostLines] | unfold State.hostLines
    repeat' first
      | with_reducible assumption
      | (intro x; first | (refine keeps_cut K x ?_ ?_; rotate_left; intro hx; (try clear_value x); rotate_right; unfold x) | (refine keeps_cut K x.2 ?_ ?_; rotate_left; intro hx; (try clear_value x); rotate_right; unfold x) | clear_value x | skip)
      | lift_lets
      | with_reducible apply State.noteCopied_keeps
      | with_reducible apply State.innerRead_keeps hm
      | with_reducible apply State.event_keeps
      | with_reducible apply State.emit_keeps
      | with_reducible apply keeps_ite
      | split
  | cons y t ih =>
    first | rw [State.hostLines] | unfold State.hostLines
    repeat' first
      | with_reducible assumption
      | (intro x; first | (refine keeps_cut K x ?_ ?_; rotate_left; intro hx; (try clear_value x); rotate_right; unfold x) | (refine keeps_cut K x.2 ?_ ?_; rotate_left; intro hx; (try clear_value x); rotate_right; unfold x) | clear_value x | skip)
      | lift_lets
      | with_reducible apply ih
      | with_reducible apply State.noteCopied_keeps
      | with_reducible apply State.innerRead_keeps hm
      | with_reducible apply State.event_keeps
      | with_reducible apply State.emit_keeps
      | with_reducible apply keeps_ite
      | split

theorem State.chunkTaken_keeps {K : Kept} {s a1 a2 a3 a4} (h : keeps K s) :
    keeps K (State.chunkTaken s a1 a2 a3 a4) := by
  unfold State.chunkTaken
  repeat' first
    | with_reducible assumption
    | with_reducible apply State.charge_keeps
    | with_reducible apply State.updOp_keeps
    | with_reducible apply keeps_ite
    | split

theorem State.withLines_keeps {K : Kept} (hm : K.stored = none) {s : State} {a1 : Tend} {a2 a3 : List Want} {a4 : State → State}
    (h : keeps K s) (h1 : keeps K (a4 s)) : keeps K (State.withLines s a1 a2 a3 a4) := by
  unfold State.withLines
  split
  · exact State.failOp_keeps h
  · split
    · exact h1
    · exact State.askAll_keeps hm h

theorem State.runHostOut_keeps {K : Kept} (hm : K.stored = none) {s a1 a2 a3} (h : keeps K s) :
    keeps K (State.runHostOut s a1 a2 a3) := by
  unfold State.runHostOut
  repeat' first
    | with_reducible assumption
    | (intro x; first | (refine keeps_cut K x ?_ ?_; rotate_left; intro hx; (try clear_value x); rotate_right; unfold x) | clear_value x | skip)
    | lift_lets
    | with_reducible apply State.withLines_keeps hm
    | with_reducible apply State.chunkTaken_keeps
    | with_reducible apply State.hostLines_keeps hm
    | with_reducible apply State.failOp_keeps
    | with_reducible apply State.meet_keeps
    | with_reducible apply keeps_ite
    | split
    | dsimp only

theorem State.degrade_keeps {K : Kept} {s a1} (h : keeps K s) :
    keeps K (State.degrade s a1) := by
  unfold State.degrade
  repeat' first
    | with_reducible assumption
    | (intro x; first | (refine keeps_cut K x ?_ ?_; rotate_left; intro hx; (try clear_value x); rotate_right; unfold x) | clear_value x | skip)
    | lift_lets
    | with_reducible apply State.setExt_keeps
    | with_reducible apply State.event_keeps
    | with_reducible apply State.bump_keeps
    | with_reducible apply keeps_ite
    | split
    | simp only [keeps_upd_eq]
    | dsimp only

theorem State.remoteTimeout_keeps {K : Kept} {s a1} (h : keeps K s) :
    keeps K (State.remoteTimeout s a1) := by
  unfold State.remoteTimeout
  repeat' first
    | with_reducible assumption
    | with_reducible apply State.degrade_keeps
    | with_reducible apply State.failOp_keeps
    | with_reducible apply State.extDone_keeps
    | with_reducible apply keeps_ite
    | split

theorem State.sendGet_keeps {K : Kept} {s a1 a2 a3} (h : keeps K s) :
    keeps K (State.sendGet s a1 a2 a3) := by
  unfold State.sendGet
  repeat' first
    | with_reducible assumption
    | with_reducible apply State.send_keeps
    | split

theorem State.mwr_keeps {K : Kept} (hm : K.stored = none) {s a1 a2 a3} (h : keeps K s) :
    keeps K (State.mwr s a1 a2 a3) := by
  unfold State.mwr
  repeat' first
    | with_reducible assumption
    | with_reducible apply State.serveMwr_keeps hm
    | with_reducible apply State.meet_keeps

theorem State.openRemote_keeps {K : Kept} {s a1 a2} (h : keeps K s) :
    keeps K (State.openRemote s a1 a2) := by
  unfold State.openRemote
  repeat' first
    | with_reducible assumption
    | with_reducible apply State.updOp_keeps
    | simp only [keeps_upd_eq]

theorem State.tenderTimeout_keeps {K : Kept} {s a1} (h : keeps K s) :
    keeps K (State.tenderTimeout s a1) := by
  unfold State.tenderTimeout
  repeat' first
    | with_reducible assumption
    | with_reducible apply State.failOp_keeps
    | with_reducible apply keeps_ite
    | split

theorem State.chunkPages_keeps {K : Kept} {s a1 a2 a3 a4} (h : keeps K s) :
    keeps K (State.chunkPages s a1 a2 a3 a4).2 := by
  unfold State.chunkPages
  repeat' first
    | with_reducible assumption
    | (intro x; first | (refine keeps_cut K x ?_ ?_; rotate_left; intro hx; (try clear_value x); rotate_right; unfold x) | (refine keeps_cut K x.2 ?_ ?_; rotate_left; intro hx; (try clear_value x); rotate_right; unfold x) | (refine keeps_cut K x.2.2 ?_ ?_; rotate_left; intro hx; (try clear_value x); rotate_right; unfold x) | clear_value x | skip)
    | lift_lets
    | with_reducible apply State.failOp_keeps
    | with_reducible apply State.updOp_keeps
    | with_reducible apply State.pagesFor_keeps
    | with_reducible apply keeps_ite
    | with_reducible apply keeps_ite_snd
    | split
    | dsimp only
    | (refine keeps_of_snd (by with_reducible assumption) ?_)
    | (refine keeps_of_fst (by with_reducible assumption) ?_)
    | dsimp only

theorem State.readCva_keeps {K : Kept} (hm : K.stored = none) {s a1 a2 a3} (h : keeps K s) :
    keeps K (State.readCva s a1 a2 a3).2.2 := by
  unfold State.readCva
  repeat' first
    | with_reducible assumption
    | (intro x; first | (refine keeps_cut K x ?_ ?_; rotate_left; intro hx; (try clear_value x); rotate_right; unfold x) | (refine keeps_cut K x.2 ?_ ?_; rotate_left; intro hx; (try clear_value x); rotate_right; unfold x) | (refine keeps_cut K x.2.2 ?_ ?_; rotate_left; intro hx; (try clear_value x); rotate_right; unfold x) | clear_value x | skip)
    | lift_lets
    | with_reducible apply State.gatherCva_keeps hm
    | dsimp only

theorem State.zeroLines_keeps {K : Kept} (hm : K.stored = none) {s a1} (h : keeps K s) :
    keeps K (State.zeroLines s a1) := by
  induction a1 generalizing s with
  | nil =>
    first | rw [State.zeroLines] | unfold State.zeroLines
    repeat' first
      | with_reducible assumption
      | with_reducible apply State.innerLine_keeps hm
  | cons y t ih =>
    first | rw [State.zeroLines] | unfold State.zeroLines
    repeat' first
      | with_reducible assumption
      | with_reducible apply ih
      | with_reducible apply State.innerLine_keeps hm

theorem State.unwrapChunk_keeps {K : Kept} (hm : K.stored = none) {s a1 a2 a3 a4 a5 a6 a7} (h : keeps K s) :
    keeps K (State.unwrapChunk s a1 a2 a3 a4 a5 a6 a7) := by
  unfold State.unwrapChunk
  repeat' first
    | with_reducible assumption
    | (intro x; first | (refine keeps_cut K x ?_ ?_; rotate_left; intro hx; (try clear_value x); rotate_right; unfold x) | (refine keeps_cut K x.2 ?_ ?_; rotate_left; intro hx; (try clear_value x); rotate_right; unfold x) | (refine keeps_cut K x.2.2 ?_ ?_; rotate_left; intro hx; (try clear_value x); rotate_right; unfold x) | clear_value x | skip)
    | lift_lets
    | with_reducible apply State.zeroLines_keeps hm
    | with_reducible apply State.readCva_keeps hm
    | with_reducible apply State.chunkPages_keeps
    | with_reducible apply State.withLines_keeps hm
    | with_reducible apply State.chunkTaken_keeps
    | with_reducible apply State.failOp_keeps
    | with_reducible apply State.landLines_keeps hm
    | with_reducible apply keeps_ite
    | split
    | dsimp only
    | (refine keeps_of_snd (by with_reducible assumption) ?_)
    | (refine keeps_of_fst (by with_reducible assumption) ?_)

theorem State.engineFailed_keeps {K : Kept} {s a1} (h : keeps K s) :
    keeps K (State.engineFailed s a1) := by
  unfold State.engineFailed
  repeat' first
    | with_reducible assumption
    | (intro x; first | (refine keeps_cut K x ?_ ?_; rotate_left; intro hx; (try clear_value x); rotate_right; unfold x) | clear_value x | skip)
    | lift_lets
    | with_reducible apply State.bump_keeps
    | with_reducible apply keeps_foldl
    | with_reducible apply keeps_foldl_fst
    | with_reducible apply keeps_foldl_snd
    | simp only [keeps_upd_eq]

theorem State.unwrapHead_keeps {K : Kept} (hm : K.stored = none) {s a1 a2 a3 a4 a5} (h : keeps K s) :
    keeps K (State.unwrapHead s a1 a2 a3 a4 a5) := by
  unfold State.unwrapHead
  repeat' first
    | with_reducible assumption
    | (intro x; first | (refine keeps_cut K x ?_ ?_; rotate_left; intro hx; (try clear_value x); rotate_right; unfold x) | (refine keeps_cut K x.2 ?_ ?_; rotate_left; intro hx; (try clear_value x); rotate_right; unfold x) | (refine keeps_cut K x.2.2 ?_ ?_; rotate_left; intro hx; (try clear_value x); rotate_right; unfold x) | clear_value x | skip)
    | lift_lets
    | with_reducible apply State.readCva_keeps hm
    | with_reducible apply State.chunkPages_keeps
    | with_reducible apply State.withLines_keeps hm
    | with_reducible apply State.failOp_keeps
    | with_reducible apply State.charge_keeps
    | with_reducible apply State.updOp_keeps
    | with_reducible apply keeps_ite
    | split
    | dsimp only
    | (refine keeps_of_snd (by with_reducible assumption) ?_)
    | (refine keeps_of_fst (by with_reducible assumption) ?_)

theorem State.dropOp_keeps {K : Kept} {s a1} (h : keeps K s) :
    keeps K (State.dropOp s a1) := by
  unfold State.dropOp
  repeat' first
    | with_reducible assumption
    | (intro x; first | (refine keeps_cut K x ?_ ?_; rotate_left; intro hx; (try clear_value x); rotate_right; unfold x) | clear_value x | skip)
    | lift_lets
    | simp only [keeps_upd_eq]

theorem State.sendPut_keeps {K : Kept} (hm : K.stored = none) {s a1 a2 a3 a4} (h : keeps K s) :
    keeps K (State.sendPut s a1 a2 a3 a4) := by
  unfold State.sendPut
  repeat' first
    | with_reducible assumption
    | (intro x; first | (refine keeps_cut K x ?_ ?_; rotate_left; intro hx; (try clear_value x); rotate_right; unfold x) | (refine keeps_cut K x.2.2 ?_ ?_; rotate_left; intro hx; (try clear_value x); rotate_right; unfold x) | clear_value x | skip)
    | lift_lets
    | with_reducible apply State.readLines_keeps hm
    | with_reducible apply State.sendParts_keeps
    | with_reducible apply State.noteCopied_keeps
    | with_reducible apply keeps_foldl
    | with_reducible apply keeps_foldl_fst
    | with_reducible apply keeps_foldl_snd
    | split
    | dsimp only

theorem State.runPut_keeps {K : Kept} (hm : K.stored = none) {s a1 a2 a3} (h : keeps K s) :
    keeps K (State.runPut s a1 a2 a3) := by
  unfold State.runPut
  repeat' first
    | with_reducible assumption
    | (intro x; first | (refine keeps_cut K x ?_ ?_; rotate_left; intro hx; (try clear_value x); rotate_right; unfold x) | (refine keeps_cut K x.2 ?_ ?_; rotate_left; intro hx; (try clear_value x); rotate_right; unfold x) | clear_value x | skip)
    | lift_lets
    | with_reducible apply State.sendPut_keeps hm
    | with_reducible apply State.chunkPages_keeps
    | with_reducible apply State.openRemote_keeps
    | with_reducible apply State.withLines_keeps hm
    | with_reducible apply State.chunkTaken_keeps
    | with_reducible apply State.shaperWait_keeps
    | with_reducible apply State.shaperTake_keeps
    | with_reducible apply State.meet_keeps
    | with_reducible apply keeps_ite
    | split
    | dsimp only
    | (refine keeps_of_snd (by with_reducible assumption) ?_)
    | (refine keeps_of_fst (by with_reducible assumption) ?_)

theorem State.resyncEnd_keeps {K : Kept} {s a1} (h : keeps K s) :
    keeps K (State.resyncEnd s a1) := by
  unfold State.resyncEnd
  repeat' first
    | with_reducible assumption
    | (intro x; first | (refine keeps_cut K x ?_ ?_; rotate_left; intro hx; (try clear_value x); rotate_right; unfold x) | clear_value x | skip)
    | lift_lets
    | with_reducible apply State.setExt_keeps
    | with_reducible apply keeps_ite
    | split
    | simp only [keeps_upd_eq]
    | dsimp only

theorem State.dropRemote_keeps {K : Kept} {s a1 a2} (h : keeps K s) :
    keeps K (State.dropRemote s a1 a2) := by
  unfold State.dropRemote
  repeat' first
    | with_reducible assumption
    | with_reducible apply State.updOp_keeps

theorem State.blkAns_keeps {K : Kept} {s a1} (h : keeps K s) :
    keeps K (State.blkAns s a1) := by
  unfold State.blkAns
  repeat' first
    | with_reducible assumption
    | with_reducible apply State.dropRemote_keeps
    | with_reducible apply State.resyncEnd_keeps
    | with_reducible apply State.degrade_keeps
    | with_reducible apply State.failOp_keeps
    | with_reducible apply keeps_ite
    | split
    | simp only [keeps_upd_eq]

theorem State.blkProbeAns_keeps {K : Kept} {s a1} (h : keeps K s) :
    keeps K (State.blkProbeAns s a1) := by
  unfold State.blkProbeAns
  repeat' first
    | with_reducible assumption
    | with_reducible apply State.probeAnswer_keeps

theorem State.blkGet_keeps {K : Kept} {s a1 a2} (h : keeps K s) :
    keeps K (State.blkGet s a1 a2) := by
  unfold State.blkGet
  repeat' first
    | with_reducible assumption
    | (intro x; first | (refine keeps_cut K x ?_ ?_; rotate_left; intro hx; (try clear_value x); rotate_right; unfold x) | clear_value x | skip)
    | lift_lets
    | with_reducible apply State.blkAnswer_keeps
    | with_reducible apply State.keepServed_keeps
    | with_reducible apply keeps_ite
    | split

theorem State.getData_keeps {K : Kept} (hm : K.stored = none) {s a1 a2} (h : keeps K s) :
    keeps K (State.getData s a1 a2) := by
  unfold State.getData
  repeat' first
    | with_reducible assumption
    | (intro x; first | (refine keeps_cut K x ?_ ?_; rotate_left; intro hx; (try clear_value x); rotate_right; unfold x) | (refine keeps_cut K x.2 ?_ ?_; rotate_left; intro hx; (try clear_value x); rotate_right; unfold x) | clear_value x | skip)
    | lift_lets
    | with_reducible apply State.dropRemote_keeps
    | with_reducible apply State.chunkPages_keeps
    | with_reducible apply State.withLines_keeps hm
    | with_reducible apply State.landLines_keeps hm
    | with_reducible apply State.updOp_keeps
    | with_reducible apply State.meet_keeps
    | with_reducible apply keeps_ite
    | split
    | dsimp only
    | (refine keeps_of_snd (by with_reducible assumption) ?_)
    | (refine keeps_of_fst (by with_reducible assumption) ?_)

theorem State.blkArrive_keeps {K : Kept} (hm : K.stored = none) {s a1 a2 a3} (h : keeps K s) :
    keeps K (State.blkArrive s a1 a2 a3) := by
  unfold State.blkArrive
  repeat' first
    | with_reducible assumption
    | with_reducible apply State.getData_keeps hm
    | with_reducible apply State.blkGet_keeps
    | with_reducible apply State.blkProbeAns_keeps
    | with_reducible apply State.blkAns_keeps
    | with_reducible apply State.mwr_keeps hm
    | with_reducible apply State.blkPut_keeps
    | with_reducible apply State.blkProbe_keeps
    | with_reducible apply State.meet_keeps
    | with_reducible apply State.bump_keeps
    | split

theorem State.writeCompletion_keeps {K : Kept} {s a1} (h : keeps K s) :
    keeps K (State.writeCompletion s a1) := by
  unfold State.writeCompletion
  repeat' first
    | with_reducible assumption
    | with_reducible apply State.event_keeps
    | with_reducible apply State.emit_keeps
    | with_reducible apply keeps_ite
    | split

theorem State.revokeOps_keeps {K : Kept} {s} (h : keeps K s) :
    keeps K (State.revokeOps s) := by
  unfold State.revokeOps
  repeat' first
    | with_reducible assumption
    | (intro x; first | (refine keeps_cut K x ?_ ?_; rotate_left; intro hx; (try clear_value x); rotate_right; unfold x) | clear_value x | skip)
    | lift_lets
    | with_reducible apply State.failOp_keeps
    | with_reducible apply State.abandonClosed_keeps
    | with_reducible apply keeps_foldl
    | with_reducible apply keeps_foldl_fst
    | with_reducible apply keeps_foldl_snd

theorem State.copyPairs_keeps {K : Kept} (hm : K.stored = none) {s a1 a2} (h : keeps K s) :
    keeps K (State.copyPairs s a1 a2) := by
  induction a2 generalizing s a1 with
  | nil =>
    first | rw [State.copyPairs] | unfold State.copyPairs
    repeat' first
      | with_reducible assumption
      | (intro x; first | (refine keeps_cut K x ?_ ?_; rotate_left; intro hx; (try clear_value x); rotate_right; unfold x) | (refine keeps_cut K x.2 ?_ ?_; rotate_left; intro hx; (try clear_value x); rotate_right; unfold x) | clear_value x | skip)
      | lift_lets
      | with_reducible apply State.noteCopied_keeps
      | with_reducible apply State.innerLine_keeps hm
      | with_reducible apply State.innerRead_keeps hm
  | cons y t ih =>
    first | rw [State.copyPairs] | unfold State.copyPairs
    repeat' first
      | with_reducible assumption
      | (intro x; first | (refine keeps_cut K x ?_ ?_; rotate_left; intro hx; (try clear_value x); rotate_right; unfold x) | (refine keeps_cut K x.2 ?_ ?_; rotate_left; intro hx; (try clear_value x); rotate_right; unfold x) | clear_value x | skip)
      | lift_lets
      | with_reducible apply ih
      | with_reducible apply State.noteCopied_keeps
      | with_reducible apply State.innerLine_keeps hm
      | with_reducible apply State.innerRead_keeps hm

theorem State.runCopy_keeps {K : Kept} (hm : K.stored = none) {s a1 a2 a3} (h : keeps K s) :
    keeps K (State.runCopy s a1 a2 a3) := by
  unfold State.runCopy
  repeat' first
    | with_reducible assumption
    | (intro x; first | (refine keeps_cut K x ?_ ?_; rotate_left; intro hx; (try clear_value x); rotate_right; unfold x) | (refine keeps_cut K x.2 ?_ ?_; rotate_left; intro hx; (try clear_value x); rotate_right; unfold x) | clear_value x | skip)
    | lift_lets
    | with_reducible apply State.copyPairs_keeps hm
    | with_reducible apply State.chunkPages_keeps
    | with_reducible apply State.withLines_keeps hm
    | with_reducible apply State.chunkTaken_keeps
    | with_reducible apply State.meet_keeps
    | split
    | dsimp only
    | (refine keeps_of_snd (by with_reducible assumption) ?_)
    | (refine keeps_of_fst (by with_reducible assumption) ?_)

theorem State.cancelOps_keeps {K : Kept} {s a1} (h : keeps K s) :
    keeps K (State.cancelOps s a1) := by
  unfold State.cancelOps
  repeat' first
    | with_reducible assumption
    | (intro x; first | (refine keeps_cut K x ?_ ?_; rotate_left; intro hx; (try clear_value x); rotate_right; unfold x) | clear_value x | skip)
    | lift_lets
    | with_reducible apply State.failOp_keeps
    | with_reducible apply State.abandonIf_keeps
    | with_reducible apply keeps_foldl
    | with_reducible apply keeps_foldl_fst
    | with_reducible apply keeps_foldl_snd
    | split
    | dsimp only

theorem State.runDrain_keeps {K : Kept} {s a1} (h : keeps K s) :
    keeps K (State.runDrain s a1) := by
  unfold State.runDrain
  repeat' first
    | with_reducible assumption
    | (intro x; first | (refine keeps_cut K x ?_ ?_; rotate_left; intro hx; (try clear_value x); rotate_right; unfold x) | (refine keeps_cut K x.2 ?_ ?_; rotate_left; intro hx; (try clear_value x); rotate_right; unfold x) | clear_value x | skip)
    | lift_lets
    | with_reducible apply State.failOp_keeps
    | with_reducible apply State.updOp_keeps
    | with_reducible apply State.startDrain_keeps
    | with_reducible apply keeps_ite
    | split
    | dsimp only
    | (refine keeps_of_snd (by with_reducible assumption) ?_)
    | (refine keeps_of_fst (by with_reducible assumption) ?_)

theorem State.runMigrate_keeps {K : Kept} {s a1 a2 a3} (h : keeps K s) :
    keeps K (State.runMigrate s a1 a2 a3) := by
  unfold State.runMigrate
  repeat' first
    | with_reducible assumption
    | (intro x; first | (refine keeps_cut K x ?_ ?_; rotate_left; intro hx; (try clear_value x); rotate_right; unfold x) | (refine keeps_cut K x.2 ?_ ?_; rotate_left; intro hx; (try clear_value x); rotate_right; unfold x) | clear_value x | skip)
    | lift_lets
    | with_reducible apply State.chunkPages_keeps
    | with_reducible apply State.failOp_keeps
    | with_reducible apply State.updOp_keeps
    | with_reducible apply keeps_ite
    | split
    | dsimp only
    | (refine keeps_of_snd (by with_reducible assumption) ?_)
    | (refine keeps_of_fst (by with_reducible assumption) ?_)

theorem State.migrationStart_keeps {K : Kept} {s a1 a2} (h : keeps K s) :
    keeps K (State.migrationStart s a1 a2) := by
  unfold State.migrationStart
  repeat' first
    | with_reducible assumption
    | with_reducible apply State.updOp_keeps
    | with_reducible apply State.relayMove_keeps
    | with_reducible apply State.drainMove_keeps
    | with_reducible apply State.beginMove_keeps
    | split

theorem State.runUnwrap_keeps {K : Kept} (hm : K.stored = none) {s a1 a2 a3 a4 a5 a6} (h : keeps K s) :
    keeps K (State.runUnwrap s a1 a2 a3 a4 a5 a6) := by
  unfold State.runUnwrap
  repeat' first
    | with_reducible assumption
    | (intro x; first | (refine keeps_cut K x ?_ ?_; rotate_left; intro hx; (try clear_value x); rotate_right; unfold x) | clear_value x | skip)
    | lift_lets
    | with_reducible apply State.unwrapHead_keeps hm
    | with_reducible apply State.unwrapChunk_keeps hm
    | with_reducible apply State.meet_keeps
    | with_reducible apply keeps_ite
    | split
    | dsimp only

theorem State.daymark_keeps {K : Kept} {s a1 a2 a3} (h : keeps K s) :
    keeps K (State.daymark s a1 a2 a3) := by
  unfold State.daymark
  repeat' first
    | with_reducible assumption
    | (intro x; first | (refine keeps_cut K x ?_ ?_; rotate_left; intro hx; (try clear_value x); rotate_right; unfold x) | clear_value x | skip)
    | lift_lets
    | with_reducible apply State.setCtx_keeps
    | with_reducible apply State.setOv_keeps
    | with_reducible apply keeps_ite
    | split

theorem State.tenderComplete_keeps {K : Kept} {s a1} (h : keeps K s) :
    keeps K (State.tenderComplete s a1) := by
  unfold State.tenderComplete
  repeat' first
    | with_reducible assumption
    | (intro x; first | (refine keeps_cut K x ?_ ?_; rotate_left; intro hx; (try clear_value x); rotate_right; unfold x) | clear_value x | skip)
    | lift_lets
    | with_reducible apply State.daymark_keeps
    | with_reducible apply State.writeCompletion_keeps
    | with_reducible apply State.dropOp_keeps
    | with_reducible apply State.raiseWork_keeps
    | with_reducible apply keeps_ite
    | split
    | dsimp only

theorem State.runGet_keeps {K : Kept} {s a1 a2} (h : keeps K s) :
    keeps K (State.runGet s a1 a2) := by
  unfold State.runGet
  repeat' first
    | with_reducible assumption
    | with_reducible apply State.chunkPages_keeps
    | with_reducible apply State.openRemote_keeps
    | with_reducible apply State.sendGet_keeps
    | with_reducible apply State.chunkTaken_keeps
    | split
    | (refine keeps_of_snd (by with_reducible assumption) ?_)
    | (refine keeps_of_fst (by with_reducible assumption) ?_)

theorem State.runHostIn_keeps {K : Kept} (hm : K.stored = none) {s a1 a2 a3} (h : keeps K s) :
    keeps K (State.runHostIn s a1 a2 a3) := by
  unfold State.runHostIn
  repeat' first
    | with_reducible assumption
    | (intro x; first | (refine keeps_cut K x ?_ ?_; rotate_left; intro hx; (try clear_value x); rotate_right; unfold x) | clear_value x | skip)
    | lift_lets
    | with_reducible apply State.withLines_keeps hm
    | with_reducible apply State.chunkTaken_keeps
    | with_reducible apply State.failOp_keeps
    | with_reducible apply State.landLines_keeps hm
    | with_reducible apply State.meet_keeps
    | with_reducible apply keeps_ite
    | split
    | dsimp only

theorem State.startResync_keeps {K : Kept} {s a1} (h : keeps K s) :
    keeps K (State.startResync s a1).2 := by
  unfold State.startResync
  repeat' first
    | with_reducible assumption
    | (intro x; first | (refine keeps_cut K x ?_ ?_; rotate_left; intro hx; (try clear_value x); rotate_right; unfold x) | (refine keeps_cut K x.2 ?_ ?_; rotate_left; intro hx; (try clear_value x); rotate_right; unfold x) | clear_value x | skip)
    | lift_lets
    | with_reducible apply State.setExt_keeps
    | with_reducible apply keeps_ite
    | with_reducible apply keeps_ite_snd
    | split
    | simp only [keeps_upd_eq]
    | dsimp only
    | (refine keeps_of_snd (by with_reducible assumption) ?_)
    | (refine keeps_of_fst (by with_reducible assumption) ?_)
    | dsimp only

theorem State.resend_keeps {K : Kept} (hm : K.stored = none) {s a1 a2} (h : keeps K s) :
    keeps K (State.resend s a1 a2) := by
  unfold State.resend
  repeat' first
    | with_reducible assumption
    | (intro x; first | (refine keeps_cut K x ?_ ?_; rotate_left; intro hx; (try clear_value x); rotate_right; unfold x) | (refine keeps_cut K x.2 ?_ ?_; rotate_left; intro hx; (try clear_value x); rotate_right; unfold x) | (refine keeps_cutf K x ?_ ?_; rotate_left; intro hf; (try clear_value x); rotate_right; unfold x) | clear_value x | skip)
    | lift_lets
    | with_reducible apply hf
    | with_reducible apply State.sendPut_keeps hm
    | with_reducible apply State.chunkPages_keeps
    | with_reducible apply State.sendGet_keeps
    | with_reducible apply State.withLines_keeps hm
    | with_reducible apply State.shaperWait_keeps
    | with_reducible apply State.shaperTake_keeps
    | with_reducible apply State.updOp_keeps
    | with_reducible apply State.meet_keeps
    | with_reducible apply keeps_ite
    | split
    | dsimp only
    | (refine keeps_of_snd (by with_reducible assumption) ?_)
    | (refine keeps_of_fst (by with_reducible assumption) ?_)

theorem State.rekeyCheck_keeps {K : Kept} {s a1} (h : keeps K s) :
    keeps K (State.rekeyCheck s a1) := by
  unfold State.rekeyCheck
  repeat' first
    | with_reducible assumption
    | (intro x; first | (refine keeps_cut K x ?_ ?_; rotate_left; intro hx; (try clear_value x); rotate_right; unfold x) | clear_value x | skip)
    | lift_lets
    | with_reducible apply State.daymark_keeps
    | with_reducible apply State.raiseSys_keeps
    | with_reducible apply State.bump_keeps
    | with_reducible apply State.setCtx_keeps
    | with_reducible apply keeps_ite
    | split

theorem State.sweepFrameDone_keeps {K : Kept} {s a1} (h : keeps K s) :
    keeps K (State.sweepFrameDone s a1) := by
  unfold State.sweepFrameDone
  repeat' first
    | with_reducible assumption
    | (intro x; first | (refine keeps_cut K x ?_ ?_; rotate_left; intro hx; (try clear_value x); rotate_right; unfold x) | clear_value x | skip)
    | lift_lets
    | with_reducible apply State.rekeyCheck_keeps
    | with_reducible apply State.setFrame_keeps
    | with_reducible apply keeps_ite
    | split
    | simp only [keeps_upd_eq]
    | dsimp only

theorem State.dropKeys_keeps {K : Kept} {s a1} (h : keeps K s) :
    keeps K (State.dropKeys s a1) := by
  unfold State.dropKeys
  repeat' first
    | with_reducible assumption
    | (intro x; first | (refine keeps_cut K x ?_ ?_; rotate_left; intro hx; (try clear_value x); rotate_right; unfold x) | clear_value x | skip)
    | lift_lets
    | with_reducible apply State.setCtx_keeps

theorem State.pendRekey_keeps {K : Kept} {s a1} (h : keeps K s) :
    keeps K (State.pendRekey s a1) := by
  unfold State.pendRekey
  repeat' first
    | with_reducible assumption
    | (intro x; first | (refine keeps_cut K x ?_ ?_; rotate_left; intro hx; (try clear_value x); rotate_right; unfold x) | clear_value x | skip)
    | lift_lets
    | with_reducible apply keeps_ite
    | split
    | simp only [keeps_upd_eq]

theorem State.storeCws_keeps {K : Kept} (hm : K.stored = none) {s a1} (h : keeps K s) :
    keeps K (State.storeCws s a1) := by
  induction a1 generalizing s with
  | nil =>
    first | rw [State.storeCws] | unfold State.storeCws
    repeat' first
      | with_reducible assumption
      | with_reducible apply State.cwStore_keeps hm
      | with_reducible apply keeps_ite
      | split
  | cons y t ih =>
    first | rw [State.storeCws] | unfold State.storeCws
    repeat' first
      | with_reducible assumption
      | with_reducible apply ih
      | with_reducible apply State.cwStore_keeps hm
      | with_reducible apply keeps_ite
      | split

theorem State.settleExempt_keeps {K : Kept} (hm : K.stored = none) {s a1} (h : keeps K s) :
    keeps K (State.settleExempt s a1) := by
  induction a1 generalizing s with
  | nil =>
    first | rw [State.settleExempt] | unfold State.settleExempt
    repeat' first
      | with_reducible assumption
      | (refine State.prepWrite_keeps hm (by with_reducible assumption) ?_)
      | with_reducible apply State.flushMerge_keeps hm
      | with_reducible apply State.setMerge_keeps
      | with_reducible apply keeps_ite
      | split
  | cons y t ih =>
    first | rw [State.settleExempt] | unfold State.settleExempt
    repeat' first
      | with_reducible assumption
      | with_reducible apply ih
      | (refine State.prepWrite_keeps hm (by with_reducible assumption) ?_)
      | with_reducible apply State.flushMerge_keeps hm
      | with_reducible apply State.setMerge_keeps
      | with_reducible apply keeps_ite
      | split

theorem State.sweepTake_keeps {K : Kept} (hm : K.stored = none) {s} (h : keeps K s) :
    keeps K (State.sweepTake s) := by
  unfold State.sweepTake
  repeat' first
    | with_reducible assumption
    | with_reducible apply State.settleExempt_keeps hm
    | (refine State.takeRecord_keeps (by with_reducible assumption) ?_)
    | split

theorem State.rekeyChecks_keeps {K : Kept} {s} (h : keeps K s) :
    keeps K (State.rekeyChecks s) := by
  unfold State.rekeyChecks
  repeat' first
    | with_reducible assumption
    | intro x
    | with_reducible apply State.rekeyCheck_keeps
    | with_reducible apply keeps_foldl
    | with_reducible apply keeps_foldl_fst
    | with_reducible apply keeps_foldl_snd

theorem State.passChunk_keeps {K : Kept} {s a1 a2} (h : keeps K s) :
    keeps K (State.passChunk s a1 a2) := by
  unfold State.passChunk
  repeat' first
    | with_reducible assumption
    | (intro x; first | (refine keeps_cut K x ?_ ?_; rotate_left; intro hx; (try clear_value x); rotate_right; unfold x) | clear_value x | skip)
    | lift_lets
    | simp only [keeps_upd_eq]

theorem State.newKey_keeps {K : Kept} {s} (h : keeps K s) :
    keeps K (State.newKey s).2 := by
  unfold State.newKey
  repeat' first
    | with_reducible assumption
    | simp only [keeps_upd_eq]
    | with_reducible apply keeps_ctrs
    | exact Nat.le_refl _
    | exact Nat.le_succ _
    | dsimp only

theorem State.rekey_keeps {K : Kept} {s a1} (h : keeps K s) :
    keeps K (State.rekey s a1) := by
  unfold State.rekey
  repeat' first
    | with_reducible assumption
    | (intro x; first | (refine keeps_cut K x ?_ ?_; rotate_left; intro hx; (try clear_value x); rotate_right; unfold x) | (refine keeps_cut K x.2 ?_ ?_; rotate_left; intro hx; (try clear_value x); rotate_right; unfold x) | clear_value x | skip)
    | lift_lets
    | with_reducible apply State.newKey_keeps
    | with_reducible apply State.pendRekey_keeps
    | with_reducible apply State.rekeyCheck_keeps
    | with_reducible apply State.setCtx_keeps
    | with_reducible apply State.setOv_keeps
    | with_reducible apply keeps_ite
    | split

theorem State.readCws_keeps {K : Kept} (hm : K.stored = none) {s a1} (h : keeps K s) :
    keeps K (State.readCws s a1).2 := by
  induction a1 generalizing s with
  | nil =>
    first | rw [State.readCws] | unfold State.readCws
    repeat' first
      | with_reducible assumption
      | (intro x; first | (refine keeps_cut K x ?_ ?_; rotate_left; intro hx; (try clear_value x); rotate_right; unfold x) | (refine keeps_cut K x.2 ?_ ?_; rotate_left; intro hx; (try clear_value x); rotate_right; unfold x) | clear_value x | skip)
      | lift_lets
      | with_reducible apply State.cwRead_keeps hm
      | dsimp only
  | cons y t ih =>
    first | rw [State.readCws] | unfold State.readCws
    repeat' first
      | with_reducible assumption
      | (intro x; first | (refine keeps_cut K x ?_ ?_; rotate_left; intro hx; (try clear_value x); rotate_right; unfold x) | (refine keeps_cut K x.2 ?_ ?_; rotate_left; intro hx; (try clear_value x); rotate_right; unfold x) | clear_value x | skip)
      | lift_lets
      | with_reducible apply ih
      | with_reducible apply State.cwRead_keeps hm
      | dsimp only

theorem State.sweepStep_keeps {K : Kept} (hm : K.stored = none) {s a1 a2} (h : keeps K s) :
    keeps K (State.sweepStep s a1 a2) := by
  unfold State.sweepStep
  repeat' first
    | with_reducible assumption
    | (intro x; first | (refine keeps_cut K x ?_ ?_; rotate_left; intro hx; (try clear_value x); rotate_right; unfold x) | (refine keeps_cut K x.2 ?_ ?_; rotate_left; intro hx; (try clear_value x); rotate_right; unfold x) | clear_value x | skip)
    | lift_lets
    | with_reducible apply State.readCws_keeps hm
    | with_reducible apply State.passChunk_keeps
    | with_reducible apply State.settleExempt_keeps hm
    | with_reducible apply State.storeCws_keeps hm
    | with_reducible apply State.zeroChunk_keeps hm
    | with_reducible apply State.peerLine_keeps
    | with_reducible apply keeps_ite
    | with_reducible apply keeps_foldl
    | with_reducible apply keeps_foldl_fst
    | with_reducible apply keeps_foldl_snd
    | split

theorem State.sweepChunk_keeps {K : Kept} (hm : K.stored = none) {s a1 a2 a3} (h : keeps K s) :
    keeps K (State.sweepChunk s a1 a2 a3) := by
  unfold State.sweepChunk
  repeat' first
    | with_reducible assumption
    | (intro x; first | (refine keeps_cut K x ?_ ?_; rotate_left; intro hx; (try clear_value x); rotate_right; unfold x) | clear_value x | skip)
    | lift_lets
    | with_reducible apply State.sweepStep_keeps hm
    | with_reducible apply State.charge_keeps
    | with_reducible apply State.meet_keeps
    | with_reducible apply State.bump_keeps
    | with_reducible apply keeps_ite
    | split
    | dsimp only

theorem State.generate_keeps {K : Kept} {s a1} (h : keeps K s) :
    keeps K (State.generate s a1) := by
  unfold State.generate
  repeat' first
    | with_reducible assumption
    | (intro x; first | (refine keeps_cut K x ?_ ?_; rotate_left; intro hx; (try clear_value x); rotate_right; unfold x) | (refine keeps_cut K x.2 ?_ ?_; rotate_left; intro hx; (try clear_value x); rotate_right; unfold x) | clear_value x | skip)
    | lift_lets
    | with_reducible apply State.newKey_keeps
    | with_reducible apply State.setCtx_keeps
    | with_reducible apply State.setOv_keeps
    | with_reducible apply keeps_ite
    | split

end Sys2Proof.Machine
end

