-- ==== Sys2Proof/Laws/KeepsNode.lean ====
section
/-! SUPPORT. Sys2Proof/Laws/KeepsNode.lean: what the operations of Contexts, Failure, Dram, Scrubs, Ports, Security, Sessions, Avail keep. -/

namespace Sys2Proof.Machine

open Sys2Proof

theorem State.recipeLoad_keeps {K : Kept} {s a1} (h : keeps K s) :
    keeps K (State.recipeLoad s a1) := by
  unfold State.recipeLoad
  repeat' first
    | with_reducible assumption
    | (intro x; first | (refine keeps_cut K x ?_ ?_; rotate_left; intro hx; (try clear_value x); rotate_right; unfold x) | (refine keeps_cutg K x ?_ ?_; rotate_left; intro hf; (try clear_value x); rotate_right; unfold x) | clear_value x | skip)
    | lift_lets
    | with_reducible apply hf
    | with_reducible apply State.daymark_keeps
    | with_reducible apply State.setOv_keeps
    | with_reducible apply keeps_ite
    | split
    | simp only [keeps_upd_eq]
    | dsimp only

theorem State.zeroDeficit_keeps {K : Kept} {s a1} (h : keeps K s) :
    keeps K (State.zeroDeficit s a1) := by
  unfold State.zeroDeficit
  repeat' first
    | with_reducible assumption
    | (intro x; first | (refine keeps_cut K x ?_ ?_; rotate_left; intro hx; (try clear_value x); rotate_right; unfold x) | clear_value x | skip)
    | lift_lets
    | with_reducible apply keeps_ite
    | split
    | simp only [keeps_upd_eq]

theorem State.defaultX_keeps {K : Kept} {s a1} (h : keeps K s) :
    keeps K (State.defaultX s a1) := by
  unfold State.defaultX
  repeat' first
    | with_reducible assumption
    | (intro x; first | (refine keeps_cut K x ?_ ?_; rotate_left; intro hx; (try clear_value x); rotate_right; unfold x) | clear_value x | skip)
    | lift_lets
    | simp only [keeps_upd_eq]
    | exact keeps_objs (by with_reducible assumption) _ _ (fun e => ⟨risingFrom_filter e.1 _, e.2⟩)

theorem State.failStragglers_keeps {K : Kept} {s a1} (h : keeps K s) :
    keeps K (State.failStragglers s a1) := by
  induction a1 generalizing s with
  | nil =>
    first | rw [State.failStragglers] | unfold State.failStragglers
    repeat' first
      | with_reducible assumption
      | (intro x; first | (refine keeps_cut K x ?_ ?_; rotate_left; intro hx; (try clear_value x); rotate_right; unfold x) | clear_value x | skip)
      | lift_lets
      | with_reducible apply State.finish_keeps
      | with_reducible apply State.bump_keeps
      | simp only [keeps_upd_eq]
  | cons y t ih =>
    first | rw [State.failStragglers] | unfold State.failStragglers
    repeat' first
      | with_reducible assumption
      | (intro x; first | (refine keeps_cut K x ?_ ?_; rotate_left; intro hx; (try clear_value x); rotate_right; unfold x) | clear_value x | skip)
      | lift_lets
      | with_reducible apply ih
      | with_reducible apply State.finish_keeps
      | with_reducible apply State.bump_keeps
      | simp only [keeps_upd_eq]

theorem State.resetDrainEnd_keeps {K : Kept} (hm : K.stored = none) {s a1 a2} (h : keeps K s) :
    keeps K (State.resetDrainEnd s a1 a2) := by
  unfold State.resetDrainEnd
  repeat' first
    | with_reducible assumption
    | (intro x; first | (refine keeps_cut K x ?_ ?_; rotate_left; intro hx; (try clear_value x); rotate_right; unfold x) | clear_value x | skip)
    | lift_lets
    | with_reducible apply State.failStragglers_keeps
    | with_reducible apply State.defaultX_keeps
    | with_reducible apply State.zeroDeficit_keeps
    | with_reducible apply State.cancelOps_keeps
    | with_reducible apply State.cancelJobs_keeps hm
    | with_reducible apply State.fillBuckets_keeps
    | with_reducible apply State.meet_keeps
    | with_reducible apply State.setCtx_keeps
    | with_reducible apply keeps_ite
    | with_reducible apply keeps_foldl
    | with_reducible apply keeps_foldl_fst
    | with_reducible apply keeps_foldl_snd
    | split
    | simp only [keeps_upd_eq]

theorem State.resolveFree_keeps {K : Kept} {s} (h : keeps K s) :
    keeps K (State.resolveFree s) := by
  unfold State.resolveFree
  repeat' first
    | with_reducible assumption
    | (intro x; first | (refine keeps_cut K x ?_ ?_; rotate_left; intro hx; (try clear_value x); rotate_right; unfold x) | clear_value x | skip)
    | lift_lets
    | simp only [keeps_upd_eq]

theorem State.clearPends_keeps {K : Kept} {s a1} (h : keeps K s) :
    keeps K (State.clearPends s a1) := by
  unfold State.clearPends
  repeat' first
    | with_reducible assumption
    | (intro x; first | (refine keeps_cut K x ?_ ?_; rotate_left; intro hx; (try clear_value x); rotate_right; unfold x) | clear_value x | skip)
    | lift_lets
    | with_reducible apply State.setEntry_keeps
    | with_reducible apply keeps_foldl
    | with_reducible apply keeps_foldl_fst
    | with_reducible apply keeps_foldl_snd

theorem State.beginReset_keeps {K : Kept} {s a1 a2} (h : keeps K s) :
    keeps K (State.beginReset s a1 a2) := by
  unfold State.beginReset
  repeat' first
    | with_reducible assumption
    | (intro x; first | (refine keeps_cut K x ?_ ?_; rotate_left; intro hx; (try clear_value x); rotate_right; unfold x) | clear_value x | skip)
    | lift_lets
    | with_reducible apply State.setCtx_keeps

theorem State.ctxResult_keeps {K : Kept} {s a1 a2} (h : keeps K s) :
    keeps K (State.ctxResult s a1 a2) := by
  unfold State.ctxResult
  repeat' first
    | with_reducible assumption
    | with_reducible apply State.setOv_keeps

theorem State.ctxFree_keeps {K : Kept} {s a1} (h : keeps K s) :
    keeps K (State.ctxFree s a1) := by
  unfold State.ctxFree
  repeat' first
    | with_reducible assumption
    | (intro x; first | (refine keeps_cut K x ?_ ?_; rotate_left; intro hx; (try clear_value x); rotate_right; unfold x) | clear_value x | skip)
    | lift_lets
    | with_reducible apply State.ctxResult_keeps
    | with_reducible apply State.beginReset_keeps
    | with_reducible apply State.setCtx_keeps
    | with_reducible apply keeps_ite
    | split
    | dsimp only

theorem State.ctxReset_keeps {K : Kept} {s a1} (h : keeps K s) :
    keeps K (State.ctxReset s a1) := by
  unfold State.ctxReset
  repeat' first
    | with_reducible assumption
    | with_reducible apply State.ctxResult_keeps
    | with_reducible apply State.beginReset_keeps
    | with_reducible apply keeps_ite
    | split

theorem State.trEnable_keeps {K : Kept} {s a1 a2} (h : keeps K s) :
    keeps K (State.trEnable s a1 a2) := by
  unfold State.trEnable
  repeat' first
    | with_reducible assumption
    | with_reducible apply State.setOv_keeps
    | with_reducible apply keeps_ite
    | split

theorem State.dropRecipes_keeps {K : Kept} {s a1} (h : keeps K s) :
    keeps K (State.dropRecipes s a1) := by
  unfold State.dropRecipes
  repeat' first
    | with_reducible assumption
    | (intro x; first | (refine keeps_cut K x ?_ ?_; rotate_left; intro hx; (try clear_value x); rotate_right; unfold x) | clear_value x | skip)
    | lift_lets
    | split
    | simp only [keeps_upd_eq]
    | dsimp only

theorem State.clearBindings_keeps {K : Kept} {s a1} (h : keeps K s) :
    keeps K (State.clearBindings s a1) := by
  unfold State.clearBindings
  repeat' first
    | with_reducible assumption
    | (intro x; first | (refine keeps_cut K x ?_ ?_; rotate_left; intro hx; (try clear_value x); rotate_right; unfold x) | clear_value x | skip)
    | lift_lets
    | with_reducible apply State.setAgent_keeps
    | with_reducible apply keeps_foldl
    | with_reducible apply keeps_foldl_fst
    | with_reducible apply keeps_foldl_snd
    | simp only [keeps_upd_eq]
    | exact keeps_objs (by with_reducible assumption) _ _ (fun e => ⟨risingFrom_filter e.1 _, e.2⟩)

theorem State.closeOwned_keeps {K : Kept} {s a1} (h : keeps K s) :
    keeps K (State.closeOwned s a1) := by
  unfold State.closeOwned
  repeat' first
    | with_reducible assumption
    | (intro x; first | (refine keeps_cut K x ?_ ?_; rotate_left; intro hx; (try clear_value x); rotate_right; unfold x) | clear_value x | skip)
    | lift_lets
    | with_reducible apply State.beginRevoke_keeps
    | with_reducible apply keeps_foldl
    | with_reducible apply keeps_foldl_fst
    | with_reducible apply keeps_foldl_snd

theorem State.dropShares_keeps {K : Kept} {s} (h : keeps K s) :
    keeps K (State.dropShares s) := by
  unfold State.dropShares
  repeat' first
    | with_reducible assumption
    | intro x
    | with_reducible apply State.dropSharerOf_keeps
    | with_reducible apply keeps_foldl
    | with_reducible apply keeps_foldl_fst
    | with_reducible apply keeps_foldl_snd

theorem State.enterSweeping_keeps {K : Kept} {s a1} (h : keeps K s) :
    keeps K (State.enterSweeping s a1) := by
  unfold State.enterSweeping
  repeat' first
    | with_reducible assumption
    | (intro x; first | (refine keeps_cut K x ?_ ?_; rotate_left; intro hx; (try clear_value x); rotate_right; unfold x) | clear_value x | skip)
    | lift_lets
    | with_reducible apply State.dropShares_keeps
    | with_reducible apply State.closeOwned_keeps
    | with_reducible apply State.clearBindings_keeps
    | with_reducible apply State.dropRecipes_keeps
    | with_reducible apply State.dropKeys_keeps
    | with_reducible apply State.revokeOps_keeps
    | with_reducible apply State.setCtx_keeps
    | with_reducible apply State.setOv_keeps

theorem State.resetDone_keeps {K : Kept} {s a1} (h : keeps K s) :
    keeps K (State.resetDone s a1) := by
  unfold State.resetDone
  repeat' first
    | with_reducible assumption
    | (intro x; first | (refine keeps_cut K x ?_ ?_; rotate_left; intro hx; (try clear_value x); rotate_right; unfold x) | clear_value x | skip)
    | lift_lets
    | with_reducible apply State.enterSweeping_keeps
    | with_reducible apply State.ctxResult_keeps
    | with_reducible apply State.clearPends_keeps
    | with_reducible apply State.raiseSys_keeps
    | with_reducible apply State.bump_keeps
    | with_reducible apply State.setCtx_keeps
    | with_reducible apply State.setOv_keeps
    | with_reducible apply keeps_ite
    | split

theorem State.defaultScope_keeps {K : Kept} {s a1} (h : keeps K s) :
    keeps K (State.defaultScope s a1) := by
  unfold State.defaultScope
  repeat' first
    | with_reducible assumption
    | simp only [keeps_upd_eq]
    | exact keeps_objs h _ _ (fun e => ⟨risingFrom_filter e.1 _, risingFrom_filter e.2 _⟩)

theorem State.clearWindow_keeps {K : Kept} {s a1} (h : keeps K s) :
    keeps K (State.clearWindow s a1) := by
  unfold State.clearWindow
  repeat' first
    | with_reducible assumption
    | (intro x; first | (refine keeps_cut K x ?_ ?_; rotate_left; intro hx; (try clear_value x); rotate_right; unfold x) | clear_value x | skip)
    | lift_lets
    | simp only [keeps_upd_eq]

theorem State.ctxSweepDone_keeps {K : Kept} {s a1} (h : keeps K s) :
    keeps K (State.ctxSweepDone s a1) := by
  unfold State.ctxSweepDone
  repeat' first
    | with_reducible assumption
    | with_reducible apply State.clearWindow_keeps
    | with_reducible apply State.defaultScope_keeps
    | with_reducible apply State.resolveFree_keeps
    | with_reducible apply State.setCtx_keeps
    | with_reducible apply keeps_ite
    | split

theorem State.ctxActivate_keeps {K : Kept} {s a1} (h : keeps K s) :
    keeps K (State.ctxActivate s a1) := by
  unfold State.ctxActivate
  repeat' first
    | with_reducible assumption
    | (intro x; first | (refine keeps_cut K x ?_ ?_; rotate_left; intro hx; (try clear_value x); rotate_right; unfold x) | clear_value x | skip)
    | lift_lets
    | with_reducible apply State.ctxResult_keeps
    | with_reducible apply State.daymark_keeps
    | with_reducible apply State.raiseSys_keeps
    | with_reducible apply State.setCtx_keeps
    | with_reducible apply keeps_ite
    | split

theorem State.ctxAlloc_keeps {K : Kept} {s a1} (h : keeps K s) :
    keeps K (State.ctxAlloc s a1) := by
  unfold State.ctxAlloc
  repeat' first
    | with_reducible assumption
    | (intro x; first | (refine keeps_cut K x ?_ ?_; rotate_left; intro hx; (try clear_value x); rotate_right; unfold x) | clear_value x | skip)
    | lift_lets
    | with_reducible apply State.defaultScope_keeps
    | with_reducible apply State.ctxResult_keeps
    | with_reducible apply State.setCtx_keeps
    | with_reducible apply keeps_ite
    | split
    | simp only [keeps_upd_eq]

theorem State.recipeUnload_keeps {K : Kept} {s a1} (h : keeps K s) :
    keeps K (State.recipeUnload s a1) := by
  unfold State.recipeUnload
  repeat' first
    | with_reducible assumption
    | (intro x; first | (refine keeps_cut K x ?_ ?_; rotate_left; intro hx; (try clear_value x); rotate_right; unfold x) | clear_value x | skip)
    | lift_lets
    | with_reducible apply State.setOv_keeps
    | with_reducible apply keeps_ite
    | split
    | simp only [keeps_upd_eq]
    | dsimp only

theorem State.sendHeld_keeps {K : Kept} (hm : K.stored = none) {s a1} (h : keeps K s) :
    keeps K (State.sendHeld s a1) := by
  induction a1 generalizing s with
  | nil =>
    first | rw [State.sendHeld] | unfold State.sendHeld
    repeat' first
      | with_reducible assumption
      | with_reducible apply State.work_keeps hm
      | with_reducible apply State.joinLine_keeps
      | with_reducible apply State.sendHome_keeps
      | with_reducible apply keeps_ite
      | split
  | cons y t ih =>
    first | rw [State.sendHeld] | unfold State.sendHeld
    repeat' first
      | with_reducible assumption
      | with_reducible apply ih
      | with_reducible apply State.work_keeps hm
      | with_reducible apply State.joinLine_keeps
      | with_reducible apply State.sendHome_keeps
      | with_reducible apply keeps_ite
      | split

theorem State.dropCmps_keeps {K : Kept} (hm : K.stored = none) {s a1} (h : keeps K s) :
    keeps K (State.dropCmps s a1) := by
  induction a1 generalizing s with
  | nil =>
    first | rw [State.dropCmps] | unfold State.dropCmps
    repeat' first
      | with_reducible assumption
      | (intro x; first | (refine keeps_cut K x ?_ ?_; rotate_left; intro hx; (try clear_value x); rotate_right; unfold x) | clear_value x | skip)
      | lift_lets
      | with_reducible apply State.undoGrant_keeps hm
      | with_reducible apply State.dropReq_keeps
      | with_reducible apply keeps_ite
      | split
      | simp only [keeps_upd_eq]
  | cons y t ih =>
    first | rw [State.dropCmps] | unfold State.dropCmps
    repeat' first
      | with_reducible assumption
      | (intro x; first | (refine keeps_cut K x ?_ ?_; rotate_left; intro hx; (try clear_value x); rotate_right; unfold x) | clear_value x | skip)
      | lift_lets
      | with_reducible apply ih
      | with_reducible apply State.undoGrant_keeps hm
      | with_reducible apply State.dropReq_keeps
      | with_reducible apply keeps_ite
      | split
      | simp only [keeps_upd_eq]

theorem State.lostAnswer_keeps {K : Kept} (hm : K.stored = none) {s a1 a2} (h : keeps K s) :
    keeps K (State.lostAnswer s a1 a2) := by
  unfold State.lostAnswer
  repeat' first
    | with_reducible assumption
    | (intro x; first | (refine keeps_cut K x ?_ ?_; rotate_left; intro hx; (try clear_value x); rotate_right; unfold x) | (refine keeps_cut K x.1 ?_ ?_; rotate_left; intro hx; (try clear_value x); rotate_right; unfold x) | clear_value x | skip)
    | lift_lets
    | with_reducible apply State.finishHeldWbd_keeps
    | with_reducible apply State.loseOwner_keeps hm
    | with_reducible apply State.setDir_keeps
    | with_reducible apply keeps_ite
    | split
    | dsimp only
    | (refine keeps_of_snd (by with_reducible assumption) ?_)
    | (refine keeps_of_fst (by with_reducible assumption) ?_)

theorem State.answerLost_keeps {K : Kept} (hm : K.stored = none) {s a1} (h : keeps K s) :
    keeps K (State.answerLost s a1) := by
  unfold State.answerLost
  repeat' first
    | with_reducible assumption
    | (intro x; first | (refine keeps_cut K x ?_ ?_; rotate_left; intro hx; (try clear_value x); rotate_right; unfold x) | clear_value x | skip)
    | lift_lets
    | with_reducible apply State.lostAnswer_keeps hm
    | with_reducible apply State.work_keeps hm
    | with_reducible apply keeps_foldl
    | with_reducible apply keeps_foldl_fst
    | with_reducible apply keeps_foldl_snd
    | simp only [keeps_upd_eq]

theorem State.censusRecord_keeps {K : Kept} {s a1 a2 a3} (h : keeps K s) :
    keeps K (State.censusRecord s a1 a2 a3) := by
  unfold State.censusRecord
  repeat' first
    | with_reducible assumption
    | (intro x; first | (refine keeps_cut K x ?_ ?_; rotate_left; intro hx; (try clear_value x); rotate_right; unfold x) | clear_value x | skip)
    | lift_lets
    | with_reducible apply State.setDir_keeps
    | with_reducible apply State.setSlc_keeps
    | with_reducible apply keeps_ite
    | split
    | dsimp only

theorem State.purgeEntry_keeps {K : Kept} (hm : K.stored = none) {s a1 a2} (h : keeps K s) :
    keeps K (State.purgeEntry s a1 a2) := by
  unfold State.purgeEntry
  repeat' first
    | with_reducible assumption
    | (intro x; first | (refine keeps_cut K x ?_ ?_; rotate_left; intro hx; (try clear_value x); rotate_right; unfold x) | (refine keeps_cut K x.1 ?_ ?_; rotate_left; intro hx; (try clear_value x); rotate_right; unfold x) | clear_value x | skip)
    | lift_lets
    | with_reducible apply State.work_keeps hm
    | with_reducible apply State.openTxn_keeps hm
    | with_reducible apply State.loseOwner_keeps hm
    | with_reducible apply State.setDir_keeps
    | with_reducible apply keeps_ite
    | split
    | dsimp only
    | (refine keeps_of_snd (by with_reducible assumption) ?_)
    | (refine keeps_of_fst (by with_reducible assumption) ?_)

theorem State.purgeWalk_keeps {K : Kept} (hm : K.stored = none) {s a1 a2} (h : keeps K s) :
    keeps K (State.purgeWalk s a1 a2) := by
  unfold State.purgeWalk
  repeat' first
    | with_reducible assumption
    | (intro x; first | (refine keeps_cut K x ?_ ?_; rotate_left; intro hx; (try clear_value x); rotate_right; unfold x) | clear_value x | skip)
    | lift_lets
    | with_reducible apply State.purgeEntry_keeps hm
    | with_reducible apply State.setAgent_keeps
    | with_reducible apply State.setOv_keeps
    | with_reducible apply keeps_ite
    | with_reducible apply keeps_foldl
    | with_reducible apply keeps_foldl_fst
    | with_reducible apply keeps_foldl_snd
    | split

theorem State.failAccs_keeps {K : Kept} {s a1 a2} (h : keeps K s) :
    keeps K (State.failAccs s a1 a2) := by
  induction a2 generalizing s a1 with
  | nil =>
    first | rw [State.failAccs] | unfold State.failAccs
    repeat' first
      | with_reducible assumption
      | with_reducible apply State.finish_keeps
      | with_reducible apply State.bump_keeps
  | cons y t ih =>
    first | rw [State.failAccs] | unfold State.failAccs
    repeat' first
      | with_reducible assumption
      | with_reducible apply ih
      | with_reducible apply State.finish_keeps
      | with_reducible apply State.bump_keeps

theorem State.undoQueued_keeps {K : Kept} (hm : K.stored = none) {s a1} (h : keeps K s) :
    keeps K (State.undoQueued s a1) := by
  induction a1 generalizing s with
  | nil =>
    first | rw [State.undoQueued] | unfold State.undoQueued
    repeat' first
      | with_reducible assumption
      | with_reducible apply State.undoGrant_keeps hm
      | simp only [keeps_upd_eq]
  | cons y t ih =>
    first | rw [State.undoQueued] | unfold State.undoQueued
    repeat' first
      | with_reducible assumption
      | with_reducible apply ih
      | with_reducible apply State.undoGrant_keeps hm
      | simp only [keeps_upd_eq]

theorem State.dropQueued_keeps {K : Kept} (hm : K.stored = none) {s a1} (h : keeps K s) :
    keeps K (State.dropQueued s a1) := by
  unfold State.dropQueued
  repeat' first
    | with_reducible assumption
    | (intro x; first | (refine keeps_cut K x ?_ ?_; rotate_left; intro hx; (try clear_value x); rotate_right; unfold x) | clear_value x | skip)
    | lift_lets
    | with_reducible apply State.undoQueued_keeps hm
    | simp only [keeps_upd_eq]

theorem State.dropLost_keeps {K : Kept} {s a1} (h : keeps K s) :
    keeps K (State.dropLost s a1) := by
  induction a1 generalizing s with
  | nil =>
    first | rw [State.dropLost] | unfold State.dropLost
    repeat' first
      | with_reducible assumption
      | (intro x; first | (refine keeps_cut K x ?_ ?_; rotate_left; intro hx; (try clear_value x); rotate_right; unfold x) | clear_value x | skip)
      | lift_lets
      | with_reducible apply State.finish_keeps
      | with_reducible apply State.setDir_keeps
      | with_reducible apply keeps_ite
      | split
      | simp only [keeps_upd_eq]
  | cons y t ih =>
    first | rw [State.dropLost] | unfold State.dropLost
    repeat' first
      | with_reducible assumption
      | (intro x; first | (refine keeps_cut K x ?_ ?_; rotate_left; intro hx; (try clear_value x); rotate_right; unfold x) | clear_value x | skip)
      | lift_lets
      | with_reducible apply ih
      | with_reducible apply State.finish_keeps
      | with_reducible apply State.setDir_keeps
      | with_reducible apply keeps_ite
      | split
      | simp only [keeps_upd_eq]

theorem State.joinUnres_keeps {K : Kept} {s a1 a2} (h : keeps K s) :
    keeps K (State.joinUnres s a1 a2) := by
  unfold State.joinUnres
  repeat' first
    | with_reducible assumption
    | (intro x; first | (refine keeps_cut K x ?_ ?_; rotate_left; intro hx; (try clear_value x); rotate_right; unfold x) | clear_value x | skip)
    | lift_lets
    | with_reducible apply State.event_keeps
    | with_reducible apply State.setSlc_keeps
    | with_reducible apply keeps_ite
    | with_reducible apply keeps_foldl
    | with_reducible apply keeps_foldl_fst
    | with_reducible apply keeps_foldl_snd
    | split

theorem State.censusLost_keeps {K : Kept} {s a1 a2} (h : keeps K s) :
    keeps K (State.censusLost s a1 a2) := by
  unfold State.censusLost
  repeat' first
    | with_reducible assumption
    | (intro x; first | (refine keeps_cut K x ?_ ?_; rotate_left; intro hx; (try clear_value x); rotate_right; unfold x) | clear_value x | skip)
    | lift_lets
    | with_reducible apply State.joinUnres_keeps
    | with_reducible apply State.setSlc_keeps
    | with_reducible apply keeps_ite
    | split

theorem State.muteWaits_keeps {K : Kept} {s a1} (h : keeps K s) :
    keeps K (State.muteWaits s a1) := by
  unfold State.muteWaits
  repeat' first
    | with_reducible assumption
    | (intro x; first | (refine keeps_cut K x ?_ ?_; rotate_left; intro hx; (try clear_value x); rotate_right; unfold x) | clear_value x | skip)
    | lift_lets
    | with_reducible apply keeps_ite
    | split
    | simp only [keeps_upd_eq]

theorem State.ackGrants_keeps {K : Kept} (hm : K.stored = none) {s a1} (h : keeps K s) :
    keeps K (State.ackGrants s a1) := by
  induction a1 generalizing s with
  | nil =>
    first | rw [State.ackGrants] | unfold State.ackGrants
    repeat' first
      | with_reducible assumption
      | (intro x; first | (refine keeps_cut K x ?_ ?_; rotate_left; intro hx; (try clear_value x); rotate_right; unfold x) | clear_value x | skip)
      | lift_lets
      | (refine State.ackLine_keeps hm (by with_reducible assumption) ?_)
      | simp only [keeps_upd_eq]
      | with_reducible apply State.ackLine_getD_keeps hm
  | cons y t ih =>
    first | rw [State.ackGrants] | unfold State.ackGrants
    repeat' first
      | with_reducible assumption
      | (intro x; first | (refine keeps_cut K x ?_ ?_; rotate_left; intro hx; (try clear_value x); rotate_right; unfold x) | clear_value x | skip)
      | lift_lets
      | with_reducible apply ih
      | (refine State.ackLine_keeps hm (by with_reducible assumption) ?_)
      | simp only [keeps_upd_eq]
      | with_reducible apply State.ackLine_getD_keeps hm

theorem State.declareLost_keeps {K : Kept} (hm : K.stored = none) {s a1 a2} (h : keeps K s) :
    keeps K (State.declareLost s a1 a2) := by
  unfold State.declareLost
  repeat' first
    | with_reducible assumption
    | (intro x; first | (refine keeps_cut K x ?_ ?_; rotate_left; intro hx; (try clear_value x); rotate_right; unfold x) | clear_value x | skip)
    | lift_lets
    | with_reducible apply State.ackGrants_keeps hm
    | with_reducible apply State.muteWaits_keeps
    | with_reducible apply State.censusLost_keeps
    | with_reducible apply State.dropLost_keeps
    | with_reducible apply State.dropQueued_keeps hm
    | with_reducible apply State.answerLost_keeps hm
    | with_reducible apply State.dropCmps_keeps hm
    | with_reducible apply State.setAgent_keeps
    | with_reducible apply State.event_keeps
    | with_reducible apply State.bump_keeps
    | with_reducible apply State.setOv_keeps
    | with_reducible apply keeps_ite
    | with_reducible apply keeps_foldl
    | with_reducible apply keeps_foldl_fst
    | with_reducible apply keeps_foldl_snd
    | split

theorem State.agtFence_keeps {K : Kept} (hm : K.stored = none) {s a1} (h : keeps K s) :
    keeps K (State.agtFence s a1).2 := by
  unfold State.agtFence
  repeat' first
    | with_reducible assumption
    | with_reducible apply State.declareLost_keeps hm
    | with_reducible apply keeps_ite
    | with_reducible apply keeps_ite_snd
    | split
    | dsimp only

theorem State.freeCopies_keeps {K : Kept} {s a1} (h : keeps K s) :
    keeps K (State.freeCopies s a1) := by
  unfold State.freeCopies
  repeat' first
    | with_reducible assumption
    | (intro x; first | (refine keeps_cut K x ?_ ?_; rotate_left; intro hx; (try clear_value x); rotate_right; unfold x) | clear_value x | skip)
    | lift_lets
    | with_reducible apply State.freeRx_keeps
    | with_reducible apply keeps_ite
    | with_reducible apply keeps_foldl
    | with_reducible apply keeps_foldl_fst
    | with_reducible apply keeps_foldl_snd
    | split
    | simp only [keeps_upd_eq]

theorem State.sendQueries_keeps {K : Kept} {s a1} (h : keeps K s) :
    keeps K (State.sendQueries s a1) := by
  unfold State.sendQueries
  repeat' first
    | with_reducible assumption
    | (intro x; first | (refine keeps_cut K x ?_ ?_; rotate_left; intro hx; (try clear_value x); rotate_right; unfold x) | clear_value x | skip)
    | lift_lets
    | with_reducible apply State.send_keeps
    | with_reducible apply State.setSlc_keeps
    | with_reducible apply keeps_foldl
    | with_reducible apply keeps_foldl_fst
    | with_reducible apply keeps_foldl_snd
    | split
    | dsimp only

theorem State.sendAllQueries_keeps {K : Kept} {s} (h : keeps K s) :
    keeps K (State.sendAllQueries s) := by
  unfold State.sendAllQueries
  repeat' first
    | with_reducible assumption
    | intro x
    | with_reducible apply State.sendQueries_keeps
    | with_reducible apply keeps_foldl
    | with_reducible apply keeps_foldl_fst
    | with_reducible apply keeps_foldl_snd

theorem State.sliceLost_keeps {K : Kept} {s a1} (h : keeps K s) :
    keeps K (State.sliceLost s a1) := by
  unfold State.sliceLost
  repeat' first
    | with_reducible assumption
    | (intro x; first | (refine keeps_cut K x ?_ ?_; rotate_left; intro hx; (try clear_value x); rotate_right; unfold x) | clear_value x | skip)
    | lift_lets
    | with_reducible apply State.joinUnres_keeps
    | with_reducible apply State.setSlc_keeps
    | with_reducible apply keeps_ite
    | with_reducible apply keeps_foldl
    | with_reducible apply keeps_foldl_fst
    | with_reducible apply keeps_foldl_snd
    | split
    | simp only [keeps_upd_eq]

theorem State.poisonLines_keeps {K : Kept} (hm : K.stored = none) {s a1 a2} (h : keeps K s) :
    keeps K (State.poisonLines s a1 a2) := by
  induction a2 generalizing s a1 with
  | nil =>
    first | rw [State.poisonLines] | unfold State.poisonLines
    repeat' first
      | with_reducible assumption
      | with_reducible apply State.poisonCw_keeps hm
  | cons y t ih =>
    first | rw [State.poisonLines] | unfold State.poisonLines
    repeat' first
      | with_reducible assumption
      | with_reducible apply ih
      | with_reducible apply State.poisonCw_keeps hm

theorem State.unkRelease_keeps {K : Kept} {s a1 a2} (h : keeps K s) :
    keeps K (State.unkRelease s a1 a2) := by
  unfold State.unkRelease
  repeat' first
    | with_reducible assumption
    | (intro x; first | (refine keeps_cut K x ?_ ?_; rotate_left; intro hx; (try clear_value x); rotate_right; unfold x) | clear_value x | skip)
    | lift_lets
    | with_reducible apply State.setSlc_keeps

theorem State.agentLossTime_keeps {K : Kept} (hm : K.stored = none) {s a1} (h : keeps K s) :
    keeps K (State.agentLossTime s a1) := by
  unfold State.agentLossTime
  repeat' first
    | with_reducible assumption
    | with_reducible apply State.declareLost_keeps hm
    | with_reducible apply keeps_ite
    | split

theorem State.ackTimeout_keeps {K : Kept} (hm : K.stored = none) {s a1 a2 a3} (h : keeps K s) :
    keeps K (State.ackTimeout s a1 a2 a3) := by
  unfold State.ackTimeout
  repeat' first
    | with_reducible assumption
    | with_reducible apply State.declareLost_keeps hm
    | with_reducible apply keeps_ite
    | split

theorem State.poisonMerge_keeps {K : Kept} (hm : K.stored = none) {s a1} (h : keeps K s) :
    keeps K (State.poisonMerge s a1) := by
  induction a1 generalizing s with
  | nil =>
    first | rw [State.poisonMerge] | unfold State.poisonMerge
    repeat' first
      | with_reducible assumption
      | (intro x; first | (refine keeps_cut K x ?_ ?_; rotate_left; intro hx; (try clear_value x); rotate_right; unfold x) | clear_value x | skip)
      | lift_lets
      | with_reducible apply State.poisonCw_keeps hm
      | with_reducible apply keeps_ite
      | split
  | cons y t ih =>
    first | rw [State.poisonMerge] | unfold State.poisonMerge
    repeat' first
      | with_reducible assumption
      | (intro x; first | (refine keeps_cut K x ?_ ?_; rotate_left; intro hx; (try clear_value x); rotate_right; unfold x) | clear_value x | skip)
      | lift_lets
      | with_reducible apply ih
      | with_reducible apply State.poisonCw_keeps hm
      | with_reducible apply keeps_ite
      | split

theorem State.replayCopies_keeps {K : Kept} (hm : K.stored = none) {s a1} (h : keeps K s) :
    keeps K (State.replayCopies s a1) := by
  induction a1 generalizing s with
  | nil =>
    first | rw [State.replayCopies] | unfold State.replayCopies
    repeat' first
      | with_reducible assumption
      | with_reducible apply State.homeData_keeps hm
      | with_reducible apply State.bump_keeps
  | cons y t ih =>
    first | rw [State.replayCopies] | unfold State.replayCopies
    repeat' first
      | with_reducible assumption
      | with_reducible apply ih
      | with_reducible apply State.homeData_keeps hm
      | with_reducible apply State.bump_keeps

theorem State.sliceFailover_keeps {K : Kept} (hm : K.stored = none) {s a1} (h : keeps K s) :
    keeps K (State.sliceFailover s a1) := by
  unfold State.sliceFailover
  repeat' first
    | with_reducible assumption
    | (intro x; first | (refine keeps_cut K x ?_ ?_; rotate_left; intro hx; (try clear_value x); rotate_right; unfold x) | clear_value x | skip)
    | lift_lets
    | with_reducible apply State.replayCopies_keeps hm
    | with_reducible apply State.poisonMerge_keeps hm
    | with_reducible apply State.poisonLines_keeps hm
    | with_reducible apply State.sendQueries_keeps
    | with_reducible apply State.failAccs_keeps
    | with_reducible apply State.setOv_keeps
    | with_reducible apply State.setSlc_keeps
    | with_reducible apply keeps_ite
    | split
    | simp only [keeps_upd_eq]

theorem State.snoopTimeout_keeps {K : Kept} (hm : K.stored = none) {s a1 a2 a3} (h : keeps K s) :
    keeps K (State.snoopTimeout s a1 a2 a3) := by
  unfold State.snoopTimeout
  repeat' first
    | with_reducible assumption
    | with_reducible apply State.declareLost_keeps hm
    | with_reducible apply keeps_ite
    | split

theorem State.censusClose_keeps {K : Kept} {s a1} (h : keeps K s) :
    keeps K (State.censusClose s a1) := by
  unfold State.censusClose
  repeat' first
    | with_reducible assumption
    | (intro x; first | (refine keeps_cut K x ?_ ?_; rotate_left; intro hx; (try clear_value x); rotate_right; unfold x) | clear_value x | skip)
    | lift_lets
    | with_reducible apply State.setSlc_keeps
    | with_reducible apply keeps_ite
    | split

theorem State.reissue_keeps {K : Kept} (hm : K.stored = none) {s a1 a2} (h : keeps K s) :
    keeps K (State.reissue s a1 a2) := by
  unfold State.reissue
  repeat' first
    | with_reducible assumption
    | (intro x; first | (refine keeps_cut K x ?_ ?_; rotate_left; intro hx; (try clear_value x); rotate_right; unfold x) | clear_value x | skip)
    | lift_lets
    | with_reducible apply State.sendHeld_keeps hm

theorem State.censusReport_keeps {K : Kept} {s a1 a2 a3 a4 a5 a6 a7 a8} (h : keeps K s) :
    keeps K (State.censusReport s a1 a2 a3 a4 a5 a6 a7 a8) := by
  unfold State.censusReport
  repeat' first
    | with_reducible assumption
    | (intro x; first | (refine keeps_cut K x ?_ ?_; rotate_left; intro hx; (try clear_value x); rotate_right; unfold x) | clear_value x | skip)
    | lift_lets
    | with_reducible apply State.censusRecord_keeps
    | with_reducible apply State.violation_keeps
    | with_reducible apply State.setSlc_keeps
    | with_reducible apply keeps_ite
    | with_reducible apply keeps_foldl
    | with_reducible apply keeps_foldl_fst
    | with_reducible apply keeps_foldl_snd
    | split

theorem State.holdEnd_keeps {K : Kept} (hm : K.stored = none) {s a1} (h : keeps K s) :
    keeps K (State.holdEnd s a1) := by
  unfold State.holdEnd
  repeat' first
    | with_reducible assumption
    | (intro x; first | (refine keeps_cut K x ?_ ?_; rotate_left; intro hx; (try clear_value x); rotate_right; unfold x) | clear_value x | skip)
    | lift_lets
    | with_reducible apply State.reissue_keeps hm
    | with_reducible apply State.freeCopies_keeps
    | with_reducible apply State.bump_keeps
    | with_reducible apply State.setOv_keeps
    | with_reducible apply State.setSlc_keeps
    | with_reducible apply keeps_ite
    | split

theorem State.agtRejoin_keeps {K : Kept} {s a1} (h : keeps K s) :
    keeps K (State.agtRejoin s a1).2 := by
  unfold State.agtRejoin
  repeat' first
    | with_reducible assumption
    | (intro x; first | (refine keeps_cut K x ?_ ?_; rotate_left; intro hx; (try clear_value x); rotate_right; unfold x) | (refine keeps_cut K x.2 ?_ ?_; rotate_left; intro hx; (try clear_value x); rotate_right; unfold x) | clear_value x | skip)
    | lift_lets
    | with_reducible apply State.setAgent_keeps
    | with_reducible apply keeps_ite
    | with_reducible apply keeps_ite_snd
    | split
    | dsimp only

theorem State.access_keeps {K : Kept} {s a1 a2 a3} (h : keeps K s) :
    keeps K (State.access s a1 a2 a3) := by
  unfold State.access
  repeat' first
    | with_reducible assumption
    | (intro x; first | (refine keeps_cut K x ?_ ?_; rotate_left; intro hx; (try clear_value x); rotate_right; unfold x) | clear_value x | skip)
    | lift_lets
    | with_reducible apply State.setChan_keeps
    | with_reducible apply State.foghorn_keeps
    | with_reducible apply State.bump_keeps
    | with_reducible apply keeps_ite
    | split

theorem State.dcpResult_keeps {K : Kept} {s a1 a2} (h : keeps K s) :
    keeps K (State.dcpResult s a1 a2) := by
  unfold State.dcpResult
  repeat' first
    | with_reducible assumption
    | with_reducible apply State.setOv_keeps

theorem State.online_keeps {K : Kept} {s a1} (h : keeps K s) :
    keeps K (State.online s a1) := by
  unfold State.online
  repeat' first
    | with_reducible assumption
    | (intro x; first | (refine keeps_cut K x ?_ ?_; rotate_left; intro hx; (try clear_value x); rotate_right; unfold x) | clear_value x | skip)
    | lift_lets
    | with_reducible apply State.dcpResult_keeps
    | with_reducible apply State.setUnitSt_keeps
    | with_reducible apply State.setOv_keeps
    | with_reducible apply keeps_ite
    | split
    | simp only [keeps_upd_eq]

theorem State.pwrOn_keeps {K : Kept} {s a1 a2} (h : keeps K s) :
    keeps K (State.pwrOn s a1 a2) := by
  unfold State.pwrOn
  repeat' first
    | with_reducible assumption
    | (intro x; first | (refine keeps_cut K x ?_ ?_; rotate_left; intro hx; (try clear_value x); rotate_right; unfold x) | clear_value x | skip)
    | lift_lets
    | with_reducible apply State.dcpResult_keeps
    | with_reducible apply State.setOv_keeps
    | with_reducible apply keeps_ite
    | split
    | simp only [keeps_upd_eq]

theorem State.refreshNow_keeps {K : Kept} {s a1 a2 a3} (h : keeps K s) :
    keeps K (State.refreshNow s a1 a2 a3) := by
  unfold State.refreshNow
  repeat' first
    | with_reducible assumption
    | (intro x; first | (refine keeps_cut K x ?_ ?_; rotate_left; intro hx; (try clear_value x); rotate_right; unfold x) | clear_value x | skip)
    | lift_lets
    | with_reducible apply State.setChan_keeps
    | with_reducible apply State.bump_keeps
    | with_reducible apply keeps_ite
    | split

theorem State.refreshForced_keeps {K : Kept} {s a1 a2} (h : keeps K s) :
    keeps K (State.refreshForced s a1 a2) := by
  unfold State.refreshForced
  repeat' first
    | with_reducible assumption
    | (intro x; first | (refine keeps_cut K x ?_ ?_; rotate_left; intro hx; (try clear_value x); rotate_right; unfold x) | clear_value x | skip)
    | lift_lets
    | with_reducible apply State.refreshNow_keeps
    | with_reducible apply keeps_ite
    | split

theorem State.retrainDue_keeps {K : Kept} {s a1} (h : keeps K s) :
    keeps K (State.retrainDue s a1) := by
  unfold State.retrainDue
  repeat' first
    | with_reducible assumption
    | (intro x; first | (refine keeps_cut K x ?_ ?_; rotate_left; intro hx; (try clear_value x); rotate_right; unfold x) | clear_value x | skip)
    | lift_lets
    | with_reducible apply State.setChan_keeps
    | with_reducible apply keeps_ite
    | split

theorem State.serveWrite_keeps {K : Kept} {s a1 a2} (h : keeps K s) :
    keeps K (State.serveWrite s a1 a2) := by
  unfold State.serveWrite
  repeat' first
    | with_reducible assumption
    | (intro x; first | (refine keeps_cut K x ?_ ?_; rotate_left; intro hx; (try clear_value x); rotate_right; unfold x) | clear_value x | skip)
    | lift_lets
    | with_reducible apply State.access_keeps
    | with_reducible apply State.setChan_keeps
    | split
    | dsimp only

theorem State.serveRead_keeps {K : Kept} {s a1 a2} (h : keeps K s) :
    keeps K (State.serveRead s a1 a2) := by
  unfold State.serveRead
  repeat' first
    | with_reducible assumption
    | (intro x; first | (refine keeps_cut K x ?_ ?_; rotate_left; intro hx; (try clear_value x); rotate_right; unfold x) | clear_value x | skip)
    | lift_lets
    | with_reducible apply State.access_keeps
    | with_reducible apply keeps_ite
    | split
    | dsimp only

theorem State.channelServe_keeps {K : Kept} {s a1} (h : keeps K s) :
    keeps K (State.channelServe s a1) := by
  unfold State.channelServe
  repeat' first
    | with_reducible assumption
    | (intro x; first | (refine keeps_cut K x ?_ ?_; rotate_left; intro hx; (try clear_value x); rotate_right; unfold x) | clear_value x | skip)
    | lift_lets
    | with_reducible apply State.serveRead_keeps
    | with_reducible apply State.serveWrite_keeps
    | with_reducible apply keeps_ite
    | split

theorem State.retrainForce_keeps {K : Kept} {s a1} (h : keeps K s) :
    keeps K (State.retrainForce s a1) := by
  unfold State.retrainForce
  repeat' first
    | with_reducible assumption
    | (intro x; first | (refine keeps_cut K x ?_ ?_; rotate_left; intro hx; (try clear_value x); rotate_right; unfold x) | clear_value x | skip)
    | lift_lets
    | with_reducible apply State.setChan_keeps
    | with_reducible apply State.bump_keeps
    | with_reducible apply keeps_ite
    | split

theorem State.pwrOff_keeps {K : Kept} {s a1 a2} (h : keeps K s) :
    keeps K (State.pwrOff s a1 a2) := by
  unfold State.pwrOff
  repeat' first
    | with_reducible assumption
    | (intro x; first | (refine keeps_cut K x ?_ ?_; rotate_left; intro hx; (try clear_value x); rotate_right; unfold x) | clear_value x | skip)
    | lift_lets
    | with_reducible apply State.dcpResult_keeps
    | with_reducible apply State.setOv_keeps
    | with_reducible apply keeps_ite
    | split
    | simp only [keeps_upd_eq]

theorem State.reestablish_keeps {K : Kept} (hm : K.stored = none) {s a1} (h : keeps K s) :
    keeps K (State.reestablish s a1) := by
  induction a1 generalizing s with
  | nil =>
    first | rw [State.reestablish] | unfold State.reestablish
    repeat' first
      | with_reducible assumption
      | with_reducible apply State.cwStore_keeps hm
      | with_reducible apply State.notePoison_keeps
      | split
  | cons y t ih =>
    first | rw [State.reestablish] | unfold State.reestablish
    repeat' first
      | with_reducible assumption
      | with_reducible apply ih
      | with_reducible apply State.cwStore_keeps hm
      | with_reducible apply State.notePoison_keeps
      | split

theorem State.rowClose_keeps {K : Kept} {s a1 a2} (h : keeps K s) :
    keeps K (State.rowClose s a1 a2) := by
  unfold State.rowClose
  repeat' first
    | with_reducible assumption
    | (intro x; first | (refine keeps_cut K x ?_ ?_; rotate_left; intro hx; (try clear_value x); rotate_right; unfold x) | clear_value x | skip)
    | lift_lets
    | with_reducible apply State.setChan_keeps
    | with_reducible apply keeps_ite
    | split

theorem State.offline_keeps {K : Kept} {s a1} (h : keeps K s) :
    keeps K (State.offline s a1) := by
  unfold State.offline
  repeat' first
    | with_reducible assumption
    | with_reducible apply State.dcpResult_keeps
    | with_reducible apply State.pairDark_keeps
    | with_reducible apply State.setUnitSt_keeps
    | with_reducible apply State.setOv_keeps
    | with_reducible apply keeps_ite
    | split

theorem State.presentChange_keeps {K : Kept} {s a1 a2} (h : keeps K s) :
    keeps K (State.presentChange s a1 a2) := by
  unfold State.presentChange
  repeat' first
    | with_reducible assumption
    | (intro x; first | (refine keeps_cut K x ?_ ?_; rotate_left; intro hx; (try clear_value x); rotate_right; unfold x) | clear_value x | skip)
    | lift_lets
    | with_reducible apply State.pairDark_keeps
    | with_reducible apply State.setOv_keeps
    | with_reducible apply keeps_ite
    | split

theorem State.rankDown_keeps {K : Kept} {s a1 a2} (h : keeps K s) :
    keeps K (State.rankDown s a1 a2) := by
  unfold State.rankDown
  repeat' first
    | with_reducible assumption
    | (intro x; first | (refine keeps_cut K x ?_ ?_; rotate_left; intro hx; (try clear_value x); rotate_right; unfold x) | clear_value x | skip)
    | lift_lets
    | with_reducible apply State.setChan_keeps
    | with_reducible apply keeps_ite
    | split

theorem State.caParity_keeps {K : Kept} {s a1} (h : keeps K s) :
    keeps K (State.caParity s a1) := by
  unfold State.caParity
  repeat' first
    | with_reducible assumption
    | (intro x; first | (refine keeps_cut K x ?_ ?_; rotate_left; intro hx; (try clear_value x); rotate_right; unfold x) | clear_value x | skip)
    | lift_lets
    | with_reducible apply State.setChan_keeps
    | with_reducible apply State.pairDark_keeps
    | with_reducible apply State.bump_keeps
    | with_reducible apply keeps_ite
    | split

theorem State.hbchFence_keeps {K : Kept} {s a1 a2} (h : keeps K s) :
    keeps K (State.hbchFence s a1 a2).2 := by
  unfold State.hbchFence
  repeat' first
    | with_reducible assumption
    | (intro x; first | (refine keeps_cut K x ?_ ?_; rotate_left; intro hx; (try clear_value x); rotate_right; unfold x) | (refine keeps_cut K x.2 ?_ ?_; rotate_left; intro hx; (try clear_value x); rotate_right; unfold x) | clear_value x | skip)
    | lift_lets
    | with_reducible apply State.fenceHbm_keeps
    | with_reducible apply State.setOv_keeps
    | with_reducible apply keeps_ite
    | with_reducible apply keeps_ite_snd
    | split
    | dsimp only

theorem State.settleEnd_keeps {K : Kept} {s a1 a2 a3 a4 a5 a6 a7} (h : keeps K s) :
    keeps K (State.settleEnd s a1 a2 a3 a4 a5 a6 a7) := by
  unfold State.settleEnd
  repeat' first
    | with_reducible assumption
    | (intro x; first | (refine keeps_cut K x ?_ ?_; rotate_left; intro hx; (try clear_value x); rotate_right; unfold x) | clear_value x | skip)
    | lift_lets
    | with_reducible apply State.dcpResult_keeps
    | with_reducible apply State.setOct_keeps
    | with_reducible apply State.setOv_keeps
    | with_reducible apply keeps_ite
    | split
    | simp only [keeps_upd_eq]

theorem State.refreshDue_keeps {K : Kept} {s a1 a2} (h : keeps K s) :
    keeps K (State.refreshDue s a1 a2) := by
  unfold State.refreshDue
  repeat' first
    | with_reducible assumption
    | (intro x; first | (refine keeps_cut K x ?_ ?_; rotate_left; intro hx; (try clear_value x); rotate_right; unfold x) | clear_value x | skip)
    | lift_lets
    | with_reducible apply State.refreshNow_keeps
    | with_reducible apply State.setChan_keeps
    | with_reducible apply keeps_ite
    | split

theorem State.relayoutDone_keeps {K : Kept} (hm : K.stored = none) {s a1} (h : keeps K s) :
    keeps K (State.relayoutDone s a1) := by
  unfold State.relayoutDone
  repeat' first
    | with_reducible assumption
    | (intro x; first | (refine keeps_cut K x ?_ ?_; rotate_left; intro hx; (try clear_value x); rotate_right; unfold x) | clear_value x | skip)
    | lift_lets
    | with_reducible apply State.reestablish_keeps hm
    | with_reducible apply State.setOv_keeps
    | with_reducible apply keeps_ite
    | split

theorem State.queueEnter_keeps {K : Kept} {s a1 a2 a3 a4} (h : keeps K s) :
    keeps K (State.queueEnter s a1 a2 a3 a4) := by
  unfold State.queueEnter
  repeat' first
    | with_reducible assumption
    | (intro x; first | (refine keeps_cut K x ?_ ?_; rotate_left; intro hx; (try clear_value x); rotate_right; unfold x) | clear_value x | skip)
    | lift_lets
    | with_reducible apply State.setChan_keeps
    | with_reducible apply State.foghorn_keeps
    | with_reducible apply State.pageHint_keeps
    | with_reducible apply keeps_ite
    | split
    | dsimp only

theorem State.trainingDone_keeps {K : Kept} {s a1 a2} (h : keeps K s) :
    keeps K (State.trainingDone s a1 a2) := by
  unfold State.trainingDone
  repeat' first
    | with_reducible assumption
    | (intro x; first | (refine keeps_cut K x ?_ ?_; rotate_left; intro hx; (try clear_value x); rotate_right; unfold x) | clear_value x | skip)
    | lift_lets
    | with_reducible apply State.dcpResult_keeps
    | with_reducible apply State.pairDark_keeps
    | with_reducible apply State.fenceHbm_keeps
    | with_reducible apply State.setUnitSt_keeps
    | with_reducible apply State.event_keeps
    | with_reducible apply State.setOv_keeps
    | with_reducible apply keeps_ite
    | split
    | simp only [keeps_upd_eq]

theorem State.scrubCancel_keeps {K : Kept} {s} (h : keeps K s) :
    keeps K (State.scrubCancel s) := by
  unfold State.scrubCancel
  repeat' first
    | with_reducible assumption
    | (intro x; first | (refine keeps_cut K x ?_ ?_; rotate_left; intro hx; (try clear_value x); rotate_right; unfold x) | clear_value x | skip)
    | lift_lets
    | with_reducible apply State.setOv_keeps
    | with_reducible apply keeps_ite
    | split
    | simp only [keeps_upd_eq]

theorem State.ceWriteback_keeps {K : Kept} {s a1} (h : keeps K s) :
    keeps K (State.ceWriteback s a1) := by
  unfold State.ceWriteback
  repeat' first
    | with_reducible assumption
    | (intro x; first | (refine keeps_cut K x ?_ ?_; rotate_left; intro hx; (try clear_value x); rotate_right; unfold x) | clear_value x | skip)
    | lift_lets
    | with_reducible apply keeps_ite
    | split
    | simp only [keeps_upd_eq]
    | exact keeps_bad (by with_reducible assumption) _ (fun e => Tab.wf_put e _ _)

theorem State.scrubEnd_keeps {K : Kept} {s} (h : keeps K s) :
    keeps K (State.scrubEnd s) := by
  unfold State.scrubEnd
  repeat' first
    | with_reducible assumption
    | (intro x; first | (refine keeps_cut K x ?_ ?_; rotate_left; intro hx; (try clear_value x); rotate_right; unfold x) | clear_value x | skip)
    | lift_lets
    | with_reducible apply State.setOv_keeps
    | with_reducible apply keeps_ite
    | split
    | simp only [keeps_upd_eq]

theorem State.scrubStart_keeps {K : Kept} {s} (h : keeps K s) :
    keeps K (State.scrubStart s).2 := by
  unfold State.scrubStart
  repeat' first
    | with_reducible assumption
    | (intro x; first | (refine keeps_cut K x ?_ ?_; rotate_left; intro hx; (try clear_value x); rotate_right; unfold x) | (refine keeps_cut K x.2 ?_ ?_; rotate_left; intro hx; (try clear_value x); rotate_right; unfold x) | clear_value x | skip)
    | lift_lets
    | with_reducible apply State.setOv_keeps
    | with_reducible apply keeps_ite
    | with_reducible apply keeps_ite_snd
    | split
    | simp only [keeps_upd_eq]
    | dsimp only

theorem State.mergeExpire_keeps {K : Kept} (hm : K.stored = none) {s a1} (h : keeps K s) :
    keeps K (State.mergeExpire s a1) := by
  unfold State.mergeExpire
  repeat' first
    | with_reducible assumption
    | with_reducible apply State.flushMerge_keeps hm

theorem State.scrubCw_keeps {K : Kept} (hm : K.stored = none) {s a1} (h : keeps K s) :
    keeps K (State.scrubCw s a1).2 := by
  unfold State.scrubCw
  repeat' first
    | with_reducible assumption
    | (intro x; first | (refine keeps_cut K x ?_ ?_; rotate_left; intro hx; (try clear_value x); rotate_right; unfold x) | (refine keeps_cut K x.2 ?_ ?_; rotate_left; intro hx; (try clear_value x); rotate_right; unfold x) | clear_value x | skip)
    | lift_lets
    | with_reducible apply State.noteCe_keeps
    | with_reducible apply State.noteUe_keeps
    | with_reducible apply State.wantWriteback_keeps
    | with_reducible apply State.cwStore_keeps hm
    | with_reducible apply State.notePoison_keeps
    | with_reducible apply State.bump_keeps
    | with_reducible apply keeps_ite
    | with_reducible apply keeps_ite_snd
    | split
    | dsimp only
    | (refine keeps_of_snd (by with_reducible assumption) ?_)
    | (refine keeps_of_fst (by with_reducible assumption) ?_)
    | dsimp only

theorem State.scrubLine_keeps {K : Kept} (hm : K.stored = none) {s a1} (h : keeps K s) :
    keeps K (State.scrubLine s a1) := by
  unfold State.scrubLine
  repeat' first
    | with_reducible assumption
    | (intro x; first | (refine keeps_cut K x ?_ ?_; rotate_left; intro hx; (try clear_value x); rotate_right; unfold x) | (refine keeps_cut K x.2 ?_ ?_; rotate_left; intro hx; (try clear_value x); rotate_right; unfold x) | clear_value x | skip)
    | lift_lets
    | with_reducible apply State.scrubCw_keeps hm
    | with_reducible apply State.scrubEnd_keeps
    | with_reducible apply State.flushMerge_keeps hm
    | with_reducible apply State.meet_keeps
    | with_reducible apply State.setOv_keeps
    | with_reducible apply keeps_ite
    | split
    | simp only [keeps_upd_eq]

theorem State.sendAgain_keeps {K : Kept} {s a1 a2 a3} (h : keeps K s) :
    keeps K (State.sendAgain s a1 a2 a3) := by
  unfold State.sendAgain
  repeat' first
    | with_reducible assumption
    | (intro x; first | (refine keeps_cut K x ?_ ?_; rotate_left; intro hx; (try clear_value x); rotate_right; unfold x) | clear_value x | skip)
    | lift_lets
    | with_reducible apply State.send_keeps
    | with_reducible apply keeps_ite
    | split
    | simp only [keeps_upd_eq]

theorem State.undoSent_keeps {K : Kept} (hm : K.stored = none) {s a1} (h : keeps K s) :
    keeps K (State.undoSent s a1) := by
  unfold State.undoSent
  repeat' first
    | with_reducible assumption
    | (intro x; first | (refine keeps_cut K x ?_ ?_; rotate_left; intro hx; (try clear_value x); rotate_right; unfold x) | clear_value x | skip)
    | lift_lets
    | with_reducible apply State.work_keeps hm
    | with_reducible apply State.setDir_keeps
    | split
    | dsimp only
    | with_reducible apply State.ackLine_getD_keeps hm

theorem State.reroute_keeps {K : Kept} {s a1 a2} (h : keeps K s) :
    keeps K (State.reroute s a1 a2) := by
  induction a2 generalizing s a1 with
  | nil =>
    first | rw [State.reroute] | unfold State.reroute
    repeat' first
      | with_reducible assumption
      | with_reducible apply State.sendAgain_keeps
      | with_reducible apply State.send_keeps
      | split
  | cons y t ih =>
    first | rw [State.reroute] | unfold State.reroute
    repeat' first
      | with_reducible assumption
      | with_reducible apply ih
      | with_reducible apply State.sendAgain_keeps
      | with_reducible apply State.send_keeps
      | split

theorem State.rerouteAll_keeps {K : Kept} {s} (h : keeps K s) :
    keeps K (State.rerouteAll s) := by
  unfold State.rerouteAll
  repeat' first
    | with_reducible assumption
    | (intro x; first | (refine keeps_cut K x ?_ ?_; rotate_left; intro hx; (try clear_value x); rotate_right; unfold x) | clear_value x | skip)
    | lift_lets
    | with_reducible apply State.reroute_keeps
    | with_reducible apply keeps_ite
    | with_reducible apply keeps_foldl
    | with_reducible apply keeps_foldl_fst
    | with_reducible apply keeps_foldl_snd
    | split
    | simp only [keeps_upd_eq]

theorem State.syncFail_keeps {K : Kept} (hm : K.stored = none) {s a1 a2} (h : keeps K s) :
    keeps K (State.syncFail s a1 a2) := by
  unfold State.syncFail
  repeat' first
    | with_reducible assumption
    | (intro x; first | (refine keeps_cut K x ?_ ?_; rotate_left; intro hx; (try clear_value x); rotate_right; unfold x) | clear_value x | skip)
    | lift_lets
    | with_reducible apply State.rerouteAll_keeps
    | with_reducible apply State.undoSent_keeps hm
    | with_reducible apply State.send_keeps
    | with_reducible apply State.event_keeps
    | with_reducible apply State.bump_keeps
    | with_reducible apply keeps_foldl
    | with_reducible apply keeps_foldl_fst
    | with_reducible apply keeps_foldl_snd
    | simp only [keeps_upd_eq]

theorem State.failPort_keeps {K : Kept} {s a1 a2} (h : keeps K s) :
    keeps K (State.failPort s a1 a2) := by
  induction a2 generalizing s a1 with
  | nil =>
    first | rw [State.failPort] | unfold State.failPort
    repeat' first
      | with_reducible assumption
      | (intro x; first | (refine keeps_cut K x ?_ ?_; rotate_left; intro hx; (try clear_value x); rotate_right; unfold x) | clear_value x | skip)
      | lift_lets
      | with_reducible apply State.finish_keeps
      | with_reducible apply State.setDir_keeps
      | with_reducible apply keeps_ite
      | split
      | simp only [keeps_upd_eq]
  | cons y t ih =>
    first | rw [State.failPort] | unfold State.failPort
    repeat' first
      | with_reducible assumption
      | (intro x; first | (refine keeps_cut K x ?_ ?_; rotate_left; intro hx; (try clear_value x); rotate_right; unfold x) | clear_value x | skip)
      | lift_lets
      | with_reducible apply ih
      | with_reducible apply State.finish_keeps
      | with_reducible apply State.setDir_keeps
      | with_reducible apply keeps_ite
      | split
      | simp only [keeps_upd_eq]

theorem State.startSync_keeps {K : Kept} (hm : K.stored = none) {s a1 a2} (h : keeps K s) :
    keeps K (State.startSync s a1 a2) := by
  unfold State.startSync
  repeat' first
    | with_reducible assumption
    | with_reducible apply State.syncFail_keeps hm
    | with_reducible apply State.send_keeps
    | split
    | simp only [keeps_upd_eq]

theorem State.linkDown_keeps {K : Kept} (hm : K.stored = none) {s a1 a2} (h : keeps K s) :
    keeps K (State.linkDown s a1 a2) := by
  unfold State.linkDown
  repeat' first
    | with_reducible assumption
    | (intro x; first | (refine keeps_cut K x ?_ ?_; rotate_left; intro hx; (try clear_value x); rotate_right; unfold x) | clear_value x | skip)
    | lift_lets
    | with_reducible apply State.startSync_keeps hm
    | with_reducible apply State.failPort_keeps
    | with_reducible apply State.ackGrants_keeps hm
    | with_reducible apply State.setSession_keeps
    | with_reducible apply State.setLport_keeps
    | with_reducible apply State.event_keeps
    | with_reducible apply State.bump_keeps
    | with_reducible apply State.setOv_keeps
    | with_reducible apply keeps_ite
    | split

theorem State.portLossTimeout_keeps {K : Kept} (hm : K.stored = none) {s a1} (h : keeps K s) :
    keeps K (State.portLossTimeout s a1) := by
  unfold State.portLossTimeout
  repeat' first
    | with_reducible assumption
    | with_reducible apply State.linkDown_keeps hm
    | with_reducible apply keeps_ite
    | split

theorem State.admitNext_keeps {K : Kept} {s a1} (h : keeps K s) :
    keeps K (State.admitNext s a1) := by
  unfold State.admitNext
  repeat' first
    | with_reducible assumption
    | (intro x; first | (refine keeps_cut K x ?_ ?_; rotate_left; intro hx; (try clear_value x); rotate_right; unfold x) | clear_value x | skip)
    | lift_lets
    | with_reducible apply State.arrive_keeps
    | with_reducible apply State.freeRx_keeps
    | with_reducible apply keeps_ite
    | split
    | simp only [keeps_upd_eq]
    | dsimp only

theorem State.completionLeaves_keeps {K : Kept} {s a1 a2 a3} (h : keeps K s) :
    keeps K (State.completionLeaves s a1 a2 a3) := by
  unfold State.completionLeaves
  repeat' first
    | with_reducible assumption
    | with_reducible apply State.admitNext_keeps
    | with_reducible apply State.cmpEgress_keeps

theorem State.failPool_keeps {K : Kept} {s a1 a2} (h : keeps K s) :
    keeps K (State.failPool s a1 a2) := by
  induction a2 generalizing s a1 with
  | nil =>
    first | rw [State.failPool] | unfold State.failPool
    repeat' first
      | with_reducible assumption
      | (intro x; first | (refine keeps_cut K x ?_ ?_; rotate_left; intro hx; (try clear_value x); rotate_right; unfold x) | clear_value x | skip)
      | lift_lets
      | with_reducible apply State.finish_keeps
      | simp only [keeps_upd_eq]
  | cons y t ih =>
    first | rw [State.failPool] | unfold State.failPool
    repeat' first
      | with_reducible assumption
      | (intro x; first | (refine keeps_cut K x ?_ ?_; rotate_left; intro hx; (try clear_value x); rotate_right; unfold x) | clear_value x | skip)
      | lift_lets
      | with_reducible apply ih
      | with_reducible apply State.finish_keeps
      | simp only [keeps_upd_eq]

theorem State.portDark_keeps {K : Kept} (hm : K.stored = none) {s a1} (h : keeps K s) :
    keeps K (State.portDark s a1) := by
  unfold State.portDark
  repeat' first
    | with_reducible assumption
    | (intro x; first | (refine keeps_cut K x ?_ ?_; rotate_left; intro hx; (try clear_value x); rotate_right; unfold x) | clear_value x | skip)
    | lift_lets
    | with_reducible apply State.failPool_keeps
    | with_reducible apply State.linkDown_keeps hm
    | with_reducible apply State.failPort_keeps
    | with_reducible apply State.setUnitSt_keeps
    | with_reducible apply State.bump_keeps

theorem State.portFence_keeps {K : Kept} (hm : K.stored = none) {s a1} (h : keeps K s) :
    keeps K (State.portFence s a1).2 := by
  unfold State.portFence
  repeat' first
    | with_reducible assumption
    | with_reducible apply State.portDark_keeps hm
    | with_reducible apply keeps_ite
    | with_reducible apply keeps_ite_snd
    | split
    | dsimp only

theorem State.resendLost_keeps {K : Kept} (hm : K.stored = none) {s a1 a2 a3} (h : keeps K s) :
    keeps K (State.resendLost s a1 a2 a3) := by
  induction a3 generalizing s a1 a2 with
  | nil =>
    first | rw [State.resendLost] | unfold State.resendLost
    repeat' first
      | with_reducible assumption
      | with_reducible apply State.undoSent_keeps hm
      | with_reducible apply State.sendAgain_keeps
      | with_reducible apply State.send_keeps
      | with_reducible apply keeps_ite
      | split
  | cons y t ih =>
    first | rw [State.resendLost] | unfold State.resendLost
    repeat' first
      | with_reducible assumption
      | with_reducible apply ih
      | with_reducible apply State.undoSent_keeps hm
      | with_reducible apply State.sendAgain_keeps
      | with_reducible apply State.send_keeps
      | with_reducible apply keeps_ite
      | split

theorem State.syncAnswer_keeps {K : Kept} (hm : K.stored = none) {s a1 a2 a3} (h : keeps K s) :
    keeps K (State.syncAnswer s a1 a2 a3) := by
  unfold State.syncAnswer
  repeat' first
    | with_reducible assumption
    | (intro x; first | (refine keeps_cut K x ?_ ?_; rotate_left; intro hx; (try clear_value x); rotate_right; unfold x) | clear_value x | skip)
    | lift_lets
    | with_reducible apply State.resendLost_keeps hm
    | with_reducible apply State.rerouteAll_keeps
    | with_reducible apply State.bump_keeps
    | split
    | simp only [keeps_upd_eq]
    | dsimp only

theorem State.quarantine_keeps {K : Kept} (hm : K.stored = none) {s a1} (h : keeps K s) :
    keeps K (State.quarantine s a1) := by
  unfold State.quarantine
  repeat' first
    | with_reducible assumption
    | (intro x; first | (refine keeps_cut K x ?_ ?_; rotate_left; intro hx; (try clear_value x); rotate_right; unfold x) | clear_value x | skip)
    | lift_lets
    | with_reducible apply State.linkDown_keeps hm
    | with_reducible apply State.violation_keeps
    | with_reducible apply State.event_keeps
    | with_reducible apply State.setOv_keeps
    | split
    | dsimp only

theorem State.sessFail_keeps {K : Kept} (hm : K.stored = none) {s a1} (h : keeps K s) :
    keeps K (State.sessFail s a1) := by
  unfold State.sessFail
  repeat' first
    | with_reducible assumption
    | (intro x; first | (refine keeps_cut K x ?_ ?_; rotate_left; intro hx; (try clear_value x); rotate_right; unfold x) | clear_value x | skip)
    | lift_lets
    | with_reducible apply State.quarantine_keeps hm
    | with_reducible apply State.linkDown_keeps hm
    | with_reducible apply State.setSession_keeps
    | with_reducible apply keeps_ite
    | split

theorem State.portRestart_keeps {K : Kept} (hm : K.stored = none) {s a1} (h : keeps K s) :
    keeps K (State.portRestart s a1) := by
  unfold State.portRestart
  repeat' first
    | with_reducible assumption
    | with_reducible apply State.linkDown_keeps hm
    | with_reducible apply keeps_ite
    | split

theorem State.portRepair_keeps {K : Kept} {s a1} (h : keeps K s) :
    keeps K (State.portRepair s a1).2 := by
  unfold State.portRepair
  repeat' first
    | with_reducible assumption
    | with_reducible apply State.setUnitSt_keeps
    | with_reducible apply keeps_ite
    | with_reducible apply keeps_ite_snd
    | split
    | dsimp only

theorem State.tagFail_keeps {K : Kept} (hm : K.stored = none) {s a1} (h : keeps K s) :
    keeps K (State.tagFail s a1) := by
  unfold State.tagFail
  repeat' first
    | with_reducible assumption
    | (intro x; first | (refine keeps_cut K x ?_ ?_; rotate_left; intro hx; (try clear_value x); rotate_right; unfold x) | clear_value x | skip)
    | lift_lets
    | with_reducible apply State.quarantine_keeps hm
    | with_reducible apply State.setSession_keeps
    | with_reducible apply State.bump_keeps
    | with_reducible apply keeps_ite
    | split

theorem State.syncAsk_keeps {K : Kept} (hm : K.stored = none) {s a1 a2 a3 a4} (h : keeps K s) :
    keeps K (State.syncAsk s a1 a2 a3 a4) := by
  unfold State.syncAsk
  repeat' first
    | with_reducible assumption
    | (intro x; first | (refine keeps_cut K x ?_ ?_; rotate_left; intro hx; (try clear_value x); rotate_right; unfold x) | clear_value x | skip)
    | lift_lets
    | with_reducible apply State.resendLost_keeps hm
    | with_reducible apply State.linkDown_keeps hm
    | with_reducible apply State.send_keeps
    | with_reducible apply State.bump_keeps
    | split
    | simp only [keeps_upd_eq]
    | dsimp only

theorem State.linkSync_keeps {K : Kept} (hm : K.stored = none) {s a1 a2 a3 a4 a5} (h : keeps K s) :
    keeps K (State.linkSync s a1 a2 a3 a4 a5) := by
  unfold State.linkSync
  repeat' first
    | with_reducible assumption
    | with_reducible apply State.syncAsk_keeps hm
    | with_reducible apply State.syncAnswer_keeps hm
    | with_reducible apply keeps_ite
    | split

theorem State.portLost_keeps {K : Kept} (hm : K.stored = none) {s a1} (h : keeps K s) :
    keeps K (State.portLost s a1) := by
  unfold State.portLost
  repeat' first
    | with_reducible assumption
    | with_reducible apply State.linkDown_keeps hm
    | with_reducible apply keeps_ite
    | split

theorem State.receive_keeps {K : Kept} {s a1 a2 a3 a4 a5} (h : keeps K s) :
    keeps K (State.receive s a1 a2 a3 a4 a5) := by
  unfold State.receive
  repeat' first
    | with_reducible assumption
    | with_reducible apply State.arrive_keeps
    | with_reducible apply keeps_ite
    | split
    | simp only [keeps_upd_eq]

theorem State.linkSyncTimeout_keeps {K : Kept} (hm : K.stored = none) {s a1} (h : keeps K s) :
    keeps K (State.linkSyncTimeout s a1) := by
  unfold State.linkSyncTimeout
  repeat' first
    | with_reducible assumption
    | with_reducible apply State.syncFail_keeps hm
    | split

theorem State.linkRelease_keeps {K : Kept} {s a1} (h : keeps K s) :
    keeps K (State.linkRelease s a1).2 := by
  unfold State.linkRelease
  repeat' first
    | with_reducible assumption
    | with_reducible apply State.setSession_keeps
    | with_reducible apply State.setOv_keeps
    | with_reducible apply keeps_ite
    | with_reducible apply keeps_ite_snd
    | split
    | dsimp only

theorem State.sessionUp_keeps {K : Kept} {s a1} (h : keeps K s) :
    keeps K (State.sessionUp s a1) := by
  unfold State.sessionUp
  repeat' first
    | with_reducible assumption
    | (intro x; first | (refine keeps_cut K x ?_ ?_; rotate_left; intro hx; (try clear_value x); rotate_right; unfold x) | clear_value x | skip)
    | lift_lets
    | with_reducible apply State.rerouteAll_keeps
    | with_reducible apply State.sendAllQueries_keeps
    | with_reducible apply State.setSession_keeps
    | with_reducible apply State.setLport_keeps
    | with_reducible apply State.setOv_keeps
    | with_reducible apply keeps_ite
    | split
    | simp only [keeps_upd_eq]

theorem State.dmExtend_keeps {K : Kept} {s a1 a2} (h : keeps K s) :
    keeps K (State.dmExtend s a1 a2) := by
  unfold State.dmExtend
  repeat' first
    | with_reducible assumption
    | with_reducible apply State.daymark_keeps
    | with_reducible apply keeps_ite
    | split

theorem State.setIde_keeps {K : Kept} {s a1 a2} (h : keeps K s) :
    keeps K (State.setIde s a1 a2) := by
  unfold State.setIde
  repeat' first
    | with_reducible assumption
    | (intro x; first | (refine keeps_cut K x ?_ ?_; rotate_left; intro hx; (try clear_value x); rotate_right; unfold x) | clear_value x | skip)
    | lift_lets
    | with_reducible apply State.setOv_keeps
    | simp only [keeps_upd_eq]

theorem State.ideKm_keeps {K : Kept} {s a1 a2 a3 a4} (h : keeps K s) :
    keeps K (State.ideKm s a1 a2 a3 a4) := by
  unfold State.ideKm
  repeat' first
    | with_reducible assumption
    | (intro x; first | (refine keeps_cut K x ?_ ?_; rotate_left; intro hx; (try clear_value x); rotate_right; unfold x) | clear_value x | skip)
    | lift_lets
    | with_reducible apply State.setIde_keeps
    | with_reducible apply State.emit_keeps
    | with_reducible apply keeps_ite
    | split

theorem State.dbgNonceExpire_keeps {K : Kept} {s} (h : keeps K s) :
    keeps K (State.dbgNonceExpire s) := by
  unfold State.dbgNonceExpire
  repeat' first
    | with_reducible assumption
    | (intro x; first | (refine keeps_cut K x ?_ ?_; rotate_left; intro hx; (try clear_value x); rotate_right; unfold x) | clear_value x | skip)
    | lift_lets
    | simp only [keeps_upd_eq]

theorem State.lcResult_keeps {K : Kept} {s a1} (h : keeps K s) :
    keeps K (State.lcResult s a1) := by
  unfold State.lcResult
  repeat' first
    | with_reducible assumption
    | with_reducible apply State.setOv_keeps

theorem State.enterMaintenance_keeps {K : Kept} {s} (h : keeps K s) :
    keeps K (State.enterMaintenance s) := by
  unfold State.enterMaintenance
  repeat' first
    | with_reducible assumption
    | with_reducible apply State.lcResult_keeps
    | with_reducible apply State.setOv_keeps
    | with_reducible apply keeps_ite
    | split

theorem State.dbgResult_keeps {K : Kept} {s a1} (h : keeps K s) :
    keeps K (State.dbgResult s a1) := by
  unfold State.dbgResult
  repeat' first
    | with_reducible assumption
    | with_reducible apply State.setOv_keeps

theorem State.dbgToken_keeps {K : Kept} {s a1 a2} (h : keeps K s) :
    keeps K (State.dbgToken s a1 a2) := by
  unfold State.dbgToken
  repeat' first
    | with_reducible assumption
    | (intro x; first | (refine keeps_cut K x ?_ ?_; rotate_left; intro hx; (try clear_value x); rotate_right; unfold x) | clear_value x | skip)
    | lift_lets
    | with_reducible apply State.dbgResult_keeps
    | with_reducible apply State.setOv_keeps
    | with_reducible apply keeps_ite
    | split
    | simp only [keeps_upd_eq]
    | dsimp only

theorem State.dropAllKeys_keeps {K : Kept} {s} (h : keeps K s) :
    keeps K (State.dropAllKeys s) := by
  unfold State.dropAllKeys
  repeat' first
    | with_reducible assumption
    | (intro x; first | (refine keeps_cut K x ?_ ?_; rotate_left; intro hx; (try clear_value x); rotate_right; unfold x) | clear_value x | skip)
    | lift_lets
    | simp only [keeps_upd_eq]

theorem State.extest_keeps {K : Kept} {s} (h : keeps K s) :
    keeps K (State.extest s) := by
  unfold State.extest
  repeat' first
    | with_reducible assumption
    | (intro x; first | (refine keeps_cut K x ?_ ?_; rotate_left; intro hx; (try clear_value x); rotate_right; unfold x) | clear_value x | skip)
    | lift_lets
    | with_reducible apply State.dropAllKeys_keeps
    | with_reducible apply State.setOv_keeps
    | with_reducible apply keeps_ite
    | split
    | simp only [keeps_upd_eq]

theorem State.loseSetKeys_keeps {K : Kept} {s} (h : keeps K s) :
    keeps K (State.loseSetKeys s) := by
  unfold State.loseSetKeys
  repeat' first
    | with_reducible assumption
    | (intro x; first | (refine keeps_cut K x ?_ ?_; rotate_left; intro hx; (try clear_value x); rotate_right; unfold x) | clear_value x | skip)
    | lift_lets
    | simp only [keeps_upd_eq]

theorem State.decommission_keeps {K : Kept} {s} (h : keeps K s) :
    keeps K (State.decommission s) := by
  unfold State.decommission
  repeat' first
    | with_reducible assumption
    | with_reducible apply State.loseSetKeys_keeps
    | with_reducible apply State.lcResult_keeps
    | with_reducible apply State.setOv_keeps
    | with_reducible apply keeps_ite
    | split

theorem State.arbCommit_keeps {K : Kept} {s} (h : keeps K s) :
    keeps K (State.arbCommit s).2 := by
  unfold State.arbCommit
  repeat' first
    | with_reducible assumption
    | with_reducible apply State.setOv_keeps
    | with_reducible apply keeps_ite
    | with_reducible apply keeps_ite_snd
    | split
    | dsimp only

theorem State.dbgNonceRead_keeps {K : Kept} {s} (h : keeps K s) :
    keeps K (State.dbgNonceRead s).2 := by
  unfold State.dbgNonceRead
  repeat' first
    | with_reducible assumption
    | (intro x; first | (refine keeps_cut K x ?_ ?_; rotate_left; intro hx; (try clear_value x); rotate_right; unfold x) | (refine keeps_cut K x.2 ?_ ?_; rotate_left; intro hx; (try clear_value x); rotate_right; unfold x) | clear_value x | skip)
    | lift_lets
    | with_reducible apply State.freeBytes_keeps
    | simp only [keeps_upd_eq]
    | dsimp only

theorem State.attResult_keeps {K : Kept} {s a1 a2} (h : keeps K s) :
    keeps K (State.attResult s a1 a2) := by
  unfold State.attResult
  repeat' first
    | with_reducible assumption
    | with_reducible apply State.setOv_keeps
    | with_reducible apply keeps_ite
    | split

theorem State.attest_keeps {K : Kept} {s a1} (h : keeps K s) :
    keeps K (State.attest s a1) := by
  unfold State.attest
  repeat' first
    | with_reducible assumption
    | (intro x; first | (refine keeps_cut K x ?_ ?_; rotate_left; intro hx; (try clear_value x); rotate_right; unfold x) | clear_value x | skip)
    | lift_lets
    | with_reducible apply State.attResult_keeps
    | with_reducible apply keeps_ite
    | split
    | simp only [keeps_upd_eq]

theorem State.enterService_keeps {K : Kept} {s} (h : keeps K s) :
    keeps K (State.enterService s) := by
  unfold State.enterService
  repeat' first
    | with_reducible assumption
    | with_reducible apply State.lcResult_keeps
    | with_reducible apply State.setOv_keeps
    | with_reducible apply keeps_ite
    | split

theorem State.reportReady_keeps {K : Kept} {s} (h : keeps K s) :
    keeps K (State.reportReady s) := by
  unfold State.reportReady
  repeat' first
    | with_reducible assumption
    | (intro x; first | (refine keeps_cut K x ?_ ?_; rotate_left; intro hx; (try clear_value x); rotate_right; unfold x) | clear_value x | skip)
    | lift_lets
    | with_reducible apply State.attResult_keeps
    | with_reducible apply State.setOct_keeps
    | with_reducible apply keeps_ite
    | split
    | simp only [keeps_upd_eq]
    | dsimp only

theorem State.switchTx_keeps {K : Kept} {s a1} (h : keeps K s) :
    keeps K (State.switchTx s a1) := by
  unfold State.switchTx
  repeat' first
    | with_reducible assumption
    | (intro x; first | (refine keeps_cut K x ?_ ?_; rotate_left; intro hx; (try clear_value x); rotate_right; unfold x) | clear_value x | skip)
    | lift_lets
    | with_reducible apply State.setSession_keeps
    | with_reducible apply State.setLport_keeps
    | split
    | dsimp only

theorem State.switchKeys_keeps {K : Kept} {s a1} (h : keeps K s) :
    keeps K (State.switchKeys s a1) := by
  unfold State.switchKeys
  repeat' first
    | with_reducible assumption
    | (intro x; first | (refine keeps_cut K x ?_ ?_; rotate_left; intro hx; (try clear_value x); rotate_right; unfold x) | (refine keeps_cut K x.2 ?_ ?_; rotate_left; intro hx; (try clear_value x); rotate_right; unfold x) | clear_value x | skip)
    | lift_lets
    | with_reducible apply State.switchTx_keeps
    | with_reducible apply State.newKey_keeps
    | with_reducible apply State.setSession_keeps
    | with_reducible apply State.bump_keeps
    | with_reducible apply State.freeBelow_keeps
    | with_reducible apply State.setOv_keeps
    | with_reducible apply keeps_ite
    | split

theorem State.setDevSet_keeps {K : Kept} {s a1 a2} (h : keeps K s) :
    keeps K (State.setDevSet s a1 a2) := by
  unfold State.setDevSet
  repeat' first
    | with_reducible assumption
    | (intro x; first | (refine keeps_cut K x ?_ ?_; rotate_left; intro hx; (try clear_value x); rotate_right; unfold x) | clear_value x | skip)
    | lift_lets
    | with_reducible apply State.setOv_keeps
    | split
    | simp only [keeps_upd_eq]
    | dsimp only

theorem State.formDone_keeps {K : Kept} {s a1} (h : keeps K s) :
    keeps K (State.formDone s a1) := by
  unfold State.formDone
  repeat' first
    | with_reducible assumption
    | (intro x; first | (refine keeps_cut K x ?_ ?_; rotate_left; intro hx; (try clear_value x); rotate_right; unfold x) | clear_value x | skip)
    | lift_lets
    | with_reducible apply State.setDevSet_keeps
    | with_reducible apply State.setOv_keeps

theorem State.formFail_keeps {K : Kept} {s a1 a2 a3} (h : keeps K s) :
    keeps K (State.formFail s a1 a2 a3) := by
  unfold State.formFail
  repeat' first
    | with_reducible assumption
    | with_reducible apply State.setDevSet_keeps
    | with_reducible apply State.setOct_keeps
    | with_reducible apply State.setOv_keeps

theorem State.joinDone_keeps {K : Kept} {s a1 a2} (h : keeps K s) :
    keeps K (State.joinDone s a1 a2) := by
  unfold State.joinDone
  repeat' first
    | with_reducible assumption
    | (intro x; first | (refine keeps_cut K x ?_ ?_; rotate_left; intro hx; (try clear_value x); rotate_right; unfold x) | clear_value x | skip)
    | lift_lets
    | with_reducible apply State.formFail_keeps
    | with_reducible apply State.formDone_keeps
    | with_reducible apply State.setDevSet_keeps
    | with_reducible apply keeps_ite
    | split
    | dsimp only

theorem State.lsRefuse_keeps {K : Kept} (hm : K.stored = none) {s a1 a2} (h : keeps K s) :
    keeps K (State.lsRefuse s a1 a2) := by
  unfold State.lsRefuse
  repeat' first
    | with_reducible assumption
    | with_reducible apply State.sessFail_keeps hm
    | with_reducible apply State.emit_keeps

theorem State.sendHs_keeps {K : Kept} {s a1 a2 a3 a4 a5} (h : keeps K s) :
    keeps K (State.sendHs s a1 a2 a3 a4 a5) := by
  unfold State.sendHs
  repeat' first
    | with_reducible assumption
    | intro x
    | with_reducible apply State.send_keeps
    | with_reducible apply keeps_foldl
    | with_reducible apply keeps_foldl_fst
    | with_reducible apply keeps_foldl_snd

theorem State.sendJoin_keeps {K : Kept} {s a1 a2 a3} (h : keeps K s) :
    keeps K (State.sendJoin s a1 a2 a3) := by
  unfold State.sendJoin
  repeat' first
    | with_reducible assumption
    | with_reducible apply State.sendHs_keeps
    | split

theorem State.joinKey_keeps {K : Kept} {s a1 a2 a3} (h : keeps K s) :
    keeps K (State.joinKey s a1 a2 a3) := by
  unfold State.joinKey
  repeat' first
    | with_reducible assumption
    | (intro x; first | (refine keeps_cut K x ?_ ?_; rotate_left; intro hx; (try clear_value x); rotate_right; unfold x) | (refine keeps_cut K x.2 ?_ ?_; rotate_left; intro hx; (try clear_value x); rotate_right; unfold x) | clear_value x | skip)
    | lift_lets
    | with_reducible apply State.sendJoin_keeps
    | with_reducible apply State.setDevSet_keeps
    | with_reducible apply State.newKey_keeps
    | with_reducible apply State.setOct_keeps
    | with_reducible apply keeps_ite
    | split
    | dsimp only
    | (refine keeps_of_snd (by with_reducible assumption) ?_)
    | (refine keeps_of_fst (by with_reducible assumption) ?_)

theorem State.joinAck_keeps {K : Kept} {s a1 a2 a3} (h : keeps K s) :
    keeps K (State.joinAck s a1 a2 a3) := by
  unfold State.joinAck
  repeat' first
    | with_reducible assumption
    | (intro x; first | (refine keeps_cut K x ?_ ?_; rotate_left; intro hx; (try clear_value x); rotate_right; unfold x) | (refine keeps_cut K x.2 ?_ ?_; rotate_left; intro hx; (try clear_value x); rotate_right; unfold x) | clear_value x | skip)
    | lift_lets
    | with_reducible apply State.sendJoin_keeps
    | with_reducible apply State.formFail_keeps
    | with_reducible apply State.setDevSet_keeps
    | with_reducible apply State.freeBytes_keeps
    | with_reducible apply keeps_ite
    | split
    | dsimp only
    | (refine keeps_of_snd (by with_reducible assumption) ?_)
    | (refine keeps_of_fst (by with_reducible assumption) ?_)

theorem State.hsBroken_keeps {K : Kept} (hm : K.stored = none) {s a1 a2 a3} (h : keeps K s) :
    keeps K (State.hsBroken s a1 a2 a3) := by
  unfold State.hsBroken
  repeat' first
    | with_reducible assumption
    | with_reducible apply State.joinAck_keeps
    | with_reducible apply State.joinKey_keeps
    | with_reducible apply State.sendJoin_keeps
    | with_reducible apply State.lsRefuse_keeps hm
    | with_reducible apply State.joinDone_keeps
    | with_reducible apply keeps_ite
    | split

theorem State.deriveKeys_keeps {K : Kept} {s a1 a2} (h : keeps K s) :
    keeps K (State.deriveKeys s a1 a2) := by
  unfold State.deriveKeys
  repeat' first
    | with_reducible assumption
    | (intro x; first | (refine keeps_cut K x ?_ ?_; rotate_left; intro hx; (try clear_value x); rotate_right; unfold x) | (refine keeps_cut K x.2 ?_ ?_; rotate_left; intro hx; (try clear_value x); rotate_right; unfold x) | clear_value x | skip)
    | lift_lets
    | with_reducible apply State.newKey_keeps
    | with_reducible apply State.setSession_keeps
    | with_reducible apply State.freeBelow_keeps
    | with_reducible apply keeps_ite
    | split

theorem State.setPartner_keeps {K : Kept} {s a1 a2 a3 a4} (h : keeps K s) :
    keeps K (State.setPartner s a1 a2 a3 a4) := by
  unfold State.setPartner
  repeat' first
    | with_reducible assumption
    | with_reducible apply State.setOct_keeps

theorem State.lsReply_keeps {K : Kept} (hm : K.stored = none) {s a1 a2 a3} (h : keeps K s) :
    keeps K (State.lsReply s a1 a2 a3) := by
  unfold State.lsReply
  repeat' first
    | with_reducible assumption
    | (intro x; first | (refine keeps_cut K x ?_ ?_; rotate_left; intro hx; (try clear_value x); rotate_right; unfold x) | clear_value x | skip)
    | lift_lets
    | with_reducible apply State.setPartner_keeps
    | with_reducible apply State.deriveKeys_keeps
    | with_reducible apply State.sendHs_keeps
    | with_reducible apply State.lsRefuse_keeps hm
    | with_reducible apply State.setSession_keeps
    | with_reducible apply keeps_ite
    | split

theorem State.lsBegin_keeps {K : Kept} {s a1} (h : keeps K s) :
    keeps K (State.lsBegin s a1) := by
  unfold State.lsBegin
  repeat' first
    | with_reducible assumption
    | (intro x; first | (refine keeps_cut K x ?_ ?_; rotate_left; intro hx; (try clear_value x); rotate_right; unfold x) | (refine keeps_cut K x.2 ?_ ?_; rotate_left; intro hx; (try clear_value x); rotate_right; unfold x) | clear_value x | skip)
    | lift_lets
    | with_reducible apply State.sendHs_keeps
    | with_reducible apply State.setSession_keeps
    | with_reducible apply State.freeBytes_keeps
    | with_reducible apply State.setOv_keeps

theorem State.joinReq_keeps {K : Kept} {s a1 a2 a3} (h : keeps K s) :
    keeps K (State.joinReq s a1 a2 a3) := by
  unfold State.joinReq
  repeat' first
    | with_reducible assumption
    | (intro x; first | (refine keeps_cut K x ?_ ?_; rotate_left; intro hx; (try clear_value x); rotate_right; unfold x) | (refine keeps_cut K x.2 ?_ ?_; rotate_left; intro hx; (try clear_value x); rotate_right; unfold x) | clear_value x | skip)
    | lift_lets
    | with_reducible apply State.sendJoin_keeps
    | with_reducible apply State.setDevSet_keeps
    | with_reducible apply State.freeBytes_keeps
    | with_reducible apply keeps_ite
    | split
    | dsimp only
    | (refine keeps_of_snd (by with_reducible assumption) ?_)
    | (refine keeps_of_fst (by with_reducible assumption) ?_)

theorem State.joinSeg_keeps {K : Kept} {s a1 a2 a3 a4 a5 a6 a7} (h : keeps K s) :
    keeps K (State.joinSeg s a1 a2 a3 a4 a5 a6 a7).2 := by
  unfold State.joinSeg
  repeat' first
    | with_reducible assumption
    | (intro x; first | (refine keeps_cut K x ?_ ?_; rotate_left; intro hx; (try clear_value x); rotate_right; unfold x) | (refine keeps_cut K x.2 ?_ ?_; rotate_left; intro hx; (try clear_value x); rotate_right; unfold x) | clear_value x | skip)
    | lift_lets
    | with_reducible apply State.setSession_keeps
    | with_reducible apply keeps_ite
    | with_reducible apply keeps_ite_snd
    | split
    | dsimp only

theorem State.lsDone_keeps {K : Kept} (hm : K.stored = none) {s a1 a2 a3} (h : keeps K s) :
    keeps K (State.lsDone s a1 a2 a3) := by
  unfold State.lsDone
  repeat' first
    | with_reducible assumption
    | (intro x; first | (refine keeps_cut K x ?_ ?_; rotate_left; intro hx; (try clear_value x); rotate_right; unfold x) | clear_value x | skip)
    | lift_lets
    | with_reducible apply State.lsRefuse_keeps hm
    | with_reducible apply State.sessionUp_keeps
    | with_reducible apply keeps_ite
    | split

theorem State.lsAbort_keeps {K : Kept} (hm : K.stored = none) {s a1} (h : keeps K s) :
    keeps K (State.lsAbort s a1) := by
  unfold State.lsAbort
  repeat' first
    | with_reducible assumption
    | with_reducible apply State.sessFail_keeps hm
    | with_reducible apply keeps_ite
    | split

theorem State.lsFinish_keeps {K : Kept} (hm : K.stored = none) {s a1 a2 a3} (h : keeps K s) :
    keeps K (State.lsFinish s a1 a2 a3) := by
  unfold State.lsFinish
  repeat' first
    | with_reducible assumption
    | (intro x; first | (refine keeps_cut K x ?_ ?_; rotate_left; intro hx; (try clear_value x); rotate_right; unfold x) | clear_value x | skip)
    | lift_lets
    | with_reducible apply State.sendHs_keeps
    | with_reducible apply State.lsRefuse_keeps hm
    | with_reducible apply State.sessionUp_keeps
    | with_reducible apply keeps_ite
    | split

theorem State.lkAccept_keeps {K : Kept} (hm : K.stored = none) {s a1 a2} (h : keeps K s) :
    keeps K (State.lkAccept s a1 a2) := by
  unfold State.lkAccept
  repeat' first
    | with_reducible assumption
    | (intro x; first | (refine keeps_cut K x ?_ ?_; rotate_left; intro hx; (try clear_value x); rotate_right; unfold x) | clear_value x | skip)
    | lift_lets
    | with_reducible apply State.lsRefuse_keeps hm
    | with_reducible apply State.switchKeys_keeps
    | with_reducible apply keeps_ite
    | split

theorem State.lkOffer_keeps {K : Kept} (hm : K.stored = none) {s a1 a2} (h : keeps K s) :
    keeps K (State.lkOffer s a1 a2) := by
  unfold State.lkOffer
  repeat' first
    | with_reducible assumption
    | (intro x; first | (refine keeps_cut K x ?_ ?_; rotate_left; intro hx; (try clear_value x); rotate_right; unfold x) | (refine keeps_cut K x.2 ?_ ?_; rotate_left; intro hx; (try clear_value x); rotate_right; unfold x) | clear_value x | skip)
    | lift_lets
    | with_reducible apply State.sendHs_keeps
    | with_reducible apply State.lsRefuse_keeps hm
    | with_reducible apply State.switchKeys_keeps
    | with_reducible apply State.freeBytes_keeps
    | with_reducible apply keeps_ite
    | split

theorem State.lsHello_keeps {K : Kept} (hm : K.stored = none) {s a1 a2 a3} (h : keeps K s) :
    keeps K (State.lsHello s a1 a2 a3) := by
  unfold State.lsHello
  repeat' first
    | with_reducible assumption
    | (intro x; first | (refine keeps_cut K x ?_ ?_; rotate_left; intro hx; (try clear_value x); rotate_right; unfold x) | (refine keeps_cut K x.2 ?_ ?_; rotate_left; intro hx; (try clear_value x); rotate_right; unfold x) | clear_value x | skip)
    | lift_lets
    | with_reducible apply State.setPartner_keeps
    | with_reducible apply State.deriveKeys_keeps
    | with_reducible apply State.sendHs_keeps
    | with_reducible apply State.lsRefuse_keeps hm
    | with_reducible apply State.setSession_keeps
    | with_reducible apply State.freeBytes_keeps
    | with_reducible apply State.setOv_keeps
    | with_reducible apply keeps_ite
    | split

theorem State.hsMessage_keeps {K : Kept} (hm : K.stored = none) {s a1 a2 a3 a4 a5} (h : keeps K s) :
    keeps K (State.hsMessage s a1 a2 a3 a4 a5) := by
  unfold State.hsMessage
  repeat' first
    | with_reducible assumption
    | with_reducible apply State.lsHello_keeps hm
    | with_reducible apply State.lkOffer_keeps hm
    | with_reducible apply State.lkAccept_keeps hm
    | with_reducible apply State.lsFinish_keeps hm
    | with_reducible apply State.lsAbort_keeps hm
    | with_reducible apply State.lsDone_keeps hm
    | with_reducible apply State.joinReq_keeps
    | with_reducible apply State.lsReply_keeps hm
    | with_reducible apply State.joinAck_keeps
    | with_reducible apply State.joinKey_keeps
    | with_reducible apply State.joinDone_keeps
    | split

theorem State.segArrive_keeps {K : Kept} (hm : K.stored = none) {s a1 a2 a3 a4} (h : keeps K s) :
    keeps K (State.segArrive s a1 a2 a3 a4) := by
  unfold State.segArrive
  repeat' first
    | with_reducible assumption
    | (intro x; first | (refine keeps_cut K x ?_ ?_; rotate_left; intro hx; (try clear_value x); rotate_right; unfold x) | (refine keeps_cut K x.2 ?_ ?_; rotate_left; intro hx; (try clear_value x); rotate_right; unfold x) | clear_value x | skip)
    | lift_lets
    | with_reducible apply State.hsMessage_keeps hm
    | with_reducible apply State.joinSeg_keeps
    | with_reducible apply State.hsBroken_keeps hm
    | with_reducible apply State.bump_keeps
    | with_reducible apply keeps_ite
    | split
    | dsimp only
    | (refine keeps_of_snd (by with_reducible assumption) ?_)
    | (refine keeps_of_fst (by with_reducible assumption) ?_)

theorem State.oldKeyExpire_keeps {K : Kept} {s a1} (h : keeps K s) :
    keeps K (State.oldKeyExpire s a1) := by
  unfold State.oldKeyExpire
  repeat' first
    | with_reducible assumption
    | (intro x; first | (refine keeps_cut K x ?_ ?_; rotate_left; intro hx; (try clear_value x); rotate_right; unfold x) | clear_value x | skip)
    | lift_lets
    | with_reducible apply State.setSession_keeps

theorem State.laneCountLimit_keeps {K : Kept} (hm : K.stored = none) {s a1} (h : keeps K s) :
    keeps K (State.laneCountLimit s a1) := by
  unfold State.laneCountLimit
  repeat' first
    | with_reducible assumption
    | (intro x; first | (refine keeps_cut K x ?_ ?_; rotate_left; intro hx; (try clear_value x); rotate_right; unfold x) | clear_value x | skip)
    | lift_lets
    | with_reducible apply State.linkDown_keeps hm
    | with_reducible apply keeps_ite
    | split

theorem State.joinTimeout_keeps {K : Kept} {s a1} (h : keeps K s) :
    keeps K (State.joinTimeout s a1) := by
  unfold State.joinTimeout
  repeat' first
    | with_reducible assumption
    | with_reducible apply State.formFail_keeps
    | split

theorem State.setDestroy_keeps {K : Kept} {s a1} (h : keeps K s) :
    keeps K (State.setDestroy s a1) := by
  unfold State.setDestroy
  repeat' first
    | with_reducible assumption
    | with_reducible apply State.setDevSet_keeps
    | with_reducible apply State.setOct_keeps
    | with_reducible apply State.setOv_keeps
    | with_reducible apply keeps_ite
    | split

theorem State.setForm_keeps {K : Kept} {s a1} (h : keeps K s) :
    keeps K (State.setForm s a1) := by
  unfold State.setForm
  repeat' first
    | with_reducible assumption
    | (intro x; first | (refine keeps_cut K x ?_ ?_; rotate_left; intro hx; (try clear_value x); rotate_right; unfold x) | (refine keeps_cut K x.2 ?_ ?_; rotate_left; intro hx; (try clear_value x); rotate_right; unfold x) | clear_value x | skip)
    | lift_lets
    | with_reducible apply State.sendJoin_keeps
    | with_reducible apply State.formFail_keeps
    | with_reducible apply State.formDone_keeps
    | with_reducible apply State.setDevSet_keeps
    | with_reducible apply State.newKey_keeps
    | with_reducible apply State.setOct_keeps
    | with_reducible apply State.freeBytes_keeps
    | with_reducible apply State.setOv_keeps
    | with_reducible apply keeps_ite
    | with_reducible apply keeps_foldl
    | with_reducible apply keeps_foldl_fst
    | with_reducible apply keeps_foldl_snd
    | split

theorem State.rekeyDue_keeps {K : Kept} {s a1} (h : keeps K s) :
    keeps K (State.rekeyDue s a1) := by
  unfold State.rekeyDue
  repeat' first
    | with_reducible assumption
    | (intro x; first | (refine keeps_cut K x ?_ ?_; rotate_left; intro hx; (try clear_value x); rotate_right; unfold x) | (refine keeps_cut K x.2 ?_ ?_; rotate_left; intro hx; (try clear_value x); rotate_right; unfold x) | clear_value x | skip)
    | lift_lets
    | with_reducible apply State.sendHs_keeps
    | with_reducible apply State.setSession_keeps
    | with_reducible apply State.freeBytes_keeps
    | with_reducible apply State.setOv_keeps
    | with_reducible apply keeps_ite
    | split

theorem State.heartbeat_keeps {K : Kept} {s a1} (h : keeps K s) :
    keeps K (State.heartbeat s a1) := by
  unfold State.heartbeat
  repeat' first
    | with_reducible assumption
    | (intro x; first | (refine keeps_cut K x ?_ ?_; rotate_left; intro hx; (try clear_value x); rotate_right; unfold x) | clear_value x | skip)
    | lift_lets
    | with_reducible apply keeps_ite
    | split
    | simp only [keeps_upd_eq]

theorem State.mgmtDown_keeps {K : Kept} {s a1} (h : keeps K s) :
    keeps K (State.mgmtDown s a1) := by
  unfold State.mgmtDown
  repeat' first
    | with_reducible assumption
    | (intro x; first | (refine keeps_cut K x ?_ ?_; rotate_left; intro hx; (try clear_value x); rotate_right; unfold x) | clear_value x | skip)
    | lift_lets
    | with_reducible apply State.event_keeps
    | with_reducible apply keeps_ite
    | split
    | simp only [keeps_upd_eq]

theorem State.flushSlice_keeps {K : Kept} (hm : K.stored = none) {s a1} (h : keeps K s) :
    keeps K (State.flushSlice s a1) := by
  unfold State.flushSlice
  repeat' first
    | with_reducible assumption
    | (intro x; first | (refine keeps_cut K x ?_ ?_; rotate_left; intro hx; (try clear_value x); rotate_right; unfold x) | clear_value x | skip)
    | lift_lets
    | with_reducible apply State.flushLines_keeps hm

theorem State.refuseHeld_keeps {K : Kept} {s a1} (h : keeps K s) :
    keeps K (State.refuseHeld s a1) := by
  unfold State.refuseHeld
  repeat' first
    | with_reducible assumption
    | (intro x; first | (refine keeps_cut K x ?_ ?_; rotate_left; intro hx; (try clear_value x); rotate_right; unfold x) | clear_value x | skip)
    | lift_lets
    | with_reducible apply State.finish_keeps
    | with_reducible apply keeps_foldl
    | with_reducible apply keeps_foldl_fst
    | with_reducible apply keeps_foldl_snd

theorem State.leaveEmpty_keeps {K : Kept} (hm : K.stored = none) {s a1} (h : keeps K s) :
    keeps K (State.leaveEmpty s a1) := by
  unfold State.leaveEmpty
  repeat' first
    | with_reducible assumption
    | (intro x; first | (refine keeps_cut K x ?_ ?_; rotate_left; intro hx; (try clear_value x); rotate_right; unfold x) | clear_value x | skip)
    | lift_lets
    | with_reducible apply State.refuseHeld_keeps
    | with_reducible apply State.flushSlice_keeps hm
    | with_reducible apply State.setPhys_keeps
    | with_reducible apply State.event_keeps
    | with_reducible apply State.setSlc_keeps

theorem State.goDark_keeps {K : Kept} {s a1 a2 a3} (h : keeps K s) :
    keeps K (State.goDark s a1 a2 a3) := by
  unfold State.goDark
  repeat' first
    | with_reducible assumption
    | (intro x; first | (refine keeps_cut K x ?_ ?_; rotate_left; intro hx; (try clear_value x); rotate_right; unfold x) | clear_value x | skip)
    | lift_lets
    | with_reducible apply State.setUnit_keeps
    | with_reducible apply State.event_keeps
    | with_reducible apply State.bump_keeps

theorem State.orphan_keeps {K : Kept} {s a1} (h : keeps K s) :
    keeps K (State.orphan s a1) := by
  unfold State.orphan
  repeat' first
    | with_reducible assumption
    | (intro x; first | (refine keeps_cut K x ?_ ?_; rotate_left; intro hx; (try clear_value x); rotate_right; unfold x) | clear_value x | skip)
    | lift_lets
    | with_reducible apply State.refuseHeld_keeps
    | with_reducible apply State.setSlc_keeps
    | with_reducible apply keeps_ite
    | split

theorem State.dropRole_keeps {K : Kept} (hm : K.stored = none) {s a1 a2 a3 a4} (h : keeps K s) :
    keeps K (State.dropRole s a1 a2 a3 a4) := by
  unfold State.dropRole
  repeat' first
    | with_reducible assumption
    | with_reducible apply State.orphan_keeps
    | with_reducible apply State.sliceLost_keeps
    | with_reducible apply State.engineFailed_keeps
    | with_reducible apply State.tileFailed_keeps hm
    | with_reducible apply State.giveSpare_keeps
    | split

theorem State.unitFence_keeps {K : Kept} (hm : K.stored = none) {s a1 a2 a3 a4} (h : keeps K s) :
    keeps K (State.unitFence s a1 a2 a3 a4) := by
  unfold State.unitFence
  repeat' first
    | with_reducible assumption
    | (intro x; first | (refine keeps_cut K x ?_ ?_; rotate_left; intro hx; (try clear_value x); rotate_right; unfold x) | clear_value x | skip)
    | lift_lets
    | with_reducible apply State.dropRole_keeps hm
    | with_reducible apply State.goDark_keeps
    | with_reducible apply State.wake_keeps
    | with_reducible apply keeps_ite
    | split
    | dsimp only

theorem State.endHold_keeps {K : Kept} (hm : K.stored = none) {s a1} (h : keeps K s) :
    keeps K (State.endHold s a1) := by
  unfold State.endHold
  repeat' first
    | with_reducible assumption
    | (intro x; first | (refine keeps_cut K x ?_ ?_; rotate_left; intro hx; (try clear_value x); rotate_right; unfold x) | clear_value x | skip)
    | lift_lets
    | with_reducible apply State.reissue_keeps hm
    | with_reducible apply State.setSlc_keeps

theorem State.passRole_keeps {K : Kept} (hm : K.stored = none) {s a1 a2 a3} (h : keeps K s) :
    keeps K (State.passRole s a1 a2 a3) := by
  unfold State.passRole
  repeat' first
    | with_reducible assumption
    | with_reducible apply State.endHold_keeps hm
    | with_reducible apply State.flushSlice_keeps hm
    | with_reducible apply State.takeRole_keeps
    | split
    | simp only [keeps_upd_eq]

theorem State.unitResult_keeps {K : Kept} {s a1} (h : keeps K s) :
    keeps K (State.unitResult s a1) := by
  unfold State.unitResult
  repeat' first
    | with_reducible assumption
    | with_reducible apply State.setOv_keeps

theorem State.quiesceDone_keeps {K : Kept} (hm : K.stored = none) {s a1 a2 a3} (h : keeps K s) :
    keeps K (State.quiesceDone s a1 a2 a3) := by
  unfold State.quiesceDone
  repeat' first
    | with_reducible assumption
    | (intro x; first | (refine keeps_cut K x ?_ ?_; rotate_left; intro hx; (try clear_value x); rotate_right; unfold x) | clear_value x | skip)
    | lift_lets
    | with_reducible apply State.unitResult_keeps
    | with_reducible apply State.passRole_keeps hm
    | with_reducible apply State.unitFence_keeps hm
    | with_reducible apply State.goDark_keeps
    | with_reducible apply State.leaveEmpty_keeps hm
    | with_reducible apply State.giveSpare_keeps
    | with_reducible apply keeps_ite
    | split
    | dsimp only

theorem State.setKeeper_keeps {K : Kept} {s a1 a2} (h : keeps K s) :
    keeps K (State.setKeeper s a1 a2) := by
  unfold State.setKeeper
  repeat' first
    | with_reducible assumption
    | with_reducible apply State.setOv_keeps
    | with_reducible apply keeps_ite
    | split

theorem State.keeperPass_keeps {K : Kept} {s a1} (h : keeps K s) :
    keeps K (State.keeperPass s a1) := by
  unfold State.keeperPass
  repeat' first
    | with_reducible assumption
    | (intro x; first | (refine keeps_cut K x ?_ ?_; rotate_left; intro hx; (try clear_value x); rotate_right; unfold x) | clear_value x | skip)
    | lift_lets
    | with_reducible apply State.setKeeper_keeps
    | with_reducible apply State.event_keeps
    | with_reducible apply State.bump_keeps
    | with_reducible apply State.setOv_keeps

theorem State.idleBox_keeps {K : Kept} {s a1} (h : keeps K s) :
    keeps K (State.idleBox s a1) := by
  unfold State.idleBox
  repeat' first
    | with_reducible assumption
    | (intro x; first | (refine keeps_cut K x ?_ ?_; rotate_left; intro hx; (try clear_value x); rotate_right; unfold x) | clear_value x | skip)
    | lift_lets
    | simp only [keeps_upd_eq]

theorem State.keeperRepair_keeps {K : Kept} {s} (h : keeps K s) :
    keeps K (State.keeperRepair s).2 := by
  unfold State.keeperRepair
  repeat' first
    | with_reducible assumption
    | with_reducible apply State.setKeeper_keeps
    | with_reducible apply keeps_ite
    | with_reducible apply keeps_ite_snd
    | split
    | dsimp only

theorem State.beginQuiesce_keeps {K : Kept} {s a1 a2 a3 a4} (h : keeps K s) :
    keeps K (State.beginQuiesce s a1 a2 a3 a4) := by
  unfold State.beginQuiesce
  repeat' first
    | with_reducible assumption
    | (intro x; first | (refine keeps_cut K x ?_ ?_; rotate_left; intro hx; (try clear_value x); rotate_right; unfold x) | clear_value x | skip)
    | lift_lets
    | with_reducible apply State.setUnit_keeps
    | with_reducible apply State.setSlc_keeps
    | split
    | dsimp only

theorem State.beginEmptying_keeps {K : Kept} (hm : K.stored = none) {s a1} (h : keeps K s) :
    keeps K (State.beginEmptying s a1) := by
  unfold State.beginEmptying
  repeat' first
    | with_reducible assumption
    | (intro x; first | (refine keeps_cut K x ?_ ?_; rotate_left; intro hx; (try clear_value x); rotate_right; unfold x) | clear_value x | skip)
    | lift_lets
    | with_reducible apply State.recallLine_keeps hm
    | with_reducible apply State.setSlc_keeps
    | with_reducible apply keeps_foldl
    | with_reducible apply keeps_foldl_fst
    | with_reducible apply keeps_foldl_snd

theorem State.cmdFence_keeps {K : Kept} (hm : K.stored = none) {s a1 a2} (h : keeps K s) :
    keeps K (State.cmdFence s a1 a2) := by
  unfold State.cmdFence
  repeat' first
    | with_reducible assumption
    | (intro x; first | (refine keeps_cut K x ?_ ?_; rotate_left; intro hx; (try clear_value x); rotate_right; unfold x) | clear_value x | skip)
    | lift_lets
    | with_reducible apply State.beginEmptying_keeps hm
    | with_reducible apply State.beginQuiesce_keeps
    | with_reducible apply State.unitResult_keeps
    | with_reducible apply State.goDark_keeps
    | with_reducible apply keeps_ite
    | split
    | dsimp only

theorem State.adopt_keeps {K : Kept} (hm : K.stored = none) {s a1 a2} (h : keeps K s) :
    keeps K (State.adopt s a1 a2) := by
  unfold State.adopt
  repeat' first
    | with_reducible assumption
    | (intro x; first | (refine keeps_cut K x ?_ ?_; rotate_left; intro hx; (try clear_value x); rotate_right; unfold x) | clear_value x | skip)
    | lift_lets
    | with_reducible apply State.reissue_keeps hm
    | with_reducible apply State.takeRole_keeps
    | with_reducible apply State.setSlc_keeps
    | with_reducible apply keeps_ite
    | split
    | dsimp only

theorem State.unitTested_keeps {K : Kept} (hm : K.stored = none) {s a1 a2 a3} (h : keeps K s) :
    keeps K (State.unitTested s a1 a2 a3) := by
  unfold State.unitTested
  repeat' first
    | with_reducible assumption
    | (intro x; first | (refine keeps_cut K x ?_ ?_; rotate_left; intro hx; (try clear_value x); rotate_right; unfold x) | clear_value x | skip)
    | lift_lets
    | with_reducible apply State.adopt_keeps hm
    | with_reducible apply State.setUnit_keeps
    | with_reducible apply State.event_keeps
    | with_reducible apply keeps_ite
    | split

theorem State.selftestDone_keeps {K : Kept} (hm : K.stored = none) {s a1 a2 a3} (h : keeps K s) :
    keeps K (State.selftestDone s a1 a2 a3) := by
  unfold State.selftestDone
  repeat' first
    | with_reducible assumption
    | with_reducible apply State.unitTested_keeps hm
    | with_reducible apply State.setKeeper_keeps
    | with_reducible apply State.setUnitSt_keeps
    | with_reducible apply State.event_keeps
    | with_reducible apply keeps_ite
    | split

theorem State.routerFence_keeps {K : Kept} (hm : K.stored = none) {s a1 a2 a3} (h : keeps K s) :
    keeps K (State.routerFence s a1 a2 a3) := by
  unfold State.routerFence
  repeat' first
    | with_reducible assumption
    | with_reducible apply State.unitFence_keeps hm
    | with_reducible apply State.portDark_keeps hm
    | with_reducible apply State.pairDark_keeps
    | with_reducible apply State.fenceHbm_keeps
    | with_reducible apply keeps_ite
    | split

theorem State.routerFailed_keeps {K : Kept} (hm : K.stored = none) {s a1 a2 a3 a4} (h : keeps K s) :
    keeps K (State.routerFailed s a1 a2 a3 a4) := by
  unfold State.routerFailed
  repeat' first
    | with_reducible assumption
    | (intro x; first | (refine keeps_cut K x ?_ ?_; rotate_left; intro hx; (try clear_value x); rotate_right; unfold x) | clear_value x | skip)
    | lift_lets
    | with_reducible apply State.routerFence_keeps hm
    | with_reducible apply keeps_ite
    | split
    | simp only [keeps_upd_eq]
    | dsimp only

theorem State.cmdSwap_keeps {K : Kept} {s a1 a2 a3} (h : keeps K s) :
    keeps K (State.cmdSwap s a1 a2 a3) := by
  unfold State.cmdSwap
  repeat' first
    | with_reducible assumption
    | (intro x; first | (refine keeps_cut K x ?_ ?_; rotate_left; intro hx; (try clear_value x); rotate_right; unfold x) | clear_value x | skip)
    | lift_lets
    | with_reducible apply State.beginQuiesce_keeps
    | with_reducible apply State.unitResult_keeps
    | with_reducible apply keeps_ite
    | split
    | dsimp only

theorem State.moveOwners_keeps {K : Kept} {s a1 a2} (h : keeps K s) :
    keeps K (State.moveOwners s a1 a2) := by
  induction a2 generalizing s a1 with
  | nil =>
    first | rw [State.moveOwners] | unfold State.moveOwners
    repeat' first
      | with_reducible assumption
      | with_reducible apply State.setOv_keeps
      | with_reducible apply keeps_ite
      | split
  | cons y t ih =>
    first | rw [State.moveOwners] | unfold State.moveOwners
    repeat' first
      | with_reducible assumption
      | with_reducible apply ih
      | with_reducible apply State.setOv_keeps
      | with_reducible apply keeps_ite
      | split

theorem State.fwResult_keeps {K : Kept} {s a1} (h : keeps K s) :
    keeps K (State.fwResult s a1) := by
  unfold State.fwResult
  repeat' first
    | with_reducible assumption
    | with_reducible apply State.setOv_keeps

theorem State.setFlash_keeps {K : Kept} {s a1 a2} (h : keeps K s) :
    keeps K (State.setFlash s a1 a2) := by
  unfold State.setFlash
  repeat' first
    | with_reducible assumption
    | (intro x; first | (refine keeps_cut K x ?_ ?_; rotate_left; intro hx; (try clear_value x); rotate_right; unfold x) | clear_value x | skip)
    | lift_lets
    | simp only [keeps_upd_eq]

theorem State.fwErase_keeps {K : Kept} {s} (h : keeps K s) :
    keeps K (State.fwErase s) := by
  unfold State.fwErase
  repeat' first
    | with_reducible assumption
    | with_reducible apply State.setFlash_keeps
    | with_reducible apply State.fwResult_keeps
    | with_reducible apply keeps_ite
    | split

theorem State.pcieDown_keeps {K : Kept} {s a1} (h : keeps K s) :
    keeps K (State.pcieDown s a1) := by
  unfold State.pcieDown
  repeat' first
    | with_reducible assumption
    | with_reducible apply State.idleBox_keeps
    | with_reducible apply State.setIde_keeps
    | with_reducible apply State.muteWaits_keeps
    | with_reducible apply State.setOv_keeps

theorem State.pcieLost_keeps {K : Kept} {s a1} (h : keeps K s) :
    keeps K (State.pcieLost s a1) := by
  unfold State.pcieLost
  repeat' first
    | with_reducible assumption
    | (intro x; first | (refine keeps_cut K x ?_ ?_; rotate_left; intro hx; (try clear_value x); rotate_right; unfold x) | clear_value x | skip)
    | lift_lets
    | with_reducible apply State.pcieDown_keeps
    | with_reducible apply State.moveOwners_keeps
    | with_reducible apply State.event_keeps
    | with_reducible apply State.bump_keeps
    | with_reducible apply keeps_ite
    | split
    | simp only [keeps_upd_eq]

theorem State.fwVerify_keeps {K : Kept} {s a1} (h : keeps K s) :
    keeps K (State.fwVerify s a1) := by
  unfold State.fwVerify
  repeat' first
    | with_reducible assumption
    | (intro x; first | (refine keeps_cut K x ?_ ?_; rotate_left; intro hx; (try clear_value x); rotate_right; unfold x) | clear_value x | skip)
    | lift_lets
    | with_reducible apply State.setFlash_keeps
    | with_reducible apply State.fwResult_keeps
    | with_reducible apply State.setOv_keeps
    | with_reducible apply keeps_ite
    | split

theorem State.romSilent_keeps {K : Kept} {s a1} (h : keeps K s) :
    keeps K (State.romSilent s a1) := by
  unfold State.romSilent
  repeat' first
    | with_reducible assumption
    | (intro x; first | (refine keeps_cut K x ?_ ?_; rotate_left; intro hx; (try clear_value x); rotate_right; unfold x) | clear_value x | skip)
    | lift_lets
    | with_reducible apply State.setKeeper_keeps
    | with_reducible apply keeps_ite
    | split
    | simp only [keeps_upd_eq]

theorem State.swapDone_keeps {K : Kept} (hm : K.stored = none) {s a1 a2} (h : keeps K s) :
    keeps K (State.swapDone s a1 a2) := by
  unfold State.swapDone
  repeat' first
    | with_reducible assumption
    | (intro x; first | (refine keeps_cut K x ?_ ?_; rotate_left; intro hx; (try clear_value x); rotate_right; unfold x) | clear_value x | skip)
    | lift_lets
    | with_reducible apply State.unitResult_keeps
    | with_reducible apply State.passRole_keeps hm
    | with_reducible apply State.endHold_keeps hm
    | with_reducible apply State.setUnit_keeps
    | with_reducible apply keeps_ite
    | split
    | dsimp only

theorem State.cmdRepair_keeps {K : Kept} {s a1 a2} (h : keeps K s) :
    keeps K (State.cmdRepair s a1 a2) := by
  unfold State.cmdRepair
  repeat' first
    | with_reducible assumption
    | (intro x; first | (refine keeps_cut K x ?_ ?_; rotate_left; intro hx; (try clear_value x); rotate_right; unfold x) | clear_value x | skip)
    | lift_lets
    | with_reducible apply State.unitResult_keeps
    | with_reducible apply State.setUnit_keeps
    | with_reducible apply keeps_ite
    | split

theorem State.criticalError_keeps {K : Kept} (hm : K.stored = none) {s a1 a2 a3} (h : keeps K s) :
    keeps K (State.criticalError s a1 a2 a3) := by
  unfold State.criticalError
  repeat' first
    | with_reducible assumption
    | with_reducible apply State.unitFence_keeps hm
    | with_reducible apply keeps_ite
    | split

theorem State.fwBlock_keeps {K : Kept} {s a1} (h : keeps K s) :
    keeps K (State.fwBlock s a1).2 := by
  unfold State.fwBlock
  repeat' first
    | with_reducible assumption
    | (intro x; first | (refine keeps_cut K x ?_ ?_; rotate_left; intro hx; (try clear_value x); rotate_right; unfold x) | (refine keeps_cut K x.2 ?_ ?_; rotate_left; intro hx; (try clear_value x); rotate_right; unfold x) | clear_value x | skip)
    | lift_lets
    | with_reducible apply State.setFlash_keeps
    | with_reducible apply State.fwResult_keeps
    | with_reducible apply keeps_ite
    | with_reducible apply keeps_ite_snd
    | split
    | dsimp only

theorem State.fwActivate_keeps {K : Kept} {s} (h : keeps K s) :
    keeps K (State.fwActivate s).2 := by
  unfold State.fwActivate
  repeat' first
    | with_reducible assumption
    | (intro x; first | (refine keeps_cut K x ?_ ?_; rotate_left; intro hx; (try clear_value x); rotate_right; unfold x) | (refine keeps_cut K x.2 ?_ ?_; rotate_left; intro hx; (try clear_value x); rotate_right; unfold x) | clear_value x | skip)
    | lift_lets
    | with_reducible apply State.fwResult_keeps
    | with_reducible apply State.setOct_keeps
    | with_reducible apply State.event_keeps
    | with_reducible apply State.setOv_keeps
    | with_reducible apply keeps_ite
    | with_reducible apply keeps_ite_snd
    | split
    | dsimp only

theorem State.keeperFail_keeps {K : Kept} {s} (h : keeps K s) :
    keeps K (State.keeperFail s) := by
  unfold State.keeperFail
  repeat' first
    | with_reducible assumption
    | (intro x; first | (refine keeps_cut K x ?_ ?_; rotate_left; intro hx; (try clear_value x); rotate_right; unfold x) | clear_value x | skip)
    | lift_lets
    | with_reducible apply State.keeperPass_keeps
    | with_reducible apply State.setKeeper_keeps
    | with_reducible apply keeps_ite
    | split

theorem State.logAck_keeps {K : Kept} {s a1} (h : keeps K s) :
    keeps K (State.logAck s a1) := by
  unfold State.logAck
  repeat' first
    | with_reducible assumption
    | (intro x; first | (refine keeps_cut K x ?_ ?_; rotate_left; intro hx; (try clear_value x); rotate_right; unfold x) | clear_value x | skip)
    | lift_lets
    | with_reducible apply State.setOv_keeps
    | with_reducible apply keeps_ite
    | split
    | simp only [keeps_upd_eq]

theorem State.ackMissed_keeps {K : Kept} (hm : K.stored = none) {s a1 a2} (h : keeps K s) :
    keeps K (State.ackMissed s a1 a2) := by
  unfold State.ackMissed
  repeat' first
    | with_reducible assumption
    | (intro x; first | (refine keeps_cut K x ?_ ?_; rotate_left; intro hx; (try clear_value x); rotate_right; unfold x) | clear_value x | skip)
    | lift_lets
    | with_reducible apply State.unitFence_keeps hm
    | with_reducible apply State.shootdownAck_keeps
    | with_reducible apply keeps_ite
    | split

theorem State.functionReset_keeps {K : Kept} {s a1 a2} (h : keeps K s) :
    keeps K (State.functionReset s a1 a2) := by
  unfold State.functionReset
  repeat' first
    | with_reducible assumption
    | with_reducible apply State.idleBox_keeps
    | with_reducible apply State.muteWaits_keeps
    | with_reducible apply State.vfFlr_keeps
    | with_reducible apply State.bump_keeps
    | with_reducible apply keeps_ite
    | split

theorem State.routeDrained_keeps {K : Kept} (hm : K.stored = none) {s a1 a2} (h : keeps K s) :
    keeps K (State.routeDrained s a1 a2) := by
  unfold State.routeDrained
  repeat' first
    | with_reducible assumption
    | (intro x; first | (refine keeps_cut K x ?_ ?_; rotate_left; intro hx; (try clear_value x); rotate_right; unfold x) | clear_value x | skip)
    | lift_lets
    | with_reducible apply State.sendHeld_keeps hm
    | with_reducible apply keeps_ite
    | split
    | simp only [keeps_upd_eq]

theorem State.keeperSwap_keeps {K : Kept} {s} (h : keeps K s) :
    keeps K (State.keeperSwap s).2 := by
  unfold State.keeperSwap
  repeat' first
    | with_reducible assumption
    | (intro x; first | (refine keeps_cut K x ?_ ?_; rotate_left; intro hx; (try clear_value x); rotate_right; unfold x) | (refine keeps_cut K x.2 ?_ ?_; rotate_left; intro hx; (try clear_value x); rotate_right; unfold x) | clear_value x | skip)
    | lift_lets
    | with_reducible apply State.keeperPass_keeps
    | with_reducible apply keeps_ite
    | with_reducible apply keeps_ite_snd
    | split
    | dsimp only

end Sys2Proof.Machine
end

