-- ==== Sys2Proof/Laws/KeepsBoard.lean ====
section
/-! SUPPORT. Sys2Proof/Laws/KeepsBoard.lean: what the operations of Reset, Dictionary, Link, Power, Commands, LightList, Delivery keep. -/

namespace Sys2Proof.Machine

open Sys2Proof

theorem State.powerDimms_keeps {K : Kept} {s} (h : keeps K s) :
    keeps K (State.powerDimms s) := by
  unfold State.powerDimms
  repeat' first
    | with_reducible assumption
    | intro x
    | with_reducible apply State.setOv_keeps
    | with_reducible apply keeps_foldl
    | with_reducible apply keeps_foldl_fst
    | with_reducible apply keeps_foldl_snd

theorem State.dramRise_keeps {K : Kept} {s} (h : keeps K s) :
    keeps K (State.dramRise s) := by
  unfold State.dramRise
  repeat' first
    | with_reducible assumption
    | (intro x; first | (refine keeps_cut K x ?_ ?_; rotate_left; intro hx; (try clear_value x); rotate_right; unfold x) | clear_value x | skip)
    | lift_lets
    | with_reducible apply State.powerDimms_keeps
    | with_reducible apply keeps_ite
    | split
    | simp only [keeps_upd_eq]

theorem State.dramFall_keeps {K : Kept} {s} (h : keeps K s) :
    keeps K (State.dramFall s) := by
  unfold State.dramFall
  repeat' first
    | with_reducible assumption
    | (intro x; first | (refine keeps_cut K x ?_ ?_; rotate_left; intro hx; (try clear_value x); rotate_right; unfold x) | clear_value x | skip)
    | lift_lets
    | with_reducible apply keeps_ite
    | split
    | simp only [keeps_upd_eq]

theorem State.keepFlash_keeps {K : Kept} {s b : State} {r : Nat} (h : keeps K s) (h1 : keeps K b) :
    keeps K (State.keepFlash s b r) :=
  keeps_upd (keeps_objs_of h1 _ _ (fun e =>
    ⟨risingFrom_filter (h.2.2.2.2.1 e).2.1.1 _, risingFrom_filter (h.2.2.2.2.1 e).2.1.2 _⟩))

theorem State.bootPart_keeps {K : Kept} {s a1 a2} (h : keeps K s) :
    keeps K (State.bootPart s a1 a2).2 := by
  unfold State.bootPart
  repeat' first
    | with_reducible assumption
    | (intro x; first | (refine keeps_cut K x ?_ ?_; rotate_left; intro hx; (try clear_value x); rotate_right; unfold x) | (refine keeps_cut K x.2 ?_ ?_; rotate_left; intro hx; (try clear_value x); rotate_right; unfold x) | clear_value x | skip)
    | lift_lets
    | with_reducible apply State.event_keeps
    | with_reducible apply State.bump_keeps
    | with_reducible apply keeps_ite
    | with_reducible apply keeps_ite_snd
    | split
    | dsimp only

theorem State.pickKeeper_keeps {K : Kept} {s} (h : keeps K s) :
    keeps K (State.pickKeeper s) := by
  unfold State.pickKeeper
  repeat' first
    | with_reducible assumption
    | (intro x; first | (refine keeps_cut K x ?_ ?_; rotate_left; intro hx; (try clear_value x); rotate_right; unfold x) | clear_value x | skip)
    | lift_lets
    | with_reducible apply State.setKeeper_keeps
    | with_reducible apply State.setOv_keeps
    | with_reducible apply keeps_ite
    | split

theorem State.toRecovery_keeps {K : Kept} {s} (h : keeps K s) :
    keeps K (State.toRecovery s) := by
  unfold State.toRecovery
  repeat' first
    | with_reducible assumption
    | (intro x; first | (refine keeps_cut K x ?_ ?_; rotate_left; intro hx; (try clear_value x); rotate_right; unfold x) | clear_value x | skip)
    | lift_lets
    | with_reducible apply State.setOv_keeps
    | with_reducible apply keeps_ite
    | split
    | simp only [keeps_upd_eq]

theorem State.serveAgain_keeps {K : Kept} {s} (h : keeps K s) :
    keeps K (State.serveAgain s) := by
  unfold State.serveAgain
  repeat' first
    | with_reducible assumption
    | (intro x; first | (refine keeps_cut K x ?_ ?_; rotate_left; intro hx; (try clear_value x); rotate_right; unfold x) | clear_value x | skip)
    | lift_lets
    | simp only [keeps_upd_eq]

theorem State.runImage_keeps {K : Kept} {s a1} (h : keeps K s) :
    keeps K (State.runImage s a1) := by
  unfold State.runImage
  repeat' first
    | with_reducible assumption
    | (intro x; first | (refine keeps_cut K x ?_ ?_; rotate_left; intro hx; (try clear_value x); rotate_right; unfold x) | clear_value x | skip)
    | lift_lets
    | with_reducible apply State.setOct_keeps
    | with_reducible apply State.setOv_keeps
    | simp only [keeps_upd_eq]

theorem State.warmBoot_keeps {K : Kept} {s a1} (h : keeps K s) :
    keeps K (State.warmBoot s a1) := by
  unfold State.warmBoot
  repeat' first
    | with_reducible assumption
    | with_reducible apply State.runImage_keeps
    | with_reducible apply State.serveAgain_keeps
    | with_reducible apply State.toRecovery_keeps
    | with_reducible apply keeps_ite
    | split

theorem State.respareOne_keeps {K : Kept} {s a1 a2} (h : keeps K s) :
    keeps K (State.respareOne s a1 a2) := by
  unfold State.respareOne
  repeat' first
    | with_reducible assumption
    | (intro x; first | (refine keeps_cut K x ?_ ?_; rotate_left; intro hx; (try clear_value x); rotate_right; unfold x) | clear_value x | skip)
    | lift_lets
    | with_reducible apply State.giveSpare_keeps
    | with_reducible apply State.setSlc_keeps
    | with_reducible apply keeps_ite
    | split

theorem State.applySparing_keeps {K : Kept} {s} (h : keeps K s) :
    keeps K (State.applySparing s) := by
  unfold State.applySparing
  repeat' first
    | with_reducible assumption
    | intro x
    | with_reducible apply State.respareOne_keeps
    | with_reducible apply keeps_foldl
    | with_reducible apply keeps_foldl_fst
    | with_reducible apply keeps_foldl_snd

theorem State.bootKeys_keeps {K : Kept} {s} (h : keeps K s) :
    keeps K (State.bootKeys s) := by
  unfold State.bootKeys
  repeat' first
    | with_reducible assumption
    | (intro x; first | (refine keeps_cut K x ?_ ?_; rotate_left; intro hx; (try clear_value x); rotate_right; unfold x) | clear_value x | skip)
    | lift_lets
    | simp only [keeps_upd_eq]
    | with_reducible apply keeps_ctrs
    | exact Nat.le_refl _
    | exact Nat.le_succ _
    | exact Nat.le_add_right _ _

theorem State.bootService_keeps {K : Kept} {s} (h : keeps K s) :
    keeps K (State.bootService s) := by
  unfold State.bootService
  repeat' first
    | with_reducible assumption
    | with_reducible apply State.lcResult_keeps
    | with_reducible apply State.setOv_keeps
    | with_reducible apply keeps_ite
    | split

theorem State.coldBoot_keeps {K : Kept} {s a1 a2} (h : keeps K s) :
    keeps K (State.coldBoot s a1 a2) := by
  unfold State.coldBoot
  repeat' first
    | with_reducible assumption
    | (intro x; first | (refine keeps_cut K x ?_ ?_; rotate_left; intro hx; (try clear_value x); rotate_right; unfold x) | clear_value x | skip)
    | lift_lets
    | with_reducible apply State.bootService_keeps
    | with_reducible apply State.bootKeys_keeps
    | with_reducible apply State.applySparing_keeps
    | with_reducible apply State.runImage_keeps
    | with_reducible apply State.serveAgain_keeps
    | with_reducible apply keeps_ite
    | split

theorem State.keeperBoot_keeps {K : Kept} {s a1 a2 a3 a4} (h : keeps K s) :
    keeps K (State.keeperBoot s a1 a2 a3 a4) := by
  unfold State.keeperBoot
  repeat' first
    | with_reducible assumption
    | (intro x; first | (refine keeps_cut K x ?_ ?_; rotate_left; intro hx; (try clear_value x); rotate_right; unfold x) | (refine keeps_cut K x.2 ?_ ?_; rotate_left; intro hx; (try clear_value x); rotate_right; unfold x) | clear_value x | skip)
    | lift_lets
    | with_reducible apply State.coldBoot_keeps
    | with_reducible apply State.warmBoot_keeps
    | with_reducible apply State.toRecovery_keeps
    | with_reducible apply State.pickKeeper_keeps
    | with_reducible apply State.bootPart_keeps
    | with_reducible apply State.setKeeper_keeps
    | with_reducible apply State.bump_keeps
    | with_reducible apply keeps_ite
    | with_reducible apply keeps_foldl
    | with_reducible apply keeps_foldl_fst
    | with_reducible apply keeps_foldl_snd
    | split
    | dsimp only
    | (refine keeps_of_snd (by with_reducible assumption) ?_)
    | (refine keeps_of_fst (by with_reducible assumption) ?_)

theorem State.dropReports_keeps {K : Kept} {s} (h : keeps K s) :
    keeps K (State.dropReports s) := by
  unfold State.dropReports
  repeat' first
    | with_reducible assumption
    | (intro x; first | (refine keeps_cut K x ?_ ?_; rotate_left; intro hx; (try clear_value x); rotate_right; unfold x) | clear_value x | skip)
    | lift_lets
    | with_reducible apply State.attResult_keeps
    | with_reducible apply keeps_foldl
    | with_reducible apply keeps_foldl_fst
    | with_reducible apply keeps_foldl_snd
    | simp only [keeps_upd_eq]

theorem State.dropCopies_keeps {K : Kept} {s a1} (h : keeps K s) :
    keeps K (State.dropCopies s a1) := by
  unfold State.dropCopies
  repeat' first
    | with_reducible assumption
    | simp only [keeps_upd_eq]
    | exact keeps_objs (by with_reducible assumption) _ _ (fun e => ⟨risingFrom_filter e.1 _, e.2⟩)

theorem State.endLlp_keeps {K : Kept} {s} (h : keeps K s) :
    keeps K (State.endLlp s) := by
  unfold State.endLlp
  repeat' first
    | with_reducible assumption
    | (intro x; first | (refine keeps_cut K x ?_ ?_; rotate_left; intro hx; (try clear_value x); rotate_right; unfold x) | clear_value x | skip)
    | lift_lets
    | with_reducible apply State.dropCopies_keeps
    | with_reducible apply State.setOct_keeps
    | with_reducible apply State.setOv_keeps
    | with_reducible apply keeps_foldl
    | with_reducible apply keeps_foldl_fst
    | with_reducible apply keeps_foldl_snd
    | simp only [keeps_upd_eq]

theorem State.coreReset_keeps {K : Kept} {s} (h : keeps K s) :
    keeps K (State.coreReset s) := by
  unfold State.coreReset
  repeat' first
    | with_reducible assumption
    | (intro x; first | (refine keeps_cut K x ?_ ?_; rotate_left; intro hx; (try clear_value x); rotate_right; unfold x) | clear_value x | skip)
    | lift_lets
    | with_reducible apply State.endLlp_keeps
    | with_reducible apply State.dropReports_keeps
    | with_reducible apply State.setOv_keeps
    | simp only [keeps_upd_eq]

theorem State.keepSystem_keeps {K : Kept} (hm : K.stored = none) {s b : State} (h : keeps K s) (h1 : keeps K b) :
    keeps K (State.keepSystem s b) :=
  keeps_upd (keeps_stored_of hm h1 _ _ _ _ (fun e => (h.2.2.2.2.1 e).1))

theorem State.darkPairs_keeps {K : Kept} {s s1} (h : keeps K s) (h1 : keeps K s1) :
    keeps K (State.darkPairs s s1) := by
  unfold State.darkPairs
  repeat' first
    | with_reducible assumption
    | (intro x; first | (refine keeps_cut K x ?_ ?_; rotate_left; intro hx; (try clear_value x); rotate_right; unfold x) | clear_value x | skip)
    | lift_lets
    | with_reducible apply State.setOv_keeps
    | with_reducible apply keeps_foldl
    | with_reducible apply keeps_foldl_fst
    | with_reducible apply keeps_foldl_snd

theorem State.revertNv_keeps {K : Kept} {s a1} (h : keeps K s) :
    keeps K (State.revertNv s a1) := by
  induction a1 generalizing s with
  | nil =>
    first | rw [State.revertNv] | unfold State.revertNv
    repeat' first
      | with_reducible assumption
      | (intro x; first | (refine keeps_cut K x ?_ ?_; rotate_left; intro hx; (try clear_value x); rotate_right; unfold x) | clear_value x | skip)
      | lift_lets
      | with_reducible apply keeps_ite
      | split
      | simp only [keeps_upd_eq]
      | (refine keeps_objs ?_ _ _ (fun e => ⟨e.1, risingFrom_put e.2⟩))
      | (refine keeps_objs ?_ _ _ (fun e => ⟨risingFrom_put e.1, e.2⟩))
  | cons y t ih =>
    first | rw [State.revertNv] | unfold State.revertNv
    repeat' first
      | with_reducible assumption
      | (intro x; first | (refine keeps_cut K x ?_ ?_; rotate_left; intro hx; (try clear_value x); rotate_right; unfold x) | clear_value x | skip)
      | lift_lets
      | with_reducible apply ih
      | with_reducible apply keeps_ite
      | split
      | simp only [keeps_upd_eq]
      | (refine keeps_objs ?_ _ _ (fun e => ⟨e.1, risingFrom_put e.2⟩))
      | (refine keeps_objs ?_ _ _ (fun e => ⟨risingFrom_put e.1, e.2⟩))

theorem State.restoreWear_keeps {K : Kept} {s} (h : keeps K s) :
    keeps K (State.restoreWear s) := by
  unfold State.restoreWear
  repeat' first
    | with_reducible assumption
    | intro x
    | with_reducible apply State.setOv_keeps
    | with_reducible apply keeps_foldl
    | with_reducible apply keeps_foldl_fst
    | with_reducible apply keeps_foldl_snd

theorem State.relayAgain_keeps {K : Kept} {s} (h : keeps K s) :
    keeps K (State.relayAgain s) := by
  unfold State.relayAgain
  repeat' first
    | with_reducible assumption
    | intro x
    | with_reducible apply State.setOv_keeps
    | with_reducible apply keeps_ite
    | with_reducible apply keeps_foldl
    | with_reducible apply keeps_foldl_fst
    | with_reducible apply keeps_foldl_snd
    | split

theorem State.ringDefaults_keeps {K : Kept} {s} (h : keeps K s) :
    keeps K (State.ringDefaults s) := by
  unfold State.ringDefaults
  repeat' first
    | with_reducible assumption
    | intro x
    | with_reducible apply State.setOv_keeps
    | with_reducible apply keeps_foldl
    | with_reducible apply keeps_foldl_fst
    | with_reducible apply keeps_foldl_snd

theorem rising_foldl {α β : Type} {f : Tab α → β → Tab α} {t : Tab α} {l : List β} (h : risingFrom 0 t = true)
    (hf : ∀ t x, risingFrom 0 t = true → risingFrom 0 (f t x) = true) : risingFrom 0 (l.foldl f t) = true := by
  induction l generalizing t with
  | nil => exact h
  | cons x l ih => exact ih (hf t x h)

theorem reset_objs_rise : risingFrom 0 resetObjs = true ∧ risingFrom 0 resetOcts = true :=
  ⟨rising_foldl (rising_foldl rfl (fun _ _ h => risingFrom_put h)) (fun _ _ h => risingFrom_put (risingFrom_put (risingFrom_put h))),
    rising_foldl rfl (fun _ _ h => risingFrom_put (risingFrom_put h))⟩

theorem State.reset_objs : State.reset.objs = resetObjs := by unfold State.reset; with_reducible rfl

theorem State.reset_octs : State.reset.octs = resetOcts := by unfold State.reset; with_reducible rfl

/-- The state a power-on or system reset starts from. -/
theorem keeps_boot {K : Kept} (hm : K.stored = none) {u b : State} (hu : keeps K u) (h1 : b.pending = u.pending)
    (h2 : b.out = u.out) (h3 : b.freeCtr = u.freeCtr) (h4 : b.nextKey = u.nextKey) (h5 : b.ltc = u.ltc)
    (h6 : b.objs = State.reset.objs) (h7 : b.octs = State.reset.octs) (h8 : b.mem = []) (h9 : b.poison = [])
    (h10 : b.chunkKey = []) (h11 : b.dramBad = []) : keeps K b := by
  refine ⟨h1.trans hu.1, h2 ▸ hu.2.1, h3 ▸ hu.2.2.1, h4 ▸ hu.2.2.2.1, fun e => ⟨?_, ?_, h5 ▸ (hu.2.2.2.2.1 e).2.2⟩, ?_⟩
  · unfold State.memOk
    rw [h8, h9, h10, h11]
    exact ⟨rfl, rfl, rfl, rfl⟩
  · unfold State.objsOk
    rw [h6, h7, State.reset_objs, State.reset_octs]
    exact reset_objs_rise
  · intro m hm'
    rw [hm] at hm'
    cases hm'

theorem State.wideReset_keeps {K : Kept} (hm : K.stored = none) {s : State} {r : Nat} (h : keeps K s) :
    keeps K (State.wideReset s r) := by
  unfold State.wideReset
  lift_lets
  intro u r0 b
  have h1 : keeps K u := State.restoreWear_keeps (State.revertNv_keeps h)
  have h2 : keeps K b := keeps_boot hm h1 rfl rfl rfl rfl rfl (by with_reducible rfl) (by with_reducible rfl) rfl rfl rfl rfl
  clear_value b u
  repeat' first
    | with_reducible assumption
    | (intro x; first | (refine keeps_cut K x ?_ ?_; rotate_left; intro hx; (try clear_value x); rotate_right; unfold x) | clear_value x | skip)
    | lift_lets
    | with_reducible apply State.setOv_keeps
    | with_reducible apply State.relayAgain_keeps
    | with_reducible apply State.ringDefaults_keeps
    | with_reducible apply State.darkPairs_keeps
    | with_reducible apply State.keepSystem_keeps hm
    | with_reducible apply State.keepFlash_keeps
    | with_reducible apply keeps_ite
    | split

theorem State.cause_keeps {K : Kept} {s a1} (h : keeps K s) :
    keeps K (State.cause s a1) := by
  unfold State.cause
  repeat' first
    | with_reducible assumption
    | with_reducible apply State.setOv_keeps

theorem State.abortLoad_keeps {K : Kept} {s} (h : keeps K s) :
    keeps K (State.abortLoad s) := by
  unfold State.abortLoad
  repeat' first
    | with_reducible assumption
    | (intro x; first | (refine keeps_cut K x ?_ ?_; rotate_left; intro hx; (try clear_value x); rotate_right; unfold x) | clear_value x | skip)
    | lift_lets
    | with_reducible apply State.cause_keeps
    | with_reducible apply keeps_ite
    | split
    | simp only [keeps_upd_eq]

theorem State.widen_keeps {K : Kept} (hm : K.stored = none) {s a1} (h : keeps K s) :
    keeps K (State.widen s a1) := by
  unfold State.widen
  repeat' first
    | with_reducible assumption
    | (intro x; first | (refine keeps_cut K x ?_ ?_; rotate_left; intro hx; (try clear_value x); rotate_right; unfold x) | clear_value x | skip)
    | lift_lets
    | with_reducible apply State.abortLoad_keeps
    | with_reducible apply State.wideReset_keeps hm
    | with_reducible apply State.coreReset_keeps
    | with_reducible apply State.bump_keeps
    | with_reducible apply State.setOv_keeps
    | with_reducible apply keeps_ite
    | split
    | simp only [keeps_upd_eq]

theorem State.releaseSrc_keeps {K : Kept} {s a1} (h : keeps K s) :
    keeps K (State.releaseSrc s a1) := by
  unfold State.releaseSrc
  repeat' first
    | with_reducible assumption
    | (intro x; first | (refine keeps_cut K x ?_ ?_; rotate_left; intro hx; (try clear_value x); rotate_right; unfold x) | clear_value x | skip)
    | lift_lets
    | simp only [keeps_upd_eq]

theorem State.aonRise_keeps {K : Kept} {s a1} (h : keeps K s) :
    keeps K (State.aonRise s a1) := by
  unfold State.aonRise
  repeat' first
    | with_reducible assumption
    | (intro x; first | (refine keeps_cut K x ?_ ?_; rotate_left; intro hx; (try clear_value x); rotate_right; unfold x) | clear_value x | skip)
    | lift_lets
    | with_reducible apply State.releaseSrc_keeps
    | with_reducible apply State.setOv_keeps
    | with_reducible apply keeps_ite
    | split
    | simp only [keeps_upd_eq]

theorem State.resetFunctions_keeps {K : Kept} {s a1} (h : keeps K s) :
    keeps K (State.resetFunctions s a1) := by
  unfold State.resetFunctions
  repeat' first
    | with_reducible assumption
    | (intro x; first | (refine keeps_cut K x ?_ ?_; rotate_left; intro hx; (try clear_value x); rotate_right; unfold x) | clear_value x | skip)
    | lift_lets
    | with_reducible apply State.setIde_keeps
    | with_reducible apply State.muteWaits_keeps
    | with_reducible apply State.setCtx_keeps
    | with_reducible apply State.setOv_keeps
    | with_reducible apply keeps_foldl
    | with_reducible apply keeps_foldl_fst
    | with_reducible apply keeps_foldl_snd
    | simp only [keeps_upd_eq]

theorem State.perst_keeps {K : Kept} {s a1} (h : keeps K s) :
    keeps K (State.perst s a1) := by
  unfold State.perst
  repeat' first
    | with_reducible assumption
    | with_reducible apply State.resetFunctions_keeps
    | with_reducible apply State.pcieLost_keeps
    | with_reducible apply State.bump_keeps
    | with_reducible apply keeps_ite
    | split

theorem State.causeReach_keeps {K : Kept} {s} (h : keeps K s) :
    keeps K (State.causeReach s) := by
  unfold State.causeReach
  repeat' first
    | with_reducible assumption
    | (intro x; first | (refine keeps_cut K x ?_ ?_; rotate_left; intro hx; (try clear_value x); rotate_right; unfold x) | clear_value x | skip)
    | lift_lets
    | with_reducible apply State.setOv_keeps

theorem State.assertSrc_keeps {K : Kept} (hm : K.stored = none) {s a1 a2} (h : keeps K s) :
    keeps K (State.assertSrc s a1 a2) := by
  unfold State.assertSrc
  repeat' first
    | with_reducible assumption
    | (intro x; first | (refine keeps_cut K x ?_ ?_; rotate_left; intro hx; (try clear_value x); rotate_right; unfold x) | clear_value x | skip)
    | lift_lets
    | with_reducible apply State.causeReach_keeps
    | with_reducible apply State.widen_keeps hm
    | with_reducible apply State.cause_keeps
    | with_reducible apply keeps_ite
    | split
    | with_reducible apply keeps_upd

theorem State.aonLow_keeps {K : Kept} (hm : K.stored = none) {s} (h : keeps K s) :
    keeps K (State.aonLow s) := by
  unfold State.aonLow
  repeat' first
    | with_reducible assumption
    | (intro x; first | (refine keeps_cut K x ?_ ?_; rotate_left; intro hx; (try clear_value x); rotate_right; unfold x) | clear_value x | skip)
    | lift_lets
    | with_reducible apply State.assertSrc_keeps hm
    | with_reducible apply keeps_upd

theorem State.startLoad_keeps {K : Kept} {s} (h : keeps K s) :
    keeps K (State.startLoad s) := by
  unfold State.startLoad
  repeat' first
    | with_reducible assumption
    | (intro x; first | (refine keeps_cut K x ?_ ?_; rotate_left; intro hx; (try clear_value x); rotate_right; unfold x) | clear_value x | skip)
    | lift_lets
    | with_reducible apply State.bump_keeps
    | simp only [keeps_upd_eq]

theorem State.rstInput_keeps {K : Kept} (hm : K.stored = none) {s} (h : keeps K s) :
    keeps K (State.rstInput s) := by
  unfold State.rstInput
  repeat' first
    | with_reducible assumption
    | with_reducible apply State.assertSrc_keeps hm
    | with_reducible apply keeps_ite
    | split

theorem State.chooseRoot_keeps {K : Kept} {s} (h : keeps K s) :
    keeps K (State.chooseRoot s) := by
  unfold State.chooseRoot
  repeat' first
    | with_reducible assumption
    | (intro x; first | (refine keeps_cut K x ?_ ?_; rotate_left; intro hx; (try clear_value x); rotate_right; unfold x) | clear_value x | skip)
    | lift_lets
    | with_reducible apply State.setOv_keeps
    | with_reducible apply keeps_ite
    | split

theorem State.episodeEnd_keeps {K : Kept} {s a1} (h : keeps K s) :
    keeps K (State.episodeEnd s a1) := by
  unfold State.episodeEnd
  repeat' first
    | with_reducible assumption
    | (intro x; first | (refine keeps_cut K x ?_ ?_; rotate_left; intro hx; (try clear_value x); rotate_right; unfold x) | clear_value x | skip)
    | lift_lets
    | with_reducible apply State.chooseRoot_keeps
    | with_reducible apply State.startLoad_keeps
    | with_reducible apply State.setKeeper_keeps
    | with_reducible apply State.setOv_keeps
    | with_reducible apply keeps_ite
    | split
    | simp only [keeps_upd_eq]
    | exact keeps_ltc (by with_reducible assumption) _ _ (fun _ => by decide)
    | exact keeps_ltc (by with_reducible assumption) _ _ (fun e => (h.2.2.2.2.1 e).2.2)

theorem State.rstSample_keeps {K : Kept} (hm : K.stored = none) {s a1} (h : keeps K s) :
    keeps K (State.rstSample s a1) := by
  unfold State.rstSample
  repeat' first
    | with_reducible assumption
    | (intro x; first | (refine keeps_cut K x ?_ ?_; rotate_left; intro hx; (try clear_value x); rotate_right; unfold x) | clear_value x | skip)
    | lift_lets
    | with_reducible apply State.startLoad_keeps
    | with_reducible apply State.assertSrc_keeps hm
    | with_reducible apply keeps_ite
    | split
    | with_reducible apply keeps_upd

theorem State.coreRise_keeps {K : Kept} {s} (h : keeps K s) :
    keeps K (State.coreRise s) := by
  unfold State.coreRise
  repeat' first
    | with_reducible assumption
    | (intro x; first | (refine keeps_cut K x ?_ ?_; rotate_left; intro hx; (try clear_value x); rotate_right; unfold x) | clear_value x | skip)
    | lift_lets
    | with_reducible apply State.releaseSrc_keeps
    | simp only [keeps_upd_eq]

theorem State.oscDone_keeps {K : Kept} {s a1} (h : keeps K s) :
    keeps K (State.oscDone s a1) := by
  unfold State.oscDone
  repeat' first
    | with_reducible assumption
    | (intro x; first | (refine keeps_cut K x ?_ ?_; rotate_left; intro hx; (try clear_value x); rotate_right; unfold x) | clear_value x | skip)
    | lift_lets
    | with_reducible apply State.chooseRoot_keeps
    | with_reducible apply State.setOv_keeps
    | with_reducible apply keeps_ite
    | split
    | simp only [keeps_upd_eq]

theorem State.watchdog_keeps {K : Kept} (hm : K.stored = none) {s} (h : keeps K s) :
    keeps K (State.watchdog s) := by
  unfold State.watchdog
  repeat' first
    | with_reducible assumption
    | (intro x; first | (refine keeps_cut K x ?_ ?_; rotate_left; intro hx; (try clear_value x); rotate_right; unfold x) | clear_value x | skip)
    | lift_lets
    | with_reducible apply State.assertSrc_keeps hm
    | with_reducible apply keeps_ite
    | split
    | with_reducible apply keeps_upd

theorem State.bistFail_keeps {K : Kept} {s a1} (h : keeps K s) :
    keeps K (State.bistFail s a1) := by
  induction a1 generalizing s with
  | nil =>
    first | rw [State.bistFail] | unfold State.bistFail
    repeat' first
      | with_reducible assumption
      | (intro x; first | (refine keeps_cut K x ?_ ?_; rotate_left; intro hx; (try clear_value x); rotate_right; unfold x) | clear_value x | skip)
      | lift_lets
      | with_reducible apply State.setKeeper_keeps
      | with_reducible apply State.setUnit_keeps
      | with_reducible apply keeps_ite
      | split
  | cons y t ih =>
    first | rw [State.bistFail] | unfold State.bistFail
    repeat' first
      | with_reducible assumption
      | (intro x; first | (refine keeps_cut K x ?_ ?_; rotate_left; intro hx; (try clear_value x); rotate_right; unfold x) | clear_value x | skip)
      | lift_lets
      | with_reducible apply ih
      | with_reducible apply State.setKeeper_keeps
      | with_reducible apply State.setUnit_keeps
      | with_reducible apply keeps_ite
      | split

theorem State.softReset_keeps {K : Kept} (hm : K.stored = none) {s a1} (h : keeps K s) :
    keeps K (State.softReset s a1) := by
  unfold State.softReset
  repeat' first
    | with_reducible assumption
    | (intro x; first | (refine keeps_cut K x ?_ ?_; rotate_left; intro hx; (try clear_value x); rotate_right; unfold x) | clear_value x | skip)
    | lift_lets
    | with_reducible apply State.assertSrc_keeps hm
    | with_reducible apply keeps_ite
    | split
    | simp only [keeps_upd_eq]

theorem State.dbgReq_keeps {K : Kept} (hm : K.stored = none) {s} (h : keeps K s) :
    keeps K (State.dbgReq s) := by
  unfold State.dbgReq
  repeat' first
    | with_reducible assumption
    | with_reducible apply State.assertSrc_keeps hm
    | with_reducible apply State.bump_keeps
    | with_reducible apply keeps_ite
    | split

theorem State.trimDone_keeps {K : Kept} {s a1} (h : keeps K s) :
    keeps K (State.trimDone s a1) := by
  unfold State.trimDone
  repeat' first
    | with_reducible assumption
    | (intro x; first | (refine keeps_cut K x ?_ ?_; rotate_left; intro hx; (try clear_value x); rotate_right; unfold x) | clear_value x | skip)
    | lift_lets
    | with_reducible apply State.cause_keeps
    | with_reducible apply State.bump_keeps
    | with_reducible apply State.setOv_keeps
    | with_reducible apply keeps_ite
    | split
    | simp only [keeps_upd_eq]

theorem State.bistDone_keeps {K : Kept} {s a1} (h : keeps K s) :
    keeps K (State.bistDone s a1) := by
  unfold State.bistDone
  repeat' first
    | with_reducible assumption
    | (intro x; first | (refine keeps_cut K x ?_ ?_; rotate_left; intro hx; (try clear_value x); rotate_right; unfold x) | clear_value x | skip)
    | lift_lets
    | with_reducible apply State.bistFail_keeps
    | with_reducible apply keeps_ite
    | split
    | simp only [keeps_upd_eq]

theorem State.coreFall_keeps {K : Kept} (hm : K.stored = none) {s} (h : keeps K s) :
    keeps K (State.coreFall s) := by
  unfold State.coreFall
  repeat' first
    | with_reducible assumption
    | (intro x; first | (refine keeps_cut K x ?_ ?_; rotate_left; intro hx; (try clear_value x); rotate_right; unfold x) | clear_value x | skip)
    | lift_lets
    | with_reducible apply State.assertSrc_keeps hm
    | with_reducible apply keeps_ite
    | split
    | with_reducible apply keeps_upd

theorem State.readObj_keeps {K : Kept} {s a1 a2} (h : keeps K s) :
    keeps K (State.readObj s a1 a2).2 := by
  unfold State.readObj
  repeat' first
    | with_reducible assumption
    | with_reducible apply State.dbgNonceRead_keeps
    | with_reducible apply keeps_ite
    | with_reducible apply keeps_ite_snd
    | split
    | dsimp only

theorem State.setLlSess_keeps {K : Kept} {s a1 a2} (h : keeps K s) :
    keeps K (State.setLlSess s a1 a2) := by
  unfold State.setLlSess
  repeat' first
    | with_reducible assumption
    | (intro x; first | (refine keeps_cut K x ?_ ?_; rotate_left; intro hx; (try clear_value x); rotate_right; unfold x) | clear_value x | skip)
    | lift_lets
    | simp only [keeps_upd_eq]

theorem State.failLanes_keeps {K : Kept} {s a1 a2 a3} (h : keeps K s) :
    keeps K (State.failLanes s a1 a2 a3) := by
  unfold State.failLanes
  repeat' first
    | with_reducible assumption
    | intro x
    | with_reducible apply State.setOv_keeps
    | with_reducible apply keeps_ite
    | with_reducible apply keeps_foldl
    | with_reducible apply keeps_foldl_fst
    | with_reducible apply keeps_foldl_snd
    | split

theorem State.sendFrames_keeps {K : Kept} {s a1 a2} (h : keeps K s) :
    keeps K (State.sendFrames s a1 a2) := by
  unfold State.sendFrames
  repeat' first
    | with_reducible assumption
    | (intro x; first | (refine keeps_cut K x ?_ ?_; rotate_left; intro hx; (try clear_value x); rotate_right; unfold x) | clear_value x | skip)
    | lift_lets
    | with_reducible apply State.setLport_keeps
    | with_reducible apply State.emit_keeps
    | with_reducible apply keeps_ite
    | with_reducible apply keeps_foldl
    | with_reducible apply keeps_foldl_fst
    | with_reducible apply keeps_foldl_snd
    | split

theorem State.startRetrain_keeps {K : Kept} {s a1} (h : keeps K s) :
    keeps K (State.startRetrain s a1) := by
  unfold State.startRetrain
  repeat' first
    | with_reducible assumption
    | (intro x; first | (refine keeps_cut K x ?_ ?_; rotate_left; intro hx; (try clear_value x); rotate_right; unfold x) | clear_value x | skip)
    | lift_lets
    | with_reducible apply State.sendFrames_keeps
    | with_reducible apply State.setLport_keeps
    | with_reducible apply State.setOv_keeps
    | with_reducible apply keeps_ite
    | split

theorem State.driftRetrain_keeps {K : Kept} {s a1} (h : keeps K s) :
    keeps K (State.driftRetrain s a1) := by
  unfold State.driftRetrain
  repeat' first
    | with_reducible assumption
    | with_reducible apply State.startRetrain_keeps
    | with_reducible apply keeps_ite
    | split

theorem State.putFlit_keeps {K : Kept} {s a1 a2 a3 a4 a5 a6 a7} (h : keeps K s) :
    keeps K (State.putFlit s a1 a2 a3 a4 a5 a6 a7) := by
  unfold State.putFlit
  repeat' first
    | with_reducible assumption
    | (intro x; first | (refine keeps_cut K x ?_ ?_; rotate_left; intro hx; (try clear_value x); rotate_right; unfold x) | clear_value x | skip)
    | lift_lets
    | with_reducible apply State.setLport_keeps
    | with_reducible apply State.emit_keeps
    | with_reducible apply keeps_ite
    | split

theorem State.putIdle_keeps {K : Kept} {s a1} (h : keeps K s) :
    keeps K (State.putIdle s a1) := by
  unfold State.putIdle
  repeat' first
    | with_reducible assumption
    | with_reducible apply State.putFlit_keeps

theorem State.beaconIdle_keeps {K : Kept} {s a1 a2} (h : keeps K s) :
    keeps K (State.beaconIdle s a1 a2) := by
  unfold State.beaconIdle
  repeat' first
    | with_reducible assumption
    | (intro x; first | (refine keeps_cut K x ?_ ?_; rotate_left; intro hx; (try clear_value x); rotate_right; unfold x) | clear_value x | skip)
    | lift_lets
    | with_reducible apply State.setLport_keeps
    | with_reducible apply keeps_ite
    | split

theorem State.keysAfter_keeps {K : Kept} {s a1 a2} (h : keeps K s) :
    keeps K (State.keysAfter s a1 a2) := by
  unfold State.keysAfter
  repeat' first
    | with_reducible assumption
    | (intro x; first | (refine keeps_cut K x ?_ ?_; rotate_left; intro hx; (try clear_value x); rotate_right; unfold x) | clear_value x | skip)
    | lift_lets
    | with_reducible apply State.switchTx_keeps
    | with_reducible apply State.setSession_keeps
    | with_reducible apply State.setLport_keeps
    | with_reducible apply keeps_ite
    | split

theorem State.putSeq_keeps {K : Kept} {s a1 a2} (h : keeps K s) :
    keeps K (State.putSeq s a1 a2) := by
  unfold State.putSeq
  repeat' first
    | with_reducible assumption
    | with_reducible apply State.putFlit_keeps
    | with_reducible apply State.bump_keeps

theorem State.makeControl_keeps {K : Kept} {s a1} (h : keeps K s) :
    keeps K (State.makeControl s a1).2 := by
  unfold State.makeControl
  repeat' first
    | with_reducible assumption
    | (intro x; first | (refine keeps_cut K x ?_ ?_; rotate_left; intro hx; (try clear_value x); rotate_right; unfold x) | (refine keeps_cut K x.2 ?_ ?_; rotate_left; intro hx; (try clear_value x); rotate_right; unfold x) | clear_value x | skip)
    | lift_lets
    | with_reducible apply State.setLport_keeps
    | with_reducible apply State.bump_keeps
    | with_reducible apply keeps_ite
    | with_reducible apply keeps_ite_snd
    | with_reducible apply keeps_foldl
    | with_reducible apply keeps_foldl_fst
    | with_reducible apply keeps_foldl_snd
    | split
    | dsimp only
    | (refine keeps_of_snd (by with_reducible assumption) ?_)
    | (refine keeps_of_fst (by with_reducible assumption) ?_)
    | dsimp only

theorem State.putNew_keeps {K : Kept} {s a1} (h : keeps K s) :
    keeps K (State.putNew s a1) := by
  unfold State.putNew
  repeat' first
    | with_reducible assumption
    | (intro x; first | (refine keeps_cut K x ?_ ?_; rotate_left; intro hx; (try clear_value x); rotate_right; unfold x) | (refine keeps_cut K x.2 ?_ ?_; rotate_left; intro hx; (try clear_value x); rotate_right; unfold x) | clear_value x | skip)
    | lift_lets
    | with_reducible apply State.makeControl_keeps
    | with_reducible apply State.putSeq_keeps
    | with_reducible apply State.keysAfter_keeps
    | with_reducible apply State.putIdle_keeps
    | with_reducible apply State.setLport_keeps
    | with_reducible apply keeps_ite
    | split
    | simp only [keeps_upd_eq]
    | dsimp only
    | (refine keeps_of_snd (by with_reducible assumption) ?_)
    | (refine keeps_of_fst (by with_reducible assumption) ?_)

theorem State.askMove_keeps {K : Kept} {s a1 a2} (h : keeps K s) :
    keeps K (State.askMove s a1 a2) := by
  unfold State.askMove
  repeat' first
    | with_reducible assumption
    | (intro x; first | (refine keeps_cut K x ?_ ?_; rotate_left; intro hx; (try clear_value x); rotate_right; unfold x) | clear_value x | skip)
    | lift_lets
    | with_reducible apply State.putNew_keeps
    | with_reducible apply State.setLport_keeps
    | with_reducible apply keeps_ite
    | split

theorem State.setWidth_keeps {K : Kept} {s a1 a2 a3} (h : keeps K s) :
    keeps K (State.setWidth s a1 a2 a3) := by
  unfold State.setWidth
  repeat' first
    | with_reducible assumption
    | with_reducible apply State.setOv_keeps

theorem State.retrainDone_keeps {K : Kept} {s a1} (h : keeps K s) :
    keeps K (State.retrainDone s a1) := by
  unfold State.retrainDone
  repeat' first
    | with_reducible assumption
    | (intro x; first | (refine keeps_cut K x ?_ ?_; rotate_left; intro hx; (try clear_value x); rotate_right; unfold x) | clear_value x | skip)
    | lift_lets
    | with_reducible apply State.setWidth_keeps
    | with_reducible apply State.rerouteAll_keeps
    | with_reducible apply State.sendAllQueries_keeps
    | with_reducible apply State.setSession_keeps
    | with_reducible apply State.setLport_keeps
    | with_reducible apply State.bump_keeps
    | with_reducible apply State.setOv_keeps
    | with_reducible apply keeps_ite
    | split
    | dsimp only

theorem State.trainFrame_keeps {K : Kept} {s a1 a2} (h : keeps K s) :
    keeps K (State.trainFrame s a1 a2) := by
  unfold State.trainFrame
  repeat' first
    | with_reducible assumption
    | (intro x; first | (refine keeps_cut K x ?_ ?_; rotate_left; intro hx; (try clear_value x); rotate_right; unfold x) | clear_value x | skip)
    | lift_lets
    | with_reducible apply State.startRetrain_keeps
    | with_reducible apply State.sendFrames_keeps
    | with_reducible apply State.setLport_keeps
    | with_reducible apply keeps_ite
    | split

theorem State.portRetrain_keeps {K : Kept} {s a1} (h : keeps K s) :
    keeps K (State.portRetrain s a1).2 := by
  unfold State.portRetrain
  repeat' first
    | with_reducible assumption
    | with_reducible apply State.startRetrain_keeps
    | with_reducible apply keeps_ite
    | with_reducible apply keeps_ite_snd
    | split
    | dsimp only

theorem State.widenIfReady_keeps {K : Kept} {s a1} (h : keeps K s) :
    keeps K (State.widenIfReady s a1) := by
  unfold State.widenIfReady
  repeat' first
    | with_reducible assumption
    | (intro x; first | (refine keeps_cut K x ?_ ?_; rotate_left; intro hx; (try clear_value x); rotate_right; unfold x) | clear_value x | skip)
    | lift_lets
    | with_reducible apply State.setLport_keeps
    | with_reducible apply keeps_ite
    | split

theorem State.laneRecords_keeps {K : Kept} {s a1 a2} (h : keeps K s) :
    keeps K (State.laneRecords s a1 a2) := by
  unfold State.laneRecords
  repeat' first
    | with_reducible assumption
    | intro x
    | with_reducible apply State.setOv_keeps
    | with_reducible apply keeps_ite
    | with_reducible apply keeps_foldl
    | with_reducible apply keeps_foldl_fst
    | with_reducible apply keeps_foldl_snd
    | split

theorem State.setRxMap_keeps {K : Kept} {s a1 a2} (h : keeps K s) :
    keeps K (State.setRxMap s a1 a2) := by
  unfold State.setRxMap
  repeat' first
    | with_reducible assumption
    | with_reducible apply State.laneRecords_keeps
    | with_reducible apply State.setOv_keeps

theorem State.fullDone_keeps {K : Kept} (hm : K.stored = none) {s a1 a2 a3} (h : keeps K s) :
    keeps K (State.fullDone s a1 a2 a3) := by
  unfold State.fullDone
  repeat' first
    | with_reducible assumption
    | (intro x; first | (refine keeps_cut K x ?_ ?_; rotate_left; intro hx; (try clear_value x); rotate_right; unfold x) | clear_value x | skip)
    | lift_lets
    | with_reducible apply State.setRxMap_keeps
    | with_reducible apply State.setWidth_keeps
    | with_reducible apply State.sendFrames_keeps
    | with_reducible apply State.failLanes_keeps
    | with_reducible apply State.lsBegin_keeps
    | with_reducible apply State.linkDown_keeps hm
    | with_reducible apply State.setLport_keeps
    | with_reducible apply State.bump_keeps
    | with_reducible apply State.setOv_keeps
    | with_reducible apply keeps_ite
    | split
    | dsimp only

theorem State.creditDue_keeps {K : Kept} {s a1} (h : keeps K s) :
    keeps K (State.creditDue s a1) := by
  unfold State.creditDue
  repeat' first
    | with_reducible assumption
    | (intro x; first | (refine keeps_cut K x ?_ ?_; rotate_left; intro hx; (try clear_value x); rotate_right; unfold x) | clear_value x | skip)
    | lift_lets
    | with_reducible apply State.setLport_keeps
    | with_reducible apply keeps_ite
    | split

theorem State.retrainAgain_keeps {K : Kept} {s a1} (h : keeps K s) :
    keeps K (State.retrainAgain s a1) := by
  unfold State.retrainAgain
  repeat' first
    | with_reducible assumption
    | (intro x; first | (refine keeps_cut K x ?_ ?_; rotate_left; intro hx; (try clear_value x); rotate_right; unfold x) | clear_value x | skip)
    | lift_lets
    | with_reducible apply State.sendFrames_keeps
    | with_reducible apply State.setLport_keeps
    | with_reducible apply keeps_ite
    | split

theorem State.widthEffect_keeps {K : Kept} {s a1 a2} (h : keeps K s) :
    keeps K (State.widthEffect s a1 a2) := by
  unfold State.widthEffect
  repeat' first
    | with_reducible assumption
    | (intro x; first | (refine keeps_cut K x ?_ ?_; rotate_left; intro hx; (try clear_value x); rotate_right; unfold x) | clear_value x | skip)
    | lift_lets
    | with_reducible apply State.laneRecords_keeps
    | with_reducible apply State.setWidth_keeps
    | with_reducible apply State.setLport_keeps
    | with_reducible apply keeps_ite
    | split

theorem State.putAgain_keeps {K : Kept} {s a1 a2} (h : keeps K s) :
    keeps K (State.putAgain s a1 a2) := by
  unfold State.putAgain
  repeat' first
    | with_reducible assumption
    | (intro x; first | (refine keeps_cut K x ?_ ?_; rotate_left; intro hx; (try clear_value x); rotate_right; unfold x) | clear_value x | skip)
    | lift_lets
    | with_reducible apply State.putSeq_keeps
    | with_reducible apply State.setLport_keeps
    | with_reducible apply State.bump_keeps
    | with_reducible apply keeps_ite
    | split

theorem State.narrowIdle_keeps {K : Kept} {s a1} (h : keeps K s) :
    keeps K (State.narrowIdle s a1) := by
  unfold State.narrowIdle
  repeat' first
    | with_reducible assumption
    | (intro x; first | (refine keeps_cut K x ?_ ?_; rotate_left; intro hx; (try clear_value x); rotate_right; unfold x) | clear_value x | skip)
    | lift_lets
    | with_reducible apply State.setLport_keeps
    | with_reducible apply keeps_ite
    | split

theorem State.fullTraining_keeps {K : Kept} {s a1} (h : keeps K s) :
    keeps K (State.fullTraining s a1) := by
  unfold State.fullTraining
  repeat' first
    | with_reducible assumption
    | (intro x; first | (refine keeps_cut K x ?_ ?_; rotate_left; intro hx; (try clear_value x); rotate_right; unfold x) | clear_value x | skip)
    | lift_lets
    | with_reducible apply State.sendFrames_keeps
    | with_reducible apply State.setLport_keeps
    | with_reducible apply State.setOv_keeps
    | with_reducible apply keeps_ite
    | with_reducible apply keeps_foldl
    | with_reducible apply keeps_foldl_fst
    | with_reducible apply keeps_foldl_snd
    | split

theorem State.laneFail_keeps {K : Kept} (hm : K.stored = none) {s a1 a2 a3} (h : keeps K s) :
    keeps K (State.laneFail s a1 a2 a3) := by
  unfold State.laneFail
  repeat' first
    | with_reducible assumption
    | (intro x; first | (refine keeps_cut K x ?_ ?_; rotate_left; intro hx; (try clear_value x); rotate_right; unfold x) | clear_value x | skip)
    | lift_lets
    | with_reducible apply State.setRxMap_keeps
    | with_reducible apply State.setWidth_keeps
    | with_reducible apply State.askMove_keeps
    | with_reducible apply State.startRetrain_keeps
    | with_reducible apply State.sendFrames_keeps
    | with_reducible apply State.failLanes_keeps
    | with_reducible apply State.linkDown_keeps hm
    | with_reducible apply State.event_keeps
    | with_reducible apply State.bump_keeps
    | with_reducible apply keeps_ite
    | split
    | dsimp only

theorem State.rtxTimer_keeps {K : Kept} {s a1} (h : keeps K s) :
    keeps K (State.rtxTimer s a1) := by
  unfold State.rtxTimer
  repeat' first
    | with_reducible assumption
    | (intro x; first | (refine keeps_cut K x ?_ ?_; rotate_left; intro hx; (try clear_value x); rotate_right; unfold x) | clear_value x | skip)
    | lift_lets
    | with_reducible apply State.startRetrain_keeps
    | with_reducible apply State.setLport_keeps
    | with_reducible apply State.bump_keeps
    | with_reducible apply keeps_ite
    | split

theorem State.flitTime_keeps {K : Kept} {s a1} (h : keeps K s) :
    keeps K (State.flitTime s a1) := by
  unfold State.flitTime
  repeat' first
    | with_reducible assumption
    | (intro x; first | (refine keeps_cut K x ?_ ?_; rotate_left; intro hx; (try clear_value x); rotate_right; unfold x) | clear_value x | skip)
    | lift_lets
    | with_reducible apply State.putAgain_keeps
    | with_reducible apply State.widenIfReady_keeps
    | with_reducible apply State.putNew_keeps
    | with_reducible apply State.putIdle_keeps
    | with_reducible apply State.bump_keeps
    | with_reducible apply keeps_ite
    | split
    | dsimp only

theorem State.pllUnlock_keeps {K : Kept} {s a1} (h : keeps K s) :
    keeps K (State.pllUnlock s a1) := by
  unfold State.pllUnlock
  repeat' first
    | with_reducible assumption
    | with_reducible apply State.setOv_keeps

theorem State.thermal_keeps {K : Kept} {s a1} (h : keeps K s) :
    keeps K (State.thermal s a1) := by
  unfold State.thermal
  repeat' first
    | with_reducible assumption
    | (intro x; first | (refine keeps_cut K x ?_ ?_; rotate_left; intro hx; (try clear_value x); rotate_right; unfold x) | clear_value x | skip)
    | lift_lets
    | with_reducible apply State.setOv_keeps
    | with_reducible apply keeps_ite
    | with_reducible apply keeps_foldl
    | with_reducible apply keeps_foldl_fst
    | with_reducible apply keeps_foldl_snd
    | split
    | dsimp only

theorem State.governor_keeps {K : Kept} {s} (h : keeps K s) :
    keeps K (State.governor s) := by
  unfold State.governor
  repeat' first
    | with_reducible assumption
    | (intro x; first | (refine keeps_cut K x ?_ ?_; rotate_left; intro hx; (try clear_value x); rotate_right; unfold x) | clear_value x | skip)
    | lift_lets
    | with_reducible apply State.event_keeps
    | with_reducible apply State.bump_keeps
    | with_reducible apply State.setOv_keeps
    | with_reducible apply keeps_ite
    | split

theorem State.moveSref_keeps {K : Kept} (hm : K.stored = none) {s a1} (h : keeps K s) :
    keeps K (State.moveSref s a1) := by
  unfold State.moveSref
  repeat' first
    | with_reducible assumption
    | (intro x; first | (refine keeps_cut K x ?_ ?_; rotate_left; intro hx; (try clear_value x); rotate_right; unfold x) | clear_value x | skip)
    | lift_lets
    | with_reducible apply State.startRetrain_keeps
    | with_reducible apply State.linkDown_keeps hm
    | with_reducible apply keeps_ite
    | split
    | simp only [keeps_upd_eq]

theorem State.srefLoss_keeps {K : Kept} (hm : K.stored = none) {s a1} (h : keeps K s) :
    keeps K (State.srefLoss s a1) := by
  unfold State.srefLoss
  repeat' first
    | with_reducible assumption
    | (intro x; first | (refine keeps_cut K x ?_ ?_; rotate_left; intro hx; (try clear_value x); rotate_right; unfold x) | clear_value x | skip)
    | lift_lets
    | with_reducible apply State.moveSref_keeps hm
    | with_reducible apply State.setOv_keeps
    | with_reducible apply keeps_ite
    | with_reducible apply keeps_foldl
    | with_reducible apply keeps_foldl_fst
    | with_reducible apply keeps_foldl_snd
    | split

theorem State.flushAll_keeps {K : Kept} (hm : K.stored = none) {s} (h : keeps K s) :
    keeps K (State.flushAll s) := by
  unfold State.flushAll
  repeat' first
    | with_reducible assumption
    | with_reducible apply State.flushLines_keeps hm

theorem State.graceEnd_keeps {K : Kept} {s} (h : keeps K s) :
    keeps K (State.graceEnd s) := by
  unfold State.graceEnd
  repeat' first
    | with_reducible assumption
    | (intro x; first | (refine keeps_cut K x ?_ ?_; rotate_left; intro hx; (try clear_value x); rotate_right; unfold x) | clear_value x | skip)
    | lift_lets
    | with_reducible apply keeps_ite
    | split
    | simp only [keeps_upd_eq]

theorem State.saveWear_keeps {K : Kept} {s} (h : keeps K s) :
    keeps K (State.saveWear s) := by
  unfold State.saveWear
  repeat' first
    | with_reducible assumption
    | (intro x; first | (refine keeps_cut K x ?_ ?_; rotate_left; intro hx; (try clear_value x); rotate_right; unfold x) | clear_value x | skip)
    | lift_lets
    | simp only [keeps_upd_eq]

theorem State.ungate_keeps {K : Kept} {s a1 a2} (h : keeps K s) :
    keeps K (State.ungate s a1 a2) := by
  unfold State.ungate
  repeat' first
    | with_reducible assumption
    | (intro x; first | (refine keeps_cut K x ?_ ?_; rotate_left; intro hx; (try clear_value x); rotate_right; unfold x) | clear_value x | skip)
    | lift_lets
    | simp only [keeps_upd_eq]

theorem State.linkSleep_keeps {K : Kept} {s a1} (h : keeps K s) :
    keeps K (State.linkSleep s a1) := by
  unfold State.linkSleep
  repeat' first
    | with_reducible assumption
    | (intro x; first | (refine keeps_cut K x ?_ ?_; rotate_left; intro hx; (try clear_value x); rotate_right; unfold x) | clear_value x | skip)
    | lift_lets
    | with_reducible apply State.setWidth_keeps
    | with_reducible apply State.setSession_keeps
    | with_reducible apply State.setLport_keeps
    | with_reducible apply State.setOv_keeps
    | with_reducible apply keeps_ite
    | split

theorem State.finishP3_keeps {K : Kept} (hm : K.stored = none) {s} (h : keeps K s) :
    keeps K (State.finishP3 s) := by
  unfold State.finishP3
  repeat' first
    | with_reducible assumption
    | (intro x; first | (refine keeps_cut K x ?_ ?_; rotate_left; intro hx; (try clear_value x); rotate_right; unfold x) | (refine keeps_cut K x.2 ?_ ?_; rotate_left; intro hx; (try clear_value x); rotate_right; unfold x) | clear_value x | skip)
    | lift_lets
    | with_reducible apply State.linkSleep_keeps
    | with_reducible apply State.saveWear_keeps
    | with_reducible apply State.flushAll_keeps hm
    | with_reducible apply State.pcieDown_keeps
    | with_reducible apply State.bump_keeps
    | with_reducible apply State.freeBelow_keeps
    | with_reducible apply State.pstateResult_keeps
    | with_reducible apply State.setOv_keeps
    | with_reducible apply keeps_foldl
    | with_reducible apply keeps_foldl_fst
    | with_reducible apply keeps_foldl_snd
    | simp only [keeps_upd_eq]
    | with_reducible apply keeps_ctrs
    | exact Nat.le_refl _
    | exact Nat.le_succ _

theorem State.divStep_keeps {K : Kept} {s} (h : keeps K s) :
    keeps K (State.divStep s) := by
  unfold State.divStep
  repeat' first
    | with_reducible assumption
    | (intro x; first | (refine keeps_cut K x ?_ ?_; rotate_left; intro hx; (try clear_value x); rotate_right; unfold x) | clear_value x | skip)
    | lift_lets
    | with_reducible apply State.setOv_keeps
    | with_reducible apply keeps_ite
    | split

theorem State.exitP3_keeps {K : Kept} (hm : K.stored = none) {s a1} (h : keeps K s) :
    keeps K (State.exitP3 s a1) := by
  unfold State.exitP3
  repeat' first
    | with_reducible assumption
    | (intro x; first | (refine keeps_cut K x ?_ ?_; rotate_left; intro hx; (try clear_value x); rotate_right; unfold x) | clear_value x | skip)
    | lift_lets
    | with_reducible apply State.bistFail_keeps
    | with_reducible apply State.assertSrc_keeps hm
    | with_reducible apply State.resetFunctions_keeps
    | with_reducible apply State.applySparing_keeps
    | with_reducible apply State.setOv_keeps
    | with_reducible apply keeps_ite
    | split
    | simp only [keeps_upd_eq]

theorem State.energy_keeps {K : Kept} {s : State} {a1 : List (Bool × Nat)} (h : keeps K s) : keeps K (State.energy s a1) := by
  unfold State.energy
  generalize (12000000000 : Int) = c
  exact keeps_upd (State.setOv_keeps (State.setOv_keeps (State.bump_keeps h)))

theorem State.switchRoot_keeps {K : Kept} {s a1} (h : keeps K s) :
    keeps K (State.switchRoot s a1) := by
  unfold State.switchRoot
  repeat' first
    | with_reducible assumption
    | (intro x; first | (refine keeps_cut K x ?_ ?_; rotate_left; intro hx; (try clear_value x); rotate_right; unfold x) | clear_value x | skip)
    | lift_lets
    | with_reducible apply State.event_keeps
    | with_reducible apply State.bump_keeps
    | with_reducible apply State.setOv_keeps
    | with_reducible apply keeps_ite
    | split

theorem State.pllLockLoss_keeps {K : Kept} {s a1} (h : keeps K s) :
    keeps K (State.pllLockLoss s a1) := by
  unfold State.pllLockLoss
  repeat' first
    | with_reducible assumption
    | with_reducible apply State.switchRoot_keeps
    | with_reducible apply State.pllUnlock_keeps
    | with_reducible apply keeps_ite
    | split

theorem State.pllEdgeLoss_keeps {K : Kept} {s a1} (h : keeps K s) :
    keeps K (State.pllEdgeLoss s a1) := by
  unfold State.pllEdgeLoss
  repeat' first
    | with_reducible assumption
    | with_reducible apply State.switchRoot_keeps
    | with_reducible apply State.pllUnlock_keeps
    | with_reducible apply keeps_ite
    | split

theorem State.flushMerges_keeps {K : Kept} (hm : K.stored = none) {s} (h : keeps K s) :
    keeps K (State.flushMerges s) := by
  unfold State.flushMerges
  repeat' first
    | with_reducible assumption
    | intro x
    | with_reducible apply State.flushMerge_keeps hm
    | with_reducible apply keeps_foldl
    | with_reducible apply keeps_foldl_fst
    | with_reducible apply keeps_foldl_snd

theorem State.enterP2_keeps {K : Kept} (hm : K.stored = none) {s} (h : keeps K s) :
    keeps K (State.enterP2 s) := by
  unfold State.enterP2
  repeat' first
    | with_reducible assumption
    | (intro x; first | (refine keeps_cut K x ?_ ?_; rotate_left; intro hx; (try clear_value x); rotate_right; unfold x) | clear_value x | skip)
    | lift_lets
    | with_reducible apply State.flushMerges_keeps hm
    | with_reducible apply State.setOv_keeps
    | with_reducible apply keeps_ite
    | split
    | simp only [keeps_upd_eq]

theorem State.gateIdle_keeps {K : Kept} {s a1 a2} (h : keeps K s) :
    keeps K (State.gateIdle s a1 a2) := by
  unfold State.gateIdle
  repeat' first
    | with_reducible assumption
    | (intro x; first | (refine keeps_cut K x ?_ ?_; rotate_left; intro hx; (try clear_value x); rotate_right; unfold x) | clear_value x | skip)
    | lift_lets
    | with_reducible apply keeps_ite
    | split
    | simp only [keeps_upd_eq]
    | dsimp only

theorem State.fcStart_keeps {K : Kept} {s} (h : keeps K s) :
    keeps K (State.fcStart s).2 := by
  unfold State.fcStart
  repeat' first
    | with_reducible assumption
    | with_reducible apply State.setOv_keeps
    | with_reducible apply keeps_ite
    | with_reducible apply keeps_ite_snd
    | split
    | dsimp only

theorem State.wearTick_keeps {K : Kept} {s a1} (h : keeps K s) :
    keeps K (State.wearTick s a1) := by
  unfold State.wearTick
  repeat' first
    | with_reducible assumption
    | (intro x; first | (refine keeps_cut K x ?_ ?_; rotate_left; intro hx; (try clear_value x); rotate_right; unfold x) | clear_value x | skip)
    | lift_lets
    | with_reducible apply State.saveWear_keeps
    | with_reducible apply State.bump_keeps
    | with_reducible apply State.setOv_keeps
    | with_reducible apply keeps_ite
    | split
    | with_reducible apply keeps_upd

theorem State.setTarget3_keeps {K : Kept} {s a1 a2} (h : keeps K s) :
    keeps K (State.setTarget3 s a1 a2).2 := by
  unfold State.setTarget3
  repeat' first
    | with_reducible assumption
    | (intro x; first | (refine keeps_cut K x ?_ ?_; rotate_left; intro hx; (try clear_value x); rotate_right; unfold x) | (refine keeps_cut K x.2 ?_ ?_; rotate_left; intro hx; (try clear_value x); rotate_right; unfold x) | clear_value x | skip)
    | lift_lets
    | with_reducible apply State.wake_keeps
    | with_reducible apply State.pstateResult_keeps
    | with_reducible apply State.setOv_keeps
    | with_reducible apply keeps_ite
    | with_reducible apply keeps_ite_snd
    | split
    | simp only [keeps_upd_eq]
    | dsimp only

theorem State.rootCmd_keeps {K : Kept} {s} (h : keeps K s) :
    keeps K (State.rootCmd s).2 := by
  unfold State.rootCmd
  repeat' first
    | with_reducible assumption
    | with_reducible apply State.switchRoot_keeps
    | with_reducible apply keeps_ite
    | with_reducible apply keeps_ite_snd
    | split
    | dsimp only

theorem State.p3Timeout_keeps {K : Kept} {s} (h : keeps K s) :
    keeps K (State.p3Timeout s) := by
  unfold State.p3Timeout
  repeat' first
    | with_reducible assumption
    | with_reducible apply State.stopP3_keeps
    | with_reducible apply keeps_ite
    | split

theorem State.fcDone_keeps {K : Kept} {s a1 a2} (h : keeps K s) :
    keeps K (State.fcDone s a1 a2) := by
  unfold State.fcDone
  repeat' first
    | with_reducible assumption
    | with_reducible apply State.setOv_keeps
    | with_reducible apply keeps_ite
    | split

theorem State.refclkLoss_keeps {K : Kept} {s a1} (h : keeps K s) :
    keeps K (State.refclkLoss s a1) := by
  unfold State.refclkLoss
  repeat' first
    | with_reducible assumption
    | with_reducible apply State.pcieLost_keeps

theorem State.thermtrip_keeps {K : Kept} {s} (h : keeps K s) :
    keeps K (State.thermtrip s) := by
  unfold State.thermtrip
  repeat' first
    | with_reducible assumption
    | (intro x; first | (refine keeps_cut K x ?_ ?_; rotate_left; intro hx; (try clear_value x); rotate_right; unfold x) | clear_value x | skip)
    | lift_lets
    | simp only [keeps_upd_eq]

theorem State.enterP3_keeps {K : Kept} (hm : K.stored = none) {s a1} (h : keeps K s) :
    keeps K (State.enterP3 s a1) := by
  unfold State.enterP3
  repeat' first
    | with_reducible assumption
    | (intro x; first | (refine keeps_cut K x ?_ ?_; rotate_left; intro hx; (try clear_value x); rotate_right; unfold x) | clear_value x | skip)
    | lift_lets
    | with_reducible apply State.finishP3_keeps hm
    | with_reducible apply State.flushAll_keeps hm
    | with_reducible apply State.recallLine_keeps hm
    | with_reducible apply State.meet_keeps
    | with_reducible apply keeps_ite
    | with_reducible apply keeps_foldl
    | with_reducible apply keeps_foldl_fst
    | with_reducible apply keeps_foldl_snd
    | split
    | simp only [keeps_upd_eq]

theorem State.leaseResult_keeps {K : Kept} {s a1 a2} (h : keeps K s) :
    keeps K (State.leaseResult s a1 a2) := by
  unfold State.leaseResult
  repeat' first
    | with_reducible assumption
    | with_reducible apply State.setOv_keeps

theorem State.leaseRelease_keeps {K : Kept} {s a1} (h : keeps K s) :
    keeps K (State.leaseRelease s a1) := by
  unfold State.leaseRelease
  repeat' first
    | with_reducible assumption
    | (intro x; first | (refine keeps_cut K x ?_ ?_; rotate_left; intro hx; (try clear_value x); rotate_right; unfold x) | clear_value x | skip)
    | lift_lets
    | with_reducible apply State.leaseResult_keeps
    | with_reducible apply State.setOv_keeps
    | with_reducible apply keeps_ite
    | split

theorem State.leaseCheck_keeps {K : Kept} {s} (h : keeps K s) :
    keeps K (State.leaseCheck s) := by
  unfold State.leaseCheck
  repeat' first
    | with_reducible assumption
    | with_reducible apply State.setOv_keeps
    | with_reducible apply keeps_ite
    | split

theorem State.endSession_keeps {K : Kept} {s a1} (h : keeps K s) :
    keeps K (State.endSession s a1) := by
  unfold State.endSession
  repeat' first
    | with_reducible assumption
    | (intro x; first | (refine keeps_cut K x ?_ ?_; rotate_left; intro hx; (try clear_value x); rotate_right; unfold x) | clear_value x | skip)
    | lift_lets
    | with_reducible apply State.leaseCheck_keeps
    | with_reducible apply State.setLlSess_keeps
    | with_reducible apply State.dropCopies_keeps
    | with_reducible apply State.setOct_keeps
    | with_reducible apply State.setOv_keeps
    | with_reducible apply keeps_ite
    | split

theorem State.writeClient_keeps {K : Kept} {s a1 a2} (h : keeps K s) :
    keeps K (State.writeClient s a1 a2).2 := by
  unfold State.writeClient
  repeat' first
    | with_reducible assumption
    | (intro x; first | (refine keeps_cut K x ?_ ?_; rotate_left; intro hx; (try clear_value x); rotate_right; unfold x) | (refine keeps_cut K x.2 ?_ ?_; rotate_left; intro hx; (try clear_value x); rotate_right; unfold x) | clear_value x | skip)
    | lift_lets
    | with_reducible apply State.endSession_keeps
    | with_reducible apply State.setOct_keeps
    | with_reducible apply keeps_ite
    | with_reducible apply keeps_ite_snd
    | with_reducible apply keeps_foldl
    | with_reducible apply keeps_foldl_fst
    | with_reducible apply keeps_foldl_snd
    | split
    | dsimp only


theorem State.reroutRecs_keeps {K : Kept} {s} (h : keeps K s) :
    keeps K (State.reroutRecs s) := by
  unfold State.reroutRecs
  repeat' first
    | with_reducible assumption
    | intro x
    | with_reducible apply State.postWaiting_keeps
    | with_reducible apply keeps_foldl
    | with_reducible apply keeps_foldl_fst
    | with_reducible apply keeps_foldl_snd

theorem State.effect_keeps {K : Kept} {s a1 a2 a3 a4} {t : State} (e : State.effect s a1 a2 a3 a4 = some (some t)) (h : keeps K s) :
    keeps K t := by
  unfold State.effect at e
  dsimp only at e
  repeat' first
    | with_reducible assumption
    | (intro x; first | (refine keeps_cut K x ?_ ?_; rotate_left; intro hx; (try clear_value x); rotate_right; unfold x) | (refine keeps_cut K x.2 ?_ ?_; rotate_left; intro hx; (try clear_value x); rotate_right; unfold x) | clear_value x | skip)
    | lift_lets
    | with_reducible apply State.reroutRecs_keeps
    | with_reducible apply State.leaseCheck_keeps
    | with_reducible apply State.setTarget3_keeps
    | with_reducible apply State.logAck_keeps
    | with_reducible apply State.sendAllQueries_keeps
    | with_reducible apply State.trEnable_keeps
    | with_reducible apply State.jqEnable_keeps
    | with_reducible apply State.writeGeometry_keeps
    | with_reducible apply State.writeBinding_keeps
    | with_reducible apply State.foghorn_keeps
    | with_reducible apply State.setOv_keeps
    | with_reducible apply keeps_ite
    | with_reducible apply keeps_foldl
    | with_reducible apply keeps_foldl_fst
    | with_reducible apply keeps_foldl_snd
    | dsimp only
    | (revert e; with_reducible refine of_ite ?_ ?_ <;> intro e)
    | rw [Option.some.injEq] at e
    | cases e
    | split

theorem accepted_keeps {K : Kept} {s : State} {q : Bool × State} (h : keeps K s) (h1 : keeps K q.2) : keeps K (accepted s q).2 := by
  unfold accepted
  split <;> assumption

theorem oneOf_keeps {K : Kept} {s : State} {v n : Nat} {f : Nat → State} (h : keeps K s) (h1 : ∀ n, keeps K (f n)) :
    keeps K (oneOf s v n f).2 := by
  unfold oneOf
  split
  · exact h1 v
  · exact h

theorem State.renewLease_keeps {K : Kept} {s} (h : keeps K s) :
    keeps K (State.renewLease s) := by
  unfold State.renewLease
  repeat' first
    | with_reducible assumption
    | (intro x; first | (refine keeps_cut K x ?_ ?_; rotate_left; intro hx; (try clear_value x); rotate_right; unfold x) | clear_value x | skip)
    | lift_lets
    | simp only [keeps_upd_eq]

theorem State.leaseRenew_keeps {K : Kept} {s a1} (h : keeps K s) :
    keeps K (State.leaseRenew s a1) := by
  unfold State.leaseRenew
  repeat' first
    | with_reducible assumption
    | (intro x; first | (refine keeps_cut K x ?_ ?_; rotate_left; intro hx; (try clear_value x); rotate_right; unfold x) | clear_value x | skip)
    | lift_lets
    | with_reducible apply State.renewLease_keeps
    | with_reducible apply State.leaseResult_keeps
    | with_reducible apply keeps_ite
    | split

theorem State.leaseAcquire_keeps {K : Kept} {s a1} (h : keeps K s) :
    keeps K (State.leaseAcquire s a1) := by
  unfold State.leaseAcquire
  repeat' first
    | with_reducible assumption
    | (intro x; first | (refine keeps_cut K x ?_ ?_; rotate_left; intro hx; (try clear_value x); rotate_right; unfold x) | clear_value x | skip)
    | lift_lets
    | with_reducible apply State.renewLease_keeps
    | with_reducible apply State.leaseResult_keeps
    | with_reducible apply State.setOv_keeps
    | with_reducible apply keeps_ite
    | split

theorem State.commandB_keeps {K : Kept} (hm : K.stored = none) {s a1 a2 a3 a4 a5} (h : keeps K s) :
    keeps K (State.commandB s a1 a2 a3 a4 a5).2 := by
  unfold State.commandB
  repeat' first
    | with_reducible assumption
    | (intro x; first | (refine keeps_cut K x ?_ ?_; rotate_left; intro hx; (try clear_value x); rotate_right; unfold x) | (refine keeps_cut K x.2 ?_ ?_; rotate_left; intro hx; (try clear_value x); rotate_right; unfold x) | clear_value x | skip)
    | lift_lets
    | with_reducible apply State.leaseAcquire_keeps
    | with_reducible apply State.leaseRenew_keeps
    | with_reducible apply accepted_keeps
    | with_reducible apply oneOf_keeps
    | with_reducible apply State.leaseRelease_keeps
    | with_reducible apply State.rootCmd_keeps
    | with_reducible apply State.fcStart_keeps
    | with_reducible apply State.keeperSwap_keeps
    | with_reducible apply State.fwActivate_keeps
    | with_reducible apply State.cmdRepair_keeps
    | with_reducible apply State.fwVerify_keeps
    | with_reducible apply State.fwErase_keeps
    | with_reducible apply State.cmdSwap_keeps
    | with_reducible apply State.cmdFence_keeps hm
    | with_reducible apply State.keeperRepair_keeps
    | with_reducible apply State.setForm_keeps
    | with_reducible apply State.setDestroy_keeps
    | with_reducible apply State.enterService_keeps
    | with_reducible apply State.attest_keeps
    | with_reducible apply State.arbCommit_keeps
    | with_reducible apply State.decommission_keeps
    | with_reducible apply State.enterMaintenance_keeps
    | with_reducible apply State.linkRelease_keeps
    | with_reducible apply State.ctxAlloc_keeps
    | with_reducible apply State.ctxActivate_keeps
    | with_reducible apply State.ctxReset_keeps
    | with_reducible apply State.ctxFree_keeps
    | with_reducible apply State.generate_keeps
    | with_reducible apply State.rekey_keeps
    | with_reducible apply State.ntfRaise_keeps
    | with_reducible apply keeps_ite
    | with_reducible apply keeps_ite_snd
    | split
    | simp only [keeps_upd_eq]
    | dsimp only

theorem State.commandA_keeps {K : Kept} (hm : K.stored = none) {s a1 a2 a3 a4 a5} {q : Nat × State} (e : State.commandA s a1 a2 a3 a4 a5 = some q) (h : keeps K s) :
    keeps K q.2 := by
  unfold State.commandA at e
  dsimp only at e
  repeat' first
    | with_reducible assumption
    | (intro x; first | (refine keeps_cut K x ?_ ?_; rotate_left; intro hx; (try clear_value x); rotate_right; unfold x) | (refine keeps_cut K x.2 ?_ ?_; rotate_left; intro hx; (try clear_value x); rotate_right; unfold x) | clear_value x | skip)
    | lift_lets
    | with_reducible apply accepted_keeps
    | with_reducible apply oneOf_keeps
    | with_reducible apply State.portRetrain_keeps
    | with_reducible apply State.portRepair_keeps
    | with_reducible apply State.portRestart_keeps hm
    | with_reducible apply State.portFence_keeps hm
    | with_reducible apply State.scrubStart_keeps
    | with_reducible apply State.scrubCancel_keeps
    | with_reducible apply State.hbchFence_keeps
    | with_reducible apply State.offline_keeps
    | with_reducible apply State.pwrOff_keeps
    | with_reducible apply State.pwrOn_keeps
    | with_reducible apply State.online_keeps
    | with_reducible apply State.agtRejoin_keeps
    | with_reducible apply State.unkRelease_keeps
    | with_reducible apply State.agtFence_keeps hm
    | with_reducible apply State.recipeUnload_keeps
    | with_reducible apply State.recipeLoad_keeps
    | with_reducible apply State.startResync_keeps
    | with_reducible apply State.place_keeps
    | with_reducible apply State.frzRelease_keeps
    | with_reducible apply State.frRepost_keeps
    | with_reducible apply State.extOp_keeps
    | with_reducible apply State.grantIssue_keeps
    | with_reducible apply keeps_ite
    | dsimp only
    | (revert e; with_reducible refine of_ite ?_ ?_ <;> intro e)
    | rw [Option.some.injEq] at e
    | cases e
    | split

theorem State.writeCmd_keeps {K : Kept} (hm : K.stored = none) {s : State} {n v : Nat} {r : Ref} {c : Vouch} (h : keeps K s) :
    keeps K (s.writeCmd n r v c).2 := by
  unfold State.writeCmd
  lift_lets
  intro a s1
  have h1 : keeps K s1 := State.setOv_keeps h
  intro q
  have hq : keeps K q.2 := by
    unfold q
    cases e : s1.commandA n r.o a (s.selected n r) v with
    | none => exact State.commandB_keeps hm h1
    | some x => exact State.commandA_keeps hm e h1
  exact keeps_ite_snd hq h

theorem State.noteNv_keeps {K : Kept} {s a1 a2} (h : keeps K s) :
    keeps K (State.noteNv s a1 a2) := by
  unfold State.noteNv
  repeat' first
    | with_reducible assumption
    | (intro x; first | (refine keeps_cut K x ?_ ?_; rotate_left; intro hx; (try clear_value x); rotate_right; unfold x) | clear_value x | skip)
    | lift_lets
    | with_reducible apply keeps_ite
    | split
    | simp only [keeps_upd_eq]
    | dsimp only

theorem State.writeOct_keeps {K : Kept} {s a1 a2 a3 a4} (h : keeps K s) :
    keeps K (State.writeOct s a1 a2 a3 a4).2 := by
  unfold State.writeOct
  repeat' first
    | with_reducible assumption
    | (intro x; first | (refine keeps_cut K x ?_ ?_; rotate_left; intro hx; (try clear_value x); rotate_right; unfold x) | (refine keeps_cut K x.2 ?_ ?_; rotate_left; intro hx; (try clear_value x); rotate_right; unfold x) | clear_value x | skip)
    | lift_lets
    | with_reducible apply State.noteNv_keeps
    | with_reducible apply accepted_keeps
    | with_reducible apply State.writeClient_keeps
    | with_reducible apply State.fwBlock_keeps
    | with_reducible apply State.dbgToken_keeps
    | with_reducible apply State.dmExtend_keeps
    | with_reducible apply State.setOct_keeps
    | with_reducible apply keeps_ite
    | with_reducible apply keeps_ite_snd
    | split
    | dsimp only

theorem State.writeNum_keeps {K : Kept} {s a1 a2 a3} (h : keeps K s) :
    keeps K (State.writeNum s a1 a2 a3).2 := by
  unfold State.writeNum
  repeat' first
    | with_reducible assumption
    | (intro x; first | (refine keeps_cut K x ?_ ?_; rotate_left; intro hx; (try clear_value x); rotate_right; unfold x) | (refine keeps_cut K x.2 ?_ ?_; rotate_left; intro hx; (try clear_value x); rotate_right; unfold x) | clear_value x | skip)
    | lift_lets
    | with_reducible apply State.noteNv_keeps
    | (refine State.effect_keeps (by with_reducible assumption) ?_)
    | with_reducible apply State.setOv_keeps
    | split
    | dsimp only
    | (refine keeps_of_snd (by with_reducible assumption) ?_)
    | (refine keeps_of_fst (by with_reducible assumption) ?_)
    | dsimp only

theorem State.writeObj_keeps {K : Kept} (hm : K.stored = none) {s a1 a2 a3 a4} (h : keeps K s) :
    keeps K (State.writeObj s a1 a2 a3 a4).2 := by
  unfold State.writeObj
  repeat' first
    | with_reducible assumption
    | (intro x; first | (refine keeps_cut K x ?_ ?_; rotate_left; intro hx; (try clear_value x); rotate_right; unfold x) | (refine keeps_cut K x.2 ?_ ?_; rotate_left; intro hx; (try clear_value x); rotate_right; unfold x) | clear_value x | skip)
    | lift_lets
    | with_reducible apply State.writeNum_keeps
    | with_reducible apply State.writeOct_keeps
    | with_reducible apply State.writeCmd_keeps hm
    | with_reducible apply State.wake_keeps
    | with_reducible apply keeps_ite
    | with_reducible apply keeps_ite_snd
    | split
    | dsimp only
    | (refine keeps_of_snd (by with_reducible assumption) ?_)
    | (refine keeps_of_fst (by with_reducible assumption) ?_)
    | dsimp only

theorem State.int8Write_keeps {K : Kept} {s a1 a2} (h : keeps K s) :
    keeps K (State.int8Write s a1 a2) := by
  unfold State.int8Write
  repeat' first
    | with_reducible assumption
    | with_reducible apply State.setOv_keeps
    | with_reducible apply keeps_ite
    | split

theorem State.leaseExpire_keeps {K : Kept} {s} (h : keeps K s) :
    keeps K (State.leaseExpire s) := by
  unfold State.leaseExpire
  repeat' first
    | with_reducible assumption
    | with_reducible apply State.setOv_keeps

theorem State.llAck_keeps {K : Kept} {s a1 a2} (h : keeps K s) :
    keeps K (State.llAck s a1 a2) := by
  unfold State.llAck
  repeat' first
    | with_reducible assumption
    | (intro x; first | (refine keeps_cut K x ?_ ?_; rotate_left; intro hx; (try clear_value x); rotate_right; unfold x) | clear_value x | skip)
    | lift_lets
    | with_reducible apply State.setLlSess_keeps
    | with_reducible apply keeps_ite
    | split

theorem State.writeBlock_keeps {K : Kept} (hm : K.stored = none) {s a1 a2 a3} (h : keeps K s) :
    keeps K (State.writeBlock s a1 a2 a3).2 := by
  unfold State.writeBlock
  repeat' first
    | with_reducible assumption
    | (intro x; first | (refine keeps_cut K x ?_ ?_; rotate_left; intro hx; (try clear_value x); rotate_right; unfold x) | (refine keeps_cut K x.2 ?_ ?_; rotate_left; intro hx; (try clear_value x); rotate_right; unfold x) | clear_value x | skip)
    | lift_lets
    | with_reducible apply State.writeObj_keeps hm
    | with_reducible apply State.setLlSess_keeps
    | with_reducible apply keeps_ite
    | with_reducible apply keeps_ite_snd
    | split
    | dsimp only
    | (refine keeps_of_snd (by with_reducible assumption) ?_)
    | (refine keeps_of_fst (by with_reducible assumption) ?_)
    | dsimp only

theorem State.readBlock_keeps {K : Kept} {s a1 a2 a3} (h : keeps K s) :
    keeps K (State.readBlock s a1 a2 a3).2.2 := by
  unfold State.readBlock
  repeat' first
    | with_reducible assumption
    | (intro x; first | (refine keeps_cut K x ?_ ?_; rotate_left; intro hx; (try clear_value x); rotate_right; unfold x) | (refine keeps_cut K x.2 ?_ ?_; rotate_left; intro hx; (try clear_value x); rotate_right; unfold x) | (refine keeps_cut K x.2.2 ?_ ?_; rotate_left; intro hx; (try clear_value x); rotate_right; unfold x) | clear_value x | skip)
    | lift_lets
    | with_reducible apply State.setLlSess_keeps
    | with_reducible apply State.readObj_keeps
    | with_reducible apply keeps_ite
    | split
    | dsimp only
    | (refine keeps_of_snd (by with_reducible assumption) ?_)
    | (refine keeps_of_fst (by with_reducible assumption) ?_)
    | dsimp only

theorem State.unsubscribe_keeps {K : Kept} {s a1 a2} (h : keeps K s) :
    keeps K (State.unsubscribe s a1 a2) := by
  unfold State.unsubscribe
  repeat' first
    | with_reducible assumption
    | (intro x; first | (refine keeps_cut K x ?_ ?_; rotate_left; intro hx; (try clear_value x); rotate_right; unfold x) | clear_value x | skip)
    | lift_lets
    | with_reducible apply State.setLlSess_keeps

theorem State.subscribe_keeps {K : Kept} {s a1 a2 a3} (h : keeps K s) :
    keeps K (State.subscribe s a1 a2 a3).2 := by
  unfold State.subscribe
  repeat' first
    | with_reducible assumption
    | (intro x; first | (refine keeps_cut K x ?_ ?_; rotate_left; intro hx; (try clear_value x); rotate_right; unfold x) | (refine keeps_cut K x.2 ?_ ?_; rotate_left; intro hx; (try clear_value x); rotate_right; unfold x) | clear_value x | skip)
    | lift_lets
    | with_reducible apply State.setLlSess_keeps
    | with_reducible apply keeps_ite
    | with_reducible apply keeps_ite_snd
    | split
    | dsimp only

theorem State.item_keeps {K : Kept} (hm : K.stored = none) {s a1 a2 a3} (h : keeps K s) :
    keeps K (State.item s a1 a2 a3).2.2 := by
  unfold State.item
  repeat' first
    | with_reducible assumption
    | (intro x; first | (refine keeps_cut K x ?_ ?_; rotate_left; intro hx; (try clear_value x); rotate_right; unfold x) | (refine keeps_cut K x.2 ?_ ?_; rotate_left; intro hx; (try clear_value x); rotate_right; unfold x) | (refine keeps_cut K x.2.2 ?_ ?_; rotate_left; intro hx; (try clear_value x); rotate_right; unfold x) | clear_value x | skip)
    | lift_lets
    | with_reducible apply State.subscribe_keeps
    | with_reducible apply State.unsubscribe_keeps
    | with_reducible apply State.readBlock_keeps
    | with_reducible apply State.writeBlock_keeps hm
    | with_reducible apply State.writeObj_keeps hm
    | with_reducible apply State.readObj_keeps
    | with_reducible apply keeps_ite
    | split
    | dsimp only
    | (refine keeps_of_snd (by with_reducible assumption) ?_)
    | (refine keeps_of_fst (by with_reducible assumption) ?_)
    | dsimp only

theorem State.items_keeps {K : Kept} (hm : K.stored = none) {s a1 a2 a3} (h : keeps K s) :
    keeps K (State.items s a1 a2 a3).2 := by
  induction a3 generalizing s a1 a2 with
  | nil =>
    first | rw [State.items] | unfold State.items
    repeat' first
      | with_reducible assumption
      | (intro x; first | (refine keeps_cut K x ?_ ?_; rotate_left; intro hx; (try clear_value x); rotate_right; unfold x) | (refine keeps_cut K x.2 ?_ ?_; rotate_left; intro hx; (try clear_value x); rotate_right; unfold x) | (refine keeps_cut K x.2.2 ?_ ?_; rotate_left; intro hx; (try clear_value x); rotate_right; unfold x) | clear_value x | skip)
      | lift_lets
      | with_reducible apply State.item_keeps hm
      | dsimp only
  | cons y t ih =>
    first | rw [State.items] | unfold State.items
    repeat' first
      | with_reducible assumption
      | (intro x; first | (refine keeps_cut K x ?_ ?_; rotate_left; intro hx; (try clear_value x); rotate_right; unfold x) | (refine keeps_cut K x.2 ?_ ?_; rotate_left; intro hx; (try clear_value x); rotate_right; unfold x) | (refine keeps_cut K x.2.2 ?_ ?_; rotate_left; intro hx; (try clear_value x); rotate_right; unfold x) | clear_value x | skip)
      | lift_lets
      | with_reducible apply ih
      | with_reducible apply State.item_keeps hm
      | dsimp only

theorem State.carry_keeps {K : Kept} (hm : K.stored = none) {s a1 a2 a3 a4 a5} (h : keeps K s) :
    keeps K (State.carry s a1 a2 a3 a4 a5).2 := by
  unfold State.carry
  repeat' first
    | with_reducible assumption
    | (intro x; first | (refine keeps_cut K x ?_ ?_; rotate_left; intro hx; (try clear_value x); rotate_right; unfold x) | (refine keeps_cut K x.2 ?_ ?_; rotate_left; intro hx; (try clear_value x); rotate_right; unfold x) | clear_value x | skip)
    | lift_lets
    | with_reducible apply State.items_keeps hm
    | with_reducible apply State.renewLease_keeps
    | with_reducible apply keeps_ite
    | with_reducible apply keeps_ite_snd
    | split
    | dsimp only

theorem State.llmAnswer_keeps {K : Kept} {s a1 a2 a3 a4} (h : keeps K s) :
    keeps K (State.llmAnswer s a1 a2 a3 a4) := by
  unfold State.llmAnswer
  repeat' first
    | with_reducible assumption
    | with_reducible apply State.send_keeps

theorem State.boxAnswer_keeps {K : Kept} {s a1 a2} (h : keeps K s) :
    keeps K (State.boxAnswer s a1 a2) := by
  unfold State.boxAnswer
  repeat' first
    | with_reducible assumption
    | (intro x; first | (refine keeps_cut K x ?_ ?_; rotate_left; intro hx; (try clear_value x); rotate_right; unfold x) | clear_value x | skip)
    | lift_lets
    | with_reducible apply State.emit_keeps
    | simp only [keeps_upd_eq]

theorem State.llpSend_keeps {K : Kept} {s a1 a2 a3 a4} (h : keeps K s) :
    keeps K (State.llpSend s a1 a2 a3 a4) := by
  unfold State.llpSend
  repeat' first
    | with_reducible assumption
    | (intro x; first | (refine keeps_cut K x ?_ ?_; rotate_left; intro hx; (try clear_value x); rotate_right; unfold x) | clear_value x | skip)
    | lift_lets
    | with_reducible apply State.setLlSess_keeps
    | with_reducible apply State.emit_keeps
    | with_reducible apply keeps_ite
    | split

theorem State.answerTo_keeps {K : Kept} {s a1 a2 a3 a4} (h : keeps K s) :
    keeps K (State.answerTo s a1 a2 a3 a4) := by
  unfold State.answerTo
  repeat' first
    | with_reducible assumption
    | with_reducible apply State.llpSend_keeps
    | with_reducible apply State.boxAnswer_keeps
    | with_reducible apply State.llmAnswer_keeps
    | with_reducible apply keeps_ite
    | split

theorem State.serveMsg_keeps {K : Kept} (hm : K.stored = none) {s a1 a2 a3 a4 a5 a6} (h : keeps K s) :
    keeps K (State.serveMsg s a1 a2 a3 a4 a5 a6) := by
  unfold State.serveMsg
  repeat' first
    | with_reducible assumption
    | (intro x; first | (refine keeps_cut K x ?_ ?_; rotate_left; intro hx; (try clear_value x); rotate_right; unfold x) | (refine keeps_cut K x.2 ?_ ?_; rotate_left; intro hx; (try clear_value x); rotate_right; unfold x) | clear_value x | skip)
    | lift_lets
    | with_reducible apply State.answerTo_keeps
    | with_reducible apply State.carry_keeps hm
    | with_reducible apply keeps_ite
    | split
    | simp only [keeps_upd_eq]

theorem State.message_keeps {K : Kept} (hm : K.stored = none) {s a1 a2 a3 a4 a5} (h : keeps K s) :
    keeps K (State.message s a1 a2 a3 a4 a5) := by
  unfold State.message
  repeat' first
    | with_reducible assumption
    | with_reducible apply State.serveMsg_keeps hm
    | with_reducible apply State.answerTo_keeps
    | with_reducible apply State.llAck_keeps
    | split

theorem State.datagram_keeps {K : Kept} (hm : K.stored = none) {s a1 a2 a3 a4 a5 a6 a7} (h : keeps K s) :
    keeps K (State.datagram s a1 a2 a3 a4 a5 a6 a7) := by
  unfold State.datagram
  repeat' first
    | with_reducible assumption
    | (intro x; first | (refine keeps_cut K x ?_ ?_; rotate_left; intro hx; (try clear_value x); rotate_right; unfold x) | clear_value x | skip)
    | lift_lets
    | with_reducible apply State.message_keeps hm
    | with_reducible apply State.llpSend_keeps
    | with_reducible apply State.setLlSess_keeps
    | with_reducible apply State.bump_keeps
    | with_reducible apply keeps_ite
    | split
    | simp only [keeps_upd_eq]
    | dsimp only

theorem State.dropHs_keeps {K : Kept} {s a1} (h : keeps K s) :
    keeps K (State.dropHs s a1) := by
  unfold State.dropHs
  repeat' first
    | with_reducible assumption
    | (intro x; first | (refine keeps_cut K x ?_ ?_; rotate_left; intro hx; (try clear_value x); rotate_right; unfold x) | clear_value x | skip)
    | lift_lets
    | simp only [keeps_upd_eq]

theorem State.ssUp_keeps {K : Kept} {s a1 a2 a3} (h : keeps K s) :
    keeps K (State.ssUp s a1 a2 a3) := by
  unfold State.ssUp
  repeat' first
    | with_reducible assumption
    | (intro x; first | (refine keeps_cut K x ?_ ?_; rotate_left; intro hx; (try clear_value x); rotate_right; unfold x) | (refine keeps_cut K x.2 ?_ ?_; rotate_left; intro hx; (try clear_value x); rotate_right; unfold x) | clear_value x | skip)
    | lift_lets
    | with_reducible apply State.dropHs_keeps
    | with_reducible apply State.llpSend_keeps
    | with_reducible apply State.setLlSess_keeps
    | with_reducible apply State.newKey_keeps
    | with_reducible apply State.setOct_keeps
    | with_reducible apply State.freeBelow_keeps
    | with_reducible apply State.setOv_keeps
    | with_reducible apply keeps_ite
    | split
    | simp only [keeps_upd_eq]

theorem State.nvDone_keeps {K : Kept} {s} (h : keeps K s) :
    keeps K (State.nvDone s) := by
  unfold State.nvDone
  repeat' first
    | with_reducible assumption
    | (intro x; first | (refine keeps_cut K x ?_ ?_; rotate_left; intro hx; (try clear_value x); rotate_right; unfold x) | clear_value x | skip)
    | lift_lets
    | simp only [keeps_upd_eq]

theorem State.llpHs_keeps {K : Kept} {s a1 a2 a3} (h : keeps K s) :
    keeps K (State.llpHs s a1 a2 a3) := by
  unfold State.llpHs
  repeat' first
    | with_reducible assumption
    | with_reducible apply State.emit_keeps

theorem State.hsTimeout_keeps {K : Kept} {s a1} (h : keeps K s) :
    keeps K (State.hsTimeout s a1) := by
  unfold State.hsTimeout
  repeat' first
    | with_reducible assumption
    | with_reducible apply State.dropHs_keeps
    | with_reducible apply State.bump_keeps
    | with_reducible apply keeps_ite
    | split

theorem State.serveWait_keeps {K : Kept} (hm : K.stored = none) {s a1} (h : keeps K s) :
    keeps K (State.serveWait s a1) := by
  unfold State.serveWait
  repeat' first
    | with_reducible assumption
    | with_reducible apply State.serveMsg_keeps hm
    | with_reducible apply State.carry_keeps hm
    | with_reducible apply keeps_ite
    | split

theorem State.serveWaits_keeps {K : Kept} (hm : K.stored = none) {s} (h : keeps K s) :
    keeps K (State.serveWaits s) := by
  unfold State.serveWaits
  repeat' first
    | with_reducible assumption
    | (intro x; first | (refine keeps_cut K x ?_ ?_; rotate_left; intro hx; (try clear_value x); rotate_right; unfold x) | clear_value x | skip)
    | lift_lets
    | with_reducible apply State.serveWait_keeps hm
    | with_reducible apply keeps_ite
    | with_reducible apply keeps_foldl
    | with_reducible apply keeps_foldl_fst
    | with_reducible apply keeps_foldl_snd
    | split
    | simp only [keeps_upd_eq]

theorem State.sendEvent_keeps {K : Kept} {s a1 a2 a3 a4} (h : keeps K s) :
    keeps K (State.sendEvent s a1 a2 a3 a4) := by
  unfold State.sendEvent
  repeat' first
    | with_reducible assumption
    | (intro x; first | (refine keeps_cut K x ?_ ?_; rotate_left; intro hx; (try clear_value x); rotate_right; unfold x) | clear_value x | skip)
    | lift_lets
    | with_reducible apply State.llpSend_keeps
    | with_reducible apply State.setLlSess_keeps

theorem State.resendEvent_keeps {K : Kept} {s a1 a2} (h : keeps K s) :
    keeps K (State.resendEvent s a1 a2) := by
  unfold State.resendEvent
  repeat' first
    | with_reducible assumption
    | (intro x; first | (refine keeps_cut K x ?_ ?_; rotate_left; intro hx; (try clear_value x); rotate_right; unfold x) | clear_value x | skip)
    | lift_lets
    | with_reducible apply State.sendEvent_keeps
    | with_reducible apply keeps_ite
    | split
    | dsimp only

theorem State.setBox_keeps {K : Kept} {s a1 a2} (h : keeps K s) :
    keeps K (State.setBox s a1 a2) := by
  unfold State.setBox
  repeat' first
    | with_reducible assumption
    | (intro x; first | (refine keeps_cut K x ?_ ?_; rotate_left; intro hx; (try clear_value x); rotate_right; unfold x) | clear_value x | skip)
    | lift_lets
    | simp only [keeps_upd_eq]

theorem State.boxCmd_keeps {K : Kept} (hm : K.stored = none) {s a1 a2 a3} (h : keeps K s) :
    keeps K (State.boxCmd s a1 a2 a3) := by
  unfold State.boxCmd
  repeat' first
    | with_reducible assumption
    | (intro x; first | (refine keeps_cut K x ?_ ?_; rotate_left; intro hx; (try clear_value x); rotate_right; unfold x) | clear_value x | skip)
    | lift_lets
    | with_reducible apply State.setBox_keeps
    | with_reducible apply State.message_keeps hm
    | with_reducible apply State.boxAnswer_keeps
    | with_reducible apply keeps_ite
    | split

theorem State.checkSub_keeps {K : Kept} {s a1 a2} (h : keeps K s) :
    keeps K (State.checkSub s a1 a2) := by
  unfold State.checkSub
  repeat' first
    | with_reducible assumption
    | (intro x; first | (refine keeps_cut K x ?_ ?_; rotate_left; intro hx; (try clear_value x); rotate_right; unfold x) | clear_value x | skip)
    | lift_lets
    | with_reducible apply State.sendEvent_keeps
    | with_reducible apply State.setLlSess_keeps
    | with_reducible apply keeps_ite
    | split
    | dsimp only

theorem State.checkSubs_keeps {K : Kept} {s a1} (h : keeps K s) :
    keeps K (State.checkSubs s a1) := by
  unfold State.checkSubs
  repeat' first
    | with_reducible assumption
    | intro x
    | with_reducible apply State.checkSub_keeps
    | with_reducible apply keeps_ite
    | with_reducible apply keeps_foldl
    | with_reducible apply keeps_foldl_fst
    | with_reducible apply keeps_foldl_snd
    | split

theorem State.boxWrite_keeps {K : Kept} {s a1 a2} (h : keeps K s) :
    keeps K (State.boxWrite s a1 a2) := by
  unfold State.boxWrite
  repeat' first
    | with_reducible assumption
    | (intro x; first | (refine keeps_cut K x ?_ ?_; rotate_left; intro hx; (try clear_value x); rotate_right; unfold x) | clear_value x | skip)
    | lift_lets
    | with_reducible apply State.setBox_keeps
    | with_reducible apply keeps_ite
    | split

theorem State.llm_keeps {K : Kept} (hm : K.stored = none) {s a1 a2 a3 a4 a5 a6} (h : keeps K s) :
    keeps K (State.llm s a1 a2 a3 a4 a5 a6) := by
  unfold State.llm
  repeat' first
    | with_reducible assumption
    | (intro x; first | (refine keeps_cut K x ?_ ?_; rotate_left; intro hx; (try clear_value x); rotate_right; unfold x) | clear_value x | skip)
    | lift_lets
    | with_reducible apply State.message_keeps hm
    | with_reducible apply State.llmAnswer_keeps
    | with_reducible apply keeps_ite
    | split

theorem State.llpRefuse_keeps {K : Kept} {s a1 a2} (h : keeps K s) :
    keeps K (State.llpRefuse s a1 a2) := by
  unfold State.llpRefuse
  repeat' first
    | with_reducible assumption
    | with_reducible apply State.dropHs_keeps
    | with_reducible apply State.emit_keeps
    | with_reducible apply State.bump_keeps

theorem State.setHs_keeps {K : Kept} {s a1 a2} (h : keeps K s) :
    keeps K (State.setHs s a1 a2) := by
  unfold State.setHs
  repeat' first
    | with_reducible assumption
    | (intro x; first | (refine keeps_cut K x ?_ ?_; rotate_left; intro hx; (try clear_value x); rotate_right; unfold x) | clear_value x | skip)
    | lift_lets
    | simp only [keeps_upd_eq]

theorem State.ssFinish_keeps {K : Kept} {s a1 a2 a3} (h : keeps K s) :
    keeps K (State.ssFinish s a1 a2 a3) := by
  unfold State.ssFinish
  repeat' first
    | with_reducible assumption
    | (intro x; first | (refine keeps_cut K x ?_ ?_; rotate_left; intro hx; (try clear_value x); rotate_right; unfold x) | clear_value x | skip)
    | lift_lets
    | with_reducible apply State.llpRefuse_keeps
    | with_reducible apply State.ssUp_keeps
    | with_reducible apply keeps_ite
    | split
    | dsimp only

theorem State.ssHello_keeps {K : Kept} {s a1 a2} (h : keeps K s) :
    keeps K (State.ssHello s a1 a2) := by
  unfold State.ssHello
  repeat' first
    | with_reducible assumption
    | (intro x; first | (refine keeps_cut K x ?_ ?_; rotate_left; intro hx; (try clear_value x); rotate_right; unfold x) | (refine keeps_cut K x.2 ?_ ?_; rotate_left; intro hx; (try clear_value x); rotate_right; unfold x) | clear_value x | skip)
    | lift_lets
    | with_reducible apply State.setHs_keeps
    | with_reducible apply State.llpRefuse_keeps
    | with_reducible apply State.llpHs_keeps
    | with_reducible apply State.freeBytes_keeps
    | with_reducible apply State.freeBelow_keeps
    | with_reducible apply keeps_ite
    | split
    | dsimp only
    | (refine keeps_of_snd (by with_reducible assumption) ?_)
    | (refine keeps_of_fst (by with_reducible assumption) ?_)

theorem State.llmArrive_keeps {K : Kept} (hm : K.stored = none) {s a1 a2 a3 a4 a5} (h : keeps K s) :
    keeps K (State.llmArrive s a1 a2 a3 a4 a5) := by
  unfold State.llmArrive
  repeat' first
    | with_reducible assumption
    | (intro x; first | (refine keeps_cut K x ?_ ?_; rotate_left; intro hx; (try clear_value x); rotate_right; unfold x) | clear_value x | skip)
    | lift_lets
    | with_reducible apply State.llm_keeps hm
    | with_reducible apply State.llmAnswer_keeps
    | with_reducible apply keeps_ite
    | split

theorem State.takeNak_keeps {K : Kept} {s a1 a2} (h : keeps K s) :
    keeps K (State.takeNak s a1 a2) := by
  unfold State.takeNak
  repeat' first
    | with_reducible assumption
    | (intro x; first | (refine keeps_cut K x ?_ ?_; rotate_left; intro hx; (try clear_value x); rotate_right; unfold x) | clear_value x | skip)
    | lift_lets
    | with_reducible apply State.setLport_keeps
    | with_reducible apply State.bump_keeps
    | with_reducible apply keeps_ite
    | split

theorem State.takeAck_keeps {K : Kept} {s a1 a2 a3} (h : keeps K s) :
    keeps K (State.takeAck s a1 a2 a3) := by
  unfold State.takeAck
  repeat' first
    | with_reducible assumption
    | (intro x; first | (refine keeps_cut K x ?_ ?_; rotate_left; intro hx; (try clear_value x); rotate_right; unfold x) | clear_value x | skip)
    | lift_lets
    | with_reducible apply State.startRetrain_keeps
    | with_reducible apply State.setLport_keeps
    | with_reducible apply State.bump_keeps
    | with_reducible apply keeps_ite
    | split

theorem State.badKind_keeps {K : Kept} {s a1 a2 a3} (h : keeps K s) :
    keeps K (State.badKind s a1 a2 a3) := by
  unfold State.badKind
  repeat' first
    | with_reducible assumption
    | (intro x; first | (refine keeps_cut K x ?_ ?_; rotate_left; intro hx; (try clear_value x); rotate_right; unfold x) | clear_value x | skip)
    | lift_lets
    | with_reducible apply State.finish_keeps
    | with_reducible apply State.violation_keeps
    | simp only [keeps_upd_eq]

theorem State.reqIn_keeps {K : Kept} {s a1 a2 a3} (h : keeps K s) :
    keeps K (State.reqIn s a1 a2 a3) := by
  unfold State.reqIn
  repeat' first
    | with_reducible assumption
    | (intro x; first | (refine keeps_cut K x ?_ ?_; rotate_left; intro hx; (try clear_value x); rotate_right; unfold x) | clear_value x | skip)
    | lift_lets
    | with_reducible apply State.badKind_keeps
    | with_reducible apply State.receive_keeps
    | with_reducible apply State.freeRx_keeps
    | with_reducible apply keeps_ite
    | split
    | dsimp only

theorem State.strange_keeps {K : Kept} {s a1 a2} (h : keeps K s) :
    keeps K (State.strange s a1 a2) := by
  unfold State.strange
  repeat' first
    | with_reducible assumption
    | with_reducible apply State.violation_keeps
    | split

theorem State.rspIn_keeps {K : Kept} (hm : K.stored = none) {s a1 a2 a3} (h : keeps K s) :
    keeps K (State.rspIn s a1 a2 a3) := by
  unfold State.rspIn
  repeat' first
    | with_reducible assumption
    | (intro x; first | (refine keeps_cut K x ?_ ?_; rotate_left; intro hx; (try clear_value x); rotate_right; unfold x) | clear_value x | skip)
    | lift_lets
    | with_reducible apply State.strange_keeps
    | with_reducible apply State.censusReport_keeps
    | with_reducible apply State.gntAck_keeps hm
    | with_reducible apply State.respond_keeps hm
    | with_reducible apply keeps_ite
    | split
    | dsimp only

theorem State.mgtIn_keeps {K : Kept} (hm : K.stored = none) {s a1 a2 a3 a4} (h : keeps K s) :
    keeps K (State.mgtIn s a1 a2 a3 a4) := by
  unfold State.mgtIn
  repeat' first
    | with_reducible assumption
    | (intro x; first | (refine keeps_cut K x ?_ ?_; rotate_left; intro hx; (try clear_value x); rotate_right; unfold x) | clear_value x | skip)
    | lift_lets
    | with_reducible apply State.strange_keeps
    | with_reducible apply State.llmArrive_keeps hm
    | with_reducible apply State.segArrive_keeps hm
    | with_reducible apply State.linkSync_keeps hm
    | with_reducible apply keeps_ite
    | split

theorem State.messageIn_keeps {K : Kept} (hm : K.stored = none) {s a1 a2 a3 a4 a5 a6} (h : keeps K s) :
    keeps K (State.messageIn s a1 a2 a3 a4 a5 a6) := by
  unfold State.messageIn
  repeat' first
    | with_reducible assumption
    | (intro x; first | (refine keeps_cut K x ?_ ?_; rotate_left; intro hx; (try clear_value x); rotate_right; unfold x) | (refine keeps_cutf K x ?_ ?_; rotate_left; intro hf; (try clear_value x); rotate_right; unfold x) | clear_value x | skip)
    | lift_lets
    | with_reducible apply hf
    | with_reducible apply State.mgtIn_keeps hm
    | with_reducible apply State.rspIn_keeps hm
    | with_reducible apply State.strange_keeps
    | with_reducible apply State.reqIn_keeps
    | with_reducible apply State.blkArrive_keeps hm
    | with_reducible apply State.freeRx_keeps
    | with_reducible apply State.bump_keeps
    | with_reducible apply keeps_ite
    | split
    | dsimp only

theorem State.takeSlot_keeps {K : Kept} (hm : K.stored = none) {s a1 a2 a3 a4 a5} (h : keeps K s) :
    keeps K (State.takeSlot s a1 a2 a3 a4 a5) := by
  unfold State.takeSlot
  repeat' first
    | with_reducible assumption
    | (intro x; first | (refine keeps_cut K x ?_ ?_; rotate_left; intro hx; (try clear_value x); rotate_right; unfold x) | clear_value x | skip)
    | lift_lets
    | with_reducible apply State.messageIn_keeps hm
    | with_reducible apply State.setLport_keeps
    | with_reducible apply keeps_ite
    | split
    | dsimp only

theorem State.askNak_keeps {K : Kept} {s a1 a2} (h : keeps K s) :
    keeps K (State.askNak s a1 a2) := by
  unfold State.askNak
  repeat' first
    | with_reducible assumption
    | (intro x; first | (refine keeps_cut K x ?_ ?_; rotate_left; intro hx; (try clear_value x); rotate_right; unfold x) | clear_value x | skip)
    | lift_lets
    | with_reducible apply State.setLport_keeps
    | with_reducible apply keeps_ite
    | split
    | dsimp only

theorem State.takeBeacon_keeps {K : Kept} {s a1 a2 a3 a4} (h : keeps K s) :
    keeps K (State.takeBeacon s a1 a2 a3 a4) := by
  unfold State.takeBeacon
  repeat' first
    | with_reducible assumption
    | (intro x; first | (refine keeps_cut K x ?_ ?_; rotate_left; intro hx; (try clear_value x); rotate_right; unfold x) | clear_value x | skip)
    | lift_lets
    | with_reducible apply State.startRetrain_keeps
    | with_reducible apply State.setLport_keeps
    | with_reducible apply State.bump_keeps
    | with_reducible apply keeps_ite
    | split

theorem State.takeControl_keeps {K : Kept} {s a1 a2 a3} (h : keeps K s) :
    keeps K (State.takeControl s a1 a2 a3) := by
  unfold State.takeControl
  repeat' first
    | with_reducible assumption
    | (intro x; first | (refine keeps_cut K x ?_ ?_; rotate_left; intro hx; (try clear_value x); rotate_right; unfold x) | clear_value x | skip)
    | lift_lets
    | with_reducible apply State.takeBeacon_keeps
    | with_reducible apply State.takeNak_keeps
    | with_reducible apply State.startRetrain_keeps
    | with_reducible apply State.setLport_keeps
    | with_reducible apply keeps_ite
    | with_reducible apply keeps_foldl
    | with_reducible apply keeps_foldl_fst
    | with_reducible apply keeps_foldl_snd
    | split

theorem State.deliverFlit_keeps {K : Kept} (hm : K.stored = none) {s a1 a2 a3 a4} (h : keeps K s) :
    keeps K (State.deliverFlit s a1 a2 a3 a4).2 := by
  unfold State.deliverFlit
  repeat' first
    | with_reducible assumption
    | (intro x; first | (refine keeps_cut K x ?_ ?_; rotate_left; intro hx; (try clear_value x); rotate_right; unfold x) | (refine keeps_cut K x.2 ?_ ?_; rotate_left; intro hx; (try clear_value x); rotate_right; unfold x) | clear_value x | skip)
    | lift_lets
    | with_reducible apply State.takeControl_keeps
    | with_reducible apply State.askNak_keeps
    | with_reducible apply State.takeSlot_keeps hm
    | with_reducible apply State.startRetrain_keeps
    | with_reducible apply State.setLport_keeps
    | with_reducible apply State.bump_keeps
    | with_reducible apply keeps_ite
    | with_reducible apply keeps_ite_snd
    | with_reducible apply keeps_foldl
    | with_reducible apply keeps_foldl_fst
    | with_reducible apply keeps_foldl_snd
    | split
    | dsimp only
    | (refine keeps_of_snd (by with_reducible assumption) ?_)
    | (refine keeps_of_fst (by with_reducible assumption) ?_)
    | dsimp only

theorem State.countRx_keeps {K : Kept} {s a1 a2} (h : keeps K s) :
    keeps K (State.countRx s a1 a2) := by
  unfold State.countRx
  repeat' first
    | with_reducible assumption
    | (intro x; first | (refine keeps_cut K x ?_ ?_; rotate_left; intro hx; (try clear_value x); rotate_right; unfold x) | clear_value x | skip)
    | lift_lets
    | with_reducible apply State.setLport_keeps
    | with_reducible apply keeps_ite
    | split

theorem State.drainReorder_keeps {K : Kept} (hm : K.stored = none) {s a1 a2 a3 a4} (h : keeps K s) :
    keeps K (State.drainReorder s a1 a2 a3 a4) := by
  induction a4 generalizing s a1 a2 a3 with
  | zero =>
    first | rw [State.drainReorder] | unfold State.drainReorder
    repeat' first
      | with_reducible assumption
      | (intro x; first | (refine keeps_cut K x ?_ ?_; rotate_left; intro hx; (try clear_value x); rotate_right; unfold x) | (refine keeps_cut K x.2 ?_ ?_; rotate_left; intro hx; (try clear_value x); rotate_right; unfold x) | clear_value x | skip)
      | lift_lets
      | with_reducible apply State.deliverFlit_keeps hm
      | with_reducible apply State.setLport_keeps
      | with_reducible apply keeps_ite
      | split
      | dsimp only
      | (refine keeps_of_snd (by with_reducible assumption) ?_)
      | (refine keeps_of_fst (by with_reducible assumption) ?_)
  | succ n ih =>
    first | rw [State.drainReorder] | unfold State.drainReorder
    repeat' first
      | with_reducible assumption
      | (intro x; first | (refine keeps_cut K x ?_ ?_; rotate_left; intro hx; (try clear_value x); rotate_right; unfold x) | (refine keeps_cut K x.2 ?_ ?_; rotate_left; intro hx; (try clear_value x); rotate_right; unfold x) | clear_value x | skip)
      | lift_lets
      | with_reducible apply ih
      | with_reducible apply State.deliverFlit_keeps hm
      | with_reducible apply State.setLport_keeps
      | with_reducible apply keeps_ite
      | split
      | dsimp only
      | (refine keeps_of_snd (by with_reducible assumption) ?_)
      | (refine keeps_of_fst (by with_reducible assumption) ?_)

theorem State.sequenced_keeps {K : Kept} (hm : K.stored = none) {s a1 a2 a3 a4} (h : keeps K s) :
    keeps K (State.sequenced s a1 a2 a3 a4) := by
  unfold State.sequenced
  repeat' first
    | with_reducible assumption
    | (intro x; first | (refine keeps_cut K x ?_ ?_; rotate_left; intro hx; (try clear_value x); rotate_right; unfold x) | (refine keeps_cut K x.2 ?_ ?_; rotate_left; intro hx; (try clear_value x); rotate_right; unfold x) | clear_value x | skip)
    | lift_lets
    | with_reducible apply State.drainReorder_keeps hm
    | with_reducible apply State.deliverFlit_keeps hm
    | with_reducible apply State.askNak_keeps
    | with_reducible apply State.setLport_keeps
    | with_reducible apply State.bump_keeps
    | with_reducible apply keeps_ite
    | split

theorem State.flitIn_keeps {K : Kept} (hm : K.stored = none) {s a1 a2 a3 a4} (h : keeps K s) :
    keeps K (State.flitIn s a1 a2 a3 a4) := by
  unfold State.flitIn
  repeat' first
    | with_reducible assumption
    | (intro x; first | (refine keeps_cut K x ?_ ?_; rotate_left; intro hx; (try clear_value x); rotate_right; unfold x) | clear_value x | skip)
    | lift_lets
    | with_reducible apply State.sequenced_keeps hm
    | with_reducible apply State.countRx_keeps
    | with_reducible apply State.askNak_keeps
    | with_reducible apply State.takeAck_keeps
    | with_reducible apply State.startRetrain_keeps
    | with_reducible apply State.tagFail_keeps hm
    | with_reducible apply State.setSession_keeps
    | with_reducible apply State.bump_keeps
    | with_reducible apply keeps_ite
    | split

theorem State.pcieTrained_keeps {K : Kept} {s a1 a2 a3 a4} (h : keeps K s) :
    keeps K (State.pcieTrained s a1 a2 a3 a4) := by
  unfold State.pcieTrained
  repeat' first
    | with_reducible assumption
    | with_reducible apply State.pcieDown_keeps
    | with_reducible apply State.bump_keeps
    | with_reducible apply State.setOv_keeps
    | with_reducible apply keeps_ite
    | split

theorem State.bootDone_keeps {K : Kept} (hm : K.stored = none) {s a1 a2 a3 a4} (h : keeps K s) :
    keeps K (State.bootDone s a1 a2 a3 a4) := by
  unfold State.bootDone
  repeat' first
    | with_reducible assumption
    | with_reducible apply State.serveWaits_keeps hm
    | with_reducible apply State.keeperBoot_keeps

end Sys2Proof.Machine
end

