-- ==== Sys2Proof/Tests/Slice0.lean ====
section
/-! SUPPORT. Sys2Proof/Tests/Slice0.lean: tests of the model. Well-formed and ill-formed commands, one for each check of WellFormed; witnesses that
meet the hypotheses of each statement of Certificates/Slice0/Obligations.lean, clause by clause and at the ends of ranges; and the values of the
spec's worked examples. Where a statement names a state by an equation (`u = …`), the witness has it written out. -/

set_option maxRecDepth 4000

open Sys2Proof Sys2Proof.Machine

namespace Sys2Proof.Tests


/-- Base operands: a header, a BLK message, a flit, a training frame, a vouch and an item with every field in range. -/
def h0 : Hdr := ⟨1, 0, 0, 0, 0, 0, 0, 0, 0, 0, 0, 0, false, 0⟩

def b0 : Blk := ⟨0, 0, 0, 0, 0, 0, 0, 0, 0, 0, []⟩

def f0 : Flit := ⟨0, 0, 0, 0, 0, 0, false, false, List.replicate 9 (zeros 32), 0, true, true, 0⟩

def t0 : Train := ⟨1, 0, 8, 0, 0, false, [], 0⟩

def v0 : Vouch := ⟨true, true, true, true⟩

def i0 : LlItem := ⟨0, 0, 0, 0, 0, []⟩

/-- One field at a time out of its range (R97, R313, R489, R491, R512, R664). -/
theorem test_ill_formed_fields :
    ([{ h0 with agt := 4096 }, { h0 with tag := 4096 }, { h0 with can := 1024 }, { h0 with ctx := 1024 }, { h0 with cva := 2 ^ 48 },
      { h0 with len := 256 }, { h0 with page := 4 }, { h0 with colour := 4 }, { h0 with sub := 16 }, { h0 with aty := 16 },
      { h0 with fmtSrc := 16 }, { h0 with fmtDst := 16 }, { h0 with gexp := 2 ^ 32 }] : List Hdr).all (fun h => !h.wf) = true ∧
    ([{ b0 with bop := 16 }, { b0 with src := 4096 }, { b0 with dst := 4096 }, { b0 with handle := 2 ^ 20 }, { b0 with off := 2 ^ 40 },
      { b0 with xid := 2 ^ 16 }, { b0 with part := 16 }, { b0 with status := 16 }, { b0 with slots := [⟨[], false⟩] }] : List Blk).all
        (fun b => !b.wf) = true ∧
    ([{ f0 with seq := 4096 }, { f0 with ack := 4096 }, { f0 with sack := 2 ^ 16 }, { f0 with poison := 2 ^ 9 }, { f0 with last := 2 ^ 9 },
      { f0 with fkind := 16 }, { f0 with slots := [] }, { f0 with slots := List.replicate 9 [] }, { f0 with lane := 9 }] : List Flit).all
        (fun f => !f.wf) = true ∧
    ([{ t0 with kind := 256 }, { t0 with lane := 9 }, { t0 with width := 256 }, { t0 with map := 2 ^ 32 }, { t0 with expected := 4096 }]
      : List Train).all (fun f => !f.wf) = true ∧
    ([{ i0 with index := 2 ^ 16 }, { i0 with sub := 256 }, { i0 with off := 2 ^ 32 }, { i0 with length := 2 ^ 16 }] : List LlItem).all
      (fun i => !i.wf) = true ∧
    h0.wf = true ∧ b0.wf = true ∧ f0.wf = true ∧ t0.wf = true ∧ i0.wf = true := by decide

/-- A slot holds 32 bytes (R95); a DRAM error lies in the pool's address space; a window write has a byte; host data an EP mark per piece (R301). -/
theorem test_ill_formed_data :
    Slot.wf ⟨zeros 31, false⟩ = false ∧ Slot.wf ⟨zeros 32, false⟩ = true ∧ DramErr.wf ⟨2 ^ 38 - 1, true, 63, false⟩ = true ∧
    DramErr.wf ⟨2 ^ 38, true, 63, false⟩ = false ∧ DramErr.wf ⟨0, true, 64, false⟩ = false ∧
    DwWrite.wf ⟨0, []⟩ = false ∧ DwWrite.wf ⟨0, [1]⟩ = true ∧
    HostRd.wf ⟨[], [false, false], false⟩ = false ∧ HostRd.wf ⟨zeros 64, [false, false], false⟩ = true := by decide

theorem test_well_formed_1 : ([
    .rds 0 0 h0, .rdx 0 0 h0, .upg 0 0 h0, .rdOnce 0 0 h0, .wrFull 0 0 h0 [], .wrPart 0 0 h0 [], .evc 0 0 h0, .wbd 0 0 h0 [], .acc 0 0 h0 [],
    .atomFetchAdd 0 0 h0 [], .atomSwap 0 0 h0 [], .atomCompareSwap 0 0 h0 [], .hintPreferHbm 0 0 h0, .hintPreferDdr5 0 0 h0, .hintExpectReads 0 0 h0,
    .dbell 0 0 h0 [], .fenceC 0 0 h0, .fenceO 0 0 h0, .fenceClose 0 0 0, .ptcFetchDone 0 0 0 0 0, .homeSliceSerialise 0 0 0 [] 0, .snoopEgress 0 0 0,
    .rspI 0 0 0 0 0, .rspS 0 0 0 0 0, .rspDI 0 0 0 0 0 false [], .rspDS 0 0 0 0 0 [], .rspDO 0 0 0 0 0 [], .rspDK 0 0 0 0 0 false [],
    .rspWB 0 0 0 0 0, .gntAck 0 0 0 0 0, .evictDataAccepted 0, .recall 0, .directoryWalkDone 0 0 0, .snoopTimeout 0 0 0, .gntAckTimeout 0 0 0,
    .completionEgress 0 0 0, .censusReport 0 0 0 0 0 0 false [], .accFillArrives 0 [], .accIdleFlush 0, .int8ScaleWrite 0 0, .stgCommit 0 0 0 [],
    .commitTurn 0, .applyPoint 0, .shootdownDrainDone 0, .stgReadback 0 0 [], .stgClear 0 0 [], .internalCommit 0, .windowGeometryWrite 0 0 0,
    .bindingWrite 0 0 0, .moor, .revoke, .share, .unshare] : List Instr).all Instr.wf = true := by decide

theorem test_well_formed_2 : ([
    .grantRevoke, .grantIssue, .probe 0 b0, .probeAns 0 b0, .jobDbell 0 0 0 false, .jobFetch 0 0 [] ⟨[]⟩, .jobStep 0 ⟨[]⟩, .jobReduce 0 ⟨[]⟩,
    .jobConvert 0 ⟨[]⟩, .jobFill 0 ⟨[]⟩, .jobCopy 0 ⟨[]⟩, .jobChecksum 0 ⟨[]⟩, .jobNorm 0 ⟨[]⟩, .jobPublish 0, .publishComplete 0,
    .stripStart 0 [] ⟨[]⟩, .stripCommit 0, .stripApplyDone 0 ⟨[]⟩, .reductionAccComplete 0 ⟨[]⟩, .jobComplete 0 ⟨[]⟩, .jobFaultTimeout 0 0 ⟨[]⟩,
    .jqEnableWrite 0 0, .recipeLoad 0, .recipeUnload 0, .trDbell 0 0, .trEnableWrite 0 0, .tenderFetch 0 ⟨[], [], false⟩, .tenderCopy 0 [] ⟨[]⟩,
    .tenderMigrate 0 0 [], .tenderPut 0 [] ⟨[]⟩, .tenderGet 0 [], .hostIn 0 ⟨[], [], false⟩ ⟨[]⟩, .hostOut 0 false ⟨[]⟩,
    .unwrap 0 false false [] [] ⟨[]⟩, .drain 0, .tenderChunkDone 0 0 0 ⟨[]⟩, .tenderComplete 0, .migrationStart 0 0, .migrationPassEnd 0,
    .migrationFinalPassEnd 0 ⟨[]⟩, .migrationDone 0, .placementMigrationStart, .place, .placeEnableWrite 0, .blkPut 0 b0 ⟨[]⟩, .blkGet 0 b0 ⟨[]⟩,
    .blkGetData 0 b0 ⟨[]⟩, .blkMwr 0 b0 ⟨[]⟩, .blkAns 0 b0, .remoteChunkResend 0 ⟨[]⟩, .remoteTimeout 0, .pmResync 0, .sweepRecordTake] : List Instr).all Instr.wf = true := by decide

theorem test_well_formed_3 : ([
    .sweepChunk 0 0 ⟨[]⟩, .sweepFrameDone 0, .engineShootdownAck 0, .teAckTimeout 0 ⟨[]⟩, .dramQueueEnter 0 0 0 0, .channelServe 0,
    .rowAutoClose 0 0, .refreshDue 0 0, .refreshDebtLimit 0 0, .retrainPeriod 0, .retrainForce 0, .rankPowerDown 0 0, .channelTrainingDone 0 false,
    .caParityAlert 0, .dimmPresentChange 0 false, .offline 0, .pwrOff 0 0, .pwrOn 0 0, .dimmSettleExpiry 0 0 false 0 0 0 0, .online 0,
    .hbchFence 0 0, .hbmChannelFenced 0 0, .relayoutFrameDone 0, .relayoutFrameFreed 0, .ceWriteback 0, .ueBucketRoll, .mergeHoldExpiry 0 [],
    .scrubStart, .scrubCancel, .scrubLine ⟨[]⟩, .ctxAlloc 0, .ctxActivate 0, .ctxReset 0, .ctxFree 0, .contextResetDrainEnd 0 ⟨[]⟩,
    .contextResetDone 0, .contextSweepDone 0, .frzRelease 0, .policerRefill, .shaperRefill, .ntfBucketRefill, .ntfRaise 0 0,
    .notificationDeliver 0 0, .vfFlr 0 0, .enterService, .enterMaintenance, .decommission, .arbCommit, .keyGenerate 0, .keyRekey 0,
    .rekeyChunk 0 0 ⟨[]⟩, .dmExtend 0 [], .attestDevice] : List Instr).all Instr.wf = true := by decide

theorem test_well_formed_4 : ([
    .attestContext 0, .reportReady, .lsHello 0 [] v0, .lsReply 0 [] v0, .lsFinish 0 [] v0, .lsDone 0 [] v0, .lsAbort 0, .linkRekeyDue 0,
    .lkOffer 0 [], .lkAccept 0 [], .oldKeyExpire 0, .laneCountLimit 0, .linkRelease 0, .setForm 0, .setDestroy 0, .joinReq 0 [] v0, .joinAck 0 [] v0,
    .joinKey 0 [] v0, .joinDone 0 [], .joinTimeout 0, .dbgNonceRead, .dbgToken [] v0, .dbgNonceExpire, .jtagExtestSelect,
    .ideKmRequest 0 0 false false, .idleFlit 0 f0, .dataFlit 0 f0 ⟨[]⟩ v0, .contFlit 0 f0 ⟨[]⟩ v0, .handshakeFlit 0 f0 ⟨[]⟩ v0, .trainFlit 0 t0,
    .flitTime 0, .rtxTimer 0, .creditReturnDue 0, .beaconIdle 0 0, .driftRetrain 0, .fastRetrain 0, .fastRetrainDone 0, .retrainLimitExpiry 0,
    .fullTraining 0, .fullTrainingDone 0 false [], .laneFail 0 0 0, .portLossTimeout 0, .linkDownRetry 0, .narrowIdle 0, .widthChangeEffect 0 false,
    .portFence 0, .portRepair 0, .portRetrain 0, .portRestart 0, .faultRecordPost 0, .faultBudgetRefill 0, .frCoalExpiry 0, .frRepost 0] : List Instr).all Instr.wf = true := by decide

theorem test_well_formed_5 : ([
    .closeDone 0, .drainCounterFree, .revokeDrainDone 0, .drainTimeout 0, .recallDone 0, .agentLossTime 0, .agtFence 0, .purgeWalkDone 0 0,
    .agtRejoin 0, .sliceFailover 0, .censusClose 0, .failoverHoldEnd 0, .unkRelease 0 0, .unitFence 0 0 ⟨[]⟩, .routerFailure 0 0 none ⟨[]⟩,
    .routeDrainDone 0 0, .unitCmdFence 0 0, .quiesceDone 0 0 ⟨[]⟩, .unitCmdRepair 0 0, .repairSelftestDone 0 0 false, .unitCmdSwap 0 0 0,
    .swapDone 0 0, .keeperHeartbeat 0, .keeperFailover, .keeperSwap, .keeperRepair, .portLost 0, .linkSync 0 0 0 0 0, .linkSyncTimeout 0,
    .pciePortLost 0, .fwErase, .fwBlockWrite [], .fwVerify false, .fwActivate, .logAck 0, .pwrgoodAonLow, .coreBrownOut, .rstNInput, .watchdogExpiry,
    .rstCmdCore, .rstCmdSystem, .dbgReq, .clockFailure, .lockup, .perst 0, .episodeEnd 0, .rstNSample false, .trimLoadDone false, .oscDlyWaitEnd 0,
    .powerOnBistDone [], .keeperBootDone false false false [], .pllLockLoss 0, .pllEdgeLoss 0] : List Instr).all Instr.wf = true := by decide

theorem test_well_formed_6 : ([
    .rootCmd, .srefLoss 0, .pcieRefclkLoss 0, .arithDivStep, .fcStart, .fcDone 0 false, .pstateTargetWrite 0 false, .p1GateIdle 0 0, .p2Idle,
    .wakeEvent, .p3Entry ⟨[]⟩, .p3IdleTimeout, .p3Exit [], .p3LinkGraceEnd, .thermalSample [], .thermtrip, .energyBucketUpdate [], .governorTick,
    .wearLedgerTick 0, .llRead 0 0 0 [], .llWrite 0 0 0 [] v0, .llReadBlock 0 0 0 [], .llWriteBlock 0 0 0 [] v0, .llSubscribe 0 0 0 [],
    .llUnsubscribe 0 0 0 [], .llPing 0 0 0, .llAck 0 0, .subscriptionCheck 0, .eventResend 0 0, .leaseAcquire 0, .leaseRenew 0, .leaseRelease 0,
    .leaseExpire, .ssHello 0 [], .ssFinish 0 [] v0, .llpHandshakeTimeout 0, .llpIdleTimeout 0, .llpDatagram 0 0 0 0 false [] v0, .mbCmd 0 0 v0,
    .llm 0 0 0 0 [] v0, .nvFlashWriteDone, .pwrgoodDramRise, .pwrgoodCoreRise, .pcieLinkTraining 0 false 0 0, .pwrgoodAonRise 0, .pwrgoodDramFall,
    .rstNRelease, .dbgReqNRelease, .keeperHeartbeatTimeout 0, .mgmtLinkDown 0, .frHeadWrite 0 0 0, .ntfHeadWrite 0 0 0 false, .mbBufWrite 0 ⟨0, [0]⟩] : List Instr).all Instr.wf = true := by decide

theorem test_ill_formed_1 : ([
    .rds 24 0 h0, .rds 0 4096 h0, .rds 0 0 { h0 with agt := 4096 }, .rdx 24 0 h0, .rdx 0 4096 h0, .rdx 0 0 { h0 with agt := 4096 }, .upg 24 0 h0,
    .upg 0 4096 h0, .upg 0 0 { h0 with agt := 4096 }, .rdOnce 24 0 h0, .rdOnce 0 4096 h0, .rdOnce 0 0 { h0 with agt := 4096 }, .wrFull 24 0 h0 [],
    .wrFull 0 4096 h0 [], .wrFull 0 0 { h0 with agt := 4096 } [], .wrFull 0 0 h0 [⟨[], false⟩], .wrPart 24 0 h0 [], .wrPart 0 4096 h0 [],
    .wrPart 0 0 { h0 with agt := 4096 } [], .wrPart 0 0 h0 [⟨[], false⟩], .evc 24 0 h0, .evc 0 4096 h0, .evc 0 0 { h0 with agt := 4096 },
    .wbd 24 0 h0 [], .wbd 0 4096 h0 [], .wbd 0 0 { h0 with agt := 4096 } [], .wbd 0 0 h0 [⟨[], false⟩], .acc 24 0 h0 [], .acc 0 4096 h0 [],
    .acc 0 0 { h0 with agt := 4096 } [], .acc 0 0 h0 [⟨[], false⟩], .atomFetchAdd 24 0 h0 [], .atomFetchAdd 0 4096 h0 [],
    .atomFetchAdd 0 0 { h0 with agt := 4096 } [], .atomFetchAdd 0 0 h0 [⟨[], false⟩], .atomSwap 24 0 h0 [], .atomSwap 0 4096 h0 [],
    .atomSwap 0 0 { h0 with agt := 4096 } [], .atomSwap 0 0 h0 [⟨[], false⟩], .atomCompareSwap 24 0 h0 [], .atomCompareSwap 0 4096 h0 [],
    .atomCompareSwap 0 0 { h0 with agt := 4096 } [], .atomCompareSwap 0 0 h0 [⟨[], false⟩], .hintPreferHbm 24 0 h0, .hintPreferHbm 0 4096 h0,
    .hintPreferHbm 0 0 { h0 with agt := 4096 }, .hintPreferDdr5 24 0 h0, .hintPreferDdr5 0 4096 h0, .hintPreferDdr5 0 0 { h0 with agt := 4096 },
    .hintExpectReads 24 0 h0, .hintExpectReads 0 4096 h0, .hintExpectReads 0 0 { h0 with agt := 4096 }, .dbell 24 0 h0 [], .dbell 0 4096 h0 []] : List Instr).all (fun c => !c.wf) = true := by decide

theorem test_ill_formed_2 : ([
    .dbell 0 0 { h0 with agt := 4096 } [], .dbell 0 0 h0 [⟨[], false⟩], .fenceC 24 0 h0, .fenceC 0 4096 h0, .fenceC 0 0 { h0 with agt := 4096 },
    .fenceO 24 0 h0, .fenceO 0 4096 h0, .fenceO 0 0 { h0 with agt := 4096 }, .fenceClose 24 0 0, .fenceClose 0 4096 0, .fenceClose 0 0 4096,
    .ptcFetchDone 24 0 0 0 0, .ptcFetchDone 0 1024 0 0 0, .ptcFetchDone 0 0 4194304 0 0, .ptcFetchDone 0 0 0 4 0, .ptcFetchDone 0 0 0 0 4,
    .homeSliceSerialise 25 0 0 [] 0, .homeSliceSerialise 0 4160 0 [] 0, .homeSliceSerialise 0 0 65536 [] 0,
    .homeSliceSerialise 0 0 0 [⟨0, false, 64, false⟩] 0, .homeSliceSerialise 0 0 0 [] 32, .snoopEgress 32 0 0, .snoopEgress 0 4096 0,
    .snoopEgress 0 0 1024, .rspI 24 0 0 0 0, .rspI 0 4096 0 0 0, .rspI 0 0 32 0 0, .rspI 0 0 0 4096 0, .rspI 0 0 0 0 1024, .rspS 24 0 0 0 0,
    .rspS 0 4096 0 0 0, .rspS 0 0 32 0 0, .rspS 0 0 0 4096 0, .rspS 0 0 0 0 1024, .rspDI 24 0 0 0 0 false [], .rspDI 0 4096 0 0 0 false [],
    .rspDI 0 0 32 0 0 false [], .rspDI 0 0 0 4096 0 false [], .rspDI 0 0 0 0 1024 false [], .rspDI 0 0 0 0 0 false [⟨[], false⟩],
    .rspDS 24 0 0 0 0 [], .rspDS 0 4096 0 0 0 [], .rspDS 0 0 32 0 0 [], .rspDS 0 0 0 4096 0 [], .rspDS 0 0 0 0 1024 [],
    .rspDS 0 0 0 0 0 [⟨[], false⟩], .rspDO 24 0 0 0 0 [], .rspDO 0 4096 0 0 0 [], .rspDO 0 0 32 0 0 [], .rspDO 0 0 0 4096 0 [],
    .rspDO 0 0 0 0 1024 [], .rspDO 0 0 0 0 0 [⟨[], false⟩], .rspDK 24 0 0 0 0 false [], .rspDK 0 4096 0 0 0 false []] : List Instr).all (fun c => !c.wf) = true := by decide

theorem test_ill_formed_3 : ([
    .rspDK 0 0 32 0 0 false [], .rspDK 0 0 0 4096 0 false [], .rspDK 0 0 0 0 1024 false [], .rspDK 0 0 0 0 0 false [⟨[], false⟩], .rspWB 24 0 0 0 0,
    .rspWB 0 4096 0 0 0, .rspWB 0 0 32 0 0, .rspWB 0 0 0 4096 0, .rspWB 0 0 0 0 1024, .gntAck 24 0 0 0 0, .gntAck 0 4096 0 0 0, .gntAck 0 0 4096 0 0,
    .gntAck 0 0 0 4096 0, .gntAck 0 0 0 0 1024, .directoryWalkDone 32 0 0, .directoryWalkDone 0 5 0, .snoopTimeout 32 0 0, .snoopTimeout 0 4096 0,
    .snoopTimeout 0 0 1024, .gntAckTimeout 24 0 0, .gntAckTimeout 0 4096 0, .gntAckTimeout 0 0 4096, .completionEgress 24 0 0,
    .completionEgress 0 4096 0, .completionEgress 0 0 4096, .censusReport 24 0 0 0 0 0 false [], .censusReport 0 4096 0 0 0 0 false [],
    .censusReport 0 0 32 0 0 0 false [], .censusReport 0 0 0 65536 0 0 false [], .censusReport 0 0 0 0 1024 0 false [],
    .censusReport 0 0 0 0 0 33 false [], .censusReport 0 0 0 0 0 0 false [⟨[], false⟩], .accFillArrives 0 [⟨0, false, 64, false⟩],
    .int8ScaleWrite 1048576 0, .int8ScaleWrite 0 4294967296, .stgCommit 2 0 0 [], .stgCommit 0 2 0 [], .stgCommit 0 0 4294967296 [],
    .stgCommit 0 0 0 [⟨0, []⟩], .stgCommit 0 0 2 [], .stgCommit 0 0 3 [], .commitTurn 1024, .applyPoint 1024, .shootdownDrainDone 1024,
    .stgReadback 2 0 [], .stgReadback 0 2 [], .stgReadback 0 0 [⟨0, []⟩], .stgClear 2 0 [], .stgClear 0 2 [], .stgClear 0 0 [⟨0, []⟩],
    .internalCommit 1024, .windowGeometryWrite 1024 0 0, .windowGeometryWrite 0 2 0, .windowGeometryWrite 0 0 4294967296] : List Instr).all (fun c => !c.wf) = true := by decide

theorem test_ill_formed_4 : ([
    .bindingWrite 4096 0 0, .bindingWrite 0 8 0, .bindingWrite 0 0 4294967296, .probe 24 b0, .probe 0 { b0 with bop := 16 }, .probeAns 24 b0,
    .probeAns 0 { b0 with bop := 16 }, .jobDbell 2 0 0 false, .jobDbell 0 256 0 false, .jobDbell 0 0 18446744073709551616 false,
    .jobFetch 1024 0 [] ⟨[]⟩, .jobFetch 0 4 [] ⟨[]⟩, .jobFetch 0 0 [] ⟨[⟨274877906944, false, 0, false⟩]⟩, .jobStep 64 ⟨[]⟩,
    .jobStep 0 ⟨[⟨274877906944, false, 0, false⟩]⟩, .jobReduce 64 ⟨[]⟩, .jobReduce 0 ⟨[⟨274877906944, false, 0, false⟩]⟩, .jobConvert 64 ⟨[]⟩,
    .jobConvert 0 ⟨[⟨274877906944, false, 0, false⟩]⟩, .jobFill 64 ⟨[]⟩, .jobFill 0 ⟨[⟨274877906944, false, 0, false⟩]⟩, .jobCopy 64 ⟨[]⟩,
    .jobCopy 0 ⟨[⟨274877906944, false, 0, false⟩]⟩, .jobChecksum 64 ⟨[]⟩, .jobChecksum 0 ⟨[⟨274877906944, false, 0, false⟩]⟩, .jobNorm 64 ⟨[]⟩,
    .jobNorm 0 ⟨[⟨274877906944, false, 0, false⟩]⟩, .stripStart 64 [] ⟨[]⟩, .stripStart 0 [] ⟨[⟨274877906944, false, 0, false⟩]⟩, .stripCommit 64,
    .stripApplyDone 64 ⟨[]⟩, .stripApplyDone 0 ⟨[⟨274877906944, false, 0, false⟩]⟩, .reductionAccComplete 65536 ⟨[]⟩,
    .reductionAccComplete 0 ⟨[⟨274877906944, false, 0, false⟩]⟩, .jobComplete 0 ⟨[⟨274877906944, false, 0, false⟩]⟩, .jobFaultTimeout 3 0 ⟨[]⟩,
    .jobFaultTimeout 0 0 ⟨[⟨274877906944, false, 0, false⟩]⟩, .jqEnableWrite 4096 0, .jqEnableWrite 0 2, .recipeLoad 4160, .recipeUnload 256,
    .trDbell 2 0, .trDbell 0 4294967296, .trEnableWrite 2 0, .trEnableWrite 0 2, .tenderFetch 2 ⟨[], [], false⟩,
    .tenderFetch 0 ⟨[], [false, false], false⟩, .tenderCopy 16 [] ⟨[]⟩, .tenderCopy 0 [] ⟨[⟨274877906944, false, 0, false⟩]⟩, .tenderMigrate 0 16 [],
    .tenderPut 16 [] ⟨[]⟩, .tenderPut 0 [] ⟨[⟨274877906944, false, 0, false⟩]⟩, .tenderGet 16 [], .hostIn 16 ⟨[], [], false⟩ ⟨[]⟩] : List Instr).all (fun c => !c.wf) = true := by decide

theorem test_ill_formed_5 : ([
    .hostIn 0 ⟨[], [false, false], false⟩ ⟨[]⟩, .hostIn 0 ⟨[], [], false⟩ ⟨[⟨274877906944, false, 0, false⟩]⟩, .hostOut 16 false ⟨[]⟩,
    .hostOut 0 false ⟨[⟨274877906944, false, 0, false⟩]⟩, .unwrap 16 false false [] [] ⟨[]⟩,
    .unwrap 0 false false [] [] ⟨[⟨274877906944, false, 0, false⟩]⟩, .tenderChunkDone 16 0 0 ⟨[]⟩,
    .tenderChunkDone 0 0 0 ⟨[⟨274877906944, false, 0, false⟩]⟩, .migrationStart 4 0, .migrationPassEnd 200704, .migrationFinalPassEnd 200704 ⟨[]⟩,
    .migrationFinalPassEnd 0 ⟨[⟨274877906944, false, 0, false⟩]⟩, .migrationDone 200704, .placeEnableWrite 2, .blkPut 24 b0 ⟨[]⟩,
    .blkPut 0 { b0 with bop := 16 } ⟨[]⟩, .blkPut 0 b0 ⟨[⟨274877906944, false, 0, false⟩]⟩, .blkGet 24 b0 ⟨[]⟩, .blkGet 0 { b0 with bop := 16 } ⟨[]⟩,
    .blkGet 0 b0 ⟨[⟨274877906944, false, 0, false⟩]⟩, .blkGetData 24 b0 ⟨[]⟩, .blkGetData 0 { b0 with bop := 16 } ⟨[]⟩,
    .blkGetData 0 b0 ⟨[⟨274877906944, false, 0, false⟩]⟩, .blkMwr 24 b0 ⟨[]⟩, .blkMwr 0 { b0 with bop := 16 } ⟨[]⟩,
    .blkMwr 0 b0 ⟨[⟨274877906944, false, 0, false⟩]⟩, .blkAns 24 b0, .blkAns 0 { b0 with bop := 16 }, .remoteChunkResend 65536 ⟨[]⟩,
    .remoteChunkResend 0 ⟨[⟨274877906944, false, 0, false⟩]⟩, .remoteTimeout 65536, .pmResync 1048576, .sweepChunk 16 0 ⟨[]⟩, .sweepChunk 0 256 ⟨[]⟩,
    .sweepChunk 0 0 ⟨[⟨274877906944, false, 0, false⟩]⟩, .sweepFrameDone 256, .engineShootdownAck 80, .teAckTimeout 80 ⟨[]⟩,
    .teAckTimeout 0 ⟨[⟨274877906944, false, 0, false⟩]⟩, .dramQueueEnter 0 4 0 0, .dramQueueEnter 0 0 1024 0, .dramQueueEnter 0 0 0 152,
    .channelServe 152, .rowAutoClose 152 0, .refreshDue 152 0, .refreshDebtLimit 152 0, .retrainPeriod 152, .retrainForce 152, .rankPowerDown 152 0,
    .rankPowerDown 0 8, .channelTrainingDone 152 false, .caParityAlert 24, .dimmPresentChange 24 false, .offline 12] : List Instr).all (fun c => !c.wf) = true := by decide

theorem test_ill_formed_6 : ([
    .pwrOff 12 0, .pwrOff 0 2, .pwrOn 12 0, .pwrOn 0 2, .dimmSettleExpiry 12 0 false 0 0 0 0, .dimmSettleExpiry 0 2 false 0 0 0 0,
    .dimmSettleExpiry 0 0 false 65536 0 0 0, .dimmSettleExpiry 0 0 false 0 65536 0 0, .dimmSettleExpiry 0 0 false 0 0 256 0,
    .dimmSettleExpiry 0 0 false 0 0 0 4294967296, .online 12, .hbchFence 4 0, .hbchFence 0 32, .hbmChannelFenced 4 0, .hbmChannelFenced 0 32,
    .relayoutFrameDone 4, .relayoutFrameFreed 4, .mergeHoldExpiry 0 [⟨0, false, 64, false⟩], .scrubLine ⟨[⟨274877906944, false, 0, false⟩]⟩,
    .ctxAlloc 1024, .ctxActivate 1024, .ctxReset 1024, .ctxFree 1024, .contextResetDrainEnd 1024 ⟨[]⟩,
    .contextResetDrainEnd 0 ⟨[⟨274877906944, false, 0, false⟩]⟩, .contextResetDone 1024, .contextSweepDone 1024, .frzRelease 4096, .ntfRaise 1024 0,
    .ntfRaise 0 64, .notificationDeliver 1024 0, .notificationDeliver 0 64, .vfFlr 2 0, .vfFlr 0 256, .keyGenerate 1024, .keyRekey 1024,
    .rekeyChunk 16 0 ⟨[]⟩, .rekeyChunk 0 256 ⟨[]⟩, .rekeyChunk 0 0 ⟨[⟨274877906944, false, 0, false⟩]⟩, .dmExtend 1024 [], .attestContext 1024,
    .lsHello 24 [] v0, .lsReply 24 [] v0, .lsFinish 24 [] v0, .lsDone 24 [] v0, .lsAbort 24, .linkRekeyDue 24, .lkOffer 24 [], .lkAccept 24 [],
    .oldKeyExpire 24, .laneCountLimit 24, .linkRelease 24, .setForm 16, .setDestroy 16] : List Instr).all (fun c => !c.wf) = true := by decide

theorem test_ill_formed_7 : ([
    .joinReq 4096 [] v0, .joinAck 4096 [] v0, .joinKey 4096 [] v0, .joinDone 4096 [], .joinTimeout 4096, .ideKmRequest 2 0 false false,
    .ideKmRequest 0 4 false false, .idleFlit 24 f0, .idleFlit 0 { f0 with seq := 4096 }, .dataFlit 24 f0 ⟨[]⟩ v0,
    .dataFlit 0 { f0 with seq := 4096 } ⟨[]⟩ v0, .dataFlit 0 f0 ⟨[⟨274877906944, false, 0, false⟩]⟩ v0, .contFlit 24 f0 ⟨[]⟩ v0,
    .contFlit 0 { f0 with seq := 4096 } ⟨[]⟩ v0, .contFlit 0 f0 ⟨[⟨274877906944, false, 0, false⟩]⟩ v0, .handshakeFlit 24 f0 ⟨[]⟩ v0,
    .handshakeFlit 0 { f0 with seq := 4096 } ⟨[]⟩ v0, .handshakeFlit 0 f0 ⟨[⟨274877906944, false, 0, false⟩]⟩ v0, .trainFlit 24 t0,
    .trainFlit 0 { t0 with kind := 256 }, .flitTime 24, .rtxTimer 24, .creditReturnDue 24, .beaconIdle 24 0, .beaconIdle 0 9, .driftRetrain 24,
    .fastRetrain 24, .fastRetrainDone 24, .retrainLimitExpiry 24, .fullTraining 24, .fullTrainingDone 24 false [], .laneFail 24 0 0, .laneFail 0 9 0,
    .laneFail 0 0 4, .portLossTimeout 24, .linkDownRetry 24, .narrowIdle 24, .widthChangeEffect 24 false, .portFence 24, .portRepair 24,
    .portRetrain 24, .portRestart 24, .faultRecordPost 1024, .faultBudgetRefill 1024, .frCoalExpiry 8, .frRepost 1024, .closeDone 65536,
    .revokeDrainDone 65536, .drainTimeout 65536, .recallDone 65536, .agentLossTime 4096, .agtFence 4096, .purgeWalkDone 32 0, .purgeWalkDone 0 4096] : List Instr).all (fun c => !c.wf) = true := by decide

theorem test_ill_formed_8 : ([
    .agtRejoin 4096, .sliceFailover 32, .censusClose 32, .failoverHoldEnd 32, .unkRelease 32 0, .unkRelease 0 1024, .unitFence 3 0 ⟨[]⟩,
    .unitFence 0 68 ⟨[]⟩, .unitFence 0 0 ⟨[⟨274877906944, false, 0, false⟩]⟩, .routerFailure 2 0 none ⟨[]⟩, .routerFailure 0 4096 none ⟨[]⟩,
    .routerFailure 0 0 none ⟨[⟨274877906944, false, 0, false⟩]⟩, .routeDrainDone 2 0, .routeDrainDone 0 4096, .unitCmdFence 3 0, .unitCmdFence 0 256,
    .quiesceDone 3 0 ⟨[]⟩, .quiesceDone 0 68 ⟨[]⟩, .quiesceDone 0 0 ⟨[⟨274877906944, false, 0, false⟩]⟩, .unitCmdRepair 3 0, .unitCmdRepair 0 256,
    .repairSelftestDone 5 0 false, .repairSelftestDone 0 68 false, .unitCmdSwap 3 0 0, .unitCmdSwap 0 256 0, .unitCmdSwap 0 0 256, .swapDone 3 0,
    .swapDone 0 68, .keeperHeartbeat 2, .portLost 24, .linkSync 24 0 0 0 0, .linkSync 0 32 0 0 0, .linkSync 0 0 4096 0 0, .linkSync 0 0 0 2 0,
    .linkSync 0 0 0 0 4294967296, .linkSyncTimeout 24, .pciePortLost 2, .logAck 4294967296, .perst 2, .episodeEnd 8, .oscDlyWaitEnd 4,
    .pllLockLoss 2, .pllEdgeLoss 2, .srefLoss 6, .pcieRefclkLoss 2, .fcDone 281474976710656 false, .pstateTargetWrite 256 false, .p1GateIdle 3 0,
    .p1GateIdle 0 68, .p3Entry ⟨[⟨274877906944, false, 0, false⟩]⟩, .wearLedgerTick 4, .llRead 4160 0 0 [], .llRead 0 4294967296 0 [],
    .llRead 0 0 24 []] : List Instr).all (fun c => !c.wf) = true := by decide

theorem test_ill_formed_9 : ([
    .llRead 0 0 0 [{ i0 with index := 65536 }], .llWrite 4160 0 0 [] v0, .llWrite 0 4294967296 0 [] v0, .llWrite 0 0 24 [] v0,
    .llWrite 0 0 0 [{ i0 with index := 65536 }] v0, .llReadBlock 4160 0 0 [], .llReadBlock 0 4294967296 0 [], .llReadBlock 0 0 24 [],
    .llReadBlock 0 0 0 [{ i0 with index := 65536 }], .llWriteBlock 4160 0 0 [] v0, .llWriteBlock 0 4294967296 0 [] v0, .llWriteBlock 0 0 24 [] v0,
    .llWriteBlock 0 0 0 [{ i0 with index := 65536 }] v0, .llSubscribe 4160 0 0 [], .llSubscribe 0 4294967296 0 [], .llSubscribe 0 0 24 [],
    .llSubscribe 0 0 0 [{ i0 with index := 65536 }], .llUnsubscribe 4160 0 0 [], .llUnsubscribe 0 4294967296 0 [], .llUnsubscribe 0 0 24 [],
    .llUnsubscribe 0 0 0 [{ i0 with index := 65536 }], .llPing 4160 0 0, .llPing 0 4294967296 0, .llPing 0 0 24, .llAck 32 0, .llAck 0 4294967296,
    .subscriptionCheck 32, .eventResend 32 0, .eventResend 0 4294967296, .leaseAcquire 4160, .leaseRenew 4160, .leaseRelease 4160,
    .llpIdleTimeout 32, .llpDatagram 32 0 0 0 false [] v0, .llpDatagram 0 18446744073709551616 0 0 false [] v0,
    .llpDatagram 0 0 4294967296 0 false [] v0, .llpDatagram 0 0 0 2 false [] v0, .mbCmd 2 0 v0, .mbCmd 0 4294967296 v0, .llm 24 0 0 0 [] v0,
    .llm 0 4096 0 0 [] v0, .llm 0 0 4096 0 [] v0, .llm 0 0 0 512 [] v0, .llm 0 0 0 0 [⟨[], false⟩] v0, .pcieLinkTraining 2 false 0 0,
    .pcieLinkTraining 0 false 7 0, .pcieLinkTraining 0 false 0 9, .pwrgoodAonRise 8, .keeperHeartbeatTimeout 2, .mgmtLinkDown 2, .frHeadWrite 2 0 0,
    .frHeadWrite 0 8 0, .frHeadWrite 0 0 65536, .ntfHeadWrite 2 0 0 false] : List Instr).all (fun c => !c.wf) = true := by decide

theorem test_ill_formed_10 : ([
    .ntfHeadWrite 0 256 0 false, .ntfHeadWrite 0 0 65536 false, .mbBufWrite 2 ⟨0, [0]⟩, .mbBufWrite 0 ⟨0, []⟩] : List Instr).all (fun c => !c.wf) = true := by decide
/-! ### Small states -/

/-- The state after reset. -/
def s0 : State := .reset

/-- Nothing met: no DRAM error, no line handed over. -/
def m0 : Met := ⟨[]⟩

/-- A pool entry of frame 1 with every right (R50). -/
def e0 : Entry := { Entry.none with valid := true, rights := 0x1F, frame := 1, gen := 7 }

/-- Context 5 is ACTIVE with a window of 8 pages at entry 16; agent 1 has CAN 3 and a binding that names context 5; the PTC of port 0 holds the
entry of the window's page 0. -/
def sReq : State :=
  let s : State := (((s0.setOv O.can_agent (2 ^ 15 + 1) 3).setOv O.binding (2 ^ 31 + 0x1F * 2 ^ 10 + 5) 1 0).setOv O.win_count 8 5).setOv O.win_base 16 5
  { s with ctxs := [(5, { Ctx.dflt with st := .active })], chart := { s.chart with ptc := [⟨0, 5, 0, e0⟩], ents := [(16, e0)] } }

/-- A request of agent 1 with CAN 3 for the line 0 of context 5. -/
def hReq : Hdr := { h0 with can := 3, ctx := 5, len := 128 }

/-! ### Witnesses -/

theorem witness_StepTakesTheFrontCommand :
    ({ s0 with pending := [.moor, .revoke] } : State).pending = .moor :: [.revoke] ∧ s0.pending = [] := by decide

theorem witness_EveryStepKeepsTheInvariant : s0.Inv ∧ step s0 = .next { s0 with ltc := 1 } := by
  refine ⟨⟨⟨?_, ?_, ?_, ?_⟩, ⟨?_, ?_⟩, ?_⟩, rfl⟩ <;> decide

theorem witness_NothingSentIsTakenBack : exec .leaseExpire s0 = .next (s0.setOv O.lease_holder 0) := rfl

theorem witness_PoolMemoryIsKept : storesPool .leaseExpire = false ∧ exec .leaseExpire s0 = .next (s0.setOv O.lease_holder 0) := ⟨rfl, rfl⟩

theorem witness_CodeWordsReadBack : s0.memOk ∧ 2 ≠ 0 ∧ (63 : Nat) ≠ 64 ∧ (63 : Nat) / 64 ≠ 64 / 64 ∧
    Tab.get 0 s0.chunkKey (0 / 64) = s0.frameKey (0 * 64) := by
  refine ⟨⟨?_, ?_, ?_, ?_⟩, ?_⟩ <;> decide

theorem witness_ObjectsReadBack : s0.objsOk ∧ (2 ^ 24 - 1 < 2 ^ 24) ∧ 255 < 256 ∧
    (O.lc_state.id ≠ O.lc_result.id ∨ O.lc_state = O.lc_state ∧ (0 ≠ 1 ∨ 0 ≠ 0)) := by
  refine ⟨⟨?_, ?_⟩, ?_⟩ <;> decide

theorem witness_HomeSliceOfAnAddress : 2 ^ 44 - 1 < 2 ^ 44 ∧ 4 < 5 := by decide

/-- An RDS, and a WRPART and an ACC of 4 bytes at the end of the line. -/
theorem witness_RequestsReachTheirHomeSlice :
    (sReq.Admits .rds 0 1 hReq [] 0x1F ∧ sReq.Maps .rds 0 hReq [] 0x1F e0) ∧
    (sReq.Admits .wrpart 0 1 { hReq with len := 4, cva := 124 } [⟨zeros 32, false⟩] 0x1F ∧
      sReq.Maps .wrpart 0 { hReq with len := 4, cva := 124 } [⟨zeros 32, false⟩] 0x1F e0) ∧
    (sReq.Admits .evc 0 1 hReq [] 0x1F ∧ sReq.Maps .evc 0 hReq [] 0x1F e0) := by
  refine ⟨⟨?_, ?_⟩, ⟨?_, ?_⟩, ?_, ?_⟩ <;> constructor <;> decide

/-- A fence with tag 9 waits behind one done request of its agent and context. -/
def rDone : Req := { Req.arriving 1 .rds 0 hReq [] with phase := .done }

def rFence (o : Nat) : Req := { Req.arriving 2 .fence 0 { h0 with ctx := 5, tag := 9, sub := o } [] with phase := .fencing }

def sFence : State := { sReq with reqs := [rDone, rFence 1], nextReq := 3 }

theorem witness_FencesWaitForWhatTheyCover :
    sFence.reqs.find? (fun q => q.port == 0 && q.h.agt == 1 && q.h.tag == 9 && q.kind == .fence && q.phase == .fencing) = some (rFence 1) ∧
    sFence.fenceReady (rFence 1) = true ∧ ∃ t, exec (.fenceClose 0 1 9) sFence = .next t ∧ t ≠ sFence :=
  ⟨by decide, by decide, sFence.closeFence 0 1 9, rfl,
    fun h => absurd (congrArg (fun t : State => t.cmps.length) h) (by decide)⟩

/-- A HINT of two pages, an ordering fence, and a doorbell of queue 0 of context 5 with tail 3. -/
def hHint : Hdr := { hReq with len := 2 }

def hFence : Hdr := { hReq with len := 0 }

def hBell : Hdr := { hReq with len := 8 }

def bell3 : List Slot := [⟨fitTo 32 [3], false⟩]

def sBell : State := ((sReq.setOv O.jq_enable 1 20).setOv O.jq_state 1 20).setOv O.jq_size 4 20

/-- What a request admitted at port 0 becomes, and the node awake with it. -/
def aReq (s : State) (k : Kind) (h : Hdr) (slots : List Slot) : Req := (s.admitted k 0 h slots 0x1F).1

def aState (s : State) (k : Kind) (h : Hdr) (slots : List Slot) : State := (s.admitted k 0 h slots 0x1F).2.stir

theorem witness_HintsDoorbellsAndFetches_admitted :
    (sReq.Admits .hint 0 1 { hHint with sub := 3 } [] 0x1F ∧
      (aState sReq .hint { hHint with sub := 3 } []).fenceHeld (aReq sReq .hint { hHint with sub := 3 } []) = false ∧
      hHint.cva / 2 ^ 26 + (hHint.len - 1) < (aState sReq .hint { hHint with sub := 3 } []).ov O.win_count 5 ∧
      (aState sReq .hint { hHint with sub := 3 } []).hintDenied (aReq sReq .hint { hHint with sub := 3 } []) = false) ∧
    (sReq.Admits .fence 0 1 { hFence with sub := 1 } [] 0x1F ∧
      (aState sReq .fence { hFence with sub := 1 } []).fenceHeld (aReq sReq .fence { hFence with sub := 1 } []) = false) := by
  refine ⟨⟨?_, ?_, ?_, ?_⟩, ?_, ?_⟩ <;> first | decide | (constructor <;> decide)

theorem witness_HintsDoorbellsAndFetches_rung :
    sBell.Admits .dbell 0 1 hBell bell3 0x1F ∧ (aState sBell .dbell hBell bell3).fenceHeld (aReq sBell .dbell hBell bell3) = false ∧
    (0x1F : Nat).testBit 3 = true ∧ 4 * hBell.ctx + bits (leNat ((slotBytes bell3).take 8)) 16 2 = 20 ∧
    leNat ((slotBytes bell3).take 8) % 65536 = 3 ∧ (aState sBell .dbell hBell bell3).ob O.jq_enable 20 = true ∧
    (aState sBell .dbell hBell bell3).ov O.jq_state 20 = 1 ∧
    ((aState sBell .dbell hBell bell3).ov O.jq_tail 20 + 65536 - (aState sBell .dbell hBell bell3).ov O.jq_head 20) % 65536
      ≤ (3 + 65536 - (aState sBell .dbell hBell bell3).ov O.jq_head 20) % 65536 ∧
    (3 + 65536 - (aState sBell .dbell hBell bell3).ov O.jq_head 20) % 65536 ≤ (aState sBell .dbell hBell bell3).ov O.jq_size 20 := by
  refine ⟨by constructor <;> decide, ?_, ?_, ?_, ?_, ?_, ?_, ?_, ?_⟩ <;> decide

/-- A fetch of page 0 at port 0 with a request behind it, and one of page 1 that would follow. -/
def sFetch : State := { sReq with
  chart := { sReq.chart with fetches := [(0, 5, 0)] }
  reqs := [{ Req.arriving 1 .rds 0 hReq [] with phase := .fetching, mask := 0x1F }] }

def sFetch2 : State := { sFetch with
  reqs := sFetch.reqs ++ [{ Req.arriving 2 .rds 0 { hReq with cva := 2 ^ 26, tag := 1 } [] with phase := .fetching, mask := 0x1F }] }

def fetched (s : State) (a b : Nat) : State :=
  let q := ({ s with chart := { s.chart with fetches := s.chart.fetches.erase (0, 5, 0) } } : State).readChart 16 a b
  let u := if q.1 = false then q.2.touchPtc ⟨0, 5, 0, e0⟩ else q.2
  u.serveFetched 16 q.1 (u.behindFetch 0 5 0)

theorem witness_HintsDoorbellsAndFetches_fetched :
    sFetch.chart.fetches.contains (0, 5, 0) = true ∧ (sFetch.readChart 16 0 0).1 = false ∧ (sFetch.readChart 16 2 2).1 = true ∧ sFetch.entry 16 = e0 ∧
    (fetched sFetch 0 0).nextFetch 0 = none ∧ (fetched sFetch2 0 0).nextFetch 0 = some (5, 1) ∧ (fetched sFetch2 2 2).nextFetch 0 = some (5, 1) := by decide

/-- A request sent to its home slice, an eviction, a request whose frame is closed, and a busy line. -/
def rSent (k : Kind) : Req := { Req.arriving 1 k 0 hReq [] with phase := .sent, mask := 0x1F, ppa := 2 ^ 26, rights := 0x1F }

def sSent (k : Kind) : State := { sReq with reqs := [rSent k], nextReq := 2 }

def rServed (k : Kind) : Req := { rSent k with ser := true, scale := sReq.ov O.int8_scale 0, phase := .served }

def uServed (s : State) (k : Kind) : State := (s.meet []).updReq 1 (fun _ => rServed k)

def sClosed : State := (sSent .rds).setFrame 1 { Frame.dflt with closedAll := true }

def sBusy : State := (sSent .rds).setDir 524288 { Dir.dflt with way := true, txn := some (Txn.fresh .rd 9) }

theorem witness_HomeSliceOrdersItsRequests_arriving :
    ((sSent .evc).arriving 0 1 0 = some (rSent .evc) ∧ (rSent .evc).kind = .evc ∧ hsOf (rSent .evc).ppa ≠ 31) ∧ ((sSent .wbd).arriving 0 1 0 = some (rSent .wbd)) ∧
    (sClosed.arriving 0 1 0 = some (rSent .rds) ∧ (uServed sClosed .rds).closedTo (rServed .rds) = true) ∧
    ((sSent .rds).arriving 0 1 0 = some (rSent .rds) ∧ Kind.rds.evict = false ∧ (uServed (sSent .rds) .rds).closedTo (rServed .rds) = false ∧
      (uServed (sSent .rds) .rds).writeHeld (rServed .rds) = false ∧
      (uServed (sSent .rds) .rds).remapHeld (rServed .rds).h.ctx (rServed .rds).vpn = false ∧ (rServed .rds).view = 0 ∧
      ((uServed (sSent .rds) .rds).dir (rServed .rds).line).txn = none ∧ ((uServed (sSent .rds) .rds).dir (rServed .rds).line).waits = []) ∧
    (sBusy.arriving 0 1 0 = some (rSent .rds) ∧ ((uServed sBusy .rds).dir (rServed .rds).line).txn ≠ none ∧
      ((uServed sBusy .rds).dir (rServed .rds).line).waits.length < 8 ∧ (uServed sBusy .rds).slcRecords (hsLine (rServed .rds).line) < 8192 ∧
      (uServed sBusy .rds).writeHeld (rServed .rds) = false) := by decide

/-- Port 2 is UP and reaches agent 1; a snoop to CAN 3 waits to leave and one has left; completions of an RDS with and without a grant wait. -/
def sUp : State := { ((sReq.setOv O.link_state 3 2).setOv O.reach_mask 4 1) with
  coh := { sReq.coh with
    snoops := [⟨0, 7, 3, 524288, .snpS, 5, 0, false, 0, 0⟩, ⟨0, 8, 3, 524289, .snpS, 5, 0, true, 2, 0⟩], grants := [⟨2, 1, 4, 3, 524288, 1⟩] }
  cmps := [⟨2, 1, 0, 1, .ok, 0, 0, false, false, 7, 128, 0, [], false, 524290, 3⟩, ⟨2, 1, 1, 2, .ok, 0, 2, false, false, 7, 128, 0, [], false, 524291, 3⟩] }

/-- The same with the synchronisation of port 2 running. -/
def sSyncing : State := { sUp with lostPorts := [(2, default)] }

theorem witness_HomeSliceOrdersItsRequests_leaving :
    (sUp.coh.snoops.find? (fun x => x.hs == 0 && x.sid == 7 && x.can == 3 && !x.out) = some ⟨0, 7, 3, 524288, .snpS, 5, 0, false, 0, 0⟩ ∧
      sUp.canAgent 3 = some 1 ∧ sUp.snpPort ⟨0, 7, 3, 524288, .snpS, 5, 0, false, 0, 0⟩ = some 2 ∧
      sUp.snpBefore ⟨0, 7, 3, 524288, .snpS, 5, 0, false, 0, 0⟩ 2 = false ∧ sUp.syncHolds 1 = false) ∧
    (∃ c, sUp.leaving 2 1 0 = some c ∧ sUp.cmpPort c = some 2 ∧ sUp.oldPortHolds c 2 = false ∧ c.grant = 0) ∧
    (∃ c, sUp.leaving 2 1 1 = some c ∧ sUp.cmpPort c = some 2 ∧ sUp.oldPortHolds c 2 = false ∧ c.grant ≠ 0 ∧ sUp.grantsAt 2 < 4096) ∧
    (∃ c, sSyncing.leaving 2 1 0 = some c ∧ sSyncing.cmpPort c = some 2 ∧ sSyncing.syncHolds 1 = true) ∧
    (sUp.coh.snoops.find? (fun x => x.hs == 0 && x.sid == 8 && x.can == 3 && x.out) = some ⟨0, 8, 3, 524289, .snpS, 5, 0, true, 2, 0⟩ ∧
      sUp.portUp 2 = true) ∧
    (sUp.coh.grants.any (fun g => g.port == 2 && g.agt == 1 && g.tag == 4) = true) := by
  refine ⟨by decide, ⟨_, rfl, by decide, by decide, rfl⟩, ⟨_, rfl, by decide, by decide, by decide, by decide⟩,
    ⟨_, rfl, by decide, by decide⟩, by decide, by decide⟩

/-- Line 524288 with owner 4 and no transaction; with sharer 3; a request of CAN 3 for it. -/
def sOwned : State := sReq.setDir 524288 { Dir.dflt with way := true, st := .x, owner := some 4, nctx := 5 }

def sShared : State := sReq.setDir 524288 { Dir.dflt with way := true, st := .s, sharers := 2 ^ 3, nctx := 5 }

theorem witness_HomeTableOpensTheRightSnoops :
    (rServed .rds).line = 524288 ∧ sOwned.txnRoom (hsLine 524288) = true ∧ (sOwned.dir 524288).owner ≠ some (rServed .rds).h.can ∧
    (sOwned.dir 524288).owner = some 4 ∧ (sShared.dir 524288).exactSharer 3 = true ∧ (rServed .upg).unk = false ∧
    (sShared.dir 524288).owner ≠ some (rServed .upg).h.can ∧ sShared.txnRoom (hsLine 524288) = true := by decide

/-- The owner's answer to SnpS is awaited: RspDO is allowed and RspDI is not; a grant awaits its GntAck; a victim's data waits to be taken. -/
def xSnp : SnpRec := ⟨hsLine 524288, 8, 3, 524288, .snpS, 5, 0, true, 2, 0⟩

def tSnp : Txn := { Txn.fresh .rd 1 with sid := 8, snps := [⟨3, .snpS, true⟩] }

def sRsp : State := { sReq.setDir 524288 { Dir.dflt with way := true, st := .x, owner := some 3, txn := some tSnp } with
  coh := { (sReq.setDir 524288 { Dir.dflt with way := true, st := .x, owner := some 3, txn := some tSnp }).coh with snoops := [xSnp] } }

def sGnt : State := { sReq with coh := { sReq.coh with
  grants := [⟨2, 1, 4, 3, 524288, 1⟩], dir := [(524288, { Dir.dflt with way := true, txn := some { Txn.fresh .own 1 with granted := true } })] } }

def sVictim : State := sReq.setDir 524288 { Dir.dflt with
  way := true, txn := some { Txn.fresh (.handover 524416) 1 with val := some ⟨.data (zeros 64), .data (zeros 64)⟩ } }

theorem witness_ResponsesGrantsAndEvictions :
    ((sRsp.agent 1).life = .present ∧ sRsp.coh.snoops.find? (sRsp.snoopOf 1 (hsLine 524288) 8 3) = some xSnp ∧ (sRsp.slc (hsLine 524288)).phase = 0 ∧
      (sRsp.dir 524288).txn = some tSnp ∧ tSnp.snps.find? (fun q => q.can == 3) = some ⟨3, .snpS, true⟩ ∧ tSnp.sid = 8 ∧
      rspAllowed .snpS true (true && (sRsp.dir 524288).st == .os) .dO = true ∧
      tSnp.kind ≠ .unk ∧ rspAllowed .snpS true (true && (sRsp.dir 524288).st == .os) .di = false) ∧
    (sGnt.coh.grants.find? (fun g => g.port == 2 && g.agt == 1 && g.tag == 4) = some ⟨2, 1, 4, 3, 524288, 1⟩ ∧
      (sGnt.slc (hsLine 524288)).phase = 0 ∧ (sGnt.dir 524288).txn = some { Txn.fresh .own 1 with granted := true }) ∧
    (∃ t, (sVictim.dir 524288).txn = some t ∧ t.kind = .handover 524416 ∧ t.val = some ⟨.data (zeros 64), .data (zeros 64)⟩) := by
  refine ⟨by decide, by decide, ⟨_, rfl, rfl, rfl⟩⟩

/-- Extent 7 (tag 0, context 5's) of frames 1 and 2, MOORED, and the frames' rows. -/
def x7 : Ext := { Ext.dflt with st := .moored, owner := 5, frames := [1, 2], names := [5] }

def sExt : State := ((sReq.setExt 7 x7).setFrame 1 { Frame.dflt with ext := 7 }).setFrame 2 { Frame.dflt with ext := 7, pos := 1 }

/-- The extent in its recall with nothing left of it in the directory. -/
def sRec : State := sExt.setExt 7 { x7 with st := .recalling, phase := 3 }

/-- The line 524288 of frame 1 is held while the extent is recalled, with and without a transaction. -/
def sWant : State := sRec.setDir 524288 { Dir.dflt with way := true, st := .s, sharers := 8, nctx := 5 }

def sWantBusy : State := sRec.setDir 524288 { Dir.dflt with way := true, st := .s, sharers := 8, nctx := 5, txn := some (Txn.fresh .rd 1) }

/-- Context 5 in the recall of its reset; a migration of frame 1 in its write hold; a commit of context 5 held by remap recalls. -/
def sQuiesce : State := sReq.setCtx 5 { Ctx.dflt with st := .quiescing, rphase := 2 }

def mig2 : Mig := ⟨1, 3, none, 1, 0, [], 2, 2 ^ 32 - 1, 0, 1, false, 0⟩

def sHold : State := { sExt with migs := [mig2] }

def com (ph : Nat) (i : Option IcKind) : Commit := ⟨5, 0, 0, i, [], [], 2 ^ 32 - 1, ph, 0, 0, true, 0⟩

def sCom (ph : Nat) (i : Option IcKind) : State := { sExt with chart := { sExt.chart with commits := [com ph i] } }

theorem witness_RecallsWalksAndCensus_walks :
    (sWantBusy.wanted 524288 = true ∧ (sWantBusy.dir 524288).txn ≠ none) ∧ (sWant.wanted 524288 = true ∧ (sWant.dir 524288).txn = none ∧ sWant.recallRoom (hsLine 524288) = true) ∧
    (sRec.walkClear 31 0 7 = true ∧ (sRec.ext 7).phase = 3 ∧ (sRec.ext 7).closingFor = none ∧ (sRec.flushLines []).ext 7 = sRec.ext 7) ∧
    (sQuiesce.walkClear 31 1 5 = true ∧ (sQuiesce.ctx 5).rphase = 2) ∧
    (sHold.walkClear 31 2 1 = true ∧ sHold.migs.any (fun m => m.src == 1 && m.phase == 2) = true) ∧ (sCom 2 none).walkClear 31 3 5 = true := by decide

/-- Home slice 4 takes reports of census 9; agent 1 answers for CAN 3 with no record and with 32. -/
def sCensus : State := sReq.setSlc 4 { Slc.dflt with phase := 2, census := 9, queried := [3], counted := true }

theorem witness_RecallsWalksAndCensus_census :
    (sCensus.agent 1).life = .present ∧ 32 ≤ 32 ∧ (List.replicate 8 (⟨zeros 32, false⟩ : Slot)).length = ceilDiv 32 4 ∧ ([] : List Slot).length = ceilDiv 0 4 ∧
    (sCensus.slc 4).census = 9 ∧ (sCensus.slc 4).counted = true ∧ sCensus.canAgent 3 = some 1 ∧ (sCensus.slc 4).phase ≠ 1 := by decide

/-- Accumulator lines: one that fills, one that is dirty. -/
def aFill : AccLine := ⟨0xF, zeros 128, 0, 0, true, true, [(hReq, [])], 0⟩

def aDirty : AccLine := { aFill with filling := false, pend := [] }

def sAcc (a : AccLine) : State := sExt.setAcc 524288 a

theorem witness_AccumulatorLinesAreFilledAndWritten :
    (((sAcc aFill).meet []).accAt 524288 = some aFill ∧ aFill.filling = true ∧
      ((sAcc aFill).bump O.acc_fills (hsLine 524288)).accAt 524288 = some aFill) ∧
    (sAcc aDirty).ov O.acc_idle_flush ≠ 0xFFFFFFFF ∧ ((sAcc aDirty).setOv O.acc_idle_flush 0xFFFFFFFF).ov O.acc_idle_flush = 0xFFFFFFFF ∧
    ((sAcc aDirty).accAt 524288 = some aDirty ∧ aDirty.filling = false ∧ aDirty.dirty = true ∧ (sAcc aDirty).lostWrite (524288 * 128) = false ∧
      aDirty.p0 = 0 ∧ aDirty.p1 = 0) ∧
    (sExt.liveExt 7 = some x7 ∧ x7.st = .moored ∧ bits 0x3F800000 23 8 ≠ 255 ∧ bits 0x7F7FFFFF 23 8 ≠ 255) := by decide

/-- A fill whose half-lines are stored reads as data. -/
theorem witness_AccumulatorLinesAreFilledAndWritten_data :
    ∃ bs bt, (((sAcc aFill).cwStore 1048576 (.data (zeros 64))).cwStore 1048577 (.data (zeros 64))).cwStored 1048576 = .data bs ∧
      (((sAcc aFill).cwStore 1048576 (.data (zeros 64))).cwStore 1048577 (.data (zeros 64))).cwStored 1048577 = .data bt := by
  exact ⟨zeros 64, zeros 64, by decide, by decide⟩

/-- A bank with one slot that names page 1 of context 5, its digest right (R71, R75) and its generation wrong. -/
def stg1 : Stg := { Stg.dflt with
  ctx := 5, count := 1, newGen := 1, slots := [(0, (({ e0 with extent := 7, frame := 2 } : Entry).pack, 1))], busy := true, cmd := 1 }

def sStg0 (k : Stg) : State := ((sCom 0 none).setExt 7 x7).setBank 0 0 k

def sStg : State := sStg0 { stg1 with digest := crc64 ((sStg0 stg1).digestInput 5 1 stg1.all) }

theorem witness_StagingBanksAndCommits_banks :
    ((s0.stgWrites 0 0 [⟨0x7E04, [1]⟩]).bank 0 0).busy = false ∧ ((s0.stgWrites 1 1 [⟨0x7E04, [1]⟩]).bank 1 1).busy = false := by decide

theorem witness_StagingBanksAndCommits_turn :
    (sStg.headCommit 5 = some (com 0 none) ∧ (com 0 none).internal = none ∧ (com 0 none).ph = 0 ∧
      sStg.commitFail 0 (sStg.bank 0 0) = none ∧ (sStg.bank 0 0).all.filter (sStg.remapping 5) = []) ∧
    ((sStg0 { stg1 with newGen := 2 }).headCommit 5 = some (com 0 none) ∧
      (sStg0 { stg1 with newGen := 2 }).commitFail 0 ((sStg0 { stg1 with newGen := 2 }).bank 0 0) = some (5, 0)) := by decide +kernel

theorem witness_StagingBanksAndCommits_apply :
    ((sCom 1 none).headCommit 5 = some (com 1 none) ∧ (com 2 none).ph = 2 ∧ (com 2 none).walk = 2 ^ 32 - 1 ∧ (sCom 1 none).openEpochs < 4) ∧
    ((sCom 2 (some (.publish 1 7 8))).headCommit 5 = some (com 2 (some (.publish 1 7 8))) ∧
      (sCom 2 (some (.publish 1 7 8))).earlierWindow (com 2 (some (.publish 1 7 8))) = false ∧ (sCom 2 (some (.publish 1 7 8))).openEpochs < 4 ∧
      (sCom 2 (some (.publish 1 7 8))).islandQueue < 8192) ∧
    ((sCom 1 (some (.revocation 7))).headCommit 5 = some (com 1 (some (.revocation 7))) ∧ (com 1 (some (.revocation 7))).ph < 2 ∧
      (sCom 1 (some (.revocation 7))).earlierWindow (com 1 (some (.revocation 7))) = false ∧ (sCom 1 (some (.revocation 7))).openEpochs < 4 ∧
      (sCom 1 (some (.revocation 7))).islandQueue < 8192) ∧
    (∀ x y z, IcKind.revocation 7 ≠ .publish x y z) ∧
    ((sCom 0 (some (.revocation 8))).headCommit 5 = some (com 0 (some (.revocation 8))) ∧
      (sCom 0 (some (.revocation 8))).earlierWindow (com 0 (some (.revocation 8))) = false ∧
      (sCom 0 (some (.revocation 8))).internalWrites (com 0 (some (.revocation 8))) = []) ∧
    ((sCom 3 none).headCommit 5 = some (com 3 none) ∧ (com 3 none).ph = 3 ∧ (sCom 3 none).drained (com 3 none) = true) :=
  ⟨by decide, by decide, by decide, (fun _ _ _ h => by cases h), by decide, by decide⟩

/-- Context 6 is CONFIGURING: a window that ends with the chart, one past it, one that overlaps context 5's, and no entries. -/
def sWin : State := sReq.setCtx 6 { Ctx.dflt with st := .configuring }

theorem witness_WindowGeometryIsChecked :
    ((({ sWin with objs := [] } : State).ctx 6).st = .configuring ∧ 524280 + 8 ≤ 524288 ∧ ({ sWin with objs := [] } : State).winOverlap 6 524280 8 = false) ∧
    (524288 < 524281 + 8) ∧ sWin.winOverlap 6 20 8 = true ∧ (1 ≠ 0 ∧ 0 = 0) ∧ (sWin.ctx 5).st ≠ .configuring := by decide +kernel

theorem witness_BindingsAreCheckedAndStayDistinct :
    4095 < 4096 ∧ 7 < 8 ∧ ((2 ^ 31 + 6 : Nat).testBit 31 = true ∧ (sWin.ctx ((2 ^ 31 + 6) % 1024)).st ≠ .free ∧
      (∀ j < 8, j ≠ 7 → (sWin.binding 1 j).testBit 31 = true → sWin.binding 1 j % 1024 ≠ (2 ^ 31 + 6) % 1024) ∧ (sWin.binding 1 7).testBit 31 = false) ∧
    (∀ j < 8, ∀ k < 8, j ≠ k → (sWin.binding 1 j).testBit 31 = true → (sWin.binding 1 k).testBit 31 = true →
      sWin.binding 1 j % 1024 ≠ sWin.binding 1 k % 1024) :=
  have only : ∀ j < 8, (sWin.binding 1 j).testBit 31 = true → j = 0 := by decide
  ⟨by decide, by decide, ⟨by decide, by decide, by decide, by decide⟩,
    fun j hj k hk h a b => absurd ((only j hj a).trans (only k hk b).symm) h⟩

theorem witness_BindingsAreCheckedAndStayDistinct_write : sWin.objsOk ∧ ∃ t, exec (.bindingWrite 1 7 (2 ^ 31 + 6)) sWin = .next t :=
  ⟨⟨by decide, by decide⟩, _, rfl⟩

/-- Entry 0 of agent 1 names context 5: it may be cleared, or name context 6 instead; entry 7 may not name context 5 too, nor a FREE context. -/
theorem witness_BindingsAreCheckedAndStayDistinct_clauses :
    ((sWin.binding 1 0).testBit 31 = true ∧ sWin.binding 1 0 % 1024 = 5 ∧ (sWin.ctx 6).st ≠ .free ∧
      (∀ j < 8, j ≠ 0 → (sWin.binding 1 j).testBit 31 = true → sWin.binding 1 j % 1024 ≠ 6)) ∧
    ((0 : Nat).testBit 31 = false ∧ (sWin.binding 1 7).testBit 31 = false) ∧
    ((2 ^ 31 + 1023 : Nat).testBit 31 = true ∧ (sWin.ctx ((2 ^ 31 + 1023) % 1024)).st = .free) ∧
    (∃ j < 8, j ≠ 7 ∧ (sWin.binding 1 j).testBit 31 = true ∧ sWin.binding 1 j % 1024 = (2 ^ 31 + 5) % 1024) := by decide

/-- Extents wait for the command: a MOOR of one HBM frame for context 5, a SHARE of extent 7 with context 6, an UNSHARE of a sharer. -/
def sMoor : State := (sExt.setOv O.ext_count 1).setOv O.ext_ctx 5

def sShare : State := ((sExt.setOv O.ext_handle 7).setOv O.ext_ctx 6).setCtx 6 { Ctx.dflt with st := .configuring }

def sUnshare : State := sShare.setExt 7 { x7 with sharers := [(6, 1)] }

def sNode : State := (sExt.setOv O.grant_handle 7).setOv O.node_number 12

/-- The grant of extent 7 to node 1 with every right, as the node signs it. -/
def gBody : Nat := grantBody 12 1 7 7 0

def gGrant : Nat := gBody * 2 ^ 64 + sNode.grantTag gBody

theorem witness_ExtentCommandsComplete :
    sMoor.chart.extBusy = false ∧
    (1 ≤ sMoor.ov O.ext_count ∧ sMoor.ov O.ext_count ≤ 16384 ∧ bits (sMoor.ov O.ext_place) 1 3 = 0 ∧ bits (sMoor.ov O.ext_place) 6 1 = 0 ∧
      sMoor.ov O.ext_mirror < 2 ∧ sMoor.canMoor (sMoor.ov O.ext_ctx) = true ∧ sMoor.moorPlan = some ([0], [])) ∧
    (sShare.liveExt (sShare.ov O.ext_handle) = some x7 ∧ x7.st = .moored ∧ sShare.ov O.ext_cap < 32 ∧ x7.owner ≠ 6 ∧
      x7.sharers.any (fun p => p.1 == 6) = false ∧ sShare.canMoor 6 = true ∧ x7.sharers.length < 8) ∧
    (∃ x, sUnshare.liveExt (sUnshare.ov O.ext_handle) = some x ∧ x.st = .moored ∧ x.sharers.any (fun p => p.1 == 6) = true) ∧
    (sNode.liveExt (sNode.ov O.grant_handle) = some x7 ∧ sNode.ov O.node_number ≠ 0xFFF) ∧ sNode.honoured 0 1 7 2 = none := by
  refine ⟨by decide, by decide, by decide, ⟨_, rfl, by decide, by decide⟩, by decide, by decide⟩

theorem witness_ExtentCommandsComplete_slot : sMoor.freeSlot = some 1 := by
  have h : (sMoor.ext 1).st = .free := by decide
  rw [State.freeSlot, show (65535 : Nat) = 65534 + 1 from rfl, List.range_succ_eq_map, List.findSome?_cons]
  simp [h]

theorem witness_ExtentCommandsComplete_honoured : sNode.honoured gGrant 1 7 2 = some 7 := by
  have key : ∀ b g : Nat, g < 2 ^ 64 → (b * 2 ^ 64 + g) / 2 ^ 64 = b ∧ (b * 2 ^ 64 + g) % 2 ^ 64 = g := by
    intro b g h; omega
  obtain ⟨hb, ht⟩ := key gBody (sNode.grantTag gBody) (Nat.mod_lt _ (by decide))
  have hg : gGrant = gBody * 2 ^ 64 + sNode.grantTag gBody := rfl
  have hx : sNode.liveExt 7 = some x7 := by decide
  simp only [State.honoured, hg, hb, ht, hx]
  rw [if_pos (by refine ⟨?_, ?_, ?_, ?_, ?_, ?_, ?_, trivial⟩ <;> decide)]

/-- A fault record waits on ring 0 with no request, and one with a request in a retry slot. -/
def fRec (i : Option Nat) : FRec := ⟨2, 0, 5, 1, 0, 0, 0, 0, 0, 0, false, i⟩

def sFault (i : Option Nat) : State := { sReq.setOv O.fr_enable 1 0 with
  frecs := [fRec i], reqs := [{ Req.arriving 1 .rds 0 hReq [] with phase := .slotted, slot := true }] }

def sPosted : State := ({ sFault (some 1) with frecs := [] } : State).postRec (fRec (some 1)) 0

theorem witness_RevocationAndFaultRecords_records :
    ((sFault none).postable 5 = some (fRec none) ∧ (sFault none).ringOf 5 = some 0 ∧ (fRec none).req = none) ∧
    ((sFault (some 1)).postable 5 = some (fRec (some 1)) ∧ (sFault (some 1)).ringOf 5 = some 0 ∧
      sPosted.req? 1 = some { Req.arriving 1 .rds 0 hReq [] with phase := .slotted, slot := true }) ∧
    Tab.get (0, false) ({ s0 with frMsi := [(2, (40, true))] } : State).frMsi 2 = (40, true) ∧ (sReq.ctx 5).st ≠ .free := by decide

/-- The revocation of extent 7 at each of its steps. -/
def sRev (ph : Nat) : State := sExt.setExt 7 { x7 with
  st := if ph = 2 then .draining else .closing, phase := ph, counter := ph != 0, waitSince := if ph = 0 then 1 else 0, walk := 2 ^ 32 - 1 }

theorem witness_RevocationAndFaultRecords_steps :
    (((sRev 1).ext 7).phase = 1 ∧ (sRev 1).closeEnded 7 = true ∧ ((sRev 1).ext 7).closingFor = none) ∧
    ((sRev 0).countersUsed < 64 ∧ (sRev 0).closeWaiter = some 7) ∧ (((sRev 2).ext 7).phase = 2 ∧ (sRev 2).counted 7 = false) ∧
    (((sRev 3).ext 7).phase = 3 ∧ ((sRev 3).ext 7).walk = 2 ^ 32 - 1 ∧ (sRev 3).counted 7 = false ∧ (sRev 3).mwrs.any (fun m => m.slot == 7) = false ∧
      (sRev 3).islandQueue + ((sRev 3).ext 7).names.length ≤ 8192 ∧ ((sRev 3).ext 7).closingFor = none ∧ ((sRev 3).ext 7).remoor = false) := by decide

/-- Bytes with a field of `n` bytes written at each of the offsets given. -/
def fields (n : Nat) (l : List (Nat × Nat × Nat)) : Bytes := l.foldl (fun b x => splice x.1 (natLe x.2.1 x.2.2) b) (zeros n)

/-- Job descriptors of each kind: 128 elements at 0x2000 to 0x4000 (R252, Table 3). -/
def jobDesc (kind flags : Nat) : Bytes := fields 128 [(0, 1, kind), (1, 1, flags), (8, 8, 128), (24, 6, 0x2000), (32, 6, 0x4000)]

/-- A strip of a job on tile 0 at its page's entry. -/
def strip0 (stage : Nat) : Strip := ⟨0, 0, stage, none, [(0, e0)], 0, [], [], none⟩

def job (kind flags stage : Nat) : Job := { (default : Job) with
  id := 1, ctx := 5, desc := jobDesc kind flags, consts := zeros 128, slen := 256, next := 1, begun := true, strips := [strip0 stage] }

def sJob (kind flags stage : Nat) : State := { sReq with jobs := { sReq.jobs with jobs := [job kind flags stage], nextJob := 2 } }

/-- A COPY, a FILL and a CHECKSUM may be computed; a page of the COPY is closed to its context. -/
theorem witness_TilesComputeTheirStrips :
    ((sJob 5 0 0).Strips 0 (job 5 0 0) (strip0 0) ∧ ((sJob 5 0 0).meet m0.errs).Computes (job 5 0 0) (strip0 0) ∧ (job 5 0 0).kind = 5) ∧
    ((sJob 4 0 0).Strips 0 (job 4 0 0) (strip0 0) ∧ ((sJob 4 0 0).meet m0.errs).Computes (job 4 0 0) (strip0 0)) ∧
    ((sJob 6 0 0).Strips 0 (job 6 0 0) (strip0 0) ∧ ((sJob 6 0 0).meet m0.errs).Computes (job 6 0 0) (strip0 0) ∧ (job 6 0 0).kind = 6) ∧
    (((sJob 5 0 0).setFrame 1 { Frame.dflt with closedAll := true }).Strips 0 (job 5 0 0) (strip0 0) ∧
      (0, e0) ∈ (strip0 0).trs ∧ (((sJob 5 0 0).setFrame 1 { Frame.dflt with closedAll := true }).meet m0.errs).frameClosed e0.frame 5 = true) := by
  refine ⟨⟨?_, ?_, ?_⟩, ⟨?_, ?_⟩, ⟨?_, ?_, ?_⟩, ?_, ?_, ?_⟩ <;> first | decide | (constructor <;> decide)

theorem witness_SimpleKindsComputeWhatTheySay : (job 4 0 0).kind = 4 ∧ (job 5 0 0).kind = 5 ∧ (job 6 0 0).kind = 6 := by decide

theorem witness_ChecksumIsTheCrcOfTheWhole :
    ∃ j : Job, j.kind = 6 ∧ j.parts.Perm ((([[1, 2], [3]] : List Bytes)).zipIdx.map (fun p => (p.2, crc64 p.1, p.1.length, false))) :=
  ⟨{ job 6 0 0 with parts := [(1, crc64 [3], 1, false), (0, crc64 [1, 2], 2, false)] }, by decide, List.Perm.swap _ _ _⟩

/-- Tile 0 is free and a COPY has a strip to start; or a committed strip has lost its tile and tile 0's journal holds its record. -/
def jobNew : Job := { job 5 0 0 with next := 0, strips := [] }

def sNew : State := ({ sReq with jobs := { sReq.jobs with jobs := [jobNew], nextJob := 2 } } : State).ungate 1 0

def jrec : JRec := ⟨1, 0, sReq.sec.journalKey, [(0, e0)], [], [], none⟩

def sOrphan : State := { sNew with jobs := { sNew.jobs with jobs := [{ job 5 0 2 with strips := [{ strip0 2 with tile := 64 }] }], journal := [(0, some jrec)] } }

theorem witness_StripsAreTakenCommittedAndApplied_taken :
    0 < 64 ∧ sNew.onTile 0 = none ∧ sNew.tileReady 0 = true ∧ sNew.orphanStrip = none ∧
    (sNew.drrPick (Tab.get Drr.init sNew.jobs.drr 0) (sNew.liveCtxs.filterMap (fun c =>
        if (sNew.ov O.tile_quota c == 0xFFFF || decide (sNew.runningStrips c < sNew.ov O.tile_quota c)) ∧ (sNew.ctx c).st = .active then
          (sNew.jobWithStrip 0 c).map (fun p => (c, sNew.stripCost p.1 p.2)) else none))).1 = some 5 ∧
    sNew.jobWithStrip 0 5 = some (jobNew, 0) := by decide

theorem witness_StripsAreTakenCommittedAndApplied_replayed :
    sOrphan.onTile 0 = none ∧ sOrphan.tileReady 0 = true ∧
    (∃ j x, sOrphan.orphanStrip = some (j, x) ∧ sOrphan.journalOf j.id x.idx = some jrec) :=
  ⟨by decide, by decide, _, _, rfl, by decide⟩

/-- A reduction of job 1 has completed under tag 40. -/
def sRed (st : St) : State := { sJob 2 0 0 with
  jobs := { (sJob 2 0 0).jobs with jobs := [{ job 2 0 0 with accs := [(40, ⟨0x4000, 0, 0, false⟩)] }] }
  reqs := [{ Req.arriving 9 .acc innerPort hReq [] with phase := .done }]
  cmps := [⟨innerPort, 0, 40, 9, st, 0, 0, false, false, 7, 0, 0, [], false, 0, 0⟩] }

theorem witness_StripsAreTakenCommittedAndApplied_ended :
    ((sJob 5 0 1).onTile 0 = some (job 5 0 1, strip0 1) ∧ (job 5 0 1).inplace = false ∧ (strip0 1).stage = 1 ∧ (job 5 0 1).fail = 0 ∧
      (sJob 5 0 1).journalSpace ((sJob 5 0 1).physOf 1 0) = some 0) ∧
    ({ job 5 0 1 with fail := 2 } : Job).fail ≠ 0 ∧
    ((sJob 5 0 2).onTile 0 = some (job 5 0 2, strip0 2) ∧ (strip0 2).stage = 2 ∧ ((sJob 5 0 2).meet []).clear [] ((strip0 2).held.map
      (pieceWant (strip0 2).trs 5)) = true) ∧
    ((sJob 5 1 1).onTile 0 = some (job 5 1 1, strip0 1) ∧ (job 5 1 1).inplace = true) ∧
    (∀ st, ∃ c j q, (sRed st).cmps.find? (fun c => c.port == innerPort && c.tag == 40) = some c ∧
      (sRed st).jobs.jobs.findSome? (fun j => (j.accs.find? (fun a => a.1 == 40)).map (fun a => (j, a.2))) = some (j, ⟨0x4000, 0, 0, false⟩) ∧
      c.status = st ∧ (sRed st).req? c.reqId = some q) := by
  refine ⟨by decide, by decide, by decide, by decide, fun st => ⟨_, _, _, rfl, rfl, rfl, rfl⟩⟩

/-- A COPY descriptor lies at the base of queue 0 of context 5, in frame 1. -/
def sQueue : State := (((sBell.setOv O.jq_base 0x1000 20).setOv O.jq_tail 1 20).cwStore 1048640 (.data ((jobDesc 5 0).take 64))).cwStore 1048641
  (.data ((jobDesc 5 0).drop 64))

/-- Host function 1 of port 0 belongs to context 5. -/
def sHost : State := sReq.setOv O.ntf_func 1 5

theorem witness_QueuesJobsAndRecipesComplete_queues :
    (sHost.wake.vfCtx 0 1 = some 5 ∧ sHost.wake.ideRefuses 5 true = false ∧ (sHost.wake.ctx 5).st ≠ .quiescing ∧ (sHost.wake.ctx 5).st ≠ .sweeping) ∧
    (0 < 4 ∧ (sQueue.meet []).pwr.entering = false ∧ ((sQueue.meet []).ctx 5).st = .active ∧ (sQueue.meet []).ob O.jq_enable 20 = true ∧
      (sQueue.meet []).ov O.jq_state 20 = 1 ∧
      (sQueue.meet []).queueAsleep 20 = false ∧ (sQueue.meet []).ov O.jq_head 20 ≠ (sQueue.meet []).ov O.jq_tail 20 ∧
      (sQueue.meet []).queueJobs 5 0 = [] ∧ (sQueue.meet []).jobs.jobs.length < 1024 ∧
      (sQueue.meet []).ov O.jq_base 20 + 128 * ((sQueue.meet []).ov O.jq_head 20 % (sQueue.meet []).ov O.jq_size 20) = 0x1000 ∧
      0x1000 / 2 ^ 26 < (sQueue.meet []).ov O.win_count 5) := by decide

/-- The state in which the descriptor has been read and its job entered. -/
def sEntered : State := ((sQueue.meet []).dispRead [] 5 0x1000 0).2.enterJob 5 0 0x1000 (jobDesc 5 0) 0

theorem witness_QueuesJobsAndRecipesComplete_fetch :
    ((sQueue.meet []).dispRead [] 5 0x1000 0).1 = some (.ok e0, jobDesc 5 0, false) ∧
    ∃ j, sEntered.jobs.jobs.getLast? = some j ∧ bit (fld j.desc 1 1) 2 = false ∧ j.kind ≠ 8 ∧ j.kind ≠ 1 ∧ sEntered.badDesc j = false := by
  refine ⟨by decide +kernel, _, rfl, by decide +kernel, by decide +kernel, by decide +kernel, by decide +kernel⟩

/-- A queue and a strip wait on a page with a time-out set. -/
def sParked : State := { sReq.setOv O.job_fault_timeout 1000 with jobs := { sReq.jobs with
  qwait := [(20, some (0, some 3))], jobs := [{ job 5 0 0 with strips := [{ strip0 0 with parked := some 9 }] }] } }

theorem witness_QueuesJobsAndRecipesComplete_timeouts :
    sParked.ov O.job_fault_timeout ≠ 0xFFFFFFFF ∧ Tab.get none sParked.jobs.qwait 20 = some (0, some 3) ∧
    sParked.onTile 0 = some ({ job 5 0 0 with strips := [{ strip0 0 with parked := some 9 }] }, { strip0 0 with parked := some 9 }) ∧
    ({ strip0 0 with parked := some 9 } : Strip).parked = some 9 := by decide

/-- A PUBLISH of extents 7 and 8, two frames each, of context 5. -/
def jobPub (p : Nat) : Job := { (default : Job) with
  id := 1, ctx := 5, desc := fields 128 [(0, 1, 8), (8, 8, 2), (80, 8, 7 + 8 * 2 ^ 32)], consts := zeros 128, slen := 256, begun := true, pub := p }

def sPub (p : Nat) : State := let s : State := sExt.setExt 8 { x7 with frames := [3, 4] }
  { s with jobs := { s.jobs with jobs := [jobPub p], nextJob := 2 } }

theorem witness_QueuesJobsAndRecipesComplete_publish :
    ((sPub 0).job? 1 = some (jobPub 0) ∧ (jobPub 0).kind = 8 ∧ (jobPub 0).begun = true ∧ (jobPub 0).pub = 0 ∧ (jobPub 0).fail = 0 ∧ (jobPub 0).count ≠ 0 ∧
      bits (jobPub 0).arg 0 20 = 7 ∧ bits (jobPub 0).arg 32 20 = 8 ∧
      (∀ m ∈ (sPub 0).migs, ((sPub 0).frame m.src).ext ≠ 7 ∧ ((sPub 0).frame m.src).ext ≠ 8)) ∧
    ((sPub 1).job? 1 = some (jobPub 1) ∧ (jobPub 1).pub = 1 ∧ (sPub 1).chart.commits = []) := by decide

theorem witness_QueuesJobsAndRecipesComplete_extents :
    ∀ h ∈ [7, 8], ∃ x, (sPub 0).liveExt h = some x ∧ x.st = .moored ∧ x.owner = (jobPub 0).ctx ∧ x.frames.length = (jobPub 0).count := by
  intro h hm
  simp only [List.mem_cons, List.not_mem_nil, or_false] at hm
  rcases hm with rfl | rfl
  · exact ⟨x7, by decide, by decide, by decide, by decide⟩
  · exact ⟨{ x7 with frames := [3, 4] }, by decide, by decide, by decide, by decide⟩

/-- A job of queue 0 that is finished: its completion area lies in page 0. -/
def jobDone : Job := { jobNew with done := 1, next := 1, area := 0x1000 }

def sDone : State := ({ sQueue with jobs := { sQueue.jobs with jobs := [jobDone] } } : State).flushSpoil 1

theorem witness_QueuesJobsAndRecipesComplete_complete :
    sDone.job? 1 = some jobDone ∧ jobDone.finished = true ∧ sDone.entry (sDone.ov O.win_base 5 + jobDone.area / 2 ^ 26) = e0 ∧ e0.valid = true ∧ e0.typ = 0 ∧
    jobDone.area / 2 ^ 26 < sDone.ov O.win_count 5 ∧ sDone.frameClosed e0.frame 5 = false ∧ sDone.clear [] [wantAt [(0, e0)] 5 jobDone.area] = true := by decide

/-- A recipe image of one operation, ADD of streams 1 and 2 into stream 0 (R266, R271), for context 5. -/
def img : Bytes := fields 1024 [(0, 1, 1), (1, 1, 1), (64, 1, 2), (66, 1, 1), (67, 1, 2)]

def sImg : State := (sReq.setOv O.rcp_ctx 5).setOct O.rcp_image img

/-- Recipe number 16 is loaded, and no job uses it. -/
def sLoaded : State := { sReq with jobs := { sReq.jobs with rcps := [(16, some ⟨5, img⟩)] } }

theorem witness_QueuesJobsAndRecipesComplete_recipes :
    (imageOk (sImg.oct O.rcp_image) = true ∧ sImg.canMoor (sImg.ov O.rcp_ctx) = true ∧ sImg.loadedOf (sImg.ov O.rcp_ctx) < sImg.ov O.rcp_per_ctx ∧
      sImg.freeRecipe = some 16) ∧
    ((16 = 0 ∨ 15 < 16) ∧ Tab.get none sLoaded.jobs.rcps 16 = some ⟨5, img⟩ ∧
      sLoaded.jobs.jobs.any (fun j => j.ctx == 5 && j.kind == 1 && j.recipe == 16) = false) := by decide +kernel

/-- Descriptors of tender operations (R299, Table 3). -/
def tDesc (opc flags arg count src dst handle : Nat) : Bytes :=
  fields 64 [(0, 1, opc), (1, 1, flags), (2, 2, 5), (5, 1, arg), (8, 8, count), (16, 8, src), (24, 8, dst), (48, 4, handle)]

/-- The operation a descriptor starts, of context 5 and index 0. -/
def tOp (d : Bytes) : Tend := {
  id := 1, ring := 0, index := 0, desc := d, ctx := 5, next := 0, total := 0, redo := [], running := [], done := 0,
  fail := 0, poisoned := false, skipped := false, parked := none, asleep := none, remote := [], pages := [], started := false, key := 0 }

def copyOp : Tend := tOp (tDesc 1 0 0 4096 0 0x10000 0)

def migrOp : Tend := tOp (tDesc 2 0 0x81 1 0 0 0)

def drainOp : Tend := tOp (tDesc 8 0 2 1 0 0 0)

def sTend (s : State) (o : Tend) : State := { s with tends := { s.tends with ops := [o], nextOp := 2 } }

/-- Ring 0 is enabled, with one descriptor between its head and tail. -/
def sRing : State := ((sReq.setOv O.tr_enable 1 0).setOv O.tr_size 4 0).setOv O.tr_tail 1 0

def copyRd : HostRd := ⟨tDesc 1 0 0 4096 0 0x10000 0, [], false⟩

theorem witness_TenderOperationsRun_rings :
    (sRing.wake.ob O.tr_enable 0 = true ∧
      (sRing.wake.ov O.tr_tail 0 + 65536 - sRing.wake.ov O.tr_head 0) % 65536 ≤ (4 % 65536 + 65536 - sRing.wake.ov O.tr_head 0) % 65536 ∧
      (4 % 65536 + 65536 - sRing.wake.ov O.tr_head 0) % 65536 ≤ sRing.wake.ov O.tr_size 0) ∧ (1 < 2) ∧
    (sRing.pwr.entering = false ∧ sRing.ov O.tr_head 0 ≠ sRing.ov O.tr_tail 0 ∧ copyRd.err = false ∧ sRing.tends.ops.filter (fun o => o.ring == 0) = [] ∧
      fitTo 64 copyRd.data = copyOp.desc ∧ fld (fitTo 64 copyRd.data) 2 2 % 1024 = 5 ∧ tendForm copyOp = true ∧ (sRing.ctx 5).st = .active ∧
      sRing.ov O.owner_port 5 = 0 ∧ copyOp.count ≠ 0) := by decide

/-- A chunk of a COPY runs on engine 3; all its chunks are done. -/
def copyRun : Tend := { copyOp with next := 1, running := [(0, 3)] }

def copyEnd : Tend := { copyOp with next := 1, done := 1 }

theorem witness_TenderOperationsRun_operations :
    ((((sTend sExt migrOp).ungate 2 0).op? 1 = some migrOp) ∧ migrOp.opc = 2 ∧ migrOp.started = false ∧ migrOp.fail = 0 ∧ migrOp.count ≠ 0 ∧
      migrOp.asleep = none ∧
      (((sTend sExt migrOp).ungate 2 0).chunkPages migrOp 0 ((List.range 1).map (fun i => (0 / 2 ^ 26 + i, 1))) []).1 = some [(0, e0)] ∧
      frameSet ([(0, e0)].map (fun p => p.2.frame)) = [1] ∧ [1].filter (fun f => tierOf f != migrOp.migPlace.2) = [1]) ∧
    (drainOp.opc = 8 ∧ drainOp.started = false ∧ drainOp.count ≠ 0 ∧ ((sTend sExt drainOp).startDrain (drainOp.arg % 16) 1 false).1 = 0) ∧
    ((sTend sExt copyRun).op? 1 = some copyRun ∧ copyRun.running.contains (0, 3) = true ∧ copyRun.remote.any (fun r => r.chunk == 0) = false) ∧
    ((sTend sExt copyEnd).op? 1 = some copyEnd ∧ (sTend sExt copyEnd).opFinished copyEnd = true) := by decide

/-- Frame 1 may move: to the first free frame of DDR5. -/
def sMig0 : State := (((sTend sExt migrOp).ungate 2 0).chunkPages migrOp 0 [(0, 1)] []).2

theorem witness_TenderOperationsRun_migrate :
    [1].any (fun f => (sMig0.migOf f).isSome || (sMig0.frame f).rcd.isSome) = false ∧ sMig0.movesFit migrOp.migPlace.2 migrOp.migPlace.1 [1] [] = true := by
  decide

/-! The chunk a tender engine picks, and its pages translated. -/

def ready (o : Tend) : State :=
  (((sTend ((sExt.setOv O.link_state 3 0).setOv O.shp_rate 0xFFFF 5) o).setOv O.blk_ports 1).ungate 2 0).meet []

def picks (o : Tend) : Bool := ((ready o).pickChunk 0 o.opc).map (fun x => (x.1, x.2.1)) == some (o, 0)

def transl (o : Tend) (rs : List (Nat × Nat × Nat)) : Option (List (Nat × Entry)) × State := (ready o).chunkPages o 0 (needPages rs) []

/-- PUT, GET, HOST_IN, HOST_OUT and UNWRAP of one chunk. -/
def putOp : Tend := tOp (fields 64 [(0, 1, 3), (2, 2, 5), (6, 2, 9), (8, 8, 4096), (24, 8, 0), (48, 4, 7)])

def getOp : Tend := tOp (fields 64 [(0, 1, 4), (2, 2, 5), (6, 2, 9), (8, 8, 4096), (24, 8, 0), (48, 4, 7)])

def inOp : Tend := tOp (tDesc 5 0 0 1 0x100000 0 7)

def outOp : Tend := tOp (tDesc 6 0 0 1 0 0x100000 7)

def headOp : Tend := tOp (tDesc 7 0 0 0x10000 0 0x20000 0)

def unwrapOp : Tend := { headOp with started := true, key := 4096 }

theorem witness_EnginesMoveChunks_copy :
    picks copyOp = true ∧ copyOp.opc = 1 ∧ (transl copyOp (copyOp.chunkRanges 0)).1 = some [(0, e0)] ∧
    (transl copyOp (copyOp.chunkRanges 0)).2.LinesClear 5 (chunkWants [(0, e0)] 5 (copyOp.chunkRanges 0) 1)
      (chunkWants [(0, e0)] 5 (copyOp.chunkRanges 0) 2) := by
  refine ⟨?_, ?_, ?_, ?_, ?_⟩ <;> decide +kernel

theorem witness_EnginesMoveChunks_remote :
    (picks putOp = true ∧ putOp.opc = 3 ∧ (transl putOp (putOp.chunkRanges 0)).1 = some [(0, e0)] ∧
      (transl putOp (putOp.chunkRanges 0)).2.shaperHas 5 = true ∧ (ready putOp).blkPort 0 = some 0 ∧
      (transl putOp (putOp.chunkRanges 0)).2.LinesClear 5 (chunkWants [(0, e0)] 5 (putOp.chunkRanges 0) 1) []) ∧
    (picks getOp = true ∧ getOp.opc = 4 ∧ (transl getOp (getOp.chunkRanges 0)).1 = some [(0, e0)] ∧ (ready getOp).blkPort 0 = some 0) := by
  refine ⟨⟨?_, ?_, ?_, ?_, ?_, ?_, ?_⟩, ?_, ?_, ?_, ?_⟩ <;> decide +kernel

theorem witness_EnginesMoveChunks_host :
    (picks inOp = true ∧ inOp.opc = 5 ∧ (ready inOp).liveExt inOp.handle = some x7 ∧ x7.st = .moored ∧
      (ready inOp).LinesClear 5 [] ((inOp.hostChunk x7 0).map ownWant)) ∧
    (picks outOp = true ∧ outOp.opc = 6 ∧ (ready outOp).liveExt outOp.handle = some x7 ∧
      (ready outOp).LinesClear 5 ((outOp.hostChunk x7 0).map ownWant) []) := by
  refine ⟨⟨?_, ?_, ?_, ?_, ?_, ?_⟩, ?_, ?_, ?_, ?_, ?_⟩ <;> decide +kernel

/-- An UNWRAP whose header is not sound, and one whose chunk may be written or whose whole destination may. -/
theorem witness_EnginesMoveChunks_unwrap :
    (picks headOp = true ∧ headOp.started = false ∧ (transl headOp (headOp.chunkRanges 0)).1 = some [(0, e0)] ∧
      (transl headOp (headOp.chunkRanges 0)).2.LinesClear 5 (chunkWants [(0, e0)] 5 (headOp.chunkRanges 0) 1) []) ∧
    (picks unwrapOp = true ∧ unwrapOp.started = true ∧
      (transl unwrapOp ((unwrapOp.dst, unwrapOp.key, 2) :: unwrapOp.chunkRanges 0)).1 = some [(0, e0)] ∧
      (transl unwrapOp ((unwrapOp.dst, unwrapOp.key, 2) :: unwrapOp.chunkRanges 0)).2.LinesClear 5
        (chunkWants [(0, e0)] 5 (unwrapOp.chunkRanges 0) 1) [] ∧
      (transl unwrapOp ((unwrapOp.dst, unwrapOp.key, 2) :: unwrapOp.chunkRanges 0)).2.LinesClear 5 []
        (chunkWants [(0, e0)] 5 (unwrapOp.chunkRanges 0) 2) ∧
      (transl unwrapOp ((unwrapOp.dst, unwrapOp.key, 2) :: unwrapOp.chunkRanges 0)).2.LinesClear 5 [] (wantsOf [(0, e0)] 5 [(0x20000, 4096)])) := by
  refine ⟨⟨?_, ?_, ?_, ⟨?_, ?_⟩⟩, ?_, ?_, ?_, ⟨?_, ?_⟩, ⟨?_, ?_⟩, ?_, ?_⟩ <;> decide +kernel

/-- Migrations of frame 1 to frame 5 at each phase. -/
def mig (ph todo dirty passes : Nat) : Mig := ⟨1, 5, none, passes, dirty, List.range todo, ph, 2 ^ 32 - 1, 0, 1, false, 0⟩

def sMig (g : Mig) : State := { sTend sExt { migrOp with started := true, pages := [2] } with migs := [g] }

theorem witness_MigrationRowsComplete :
    ((sMig (mig 1 0 0 0)).op? 1 = some { migrOp with started := true, pages := [2] } ∧ [2].find? (sMig (mig 1 0 0 0)).canMove = some 2 ∧
      ((sMig (mig 1 0 0 0)).moveDest 2 1 allSecs []).isSome = true) ∧
    ((sMig (mig 1 0 1 0)).migOf 1 = some (mig 1 0 1 0) ∧ (mig 1 0 1 0).phase = 1 ∧ (mig 1 0 1 0).todo = [] ∧
      [0].length ≤ (sMig (mig 1 0 1 0)).ov O.mig_final_chunks) ∧
    (((sMig (mig 1 0 1 0)).setOv O.mig_final_chunks 0).ov O.mig_final_chunks < [0].length ∧ 0 + 1 < (sMig (mig 1 0 1 0)).ov O.mig_passes) ∧
    ((sMig (mig 3 0 0 1)).migOf 1 = some (mig 3 0 0 1) ∧ (mig 3 0 0 1).phase = 3 ∧ (mig 3 0 0 1).todo = [] ∧ (mig 3 0 0 1).dirty = 0 ∧
      (mig 3 0 1 1).todo = [] ∧ (mig 3 0 1 1).dirty ≠ 0) ∧
    ((sMig (mig 4 0 0 1)).migOf 1 = some (mig 4 0 0 1) ∧ (mig 4 0 0 1).phase = 4 ∧
      (sMig (mig 4 0 0 1)).chart.commits.any (fun k => k.internal == some (.migration 1)) = false ∧ (mig 4 0 0 1).kind = 0 ∧
      ((sMig (mig 4 0 0 1)).frame 1).target = 0) ∧
    (((sReq.setOv O.place_enable 1).ob O.place_enable = true) ∧ (sReq.migs.filter (fun g => g.kind == 1)).length < sReq.ov O.place_max) ∧
    (((sReq.setOv O.place_ctx 5).setOv O.place_count 8).ov O.place_ctx < 1024 ∧ 0 + 8 ≤ (sReq.setOv O.place_ctx 5).ov O.win_count 5 ∧
      (sReq.ctx 5).st = .active) := by decide

/-- A BLK of node 1 on extent 7 of two lines in one part, under a grant; an operation of context 5 with an exchange 77. -/
def bPut : Blk := { b0 with src := 1, handle := 7, xid := 77, lines := 2, grant := gGrant, slots := List.replicate 8 ⟨zeros 32, false⟩ }

def getRun : Tend := { getOp with next := 1, running := [(0, 3)], remote := [⟨0, 77, 0, 0, []⟩] }

def sBlk : State := sTend (((sNode.setOv O.shp_rate 0xFFFF 5).setOv O.link_state 3 0).setOv O.blk_ports 1) getRun

theorem blk_honoured (r : Nat) (h : r < 3) : sBlk.honoured gGrant 1 7 r = some 7 := by
  have key : ∀ b g : Nat, g < 2 ^ 64 → (b * 2 ^ 64 + g) / 2 ^ 64 = b ∧ (b * 2 ^ 64 + g) % 2 ^ 64 = g := by
    intro b g h; omega
  obtain ⟨hb, ht⟩ := key gBody (sNode.grantTag gBody) (Nat.mod_lt _ (by decide))
  have hg : gGrant = gBody * 2 ^ 64 + sNode.grantTag gBody := rfl
  have hk : sBlk.grantTag gBody = sNode.grantTag gBody := by
    have e : sBlk.grantKey = sNode.grantKey := by decide
    simp only [State.grantTag, e]
  have hx : sBlk.liveExt 7 = some x7 := by decide
  have hr : ∀ r < 3, gBody.testBit (16 + r) = true := by decide
  simp only [State.honoured, hg, hb, ht, hx, hk]
  rw [if_pos (by refine ⟨?_, ?_, ?_, ?_, ?_, ?_, hr r h, trivial⟩ <;> decide)]

theorem blk_check (s : State) (h : ∀ r < 3, s.honoured gGrant 1 7 r = some 7) (hl : (s.ext 7).frames.length = 2) (r : Nat) (hr : r < 3) (b : Blk)
    (h1 : b.grant = gGrant) (h2 : b.src = 1) (h3 : b.handle = 7) (h4 : b.off = 0) (h5 : b.lines ≤ 32) : s.blkCheck b r = (0, 7) := by
  simp only [State.blkCheck, h1, h2, h3, h4, h r hr, hl]
  rw [if_neg (by omega)]

/-- A grant with the rights R, W and M (R91): the messages are honoured, and refused without it. -/
theorem witness_BlkExchangesComplete_arriving :
    (∀ r < 3, sBlk.blkCheck { bPut with bop := 1 } r = (0, 7)) ∧ [((0 : Nat), bPut.slots)].length < ceilDiv 4 2 ∧
    ceilDiv bPut.lines 2 ≤ [(bPut.part, bPut.slots)].length ∧ (sBlk.blkCheck { bPut with bop := 1, grant := 0 } 1).1 ≠ 0 ∧
    sBlk.clear [] [ownWant (sBlk.extLine 7 bPut.off)] = true := by
  refine ⟨fun r hr => blk_check sBlk (fun r hr => blk_honoured r (by omega)) (by decide) r hr _ rfl rfl rfl rfl (by decide), by decide, by decide, ?_, by decide⟩
  decide

/-- A PUT and a GET of node 1 wait for an engine. -/
def sServed (bop : Nat) : State := { sBlk with tends := { sBlk.tends with ops := [], served := [⟨{ bPut with bop := bop, slots := [] }, 0, [(0, bPut.slots)], 0, true⟩] } }

theorem witness_BlkExchangesComplete_served :
    (sServed 1).op? 9 = none ∧ (sServed 1).serveMwrs = sServed 1 ∧ ((sServed 1).pickCtx 0).map (·.1) = some 5 ∧
    (sServed 1).resyncers.find? (fun r => ((sServed 1).ext r.slot).owner == 5) = none ∧
    ((sServed 1).servers.find? (fun x => ((sServed 1).ext (x.b.handle % 65536)).owner == 5)).isSome = true ∧
    (sServed 1).clear [] ((sServed 1).servedLines 7 bPut) = true ∧
    ((sServed 2).servers.find? (fun x => ((sServed 2).ext (x.b.handle % 65536)).owner == 5)).isSome = true ∧
    (sServed 2).shaperHas ((sServed 2).ext 7).owner = true ∧ (sServed 2).clear ((sServed 2).servedLines 7 bPut) [] = true := by
  refine ⟨by decide, rfl, ?_, ?_, ?_, ?_, ?_, ?_, ?_⟩ <;> decide

theorem honoured_tends (s : State) (x : Tends) (g n h r : Nat) : ({ s with tends := x } : State).honoured g n h r = s.honoured g n h r := rfl

theorem witness_BlkExchangesComplete_granted (bop r : Nat) (hr : r < 3) : (sServed bop).blkCheck { bPut with bop := bop, slots := [] } r = (0, 7) :=
  blk_check (sServed bop) (fun r hr => (honoured_tends sBlk _ gGrant 1 7 r).trans (blk_honoured r hr)) rfl r hr _ rfl rfl rfl rfl (show 2 ≤ 32 by decide)

/-- An exchange with all its parts in, with one still to come, one to be sent again, a mirror write out, and a degraded mirror. -/
def sMwr : State := { sExt with mwrs := [⟨78, 524288, 7, 0⟩] }

def sDegr : State := (sExt.setExt 7 { x7 with peer := some ⟨9, 7, [], 2⟩ }).setOv O.node_number 12

def allParts : List (Nat × List Slot) := (List.range 16).map (fun i => (i, List.replicate 8 ⟨zeros 32, false⟩))

theorem witness_BlkExchangesComplete_answered :
    (sBlk.exchange 77 = some (getRun, ⟨0, 77, 0, 0, []⟩) ∧ getRun.asleep = none ∧
      [((0 : Nat), bPut.slots)].length < ceilDiv ((chunkSpan getRun.lead getRun.count 0).2 / 128) 2 ∧
      ceilDiv ((chunkSpan getRun.lead getRun.count 0).2 / 128) 2 ≤ allParts.length ∧
      ((getRun.running.find? (fun x => x.1 == 0)).map (·.2)).getD 0 = 3 ∧
      (sBlk.chunkPages getRun 3 (needPages (getRun.chunkRanges 0)) []).1 = some [(0, e0)] ∧
      (sBlk.chunkPages getRun 3 (needPages (getRun.chunkRanges 0)) []).2.LinesClear 5 [] (chunkWants [(0, e0)] 5 (getRun.chunkRanges 0) 2)) ∧
    (sBlk.blkPort 0 = some 0 ∧ getRun.opc = 4) ∧ (sMwr.exchange 78 = none ∧ sMwr.mwrs.find? (fun w => w.xid == 78) = some ⟨78, 524288, 7, 0⟩) ∧
    (sDegr.liveExt 7 = some { x7 with peer := some ⟨9, 7, [], 2⟩ } ∧ sDegr.ov O.node_number ≠ 0xFFF) := by
  refine ⟨⟨?_, ?_, ?_, ?_, ?_, ?_, ?_, ?_⟩, ?_, ?_, ?_⟩ <;> decide

/-- Frames that wait for a sweep record, and sweeps that run and have ended. -/
def sSweepQ : State := sExt.setFrame 2 { Frame.dflt with ext := 7, pos := 1, scrub := true }

def sSweep (rk : Bool) (mark : Nat) : State := let s : State := sExt.setFrame 2 { Frame.dflt with ext := 7, pos := 1, scrub := !rk, rekey := rk, rcd := some 0 }
  { s with chart := { s.chart with sweeps := [(0, ⟨rk, 5, 2, mark⟩)] } }

theorem witness_SweepsAndScrubs_sweeps :
    (sSweepQ.sweepQueue.head? = some 2 ∧ (sSweepQ.takeRecord 2).isSome = true) ∧
    (((sSweep true 524256).ungate 2 0).sweepers.find? (fun p => p.1 == 0) = some (0, ⟨true, 5, 2, 524256⟩) ∧
      (((sSweep true 524256).ungate 2 0).pickCtx 0).map (·.1) = some 5 ∧
      ((sSweep true 524256).ungate 2 0).slcServes (hsLine (2 * 2 ^ 19 + 524256)) = true) ∧
    (((sSweep false 0).ungate 2 0).sweepers.find? (fun p => p.1 == 0) = some (0, ⟨false, 5, 2, 0⟩) ∧
      (((sSweep false 0).ungate 2 0).pickCtx 0).map (·.1) = some 5 ∧ ((sSweep false 0).ungate 2 0).slcServes (hsLine (2 * 2 ^ 19 + 0)) = true) ∧
    ((sSweep true 524288).chart.sweeps.find? (fun p => p.1 == 0) = some (0, ⟨true, 5, 2, 524288⟩) ∧
      (sSweep false 524288).chart.sweeps.find? (fun p => p.1 == 0) = some (0, ⟨false, 5, 2, 524288⟩)) ∧
    (79 < 80 ∧ ({ s0 with chart := { s0.chart with commits := [{ com 3 none with acks := 2 ^ 79 }] } } : State).chart.commits.any
      (fun k => k.acks.testBit 79) = true ∧ s0.physOf 2 (79 - 64) ≠ 255 ∧ s0.physOf 1 63 ≠ 255) := by decide

def sScrub : State := { sExt with scrub := { sExt.scrub with running := true, pos := 2 ^ 26 } }

def mrg : Merge := ⟨zeros 128, 1, 0, false, 0⟩

theorem witness_SweepsAndScrubs_scrubs :
    (({ s0 with ces := [9] } : State).ces.contains 9 = true ∧ Tab.get 0 s0.dramBad 9 < 256) ∧
    (((sExt.setMerge 524288 mrg).meet []).mergeAt 524288 = some mrg ∧ mrg.exempt = false) ∧ sScrub.scrub.running = true ∧
    (s0.scrub.running = false ∧ (s0.setOv O.scrub_base 4095).ov O.scrub_base % 4096 ≠ 0) ∧
    (200704 * 2 ^ 26 < ((s0.setOv O.scrub_base (200704 * 2 ^ 26)).setOv O.scrub_len 4096).ov O.scrub_base + 4096) ∧
    (((s0.setOv O.scrub_base (200704 * 2 ^ 26)).ov O.scrub_base + s0.ov O.scrub_len ≤ 200704 * 2 ^ 26) ∧ s0.ov O.scrub_len = 0) ∧
    (s0.ov O.scrub_base % 4096 = 0 ∧ (s0.setOv O.scrub_len 4096).ov O.scrub_len % 4096 = 0 ∧ 0 + 4096 ≤ 200704 * 2 ^ 26 ∧
      (s0.setOv O.scrub_len 4096).ov O.scrub_len ≠ 0) ∧
    (sScrub.populated 1 = true ∧ sScrub.withdrawn 1 = false ∧ sScrub.lost (2 ^ 26) = false ∧ sScrub.ob O.fog_state 0 (sectorOf 1) = false ∧
      sScrub.slcServes (hsOf (2 ^ 26)) = true) ∧
    (sScrub.setOv O.fog_state 1 0 (sectorOf 1)).ob O.fog_state 0 (sectorOf 1) = true ∧ (sScrub.setOv O.dcp_state 2 0).populated 200703 = true ∧
    (sScrub.setOv O.dcp_state 2 0).withdrawn 4096 = true := by decide

/-- Channel 0 with one request in each of its queues. -/
def dq (line : Nat) : Dreq := ⟨line, 5, 0, 0⟩

def ch0 : Chan := { Chan.dflt with w := [dq (4096 * 524288)] }

theorem witness_ChannelsServeTheirQueues_enter :
    s0.lost (524288 * 128) = false ∧ s0.chanFor 524288 ≠ 151 ∧ ({ Chan.dflt with w := [dq 524288] } : Chan).w.any (fun y => y.line == 524288) = true ∧
    (∀ h : Nat, 2 < 3 ∧ (3 ≤ 3 ∨ Chan.dflt.w.any (fun y => y.line == 524288) = false) ∧
      (Chan.dflt.take (s0.queueFor 3 5) ⟨524288, 5, h, 0⟩).isSome = true ∧ (Chan.dflt.take (s0.queueFor 2 5) ⟨524288, 5, 1, 0⟩).isSome = true ∧
      (Chan.dflt.take (s0.queueFor 0 5) ⟨524288, 5, h, 0⟩).isSome = true) :=
  ⟨by decide, by decide, by decide, fun _ => ⟨by decide, by decide, rfl, rfl, rfl⟩⟩

theorem frFcfs_one (x : Chan) (r : Dreq) (hd : x.debt = []) (hr : x.rows = []) : s0.frFcfs 0 x [r] = some r := by
  have h1 : x.servable 0 [r] = [r] := by
    have h : Tab.get 0 x.debt (bankOf r.line) < debtLimit 0 := by rw [hd]; exact Nat.succ_pos _
    simp [Chan.servable, h]
  have h2 : x.openRow r.line = false := by
    simp only [Chan.openRow, hr, beq_eq_false_iff_ne]
    exact Nat.ne_of_lt (Nat.succ_pos _)
  simp [State.frFcfs, h1, h2]

theorem witness_ChannelsServeTheirQueues_serve :
    (({ ch0 with drain := true }).drain = true ∧ ch0.l = [] ∧ ch0.n = [] ∧ ch0.b = [] ∧ s0.frFcfs 0 { ch0 with drain := true } ch0.w = some (dq (4096 * 524288))) ∧
    (Chan.dflt.drain = false ∧ Chan.dflt.w.length < s0.ov O.wq_high ∧
      s0.readGroups 0 { Chan.dflt with l := [dq 524288], n := [dq 524288], b := [dq 524288] } = (false, [0, 0, 0]) ∧
      drrTurn (fun g => s0.ov O.sg_quantum g) (fun g => if [0, 0, 0].contains g then some 128 else none) 192 0 true [] ≠ none) ∧
    (s0.groupOf 0 [dq 524288] = [dq 524288] ∧ s0.frFcfs 0 Chan.dflt (s0.groupOf 0 [dq 524288]) = some (dq 524288) ∧ s0.frFcfs 0 Chan.dflt (s0.groupOf 0 []) = none) := by
  refine ⟨⟨by decide, by decide, by decide, by decide, frFcfs_one _ _ rfl rfl⟩, by decide, by decide, ?_, by decide⟩
  exact frFcfs_one _ _ rfl rfl

theorem witness_ChannelsServeTheirQueues_times :
    (({ Chan.dflt with autos := 2 ^ 5 } : Chan).autos.testBit 5 = true ∧ Chan.dflt.all.any (fun r => bankOf r.line == 5 && Chan.dflt.openRow r.line) = false) ∧
    (s0.chanLit 0 = true ∧ ((Chan.dflt.wants 5 || (s0.setOv O.fog_state 1 0 0).ob O.fog_state 0 (chanSector 0)) = true) ∧
      Tab.get 0 ({ Chan.dflt with debt := [(5, 3)] } : Chan).debt 5 < debtLimit 0 ∧ ¬ Tab.get 0 ({ Chan.dflt with debt := [(5, 4)] } : Chan).debt 5 < debtLimit 0) ∧
    ((Chan.dflt.wants 5 || s0.ob O.fog_state 0 (chanSector 0)) = false) ∧
    (23 < 24 ∧ Tab.get 0 ({ Chan.dflt with debt := [(5, 4)] } : Chan).debt 5 ≠ 0 ∧ debtLimit 23 ≤ Tab.get 0 ({ Chan.dflt with debt := [(5, 4)] } : Chan).debt 5) ∧
    s0.chanLit 151 = true ∧
    (({ Chan.dflt with due := true } : Chan).due = true ∧ (Chan.dflt.all = [] ∧ Chan.dflt.emptyAt + usTicks 2 ≤ ({ s0 with ltc := usTicks 2 } : State).ltc) ∧
      ({ Chan.dflt with due := true, l := [dq 5] } : Chan).all ≠ [] ∧ ({ s0 with ltc := usTicks 2 - 1 } : State).ltc < Chan.dflt.emptyAt + usTicks 2) ∧
    ((s0.setOv O.pd_idle 9).ov O.pd_idle ≠ 0 ∧ Chan.dflt.all.any (fun y => rankOf y.line == 3) = false) ∧
    (s0.setOv O.pd_idle 0).ov O.pd_idle = 0 := by decide

/-- Channel pair 11 at each state of its replacement. -/
def sPair (st : Nat) : State := s0.setOv O.dcp_state st 11

theorem witness_DimmsAreReplaced :
    11 < 12 ∧ 1 < 2 ∧ ((s0.setFrame 199999 { Frame.dflt with ext := 7 }).pairHolds 11 = true) ∧ (s0.pairHolds 11 = false ∧ s0.pairSt 11 ≠ 2 ∧ s0.pairLit 11 = true) ∧
    ((sPair 2).pairSt 11 = 2 ∧ (sPair 2).pairHolds 11 = false) ∧ s0.pairSt 11 ≠ 2 ∧ ((sPair 2).ov O.dimm_present 11).testBit 1 = true ∧
    (Tab.get 0 ({ s0 with dram := { s0.dram with settling := [(11, 2)] } } : State).dram.settling 11).testBit 1 = true ∧
    (spdOk true 7600 512 = true ∧ spdOk true 7599 512 = false ∧ spdOk true 7600 513 = false) ∧
    ((sPair 2).ov O.dimm_present 11 % 4 = 3 ∧ (sPair 2).ov O.dimm_pwr 11 % 4 = 3 ∧ Tab.get 0 (sPair 2).dram.settling 11 = 0 ∧
      Tab.get 0 (sPair 2).dram.spdBad 11 = 0) ∧ ((sPair 3).pairSt 11 = 3 ∧ (sPair 3).pairLit 11 = false) ∧
    (s0.setOv O.dimm_present (clrBit (s0.ov O.dimm_present 11) 1) 11).pairLit 11 = true ∧ (sPair 2).pairLit 11 = false := by decide +kernel

/-- Stack 3 with a fenced channel, in each state of its re-layout. -/
def sHbm (st : Nat) : State := (s0.setOv O.hbm_fenced_ch 9 3).setOv O.hbm_state st 3

/-- Frame 4062, in the fenced range of stack 3, belongs to extent 7. -/
def sRange : State := ((sHbm 1).setExt 7 { x7 with frames := [4062] }).setFrame 4062 { Frame.dflt with ext := 7 }

theorem witness_HbmChannelsAreFencedAndRelaid :
    3 < 4 ∧ 31 < 32 ∧ ((sHbm 1).ov O.hbm_fenced_ch 3 ≠ 255 ∧ (sHbm 1).ov O.hbch_state 3 31 ≠ 2 ∧ (sHbm 1).ob O.hbch_confirm = false) ∧
    (s0.setOv O.hbch_state 2 3 31).ov O.hbch_state 3 31 = 2 ∧
    s0.ov O.hbm_fenced_ch 3 = 255 ∧ ((s0.setOv O.hbch_confirm 1).ob O.hbch_confirm = true) ∧
    (sRange.ov O.hbm_state 3 = 1 ∧ (sRange.rangeFrames 3).find? (fun f => sRange.canMove f && !sRange.claimed f) = some 4062 ∧
      (sRange.moveDest 4062 0 (allSecs.filter (· != 3)) []).isSome = true) ∧
    ((sHbm 2).ov O.hbm_state 3 = 2 ∧ (sHbm 2).rangeFrames 3 = []) ∧
    ((sHbm 3).ov O.hbm_state 3 = 3 ∧ (sHbm 3).ov O.hbm_relaid 3 < 992 ∧ ((sHbm 3).setOv O.hbm_relaid 991 3).ov O.hbm_relaid 3 + 1 = 992) := by
  decide +kernel

theorem zeros_length (n : Nat) : (zeros n).length = n := List.length_replicate

/-- Context 6 in each state, with a key in slot 0 or none. -/
def sCtx (st : Cst) : State := sReq.setCtx 6 { Ctx.dflt with st := st }

def sKeyed : State := sReq.setCtx 6 { Ctx.dflt with st := .configuring, keys := (9, 0) }

theorem witness_ActivateNeedsWindowAndKey :
    1023 < 1024 ∧ ((sCtx .configuring).ctx 6).cmd = 0 ∧ ((sCtx .configuring).ctx 6).st = .configuring ∧ (sCtx .configuring).ov O.win_count 6 = 0 ∧
    ((sCtx .configuring).setOv O.win_count 1 6).ov O.win_count 6 ≠ 0 ∧ (sCtx .configuring).keyId 6 ((sCtx .configuring).ctx 6).active = 0 ∧
    ((sKeyed.setOv O.win_count 1 6).ov O.win_count 6 ≠ 0 ∧ (sKeyed.setOv O.win_count 1 6).keyId 6 ((sKeyed.setOv O.win_count 1 6).ctx 6).active ≠ 0) ∧
    (sKeyed.keyId 6 (sKeyed.ctx 6).active ≠ 0 ∧ (sKeyed.ctx 6).cmd = 0 ∧ (sKeyed.ctx 6).st = .configuring) ∧
    ((sReq.setCtx 6 { Ctx.dflt with st := .configuring, cmd := 1 }).ctx 6).cmd ≠ 0 ∧
    (((sCtx .active).ctx 6).cmd = 0 ∧ ((sCtx .active).ctx 6).st ≠ .configuring) := by decide

theorem witness_ContextsLiveInOrder :
    (((sCtx .free).ctx 6).cmd = 0 ∧ ((sCtx .free).ctx 6).st = .free) ∧ ((sCtx .active).ctx 6).st = .active ∧ ((sCtx .quiescing).ctx 6).st = .quiescing ∧
    ((sReq.setCtx 6 { Ctx.dflt with st := .quiescing, rphase := 1 }).ctx 6).rphase = 1 ∧
    (∀ e : Bool, ((sReq.setCtx 6 { Ctx.dflt with st := .quiescing, rphase := 2, rwalk := 2 ^ 32 - 1, endFree := e }).ctx 6).rwalk = 2 ^ 32 - 1 ∧
      ((sReq.setCtx 6 { Ctx.dflt with st := .quiescing, rphase := 2, rwalk := 2 ^ 32 - 1, endFree := e }).ctx 6).endFree = e) ∧
    (∀ e : Bool, (sReq.setCtx 6 { Ctx.dflt with st := .quiescing, rphase := 2, rwalk := 2 ^ 32 - 1, endFree := e }).workGone 6 = true) ∧
    (((sCtx .sweeping).ctx 6).st = .sweeping ∧ (sCtx .sweeping).sweptOut 6 = true) ∧
    ((sReq.setCtx 6 { Ctx.dflt with st := .quiescing, cmd := 3 }).ctx 6).cmd ≠ 0 := by decide

/-- Context 5 has a vector with one pending cause, tokens, and a function with its ring off. -/
def sNtf : State := (((((sReq.setOv O.ntf_func 1 5).setOv O.ntf_vec (2 ^ 62) 5 0).setOv O.ntf_rate 1 5).setOv O.ntf_burst 4 5).setIde 0 1).setCtx 5
  { Ctx.dflt with st := .active, vecs := [(0, ⟨1, 1, 0, false, false⟩)] }

/-- The same vector of type NTF to an agent: agent 1 is reached by port 2, agent 4095 by none. -/
def sNtfTo (a : Nat) : State := (sNtf.setOv O.ntf_vec (2 * 2 ^ 62 + a * 2 ^ 48) 5 0).setOv O.reach_mask 4 1

def sFrozen : State := sReq.setAgent 1 { Agent.dflt with frozen := true, frz := [0, 0, 5, 0] ++ zeros 12 }

theorem witness_NotificationsAndBucketsComplete :
    ((Tab.get Vec.dflt (sNtf.ctx 5).vecs 0) = ⟨1, 1, 0, false, false⟩ ∧ bits (sNtf.ov O.ntf_vec 5 0) 62 2 = 1 ∧
      tokens (sNtf.ctx 5).ntfTok (sNtf.ov O.ntf_burst 5) ≠ 0 ∧ sNtf.ov O.ntf_func 5 ≠ 0 ∧ sNtf.ob O.ntf_ring_en 5 = false ∧
      sNtf.ideSilent 5 (sNtf.ov O.ntf_func 5 / 256) = false ∧ (sNtf.setOv O.ntf_rate 0xFFFF 5).ov O.ntf_rate 5 = 0xFFFF) ∧
    (bits ((sNtfTo 1).ov O.ntf_vec 5 0) 62 2 = 2 ∧ (Tab.get Vec.dflt ((sNtfTo 1).ctx 5).vecs 0).count ≠ 0 ∧
      tokens ((sNtfTo 1).ctx 5).ntfTok ((sNtfTo 1).ov O.ntf_burst 5) ≠ 0 ∧ (sNtfTo 1).ntfPort (bits ((sNtfTo 1).ov O.ntf_vec 5 0) 48 12) = some 2) ∧
    (bits ((sNtfTo 4095).ov O.ntf_vec 5 0) 62 2 = 2 ∧ (Tab.get Vec.dflt ((sNtfTo 4095).ctx 5).vecs 0) = ⟨1, 1, 0, false, false⟩ ∧
      (sNtfTo 4095).ntfPort (bits ((sNtfTo 4095).ov O.ntf_vec 5 0) 48 12) = none) ∧
    (sFrozen.agent 1).frozen = true ∧ (sNtf.bump O.pcie_flr 0 0).vfCtx 0 1 = some 5 ∧ (sNtf.bump O.pcie_flr 0 1).vfCtx 1 1 = none := by decide

def inService : State := s0.setOv O.lc_state 2

/-- Every tile failed: no unit of one kind is ready. -/
def sUnready : State := { s0 with units := (List.range 68).map (fun p => (256 + p, { Unit.dflt with st := 2 })) }

theorem witness_LifecycleCommandsAreChecked :
    inService.ov O.lc_state ≠ 1 ∧
    (s0.ov O.lc_state = 1 ∧ s0.unitsReady = true ∧ ((s0.setOv O.trim_state 1).ov O.trim_state).testBit 0 = true ∧ s0.sec.invasive = false ∧
      s0.sec.intruded = false ∧ (∀ p ∈ s0.ctxs, p.2.st = .free)) ∧ ((s0.setOv O.trim_state 2).ov O.trim_state).testBit 0 = false ∧
    ({ s0 with sec := { s0.sec with invasive := true } } : State).sec.invasive = true ∧ s0.ov O.lc_confirm ≠ 0xDEC00001 ∧
    (s0.setOv O.lc_confirm 0xDEC00001).ov O.lc_confirm = 0xDEC00001 ∧ (∀ p ∈ inService.ctxs, p.2.st = .free) ∧
    ({ inService with ctxs := sReq.ctxs } : State).allFree = false ∧
    ((({ s0.setOv O.trim_state 1 with ctxs := sReq.ctxs } : State).ov O.lc_state = 1 ∧ ({ s0.setOv O.trim_state 1 with ctxs := sReq.ctxs } : State).unitsReady = true ∧
      ({ s0.setOv O.trim_state 1 with ctxs := sReq.ctxs } : State).allFree = false)) ∧
    (({ s0 with sec := { s0.sec with arb := 128 } } : State).ov O.arb_fused < 128 ∧ s0.sec.arb ≤ s0.ov O.arb_fused) := by decide +kernel

theorem witness_LifecycleCommandsAreChecked_units : ({ s0 with units := [(34, ⟨2, 1, 0, 0, 0⟩), (35, ⟨2, 1, 0, 0, 0⟩), (0, ⟨2, 1, 0, 0, 0⟩)] } : State).unitsReady = false := by
  decide +kernel

theorem witness_ContextKeysAndReports :
    (((sCtx .configuring).ctx 6).st = .configuring ∧ ((sCtx .configuring).ctx 6).keys = (0, 0)) ∧ ((sCtx .active).ctx 6).st ≠ .configuring ∧
    ((sReq.setCtx 6 { Ctx.dflt with st := .active, rekeying := true }).ctx 6).rekeying = true ∧ ((sCtx .active).ctx 6).rekeying = false ∧
    (((sSweep true 0).ungate 2 0).sweepers.find? (fun p => p.1 == 0) = some (0, ⟨true, 5, 2, 0⟩) ∧
      (((sSweep true 0).ungate 2 0).pickCtx 0).map (·.1) = some 5 ∧ ((sSweep true 0).ungate 2 0).slcServes (hsLine (2 * 2 ^ 19 + 0)) = true) ∧
    (s0.ov O.lc_state ≠ 3 ∧ s0.sec.att.length < 9) ∧
    (9 ≤ ({ s0 with sec := { s0.sec with att := List.replicate 9 (noCtx, []) } } : State).sec.att.length) ∧ (s0.setOv O.lc_state 3).ov O.lc_state = 3 ∧
    (({ sCtx .active with sec := { s0.sec with att := [(6, zeros 32)] } } : State).sec.att = (6, zeros 32) :: [] ∧ 6 < 1024 ∧
      ((sCtx .active).ctx 6).st ≠ .free) ∧
    ({ s0 with sec := { s0.sec with att := [(noCtx, zeros 32)] } } : State).sec.att = (noCtx, zeros 32) :: [] := by decide

/-- Port 4's link is up for a handshake at each step. -/
def sSess (step : Nat) : State := (s0.setOv O.link_state 2 4).setSession 4 { Sess.dflt with step := step }

/-- Handshake messages as bytes: the fixed fields of R458, certificates of 144 bytes of a node, signatures of zeros. -/
def hello : Bytes := [1] ++ (zeros 1603 ++ ([144, 0, 0, 0, 0, 1] ++ zeros 142))

def reply : Bytes := [1, 1] ++ (zeros 1602 ++ ([144, 0, 0, 0, 0, 1] ++ zeros 49998))

theorem witness_LinkSessionsAndKeys_handshake :
    ((sSess 0).ov O.link_state 4 = 2 ∧ ((sSess 0).session 4).step = 0 ∧ slice 0 1 hello = [1] ∧ hello.length = 1608 + leNat (slice 1604 4 hello) ∧
      slice 1 1 (slice 1608 144 hello) = [1] ∧ v0.chain = true ∧ v0.sig = true ∧ v0.conf = true) ∧
    (((sSess 1).session 4).step = 1 ∧ slice 0 1 reply = [1] ∧ 1 ≤ leNat (slice 1 1 reply) ∧ leNat (slice 1 1 reply) ≤ 4 ∧
      leNat (slice 1604 4 reply) = 144 ∧ leafKind (slice 1608 144 reply) = 1 ∧ leNat (slice 2 1 (slice 1608 144 reply)) ≠ 1) ∧
    ((sSess 2).session 4).step = 2 ∧ ((sSess 3).session 4).step = 3 := by decide +kernel

theorem witness_LinkSessionsAndKeys_lengths :
    reply.length = 1608 + 144 + 49856 ∧ ([1] ++ zeros 49891).length = 49892 ∧ ([1] ++ zeros 35).length = 36 ∧ ([1] ++ zeros 1571).length = 1572 ∧
    slice 0 1 ([1] ++ zeros 1571) = [1] := by
  refine ⟨?_, ?_, ?_, ?_, by decide⟩
  · rw [reply]; simp only [List.length_append, zeros_length]; rfl
  all_goals simp only [List.length_append, zeros_length]; rfl

/-- A session that is up, as initiator or not, with an offer out or not; a lane whose count has run out; a port held DOWN. -/
def sSec (st : Nat) (x : Sess) : State := (s0.setOv O.link_sec_state st 0 4).setSession 4 x

theorem witness_LinkSessionsAndKeys_keys :
    ((sSec 2 { Sess.dflt with init := true }).ov O.link_sec_state 0 4 = 2 ∧ ((sSec 2 { Sess.dflt with init := true }).session 4).init = true) ∧
    ((sSec 2 Sess.dflt).session 4).init = false ∧
    ((sSec 3 { Sess.dflt with init := true, offer := [1] }).ov O.link_sec_state 0 4 = 3 ∧
      ((sSec 3 { Sess.dflt with init := true, offer := [1] }).session 4).offer ≠ []) ∧
    (∃ c ∈ ((s0.setLport 4 { LPort.dflt with txCount := [(8, laneLimit)] }).lport 4).txCount, laneLimit ≤ c.2) ∧
    (∃ c ∈ ((s0.setLport 4 { LPort.dflt with rxCount := [(8, laneLimit)] }).lport 4).rxCount, laneLimit ≤ c.2) ∧
    (23 < 24 ∧ (s0.setOv O.link_state 5 23).ov O.link_state 23 = 5) := by
  refine ⟨by decide, by decide, by decide, ⟨(8, laneLimit), by decide, by decide⟩, ⟨(8, laneLimit), by decide, by decide⟩, by decide⟩

/-- Node 12 founds set 3 with node 9, which it reaches by port 0; the members as `set_members` lists them. -/
def sSet : State := (((sNode.setOct O.set_members ([12, 0x80, 9, 0x80] ++ zeros 124) 3).setOv O.blk_ports 1).setOv O.link_state 3 0)

def setMembers : Bytes := fitTo 128 (sSet.oct O.set_members 3)

def forming (st : Nat) : State := sSet.setDevSet 3 ⟨1, 40, [⟨9, st, zeros 32⟩], 12, zeros 32, 0⟩

def joinRequest : Bytes := [1, 0, 9, 0] ++ (zeros 16 ++ ([12, 0x80] ++ zeros 162))

def joinAnswer : Bytes := [1, 0, 9, 0] ++ (zeros 1606 ++ ([2] ++ zeros 50109))

/-- A founder without a port towards another node, and one whose set has it alone. -/
def sAlone : State := sNode.setOct O.set_members ([12, 0x80] ++ zeros 126) 3

theorem witness_DeviceSetsAreFormed_founder :
    (3 < 16 ∧ (forming 0).devSet 3 ≠ DevSet.dflt ∧ ((forming 0).devSet 3).st ≠ 0) ∧
    (sSet.ov O.node_number = 12 ∧ (sSet.devSet 3).st = 0 ∧ memberNodes setMembers = [12, 9] ∧ (12 : Nat) ≠ 0xFFF ∧ [12, 9].contains 12 = true ∧
      ([12, 9].filter (· != 12)).eraseDups = [9] ∧
      ((((sSet.newKey.2.freeBytes 1568).2.freeBytes 32).2.setOct O.set_record [] 3).setDevSet 3 ⟨1, 1, [⟨9, 0, []⟩], 12, zeros 32, 0⟩).nodePort ≠ none) ∧
    memberNodes (fitTo 128 (s0.oct O.set_members 3)) = [] ∧ ((s0.setDevSet 3 { DevSet.dflt with st := 2 }).devSet 3).st = 2 ∧
    ((forming 0).formingWith 9 0 = some (3, ⟨1, 40, [⟨9, 0, zeros 32⟩], 12, zeros 32, 0⟩) ∧ slice 0 1 joinAnswer = [1] ∧ slice 1 1 joinAnswer = [0] ∧
      leNat (slice 2 2 joinAnswer) = 9 ∧ leNat (slice 51716 4 joinAnswer) = 0 ∧ (forming 0).goodReport (zeros 32) (slice 1604 256 joinAnswer) = true ∧
      (forming 0).goodReport (zeros 32) (zeros 256) = false) ∧
    (memberNodes (fitTo 128 (sAlone.oct O.set_members 3)) = [12] ∧ ([12].filter (· != 12)).eraseDups = ([] : List Nat) ∧ sNode.nodePort = none) ∧
    (forming 1).formingWith 9 1 = some (3, ⟨1, 40, [⟨9, 1, zeros 32⟩], 12, zeros 32, 0⟩) ∧
    (forming 0).sec.sets.find? (fun p => p.2.st == 1 && p.2.mems.any (fun m => m.node == 9 && m.st != 2)) =
      some (3, ⟨1, 40, [⟨9, 0, zeros 32⟩], 12, zeros 32, 0⟩) := by decide +kernel

theorem witness_DeviceSetsAreFormed_done : let body : Bytes := [1, 0, 9, 0] ++ sha (fitTo 1712 ((forming 1).oct O.set_record 3))
    slice 0 1 body = [1] ∧ slice 1 1 body = [0] ∧ leNat (slice 2 2 body) = 9 ∧ body.length = 36 ∧
    slice 4 32 body = sha (fitTo 1712 ((forming 1).oct O.set_record 3)) :=
  ⟨rfl, rfl, rfl, rfl, rfl⟩

/-- A member that joins, and the message that gives it the key. -/
def joining : State := (sSet.setOv O.lc_state 2).setDevSet 5 ⟨3, 0, [], 9, zeros 32, 0⟩

def joinGift : Bytes := [1] ++ (zeros 1577 ++ ([2] ++ zeros 55001))

theorem witness_DeviceSetsAreFormed_member :
    ((List.range 16).find? (fun i => (sSet.devSet i).st == 0) = some 0 ∧
      (List.range 16).find? (fun i => (joining.devSet i).st == 3 && (joining.devSet i).founder == 9) = some 5 ∧ slice 0 1 joinRequest = [1] ∧
      (memberNodes (slice 20 128 joinRequest)).contains 12 = true ∧ joinRequest.length = 184 + leNat (slice 180 4 joinRequest) ∧ leNat (slice 2 2 joinRequest) = 9) ∧
    (joining.sec.sets.find? (fun p => p.2.st == 3 && p.2.founder == 9) = some (5, ⟨3, 0, [], 9, zeros 32, 0⟩) ∧ slice 0 1 joinGift = [1] ∧
      joining.goodReport (zeros 32) (slice 1572 256 joinGift) = true ∧ joining.ov O.lc_state = 2 ∧ v0.opens = true) := by decide +kernel

theorem witness_DeviceSetsAreFormed_length : joinGift.length = 56580 ∧ joinAnswer.length = 51720 := by
  rw [joinGift, joinAnswer]; simp only [List.length_append, zeros_length]; exact ⟨rfl, rfl⟩

/-- A debug token of scope `sc` for this node over the nonce of zeros. -/
def token (sc : Nat) : Bytes := [1, BitVec.ofNat 8 sc] ++ (zeros 6 ++ (idDigest ++ (zeros 16 ++ zeros 29800)))

def sNonce : State := { s0 with sec := { s0.sec with nonce := some (zeros 16, 0) } }

theorem witness_DebugAndIdeAreGuarded :
    s0.sec.nonce = none ∧ sNonce.sec.nonce = some (zeros 16, 0) ∧ slice 0 1 (token 1) = [1] ∧ leNat (slice 1 1 (token 1)) = 1 ∧
    leNat (slice 1 1 (token 2)) = 2 ∧ slice 8 32 (token 1) = idDigest ∧ slice 40 16 (token 1) = zeros 16 ∧ leNat (slice 1 1 (token 0)) = 0 ∧
    (2 = 2 ∧ inService.ov O.lc_state ≠ 1) ∧ (sNonce.ov O.lc_state ≠ 3 ∧ sNonce.ov O.lc_state = 1) ∧
    (1 < 2 ∧ s0.sec.bootKey = 0 ∧ ({ s0 with sec := { s0.sec with bootKey := 3 } } : State).sec.bootKey ≠ 0 ∧ 3 < 4) :=
  ⟨rfl, rfl, rfl, by decide, by decide, rfl, rfl, by decide, by decide, by decide, by decide⟩

theorem witness_DebugAndIdeAreGuarded_length : (token 2).length = 29856 := by
  rw [token]; simp only [List.length_append, zeros_length]; rfl

theorem witness_FreeContextsAreNotReported : 1023 < 1024 ∧ (s0.ctx 1023).st = .free := by decide

theorem witness_CoreResetsKeepTheLifecycle : (∃ t, exec .rstCmdCore s0 = .next t) ∧ (∃ t, s0.rst.armed = false ∧ exec .watchdogExpiry s0 = .next t) ∧
    ∃ t, exec .keeperFailover s0 = .next t := ⟨⟨_, rfl⟩, ⟨_, rfl, rfl⟩, _, rfl⟩

/-- Port 23 with its link at a state, and its session up. -/
def sLink (st : Nat) (x : LPort) : State := (((s0.setOv O.link_state st 23).setOv O.link_sec_state 2 0 23).setOv O.width 0x44 23).setLport 23 x

/-- A flit, sequenced 10, with tag and CRC good. -/
def fData : Flit := { f0 with seq := 10, fkind := 1 }

/-- The receiver expects 10, so the flit is next; 11, so it is a duplicate; 0, so it is ahead within the buffer; 1,000 earlier, beyond it. -/
theorem witness_ReceivedFlitsAreOrdered :
    (sLink 3 LPort.dflt).FlitPasses 23 fData ∧ (sLink 3 LPort.dflt).FlitPasses 23 { fData with fkind := 6 } ∧
    (s0.setOv O.link_state 2 23).FlitPasses 23 { fData with fkind := 7 } ∧ fData.fkind ≠ 0 ∧
    (10 + 4096 - 10) % 4096 = 0 ∧ 2048 ≤ (10 + 4096 - 11) % 4096 ∧ (1 ≤ (10 + 4096 - 0) % 4096 ∧ (10 + 4096 - 0) % 4096 ≤ 256) ∧
    (256 < (1010 + 4096 - 10) % 4096 ∧ (1010 + 4096 - 10) % 4096 < 2048) ∧
    [({ fData with seq := 12 } : Flit)].any (fun g => g.seq == 12) = true ∧ (sLink 3 LPort.dflt).FlitPasses 23 { fData with fkind := 0 } := by
  refine ⟨?_, ?_, ?_, by decide, by decide, by decide, by decide, by decide, by decide, ?_⟩ <;> (constructor <;> decide)

def rfl0 : RFlit := ⟨5, 1, 0, false, [], [], [], false, 0⟩

/-- A flit to send again, nothing to send, a full replay buffer, credits to return, a beacon, a drift retrain, a narrowing and a width change. -/
theorem witness_TransmitterTimesComplete :
    23 < 24 ∧ (sLink 3 LPort.dflt).ov O.link_state 23 = 3 ∧
    (((sLink 3 { LPort.dflt with rtxq := [5], replay := [rfl0] }).widenIfReady 23).lport 23).rtxq.findSome? (fun n =>
      (((sLink 3 { LPort.dflt with rtxq := [5], replay := [rfl0] }).widenIfReady 23).lport 23).replay.find? (fun g => g.seq == n)) = some rfl0 ∧
    ((((sLink 3 LPort.dflt).widenIfReady 23).lport 23).rtxq = [] ∧ (((sLink 3 LPort.dflt).widenIfReady 23).lport 23).replay.length < 2048) ∧
    (2048 ≤ (((sLink 3 { LPort.dflt with replay := List.replicate 2048 rfl0 }).widenIfReady 23).lport 23).replay.length ∧
      ((sLink 3 { LPort.dflt with replay := List.replicate 2048 rfl0 }).widenIfReady 23).needsControl 23 = false) ∧
    ((sLink 3 { LPort.dflt with replay := [rfl0] }).lport 23).replay ≠ [] ∧
    (((sLink 3 { LPort.dflt with replay := List.replicate 2048 rfl0, nak := some 5 }).widenIfReady 23).needsControl 23 = true) ∧
    (∃ i < 9, (sLink 3 { LPort.dflt with unret := [0, 0, 0, 0, 0, 0, 0, 0, 1] }).toReturn 23 i ≠ 0) ∧ (sLink 3 LPort.dflt |>.lport 23).bcns.contains 8 = false ∧
    ((sLink 3 { LPort.dflt with driftDue := true }).lport 23).driftDue = true ∧
    (((sLink 3 LPort.dflt).setOv O.pstate 1).ov O.pstate = 1 ∧ ((sLink 3 LPort.dflt).setOv O.narrow_enable 1 23).ob O.narrow_enable 23 = true ∧
      2 < (sLink 3 LPort.dflt).txWidth 23 ∧ ((sLink 3 LPort.dflt).lport 23).newWidth = 0) ∧
    (((sLink 3 { LPort.dflt with newWidth := 8 }).lport 23).newWidth ≠ 0 ∧ ((sLink 3 { LPort.dflt with newWidth := 8 }).lport 23).wreq = 0) := by
  refine ⟨by decide, by decide, by decide, by decide, ⟨by decide +kernel, by decide +kernel⟩, by decide, by decide +kernel, ⟨8, by decide, by decide⟩, by decide, by decide, by decide, by decide⟩

/-- Training frames with all lanes in order; the lanes 0 to 7 are in use and lane 8 is spare. -/
def fFull : Train := { t0 with map := 0x76543210, free := poolSizes }

def sTrain (st kind : Nat) : State := sLink st { LPort.dflt with frame := some { fFull with kind := kind }, done := true }

theorem witness_TrainingAndPortCommands :
    (sLink 3 LPort.dflt).ov O.link_state 23 = 3 ∧ (sLink 4 LPort.dflt).ov O.link_state 23 = 4 ∧
    ((sLink 0 LPort.dflt).ov O.link_state 23 = 0 ∧ (sLink 0 LPort.dflt).ov O.port_state 23 = 0 ∧ (sLink 0 LPort.dflt).ov O.pstate ≠ 3) ∧
    (({ fFull with kind := 3 } : Train).kind = 3 ∧ (fFull.kind = 1 ∧ (sTrain 1 1).ov O.link_state 23 = 1)) ∧
    (nextMap [0, 1, 2, 3, 4, 5, 6, 7] (fun l => !((sTrain 1 1).failLanes 23 3 [2]).laneFailed 23 l) = [0, 1, 8, 3, 4, 5, 6, 7] ∧
      ((sTrain 1 1).lport 23).frame = some fFull ∧ ((sTrain 1 1).lport 23).done = true ∧ mapLanes fFull.map ≠ []) ∧
    ((sTrain 4 2).ov O.link_state 23 = 4 ∧ ((sTrain 4 2).lport 23).frame = some { fFull with kind := 2 } ∧ ((sTrain 4 2).lport 23).done = true) ∧
    (8 < 9 ∧ ((sLink 3 LPort.dflt).setOv O.rx_map 0x76543210 23).laneFailed 23 8 = false ∧
      (List.range 8).find? (fun i => (mapLanes (((sLink 3 LPort.dflt).setOv O.rx_map 0x76543210 23).ov O.rx_map 23))[i]? == some 8) = none ∧
      (List.range 8).find? (fun i => (mapLanes (((sLink 3 LPort.dflt).setOv O.rx_map 0x76543210 23).ov O.rx_map 23))[i]? == some 7) = some 7) ∧
    ((∀ st ∈ [2, 3, 4], (sLink st LPort.dflt).ov O.link_state 23 = st ∧ (sLink st LPort.dflt).laneFailed 23 7 = false) ∧
      (s0.setOv O.lane_ue_limit 8 23).ov O.lane_ue_limit 23 ≠ 0xFFFF ∧ 2 ≤ (nextMap [0, 1, 2, 3, 4, 5, 6, 7] (fun k => k == 7 || k == 8)).length ∧
      (nextMap [5, 7] (fun k => k == 7)).length < 2 ∧
      (0 < (mapLanes 0x76543210).length ∧ min 8 (mapLanes 0x76543210).length = 8)) ∧
    ((if ((sLink 3 LPort.dflt).ov O.link_state 23) = 3 then (sLink 3 LPort.dflt).startRetrain 23 else sLink 3 LPort.dflt).ov O.link_state 23 = 4) ∧
    (((sTrain 1 1).lport 23).done = true ∧ ((sLink 1 LPort.dflt).lport 23).frame = none) ∧
    (sLink 3 LPort.dflt).ov O.link_state 23 ≠ 5 ∧ (sLink 3 LPort.dflt).ov O.port_state 23 ≠ 2 ∧ (s0.setOv O.port_state 2 23).ov O.port_state 23 = 2 := by decide

/-- Agent 4095 without a route, present, purging and absent; home slice 4 with its census closed. -/
def sLost (l : Life) (w : Nat) : State := s0.setAgent 4095 { Agent.dflt with life := l, purge := w }

theorem witness_AgentsAndSlicesAreLost :
    (4095 < 4096 ∧ s0.noRoute 4095 = true ∧ s0.pwr.grace = false ∧ (s0.agent 4095).life = .present) ∧ ((sLost .absent 0).agent 4095).life = .absent ∧
    (31 < 32 ∧ ((sLost .purging (2 ^ 31 - 1)).agent 4095).life = .purging ∧ (sLost .purging 0).slcServes 31 = true ∧
      setBit ((sLost .purging (2 ^ 31 - 1)).agent 4095).purge 31 = allSlices ∧ setBit ((sLost .purging 0).agent 4095).purge 31 ≠ allSlices) ∧
    (sCensus.slc 4).phase = 2 ∧ ((sReq.setSlc 4 { Slc.dflt with phase := 3 }).slc 4).phase = 3 ∧ sReq.coh.snoops.any (fun y => y.hs == 4) = false ∧
    ((sReq.setSlc 31 { Slc.dflt with phase := 1 }).slc 31).phase = 1 ∧ (sReq.setSlc 31 { Slc.dflt with phase := 1 }).lit 0 31 = true := by decide

theorem witness_AgentsAndSlicesAreLost_cans : ({ sLost .purging 0 with objs := [] } : State).cansOf 4095 = [] := by decide +kernel

/-- Physical units: tile 67 is the spare of its row, home slice 0 serves, and each state a unit command may find. -/
def sUnit (kind p : Nat) (u : Machine.Unit) : State := s0.setUnit kind p u

theorem witness_UnitsFailAndAreRepaired :
    (1 < 3 ∧ 67 < physCount 1 ∧ 35 < physCount 0 ∧ 17 < physCount 2 ∧ s0.unitState 1 67 = 1 ∧ s0.unitState 1 0 ≠ 1) ∧
    (s0.pwr.routers.contains (routerKey 1 5) = false ∧
      ({ s0 with pwr := { s0.pwr with routers := [routerKey 0 5] } } : State).pwr.routers.contains (routerKey (1 - 1 % 2) 5) = true) ∧
    (23 < 24 ∧ s0.ov O.port_state 23 ≠ 2 ∧ 11 < 12 ∧ 127 < 128) ∧
    (({ s0 with pwr := { s0.pwr with routing := [routerKey 1 5] } } : State).pwr.routing.contains (routerKey 1 5) = true ∧
      s0.pwr.routing.contains (routerKey 1 5) = false) ∧
    ((s0.setOv O.port_state 3 23).ov O.port_state 23 = 3 ∧ (s0.setOv O.keeper_state 0x30).keeper 1 = 3) ∧
    ((sUnit 0 0 ⟨0, 0, 1, 255, 0⟩).unit 0 0).doing = 1 ∧ (sUnit 0 0 ⟨0, 0, 1, 255, 0⟩).unitIdle 0 0 = true ∧
    (((sJob 5 0 0).setUnit 1 0 ⟨0, 0, 1, 255, 0⟩).unitIdle 1 0 = false ∧ (((sJob 5 0 0).setUnit 1 0 ⟨0, 0, 2, 16, 0⟩).unit 1 0).doing = 2 ∧
      ((sJob 5 0 0).setUnit 1 0 ⟨0, 0, 2, 16, 0⟩).unitIdle 1 0 = false) ∧
    (s0.unitBusy = false ∧ (sUnit 1 3 ⟨2, 1, 0, 0, 0⟩).unitState 1 3 = 2 ∧ (sUnit 1 3 ⟨3, 1, 0, 0, 0⟩).unitState 1 3 = 3 ∧ s0.unitState 1 0 = 0 ∧ s0.unitState 0 0 = 0) ∧
    ((sUnit 1 3 ⟨2, 1, 0, 0, 0⟩).unit 1 3).st = 2 ∧ s0.spareFor 1 0 = some 16 ∧
    ((sUnit 1 0 ⟨0, 0, 1, 255, 0⟩).unit 1 0).doing = 1 ∧ (sUnit 1 0 ⟨0, 0, 1, 255, 0⟩).roleOf 1 0 = some 0 ∧
    (sUnit 1 0 ⟨0, 0, 1, 255, 0⟩).unitIdle 1 0 = true ∧ (sJob 5 0 0).unitIdle 1 0 = false ∧ s0.sliceEmpty 0 = true ∧
    ((sUnit 1 3 ⟨3, 1, 0, 0, 0⟩).unit 1 3).st = 3 ∧
    (((sUnit 1 0 ⟨0, 0, 2, 16, 0⟩).unit 1 0).doing = 2 ∧ (sUnit 1 0 ⟨0, 0, 2, 16, 0⟩).swapSpare 1 0 = some 16) := by decide +kernel

/-- Every spare tile is DARK: none remains. -/
theorem witness_UnitsFailAndAreRepaired_spares :
    ({ s0 with units := [(272, ⟨2, 1, 0, 0, 0⟩), (289, ⟨2, 1, 0, 0, 0⟩), (306, ⟨2, 1, 0, 0, 0⟩), (323, ⟨2, 1, 0, 0, 0⟩)] } : State).spareFor 1 0 = none := by
  decide +kernel

/-- Keepers by state; a port lost with its partner over port 2; the partner's message names port 0 by its salt. -/
def sKeep (a b : Nat) : State := s0.setOv O.keeper_state (16 * b + a)

def lost0 : Lost := ⟨2, [], none, 0, 0, 0, []⟩

def sLostPort : State := { s0 with lostPorts := [(23, lost0)] }

def sSync : State := (s0.setOv O.link_state 3 2).setSession 0 { Sess.dflt with rxKey := 4, rxSalt := 99 }

theorem witness_KeepersAndLostPorts :
    (s0.ov O.keeper_active % 2 = 0 ∧ (sKeep 0 1).keeper 0 = 0 ∧ (sKeep 0 1).keeper 1 = 1 ∧ (sKeep 0 2).keeper 1 ≠ 1 ∧ (sKeep 2 0).keeper 0 = 2 ∧
      (sKeep 0 2).keeper 0 ≠ 2 ∧ (sKeep 0 2).keeper 1 = 2 ∧ (sKeep 0 1).keeper 1 ≠ 2) ∧
    sLostPort.lostPorts.find? (fun x => x.1 == 23 && x.2.via == 2) = some (23, lost0) ∧ s0.lostPorts.find? (fun x => x.1 == 23 && x.2.via == 2) = none ∧
    (List.range 24).find? (fun n => n != 2 && sSync.portUp 2 && sSync.partnerKey n == sSync.partnerKey 2
      && (sSync.session n).rxSalt == 99 && (sSync.session n).rxKey != 0) = some 0 ∧
    sLostPort.lostPorts.find? (fun x => x.1 == 23) = some (23, lost0) ∧
    (1 < 2 ∧ ((s0.setOv O.pcie_link (2 ^ 15) 0 1).ov O.pcie_link 0 1).testBit 15 = true ∧ s0.ov O.pstate ≠ 3) := by decide

/-- The running part, the other one erased, with the factory image, verified. -/
def sFw (p : Nat) (f : Flash) : State := (s0.setOv O.fw_part p).setFlash p f

theorem witness_FirmwareIsStaged :
    (sFw 0 Flash.dflt).fwRunning = true ∧ (sFw 1 Flash.dflt).fwRunning = false ∧ ((s0.setOv O.fw_offset 4095).ov O.fw_offset % 4096 ≠ 0) ∧
    s0.ov O.fw_offset % 4096 = 0 ∧ (sFw 1 ⟨[], false, false⟩).headerOk 1 = false ∧ (sFw 1 Flash.dflt).headerOk 1 = true ∧
    ((sFw 1 Flash.dflt).flash 1).verified = false ∧ ((sFw 1 ⟨[], true, true⟩).flash 1).verified = true := by decide

theorem witness_FirmwareIsStaged_value :
    ((sFw 1 Flash.dflt).image 1).arb < ((sFw 1 Flash.dflt).setOv O.arb_fused 129).ov O.arb_fused ∧
    (sFw 1 Flash.dflt).ov O.arb_fused ≤ ((sFw 1 Flash.dflt).image 1).arb := by
  have h1 : ((sFw 1 Flash.dflt).setOv O.arb_fused 129).ov O.arb_fused = 129 := by decide
  have h2 : (sFw 1 Flash.dflt).ov O.arb_fused = 0 := by decide
  rw [h1, h2]
  exact ⟨Nat.mod_lt _ (by decide), Nat.zero_le _⟩

/-- The reset state with its reset registers replaced. -/
def sRst (f : Rst → Rst) : State := { s0 with rst := f s0.rst }

theorem witness_ResetSourcesWidenTheEpisode :
    (s0.ov O.pstate ≠ 3 ∧ s0.rst.coreEn = true) ∧ ((s0.setOv O.pstate 3).ov O.pstate = 3) ∧ s0.rst.rstDrive = false ∧
    (sRst (fun r => { r with rstDrive := true })).rst.rstDrive = true ∧ (s0.setOv O.dbg_state 2).ov O.dbg_state = 2 ∧ s0.ov O.dbg_state ≠ 2 ∧
    ((sRst (fun r => { r with reach := 1, stage := 3 })).rst.reach < 2 ∧ 3 ≤ (sRst (fun r => { r with reach := 1, stage := 3 })).rst.stage ∧
      (sRst (fun r => { r with reach := 1, stage := 3 })).rst.armed = false) ∧
    ((sRst (fun r => { r with reach := 0, stage := 3, armed := true })).rst.reach = 0 ∧ 3 ≤ (sRst (fun r => { r with reach := 0, stage := 3, armed := true })).rst.stage ∧
      (sRst (fun r => { r with armed := true })).rst.armed = true) ∧ (2 ≤ (sRst (fun r => { r with reach := 2 })).rst.reach ∧
      (sRst (fun r => { r with stage := 2 })).rst.stage < 3) ∧ (1 < 2 ∧ s0.rst.coreGood = true) := by decide

theorem witness_DebugRequestsAreIgnored : s0.ov O.dbg_state ≠ 2 := by decide

theorem witness_StartUpRunsInOrder :
    ((sRst (fun r => { r with reach := 1, sample := false, stage := 4 })).rst.reach = 1 ∧ s0.rst.asserted = 0 ∧ 4 ≠ 1) ∧
    (2 ≤ (sRst (fun r => { r with sample := false })).rst.reach ∧ (sRst (fun r => { r with sample := false })).rst.sample = false ∧ s0.rst.aon = true ∧
      s0.rst.coreGood = true) ∧ (sRst (fun r => { r with asserted := 16 })).rst.asserted ≠ 0 ∧ s0.rst.sample = true ∧
    (sRst (fun r => { r with loading := true })).rst.loading = true ∧ s0.rst.trimFails = 0 ∧ (sRst (fun r => { r with trimFails := 1 })).rst.trimFails ≠ 0 ∧
    s0.rst.oscDone = false ∧ ((sRst (fun r => { r with stage := 2, reach := 0 })).rst.stage = 2 ∧ (sRst (fun r => { r with stage := 2, reach := 0 })).rst.reach = 0) ∧
    (s0.pickKeeper.keeper 0 ≠ 2) ∧ s0.pickKeeper.rst.warm = false := by decide

/-- A boot whose signature is good runs its own part, a warm one as well, and one with neither good finds none. -/
theorem witness_StartUpRunsInOrder_boot :
    s0.bootPart true true = (some 0, s0) ∧ (sRst (fun r => { r with warm := true })).bootPart true true = (some 0, sRst (fun r => { r with warm := true })) ∧
    ∃ v, s0.bootPart false false = (none, v) := by
  have h : ∀ s : State, s.ov O.boot_pref % 2 = 0 → s.verifyImage 0 true = 0 → s.bootPart true true = (some 0, s) := by
    intro s h1 h2; simp only [State.bootPart, h1, h2, if_true]
  refine ⟨h _ (by decide) (by decide), h _ (by decide) (by decide), (s0.bootPart false false).2, ?_⟩
  have e : (s0.bootPart false false).1 = none := by decide
  exact Prod.ext e rfl

/-- The power state and the state of its entry, as the test needs. -/
def sPwr (st tgt : Nat) (f : Pwr → Pwr) : State := let s : State := (s0.setOv O.pstate st).setOv O.pstate_target tgt
  { s with pwr := f s.pwr }

theorem witness_PowerClocksAndHeat_states :
    4 ≤ 4 ∧ (2 < 3 ∧ (sPwr 3 0 id).ov O.pstate = 3) ∧ (s0.ov O.pstate ≠ 3 ∧ s0.islandEngine = true) ∧
    ({ s0 with units := [(528, ⟨2, 1, 0, 0, 0⟩), (529, ⟨2, 1, 0, 0, 0⟩)] } : State).islandEngine = false ∧
    (s0.roleOf 1 0 = some 0 ∧ s0.lit 1 0 = true ∧ s0.unitIdle 1 0 = true ∧ (sPwr 1 1 id).ov O.pstate = 1 ∧ s0.pwr.gated.contains (1, 0) = false) ∧
    ((sPwr 1 2 id).ov O.pstate = 1 ∧ (sPwr 1 2 id).ov O.pstate_target = 2 ∧ (sPwr 1 2 id).idle = true) ∧ (sPwr 2 2 id).ov O.pstate = 2 ∧
    s0.pwr.entering = false ∧
    ((sPwr 1 3 (fun p => { p with seek3 := some 1 })).pwr.seek3 = some 1 ∧ (sPwr 1 3 (fun p => { p with seek3 := some 1 })).idle = true ∧
      (sPwr 1 3 (fun p => { p with seek3 := some 1 })).islandEngine = true ∧ (sPwr 1 3 (fun p => { p with seek3 := some 1 })).ov O.pstate ≠ 3) ∧
    ((sPwr 1 3 (fun p => { p with seek3 := some 1, entering := true })).pwr.entering = true ∧
      (sPwr 1 3 (fun p => { p with seek3 := some 1, entering := true })).noCopies = true ∧
      ({ sPwr 1 3 (fun p => { p with seek3 := some 1, entering := true }) with coh := sShared.coh } : State).noCopies = false) ∧
    ((sPwr 3 0 id).rst.coreGood = true ∧ (sPwr 3 0 id).rst.coreEn = true ∧ (sPwr 3 0 id).pwr.ckpt = false ∧
      (sPwr 3 0 (fun p => { p with ckpt := true })).pwr.ckpt = true) := by decide

theorem witness_PowerClocksAndHeat_heat :
    (({ s0 with pwr := { s0.pwr with bucket := 0 } } : State).pwr.bucket ≤ 0 ∧ s0.ov O.gov_level = 0 ∧ 0 < 10) ∧
    (s0.setOv O.gov_level 10).ov O.gov_level = 10 ∧ ({ s0 with pwr := { s0.pwr with mw := 1050001 } } : State).pwr.mw > 1050000 ∧
    (0 < s0.pwr.bucket ∧ s0.pwr.mw ≤ 1050000 ∧ (f32 ((s0.setOv O.hot_limit 0x42B40000).ov O.temp_max)).lt? (f32 ((s0.setOv O.hot_limit 0x42B40000).ov O.hot_limit)) = some true) ∧
    s0.pwr.wearSecs + 1 ≠ 3600 := by decide

theorem witness_PowerClocksAndHeat_clocks :
    1 < 2 ∧ s0.ov O.root_sel = 0 ∧ ((s0.setOv O.pll_lock 2).ov O.pll_lock).testBit (1 - (s0.setOv O.pll_lock 2).ov O.root_sel % 2) = true ∧ (3 < 4 ∧ 5 < 6) ∧
    (((s0.setOv O.gov_level 4).setOv O.arith_div 8).ov O.arith_div ≠ 0 ∧ ((s0.setOv O.gov_level 4).setOv O.arith_div 8).ov O.arith_div <
      ((s0.setOv O.gov_level 4).setOv O.arith_div 8).govDiv) ∧ ((s0.setOv O.arith_div 16).govDiv < (s0.setOv O.arith_div 16).ov O.arith_div) ∧
    (s0.ov O.fc_state ≠ 1 ∧ (s0.setOv O.fc_count 1).ov O.fc_count ≠ 0 ∧ (s0.setOv O.fc_count 0).ov O.fc_count = 0 ∧ (s0.setOv O.fc_state 1).ov O.fc_state = 1) := by
  decide

theorem witness_BoardAndWindowWrites :
    1 < 2 ∧ (sRst (fun r => { r with aon := false })).rst.aon = false ∧ s0.rst.coreGood = true ∧ s0.ov O.pstate ≠ 3 ∧ (sPwr 3 0 id).ov O.pstate = 3 ∧
    (sRst (fun r => { r with roms := 2 })).rst.roms.testBit 1 = true ∧ s0.rst.roms.testBit 1 = false ∧
    (7 < 8 ∧ s0.ov O.fr_port 7 = 1 ∧ (3 % 65536 + 65536 - (s0.setOv O.fr_tail 3 7).ov O.fr_head 7) % 65536 ≤
      ((s0.setOv O.fr_tail 3 7).ov O.fr_tail 7 + 65536 - (s0.setOv O.fr_tail 3 7).ov O.fr_head 7) % 65536) ∧ s0.ov O.fr_port 7 ≠ 0 ∧
    (sHost.vfCtx 0 1 = some 5 ∧ sHost.ideRefuses 5 true = false ∧ sHost.ideRefuses 5 false = true) ∧ (0x1040 ≤ 0x1040 ∧ 0x1FFF < 0x2000) := by decide

/-- HOST0 holds the lease since the reset; an agent on MGT with four messages waiting; a mailbox with a PING of 8 bytes. -/
def sLease : State := s0.setOv O.lease_holder 3

def sMail (busy : Bool) (n : Nat) : State := s0.setBox 1 { Mbox.dflt with busy := busy, reqLen := n, buf := fitTo 4032 [7] }

theorem witness_LightListAndLease :
    (s0.principal 32 = 3 ∧ s0.principal 32 ≠ 0 ∧ 32 ≤ 32 ∧ s0.rst.recovery = false) ∧ s0.principal 31 = 0 ∧ s0.principal 33 = 4 ∧
    ((s0.setOv O.fm_agent 9).principal (64 + 9) = 5 ∧ s0.principal (64 + 9) = 6) ∧ s0.ov O.lease_holder = 0 ∧
    (sLease.ov O.lease_holder = sLease.principal 32 ∧ sLease.ltc < sLease.ll.leaseAt + sLease.leaseTicks) ∧ sLease.ov O.lease_holder ≠ sLease.principal 33 ∧
    ({ sLease with ltc := sLease.leaseTicks } : State).ll.leaseAt + ({ sLease with ltc := sLease.leaseTicks } : State).leaseTicks ≤ sLease.leaseTicks ∧
    ((sMail true 8).box 1).busy = true ∧ (((sMail false 7).box 1).busy = false ∧ ((sMail false 7).box 1).reqLen < 8) ∧ 4032 < ((sMail false 4033).box 1).reqLen ∧
    (8 ≤ ((sMail false 8).box 1).reqLen ∧ ((sMail false 4032).box 1).reqLen ≤ 4032 ∧ byteAt ((sMail false 8).box 1).buf 0 ≠ 9) ∧
    ((s0.ll.waits.filter (fun w => w.sess == 64 + 9)).length < 4 ∧
      4 ≤ (({ s0 with ll := { s0.ll with waits := List.replicate 4 ⟨73, 1, 0, 1, [], v0, false⟩ } } : State).ll.waits.filter (fun w => w.sess == 64 + 9)).length) ∧
    (s0.llReady = false ∧ (({ s0 with ll := { s0.ll with waits := [⟨31, 9, 0, 1, [], v0, false⟩] } } : State).ll.waits.filter (fun w => w.sess == 31)).any
        (fun w => w.msg == 9) = true ∧
      8 ≤ (({ s0 with ll := { s0.ll with waits := List.replicate 8 ⟨31, 1, 0, 1, [], v0, false⟩ } } : State).ll.waits.filter (fun w => w.sess == 31)).length) := by
  decide

/-- The Light List serves; client 2 is registered with the digest of a key of zeros; its handshake has been sent a cookie, and then a reply. -/
def sServe : State := let s : State := s0.setOct O.llp_client (List.replicate 32 7 ++ [1, 0, 0, 0]) 0 2
  { s with rst := { s.rst with reach := 0, stage := 4 } }

def sCookie : State := { sServe with ll := { sServe.ll with hs := [(6, { LlHs.dflt with cookie := List.replicate 16 3, step := 1 })] } }

def ssHello1 : Bytes := [1] ++ zeros 1651

def ssHello2 : Bytes := [1, 0, 0, 0] ++ (List.replicate 16 3 ++ (List.replicate 32 7 ++ zeros 1600))

theorem witness_LlpSessionsComplete_hello :
    (sServe.llReady = true ∧ sServe.rst.recovery = false ∧ 20 ≤ ssHello1.length ∧ byteAt ssHello1 0 = 1 ∧ slice 4 16 ssHello1 = zeros 16) ∧
    (slice 4 16 ssHello2 ≠ zeros 16 ∧ (Tab.get LlHs.dflt sCookie.ll.hs 6).step ≠ 0 ∧ slice 4 16 ssHello2 = (Tab.get LlHs.dflt sCookie.ll.hs 6).cookie ∧
      sCookie.ltc ≤ (Tab.get LlHs.dflt sCookie.ll.hs 6).cookieAt + usTicks 10000000 ∧ ssHello2.length = 1652 ∧
      sCookie.clientOf (slice 20 32 ssHello2) = some 2 ∧ (sCookie.ll.sess.filter (fun p => decide (p.1 < 32))).length < 32) ∧
    slice 4 16 ssHello2 ≠ (Tab.get LlHs.dflt sServe.ll.hs 6).cookie := by decide +kernel

/-- The finish of client 2: its key's digest is the registered one. -/
def finish : Bytes := [4, 0, 0, 0] ++ (zeros 64 ++ zeros 29824)

def sFinish : State := let s : State := sServe.setOct O.llp_client (sha (zeros 64) ++ [1, 0, 0, 0]) 0 0
  { s with ll := { s.ll with hs := [(6, { LlHs.dflt with digest := sha (zeros 64), step := 3, client := 0 })] } }

theorem witness_LlpSessionsComplete_finish :
    (Tab.get LlHs.dflt sFinish.ll.hs 6).step = 3 ∧ byteAt finish 0 = 4 ∧ sha (slice 4 64 finish) = (Tab.get LlHs.dflt sFinish.ll.hs 6).digest ∧
    sFinish.freeLlSess = some 0 := ⟨rfl, rfl, rfl, by decide⟩

theorem witness_LlpSessionsComplete_client : sFinish.clientOf (sha (zeros 64)) = some 0 := by
  have h : sServe.objsOk := ⟨by decide, by decide⟩
  have e : (sServe.setOct O.llp_client (sha (zeros 64) ++ [1, 0, 0, 0]) 0 0).oct O.llp_client 0 0 = fitTo 40 (sha (zeros 64) ++ [1, 0, 0, 0]) :=
    State.oct_setOct_self h O.llp_client _ 0 0
  have o : sFinish.octs = (sServe.setOct O.llp_client (sha (zeros 64) ++ [1, 0, 0, 0]) 0 0).octs := rfl
  have e' : sFinish.oct O.llp_client 0 0 = fitTo 40 (sha (zeros 64) ++ [1, 0, 0, 0]) := by
    rw [← e, State.oct, State.oct, o]
  have a : (fitTo 40 (sha (zeros 64) ++ [1, 0, 0, 0])).take 32 = sha (zeros 64) := rfl
  have b : byteAt (fitTo 40 (sha (zeros 64) ++ [1, 0, 0, 0])) 32 = 1 := rfl
  rw [State.clientOf, show (64 : Nat) = 63 + 1 from rfl, List.range_succ_eq_map, List.find?_cons]
  simp only [e', a, b, beq_self_eq_true, Bool.true_and]
  rfl

theorem witness_LlpSessionsComplete_length : finish.length = 29892 := by
  rw [finish]; simp only [List.length_append, zeros_length]; rfl

/-- A session of TENANT 5 with an event out, counters seen to 2,000 and an answer kept; and one as it begins. -/
def sub0 : Sub := ⟨0, 0x7000, 1, 100, [], 0, some 4, 0⟩

def sTen (seen : List Nat) (high : Nat) : State := { sServe with ll := { sServe.ll with
  sess := [(31, { LlSess.dflt with who := 2, num := 5, seen := seen, high := high, answers := [(8, [1])], subs := [sub0] })] } }

theorem witness_LlpSessionsComplete_sessions :
    (31 < 32 ∧ ((sTen [2000] 2000).llSess 31).who ≠ 0) ∧ (((sTen [2000] 2000).llSess 31).seen.contains 2000 = true ∧ 975 + 1024 < ((sTen [2000] 2000).llSess 31).high) ∧
    (((sTen [2000] 2000).llSess 31).seen.contains 976 = false ∧ ((sTen [2000] 2000).llSess 31).high ≤ 976 + 1024 ∧ byteAt [1] 0 ≠ 9 ∧
      ((sTen [2000] 2000).llSess 31).answers.find? (fun p => p.1 == 8) = some (8, [1]) ∧
      ((sTen [2000] 2000).llSess 31).answers.find? (fun p => p.1 == 9) = none ∧ ((sTen [2000] 2000).llSess 31).answers.length < 64) ∧
    ((List.replicate 64 ((8 : Nat), ([1] : Bytes))).length = 64 ∧ (List.replicate 64 ((8 : Nat), ([1] : Bytes))).all (fun p => decide (7 < p.1)) = true ∧
      (List.replicate 64 ((8 : Nat), ([1] : Bytes))).find? (fun p => p.1 == 7) = none) ∧
    (((sTen [] 0).llSess 31).subs.findIdx? (fun u => u.msg == some 4) = some 0 ∧ ((sTen [] 0).llSess 31).subs[0]? = some sub0) ∧
    (Tab.get LlHs.dflt sFinish.ll.hs 6).step = 3 := by decide

/-! ### Values of the spec's worked examples -/

/-- R34 and its example; the address example of chapter 02. -/
theorem test_home_slices : hsOf 0x403000 = 2 ∧ hsOf 0x024135234580 = 4 ∧ hsOf 0 = 0 ∧
    0x0FA1234560 / 2 ^ 26 = 1000 ∧ 4096 + 2 * 16384 + 77 = 36941 ∧ 36941 * 2 ^ 26 + 0x0FA1234560 % 2 ^ 26 = 0x024135234560 ∧
    pairOf 36941 = 2 ∧ frameOf 0x024135234560 = 36941 := by decide

/-- The reader entry of chapter 20: frame 1,192 of extent 0x15, view 6, the R right. -/
def reader : Entry := { Entry.none with valid := true, rights := 1, view := 6, extent := 0x15, frame := 1192 }

theorem test_entry_layout : reader.pack = 0x8001600000002A000000950000000000 ∧ Entry.ofNat 0x8001600000002A000000950000000000 = reader ∧
    reader.wellFormed = true ∧ ({ reader with rights := 3 } : Entry).wellFormed = false := by decide

/-- The bindings of chapter 20: R, W and A; R, W, A, T and C; R, all of context 17. -/
theorem test_bindings :
    (s0.setOv O.binding 0x80001C11 800 0).bindMask 800 17 = some 0b00111 ∧ (s0.setOv O.binding 0x80007C11 812 7).bindMask 812 17 = some 0b11111 ∧
    (s0.setOv O.binding 0x80000411 900 0).bindMask 900 17 = some 0b00001 ∧ s0.bindMask 800 17 = none := by decide

/-- R69. The check value of the digest. -/
theorem test_crc64 : crc64 [0x31, 0x32, 0x33, 0x34, 0x35, 0x36, 0x37, 0x38, 0x39] = 0x995DC9BBDF1939FA := by decide

/-- R209-R212 and the example of a partial MXFP4 block: 21, -3.1 (in BF16), 0.75 and 0 make scale 0x81 and elements 6, -1, 0, 0, which read as
24, -4, 0 and 0 in BF16. -/
theorem test_mxfp4 :
    mxEncode 9 2 [.fin false 21 0, elemDecode 2 0xC046, .fin false 3 (-2), .fin false 0 0] (List.replicate 4 .rne) = (0x81, [7, 0xA, 0, 0], 0) ∧
    [7, 0xA, 0, 0].map (fun x => (elemEncode 2 .rne (mxDecode 9 0x81 x)).enc) = [0x41C0, 0xC080, 0, 0] := by decide

/-- R205. 1 + 2^-10 becomes 1.0 with a residual of 2^-10. -/
theorem test_sb32 : sbEncode .rne .rne (.fin false 1025 (-10)) = (0x3F80, 0x3A80, false) := by decide

/-- R363. Frame 500 of HB2.17, journal frame 1,023 and frame 989. -/
theorem test_relayout : keptRank 500 = 502 ∧ relaidPlace 17 502 = (1006, 6) ∧ keptRank 1023 = 1 ∧ relaidPlace 17 1 = (990, 1) ∧
    keptRank 989 = 991 ∧ relaidPlace 17 991 = (1021, 31) := by decide

/-- R418, R419. From full buckets a 160-byte charge is green; with tc empty yellow; with both empty red, to be sent again after 1 us (code 3). -/
def sPol (a b : Nat) : State := { (((s0.setOv O.cir 40 17).setOv O.pir 100 17).setOv O.cbs 262144 17).setOv O.pbs 1048576 17 with pol := [(4 * 1024 + 17, (a, b))] }

theorem test_policer : ((sPol 262144 1048576).police 4 17 160 1).1 = 1 ∧ ((sPol 0 917504).police 4 17 160 1).1 = 2 ∧
    ((sPol 0 0).police 4 17 160 1).1 = 3 ∧ ((sPol 0 0).police 4 17 160 1).2.1 = 3 ∧
    ((sPol 262144 1048576).police 4 17 160 1).2.2.buckets 4 17 = (261984, 1048416) := by decide

/-- R421. Groups 3 and 9 with quanta 2,048 and 1,024 and chunks of 4,096: group 3 is served in round 2, and group 9 first in round 4. -/
def quanta (g : Nat) : Nat := if g = 3 then 2048 else 1024

def chunks (g : Nat) : Option Nat := if g = 3 ∨ g = 9 then some 4096 else none

theorem test_deficit_round_robin : drrTurn quanta chunks 512 0 true [] = some (3, [(9, 1024)]) ∧
    drrTurn quanta chunks 512 3 false [(9, 1024)] = some (3, [(9, 3072)]) ∧ drrTurn quanta chunks 512 3 false [(9, 3072)] = some (9, []) := by decide

/-- R528. With FR0 to FR3 enabled on port 0, context 17's records go to FR1. -/
theorem test_fault_ring : ((([0, 1, 2, 3] : List Nat).foldl (fun t r => t.setOv O.fr_enable 1 r) s0).setOv O.owner_port 0 17).ringOf 17 = some 1 := by decide

/-- R664. The first block request of the example: 20 bytes that ask for 1,024 bytes of C:0x0600:0A at offset 0. -/
theorem test_read_block : parseBody 0 [3, 0, 1, 0, 0, 0, 0, 0, 0x11, 0, 0, 6, 0x0A, 0, 0, 4, 0, 0, 0, 0] =
    some (3, [⟨0x11, 0x600, 0x0A, 0, 1024, []⟩]) ∧ parseBody 0 [3, 0, 1, 0, 0, 0, 0, 0, 0x11, 0, 0, 6, 0x0A, 0, 0, 4, 0, 0, 0] = none := by decide

/-- R399. The scrub of chapter 09 meets a corrected error in code word 1 of line 0x0241_3523_4580 on device 6. -/
def sScr (pos : Nat) : State := { s0 with scrub := { s0.scrub with running := true, base := 0x024134000000, len := 0x04000000, pos := pos } }

theorem test_scrub_lists :
    ((((sScr 0x024135234580).meet [⟨0x024135234580 / 64 + 1, false, 6, false⟩]).scrubLine m0).scrub.ceList = [0x02413523459A]) ∧
    ((((sScr 0x024134000100).cwStore (0x024134000100 / 64) (.poison 3)).scrubLine m0).scrub.poList = [0x024134000103]) := by decide

/-- R266. The first operation of the built-in AdamW: MULC of stream 0 by constant 7 into a temporary. -/
theorem test_adamw : (builtin 1).map (fun b => slice 64 8 b) = some [0x14, 8, 0, 6, 6, 7, 0, 0] := by decide

/-- R601, R609 and the example of chapter 16: a power dip widens a core episode; `rst_cause` reads WDT_CORE, CORE_BOR, RST_PIN and TRIM_ABORT. -/
theorem test_causes : reachOf 3 = 2 ∧ reachOf 8 = 1 ∧ reachOf 0 = 3 ∧ 0x00081118 = 2 * 2 ^ 18 + 2 ^ 12 + 2 ^ 8 + 2 ^ 4 + 2 ^ 3 := by decide

/-- R645-R647. The energy of 1 ms at 1,050 W leaves the full bucket by 0.27 J; at zero the governor takes one level. -/
theorem test_governor : min 12000000000 ((12000000000 : Int) + (780000 - 1050000)) = 11999730000 ∧
    (match exec .governorTick ({ s0 with pwr := { s0.pwr with bucket := 0 } } : State) with
      | .next t => t.ov O.gov_level
      | _ => 99) = 1 := by decide

/-- R58, R106. The window of the example: VPN 512 lies inside 8,192 pages and VPN 8,192 outside, a violation counted for its agent. -/
def sVpn : State := { ((((s0.setOv O.can_agent (2 ^ 15 + 1) 3).setOv O.binding 0x80007C11 1 0).setOv O.win_count 8192 17).setOv O.win_base 8192 17) with
  ctxs := [(17, { Ctx.dflt with st := .active })] }

def rdAt (cva : Nat) : Hdr := { h0 with can := 3, ctx := 17, cva := cva, len := 128 }

theorem test_window :
    (match exec (.rds 4 1 (rdAt (2 ^ 35))) sVpn with
      | .next t => (t.chart.fetches, (t.agent 1).frozen)
      | _ => ([], true)) = ([(4, 17, 512)], false) ∧
    (match exec (.rds 4 1 (rdAt (2 ^ 39))) sVpn with
      | .next t => (t.chart.fetches, (t.agent 1).frozen)
      | _ => ([], false)) = ([], true) := by decide

end Sys2Proof.Tests
end

section
/-! PROOFS. Requests and their home slices: the bits of a home slice's number (R34), and a request that its port admits and translates, on
its way to the home slice of its pool address (R32, R36, R46-R64). -/

namespace Sys2Proof.Machine

open Sys2Proof

/-! ### The home slice of an address (R34) -/

theorem testBit_bits (x lo w i : Nat) : (bits x lo w).testBit i = (decide (i < w) && x.testBit (lo + i)) := by
  rw [bits, Nat.testBit_mod_two_pow, Nat.testBit_div_two_pow, Nat.add_comm]

/-- Settles O10: the home slice is an exclusive OR of bit fields, and a bit of a field is a bit of the address. -/
theorem homeSliceOfAnAddress : Obligations.HomeSliceOfAnAddress := by
  intro ppa i _ hi
  simp only [hsOf, Nat.testBit_xor, testBit_bits, decide_eq_true hi, Bool.true_and]

/-! ### Sending to the home slice (R23, R31, R556) -/

/-- A request put on the mesh in state `s`, with its plane and the count that dates it. -/
def Req.onMesh (r : Req) (s : State) : Req :=
  { r with phase := .sent, plane := (s.travels false r.port r.ppa).1, hop := s.coh.clk }

/-- The state in which a request is on its way to its home slice. -/
def State.sentOn (s : State) (r : Req) : State :=
  { s.updReq r.id (fun _ => r.onMesh s) with coh := { s.coh with clk := s.coh.clk + 1 } }

theorem State.sendHome_open {s : State} {r : Req} (hphase : (s.slc (hsOf r.ppa)).phase = 0)
    (hspare : (s.slc (hsOf r.ppa)).noSpare = false) (hhold : (s.slc (hsOf r.ppa)).hold = false)
    (hroute : s.rerouting r.port r.ppa = false) : s.sendHome r = s.sentOn r := by
  unfold State.sendHome
  simp [hphase, hspare, hhold, hroute, State.sentOn, Req.onMesh, State.updReq]

/-! ### Translation by a pool entry (R46, R55, R56, R62) -/

/-- A request translated by the entry `e` of a page without a view. -/
def Req.mapped (r : Req) (e : Entry) (index epoch : Nat) : Req :=
  { r with
    gen := e.gen, view := e.view, ext := e.extent, index := index, rights := e.rights &&& r.mask, epoch := epoch, hadEntry := true,
    ppa := e.frame * 2 ^ 26 + r.h.cva % 2 ^ 26 }

/-- No right is missing when those had cover those needed. -/
theorem missing_rights_eq_zero {need had : Nat} (h : need &&& (had &&& need) = need) : need &&& (need ^^^ (had &&& need)) = 0 := by
  have hcover : had &&& need = need := by rwa [Nat.and_comm had, ← Nat.and_assoc, Nat.and_self, Nat.and_comm] at h
  rw [hcover, Nat.xor_self, Nat.and_zero]

/-- A mapped page lets the request through, whichever PTC entry brought it. -/
theorem State.withEntry_mapped {s : State} {r : Req} {e : Entry} (M : s.Maps r.kind r.port r.h r.slots r.mask e) (p : PtcE) (index : Nat) :
    (s.touchPtc p).withEntry r e index = (s.touchPtc p).sendHome (r.mapped e index s.epochNow) := by
  obtain ⟨hvalid, htyp, hview⟩ := M.pool
  have hgen : ¬(r.h.gchk = true ∧ r.kind.gchkOk = true ∧ r.h.gexp ≠ e.gen) := fun ⟨hchk, _, hne⟩ =>
    M.gen.elim (fun hno => Bool.false_ne_true (hno.symm.trans hchk)) hne
  have hlen : ¬((r.kind = .rdonce ∨ r.kind = .wrpart) ∧ r.h.len = 0) := fun ⟨hk, h0⟩ => M.some.1 hk h0
  have hacc : ¬(r.kind = .acc ∧ accEmpty r.h r.slots = true) := fun ⟨hk, h0⟩ => Bool.false_ne_true ((M.some.2 hk).symm.trans h0)
  have hremap : ¬((r.kind = .rds ∨ r.kind = .rdx ∨ r.kind = .upg) ∧ (s.touchPtc p).remapHeld r.h.ctx (r.h.cva / 2 ^ 26) = true) :=
    fun ⟨hk, h0⟩ => Bool.false_ne_true ((M.remap hk).symm.trans h0)
  have hmiss := missing_rights_eq_zero M.rights
  have hepoch : (s.touchPtc p).epochNow = s.epochNow := rfl
  have hhost : ¬(0 = 1) := by decide
  have hrevoked : ¬(0 = 2) := by decide
  unfold State.withEntry
  simp only [hvalid, htyp, hview, hmiss, hgen, hlen, hacc, hremap, hepoch, hhost, hrevoked, Nat.zero_and, Req.mapped, if_true, if_false,
    Bool.not_true, Bool.false_eq_true, ne_eq, not_true_eq_false, ite_self]

/-- A mapped page is translated by the PTC entry its port holds. -/
theorem State.translate_mapped {s : State} {r : Req} {e : Entry} (M : s.Maps r.kind r.port r.h r.slots r.mask e) :
    ∃ p index, s.translate r = (s.touchPtc p).withEntry r e index := by
  obtain ⟨p, hp, rfl⟩ := Option.map_eq_some_iff.mp M.hit
  have hbehind := List.any_eq_false.mp M.behind
  have hwait (ph : Phase) (hph : ph = .slotted ∨ ph = .fetching) :
      s.reqs.any (fun q => q.phase == ph && (q.port == r.port && q.h.ctx == r.h.ctx && q.h.cva / 2 ^ 26 == r.h.cva / 2 ^ 26
        && decide (q.id < r.id))) = false := by
    refine List.any_eq_false.mpr fun q hq hany => hbehind q hq ?_
    simp only [Bool.and_eq_true, Bool.or_eq_true, beq_iff_eq] at hany ⊢
    obtain ⟨hphase, ⟨⟨hport, hctx⟩, hvpn⟩, -⟩ := hany
    exact ⟨⟨⟨hphase ▸ hph, hport⟩, hctx⟩, hvpn⟩
  refine ⟨p, s.ov O.win_base r.h.ctx + r.h.cva / 2 ^ 26, ?_⟩
  unfold State.translate
  simp only [if_neg (Nat.not_le.mpr M.window), hwait .slotted (.inl rfl), hwait .fetching (.inr rfl), Bool.false_eq_true, if_false, hp]

/-- What the port's translation leaves: the request is on the mesh, and the PTC's order of use has moved on. -/
theorem State.translate_sends {s : State} {r : Req} {e : Entry} (M : s.Maps r.kind r.port r.h r.slots r.mask e) :
    ∃ p index, s.translate r = (s.touchPtc p).sentOn (r.mapped e index s.epochNow) := by
  obtain ⟨p, index, htr⟩ := State.translate_mapped M
  obtain ⟨hphase, hspare, hhold⟩ := M.home
  exact ⟨p, index, htr.trans ((State.withEntry_mapped M p index).trans (State.sendHome_open hphase hspare hhold M.route))⟩

/-- Translation and sending write the request and the count that dates what is sent. -/
theorem State.sentOn_touchPtc_same (s : State) (p : PtcE) (r : Req) :
    ((s.touchPtc p).sentOn r).nextReq = s.nextReq ∧ ((s.touchPtc p).sentOn r).cmps = s.cmps ∧ ((s.touchPtc p).sentOn r).out = s.out ∧
    s.sameStored ((s.touchPtc p).sentOn r) ∧ ((s.touchPtc p).sentOn r).coh = { s.coh with clk := s.coh.clk + 1 } ∧
    ((s.touchPtc p).sentOn r).ctxs = s.ctxs ∧ ((s.touchPtc p).sentOn r).octs = s.octs ∧ ((s.touchPtc p).sentOn r).agents = s.agents ∧
    ((s.touchPtc p).sentOn r).reqs = s.reqs.map (fun q => if q.id = r.id then r.onMesh (s.touchPtc p) else q) :=
  ⟨rfl, rfl, rfl, ⟨rfl, rfl, rfl⟩, rfl, rfl, rfl, rfl, rfl⟩

/-! ### From admission to the mesh (R32, R36) -/

/-- What admission and waking leave as it was: the request is retained last and its number is used. -/
theorem State.admitted_stir_same (s : State) (k : Kind) (port : Nat) (h : Hdr) (slots : List Slot) (m : Nat) {u : State}
    (hu : u = (s.admitted k port h slots m).2.stir) :
    u.reqs = s.reqs ++ [(s.admitted k port h slots m).1] ∧ u.nextReq = s.nextReq + 1 ∧ u.cmps = s.cmps ∧ u.out = s.out ∧
      s.sameStored u ∧ u.coh = s.coh ∧ u.ctxs = s.ctxs ∧ u.octs = s.octs ∧ u.agents = s.agents ∧ u.chart = s.chart ∧
      u.slices = s.slices ∧ ∀ p a, u.rerouting p a = s.rerouting p a := by
  subst hu
  obtain ⟨hreqs, hnext, hcmps, hout, hmem, hpoison, hkey, hcoh, hctxs, hocts, hagents, hchart, hslices, -⟩ :=
    stir_same (s.admitted k port h slots m).2
  obtain ⟨hmaps, hrouters, hrouting⟩ := stir_routes (s.admitted k port h slots m).2
  rw [hreqs, hnext, hcmps, hout, hcoh, hctxs, hocts, hagents, hchart, hslices]
  obtain ⟨preqs, pnext, pcmps, pout, pmem, ppoison, pkey, pcoh, pctxs, pocts, pagents, pchart, pslices, -⟩ :=
    police_same { s with nextReq := s.nextReq + 1 } port h.ctx (chargeOf k h slots.length) h.colour
  obtain ⟨pmaps, ppwr⟩ := police_routes { s with nextReq := s.nextReq + 1 } port h.ctx (chargeOf k h slots.length) h.colour
  exact ⟨congrArg (· ++ _) preqs, pnext, pcmps, pout, ⟨hmem.trans pmem, hpoison.trans ppoison, hkey.trans pkey⟩, pcoh, pctxs, pocts, pagents,
    pchart, pslices, State.rerouting_congr (hmaps.trans pmaps) (hrouters.trans (congrArg Pwr.routers ppwr))
      (hrouting.trans (congrArg Pwr.routing ppwr))⟩

/-- The policer's counters and the wake's registers are other objects than a window's size. -/
theorem State.admitted_stir_win_count (s : State) (k : Kind) (port : Nat) (h : Hdr) (slots : List Slot) (m : Nat) (hctx : h.ctx < 1024) :
    (s.admitted k port h slots m).2.stir.ov O.win_count h.ctx = s.ov O.win_count h.ctx := by
  have hc : h.ctx < 2 ^ 24 := Nat.lt_trans hctx (by decide)
  exact (State.stir_ov _ (Obj.key_ne_of_id (by decide) (by decide) (by decide) hc (by decide))
      (Obj.key_ne_of_id (by decide) (by decide) (by decide) hc (by decide))).trans
    (police_ov _ port h.ctx _ _ hc hc (by decide) (by decide) (by decide) (by decide))

/-- Admission and waking leave what translates a request's page as it was. -/
theorem State.Maps.admitted {s : State} {k : Kind} {port src : Nat} {h : Hdr} {slots : List Slot} {m : Nat} {e : Entry}
    (M : s.Maps k port h slots m e) (A : s.Admits k port src h slots m) (hk : k ≠ .fence) :
    (s.admitted k port h slots m).2.stir.Maps k port h slots m e := by
  have hwin := s.admitted_stir_win_count k port h slots m A.range.1
  generalize hu : (s.admitted k port h slots m).2.stir = u at hwin ⊢
  obtain ⟨hreqs, -, -, -, -, -, -, -, -, hchart, hslices, hroute⟩ := s.admitted_stir_same k port h slots m hu.symm
  have hslc (n : Nat) : u.slc n = s.slc n := by simp only [State.slc, hslices]
  constructor
  case window => rw [hwin]; exact M.window
  case fence => rw [hreqs, List.any_append, M.fence]; simp [State.admitted, Req.arriving, hk]
  case behind => rw [hreqs, List.any_append, M.behind]; simp [State.admitted, Req.arriving]
  case hit => rw [hchart]; exact M.hit
  case pool => exact M.pool
  case rights => exact M.rights
  case gen => exact M.gen
  case some => exact M.some
  case remap => simpa only [State.remapHeld, hchart] using M.remap
  case home => simpa only [hslc] using M.home
  case route => rw [hroute]; exact M.route

/-- A request that its port admits and translates is on the mesh to its home slice when the command ends. -/
theorem State.receive_sends {s : State} {k : Kind} {port src : Nat} {h : Hdr} {slots : List Slot} {m : Nat} {e : Entry}
    (A : s.Admits k port src h slots m) (M : s.Maps k port h slots m e) (hfence : k ≠ .fence) (hdbell : k ≠ .dbell) (hhint : k ≠ .hint) :
    ∃ p index, s.receive k port src h slots = ((s.admitted k port h slots m).2.stir.touchPtc p).sentOn
      ((s.admitted k port h slots m).1.mapped e index (s.admitted k port h slots m).2.stir.epochNow) := by
  have M' := M.admitted A hfence
  have hopen : (s.admitted k port h slots m).2.stir.fenceHeld (s.admitted k port h slots m).1 = false := by
    refine List.any_eq_false.mpr fun q hq hheld => List.any_eq_false.mp M'.fence q hq ?_
    exact (Bool.and_eq_true_iff.mp hheld).1
  rw [State.receive_adm A, State.proceed_mapped hopen hfence hdbell hhint]
  exact State.translate_sends M'

/-- Each request command is the arrival of its request, which is to be translated and names the address of the command. -/
theorem requestRows_spec (port src : Nat) (h : Hdr) (slots : List Slot) : ∀ x ∈ requestRows port src h slots,
    (∀ s, exec x.1 s = .next (s.receive x.2.1 port src x.2.2.1 x.2.2.2)) ∧
      (x.2.1 ≠ .fence ∧ x.2.1 ≠ .dbell ∧ x.2.1 ≠ .hint) ∧ x.2.2.1.cva = h.cva := by
  simp only [requestRows, List.forall_mem_cons, List.not_mem_nil, false_imp_iff, forall_const, and_true, ne_eq, reduceCtorEq,
    not_false_eq_true]
  refine ⟨?_, ?_, ?_, ?_, ?_, ?_, ?_, ?_, ?_, ?_, ?_, ?_⟩ <;> intro s <;> rfl

/-- Settles O11: the admitted request is mapped by its page's entry and put on the mesh, and all else is the frame of admission, wake and
translation. -/
theorem requestsReachTheirHomeSlice : Obligations.RequestsReachTheirHomeSlice := by
  intro s port src h slots m e x hx A M
  obtain ⟨hexec, ⟨hfence, hdbell, hhint⟩, hcva⟩ := requestRows_spec port src h slots x hx
  obtain ⟨p, index, hsent⟩ := State.receive_sends A M hfence hdbell hhint
  rw [hexec, hsent]
  generalize hu : (s.admitted x.2.1 port x.2.2.1 x.2.2.2 m).2.stir = u
  obtain ⟨ureqs, unext, ucmps, uout, ⟨umem, upoison, ukey⟩, ucoh, uctxs, uocts, uagents, -⟩ :=
    s.admitted_stir_same _ port _ _ m hu.symm
  generalize hr : (s.admitted x.2.1 port x.2.2.1 x.2.2.2 m).1.mapped e index u.epochNow = r
  obtain ⟨tnext, tcmps, tout, ⟨tmem, tpoison, tkey⟩, tcoh, tctxs, tocts, tagents, treqs⟩ := u.sentOn_touchPtc_same p r
  refine ⟨_, rfl, tnext.trans unext, ?sent, ?others, tcmps.trans ucmps, tout.trans uout,
    ⟨tmem.trans umem, tpoison.trans upoison, tkey.trans ukey⟩, ?clock, tctxs.trans uctxs, tocts.trans uocts, tagents.trans uagents⟩
  case sent =>
    have hmem : r.onMesh (u.touchPtc p) ∈ ((u.touchPtc p).sentOn r).reqs := by
      rw [treqs, ureqs, ← hr]
      exact List.mem_map.mpr ⟨_, List.mem_append_right _ (List.mem_singleton_self _), if_pos rfl⟩
    refine ⟨_, hmem, ?_⟩
    rw [← hr, ← hcva]
    exact ⟨rfl, rfl, rfl, rfl, rfl, rfl, rfl, rfl, rfl, rfl⟩
  case others =>
    intro q hq hne
    rw [treqs, ureqs]
    exact List.mem_map.mpr ⟨q, List.mem_append_left _ hq, if_neg (by rw [← hr]; exact hne)⟩
  case clock => rw [tcoh, ucoh]

end Sys2Proof.Machine
end

section
/-! PROOFS. Units, routers, Keepers and ports that fail and are repaired (R22, R30, R31, R576-R578, R617, R618): an equation for each case of
the operations in Machine/Avail.lean that fence, quiesce, repair and swap. -/

namespace Sys2Proof.Machine

open Sys2Proof

/-! ### Routers (R30, R31, R617) -/

section Routers

variable {s : State} {plane r : Nat} {att : Option (Nat × Nat)} {m : Met}

/-- The state in which a router has failed and the routes that use it are to change. -/
def State.routerOut (s : State) (plane r : Nat) : State :=
  { s with pwr := { s.pwr with routers := s.pwr.routers ++ [routerKey plane r], routing := s.pwr.routing ++ [routerKey plane r] } }

theorem State.routerFailed_reachable (h : s.pwr.routers.contains (routerKey plane r) = false)
    (hatt : att = none ∨ (s.routerOut plane r).pwr.routers.contains (routerKey (1 - plane % 2) r) = false) :
    s.routerFailed plane r att m = s.routerOut plane r := by
  unfold State.routerFailed
  rw [if_neg (Bool.eq_false_iff.mp h)]
  rcases hatt with rfl | hother
  · rfl
  · match att with
    | none => rfl
    | some (kind, p) => exact if_neg (Bool.eq_false_iff.mp hother)

theorem State.routerFailed_cut_off {kind p : Nat} (h : s.pwr.routers.contains (routerKey plane r) = false)
    (hother : (s.routerOut plane r).pwr.routers.contains (routerKey (1 - plane % 2) r) = true) :
    s.routerFailed plane r (some (kind, p)) m = (s.routerOut plane r).routerFence kind p m := by
  unfold State.routerFailed
  rw [if_neg (Bool.eq_false_iff.mp h)]
  exact if_pos hother

theorem State.routerFence_unit {kind p : Nat} (hk : kind < 3) (h : s.unitState kind p ≠ 1) :
    s.routerFence kind p m = s.unitFence kind p m 6 := by
  obtain rfl | rfl | rfl : kind = 0 ∨ kind = 1 ∨ kind = 2 := by omega
  all_goals exact if_pos h

theorem State.routerFence_port {n : Nat} (hn : n < 24) (h : s.ov O.port_state n ≠ 2) : s.routerFence 4 n m = s.portDark n := if_pos ⟨hn, h⟩

theorem State.routerFence_pair {n : Nat} (hn : n < 12) : s.routerFence 5 n m = s.pairDark n 0 := if_pos hn

theorem State.routerFence_channel {n : Nat} (hn : n < 128) : s.routerFence 6 n m = s.fenceHbm (n / 32) (n % 32) := if_pos hn

theorem State.routeDrained_pending (h : s.pwr.routing.contains (routerKey plane r) = true) :
    s.routeDrained plane r = if s.oldRouteBusy = true then s else
      ({ s with pwr := { s.pwr with routing := s.pwr.routing.filter (· != routerKey plane r) } } : State).sendHeld
        (s.reqs.filter (fun q => q.phase == .holding)) := by
  unfold State.routeDrained
  simp only [h, Bool.not_true, Bool.false_eq_true, false_or]

theorem State.routeDrained_none (h : s.pwr.routing.contains (routerKey plane r) = false) : s.routeDrained plane r = s :=
  if_pos (.inl (by rw [h]; rfl))

end Routers

/-! ### Fences, repairs and swaps of a unit -/

section Units

variable {s : State} {kind p : Nat}

theorem State.criticalError_in_use {m : Met} (h : s.unitState kind p ≠ 1) : s.criticalError kind p m = s.unitFence kind p m 3 := if_neg h

/-- The record of a unit under repair when its self-test has ended. -/
def Unit.tested (u : Unit) (ok : Bool) : Unit :=
  if ok = true then { u with st := 0, doing := 0 } else { u with st := 2, cause := 5, doing := 0 }

theorem State.swapDone_passes {n q : Nat} (hdoing : (s.unit kind p).doing = 2) (hrole : s.roleOf kind p = some n)
    (hidle : s.unitIdle kind n = true) (hspare : s.swapSpare kind p = some q) : s.swapDone kind p =
      ((s.passRole kind n q).setUnit kind p { s.unit kind p with st := 3, doing := 0 }).setOv O.unit_result 0 := by
  unfold State.swapDone
  rw [if_neg (not_not_intro hdoing), hrole, hspare]
  dsimp only
  rw [hidle]
  rfl

theorem State.swapDone_overdue {n : Nat} (hdoing : (s.unit kind p).doing = 2) (hrole : s.roleOf kind p = some n)
    (hkind : kind ≠ 0) (hidle : s.unitIdle kind n = false) : s.swapDone kind p =
      (s.setUnit kind p { s.unit kind p with doing := 0 }).setOv O.unit_result 3 := by
  unfold State.swapDone
  rw [if_neg (not_not_intro hdoing), hrole]
  dsimp only
  rw [hidle]
  exact if_neg hkind

section Quiesce

variable {m : Met} {n : Nat} (hdoing : (s.unit kind p).doing = 1) (hrole : s.roleOf kind p = some n)
include hdoing hrole

theorem State.quiesceDone_overdue (hidle : s.unitIdle kind n = false) :
    s.quiesceDone kind p m = (s.unitFence kind p m 4).setOv O.unit_result 0 := by
  unfold State.quiesceDone
  rw [if_neg (not_not_intro hdoing), hrole]
  dsimp only
  rw [if_neg (fun h => Bool.false_ne_true (hidle.symm.trans h.1))]
  rfl

theorem State.quiesceDone_passes {q : Nat} (hspare : s.spareFor kind p = some q) (hidle : s.unitIdle kind n = true) :
    s.quiesceDone kind p m = ((s.goDark kind p 1).setOv O.unit_result 0).passRole kind n q := by
  unfold State.quiesceDone
  rw [if_neg (not_not_intro hdoing), hrole]
  dsimp only
  rw [hspare, if_pos ⟨hidle, .inr (.inl rfl)⟩]
  rfl

theorem State.quiesceDone_leaves (hspare : s.spareFor kind p = none) (hidle : s.unitIdle kind n = true) (hkind : kind = 0)
    (hempty : s.sliceEmpty n = true) : s.quiesceDone kind p m = ((s.goDark kind p 1).setOv O.unit_result 0).leaveEmpty n := by
  subst hkind
  unfold State.quiesceDone
  rw [if_neg (not_not_intro hdoing), hrole]
  dsimp only
  rw [hspare, if_pos ⟨hidle, .inr (.inr hempty)⟩]
  rfl

theorem State.quiesceDone_homeless (hspare : s.spareFor kind p = none) (hidle : s.unitIdle kind n = true) (hkind : kind ≠ 0) :
    s.quiesceDone kind p m = ((s.goDark kind p 1).setOv O.unit_result 0).giveSpare kind n p := by
  unfold State.quiesceDone
  rw [if_neg (not_not_intro hdoing), hrole]
  dsimp only
  rw [hspare, if_pos ⟨hidle, .inl hkind⟩]
  cases kind with
  | zero => exact absurd rfl hkind
  | succ k => rfl

end Quiesce

theorem State.cmdRepair_refused (hbusy : s.unitBusy = false) (hst : (s.unit kind p).st ≠ 2) : s.cmdRepair kind p = s.setOv O.unit_result 1 := by
  unfold State.cmdRepair
  rw [if_neg (Bool.eq_false_iff.mp hbusy), if_pos (.inr (.inr hst))]
  rfl

theorem State.cmdSwap_refused {dest : Nat} (hbusy : s.unitBusy = false) (hst : s.unitState kind p ≠ 0) :
    s.cmdSwap kind p dest = s.setOv O.unit_result 1 := by
  unfold State.cmdSwap
  rw [if_neg (Bool.eq_false_iff.mp hbusy), if_pos (.inr (.inr hst))]
  rfl

section Commands

variable (hk : kind < 3) (hp : p < physCount kind)
include hk hp

/-- A self-test of a unit ends, and one that has passed serves a role that has none. -/
theorem State.selftestDone_unit {ok : Bool} (hst : (s.unit kind p).st = 3) :
    s.selftestDone kind p ok = if ok = true
      then ((s.setUnit kind p ((s.unit kind p).tested ok)).event 0x03 2 p noCtx (unitDetail kind 0xFF ((s.unit kind p).tested ok).cause)).adopt kind p
      else (s.setUnit kind p ((s.unit kind p).tested ok)).event 0x03 2 p noCtx (unitDetail kind 0xFF ((s.unit kind p).tested ok).cause) := by
  unfold State.selftestDone State.unitTested
  rw [if_pos hk, if_pos hp, if_neg (not_not_intro hst)]
  rfl

variable (hbusy : s.unitBusy = false)
include hbusy

theorem State.cmdRepair_dark (hst : (s.unit kind p).st = 2) :
    s.cmdRepair kind p = (s.setUnit kind p { s.unit kind p with st := 3 }).setOv O.unit_result 0 := by
  unfold State.cmdRepair
  rw [if_neg (Bool.eq_false_iff.mp hbusy), if_neg (by omega)]
  rfl

theorem State.cmdSwap_begins {q : Nat} (hst : s.unitState kind p = 0) (hspare : s.spareFor kind p = some q) :
    s.cmdSwap kind p 0xFF = s.beginQuiesce kind p 2 q := by
  unfold State.cmdSwap
  rw [if_neg (Bool.eq_false_iff.mp hbusy), if_neg (by omega)]
  dsimp only
  rw [if_pos rfl, hspare]

theorem State.cmdSwap_no_spare (hst : s.unitState kind p = 0) (hspare : s.spareFor kind p = none) :
    s.cmdSwap kind p 0xFF = s.setOv O.unit_result 2 := by
  unfold State.cmdSwap
  rw [if_neg (Bool.eq_false_iff.mp hbusy), if_neg (by omega)]
  dsimp only
  rw [if_pos rfl, hspare]
  rfl

theorem State.cmdFence_dark (hst : s.unitState kind p = 2) : s.cmdFence kind p = s.setOv O.unit_result 1 := by
  unfold State.cmdFence
  rw [if_neg (Bool.eq_false_iff.mp hbusy), if_neg (by omega), hst]
  rfl

theorem State.cmdFence_idle (hst : s.unitState kind p = 1 ∨ s.unitState kind p = 3) :
    s.cmdFence kind p = (s.goDark kind p 1).setOv O.unit_result 0 := by
  unfold State.cmdFence
  rw [if_neg (Bool.eq_false_iff.mp hbusy), if_neg (by omega)]
  rcases hst with hst | hst <;> rw [hst] <;> rfl

/-- A unit in use is quiesced; nothing more is done for a tile or engine, or for a slice with a spare. -/
theorem State.cmdFence_quiesces (hst : s.unitState kind p = 0)
    (h : kind ≠ 0 ∨ (s.beginQuiesce kind p 1 0xFF).spareFor 0 p ≠ none ∨ (s.beginQuiesce kind p 1 0xFF).roleOf 0 p = none) :
    s.cmdFence kind p = s.beginQuiesce kind p 1 0xFF := by
  unfold State.cmdFence
  rw [if_neg (Bool.eq_false_iff.mp hbusy), if_neg (by omega), hst]
  dsimp only
  cases kind with
  | succ k => rfl
  | zero =>
    cases hspare : (s.beginQuiesce 0 p 1 0xFF).spareFor 0 p with
    | some q => rfl
    | none =>
      cases hrole : (s.beginQuiesce 0 p 1 0xFF).roleOf 0 p with
      | none => rfl
      | some n => simp [hspare, hrole] at h

/-- A slice with no spare is emptied in place. -/
theorem State.cmdFence_empties {n : Nat} (hkind : kind = 0) (hst : s.unitState kind p = 0)
    (hspare : (s.beginQuiesce kind p 1 0xFF).spareFor 0 p = none) (hrole : (s.beginQuiesce kind p 1 0xFF).roleOf 0 p = some n) :
    s.cmdFence kind p = (s.beginQuiesce kind p 1 0xFF).beginEmptying n := by
  subst hkind
  unfold State.cmdFence
  rw [if_neg (Bool.eq_false_iff.mp hbusy), if_neg (by omega), hst]
  dsimp only
  rw [hspare, hrole]
  rfl

end Commands

end Units

theorem State.selftestDone_keeper {s : State} {k : Nat} {ok : Bool} (hk : k < 2) (h : s.keeper k = 3) : s.selftestDone 3 k ok =
    (s.setKeeper k (if ok = true then 1 else 2)).event 0x03 2 k noCtx (unitDetail 3 0xFF (if ok = true then 0 else 5)) := by
  unfold State.selftestDone
  rw [if_neg (by decide), if_pos rfl, if_pos ⟨hk, h⟩]

theorem State.selftestDone_port {s : State} {n : Nat} {ok : Bool} (hn : n < 24) (h : s.ov O.port_state n = 3) :
    s.selftestDone 4 n ok = s.setUnitSt O.port_state (if ok = true then 0 else 2) n := by
  unfold State.selftestDone
  rw [if_neg (by decide), if_neg (by decide), if_pos ⟨hn, h⟩]

/-! ### The commands -/

theorem exec_unitFence (s : State) (kind p : Nat) (m : Met) : exec (.unitFence kind p m) s = .next (s.criticalError kind p m) := rfl

theorem exec_routerFailure (s : State) (plane r : Nat) (att : Option (Nat × Nat)) (m : Met) :
    exec (.routerFailure plane r att m) s = .next (s.routerFailed plane r att m) := rfl

theorem exec_routeDrainDone (s : State) (plane r : Nat) : exec (.routeDrainDone plane r) s = .next (s.routeDrained plane r) := rfl

theorem exec_unitCmdFence (s : State) (kind p : Nat) : exec (.unitCmdFence kind p) s = .next (s.cmdFence kind p) := rfl

theorem exec_quiesceDone (s : State) (kind p : Nat) (m : Met) : exec (.quiesceDone kind p m) s = .next (s.quiesceDone kind p m) := rfl

theorem exec_unitCmdRepair (s : State) (kind p : Nat) : exec (.unitCmdRepair kind p) s = .next (s.cmdRepair kind p) := rfl

theorem exec_repairSelftestDone (s : State) (kind p : Nat) (ok : Bool) :
    exec (.repairSelftestDone kind p ok) s = .next (s.selftestDone kind p ok) := rfl

theorem exec_unitCmdSwap (s : State) (kind p dest : Nat) : exec (.unitCmdSwap kind p dest) s = .next (s.cmdSwap kind p dest) := rfl

theorem exec_swapDone (s : State) (kind p : Nat) : exec (.swapDone kind p) s = .next (s.swapDone kind p) := rfl

/-- FENCE of a slice in use empties it in place when it has a role and no spare is left. -/
theorem State.cmdFence_slice {s u : State} {p : Nat} (hp : p < physCount 0) (hbusy : s.unitBusy = false) (hst : s.unitState 0 p = 0)
    (hu : u = s.beginQuiesce 0 p 1 0xFF) :
    (∀ n, u.spareFor 0 p = none → u.roleOf 0 p = some n → s.cmdFence 0 p = u.beginEmptying n) ∧
    (u.spareFor 0 p ≠ none ∨ u.roleOf 0 p = none → s.cmdFence 0 p = u) := by
  subst hu
  exact ⟨fun n => State.cmdFence_empties (by decide) hp hbusy rfl hst, fun h => State.cmdFence_quiesces (by decide) hp hbusy hst (.inr h)⟩

/-- Settles O51: each clause is the equation of its operation for the case the clause names. -/
theorem unitsFailAndAreRepaired : Obligations.UnitsFailAndAreRepaired := by
  intro s kind p hk hp
  simp only [exec_unitFence, exec_routerFailure, exec_routeDrainDone, exec_unitCmdFence, exec_quiesceDone, exec_unitCmdRepair,
    exec_repairSelftestDone, exec_unitCmdSwap, exec_swapDone, Host.Outcome.next.injEq]
  refine ⟨?fence, ?router, ?drain, ?commands, ?quiesce, ?unitTest, ?keeperTest, ?portTest, ?swap⟩
  case fence => exact fun m => State.criticalError_in_use
  case router =>
    rintro plane r m att u hnew rfl
    exact ⟨State.routerFailed_reachable hnew, fun k n hatt hother => hatt ▸ State.routerFailed_cut_off hnew hother,
      State.routerFence_unit hk, fun n => State.routerFence_port, fun n => State.routerFence_pair, fun n => State.routerFence_channel⟩
  case drain =>
    rintro plane r u rfl
    exact ⟨State.routeDrained_pending, State.routeDrained_none⟩
  case commands =>
    intro hbusy
    refine ⟨State.cmdFence_dark hk hp hbusy, State.cmdFence_idle hk hp hbusy, fun hkind hst => State.cmdFence_quiesces hk hp hbusy hst (.inl hkind),
      ?slice, State.cmdRepair_dark hk hp hbusy, State.cmdRepair_refused hbusy, fun hst q => State.cmdSwap_begins hk hp hbusy hst,
      State.cmdSwap_no_spare hk hp hbusy, State.cmdSwap_refused hbusy⟩
    rintro u rfl hst hu
    obtain ⟨hempties, hkeeps⟩ := State.cmdFence_slice hp hbusy hst hu
    cases hspare : u.spareFor 0 p with
    | some q => exact hkeeps (.inl (by simp [hspare]))
    | none =>
      cases hrole : u.roleOf 0 p with
      | none => exact hkeeps (.inr hrole)
      | some n => exact hempties n hspare hrole
  case quiesce =>
    rintro n m u hdoing hrole rfl
    exact ⟨fun q => State.quiesceDone_passes hdoing hrole, State.quiesceDone_leaves hdoing hrole, State.quiesceDone_homeless hdoing hrole,
      State.quiesceDone_overdue hdoing hrole⟩
  case unitTest =>
    rintro ok u hst rfl
    exact State.selftestDone_unit hk hp hst
  case keeperTest => exact fun ok k => State.selftestDone_keeper
  case portTest => exact fun ok n => State.selftestDone_port
  case swap =>
    intro n hdoing hrole
    exact ⟨fun q => State.swapDone_passes hdoing hrole, State.swapDone_overdue hdoing hrole⟩
end Sys2Proof.Machine
end

section
/-! PROOFS. Bindings and window geometry (R48, R58-R60): when a write of either is taken, what it leaves, and that an agent's valid binding
entries go on to name different contexts. -/

namespace Sys2Proof.Machine

open Sys2Proof

/-! ### The value a binding entry takes -/

/-- What a write of `v` leaves in a binding entry: the valid bit, the rights and the context. -/
def bindingValue (v : Nat) : Nat := (if v.testBit 31 = true then 2 ^ 31 else 0) + v % 2 ^ 15

theorem bindingValue_testBit (v : Nat) : (bindingValue v).testBit 31 = v.testBit 31 := by
  have hlow : v % 2 ^ 15 < 2 ^ 31 := Nat.lt_trans (Nat.mod_lt _ (by decide)) (by decide)
  unfold bindingValue
  cases v.testBit 31
  · simp only [Bool.false_eq_true, if_false, Nat.zero_add]
    exact Nat.testBit_lt_two_pow hlow
  · simp only [if_true]
    rw [Nat.testBit_two_pow_add_eq, Nat.testBit_lt_two_pow hlow, Bool.not_false]

theorem bindingValue_ctx (v : Nat) : bindingValue v % 1024 = v % 1024 := by
  unfold bindingValue
  split <;> omega

theorem bindingValue_eq (v : Nat) : v / 2 ^ 31 % 2 * 2 ^ 31 + v % 2 ^ 15 = bindingValue v := by
  have hbit : v.testBit 31 = decide (v / 2 ^ 31 % 2 = 1) := Nat.testBit_eq_decide_div_mod_eq
  simp only [bindingValue, hbit, decide_eq_true_eq]
  split <;> omega

/-! ### Writes of a binding entry -/

section Bindings

variable {s : State} {a i v : Nat}

/-- Another valid entry of the agent names the context. -/
def State.boundElsewhere (s : State) (a i c : Nat) : Prop := ∃ j < 8, j ≠ i ∧ (s.binding a j).testBit 31 = true ∧ s.binding a j % 1024 = c

/-- The write clears the entry, or names a context that is not FREE and that no other valid entry names (R58, R59). -/
def State.Bindable (s : State) (a i v : Nat) : Prop :=
  v.testBit 31 = true → (s.ctx (v % 1024)).st ≠ .free ∧ ¬s.boundElsewhere a i (v % 1024)

theorem State.boundElsewhere_iff {c : Nat} : s.boundElsewhere a i c ↔
    (List.range 8).any (fun j => j != i && (s.binding a j).testBit 31 && s.binding a j % 1024 == c) = true := by
  simp only [State.boundElsewhere, List.any_eq_true, List.mem_range, Bool.and_eq_true, bne_iff_ne, beq_iff_eq, and_assoc]

theorem State.writeBinding_of_not_bindable (hv : v.testBit 31 = true) (h : (s.ctx (v % 1024)).st = .free ∨ s.boundElsewhere a i (v % 1024)) :
    s.writeBinding a i v = (false, s) :=
  if_pos ⟨hv, h.imp_right State.boundElsewhere_iff.mp⟩

theorem State.writeBinding_refused (h : ¬s.Bindable a i v) : s.writeBinding a i v = (false, s) := by
  obtain ⟨hv, hbad⟩ := Classical.not_imp.mp h
  refine State.writeBinding_of_not_bindable hv ?_
  by_cases hfree : (s.ctx (v % 1024)).st = .free
  · exact .inl hfree
  · exact .inr (Classical.byContradiction fun hunbound => hbad ⟨hfree, hunbound⟩)

/-- A write that is taken: the agent loses the context the entry named, unless it names that one again (R60). -/
theorem State.writeBinding_of_bindable (h : s.Bindable a i v) :
    s.writeBinding a i v = (true,
      if (s.binding a i).testBit 31 = true ∧ (v.testBit 31 = true → v % 1024 ≠ s.binding a i % 1024)
        then (s.setOv O.binding (bindingValue v) a i).unbind a (s.binding a i % 1024) else s.setOv O.binding (bindingValue v) a i) := by
  have hok : ¬(v.testBit 31 = true ∧ ((s.ctx (v % 1024)).st = .free ∨
      (List.range 8).any (fun j => j != i && (s.binding a j).testBit 31 && s.binding a j % 1024 == v % 1024) = true)) :=
    fun ⟨hv, hbad⟩ => hbad.elim (h hv).1 fun hdup => (h hv).2 (State.boundElsewhere_iff.mpr hdup)
  have hloses : (!(v.testBit 31 && v % 1024 == s.binding a i % 1024)) = true ↔ (v.testBit 31 = true → v % 1024 ≠ s.binding a i % 1024) := by
    cases v.testBit 31 <;> simp
  unfold State.writeBinding
  simp only [if_neg hok, bindingValue_eq, hloses]
  split <;> rfl

theorem State.writeBinding_keeping (h : s.Bindable a i v)
    (hkeep : (s.binding a i).testBit 31 = false ∨ (v.testBit 31 = true ∧ s.binding a i % 1024 = v % 1024)) :
    s.writeBinding a i v = (true, s.setOv O.binding (bindingValue v) a i) := by
  rw [State.writeBinding_of_bindable h, if_neg]
  rintro ⟨hold, hloses⟩
  rcases hkeep with hfree | ⟨hv, hsame⟩
  · exact Bool.false_ne_true (hfree.symm.trans hold)
  · exact hloses hv hsame.symm

theorem State.writeBinding_losing (h : s.Bindable a i v) (hold : (s.binding a i).testBit 31 = true)
    (hloses : v.testBit 31 = true → v % 1024 ≠ s.binding a i % 1024) :
    s.writeBinding a i v = (true, (s.setOv O.binding (bindingValue v) a i).unbind a (s.binding a i % 1024)) := by
  rw [State.writeBinding_of_bindable h, if_pos ⟨hold, hloses⟩]

/-! ### An agent's valid entries name different contexts -/

/-- The agent's valid entries name different contexts. -/
def State.BindingsDistinct (s : State) (a : Nat) : Prop :=
  ∀ j < 8, ∀ k < 8, j ≠ k → (s.binding a j).testBit 31 = true → (s.binding a k).testBit 31 = true → s.binding a j % 1024 ≠ s.binding a k % 1024

theorem State.binding_written (hobj : s.objsOk) (h : s.Bindable a i v) : (s.writeBinding a i v).2.binding a i = bindingValue v := by
  rw [State.writeBinding_of_bindable h]
  dsimp only
  split <;> exact State.ov_setOv_self hobj O.binding _ a i

theorem State.binding_other {j : Nat} (hi : i < 8) (hj : j < 8) (hne : j ≠ i) : (s.writeBinding a i v).2.binding a j = s.binding a j := by
  have hset : (s.setOv O.binding (bindingValue v) a i).binding a j = s.binding a j :=
    State.ov_setOv_ne s (Obj.key_ne_of_item (.inr hne.symm) (by omega) (by omega))
  by_cases h : s.Bindable a i v
  · rw [State.writeBinding_of_bindable h]
    dsimp only
    split <;> exact hset
  · rw [State.writeBinding_refused h]

/-- A valid entry that a write has left names another context than the other valid entries. -/
theorem State.written_ne_other {j : Nat} (hobj : s.objsOk) (h : s.Bindable a i v) (hi : i < 8) (hj : j < 8) (hne : j ≠ i)
    (hvi : ((s.writeBinding a i v).2.binding a i).testBit 31 = true) (hvj : ((s.writeBinding a i v).2.binding a j).testBit 31 = true) :
    (s.writeBinding a i v).2.binding a j % 1024 ≠ (s.writeBinding a i v).2.binding a i % 1024 := by
  rw [State.binding_written hobj h] at hvi ⊢
  rw [State.binding_other hi hj hne] at hvj ⊢
  rw [bindingValue_testBit] at hvi
  rw [bindingValue_ctx]
  exact fun hsame => (h hvi).2 ⟨j, hj, hne, hvj, hsame⟩

theorem State.writeBinding_distinct (hobj : s.objsOk) (hi : i < 8) (hd : s.BindingsDistinct a) : (s.writeBinding a i v).2.BindingsDistinct a := by
  by_cases h : s.Bindable a i v
  case neg =>
    rw [State.writeBinding_refused h]
    exact hd
  case pos =>
    intro j hj k hk hjk hvj hvk
    by_cases hji : j = i
    · subst hji
      exact (State.written_ne_other hobj h hi hk (Ne.symm hjk) hvj hvk).symm
    by_cases hki : k = i
    · subst hki
      exact State.written_ne_other hobj h hi hj hjk hvk hvj
    rw [State.binding_other hi hj hji] at hvj ⊢
    rw [State.binding_other hi hk hki] at hvk ⊢
    exact hd j hj k hk hjk hvj hvk

end Bindings

theorem exec_bindingWrite (s : State) (a i v : Nat) : exec (.bindingWrite a i v) s = .next (s.writeBinding a i v).2 := rfl

/-- Settles O21: a write is refused, keeps the context its entry named, or takes it from the agent; a written entry differs from the others. -/
theorem bindingsAreCheckedAndStayDistinct : Obligations.BindingsAreCheckedAndStayDistinct := by
  rintro s a i v c nv - hi rfl rfl
  rw [← bindingValue, exec_bindingWrite]
  refine ⟨?refused, ?names, ?clears, ?distinct⟩
  case refused =>
    intro hv hbad
    rw [State.writeBinding_of_not_bindable hv hbad]
  case names =>
    intro hv hst hother
    have h : s.Bindable a i v := fun _ => ⟨hst, fun ⟨j, hj, hne, hvj, hsame⟩ => hother j hj hne hvj hsame⟩
    refine ⟨fun hkeep => ?_, fun hold hne => ?_⟩
    · rw [State.writeBinding_keeping h (hkeep.imp_right fun hsame => ⟨hv, hsame⟩)]
    · rw [State.writeBinding_losing h hold fun _ => hne.symm]
  case clears =>
    intro hv
    have h : s.Bindable a i v := fun hv' => absurd (hv.symm.trans hv') Bool.false_ne_true
    refine ⟨fun hold => ?_, fun hold => ?_⟩
    · rw [State.writeBinding_keeping h (.inl hold)]
    · rw [State.writeBinding_losing h hold fun hv' => absurd (hv.symm.trans hv') Bool.false_ne_true]
  case distinct =>
    rintro t hobj ⟨⟩
    exact State.writeBinding_distinct hobj hi

/-! ### Window geometry (R48) -/

section Geometry

variable {s : State} {c which v b n : Nat} (hb : b = if which = 0 then v else s.ov O.win_base c) (hn : n = if which = 0 then s.ov O.win_count c else v)
include hb hn

theorem State.writeGeometry_rejected
    (h : (s.ctx c).st ≠ .configuring ∨ 524288 < b + n ∨ s.winOverlap c b n = true ∨ (which ≠ 0 ∧ v = 0)) :
    s.writeGeometry c which v = (false, s) := by
  subst hb hn
  exact if_pos h

theorem State.writeGeometry_applied (hst : (s.ctx c).st = .configuring) (hend : b + n ≤ 524288) (hover : s.winOverlap c b n = false)
    (hsome : which = 0 ∨ v ≠ 0) : s.writeGeometry c which v = (true, s.setOv (if which = 0 then O.win_base else O.win_count) v c) := by
  have hok : ¬((s.ctx c).st ≠ .configuring ∨ 524288 < b + n ∨ s.winOverlap c b n = true ∨ (which ≠ 0 ∧ v = 0)) := by
    rw [hover]
    rintro (h | h | h | ⟨h1, h2⟩)
    · exact h hst
    · omega
    · exact Bool.false_ne_true h
    · exact hsome.elim h1 fun hv => hv h2
  subst hb hn
  unfold State.writeGeometry
  rw [if_neg hok]
  split <;> rfl

end Geometry

theorem exec_windowGeometryWrite (s : State) (c which v : Nat) :
    exec (.windowGeometryWrite c which v) s = .next (s.writeGeometry c which v).2 := rfl

/-- Settles O20: R48's four cases are the check of the operation. -/
theorem windowGeometryIsChecked : Obligations.WindowGeometryIsChecked := by
  intro s c which v b n hb hn
  rw [exec_windowGeometryWrite]
  refine ⟨fun hst hend hover hsome => ?_, fun hbad => ?_⟩
  · rw [State.writeGeometry_applied hb hn hst hend hover hsome]
  · rw [State.writeGeometry_rejected hb hn hbad]

end Sys2Proof.Machine
end

section
/-! PROOFS. Hints, fences, doorbells and chart fetches (R44, R63, R111, R127, R249, R341): the three requests that need no translation, and the
return of a fetch. -/

namespace Sys2Proof.Machine

open Sys2Proof

/-! ### Admitted requests that need no translation -/

section Proceed

variable {u : State} {r : Req} (hopen : u.stir.fenceHeld r = false)
include hopen

theorem State.proceed_fence (hk : r.kind = .fence) : u.proceed r = u.stir.updReq r.id (fun _ => { r with phase := .fencing }) := by
  simp only [State.proceed, hopen, Bool.false_eq_true, if_false, hk]

theorem State.proceed_dbell (hk : r.kind = .dbell) : u.proceed r = u.stir.dbell r := by
  simp only [State.proceed, hopen, Bool.false_eq_true, if_false, hk]

theorem State.proceed_hint (hk : r.kind = .hint) : u.proceed r = u.stir.hint r := by
  simp only [State.proceed, hopen, Bool.false_eq_true, if_false, hk]

end Proceed

/-- A HINT inside its window whose mapped pages may all be read is recorded and completes OK (R111, R341). -/
theorem State.hint_recorded {s : State} {r : Req} (hwindow : r.h.cva / 2 ^ 26 + (r.h.len - 1) < s.ov O.win_count r.h.ctx)
    (hread : s.hintDenied r = false) :
    s.hint r = (s.hintPages r.h.ctx (r.h.cva / 2 ^ 26) r.h.sub r.h.len).finish r .ok (empty := r.h.len == 0) := by
  have hinside : ¬s.ov O.win_count r.h.ctx ≤ (if r.h.len = 0 then r.h.cva / 2 ^ 26 else r.h.cva / 2 ^ 26 + r.h.len - 1) := by
    split <;> omega
  simp only [State.hint, if_neg hinside, hread, Bool.false_eq_true, if_false]

/-- A doorbell rung within the queue's size on an enabled and running queue is accepted and moves its tail (R249). -/
theorem State.doorbell_accepted {s : State} {c data q tail : Nat} (hq : q = 4 * c + bits data 16 2) (htail : tail = data % 65536)
    (henable : s.ob O.jq_enable q = true) (hruns : s.ov O.jq_state q = 1)
    (hahead : (s.ov O.jq_tail q + 65536 - s.ov O.jq_head q) % 65536 ≤ (tail + 65536 - s.ov O.jq_head q) % 65536)
    (hfits : (tail + 65536 - s.ov O.jq_head q) % 65536 ≤ s.ov O.jq_size q) :
    s.doorbell c data = (true, s.setOv O.jq_tail tail q) := by
  subst hq htail
  exact if_pos ⟨henable, hruns, hahead, hfits⟩

theorem State.dbell_accepted {s t : State} {r : Req} (hmay : r.mask.testBit 3 = true)
    (hbell : s.doorbell r.h.ctx (leNat ((slotBytes r.slots).take 8)) = (true, t)) : s.dbell r = t.finish r .ok := by
  simp only [State.dbell, hmay, hbell, if_true]

/-! ### A chart fetch returns (R44, R63) -/

section Fetch

variable {s s1 s2 s3 s4 : State} {port c vpn eccA eccB i : Nat} {q : Bool × State} {e : Entry}
  (hfetch : s.chart.fetches.contains (port, c, vpn) = true)
  (hs1 : s1 = { s with chart := { s.chart with fetches := s.chart.fetches.erase (port, c, vpn) } })
  (hi : i = s.ov O.win_base c + vpn) (hq : q = s1.readChart i eccA eccB) (hs2 : s2 = q.2) (he : e = s2.entry i)
  (hs3 : s3 = if q.1 = false ∧ e.valid = true ∧ e.typ = 0 then s2.touchPtc ⟨port, c, vpn, e⟩ else s2)
  (hs4 : s4 = s3.serveFetched i q.1 (s3.behindFetch port c vpn))
include hfetch hs1 hi hq hs2 he hs3 hs4

/-- The entry that came is kept where it maps a page, the requests behind the fetch are served, and the port's next fetch starts. -/
theorem State.fetchDone_serves : s.fetchDone port c vpn eccA eccB = match s4.nextFetch port with
    | some (c', v') => ({ s4 with chart := { s4.chart with fetches := s4.chart.fetches ++ [(port, c', v')] } } : State).bump O.ptc_misses 0 port
    | none => s4 := by
  simp only [← Bool.not_eq_true'] at hs3
  subst hs1 hi hq hs2 he hs3 hs4
  exact if_pos hfetch

theorem State.fetchDone_last (hnone : s4.nextFetch port = none) : s.fetchDone port c vpn eccA eccB = s4 := by
  rw [State.fetchDone_serves hfetch hs1 hi hq hs2 he hs3 hs4, hnone]

theorem State.fetchDone_next {c' v' : Nat} (hnext : s4.nextFetch port = some (c', v')) : s.fetchDone port c vpn eccA eccB =
    ({ s4 with chart := { s4.chart with fetches := s4.chart.fetches ++ [(port, c', v')] } } : State).bump O.ptc_misses 0 port := by
  rw [State.fetchDone_serves hfetch hs1 hi hq hs2 he hs3 hs4, hnext]

end Fetch

/-! ### The commands -/

/-- Each HINT command is the arrival of its request. -/
theorem exec_hintRows {port src : Nat} {h : Hdr} {x : Instr × Hdr} (hx : x ∈ hintRows port src h) (s : State) :
    exec x.1 s = .next (s.receive .hint port src x.2 []) := by
  simp only [hintRows, List.mem_cons, List.not_mem_nil, or_false] at hx
  rcases hx with rfl | rfl | rfl <;> rfl

/-- Each fence command is the arrival of its request. -/
theorem exec_fenceRows {port src : Nat} {h : Hdr} {x : Instr × Hdr} (hx : x ∈ fenceRows port src h) (s : State) :
    exec x.1 s = .next (s.receive .fence port src x.2 []) := by
  simp only [fenceRows, List.mem_cons, List.not_mem_nil, or_false] at hx
  rcases hx with rfl | rfl <;> rfl

theorem exec_dbell (s : State) (port src : Nat) (h : Hdr) (slots : List Slot) :
    exec (.dbell port src h slots) s = .next (s.receive .dbell port src h slots) := rfl

theorem exec_ptcFetchDone (s : State) (port c vpn eccA eccB : Nat) :
    exec (.ptcFetchDone port c vpn eccA eccB) s = .next (s.fetchDone port c vpn eccA eccB) := rfl

/-- Settles O13: each request is admitted and goes on by its kind; a fetch that returns is served by its own equation. -/
theorem hintsDoorbellsAndFetches : Obligations.HintsDoorbellsAndFetches := by
  refine ⟨fun s port src h slots m => ⟨?hint, ?fence, ?dbell⟩, ?fetch⟩
  case hint =>
    rintro x hx a rfl A hopen hwindow hread
    rw [exec_hintRows hx, State.receive_adm A, State.proceed_hint hopen rfl, State.hint_recorded hwindow hread]
    rfl
  case fence =>
    rintro x hx a rfl A hopen
    rw [exec_fenceRows hx, State.receive_adm A, State.proceed_fence hopen rfl]
  case dbell =>
    rintro a q tail rfl A hopen hmay hq htail henable hruns hahead hfits
    rw [exec_dbell, State.receive_adm A, State.proceed_dbell hopen rfl,
      State.dbell_accepted hmay (State.doorbell_accepted hq htail henable hruns hahead hfits)]
  case fetch =>
    intro s port c vpn eccA eccB s1 s2 s3 hfetch hs1 q i e hi hq hs2 he hs3 s4 hs4
    rw [exec_ptcFetchDone]
    exact ⟨fun hnone => by rw [State.fetchDone_last hfetch hs1 hi hq hs2 he hs3 hs4 hnone],
      fun c' v' hnext => by rw [State.fetchDone_next hfetch hs1 hi hq hs2 he hs3 hs4 hnext]⟩

end Sys2Proof.Machine
end

section
/-! PROOFS. Staging banks and commits (R66-R79, R537-R539): the commands of a bank, and each turn of a window's first commit. -/

namespace Sys2Proof.Machine

open Sys2Proof

/-! ### The commands of a staging bank (R66-R68, R76, R77) -/

section Banks

variable {s : State} {pf b : Nat} {ws : List DwWrite} (hidle : ((s.stgWrites pf b ws).bank pf b).busy = false)
include hidle

theorem State.stgCmd_readback : s.stgCmd pf b 2 ws = (s.stgWrites pf b ws).readback pf b := by
  simp only [State.stgCmd, hidle, Bool.false_eq_true, if_false]

theorem State.stgCmd_clear : s.stgCmd pf b 3 ws = (s.stgWrites pf b ws).stgClear pf b := by
  simp only [State.stgCmd, hidle, Bool.false_eq_true, if_false]

/-- COMMIT makes the bank busy and puts a commit of its context at the end of the queue. -/
theorem State.stgCmd_commit {u : State}
    (hu : u = (s.stgWrites pf b ws).setBank pf b { (s.stgWrites pf b ws).bank pf b with busy := true, cmd := 1 }) :
    s.stgCmd pf b 1 ws = { u with chart := { u.chart with commits := u.chart.commits ++
      [⟨((s.stgWrites pf b ws).bank pf b).ctx, pf, b, none, [], [], 0, 0, 0, 0, false, 0⟩] } } := by
  subst hu
  simp only [State.stgCmd, hidle, Bool.false_eq_true, if_false]

end Banks

/-! ### The turns of a window's first commit -/

section Turns

variable {s : State} {c : Nat} {k : Commit} (hhead : s.headCommit c = some k)
include hhead

/-- The first check that fails rejects the commit (R71). -/
theorem State.commitTurn_rejects {r slot : Nat} (hdriver : k.internal = none) (hph : k.ph = 0)
    (hfail : s.commitFail k.port (s.bank k.port k.bank) = some (r, slot)) : s.commitTurn c = s.rejectCommit k r slot := by
  simp only [State.commitTurn, hhead, hdriver, hph, hfail, Option.isSome_none, Bool.false_eq_true, ne_eq, not_true_eq_false, or_self, if_false]

/-- With every check passed and no remapping entry, the commit's writes are ready (R68). -/
theorem State.commitTurn_readies (hdriver : k.internal = none) (hph : k.ph = 0) (hpass : s.commitFail k.port (s.bank k.port k.bank) = none)
    (hremap : (s.bank k.port k.bank).all.filter (s.remapping c) = []) :
    s.commitTurn c = s.setCommits (updCommit c (fun _ => { k with ph := 1, writes := (s.bank k.port k.bank).all, remap := [] }) s.chart.commits) := by
  simp only [State.commitTurn, hhead, hdriver, hph, hpass, hremap, List.map_nil, Option.isSome_none, Bool.false_eq_true, ne_eq, not_true_eq_false,
    or_self, if_false, if_true]

/-- A commit that is ready, its recalls ended, applies while fewer than four apply points wait (R73, R537, R539). -/
theorem State.applyPoint_applies (hdriver : k.internal = none) (hready : k.ph = 1 ∨ (k.ph = 2 ∧ k.walk = 2 ^ 32 - 1)) (hroom : s.openEpochs < 4) :
    s.applyPoint c = (s.applyCommit k k.writes).bump O.commits_ok c := by
  simp only [State.applyPoint, hhead, hdriver, Option.isSome_none, Bool.false_eq_true, if_false]
  exact if_pos ⟨hready, hroom⟩

/-- An applied driver commit whose withdrawal has ended clears its bank with OK (R75). -/
theorem State.drainDone_ends (hdriver : k.internal = none) (hph : k.ph = 3) (hdrained : s.drained k = true) :
    s.drainDone c = (if k.bumped then s.setOv O.shootdown_last (ticksUs (s.ltc - k.since) % 2 ^ 32) else s).endCommit k 0 0 := by
  simp only [State.drainDone, hhead, hph, hdrained, hdriver, Option.isNone_none, and_self, if_true]

/-! ### Internal commits (R78) -/

section Internal

variable {i : IcKind} (hint : k.internal = some i) (hfirst : s.earlierWindow k = false)
include hint hfirst

/-- With nothing left to write the internal commit vanishes. -/
theorem State.internalCommit_vanishes (hph : k.ph = 0) (hnone : s.internalWrites k = []) :
    s.internalCommit c = s.setCommits (dropCommit c s.chart.commits) := by
  simp [State.internalCommit, hhead, hint, hfirst, hph, hnone]

/-- An internal commit that is not to recall lines first, or has, applies and leaves its record. -/
theorem State.internalCommit_applies {ws : List (Nat × Entry)} {u : State}
    (hturn : (k.ph = 2 ∧ k.walk = 2 ^ 32 - 1) ∨ (k.ph < 2 ∧ (k.ph = 0 → s.internalWrites k ≠ []) ∧ ∀ x y z, i ≠ .publish x y z))
    (hroom : s.openEpochs < 4) (hisland : s.islandQueue < 8192) (hws : ws = s.internalWrites k)
    (hu : u = (s.applyCommit k ws).bump O.commits_ok c) :
    s.internalCommit c = (u.noteNamer c i).queueRec (changedRec c (u.ov O.win_gen c) (ws.map (·.1)) i.aux) := by
  subst hws hu
  have hearly : ¬3 ≤ k.ph := by omega
  have hwrites : ¬(k.ph = 0 ∧ s.internalWrites k = []) := by
    rintro ⟨hph, hnone⟩
    rcases hturn with ⟨hwalk, -⟩ | ⟨-, hsome, -⟩
    · omega
    · exact hsome hph hnone
  have hwalked : ¬((k.ph = 2 ∧ k.walk ≠ 2 ^ 32 - 1) ∨ 4 ≤ s.openEpochs ∨ 8192 ≤ s.islandQueue) := by omega
  unfold State.internalCommit
  rw [hhead]
  dsimp only
  rw [hint, hfirst, if_neg (by simp [hearly]), if_neg hwrites, if_neg ?recalled, if_neg hwalked]
  case recalled =>
    rintro ⟨hph, hrecall⟩
    rcases hturn with ⟨hwalk, -⟩ | ⟨-, -, hkind⟩
    · omega
    · cases i with
      | publish x y z => exact hkind x y z rfl
      | _ => exact hrecall rfl

end Internal

end Turns

/-! ### The commands -/

theorem exec_stgCommit (s : State) (pf b cmd : Nat) (ws : List DwWrite) : exec (.stgCommit pf b cmd ws) s = .next (s.wake.stgCmd pf b cmd ws) := rfl

theorem exec_stgReadback (s : State) (pf b : Nat) (ws : List DwWrite) : exec (.stgReadback pf b ws) s = .next (s.wake.stgCmd pf b 2 ws) := rfl

theorem exec_stgClear (s : State) (pf b : Nat) (ws : List DwWrite) : exec (.stgClear pf b ws) s = .next (s.wake.stgCmd pf b 3 ws) := rfl

theorem exec_commitTurn (s : State) (c : Nat) : exec (.commitTurn c) s = .next (s.commitTurn c) := rfl

theorem exec_applyPoint (s : State) (c : Nat) : exec (.applyPoint c) s = .next ((s.applyPoint c).unparkStrips c) := rfl

theorem exec_internalCommit (s : State) (c : Nat) : exec (.internalCommit c) s = .next ((s.internalCommit c).unparkStrips c) := rfl

theorem exec_shootdownDrainDone (s : State) (c : Nat) : exec (.shootdownDrainDone c) s = .next (s.drainDone c) := rfl

/-- Settles O19: each clause is the equation of its operation for the case the clause names. -/
theorem stagingBanksAndCommits : Obligations.StagingBanksAndCommits := by
  refine ⟨?banks, fun s c k hhead => ?turns⟩
  case banks =>
    rintro s pf b ws u k rfl rfl hidle
    rw [exec_stgCommit, exec_stgReadback, exec_stgClear, State.stgCmd_commit hidle rfl, State.stgCmd_readback hidle, State.stgCmd_clear hidle]
    exact ⟨rfl, rfl, rfl⟩
  simp only [exec_commitTurn, exec_applyPoint, exec_internalCommit, exec_shootdownDrainDone, Host.Outcome.next.injEq]
  refine ⟨?turn, ?apply, ?internal, ?vanish, ?drain⟩
  case turn =>
    exact fun hdriver hph => ⟨fun r i => State.commitTurn_rejects hhead hdriver hph, State.commitTurn_readies hhead hdriver hph⟩
  case apply =>
    intro hdriver hready hroom
    rw [State.applyPoint_applies hhead hdriver hready hroom]
  case internal =>
    intro i ws u hint hturn hfirst hroom hisland hws hu
    rw [State.internalCommit_applies hhead hint hfirst hturn hroom hisland hws hu]
  case vanish =>
    intro i hint hph hfirst hnone
    rw [State.internalCommit_vanishes hhead hint hfirst hph hnone]
  case drain => exact State.drainDone_ends hhead

end Sys2Proof.Machine
end

section
/-! PROOFS. Extent commands and the peer exchange (R82-R93): what each command of a live MOORED extent leaves, what a MOOR of frames that are
there leaves, and the answers to a PROBE. -/

namespace Sys2Proof.Machine

open Sys2Proof

/-! ### The extent commands, each written while no other runs -/

section Extents

variable {s : State}

/-- A MOOR that asks for no peer, of a form R83 allows, by a context that may own extents, takes the planned frames (R83-R85). -/
theorem State.moor_accepts {slot : Nat} {prim mir : List Nat} (hsome : 1 ≤ s.ov O.ext_count) (hmost : s.ov O.ext_count ≤ 16384)
    (hplace : bits (s.ov O.ext_place) 1 3 = 0) (hplace' : bits (s.ov O.ext_place) 6 1 = 0) (hmirror : s.ov O.ext_mirror < 2)
    (hctx : s.canMoor (s.ov O.ext_ctx) = true) (hslot : s.freeSlot = some slot) (hplan : s.moorPlan = some (prim, mir)) :
    s.moor = s.moorAccept slot prim mir none := by
  have hform : ¬(s.ov O.ext_count = 0 ∨ 16384 < s.ov O.ext_count ∨ bits (s.ov O.ext_place) 1 3 ≠ 0 ∨ bits (s.ov O.ext_place) 6 1 ≠ 0 ∨
      2 < s.ov O.ext_mirror) := by omega
  have hpeer : s.ov O.ext_mirror ≠ 2 := by omega
  simp only [State.moor, if_neg hform, hctx, Bool.not_true, Bool.false_eq_true, if_false, hslot, hplan, hpeer]

section Live

variable {x : Ext} (hlive : s.liveExt (s.ov O.ext_handle) = some x) (hmoored : x.st = .moored)
include hlive hmoored

theorem State.revoke_begins : s.revoke = ({ s with chart := { s.chart with extBusy := true } } : State).beginRevoke (s.ov O.ext_handle % 65536)
    { x with cmd := true, remoor := s.ob O.ext_remoor, target := s.ov O.ext_ctx } := by
  simp only [State.revoke, hlive, hmoored, ne_eq, not_true_eq_false, if_false]

/-- A context that may share the extent, is neither its owner nor a sharer yet, and finds a place, is added with its cap (R88). -/
theorem State.share_adds (hcap : s.ov O.ext_cap < 32) (howner : x.owner ≠ s.ov O.ext_ctx)
    (hnew : x.sharers.any (fun p => p.1 == s.ov O.ext_ctx) = false) (hctx : s.canMoor (s.ov O.ext_ctx) = true) (hroom : x.sharers.length < 8) :
    s.share = (s.setExt (s.ov O.ext_handle % 65536) { x with sharers := x.sharers ++ [(s.ov O.ext_ctx, s.ov O.ext_cap)] }).extDone 0 := by
  simp only [State.share, hlive, hmoored, ne_eq, not_true_eq_false, if_false, Nat.not_le.mpr hcap, howner, hnew, Bool.false_eq_true, or_self, hctx,
    Bool.not_true, Nat.not_le.mpr hroom]

theorem State.unshare_drops (hsharer : x.sharers.any (fun p => p.1 == s.ov O.ext_ctx) = true) :
    s.unshare = ({ s with chart := { s.chart with extBusy := true } } : State).dropSharerOf (s.ov O.ext_handle % 65536) (s.ov O.ext_ctx) true := by
  simp only [State.unshare, hlive, hmoored, ne_eq, not_true_eq_false, if_false, hsharer, Bool.not_true, Bool.false_eq_true]

theorem State.grantRevoke_voids :
    s.grantRevoke = (s.setExt (s.ov O.ext_handle % 65536) { x with epoch := (x.epoch + 1) % 65536 }).extDone 0 := by
  simp only [State.grantRevoke, hlive, hmoored, if_true]

end Live

theorem State.grantIssue_issues {x : Ext} {b : Nat} (hlive : s.liveExt (s.ov O.grant_handle) = some x) (hmoored : x.st = .moored)
    (hnode : s.ov O.node_number ≠ 0xFFF)
    (hb : b = grantBody (s.ov O.node_number) (s.ov O.grant_node) (s.ov O.grant_handle) (s.ov O.grant_rights) x.epoch) :
    s.grantIssue = (true, s.setOct O.grant_out (natLe 16 (b * 2 ^ 64 + s.grantTag b))) := by
  subst hb
  simp only [State.grantIssue, hlive, hmoored, hnode, ne_eq, not_true_eq_false, or_self, if_false]

/-! ### The peer exchange (R87, R91, R314) -/

theorem State.blkProbe_honoured {port slot : Nat} {b : Blk} (h : s.honoured b.grant b.src b.handle 2 = some slot) :
    s.blkProbe port b = s.blkAnswer port b 7 0 [⟨fitTo 32 (natLe 4 (s.ext slot).frames.length), false⟩] := by
  simp only [State.blkProbe, h]

theorem State.blkProbe_refused {port : Nat} {b : Blk} (h : s.honoured b.grant b.src b.handle 2 = none) :
    s.blkProbe port b = s.blkAnswer port b 7 1 [⟨zeros 32, false⟩] := by
  simp only [State.blkProbe, h]

end Extents

/-! ### The commands -/

/-- With no other command running, each value of `ext_op` runs its command. -/
theorem State.extOp_runs {s : State} (hfree : s.chart.extBusy = false) : s.extOp 1 = (true, s.moor) ∧ s.extOp 2 = (true, s.revoke) ∧
    s.extOp 3 = (true, s.share) ∧ s.extOp 4 = (true, s.unshare) ∧ s.extOp 5 = (true, s.grantRevoke) := by
  simp only [State.extOp, hfree, Bool.false_eq_true, if_false, and_self]

theorem exec_moor (s : State) : exec .moor s = .next (s.extOp 1).2 := rfl

theorem exec_revoke (s : State) : exec .revoke s = .next (s.extOp 2).2 := rfl

theorem exec_share (s : State) : exec .share s = .next (s.extOp 3).2 := rfl

theorem exec_unshare (s : State) : exec .unshare s = .next (s.extOp 4).2 := rfl

theorem exec_grantRevoke (s : State) : exec .grantRevoke s = .next (s.extOp 5).2 := rfl

theorem exec_grantIssue (s : State) : exec .grantIssue s = .next s.grantIssue.2 := rfl

theorem exec_probe (s : State) (port : Nat) (b : Blk) : exec (.probe port b) s = .next (s.blkProbe port { b with bop := 6 }) := rfl

theorem exec_probeAns (s : State) (port : Nat) (b : Blk) :
    exec (.probeAns port b) s = .next (s.probeAnswer b.xid b.status (leNat ((b.slots.headD ⟨zeros 32, false⟩).bytes.take 4))) := rfl

/-- Settles O22: each clause is the equation of its command for the extent or the frames the clause names. -/
theorem extentCommandsComplete : Obligations.ExtentCommandsComplete := by
  intro s hfree
  obtain ⟨hmoor, hrevoke, hshare, hunshare, hvoid⟩ := State.extOp_runs hfree
  rw [exec_moor, hmoor, exec_revoke, hrevoke, exec_share, hshare, exec_unshare, hunshare, exec_grantRevoke, hvoid]
  refine ⟨?moor, ?live, ?grant, fun port b => ?probe⟩
  case moor =>
    intro slot prim mir hsome hmost hplace hplace' hmirror hctx hslot hplan
    rw [State.moor_accepts hsome hmost hplace hplace' hmirror hctx hslot hplan]
  case live =>
    rintro h c x rfl rfl hlive hmoored
    refine ⟨?_, fun hcap howner hnew hctx hroom => ?_, fun hsharer => ?_, ?_⟩
    · rw [State.revoke_begins hlive hmoored]
    · rw [State.share_adds hlive hmoored hcap howner hnew hctx hroom]
    · rw [State.unshare_drops hlive hmoored hsharer]
    · rw [State.grantRevoke_voids hlive hmoored]
  case grant =>
    intro x b hlive hmoored hnode hb
    rw [exec_grantIssue, State.grantIssue_issues hlive hmoored hnode hb]
  case probe =>
    rw [exec_probe]
    refine ⟨fun slot hgrant => ?_, fun hgrant => ?_, exec_probeAns s port b⟩
    · exact congrArg Host.Outcome.next (State.blkProbe_honoured hgrant)
    · exact congrArg Host.Outcome.next (State.blkProbe_refused hgrant)

end Sys2Proof.Machine
end

section
/-! PROOFS. BLK exchanges (R91, R312-R316, R422): messages of other nodes as they arrive, their service by an engine, the answers to this node's
own exchanges, and chunks asked for again, timed out or resynchronised. -/

namespace Sys2Proof.Machine

open Sys2Proof

/-! ### PUTs and GETs of other nodes arrive (R312, R314) -/

section Arriving

variable {s : State} {port : Nat} {b : Blk}

section Put

variable {old : Option Served} {parts : List (Nat × List Slot)} {bad : Nat} {x : Served}
  (hold : old = s.tends.served.find? (fun x => x.b.src == b.src && x.b.xid == b.xid && x.b.bop == 1 && !x.ready))
  (hparts : parts = ((old.map (·.parts)).getD []).filter (fun p => p.1 != b.part) ++ [(b.part, b.slots)])
  (hbad : bad = if (old.map (·.bad)).getD 0 = 0 then (s.blkCheck b 1).1 else (old.map (·.bad)).getD 0)
  (hx : x = ⟨{ b with slots := [] }, port, parts, bad, false⟩)
include hold hparts hbad hx

/-- A part of a PUT: kept while parts are missing; the whole is answered with its first refusal or waits for an engine. -/
theorem State.blkPut_part : s.blkPut port b =
    if parts.length < ceilDiv b.lines 2 then s.keepServed x
    else if bad ≠ 0 then (s.dropServed x).blkAnswer port b 5 bad [] else s.keepServed { x with ready := true } := by
  rw [← ite_not] at hbad
  subst hold hparts hbad hx
  rfl

theorem State.blkPut_incomplete (hmore : parts.length < ceilDiv b.lines 2) : s.blkPut port b = s.keepServed x := by
  rw [State.blkPut_part hold hparts hbad hx, if_pos hmore]

theorem State.blkPut_refuses (hall : ceilDiv b.lines 2 ≤ parts.length) (hne : bad ≠ 0) :
    s.blkPut port b = (s.dropServed x).blkAnswer port b 5 bad [] := by
  rw [State.blkPut_part hold hparts hbad hx, if_neg (Nat.not_lt.mpr hall), if_pos hne]

theorem State.blkPut_waits (hall : ceilDiv b.lines 2 ≤ parts.length) (hgood : bad = 0) : s.blkPut port b = s.keepServed { x with ready := true } := by
  rw [State.blkPut_part hold hparts hbad hx, if_neg (Nat.not_lt.mpr hall), if_neg (not_not_intro hgood)]

end Put

theorem State.blkGet_waits (hgood : (s.blkCheck b 0).1 = 0) : s.blkGet port b = s.keepServed ⟨{ b with slots := [] }, port, [], 0, true⟩ :=
  if_neg (not_not_intro hgood)

theorem State.blkGet_refuses (hbad : (s.blkCheck b 0).1 ≠ 0) : s.blkGet port b = s.blkAnswer port b 5 (s.blkCheck b 0).1 [] := if_pos hbad

end Arriving

/-! ### An engine serves a whole chunk of another node (R91, R312, R422) -/

section Serving

variable {s : State} {x : Served} {slot : Nat}

theorem State.serveChunk_put (hbop : x.b.bop = 1) (hcheck : s.blkCheck x.b 1 = (0, slot)) (hclear : s.clear [] (s.servedLines slot x.b) = true) :
    s.serveChunk x = (true, ((s.dropServed x).landLines 0 (((s.servedLines slot x.b).map (·.line)).zip (partVals x.parts x.b.lines))).blkAnswer
      x.port x.b 5 0 []) := by
  simp only [State.serveChunk, hbop, hcheck, hclear, if_true, ne_eq, not_true_eq_false, if_false]

theorem State.serveChunk_get {r : List Slot × List LineVal × State} (hbop : x.b.bop = 2) (hcheck : s.blkCheck x.b 0 = (0, slot))
    (hshaper : s.shaperHas (s.ext slot).owner = true) (hclear : s.clear (s.servedLines slot x.b) [] = true)
    (hr : r = ((s.dropServed x).shaperTake (s.ext slot).owner (1, x.b.src, x.b.xid)).readLines (s.servedLines slot x.b)) :
    s.serveChunk x = (true, r.2.2.sendParts x.port (answer r.2.2 x.b 3 0 []) (partsOf r.1)) := by
  subst hr
  simp [State.serveChunk, hbop, hcheck, hshaper, hclear]

/-- With no resync of the context its round robin serves, an engine serves the context's first whole chunk and is charged for it (R293). -/
theorem State.ownChunk_serves {w : State} {te c : Nat} {d : Drr} (hpick : s.pickCtx te = some (c, d))
    (hresync : s.resyncers.find? (fun r => (s.ext r.slot).owner == c) = none)
    (hserve : s.servers.find? (fun x => (s.ext (x.b.handle % 65536)).owner == c) = some x) (hw : s.serveChunk x = (true, w)) :
    s.ownChunk te = (w.charge te d).bump O.te_chunks 0 te := by
  simp only [State.ownChunk, hpick, hresync, hserve, hw, if_true]

/-- An engine with no operation of that number moves a chunk of the node's own work, after the mirror writes that wait. -/
theorem State.chunkDone_own {te id k : Nat} {m : Met} (hop : s.op? id = none) :
    s.chunkDone te id k m = (s.meet m.errs).serveMwrs.ownChunk te := by
  simp only [State.chunkDone, hop]

end Serving

/-! ### A mirror write arrives (R314, R315) -/

/-- The value that a message of one part brings for its line. -/
theorem partVals_single (slots : List Slot) : partVals [(0, slots)] 1 = [blkVal (slots.take 4)] := by
  simp [partVals, List.range_succ]

theorem State.mwr_lands {s u : State} {port slot l : Nat} {b c : Blk} {m : Met} (hu : u = s.meet m.errs) (hc : c = { b with slots := [] })
    (hcheck : u.blkCheck c 2 = (0, slot)) (hl : l = u.extLine slot b.off) (hclear : u.clear [] [ownWant l] = true) :
    s.mwr port b m = ((u.dropServed ⟨c, port, [(0, b.slots)], 0, true⟩).landLines 0 [(l, blkVal (b.slots.take 4))]).blkAnswer port c 5 0 [] := by
  have hlines : u.servedLines slot { c with lines := 1 } = [ownWant l] := by
    subst hc hl
    rfl
  subst hu hc
  unfold State.mwr State.serveMwr
  dsimp only
  rw [hcheck]
  dsimp only
  rw [hlines, hclear, partVals_single]
  rfl

/-! ### Answers to this node's exchanges (R312, R314, R316) -/

theorem State.blkAns_exchange {s : State} {b : Blk} {o : Tend} {r : Remote} (h : s.exchange b.xid = some (o, r)) :
    s.blkAns b = if b.status = 0 then s.dropRemote o.id r.xid else s.failOp o.id 7 := by
  simp only [State.blkAns, h]

theorem State.blkAns_mirror {s : State} {b : Blk} {w : MwrOut} (h : s.exchange b.xid = none) (hw : s.mwrs.find? (fun w => w.xid == b.xid) = some w) :
    s.blkAns b = if b.status = 0 then ({ s with mwrs := s.mwrs.filter (fun y => y.xid != b.xid) } : State).resyncEnd w.slot
      else s.degrade w.slot := by
  simp only [State.blkAns, h, hw]

theorem State.withLines_clear {s : State} {o : Tend} {reads writes : List Want} {go : State → State} (h : s.LinesClear o.ctx reads writes) :
    s.withLines o reads writes go = go s := by
  obtain ⟨hopen, hclear⟩ := h
  simp only [State.withLines, hopen, hclear, Bool.false_eq_true, if_false, if_true]

section GetData

variable {s u v : State} {b : Blk} {m : Met} {o : Tend} {r : Remote} {parts : List (Nat × List Slot)} {n : Nat}
  (hu : u = s.meet m.errs) (hex : u.exchange b.xid = some (o, r)) (hparts : parts = r.parts.filter (fun p => p.1 != b.part) ++ [(b.part, b.slots)])
  (hn : n = (chunkSpan o.lead o.count r.chunk).2 / 128)
  (hv : v = u.updOp o.id (fun y => { y with remote := y.remote.map (fun q => if q.xid = r.xid then { q with parts := parts } else q) }))
include hu hex hparts hn hv

theorem State.getData_incomplete (hmore : parts.length < ceilDiv n 2) : s.getData b m = v := by
  subst hu hparts hn hv
  unfold State.getData
  dsimp only
  rw [hex]
  exact if_pos (.inl hmore)

/-- The last part of a chunk whose pages translate and whose lines can be written ends its exchange. -/
theorem State.getData_lands {w : State} {te : Nat} {trs : List (Nat × Entry)} {rs : List (Nat × Nat × Nat)} {ws : List Want} (hawake : o.asleep = none)
    (hall : ceilDiv n 2 ≤ parts.length) (hrs : rs = o.chunkRanges r.chunk) (hte : te = ((o.running.find? (fun x => x.1 == r.chunk)).map (·.2)).getD 0)
    (hpages : v.chunkPages o te (needPages rs) [] = (some trs, w)) (hws : ws = chunkWants trs o.ctx rs 2) (hclear : w.LinesClear o.ctx [] ws) :
    s.getData b m = (w.landLines o.id ((ws.map (·.line)).zip (partVals parts n))).dropRemote o.id r.xid := by
  have hwhole : ¬(parts.length < ceilDiv n 2 ∨ o.asleep.isSome = true) := by
    rw [hawake]
    exact not_or.mpr ⟨Nat.not_lt.mpr hall, Bool.false_ne_true⟩
  subst hu hparts hn hv hrs hte hws
  unfold State.getData
  dsimp only
  rw [hex]
  dsimp only
  rw [if_neg hwhole, hpages]
  exact State.withLines_clear hclear

end GetData

/-! ### Chunks asked for again, time-outs and resyncs (R312, R316) -/

theorem State.resend_get {s u : State} {xid p : Nat} {m : Met} {o : Tend} {r : Remote} (hex : (s.meet m.errs).exchange xid = some (o, r))
    (hawake : o.asleep = none) (hget : o.opc = 4)
    (hu : u = (s.meet m.errs).updOp o.id (fun y => { y with remote := y.remote.map (fun q =>
      if q.xid = xid then { q with last := (s.meet m.errs).ltc } else q) }))
    (hport : u.blkPort r.chunk = some p) :
    s.resend xid m = u.send p { chan := 3, hdr := blkPack (u.chunkHdr o r.chunk xid 2), slots := [] } := by
  subst hu
  simp only [State.resend, hex, hawake, hget, State.sendGet, hport, Option.isSome_none, Bool.false_eq_true, if_false, if_true]

theorem State.remoteTimeout_exchange {s : State} {xid : Nat} {o : Tend} {r : Remote} (h : s.exchange xid = some (o, r)) :
    s.remoteTimeout xid = s.failOp o.id 8 := by
  simp only [State.remoteTimeout, h]

theorem State.remoteTimeout_mirror {s : State} {xid : Nat} {w : MwrOut} (h : s.exchange xid = none)
    (hw : s.mwrs.find? (fun w => w.xid == xid) = some w) : s.remoteTimeout xid = s.degrade w.slot := by
  simp only [State.remoteTimeout, h, hw]

theorem State.startResync_degraded {s : State} {h : Nat} {x : Ext} {p : Peer} (hlive : s.liveExt h = some x) (hpeer : x.peer = some p)
    (hst : p.state = 2) (hnode : s.ov O.node_number ≠ 0xFFF) :
    s.startResync h = (true, { s.setExt (h % 65536) { x with peer := some { p with state := 3 } } with
      tends := { s.tends with resyncs := s.tends.resyncs ++ [⟨h % 65536, 0⟩] } }) := by
  simp only [State.startResync, hlive, hpeer, hst, hnode, ne_eq, not_true_eq_false, or_self, if_false]

/-! ### The commands -/

theorem exec_blkPut (s : State) (port : Nat) (b : Blk) (m : Met) :
    exec (.blkPut port b m) s = .next ((s.meet m.errs).blkPut port { b with bop := 1 }) := rfl

theorem exec_blkGet (s : State) (port : Nat) (b : Blk) (m : Met) :
    exec (.blkGet port b m) s = .next ((s.meet m.errs).blkGet port { b with bop := 2 }) := rfl

theorem exec_blkGetData (s : State) (port : Nat) (b : Blk) (m : Met) :
    exec (.blkGetData port b m) s = .next (s.getData { b with bop := 3 } m) := rfl

theorem exec_blkMwr (s : State) (port : Nat) (b : Blk) (m : Met) : exec (.blkMwr port b m) s = .next (s.mwr port { b with bop := 4 } m) := rfl

theorem exec_blkAns (s : State) (port : Nat) (b : Blk) : exec (.blkAns port b) s = .next (s.blkAns { b with bop := 5 }) := rfl

theorem exec_tenderChunkDone (s : State) (te id k : Nat) (m : Met) : exec (.tenderChunkDone te id k m) s = .next (s.chunkDone te id k m) := rfl

theorem exec_remoteChunkResend (s : State) (xid : Nat) (m : Met) : exec (.remoteChunkResend xid m) s = .next (s.resend xid m) := rfl

theorem exec_remoteTimeout (s : State) (xid : Nat) : exec (.remoteTimeout xid) s = .next (s.remoteTimeout xid) := rfl

theorem exec_pmResync (s : State) (h : Nat) : exec (.pmResync h) s = .next (s.startResync h).2 := rfl

/-- Settles O32: each clause is the equation of its operation for the message, chunk or mirror the clause names. -/
theorem blkExchangesComplete : Obligations.BlkExchangesComplete := by
  refine ⟨fun s u port b m slot hu => ⟨?put, ?get, ?serve, ?mirror, ?answer, ?mirrorAnswer, ?data⟩, fun s => ⟨?resend, ?timeout, ?mirrorTimeout, ?resync⟩⟩
  case put =>
    rintro old parts bad x c rfl hold hparts hbad hx
    rw [exec_blkPut, ← hu]
    refine ⟨fun hmore => ?_, fun hall hne => ?_, fun hall hgood => ?_⟩
    · exact congrArg _ (State.blkPut_incomplete (b := { b with bop := 1 }) hold hparts hbad hx hmore)
    · exact congrArg _ (State.blkPut_refuses (b := { b with bop := 1 }) hold hparts hbad hx hall hne)
    · exact congrArg _ (State.blkPut_waits (b := { b with bop := 1 }) hold hparts hbad hx hall hgood)
  case get =>
    rintro c rfl
    rw [exec_blkGet, ← hu]
    refine ⟨fun hgood => ?_, fun hbad => ?_⟩
    · rw [State.blkGet_waits hgood]
    · rw [State.blkGet_refuses hbad]
  case serve =>
    rintro te id k c d x ls v w hop hv hpick hresync hserve rfl
    rw [exec_tenderChunkDone, State.chunkDone_own hop, ← hu, ← hv]
    refine ⟨fun hbop hcheck hclear hw => ?_, fun r hbop hcheck hshaper hclear hr hw => ?_⟩
    · rw [State.ownChunk_serves hpick hresync hserve (hw ▸ State.serveChunk_put hbop hcheck hclear)]
    · rw [State.ownChunk_serves hpick hresync hserve (hw ▸ State.serveChunk_get hbop hcheck hshaper hclear hr)]
  case mirror =>
    rintro c l x hc hcheck hl hclear rfl
    rw [exec_blkMwr, List.append_nil]
    exact congrArg _ (State.mwr_lands (b := { b with bop := 4 }) hu hc hcheck hl hclear)
  case answer =>
    intro o r hex
    rw [exec_blkAns]
    exact congrArg _ (State.blkAns_exchange (b := { b with bop := 5 }) hex)
  case mirrorAnswer =>
    intro w hex hw
    rw [exec_blkAns]
    exact congrArg _ (State.blkAns_mirror (b := { b with bop := 5 }) hex hw)
  case data =>
    intro o r parts rs n v hex hparts hawake hrs hn hv
    rw [exec_blkGetData]
    refine ⟨fun hmore => ?_, fun te trs w ws hall hte hpages hws hclear => ?_⟩
    · exact congrArg _ (State.getData_incomplete (b := { b with bop := 3 }) hu hex hparts hn hv hmore)
    · exact congrArg _ (State.getData_lands (b := { b with bop := 3 }) hu hex hparts hn hv hawake hall hrs hte hpages hws hclear)
  case resend =>
    intro xid m o r p u hex hawake hget hu hport
    rw [exec_remoteChunkResend, State.resend_get hex hawake hget hu hport]
  case timeout =>
    intro xid o r hex
    rw [exec_remoteTimeout, State.remoteTimeout_exchange hex]
  case mirrorTimeout =>
    intro xid w hex hw
    rw [exec_remoteTimeout, State.remoteTimeout_mirror hex hw]
  case resync =>
    intro h x p hlive hpeer hst hnode
    rw [exec_pmResync, State.startResync_degraded hlive hpeer hst hnode]

end Sys2Proof.Machine
end

section
/-! PROOFS. Fences (R127-R129): when one may close, what its closing does, and that a command that closes one found what it covers completed
or serialised. -/

namespace Sys2Proof.Machine

open Sys2Proof

/-- A fence may close exactly when every request it covers has completed or, for an ordering fence, has been serialised (R127). -/
theorem State.fenceReady_iff {s : State} {f : Req} : s.fenceReady f = true ↔
    ∀ q ∈ s.reqs, q.port = f.port → q.h.agt = f.h.agt → q.h.ctx = f.h.ctx → q.id < f.id → q.phase = .done ∨ (f.h.sub = 1 ∧ q.ser = true) := by
  simp only [State.fenceReady, Bool.not_eq_true', List.any_eq_false]
  refine forall₂_congr fun q _ => ?_
  simp only [Bool.and_eq_true, beq_iff_eq, bne_iff_ne, decide_eq_true_eq, Bool.not_eq_true', ← Bool.not_eq_true, not_and, and_imp,
    Classical.not_imp, Classical.not_not, Classical.or_iff_not_imp_left, ne_eq]

section Closing
variable {s : State} {port agt tag : Nat}

/-- A fence that may close completes OK and lets go on, in admission order, what waits behind it. -/
theorem State.closeFence_ready {f : Req}
    (hfence : s.reqs.find? (fun q => q.port == port && q.h.agt == agt && q.h.tag == tag && q.kind == .fence && q.phase == .fencing) = some f)
    (hready : s.fenceReady f = true) :
    s.closeFence port agt tag = (s.finish f .ok).releaseFenced ((s.finish f .ok).reqs.filter (fun q =>
      q.phase == .fenced && q.port == port && q.h.agt == agt && q.h.ctx == f.h.ctx)) := by
  simp only [State.closeFence, hfence, hready, if_true]

/-- A command that closes a fence found an open one of its port, agent and tag that may close. -/
theorem State.closeFence_closes (hcloses : s.closeFence port agt tag ≠ s) :
    ∃ f ∈ s.reqs, (f.port = port ∧ f.h.agt = agt ∧ f.h.tag = tag ∧ f.kind = .fence) ∧ s.fenceReady f = true := by
  unfold State.closeFence at hcloses
  split at hcloses
  · exact absurd rfl hcloses
  next f hfence =>
    have hf := List.find?_some hfence
    simp only [Bool.and_eq_true, beq_iff_eq, and_assoc] at hf
    obtain ⟨hport, hagt, htag, hkind, -⟩ := hf
    split at hcloses
    next hready => exact ⟨f, List.mem_of_find?_eq_some hfence, ⟨hport, hagt, htag, hkind⟩, hready⟩
    · exact absurd rfl hcloses

end Closing

theorem exec_fenceClose (s : State) (port agt tag : Nat) : exec (.fenceClose port agt tag) s = .next (s.closeFence port agt tag) := rfl

/-- Settles O12: the closing of a fence is `closeFence`, which acts on a fence that may close and on no other. -/
theorem fencesWaitForWhatTheyCover : Obligations.FencesWaitForWhatTheyCover := by
  refine fun s port agt tag => ⟨fun f hfence hready => ?closes, ?waits⟩
  case closes => rw [exec_fenceClose, State.closeFence_ready hfence hready]
  case waits =>
    rw [exec_fenceClose]
    rintro t ht hne
    obtain rfl : s.closeFence port agt tag = t := by injection ht
    obtain ⟨f, hmem, ⟨rfl, rfl, htag, hkind⟩, hready⟩ := State.closeFence_closes hne
    exact ⟨f, hmem, hkind, rfl, rfl, htag, State.fenceReady_iff.mp hready⟩

end Sys2Proof.Machine
end

section
/-! PROOFS. The home slice and what leaves it (R122, R123, R132, R133, R139, R161, R165, R167, R172-R177, R240, R585): a request at its
slice, a snoop or a completion at its port, and answers that do not come in time. -/

namespace Sys2Proof.Machine

open Sys2Proof

/-! ### A request at its home slice (R122, R172-R177, R240) -/

section Arrival

variable {s u : State} {port agt tag : Nat} {errs : List DramErr} {r r1 : Req} (harriving : s.arriving port agt tag = some r)
include harriving

theorem State.serialise_elsewhere {h : Nat} (hne : hsOf r.ppa ≠ h) : s.serialise port agt tag errs h = s := by
  simp only [State.serialise, harriving, if_neg hne]

/-- At its home slice a request is marked serialised, takes the scale in force and is acted on. -/
theorem State.serialise_home (hr1 : r1 = { r with ser := true, scale := s.ov O.int8_scale (r.ext % 65536), phase := .served })
    (hu : u = (s.meet errs).updReq r.id (fun _ => r1)) : s.serialise port agt tag errs (hsOf r.ppa) = u.homeAct r1 := by
  subst hr1 hu
  simp only [State.serialise, harriving, if_true]

end Arrival

section HomeAct

variable {s : State} {r : Req}

theorem State.homeAct_evc (hk : r.kind = .evc) : s.homeAct r = (s.evc r).work [r.line] := by
  simp only [State.homeAct, hk]

theorem State.homeAct_wbd (hk : r.kind = .wbd) : s.homeAct r = (s.wbd r).work [r.line] := by
  simp only [State.homeAct, hk]

section Request

variable (hreq : r.kind.evict = false)
include hreq

theorem State.homeAct_closed (hclosed : s.closedTo r = true) : s.homeAct r = (s.straggler r).finish r .revoked := by
  unfold State.homeAct
  split
  next hk => simp [hk, Kind.evict] at hreq
  next hk => simp [hk, Kind.evict] at hreq
  · exact if_pos hclosed

/-- A request that nothing refuses waits while its line is busy, and is served otherwise. -/
theorem State.homeAct_taken (hopen : s.closedTo r = false) (hwrite : s.writeHeld r = false)
    (hremap : r.kind.caching = true → s.remapHeld r.h.ctx r.vpn = false)
    (hview : r.view = 0 ∨ viewOk r.view r.vpn (r.h.cva % 2 ^ 26) r.h.len = true) :
    s.homeAct r = if (s.dir r.line).txn.isSome ∨ (s.dir r.line).waits ≠ [] then
        if 8 ≤ (s.dir r.line).waits.length ∨ 8192 ≤ s.slcRecords (hsLine r.line) then s.waitFull r
        else (s.updReq r.id (fun q => { q with phase := .waiting })).setDir r.line { s.dir r.line with waits := (s.dir r.line).waits ++ [r.id] }
      else (s.serve r).1.work ((s.serve r).2 ++ [r.line]) := by
  have hheld : ¬(s.writeHeld r = true ∨ (r.kind.caching = true ∧ s.remapHeld r.h.ctx r.vpn = true)) := by
    simpa only [hwrite, Bool.false_eq_true, false_or, not_and, Bool.not_eq_true] using hremap
  have hdenied : ¬(r.view ≠ 0 ∧ (!viewOk r.view r.vpn (r.h.cva % 2 ^ 26) r.h.len) = true) := by
    simpa only [Bool.not_eq_true', not_and, Bool.not_eq_false, ne_eq, Classical.or_iff_not_imp_left] using hview
  unfold State.homeAct
  split
  next hk => simp [hk, Kind.evict] at hreq
  next hk => simp [hk, Kind.evict] at hreq
  · simp only [hopen, hheld, hdenied, Bool.false_eq_true, if_false]

end Request

end HomeAct

/-! ### Snoops and completions leave by their ports (R132, R133, R139, R161, R167, R585) -/

/-- A snoop that no earlier one and no synchronisation holds leaves by the port its line picks. -/
theorem State.snpEgress_leaves {s : State} {hs sid can a p : Nat} {x : SnpRec}
    (hsnoop : s.coh.snoops.find? (fun x => x.hs == hs && x.sid == sid && x.can == can && !x.out) = some x)
    (hagent : s.canAgent can = some a) (hport : s.snpPort x = some p) (hfirst : s.snpBefore x p = false) (hsync : s.syncHolds a = false) :
    s.snpEgress hs sid can = (({ s with coh := { s.coh with snoops := s.coh.snoops.map (fun z =>
      if z = x then { x with out := true, port := p, since := s.ltc } else z) } } : State).bump O.snoops_sent hs).send p
      { chan := 1, hdr := packSnp x, slots := [], agt := a, line := some x.line } := by
  simp only [State.snpEgress, hsnoop, hagent, hport, hfirst, Option.getD_some, hsync, Bool.false_eq_true, or_self, if_false]

section Completion

variable {s : State} {port agt tag p : Nat} {c : Cmp} (hleaving : s.leaving port agt tag = some c) (hport : s.cmpPort c = some p)
include hleaving hport

theorem State.cmpEgress_held (hheld : s.oldPortHolds c p = true ∨ s.syncHolds agt = true) : s.cmpEgress port agt tag = s := by
  simp only [State.cmpEgress, hleaving, hport]
  exact if_pos (or_assoc.mp (.inl hheld))

section Free

variable (hold : s.oldPortHolds c p = false) (hsync : s.syncHolds agt = false)
include hold hsync

theorem State.cmpEgress_plain (hgrant : c.grant = 0) :
    s.cmpEgress port agt tag = ({ (s.dropReq c.reqId) with cmps := s.cmps.erase c } : State).send p
      { chan := 2, hdr := packCmp c, slots := c.slots, agt := c.agt, line := c.lineOf, arrival := c.port } := by
  simp only [State.cmpEgress, hleaving, hport, hold, hsync, hgrant, ne_eq, not_true_eq_false, Bool.false_eq_true, false_and, or_self,
    if_false, if_true]

theorem State.cmpEgress_grant {u : State} (hgrant : c.grant ≠ 0) (hroom : s.grantsAt p < 4096)
    (hu : u = { (s.dropReq c.reqId) with cmps := s.cmps.erase c }) :
    s.cmpEgress port agt tag = ({ u with coh := { u.coh with grants := u.coh.grants ++
      [⟨p, c.agt, c.tag, c.can, c.line, c.reqId⟩] } } : State).send p
      { chan := 2, hdr := packCmp c, slots := c.slots, agt := c.agt, line := c.lineOf, arrival := c.port } := by
  subst hu
  simp only [State.cmpEgress, hleaving, hport, hold, hsync, hgrant, Nat.not_le.mpr hroom, Bool.false_eq_true, and_false, or_self, if_false]

end Free

end Completion

/-! ### Answers that do not come in time (R165) -/

theorem State.snoopTimeout_up {s : State} {hs sid can a : Nat} {x : SnpRec}
    (hsnoop : s.coh.snoops.find? (fun x => x.hs == hs && x.sid == sid && x.can == can && x.out) = some x)
    (hagent : s.canAgent can = some a) (hup : s.portUp x.port = true) : s.snoopTimeout hs sid can = s.declareLost a 2 := by
  simp only [State.snoopTimeout, hsnoop, hagent, hup, if_true]

theorem State.ackTimeout_up {s : State} {port agt tag : Nat}
    (hgrant : s.coh.grants.any (fun g => g.port == port && g.agt == agt && g.tag == tag) = true) (hup : s.portUp port = true) :
    s.ackTimeout port agt tag = s.declareLost agt 3 := if_pos ⟨hgrant, hup⟩

/-! ### The commands -/

theorem exec_homeSliceSerialise (s : State) (port agt tag : Nat) (errs : List DramErr) (hs : Nat) :
    exec (.homeSliceSerialise port agt tag errs hs) s = .next (s.serialise port agt tag errs hs) := rfl

theorem exec_snoopEgress (s : State) (hs sid can : Nat) : exec (.snoopEgress hs sid can) s = .next (s.snpEgress hs sid can) := rfl

theorem exec_completionEgress (s : State) (port agt tag : Nat) :
    exec (.completionEgress port agt tag) s = .next ((s.cmpEgress port agt tag).admitNext port) := rfl

theorem exec_snoopTimeout (s : State) (hs sid can : Nat) : exec (.snoopTimeout hs sid can) s = .next (s.snoopTimeout hs sid can) := rfl

theorem exec_gntAckTimeout (s : State) (port agt tag : Nat) : exec (.gntAckTimeout port agt tag) s = .next (s.ackTimeout port agt tag) := rfl

/-- Settles O14: a request at its home slice goes by the branch of `homeAct` its clause names; a snoop or a completion leaves, and a time runs
out, by the equation of its operation. -/
theorem homeSliceOrdersItsRequests : Obligations.HomeSliceOrdersItsRequests := by
  refine ⟨fun s port agt tag errs r r1 u harriving hr1 hu => ?arrives,
    fun s => ⟨?snoop, ?plain, ?grant, ?held, ?snoopLate, ?ackLate⟩⟩
  case arrives =>
    have hkind : r1.kind = r.kind := by rw [hr1]
    rw [← hkind]
    simp only [exec_homeSliceSerialise, State.serialise_home harriving hr1 hu]
    refine ⟨fun h hne => ?_, fun hk => ?_, fun hk => ?_, fun hreq hclosed => ?_, fun hreq hopen hwrite hremap hview => ?_⟩
    · rw [State.serialise_elsewhere harriving hne]
    · rw [State.homeAct_evc hk]
    · rw [State.homeAct_wbd hk]
    · rw [State.homeAct_closed hreq hclosed]
    rw [State.homeAct_taken hreq hopen hwrite hremap hview]
    refine ⟨fun hbusy hwaits hrecords => ?_, fun hfree hnone => ?_⟩
    · rw [if_pos (.inl (Option.isSome_iff_ne_none.mpr hbusy)), if_neg (not_or.mpr ⟨Nat.not_le.mpr hwaits, Nat.not_le.mpr hrecords⟩)]
    · rw [if_neg (not_or.mpr ⟨by rw [hfree]; decide, not_not_intro hnone⟩)]
  case snoop =>
    intro hs sid can x a p hsnoop hagent hport hfirst hsync
    rw [exec_snoopEgress, State.snpEgress_leaves hsnoop hagent hport hfirst hsync]
  case plain =>
    intro port agt tag c p hleaving hport hold hsync hgrant
    rw [exec_completionEgress, State.cmpEgress_plain hleaving hport hold hsync hgrant]
  case grant =>
    intro port agt tag c p u hleaving hport hold hsync hgrant hroom hu
    rw [exec_completionEgress, State.cmpEgress_grant hleaving hport hold hsync hgrant hroom hu]
  case held =>
    intro port agt tag c p hleaving hport hheld
    rw [exec_completionEgress, State.cmpEgress_held hleaving hport hheld]
  case snoopLate =>
    intro hs sid can x a hsnoop hagent hup
    rw [exec_snoopTimeout, State.snoopTimeout_up hsnoop hagent hup]
  case ackLate =>
    intro port agt tag hgrant hup
    rw [exec_gntAckTimeout, State.ackTimeout_up hgrant hup]

end Sys2Proof.Machine
end

section
/-! PROOFS. What the home opens and what it takes back (R158, R159, R162-R164, R169-R171, R178, R182, R191): the snoops of each request to a
held line, snoop responses, grant acknowledgements and a victim's data. -/

namespace Sys2Proof.Machine

open Sys2Proof

/-! ### Requests to a held line (R158, R170, R191) -/

section Held

variable {s : State} {r : Req}

theorem State.openFor_room (hroom : s.txnRoom (hsLine r.line) = true) (t : Txn) (targets : List (Nat × SnpK × Bool)) :
    s.openFor r t targets = ((s.served r).openTxn r.line t targets, [r.line]) := if_pos hroom

/-- A request for ownership without data may be granted only to a sharer whose copy the entry vouches for. -/
theorem State.serveHeld_upg_exact (hk : r.kind = .upg) (hother : (s.dir r.line).owner ≠ some r.h.can)
    (hsharer : (s.dir r.line).exactSharer r.h.can = true) (hknown : r.unk = false) :
    s.serveHeld r = s.openFor r { Txn.fresh .own r.id with noData := true }
      ((s.dir r.line).owner.toList.map (fun o => (o, .snpInv, true)) ++ s.invSharers (s.dir r.line) (some r.h.can)) := by
  simp only [State.serveHeld, hk, beq_false_of_ne hother, hsharer, hknown, Bool.false_eq_true, Bool.not_false, and_self, false_and,
    if_false, if_true]

theorem State.serveHeld_rdx (hk : r.kind = .rdx) (hother : (s.dir r.line).owner ≠ some r.h.can) :
    s.serveHeld r = s.openFor r (.fresh .own r.id)
      ((s.dir r.line).owner.toList.map (fun o => (o, .snpX, true)) ++ s.invSharers (s.dir r.line) (some r.h.can)) := by
  simp only [State.serveHeld, hk, beq_false_of_ne hother, Bool.false_eq_true, if_false]

/-- A shared copy is asked of the owner, and of no one where the line has none. -/
theorem State.serveHeld_rds (hk : r.kind = .rds) (hother : (s.dir r.line).owner ≠ some r.h.can) :
    s.serveHeld r = s.openFor r (.fresh .rd r.id) ((s.dir r.line).owner.toList.map (fun o => (o, .snpS, true))) := by
  simp only [State.serveHeld, hk, beq_false_of_ne hother, Bool.false_eq_true, if_false]
  cases (s.dir r.line).owner with
  | none => rfl
  | some o => rfl

theorem State.serveHeld_rdonce {o : Nat} (hk : r.kind = .rdonce) (howner : (s.dir r.line).owner = some o) :
    s.serveHeld r = s.openFor r (.fresh .rdonce r.id) [(o, .snpCur, true)] := by
  simp only [State.serveHeld, hk, howner]

theorem State.serveHeld_stores (hk : r.kind = .wrfull ∨ r.kind = .wrpart ∨ r.kind = .atom ∨ r.kind = .acc) :
    s.serveHeld r = s.openFor r (.fresh .write r.id) (s.recallTargets (s.dir r.line) (s.reqCan r)) := by
  rcases hk with hk | hk | hk | hk <;> simp only [State.serveHeld, hk]

end Held

/-- Settles O15: each kind of request opens the transaction its row of the home table names, and there is room for it. -/
theorem homeTableOpensTheRightSnoops : Obligations.HomeTableOpensTheRightSnoops := by
  rintro s r d rfl hroom hother
  refine ⟨fun hk => ?_, fun hk => ?_, fun hk hsharer hknown => ?_, fun hk o howner => ?_, fun hk => ?_⟩
  · rw [State.serveHeld_rds hk hother, State.openFor_room hroom]
  · rw [State.serveHeld_rdx hk hother, State.openFor_room hroom]
  · rw [State.serveHeld_upg_exact hk hother hsharer hknown, State.openFor_room hroom]
  · rw [State.serveHeld_rdonce hk howner, State.openFor_room hroom]
  · rw [State.serveHeld_stores hk, State.openFor_room hroom]

/-! ### Snoop responses (R159, R169, R171, R191) -/

/-- A response to an open snoop of a running slice is taken or is an error as the snoop allows it. -/
theorem State.respond_awaited {s u : State} {port src hs sid can : Nat} {dirty : Bool} {slots : List Slot} {k : RspK} {x : SnpRec}
    {t : Txn} {p : Snp} (hlife : (s.agent src).life = .present) (hsnoop : s.coh.snoops.find? (s.snoopOf src hs sid can) = some x)
    (hrun : (s.slc hs).phase = 0) (hu : u = if x.since + usTicks (s.ov O.snoop_bound) < s.ltc then s.bump O.snoop_late src else s)
    (htxn : (u.dir x.line).txn = some t) (hawaited : t.snps.find? (fun q => q.can == can) = some p) (hsid : t.sid = sid) :
    s.respond port src hs sid can k dirty slots =
      if t.kind = .unk ∨ rspAllowed p.kind p.owner (p.owner && (u.dir x.line).st == .os) k = true then
        ((s.snoopDone u src hs sid can).takeAnswer x.line t p k dirty slots).work [x.line]
      else u.badRsp 2 src can x.line k.opcode port := by
  have hmine : s.coh.snoops.find? (fun y => y.hs == hs && y.sid == sid && y.can == can && y.out && s.canAgent can == some src) = some x :=
    hsnoop
  simp only [State.respond, hlife, hmine, hrun, ← hu, htxn, hawaited, hsid, ne_eq, not_true_eq_false, Nat.zero_ne_one, if_false]
  rfl

/-- Each command that brings a response hands the slice its kind, its dirty mark and its data. -/
theorem exec_responseRows {port src hs sid can : Nat} {dirty : Bool} {slots : List Slot} {c : Instr × RspK × Bool × List Slot}
    (hc : c ∈ responseRows port src hs sid can dirty slots) (s : State) :
    exec c.1 s = .next (s.respond port src hs sid can c.2.1 c.2.2.1 c.2.2.2) := by
  simp only [responseRows, List.mem_cons, List.not_mem_nil, or_false] at hc
  rcases hc with rfl | rfl | rfl | rfl | rfl | rfl | rfl <;> rfl

/-! ### Grant acknowledgements and a victim's data (R163, R164, R178, R182) -/

theorem State.ackLine_granted {u : State} {line reqId : Nat} {t : Txn} (htxn : (u.dir line).txn = some t) (hgranted : t.granted = true)
    (hreq : t.req = reqId) :
    u.ackLine line reqId = some ((u.setDir line (grantEnd (u.dir line) t ((u.dir line).nctx, (u.dir line).nvpn))).work [line]) := by
  simp only [State.ackLine, htxn, hgranted, hreq, and_self, if_true]

/-- The acknowledgement of a grant by the agent it went to, at a running slice, ends the busy state of its line. -/
theorem State.gntAck_granted {s u : State} {port src tag can : Nat} {g : Grant} {t : Txn} (hlife : (s.agent src).life = .present)
    (hgrant : s.coh.grants.find? (fun g => g.port == port && g.agt == src && g.tag == tag) = some g)
    (hrun : (s.slc (hsLine g.line)).phase = 0) (hu : u = { s with coh := { s.coh with grants := s.coh.grants.erase g } })
    (htxn : (u.dir g.line).txn = some t) (hgranted : t.granted = true) (hreq : t.req = g.reqId) :
    s.gntAck port src tag src can =
      (u.setDir g.line (grantEnd (u.dir g.line) t ((u.dir g.line).nctx, (u.dir g.line).nvpn))).work [g.line] := by
  simp only [State.gntAck, hlife, beq_self_eq_true, Bool.and_true, hgrant, hrun, ← hu, State.ackLine_granted htxn hgranted hreq,
    ne_eq, not_true_eq_false, if_false]

/-- A victim's data is written home before its way passes to the line that claimed it. -/
theorem State.evictAccepted_data {s : State} {line c : Nat} {t : Txn} {v : LineVal} (htxn : (s.dir line).txn = some t)
    (hkind : t.kind = .handover c) (hval : t.val = some v) :
    s.evictAccepted line = ((s.homeData line v).passWay line c).1.work ((s.homeData line v).passWay line c).2 := by
  simp only [State.evictAccepted, htxn, hkind, hval]

/-! ### The commands -/

theorem exec_gntAck (s : State) (port src tag agt can : Nat) :
    exec (.gntAck port src tag agt can) s = .next (s.gntAck port src tag agt can) := rfl

theorem exec_evictDataAccepted (s : State) (line : Nat) : exec (.evictDataAccepted line) s = .next (s.evictAccepted line) := rfl

/-- Settles O16: a response is judged by `rspAllowed`; an acknowledgement and a victim's data go by the equation of their operation. -/
theorem responsesGrantsAndEvictions : Obligations.ResponsesGrantsAndEvictions := by
  refine ⟨fun s port src hs sid can dirty slots x t p u hlife hsnoop hrun hu htxn hawaited hsid c hc => ?response,
    fun s => ⟨?grant, ?victim⟩⟩
  case response =>
    rw [exec_responseRows hc, State.respond_awaited hlife hsnoop hrun hu htxn hawaited hsid]
    refine ⟨fun hallowed => ?_, fun hknown hdenied => ?_⟩
    · rw [if_pos hallowed]
    · rw [if_neg (not_or.mpr ⟨hknown, Bool.eq_false_iff.mp hdenied⟩)]
  case grant =>
    intro port src tag can g u hlife hgrant hrun hu t htxn hgranted hreq
    rw [exec_gntAck, State.gntAck_granted hlife hgrant hrun hu htxn hgranted hreq]
  case victim =>
    intro line c v t htxn hkind hval
    rw [exec_evictDataAccepted, State.evictAccepted_data htxn hkind hval]

end Sys2Proof.Machine
end

section
/-! PROOFS. Recalls, directory walks and census reports (R179, R180, R307, R537, R544, R562, R563): when a recall starts, what a walk that
finds nothing left to recall leaves, and a report that its slice takes. -/

namespace Sys2Proof.Machine

open Sys2Proof

/-! ### Recalls (R179, R180) -/

section Recall

variable {s : State} {line : Nat} (hwanted : s.wanted line = true)
include hwanted

theorem State.recallLine_held (hbusy : (s.dir line).txn ≠ none ∨ s.recallRoom (hsLine line) = false) :
    s.recallLine line = s.setDir line { s.dir line with recalls := true } := by
  have hheld : (s.dir line).txn.isSome = true ∨ (!s.recallRoom (hsLine line)) = true :=
    hbusy.imp Option.isSome_iff_ne_none.mpr (congrArg not)
  simp only [State.recallLine, hwanted, hheld, if_true]

theorem State.recallLine_starts (hfree : (s.dir line).txn = none) (hroom : s.recallRoom (hsLine line) = true) :
    s.recallLine line = (s.startRecall line).1.work ((s.startRecall line).2 ++ [line]) := by
  simp only [State.recallLine, hwanted, hfree, hroom, Option.isSome_none, Bool.not_true, Bool.false_eq_true, or_self, if_true, if_false]

end Recall

/-! ### Walks that end (R180, R307, R537, R544) -/

/-- The lines whose values slice `hs` still holds of the frames `fs`. -/
def State.heldOf (s : State) (hs : Nat) (fs : List Nat) : List Nat :=
  (s.coh.acc.map (·.1) ++ s.coh.merge.map (·.1)).filter (fun l => hsLine l == hs && fs.contains (frameOf (l * 128)))

theorem State.filter_eq_heldOf (s : State) (hs : Nat) (fs : List Nat) :
    (s.coh.acc.map (·.1) ++ s.coh.merge.map (·.1)).filter (fun l => hsLine l == hs && fs.contains (frameOf (l * 128))) = s.heldOf hs fs := rfl

/-- Nothing is written home where no frame is to be emptied. -/
theorem State.flushLines_heldOf_nil (s : State) (hs : Nat) : s.flushLines (s.heldOf hs []) = s := by
  have hnone : s.heldOf hs [] = [] := List.filter_eq_nil_iff.mpr fun l _ hin => by
    simp only [List.contains_nil, Bool.and_false, Bool.false_eq_true] at hin
  rw [hnone, State.flushLines]

section Walk

variable {s : State} {hs id : Nat}

/-- An extent's walk writes home what is left of its frames when the whole extent closes, and nothing when one sharer leaves. -/
theorem State.walkDone_extent {u : State} (hclear : s.walkClear hs 0 id = true) (hphase : (s.ext id).phase = 3)
    (hu : u = if (s.ext id).closingFor = none then s.flushLines (s.heldOf hs (s.ext id).frames) else s) (hstill : (u.ext id).phase = 3) :
    s.walkDone hs 0 id = u.setExt id { u.ext id with walk := setBit (u.ext id).walk hs } := by
  have hflush : s.flushLines (s.heldOf hs (if (s.ext id).phase = 3 ∧ (s.ext id).closingFor.isNone = true then (s.ext id).frames else [])) = u := by
    rw [hu]
    cases (s.ext id).closingFor with
    | none => simp only [hphase, Option.isNone_none, and_self, if_true]
    | some c => simp only [Option.isNone_some, Bool.false_eq_true, and_false, reduceCtorEq, if_false, State.flushLines_heldOf_nil]
  simp only [State.walkDone, hclear, if_true, State.filter_eq_heldOf, hflush, hstill]

theorem State.walkDone_reset (hclear : s.walkClear hs 1 id = true) (hphase : (s.ctx id).rphase = 2) :
    s.walkDone hs 1 id = s.setCtx id { s.ctx id with rwalk := setBit (s.ctx id).rwalk hs } := by
  simp only [State.walkDone, hclear, if_true, State.filter_eq_heldOf, State.flushLines_heldOf_nil, hphase]

/-- A migration's walk empties its source frame and that frame's mirror. -/
theorem State.walkDone_migration {u : State} (hclear : s.walkClear hs 2 id = true)
    (hmoving : s.migs.any (fun m => m.src == id && m.phase == 2) = true)
    (hu : u = s.flushLines (s.heldOf hs (id :: (s.mirrorOf id).toList))) :
    s.walkDone hs 2 id = { u with migs := u.migs.map (fun m => if m.src = id ∧ m.phase = 2 then m.walked hs else m) } := by
  simp only [State.walkDone, hclear, hmoving, if_true, State.filter_eq_heldOf, ← hu]

theorem State.walkDone_commit (hclear : s.walkClear hs 3 id = true) :
    s.walkDone hs 3 id = s.setCommits (updCommit id (fun k => if k.ph = 2 then { k with walk := setBit k.walk hs } else k) s.chart.commits) := by
  simp only [State.walkDone, hclear, if_true, State.filter_eq_heldOf, State.flushLines_heldOf_nil]

end Walk

/-! ### Census reports (R562, R563) -/

/-- A report of the running census from the agent of its CAN enters its records, and with `last` that CAN has answered. -/
theorem State.censusReport_taken {s u : State} {port src hs census can count : Nat} {slots : List Slot} (hlife : (s.agent src).life = .present)
    (hcount : count ≤ 32) (hslots : slots.length = ceilDiv count 4) (hcensus : (s.slc hs).census = census)
    (hcounted : (s.slc hs).counted = true) (hsender : s.canAgent can = some src) (hphase : (s.slc hs).phase ≠ 1)
    (hu : u = (censusWords count slots).foldl (fun t w => t.censusRecord hs can w) s) (last : Bool) :
    s.censusReport port src hs census can count last slots =
      if last then u.setSlc hs { u.slc hs with
        queried := (u.slc hs).queried.filter (· != can),
        laggards := if (u.slc hs).full.contains can then (u.slc hs).laggards else (u.slc hs).laggards.filter (· != can) }
      else u := by
  simp only [State.censusReport, hlife, Nat.not_lt.mpr hcount, hslots, hcensus, hcounted, hsender, hphase, ← hu, ne_eq, not_true_eq_false,
    Bool.not_true, Bool.false_eq_true, or_self, if_false]

/-! ### The commands -/

theorem exec_recall (s : State) (line : Nat) : exec (.recall line) s = .next (s.recallLine line) := rfl

theorem exec_directoryWalkDone (s : State) (hs kind id : Nat) : exec (.directoryWalkDone hs kind id) s = .next (s.walkDone hs kind id) := rfl

theorem exec_censusReport (s : State) (port src hs census can count : Nat) (last : Bool) (slots : List Slot) :
    exec (.censusReport port src hs census can count last slots) s = .next (s.censusReport port src hs census can count last slots) := rfl

/-- Settles O17: each clause is the equation of `recallLine`, `walkDone` or `censusReport` for the case it names. -/
theorem recallsWalksAndCensus : Obligations.RecallsWalksAndCensus := by
  refine ⟨fun s => ⟨?held, ?starts, ?extent, ?reset, ?migration, ?commit⟩, ?census⟩
  case held =>
    intro line hwanted hbusy
    rw [exec_recall, State.recallLine_held hwanted hbusy]
  case starts =>
    intro line hwanted hfree hroom
    rw [exec_recall, State.recallLine_starts hwanted hfree hroom]
  case extent =>
    intro hs slot u hclear hphase hu hstill
    rw [exec_directoryWalkDone, State.walkDone_extent hclear hphase hu hstill]
  case reset =>
    intro hs c hclear hphase
    rw [exec_directoryWalkDone, State.walkDone_reset hclear hphase]
  case migration =>
    intro hs f hclear hmoving u hu
    rw [exec_directoryWalkDone, State.walkDone_migration hclear hmoving hu]
  case commit =>
    intro hs c hclear
    rw [exec_directoryWalkDone, State.walkDone_commit hclear]
  case census =>
    intro s port src hs census can count slots u hlife hcount hslots hcensus hcounted hsender hphase hu
    have htaken := State.censusReport_taken (port := port) hlife hcount hslots hcensus hcounted hsender hphase hu
    simp only [exec_censusReport, htaken, Bool.false_eq_true, if_false, if_true, and_self]

end Sys2Proof.Machine
end

section
/-! PROOFS. The accumulation cache between ACCs (R184, R228, R231, R232) and an extent's INT8 scale (R243): a fill that arrives, an idle line
that is written home, and a write of the scale. -/

namespace Sys2Proof.Machine

open Sys2Proof

/-! ### Fills (R184, R228, R232) -/

/-- Counting touches no accumulator line. -/
@[simp] theorem State.bump_accAt (s : State) (o : Obj) (a b n line : Nat) : (s.bump o a b n).accAt line = s.accAt line := rfl

section Fill

variable {s : State} {line : Nat} {a : AccLine} (hline : s.accAt line = some a)
include hline

/-- The starting value is read under the page of the first ACC that waited; those that waited are then added to it. -/
theorem State.accFill_arrives {q : LineVal × State} {z : AccLine × State} (hfilling : a.filling = true)
    (hq : q = (s.bump O.acc_fills (hsLine line)).lineRead line ((a.pend.head?.map (fun p => (p.1.ctx, p.1.cva / 2 ^ 26))).getD (0, 0)).1
      ((a.pend.head?.map (fun p => (p.1.ctx, p.1.cva / 2 ^ 26))).getD (0, 0)).2)
    (hz : z = (q.2.bump O.acc_poisoned (hsLine line) 0 (b2n (q.1.lo.reason != 0) + b2n (q.1.hi.reason != 0))).accApplyAll line
      { a with val := q.1.bytes, p0 := q.1.lo.reason, p1 := q.1.hi.reason, filling := false, pend := [] } a.pend) :
    s.accFill line = z.2.setAcc line z.1 := by
  simp only [State.accFill, hline, hfilling, if_true, ← hq, ← hz]

theorem State.accFill_filled (hfilled : a.filling = false) : s.accFill line = s := by
  simp only [State.accFill, hline, hfilled, Bool.false_eq_true, if_false]

/-! ### Write-backs (R186, R231, R358) -/

/-- A dirty line that is no poison and not lost is written home whole, and stays, clean. -/
theorem State.accFlush_data (hfilled : a.filling = false) (hdirty : a.dirty = true) (hstored : s.lostWrite (line * 128) = false)
    (hlo : a.p0 = 0) (hhi : a.p1 = 0) : s.accFlush line = ((s.setAcc line { a with dirty := false }).pageHint line true 0).lineHome line
      ⟨.data (slice 0 64 a.val), .data (slice 64 64 a.val)⟩ := by
  simp only [State.accFlush, State.accFill_filled hline hfilled, hline, hdirty, hstored, hlo, hhi, Bool.false_eq_true, if_true, if_false]

/-- The write-back of an idle dirty line is counted. -/
theorem State.accIdle_dirty (hflush : s.ov O.acc_idle_flush ≠ 0xFFFFFFFF) (hfilled : a.filling = false) (hdirty : a.dirty = true)
    (hstored : s.lostWrite (line * 128) = false) : s.accIdle line = (s.bump O.acc_writebacks (hsLine line)).accFlush line := by
  simp only [State.accIdle, hline, hflush, hfilled, hdirty, hstored, Bool.not_true, Bool.false_eq_true, or_self, if_false]

end Fill

theorem State.accIdle_never {s : State} (line : Nat) (hnever : s.ov O.acc_idle_flush = 0xFFFFFFFF) : s.accIdle line = s := if_pos hnever

/-! ### The INT8 scale of an extent (R243) -/

/-- An exponent of all ones would be an infinity or a NaN; any other value is taken while the extent is MOORED. -/
theorem State.int8Write_finite {s : State} {handle v : Nat} {x : Ext} (hlive : s.liveExt handle = some x) (hmoored : x.st = .moored)
    (hfinite : bits v 23 8 ≠ 255) : s.int8Write handle v = s.setOv O.int8_scale (v % 2 ^ 32) (handle % 65536) := by
  simp only [State.int8Write, hlive, hmoored, decide_eq_true hfinite, beq_self_eq_true, Bool.and_true, if_true]

/-! ### The commands -/

theorem exec_accFillArrives (s : State) (line : Nat) (errs : List DramErr) :
    exec (.accFillArrives line errs) s = .next ((s.meet errs).accFill line) := rfl

theorem exec_accIdleFlush (s : State) (line : Nat) : exec (.accIdleFlush line) s = .next (s.accIdle line) := rfl

theorem exec_int8ScaleWrite (s : State) (handle v : Nat) : exec (.int8ScaleWrite handle v) s = .next (s.int8Write handle v) := rfl

/-- Settles O18: a fill is `accFill`, an idle line's write-back `accIdle` and then `accFlush`, a write of the scale `int8Write`. -/
theorem accumulatorLinesAreFilledAndWritten : Obligations.AccumulatorLinesAreFilledAndWritten := by
  refine fun s => ⟨?fill, ?idle, ?never, ?scale⟩
  case fill =>
    intro line errs a u q hu hline hfilling hq z hz
    rw [exec_accFillArrives, ← hu, State.accFill_arrives hline hfilling hq hz]
  case idle =>
    rintro line a u hflush hline hfilled hdirty rfl hstored hstill hlo hhi
    rw [exec_accIdleFlush, State.accIdle_dirty hline hflush hfilled hdirty hstored,
      State.accFlush_data ((State.bump_accAt ..).trans hline) hfilled hdirty hstill hlo hhi]
  case never =>
    intro line hnever
    rw [exec_accIdleFlush, State.accIdle_never line hnever]
  case scale =>
    intro handle v x hlive hmoored hfinite
    rw [exec_int8ScaleWrite, State.int8Write_finite hlive hmoored hfinite]

end Sys2Proof.Machine
end

section
/-! PROOFS. CHECKSUM (R280): the parts of a job's strips, sorted by strip, join to the CRC-64 of the strips' bytes. -/

namespace Sys2Proof.Machine

open Sys2Proof

/-! ### `result` sorts the parts by strip -/

theorem insPart_perm (x : P4) (l : List P4) : (insPart x l).Perm (x :: l) := by
  induction l with
  | nil => exact .refl _
  | cons y t ih =>
    rw [insPart]
    split
    · exact .refl _
    · exact (ih.cons y).trans (.swap x y t)

theorem insPart_sorted {x : P4} {l : List P4} (hsorted : l.Pairwise (fun p q => p.1 ≤ q.1)) :
    (insPart x l).Pairwise (fun p q => p.1 ≤ q.1) := by
  induction l with
  | nil => exact List.pairwise_singleton _ x
  | cons y t ih =>
    obtain ⟨hfirst, hrest⟩ := List.pairwise_cons.1 hsorted
    rw [insPart]
    split
    next hle =>
      refine List.pairwise_cons.2 ⟨fun q hq => ?_, hsorted⟩
      rcases List.mem_cons.1 hq with rfl | hq
      · exact hle
      · exact Nat.le_trans hle (hfirst q hq)
    next hgt =>
      refine List.pairwise_cons.2 ⟨fun q hq => ?_, ih hrest⟩
      rcases List.mem_cons.1 ((insPart_perm x t).subset hq) with rfl | hq
      · exact Nat.le_of_not_le hgt
      · exact hfirst q hq

theorem foldr_insPart_perm (ps : List P4) : (ps.foldr insPart []).Perm ps := by
  induction ps with
  | nil => exact .refl _
  | cons x t ih => exact (insPart_perm x _).trans (ih.cons x)

theorem foldr_insPart_sorted (ps : List P4) : (ps.foldr insPart []).Pairwise (fun p q => p.1 ≤ q.1) := by
  induction ps with
  | nil => exact .nil
  | cons x t ih => exact insPart_sorted ih

/-- Among parts of different strips, the strip tells the part. -/
theorem eq_of_fst_eq_of_sorted {qs : List P4} (hsorted : qs.Pairwise (fun p q => p.1 < q.1)) {a b : P4} (ha : a ∈ qs) (hb : b ∈ qs)
    (hstrip : a.1 = b.1) : a = b := by
  obtain ⟨i, hi, rfl⟩ := List.getElem_of_mem ha
  obtain ⟨k, hk, rfl⟩ := List.getElem_of_mem hb
  have hlt := List.pairwise_iff_getElem.1 hsorted
  rcases Nat.lt_trichotomy i k with hik | rfl | hki
  · exact absurd hstrip (Nat.ne_of_lt (hlt i k hi hk hik))
  · rfl
  · exact absurd hstrip.symm (Nat.ne_of_lt (hlt k i hk hi hki))

/-- Parts of different strips have one order by strip, whatever the order they came in. -/
theorem foldr_insPart_eq_of_perm {ps qs : List P4} (hperm : ps.Perm qs) (hsorted : qs.Pairwise (fun p q => p.1 < q.1)) :
    ps.foldr insPart [] = qs := by
  have hsame : (ps.foldr insPart []).Perm qs := (foldr_insPart_perm ps).trans hperm
  refine List.Perm.eq_of_pairwise ?antisymm (foldr_insPart_sorted ps) (hsorted.imp Nat.le_of_lt) hsame
  case antisymm =>
    intro a b ha hb hab hba
    exact eq_of_fst_eq_of_sorted hsorted (hsame.subset ha) hb (Nat.le_antisymm hab hba)

/-! ### The strips' CRCs join to that of their bytes -/

/-- The parts of unpoisoned strips of a CHECKSUM, the first of them strip `k`, in order. -/
def crcParts (k : Nat) (ss : List Bytes) : List P4 := (ss.zipIdx k).map (fun p => (p.2, crc64 p.1, p.1.length, false))

theorem crcParts_cons (k : Nat) (b : Bytes) (ss : List Bytes) : crcParts k (b :: ss) = (k, crc64 b, b.length, false) :: crcParts (k + 1) ss := rfl

theorem crcParts_sorted (k : Nat) (ss : List Bytes) : (crcParts k ss).Pairwise (fun p q => p.1 < q.1) := by
  have hfst : (crcParts k ss).map Prod.fst = List.range' k ss.length := by
    rw [crcParts, List.map_map, ← List.zipIdx_map_snd]
    rfl
  rw [← List.pairwise_map (f := Prod.fst) (R := (· < ·)), hfst]
  exact List.pairwise_lt_range'

theorem crcParts_unpoisoned (k : Nat) (ss : List Bytes) : (crcParts k ss).any (fun p => p.2.2.2) = false := by
  simp [crcParts]

/-- The strips' CRCs join, strip by strip, to the CRC of all the bytes so far (`crcJoin_append`). -/
theorem foldl_crcJoin_crcParts (a : Bytes) (k : Nat) (ss : List Bytes) :
    (crcParts k ss).foldl (fun c p => crcJoin c p.2.1 p.2.2.1) (crc64 a) = crc64 (a ++ ss.flatten) := by
  induction ss generalizing a k with
  | nil => simp [crcParts]
  | cons b ss ih => rw [crcParts_cons, List.foldl_cons, crcJoin_append, ih, List.flatten_cons, List.append_assoc]

/-- Settles O26: the strips' parts have one order by strip, and in it their CRCs join to that of the bytes joined. -/
theorem checksumIsTheCrcOfTheWhole : Obligations.ChecksumIsTheCrcOfTheWhole := by
  intro j ss hkind hperm
  have hparts : j.parts.foldr insPart [] = crcParts 0 ss := foldr_insPart_eq_of_perm hperm (crcParts_sorted 0 ss)
  have hjoin : (crcParts 0 ss).foldl (fun c p => crcJoin c p.2.1 p.2.2.1) 0 = crc64 ss.flatten := foldl_crcJoin_crcParts [] 0 ss
  simp only [Job.result, hparts, crcParts_unpoisoned, hkind, hjoin, Bool.false_eq_true, if_false, if_true]

end Sys2Proof.Machine
end

section
/-! PROOFS. Strips as their tiles compute them (R256, R263, R267, R268, R280, R281): what the simple kinds compute, and a computation that
goes on or finds a page closed. -/

namespace Sys2Proof.Machine

open Sys2Proof

/-! ### The arithmetic of the simple kinds (R256, R268, R280) -/

section Kinds

variable {j : Job} (s : State) (x : Strip) (g : Gather)

theorem State.stripWork_checksum (hkind : j.kind = 6) : s.stripWork j x g =
    ⟨[], [], some (crc64 (gatherBytes g (j.cva 0 + (j.span x.idx).1) (j.span x.idx).2).1,
      (gatherBytes g (j.cva 0 + (j.span x.idx).1) (j.span x.idx).2).2), false, 0, 0⟩ := by
  simp only [State.stripWork, hkind]

theorem State.stripWork_copy (hkind : j.kind = 5) {bs : List (Byte × Bool)}
    (hbs : bs = (List.range (j.span x.idx).2).map (fun i => gatherGet g (j.cva 0 + (j.span x.idx).1 + i))) : s.stripWork j x g =
    ⟨[(1, ⟨[(j.cva 1 + (j.span x.idx).1, bs)], bs.map (·.2), 0, 0, SrGen.seed j.seed x.idx⟩)], [], none, false, 0, 0⟩ := by
  subst hbs
  simp only [State.stripWork, hkind]

theorem State.stripWork_fill (hkind : j.kind = 4) : s.stripWork j x g =
    ⟨[(0, encodeStream (j.fmt 0) 0 (j.cva 0) (j.span x.idx).1 (List.replicate (j.span x.idx).2 (elemDecode 0 j.arg, false)) j.round
      (gatherGet g) (SrGen.seed j.seed x.idx))], [], none, (elemDecode 0 j.arg).isNan, 0, 0⟩ := by
  simp only [State.stripWork, hkind]

end Kinds

/-- Settles O25: each clause reads its kind's equation of `stripWork`. -/
theorem simpleKindsComputeWhatTheySay : Obligations.SimpleKindsComputeWhatTheySay := by
  refine fun s j x g => ⟨?checksum, ?copy, ?fill⟩
  case checksum =>
    intro hkind
    rw [State.stripWork_checksum s x g hkind]
    exact ⟨rfl, rfl, rfl⟩
  case copy =>
    intro hkind
    rw [State.stripWork_copy s x g hkind rfl]
    rfl
  case fill =>
    intro hkind
    rw [State.stripWork_fill s x g hkind]

/-! ### A tile computes the strip it runs (R263, R267, R281, R543) -/

/-- Every command that computes a strip is `compute` for its kind of job. -/
theorem exec_of_mem_stripRows (s : State) {tile : Nat} {m : Met} {c : Instr × Nat} (hc : c ∈ stripRows tile m) :
    exec c.1 s = .next (s.compute c.2 tile m) := by
  simp only [stripRows, List.mem_cons, List.not_mem_nil, or_false] at hc
  rcases hc with rfl | rfl | rfl | rfl | rfl | rfl | rfl <;> rfl

section Compute

variable {s u : State} {tile : Nat} {m : Met} {j : Job} {x : Strip} (hstrip : s.Strips tile j x) (hu : u = s.meet m.errs)
include hstrip hu

/-- A page closed to the context fails the job with REVOKED, and the strip leaves it. -/
theorem State.compute_closed {p : Nat × Entry} (hp : p ∈ x.trs) (hclosed : u.frameClosed p.2.frame j.ctx = true) :
    s.compute j.kind tile m = (u.failJob j.id 3).dropStrip j.id x.idx := by
  obtain ⟨hruns, hfresh, hunparked⟩ := hstrip
  subst hu
  have hany : x.trs.any (fun p => (s.meet m.errs).frameClosed p.2.frame j.ctx) = true := List.any_eq_true.2 ⟨p, hp, hclosed⟩
  simp only [State.compute, hruns, hfresh, hunparked, hany, ne_eq, not_true_eq_false, Option.isSome_none, Bool.false_eq_true, or_self, if_false, if_true]

/-- A strip that may be computed is taken to its second stage. -/
theorem State.compute_computes (hcan : u.Computes j x) {g : Gather × State} {w : Work} {hold : List Nat}
    (hg : g = u.gatherCva j.ctx x.trs (cvaLines (u.stripReads j x))) (hw : w = u.stripWork j x g.1)
    (hhold : hold = if j.inplace then [] else u.heldStreams j) : s.compute j.kind tile m =
      (g.2.writePieces 5 (w.pieces x (fun st => !hold.contains st))).updStrip j.id x.idx (fun y => { y with
        stage := 1, held := w.pieces x (fun st => hold.contains st), reds := w.reds, tally := some (w.tally (j.span x.idx).1) }) := by
  obtain ⟨hruns, hfresh, hunparked⟩ := hstrip
  obtain ⟨hopened, hready⟩ := hcan
  subst hu hw hg hhold
  have hnone : x.trs.any (fun p => (s.meet m.errs).frameClosed p.2.frame j.ctx) = false :=
    List.any_eq_false.2 fun p hp => by rw [hopened p hp]; exact Bool.false_ne_true
  simp only [State.directStreams] at hready
  simp only [State.compute, hruns, hfresh, hunparked, hnone, hready, Bool.not_true, ne_eq, not_true_eq_false, Option.isSome_none, Bool.false_eq_true,
    or_self, if_false, Work.pieces]

end Compute

/-- Settles O24: a strip's command is `compute` for its kind, which goes on or finds a page closed. -/
theorem tilesComputeTheirStrips : Obligations.TilesComputeTheirStrips := by
  intro s u tile m j x hstrip hu c hc hkind
  rw [exec_of_mem_stripRows s hc, ← hkind]
  refine ⟨?computes, ?closed⟩
  case computes =>
    intro g w hold hcan hg hw hhold
    rw [State.compute_computes hstrip hu hcan hg hw hhold]
  case closed =>
    intro p hp hclosed
    rw [State.compute_closed hstrip hu hp hclosed]

end Sys2Proof.Machine
end

section
/-! PROOFS. Strips and reductions as they end (R270, R279, R281-R284): the strip a tile takes or replays, its commit to the journal, its
outputs as they are applied, and the completion of a reduction. -/

namespace Sys2Proof.Machine

open Sys2Proof

/-! ### A tile at a strip boundary (R279, R283) -/

section Boundary

variable {s u : State} {tile : Nat} {ecc : List (Nat × Nat × Nat)} {m : Met} (htile : tile < 64) (hu : u = s.meet m.errs)
  (hfree : u.onTile tile = none) (hready : u.tileReady tile = true)
include htile hu hfree hready

/-- A committed strip that lost its tile comes first. -/
theorem State.stripStart_orphan {j : Job} {x : Strip} (horphan : u.orphanStrip = some (j, x)) :
    s.stripStart tile ecc m = u.replayStrip tile j x := by
  subst hu
  simp only [State.stripStart, hfree, Nat.not_le.2 htile, hready, horphan, Bool.not_true, Bool.false_eq_true, or_self, if_false]

/-- Without one, the tile enters the next strip of the context that deficit round robin picks. -/
theorem State.stripStart_picked {j : Job} {i c : Nat} {d k : Drr} {v w : State} (hnone : u.orphanStrip = none)
    (hpick : u.drrPick (Tab.get Drr.init u.jobs.drr tile) (u.liveCtxs.filterMap (fun c =>
      if (u.ov O.tile_quota c == 0xFFFF || decide (u.runningStrips c < u.ov O.tile_quota c)) ∧ (u.ctx c).st = .active then
        (u.jobWithStrip tile c).map (fun p => (c, u.stripCost p.1 p.2)) else none)) = (some c, d))
    (hjob : u.jobWithStrip tile c = some (j, i))
    (hv : v = u.updJob j.id (fun k => if k.redo = [] then { k with next := k.next + 1 } else { k with redo := k.redo.drop 1 }))
    (hk : k = d.settle (v.liveCtxs.any (fun a => v.ov O.svc_group a == d.group && (v.jobWithStrip tile a).isSome)))
    (hw : w = ({ v with jobs := { v.jobs with drr := Tab.put Drr.init v.jobs.drr tile k } } : State)) :
    s.stripStart tile ecc m = (w.bump O.tile_strips 0 tile).enterStrip tile j i ecc none := by
  subst hw hk hv hu
  simp only [State.stripStart, hfree, Nat.not_le.2 htile, hready, hnone, hpick, hjob, Bool.not_true, Bool.false_eq_true, or_self, if_false]

end Boundary

/-- A strip whose record the journal still holds is taken over from it. -/
theorem State.replayStrip_of_journalOf {s : State} {tile : Nat} {j : Job} {x : Strip} {r : JRec} (hrecord : s.journalOf j.id x.idx = some r) :
    s.replayStrip tile j x = (s.bump O.strips_replayed).updJob j.id (fun k => { k with
      rerun := true, reruns := k.reruns + 1, strips := k.strips.map (fun y => if y.idx = x.idx then
        { y with tile := tile, trs := r.trs, held := r.held, reds := r.reds, tally := r.tally } else y) }) := by
  simp only [State.replayStrip, hrecord]

/-! ### Commit and apply (R262, R281, R282) -/

section Ends

variable {s : State} {tile : Nat} {j : Job} {x : Strip} (hruns : s.onTile tile = some (j, x))
include hruns

theorem State.stripCommit_records {k : Nat} {r : JRec} (hinplace : j.inplace = false) (hstage : x.stage = 1) (hfail : j.fail = 0)
    (hspace : s.journalSpace (s.physOf 1 tile) = some k) (hr : r = ⟨j.id, x.idx, s.sec.journalKey, x.trs, x.held, x.reds, x.tally⟩) :
    s.stripCommit tile = ({ s with jobs := { s.jobs with journal := Tab.put none s.jobs.journal k (some r) } } : State).updStrip
      j.id x.idx (fun y => { y with stage := 2 }) := by
  subst hr
  simp only [State.stripCommit, hruns, hinplace, hstage, hfail, hspace, ne_eq, not_true_eq_false, Bool.false_eq_true, or_self, if_false]

/-- The strip of a failed job stops at its commit point. -/
theorem State.stripCommit_failed (hinplace : j.inplace = false) (hstage : x.stage = 1) (hfail : j.fail ≠ 0) :
    s.stripCommit tile = s.leaveTile j x 0 := by
  simp only [State.stripCommit, hruns, hinplace, hstage, hfail, ne_eq, not_true_eq_false, not_false_eq_true, Bool.false_eq_true, or_self, if_false,
    if_true]

/-- A strip whose pages are open and whose lines are clear is applied whole. -/
theorem State.stripApply_applies {m : Met} {u : State} (hstage : x.stage = 2 ∨ (j.inplace = true ∧ x.stage = 1)) (hu : u = s.meet m.errs)
    (hopened : ∀ p ∈ x.held, u.frameClosed (frameOf p.ppa) j.ctx = false) (hclear : u.clear [] (x.held.map (pieceWant x.trs j.ctx)) = true) :
    s.stripApply tile m = x.reds.foldl (fun u r => u.sendRed j x r) ((u.writePieces 5 x.held).leaveTile j x 1) := by
  subst hu
  have hends : (x.stage == 2 || (j.inplace && x.stage == 1)) = true := by simpa using hstage
  have hlive : x.held.filter (fun p => !(s.meet m.errs).frameClosed (frameOf p.ppa) j.ctx) = x.held :=
    List.filter_eq_self.2 fun p hp => by rw [hopened p hp]; rfl
  simp only [State.stripApply, hruns, hends, hlive, hclear, Nat.lt_irrefl, Bool.not_true, Bool.false_eq_true, if_false, if_true]

end Ends

/-! ### The completion of a reduction (R284) -/

section Reduction

variable {s u : State} {tag : Nat} {m : Met} {c : Cmp} {j : Job} {r : Red}
  (hcmp : s.cmps.find? (fun c => c.port == innerPort && c.tag == tag) = some c)
  (hred : s.jobs.jobs.findSome? (fun j => (j.accs.find? (fun a => a.1 == tag)).map (fun a => (j, a.2))) = some (j, r))
  (hu : u = (({ s with
    cmps := s.cmps.filter (fun x => !(x.port == innerPort && x.tag == tag)), reqs := s.reqs.filter (fun q => q.id != c.reqId) } : State).meet m.errs))
include hcmp hred hu

theorem State.redComplete_ok (hstatus : c.status = .ok) :
    s.redComplete tag m = u.updJob j.id (fun k => { k with accs := k.accs.filter (fun a => a.1 != tag) }) := by
  subst hu
  simp only [State.redComplete, hcmp, hred, hstatus]

theorem State.redComplete_retry {q : Req} (hstatus : c.status = .retry) (hreq : s.req? c.reqId = some q) : s.redComplete tag m =
    ({ u with reqs := u.reqs ++ [{ q with phase := .done, ser := false }] } : State).sendHome { q with phase := .done, ser := false } := by
  subst hu
  simp only [State.redComplete, hcmp, hred, hstatus, hreq]

/-- One that may have been added twice or not at all fails its job with REDUCE_LOST and poisons its target. -/
theorem State.redComplete_lost {q : Req} (hstatus : c.status = .accLost) (hreq : s.req? c.reqId = some q) : s.redComplete tag m =
    (u.updJob j.id (fun k => { k with accs := k.accs.filter (fun a => a.1 != tag) })).failJob j.id 8 [r.spoil j.ctx q.gen] := by
  subst hu
  simp only [State.redComplete, hcmp, hred, hstatus, hreq, State.redLost, Option.map_some, Option.getD_some]

end Reduction

/-! ### The commands -/

theorem exec_stripStart (s : State) (tile : Nat) (ecc : List (Nat × Nat × Nat)) (m : Met) :
    exec (.stripStart tile ecc m) s = .next ((s.ungate 1 tile).stripStart tile ecc m) := rfl

theorem exec_stripCommit (s : State) (tile : Nat) : exec (.stripCommit tile) s = .next (s.stripCommit tile) := rfl

theorem exec_stripApplyDone (s : State) (tile : Nat) (m : Met) : exec (.stripApplyDone tile m) s = .next (s.stripApply tile m) := rfl

theorem exec_reductionAccComplete (s : State) (tag : Nat) (m : Met) :
    exec (.reductionAccComplete tag m) s = .next (s.redComplete tag m) := rfl

/-- Settles O27: each clause is the equation of its operation for the strip or the completion the clause names. -/
theorem stripsAreTakenCommittedAndApplied : Obligations.StripsAreTakenCommittedAndApplied := by
  refine fun s => ⟨?start, ?commit, ?apply, ?reduction⟩
  case start =>
    intro tile ecc m u htile hu hfree hready
    rw [exec_stripStart]
    refine ⟨?replayed, ?picked⟩
    case replayed =>
      intro j x r horphan hrecord
      rw [State.stripStart_orphan htile hu hfree hready horphan, State.replayStrip_of_journalOf hrecord]
    case picked =>
      intro j i c d k v w hnone hpick hjob hv hk hw
      rw [State.stripStart_picked htile hu hfree hready hnone hpick hjob hv hk hw]
  case commit =>
    intro tile j x hruns hinplace hstage
    rw [exec_stripCommit]
    refine ⟨?records, ?failed⟩
    case records =>
      intro k r hfail hspace hr
      rw [State.stripCommit_records hruns hinplace hstage hfail hspace hr]
    case failed =>
      intro hfail
      rw [State.stripCommit_failed hruns hinplace hstage hfail]
  case apply =>
    intro tile m j x u hruns hstage hu hopened hclear
    rw [exec_stripApplyDone, State.stripApply_applies hruns hstage hu hopened hclear]
  case reduction =>
    intro tag m c j r u hcmp hred hu
    rw [exec_reductionAccComplete]
    refine ⟨?ok, ?retry, ?lost⟩
    case ok =>
      intro hstatus
      rw [State.redComplete_ok hcmp hred hu hstatus]
    case retry =>
      intro q hstatus hreq
      rw [State.redComplete_retry hcmp hred hu hstatus hreq]
    case lost =>
      intro q hstatus hreq
      rw [State.redComplete_lost hcmp hred hu hstatus hreq]

end Sys2Proof.Machine
end

section
/-! PROOFS. Job queues, PUBLISH, completions and recipes (R247-R253, R261, R264, R272-R275, R286-R288): a doorbell, the fetch of a descriptor
whose job starts, a page waited for too long, and each end. -/

namespace Sys2Proof.Machine

open Sys2Proof

/-! ### Doorbells and enables of a queue (R247, R249, R253) -/

/-- A doorbell of a function that a context owns, keyed where it must be, is tried while the context is in service. -/
theorem State.jobBell_rings {s : State} {port vf c : Nat} (data : Nat) {keyed : Bool} (howner : s.vfCtx port vf = some c)
    (hkeyed : s.ideRefuses c keyed = false) (hquiescing : (s.ctx c).st ≠ .quiescing) (hsweeping : (s.ctx c).st ≠ .sweeping) :
    s.jobBell port vf data keyed = (s.doorbell c data).2 := by
  simp only [State.jobBell, howner, hkeyed, hquiescing, hsweeping, Bool.false_eq_true, or_self, if_false]

theorem State.jqEnable_off (s : State) (qn : Nat) : s.jqEnable qn 0 = ((s.queueDrop qn).setOv O.jq_enable 0 qn).setOv O.jq_state 0 qn := rfl

theorem State.jqEnable_on {s u : State} {qn : Nat} (hu : u = ({ s with jobs := { s.jobs with qwait := Tab.put none s.jobs.qwait qn none } } : State)) :
    s.jqEnable qn 1 = (u.setOv O.jq_enable 1 qn).setOv O.jq_state 1 qn := by
  subst hu
  rfl

/-! ### The fetch of a descriptor (R250-R252, R257) -/

/-- The job that has just entered the table has no failure but the one it entered with. -/
theorem State.enterJob_last_fail {s : State} {c q area fail : Nat} {desc : Bytes} {j : Job}
    (hlast : (s.enterJob c q area desc fail).jobs.jobs.getLast? = some j) : j.fail = fail := by
  simp only [State.enterJob, List.getLast?_concat, Option.some.injEq] at hlast
  rw [← hlast]

/-- A good descriptor that needs no constants starts its job, unless it must wait for those before it. -/
theorem State.tryStart_begins {s : State} {j : Job} {ecc : List (Nat × Nat × Nat)} (hfail : j.fail = 0)
    (hfirst : bit (fld j.desc 1 1) 2 = true ∨ j.kind = 8 → (s.queueJobs j.ctx j.queue).any (fun k => k.id != j.id) = false)
    (hgood : s.badDesc j = false) (hkind : j.kind ≠ 1) : s.tryStart j ecc = s.beginJob j (zeros 128) 0 := by
  have hwaits : ¬((bit (fld j.desc 1 1) 2 = true ∨ j.kind = 8) ∧ (s.queueJobs j.ctx j.queue).any (fun k => k.id != j.id) = true) :=
    fun ⟨hbar, hearlier⟩ => Bool.false_ne_true ((hfirst hbar).symm.trans hearlier)
  simp only [State.tryStart, hfail, hwaits, hgood, hkind, ne_eq, not_true_eq_false, not_false_eq_true, Bool.false_eq_true, or_true, if_false, if_true]

/-- A running queue with no active job fetches its head's descriptor, and the job it enters is tried. -/
theorem State.jobFetch_enters {s u v : State} {c q qn cva : Nat} {ecc : List (Nat × Nat × Nat)} {m : Met} {e : Entry} {d : Bytes} {j : Job}
    (hq : q < 4) (hu : u = s.meet m.errs) (hqn : qn = 4 * c + q) (hawake : u.pwr.entering = false) (hactive : (u.ctx c).st = .active)
    (henable : u.ob O.jq_enable qn = true) (hstate : u.ov O.jq_state qn = 1) (hasleep : u.queueAsleep qn = false)
    (hwork : u.ov O.jq_head qn ≠ u.ov O.jq_tail qn) (hnone : u.queueJobs c q = []) (hroom : u.jobs.jobs.length < 1024)
    (hcva : cva = u.ov O.jq_base qn + 128 * (u.ov O.jq_head qn % u.ov O.jq_size qn)) (hwindow : cva / 2 ^ 26 < u.ov O.win_count c)
    (hread : u.dispRead ecc c cva 0 = (some (.ok e, d, false), v)) (hlast : (v.enterJob c q cva d 0).jobs.jobs.getLast? = some j) :
    s.jobFetch c q ecc m = (v.enterJob c q cva d 0).tryStart j ecc := by
  subst hu hqn hcva
  simp only [State.jobFetch, hawake, hactive, henable, hstate, hasleep, hwork, hnone, hread, hlast, Nat.not_le.2 hq, Nat.not_le.2 hroom,
    Nat.not_le.2 hwindow, List.find?_nil, List.length_nil, Nat.reduceLeDiff, ne_eq, not_true_eq_false, Bool.not_true, Bool.false_eq_true, or_self, if_false]

/-! ### A page waited for too long (R252, R261) -/

section Timeouts

variable {s : State} {n : Nat} (m : Met) (hset : s.ov O.job_fault_timeout ≠ 0xFFFFFFFF)
include hset

theorem State.jobTimeout_queue {x : Nat × Option Nat} (hwaits : Tab.get none s.jobs.qwait n = some x) :
    s.jobTimeout true n m = (s.queueDrop n).setOv O.jq_state 2 n := by
  simp only [State.jobTimeout, hset, hwaits, if_false, if_true]

theorem State.jobTimeout_strip {j : Job} {x : Strip} {t : Nat} (hruns : s.onTile n = some (j, x)) (hparked : x.parked = some t) :
    s.jobTimeout false n m = (s.meet m.errs).failJob j.id 2 := by
  simp only [State.jobTimeout, hset, hruns, hparked, Option.isSome_some, Bool.false_eq_true, if_false, if_true]

end Timeouts

/-! ### PUBLISH (R286-R288) -/

/-- A PUBLISH of two live MOORED extents of its context, of its size and in no migration, puts one internal commit in each window concerned. -/
theorem State.publish_commits {s : State} {id a b : Nat} {j : Job} (hjob : s.job? id = some j) (hkind : j.kind = 8) (hbegun : j.begun = true)
    (hpub : j.pub = 0) (hfail : j.fail = 0) (hcount : j.count ≠ 0) (ha : a = bits j.arg 0 20) (hb : b = bits j.arg 32 20) (hne : a ≠ b)
    (hexts : ∀ h ∈ [a, b], ∃ x, s.liveExt h = some x ∧ x.st = .moored ∧ x.owner = j.ctx ∧ x.frames.length = j.count)
    (hstill : ∀ m ∈ s.migs, (s.frame m.src).ext ≠ a % 65536 ∧ (s.frame m.src).ext ≠ b % 65536) :
    s.publish id =
      (s.addInternals (.publish id (a % 65536) (b % 65536)) (s.rewriteWindows (s.namers a ++ s.namers b))).updJob id (fun k => { k with pub := 1 }) := by
  subst ha hb
  obtain ⟨x, hliveA, hstA, hownA, hlenA⟩ := hexts _ List.mem_cons_self
  obtain ⟨y, hliveB, hstB, hownB, hlenB⟩ := hexts _ (List.mem_cons_of_mem _ List.mem_cons_self)
  have hmig : s.migs.any (fun m => (s.frame m.src).ext == bits j.arg 0 20 % 65536 || (s.frame m.src).ext == bits j.arg 32 20 % 65536) = false :=
    List.any_eq_false.2 fun m hm => by simpa using hstill m hm
  simp only [State.publish, hjob, hkind, hbegun, hpub, hfail, hcount, hliveA, hstA, hownA, hlenA, hliveB, hstB, hownB, hlenB, hmig,
    beq_eq_false_iff_ne.2 hne, beq_self_eq_true, ne_eq, not_true_eq_false, Bool.not_true, Bool.and_self, Bool.or_self, Bool.false_eq_true, or_self,
    if_false]

/-- A PUBLISH none of whose commits is left is to be completed. -/
theorem State.publishDone_drained {s : State} {id : Nat} {j : Job} (hjob : s.job? id = some j) (hpub : j.pub = 1)
    (hgone : ∀ k ∈ s.chart.commits, ∀ a b, k.internal ≠ some (.publish id a b)) :
    s.publishDone id = s.updJob id (fun k => { k with pub := 2 }) := by
  simp only [State.publishDone, hjob, hpub, true_and]
  refine if_pos ?_
  rw [Bool.not_eq_true', List.any_eq_false]
  intro k hk hmine
  split at hmine
  next i a b hint =>
    rw [beq_iff_eq.1 hmine] at hint
    exact hgone k hk a b hint
  next => exact Bool.false_ne_true hmine

/-! ### The completion of a job (R264) -/

theorem State.endJob_eq (s : State) (j : Job) : s.endJob j =
    ((if j.status = 0 ∨ j.status = 5 then s.bump O.jobs_done else s.bump O.jobs_failed).bump O.tile_saturations 0 0 j.lastSats).setJobs
      (s.jobs.jobs.filter (fun k => k.id != j.id)) := by
  simp only [State.endJob, Bool.or_eq_true, beq_iff_eq]

/-- A job whose completion area is mapped and open to it, on a line that may be written, completes there. -/
theorem State.finishJob_writes {s : State} {j : Job} {e : Entry} {l : Want} (he : e = s.entry (s.ov O.win_base j.ctx + j.area / 2 ^ 26))
    (hvalid : e.valid = true) (htyp : e.typ = 0) (hwindow : j.area / 2 ^ 26 < s.ov O.win_count j.ctx) (hopen : s.frameClosed e.frame j.ctx = false)
    (hl : l = wantAt [(j.area / 2 ^ 26, e)] j.ctx j.area) (hclear : s.clear [] [l] = true) :
    s.finishJob j = ((s.innerWrite l.line 104 j.completion none).endJob j).notifyJob j := by
  subst hl he
  simp only [State.finishJob, hvalid, htyp, hwindow, hopen, hclear, beq_self_eq_true, decide_true, Bool.not_false, Bool.and_self, if_true]

theorem State.jobComplete_finished {s u : State} {id : Nat} {m : Met} {j : Job} (hu : u = (s.meet m.errs).flushSpoil id)
    (hjob : u.job? id = some j) (hfinished : j.finished = true) : s.jobComplete id m = u.finishJob j := by
  subst hu
  simp only [State.jobComplete, hjob, hfinished, if_true]

/-! ### Recipes (R272-R275) -/

theorem State.recipeLoad_loads {s u : State} (sess : Nat) {n : Nat} (himage : imageOk (s.oct O.rcp_image) = true)
    (hmoor : s.canMoor (s.ov O.rcp_ctx) = true) (hquota : s.loadedOf (s.ov O.rcp_ctx) < s.ov O.rcp_per_ctx) (hfree : s.freeRecipe = some n)
    (hu : u = s.daymark (s.ov O.rcp_ctx) 2 (natLe 32 (Config.digest 1 0 (s.oct O.rcp_image)))) :
    s.recipeLoad sess = (({ u with jobs := { u.jobs with
      rcps := Tab.put none u.jobs.rcps n (some ⟨s.ov O.rcp_ctx, s.oct O.rcp_image⟩) } } : State).setOv O.rcp_select n sess).setOv O.rcp_result 0 := by
  subst hu
  simp only [State.recipeLoad, himage, hmoor, Nat.not_le.2 hquota, hfree, Bool.not_true, Bool.false_eq_true, if_false]

theorem State.recipeUnload_unloads {s : State} {n : Nat} {r : Rcp} (hnumber : n = 0 ∨ 15 < n) (hloaded : Tab.get none s.jobs.rcps n = some r)
    (hunused : s.jobs.jobs.any (fun j => j.ctx == r.ctx && j.kind == 1 && j.recipe == n) = false) :
    s.recipeUnload n = { s.setOv O.rcp_result 0 with jobs := { s.jobs with rcps := Tab.put none s.jobs.rcps n none } } := by
  have hbuiltin : ¬(1 ≤ n ∧ n ≤ 15) := by omega
  simp only [State.recipeUnload, hbuiltin, hloaded, hunused, Bool.false_eq_true, if_false]

/-! ### The commands -/

theorem exec_jobDbell (s : State) (port vf data : Nat) (keyed : Bool) :
    exec (.jobDbell port vf data keyed) s = .next (s.wake.jobBell port vf data keyed) := rfl

theorem exec_jqEnableWrite (s : State) (qn v : Nat) : exec (.jqEnableWrite qn v) s = .next (s.jqEnable qn v) := rfl

theorem exec_jobFetch (s : State) (c q : Nat) (ecc : List (Nat × Nat × Nat)) (m : Met) :
    exec (.jobFetch c q ecc m) s = .next (s.jobFetch c q ecc m) := rfl

theorem exec_jobFaultTimeout_queue (s : State) (n : Nat) (m : Met) : exec (.jobFaultTimeout 1 n m) s = .next (s.jobTimeout true n m) := rfl

theorem exec_jobFaultTimeout_strip (s : State) (n : Nat) (m : Met) : exec (.jobFaultTimeout 0 n m) s = .next (s.jobTimeout false n m) := rfl

theorem exec_jobPublish (s : State) (id : Nat) : exec (.jobPublish id) s = .next (s.publish id) := rfl

theorem exec_publishComplete (s : State) (id : Nat) : exec (.publishComplete id) s = .next (s.publishDone id) := rfl

theorem exec_jobComplete (s : State) (id : Nat) (m : Met) : exec (.jobComplete id m) s = .next (s.jobComplete id m) := rfl

theorem exec_recipeLoad (s : State) (sess : Nat) : exec (.recipeLoad sess) s = .next (s.recipeLoad sess) := rfl

theorem exec_recipeUnload (s : State) (n : Nat) : exec (.recipeUnload n) s = .next (s.recipeUnload n) := rfl

/-- Settles O28: each clause is the equation of its operation for the queue, the job or the recipe the clause names. -/
theorem queuesJobsAndRecipesComplete : Obligations.QueuesJobsAndRecipesComplete := by
  refine ⟨fun s => ⟨?bell, ?enable, ?fetch, ?queueWaits, ?stripWaits⟩, fun s => ⟨?publish, ?published, ?completed, ?load, ?unload⟩⟩
  case bell =>
    rintro port vf data keyed c u rfl howner hkeyed hquiescing hsweeping
    rw [exec_jobDbell, State.jobBell_rings data howner hkeyed hquiescing hsweeping]
  case enable =>
    intro qn u hu
    rw [exec_jqEnableWrite, exec_jqEnableWrite, State.jqEnable_off, State.jqEnable_on hu]
    exact ⟨rfl, rfl⟩
  case fetch =>
    rintro c q ecc m u qn cva e d v _ j hq hu hqn hawake hactive henable hstate hasleep hwork hnone hroom hcva hwindow hread rfl hlast hfirst hgood hkind
    rw [exec_jobFetch, State.jobFetch_enters hq hu hqn hawake hactive henable hstate hasleep hwork hnone hroom hcva hwindow hread hlast,
      State.tryStart_begins (State.enterJob_last_fail hlast) hfirst hgood hkind]
  case queueWaits =>
    intro n x m hset hwaits
    rw [exec_jobFaultTimeout_queue, State.jobTimeout_queue m hset hwaits]
  case stripWaits =>
    intro n m j x t hset hruns hparked
    rw [exec_jobFaultTimeout_strip, State.jobTimeout_strip m hset hruns hparked]
  case publish =>
    intro id j a b hjob hkind hbegun hpub hfail hcount ha hb hne hexts hstill
    rw [exec_jobPublish, State.publish_commits hjob hkind hbegun hpub hfail hcount ha hb hne hexts hstill, State.addInternals]
  case published =>
    intro id j hjob hpub hgone
    rw [exec_publishComplete, State.publishDone_drained hjob hpub hgone]
  case completed =>
    rintro id m j u e l v w hu hjob hfinished he hvalid htyp hwindow hopen hl hclear rfl rfl
    rw [exec_jobComplete, State.jobComplete_finished hu hjob hfinished, State.finishJob_writes he hvalid htyp hwindow hopen hl hclear,
      State.endJob_eq, State.notifyJob]
  case load =>
    intro sess n u himage hmoor hquota hfree hu
    rw [exec_recipeLoad, State.recipeLoad_loads sess himage hmoor hquota hfree hu]
  case unload =>
    intro n r hnumber hloaded hunused
    rw [exec_recipeUnload, State.recipeUnload_unloads hnumber hloaded hunused]

end Sys2Proof.Machine
end

section
/-! PROOFS. Tender rings and operations (R290, R296-R301, R305, R308, R309, R312): doorbells and descriptors of a ring, the starts of a MIGRATE
and of a DRAIN, a chunk that ends, and the completion of an operation. -/

namespace Sys2Proof.Machine

open Sys2Proof

/-! ### Rings and their descriptors (R296-R299, R301) -/

section Rings

variable {s : State} {ring : Nat}

/-- A doorbell of an enabled ring that does not go back and stays within the ring's size moves its tail (R297). -/
theorem State.trBell_moves {data : Nat} (henable : s.ob O.tr_enable ring = true)
    (hforward : (s.ov O.tr_tail ring + 65536 - s.ov O.tr_head ring) % 65536 ≤ (data % 65536 + 65536 - s.ov O.tr_head ring) % 65536)
    (hfits : (data % 65536 + 65536 - s.ov O.tr_head ring) % 65536 ≤ s.ov O.tr_size ring) :
    s.trBell ring data = s.setOv O.tr_tail (data % 65536) ring := if_pos ⟨henable, hforward, hfits⟩

theorem State.trEnable_written {v : Nat} (hring : ring < 2) (hv : v < 2) : s.trEnable ring v = s.setOv O.tr_enable v ring := if_pos ⟨hring, hv⟩

/-- The operation that the descriptor at a ring's head asks for, as it stands before its form is checked (R298). -/
def State.fetchedOp (s : State) (ring : Nat) (rd : HostRd) : Tend := {
  id := s.tends.nextOp, ring := ring, index := s.ov O.tr_head ring, desc := fitTo 64 rd.data, ctx := fld (fitTo 64 rd.data) 2 2 % 1024, next := 0,
  total := 0, redo := [], running := [], done := 0, fail := 0, poisoned := false, skipped := false, parked := none, asleep := none, remote := [],
  pages := [], started := false, key := 0 }

/-- An operation joins the active ones, and the next will have the number after its own. -/
def State.addOp (s : State) (o : Tend) : State := { s with tends := { s.tends with ops := s.tends.ops ++ [o], nextOp := o.id + 1 } }

/-- The status with which a descriptor's operation begins: BAD_DESC where it breaks its row, none where it moves nothing (R301). -/
def State.fetchStatus (s : State) (o : Tend) : Nat :=
  if (!tendForm o || (o.opc != 8 && ((s.ctx o.ctx).st != .active || s.ov O.owner_port o.ctx != o.ring))) = true then 1
  else if o.count = 0 then 0 else s.startStatus o

/-- A ring that may fetch starts the operation of the descriptor that comes and moves its head (R298). -/
theorem State.tenderFetch_starts {rd : HostRd} (hring : ring < 2) (hawake : s.pwr.entering = false) (henable : s.ob O.tr_enable ring = true)
    (hwork : s.ov O.tr_head ring ≠ s.ov O.tr_tail ring) (hread : rd.err = false) (hroom : (s.tends.ops.filter (fun o => o.ring == ring)).length < 16)
    (hbarrier : bit (fld (fitTo 64 rd.data) 1 1) 1 = true → s.tends.ops.filter (fun o => o.ring == ring) = []) :
    s.tenderFetch ring rd = (s.addOp { s.fetchedOp ring rd with fail := s.fetchStatus (s.fetchedOp ring rd) }).setOv O.tr_head
      ((s.ov O.tr_head ring + 1) % 65536) ring := by
  have hmay : ¬(s.pwr.entering = true ∨ 2 ≤ ring ∨ (!s.ob O.tr_enable ring) = true ∨ s.ov O.tr_head ring = s.ov O.tr_tail ring ∨
      16 ≤ (s.tends.ops.filter (fun o => o.ring == ring)).length ∨ rd.err = true ∨
      (bit (fld (fitTo 64 rd.data) 1 1) 1 = true ∧ s.tends.ops.filter (fun o => o.ring == ring) ≠ [])) := by
    simp only [hawake, henable, hwork, hread, Nat.not_le.mpr hring, Nat.not_le.mpr hroom, Bool.not_true, Bool.false_eq_true, false_or]
    exact fun ⟨hset, hactive⟩ => hactive (hbarrier hset)
  exact if_neg hmay

/-- A descriptor that obeys its row, of an ACTIVE context that owns the ring or of a DRAIN, is judged by what its operation meets as it starts. -/
theorem State.fetchStatus_good {o : Tend} (hform : tendForm o = true)
    (howner : o.opc = 8 ∨ ((s.ctx o.ctx).st = .active ∧ s.ov O.owner_port o.ctx = o.ring)) (hcount : o.count ≠ 0) :
    s.fetchStatus o = s.startStatus o := by
  have hgood : (!tendForm o || (o.opc != 8 && ((s.ctx o.ctx).st != .active || s.ov O.owner_port o.ctx != o.ring))) = false := by
    obtain hdrain | ⟨hactive, hport⟩ := howner
    · simp [hform, hdrain]
    · simp [hform, hactive, hport]
  simp only [State.fetchStatus, hgood, hcount, Bool.false_eq_true, if_false]

end Rings

/-! ### The starts of a MIGRATE and of a DRAIN (R302, R305, R308) -/

section Starts

variable {s : State} {id : Nat} {o : Tend} (hop : s.op? id = some o) (hnew : o.started = false) (hfail : o.fail = 0) (hcount : o.count ≠ 0)
include hop hnew hfail hcount

/-- With its pages translated, none of the frames to move busy and a destination for each, a MIGRATE has its frames to move. -/
theorem State.runMigrate_readies {te : Nat} {ecc : List (Nat × Nat × Nat)} {trs : List (Nat × Entry)} {u : State} {fs mv : List Nat} (hopc : o.opc = 2)
    (hawake : o.asleep = none) (hpages : s.chunkPages o te ((List.range o.count).map (fun i => (o.src / 2 ^ 26 + i, 1))) ecc = (some trs, u))
    (hfs : fs = frameSet (trs.map (fun p => p.2.frame))) (hmv : mv = fs.filter (fun f => tierOf f != o.migPlace.2))
    (hidle : mv.any (fun f => (u.migOf f).isSome || (u.frame f).rcd.isSome) = false) (hfits : u.movesFit o.migPlace.2 o.migPlace.1 mv [] = true) :
    s.runMigrate id te ecc = u.updOp id (fun y => { y with started := true, pages := mv, skipped := decide (mv.length < fs.length) }) := by
  subst hfs hmv
  simp only [State.runMigrate, hop, hopc, hnew, hfail, hcount, hawake, hpages, hidle, hfits, ne_eq, not_true_eq_false, Option.isSome_none,
    Bool.false_eq_true, Bool.not_true, or_self, if_false]

theorem State.runDrain_starts {u : State} (hopc : o.opc = 8) (hfits : s.startDrain (o.arg % 16) id false = (0, u)) :
    s.runDrain id = u.updOp id (fun y => { y with started := true }) := by
  simp only [State.runDrain, hop, hopc, hnew, hfail, hcount, hfits, ne_eq, not_true_eq_false, Bool.false_eq_true, or_self, if_false]

end Starts

/-! ### The ends of chunks and operations (R290, R300, R449) -/

section Ends

variable {s : State} {id : Nat} {o : Tend} (hop : s.op? id = some o)
include hop

/-- A chunk that runs on the engine and whose exchange is answered is counted. -/
theorem State.chunkDone_counts {te chunk : Nat} {m : Met} (hruns : o.running.contains (chunk, te) = true)
    (hanswered : o.remote.any (fun r => r.chunk == chunk) = false) :
    s.chunkDone te id chunk m = (s.updOp id (fun y => { y with
      running := y.running.filter (· != (chunk, te)), done := y.done + 1 })).bump O.te_chunks 0 te := by
  simp only [State.chunkDone, hop, hruns, hanswered, Bool.not_false, and_self, if_true]

theorem State.tenderComplete_finished {u : State} (hfinished : s.opFinished o = true)
    (hu : u = ((if o.opc = 7 ∧ o.fail = 0 ∧ o.count ≠ 0 then s.daymark o.ctx 3 (slice 64 32 o.desc) else s).writeCompletion o).dropOp id) :
    s.tenderComplete id = if o.notify && (o.opc != 8 || (u.ctx o.ctx).st == .active) then u.raiseWork o.ctx o.vector 1 else u := by
  subst hu
  simp only [State.tenderComplete, hop, hfinished, if_true]

end Ends

/-! ### The commands -/

theorem exec_trDbell (s : State) (ring data : Nat) : exec (.trDbell ring data) s = .next (s.wake.trBell ring data) := rfl

theorem exec_trEnableWrite (s : State) (ring v : Nat) : exec (.trEnableWrite ring v) s = .next (s.trEnable ring v) := rfl

theorem exec_tenderFetch (s : State) (ring : Nat) (rd : HostRd) : exec (.tenderFetch ring rd) s = .next (s.tenderFetch ring rd) := rfl

theorem exec_tenderMigrate (s : State) (id te : Nat) (ecc : List (Nat × Nat × Nat)) :
    exec (.tenderMigrate id te ecc) s = .next ((s.ungate 2 te).runMigrate id te ecc) := rfl

theorem exec_drain (s : State) (id : Nat) : exec (.drain id) s = .next (s.runDrain id) := rfl

theorem exec_tenderComplete (s : State) (id : Nat) : exec (.tenderComplete id) s = .next (s.tenderComplete id) := rfl

/-- Settles O29: each clause is the equation of its operation for the ring, the operation or the chunk the clause names. -/
theorem tenderOperationsRun : Obligations.TenderOperationsRun := by
  refine ⟨fun s ring => ⟨?bell, ?enable, ?fetch⟩, fun s => ⟨?migrate, ?drain, ?chunk, ?complete⟩⟩
  case bell =>
    rintro data u rfl henable hforward hfits
    rw [exec_trDbell, State.trBell_moves henable hforward hfits]
  case enable =>
    intro v hring hv
    rw [exec_trEnableWrite, State.trEnable_written hring hv]
  case fetch =>
    rintro rd o act hring hawake henable hwork hread rfl hroom hbarrier ho hform howner hcount
    obtain rfl : o = s.fetchedOp ring rd := ho
    rw [exec_tenderFetch, State.tenderFetch_starts hring hawake henable hwork hread hroom hbarrier,
      State.fetchStatus_good hform howner hcount, State.addOp]
  case migrate =>
    rintro id te ecc o trs u fs mv v rfl hop hopc hnew hfail hcount hawake hpages hfs hmv hidle hfits
    rw [exec_tenderMigrate, State.runMigrate_readies hop hnew hfail hcount hopc hawake hpages hfs hmv hidle hfits]
  case drain =>
    intro id o u hop hopc hnew hfail hcount hfits
    rw [exec_drain, State.runDrain_starts hop hnew hfail hcount hopc hfits]
  case chunk =>
    intro te id chunk m o hop hruns hanswered
    rw [exec_tenderChunkDone, State.chunkDone_counts hop hruns hanswered]
  case complete =>
    intro id o u hop hfinished hu
    rw [exec_tenderComplete, State.tenderComplete_finished hop hfinished hu]

end Sys2Proof.Machine
end

section
/-! PROOFS. Chunks that engines move (R290-R295, R302-R304, R309-R312, R317, R422): COPY, PUT, GET, HOST_IN, HOST_OUT and UNWRAP, each of a chunk that
the engine's round robin picks while the chunk's lines are free. -/

namespace Sys2Proof.Machine

open Sys2Proof

/-! ### Chunks between windows and other nodes (R290, R291, R302, R304, R312, R422) -/

section Windows

variable {s v : State} {te : Nat} {ecc : List (Nat × Nat × Nat)} {m : Met} {o : Tend} {k : Nat} {d : Drr} {trs : List (Nat × Entry)}

theorem State.runCopy_copies {a b : List Want} (hpick : (s.meet m.errs).pickChunk te 1 = some (o, k, d))
    (hpages : (s.meet m.errs).chunkPages o te (needPages (o.chunkRanges k)) ecc = (some trs, v)) (ha : a = chunkWants trs o.ctx (o.chunkRanges k) 1)
    (hb : b = chunkWants trs o.ctx (o.chunkRanges k) 2) (hclear : v.LinesClear o.ctx a b) :
    s.runCopy te ecc m = (v.copyPairs o.id (a.zip b)).chunkTaken o k te d := by
  subst ha hb
  simp only [State.runCopy, hpick, hpages, State.withLines_clear hclear]

/-- With a BLK port, the chunk of a PUT is read and leaves in its parts (R312). -/
theorem State.sendPut_sends {s x : State} {xid p : Nat} {lines : List Want} {r : List Slot × List LineVal × State} (hr : r = s.readLines lines)
    (hx : x = r.2.1.foldl (fun (t : State) v => t.noteCopied o.id v) r.2.2) (hport : x.blkPort k = some p) :
    s.sendPut o k xid lines = x.sendParts p (x.chunkHdr o k xid 1) (partsOf r.1) := by
  subst hr hx
  simp only [State.sendPut, hport]

/-- A chunk of a PUT whose bytes the context's shaper holds is taken and sent under a fresh exchange number. -/
theorem State.runPut_sends {a : List Want} (hpick : (s.meet m.errs).pickChunk te 3 = some (o, k, d))
    (hpages : (s.meet m.errs).chunkPages o te (needPages (o.chunkRanges k)) ecc = (some trs, v)) (ha : a = chunkWants trs o.ctx (o.chunkRanges k) 1)
    (hshaper : v.shaperHas o.ctx = true) (hclear : v.LinesClear o.ctx a []) :
    s.runPut te ecc m = (((v.shaperTake o.ctx (0, o.id, k)).chunkTaken o k te d).openRemote o.id k).sendPut o k v.xid a := by
  subst ha
  simp only [State.runPut, hpick, hpages, hshaper, State.withLines_clear hclear, Bool.not_true, Bool.false_eq_true, if_false]

/-- With a BLK port, the chunk of a GET is asked for (R312). -/
theorem State.sendGet_asks {s : State} {xid p : Nat} (hport : s.blkPort k = some p) :
    s.sendGet o k xid = s.send p { chan := 3, hdr := blkPack (s.chunkHdr o k xid 2), slots := [] } := by
  simp only [State.sendGet, hport]

theorem State.runGet_asks (hpick : s.pickChunk te 4 = some (o, k, d))
    (hpages : s.chunkPages o te (needPages (o.chunkRanges k)) ecc = (some trs, v)) :
    s.runGet te ecc = ((v.chunkTaken o k te d).openRemote o.id k).sendGet o k v.xid := by
  simp only [State.runGet, hpick, hpages]

end Windows

/-! ### Chunks from and to the host (R309-R311) -/

section Hosts

variable {s : State} {te : Nat} {m : Met} {o : Tend} {k : Nat} {d : Drr} {x : Ext}

/-- Half `h` of line `i` of a chunk as the host's memory gives it: poison of a host read, or its bytes, of an enclave's page deciphered (R309, R311, R456). -/
def State.hostWord (s : State) (o : Tend) (k : Nat) (rd : HostRd) (i h : Nat) : Cw :=
  if rd.poison.getD (2 * i + h) false then .poison 8 else .data (slice (64 * h) 64 (if s.hostCipher o.ctx then
    hostLine 10 (s.ctx o.ctx).hostKey (o.src + k * 4096 + 128 * i) (slice (128 * i) 128 rd.data) else slice (128 * i) 128 rd.data))

theorem State.runHostIn_lands {rd : HostRd} (hpick : (s.meet m.errs).pickChunk te 5 = some (o, k, d))
    (hlive : (s.meet m.errs).liveExt o.handle = some x) (hmoored : x.st = .moored) (hread : rd.err = false)
    (hclear : (s.meet m.errs).LinesClear o.ctx [] ((o.hostChunk x k).map ownWant)) :
    s.runHostIn te rd m = ((s.meet m.errs).landLines o.id ((o.hostChunk x k).zip ((List.range 32).map (fun i =>
      (⟨(s.meet m.errs).hostWord o k rd i 0, (s.meet m.errs).hostWord o k rd i 1⟩ : LineVal))))).chunkTaken o k te d := by
  simp only [State.runHostIn, hpick, hlive, hmoored, hread, State.withLines_clear hclear, ne_eq, not_true_eq_false, Bool.false_eq_true, if_false,
    State.hostWord]

theorem State.runHostOut_writes (hpick : (s.meet m.errs).pickChunk te 6 = some (o, k, d)) (hlive : (s.meet m.errs).liveExt o.handle = some x)
    (hmoored : x.st = .moored) (hclear : (s.meet m.errs).LinesClear o.ctx ((o.hostChunk x k).map ownWant) []) :
    s.runHostOut te false m = ((s.meet m.errs).hostLines o ((s.meet m.errs).hostCipher o.ctx) (o.dst + k * 4096) (o.hostChunk x k)).chunkTaken
      o k te d := by
  simp only [State.runHostOut, hpick, hlive, hmoored, State.withLines_clear hclear, ne_eq, not_true_eq_false, Bool.false_eq_true, if_false]

end Hosts

/-! ### UNWRAP (R317) -/

section Unwrap

variable {s v : State} {te : Nat} {keyOk : Bool} {plain : Bytes} {ecc : List (Nat × Nat × Nat)} {m : Met} {o : Tend} {k : Nat} {d : Drr}
  {trs : List (Nat × Entry)} {r : Bytes × Bool × State}

theorem State.runUnwrap_head {tagOk : Bool} (hpick : (s.meet m.errs).pickChunk te 7 = some (o, k, d)) (hnew : o.started = false) :
    s.runUnwrap te keyOk tagOk plain ecc m = (s.meet m.errs).unwrapHead o te d keyOk ecc := by
  simp only [State.runUnwrap, hpick, hnew, Bool.false_eq_true, if_false]

theorem State.runUnwrap_chunk {tagOk : Bool} (hpick : (s.meet m.errs).pickChunk te 7 = some (o, k, d)) (hstarted : o.started = true) :
    s.runUnwrap te keyOk tagOk plain ecc m = (s.meet m.errs).unwrapChunk o k te d tagOk plain ecc := by
  simp only [State.runUnwrap, hpick, hstarted, if_true]

/-- The header that is read starts the content, or ends the operation with WRAP_BAD. -/
theorem State.unwrapHead_reads (hpages : s.chunkPages o te (needPages (o.chunkRanges 0)) ecc = (some trs, v))
    (hclear : v.LinesClear o.ctx (chunkWants trs o.ctx (o.chunkRanges 0) 1) []) (hr : r = v.readCva o.ctx trs [(o.src, 8192)]) :
    s.unwrapHead o te d keyOk ecc = if r.2.1 = false ∧ v.wrapGood o keyOk r.1 = true then (r.2.2.charge te d).updOp o.id
      (fun y => { y with started := true, key := fld r.1 56 8, desc := y.desc ++ slice 72 32 r.1 }) else r.2.2.failOp o.id 0xA := by
  subst hr
  simp only [State.unwrapHead, hpages, State.withLines_clear hclear, Bool.and_eq_true, Bool.not_eq_true']

/-- The lines of a chunk's plaintext, at the lines that it is written to. -/
def plainLines (ws : List Want) (plain : Bytes) : List (Nat × LineVal) := ws.zipIdx.map (fun p =>
  (p.1.line, (⟨.data (slice (128 * p.2) 64 plain), .data (slice (128 * p.2 + 64) 64 plain)⟩ : LineVal)))

section Content

variable (hpages : s.chunkPages o te (needPages ((o.dst, o.key, 2) :: o.chunkRanges k)) ecc = (some trs, v))
  (hclear : v.LinesClear o.ctx (chunkWants trs o.ctx (o.chunkRanges k) 1) [])
  (hr : r = v.readCva o.ctx trs (((o.chunkRanges k).filter (fun x => x.2.2 == 1)).map (fun x => (x.1, x.2.1))))
include hpages hclear hr

/-- Content free of poison whose tags fit is written as plaintext. -/
theorem State.unwrapChunk_lands (hsound : r.2.1 = false) (hfree : r.2.2.LinesClear o.ctx [] (chunkWants trs o.ctx (o.chunkRanges k) 2)) :
    s.unwrapChunk o k te d true plain ecc = (r.2.2.landLines o.id (plainLines (chunkWants trs o.ctx (o.chunkRanges k) 2) plain)).chunkTaken o k te d := by
  subst hr
  simp only [State.unwrapChunk, hpages, State.withLines_clear hclear, hsound, State.withLines_clear hfree, plainLines, Bool.not_false, Bool.and_self,
    if_true]

/-- A tag that does not fit has the whole destination written with zeros and ends the operation with WRAP_BAD. -/
theorem State.unwrapChunk_zeroes (hfree : r.2.2.LinesClear o.ctx [] (wantsOf trs o.ctx [(o.dst, o.key)])) :
    s.unwrapChunk o k te d false plain ecc =
      (r.2.2.zeroLines ((wantsOf trs o.ctx [(o.dst, o.key)]).map (·.line))).failOp o.id 0xA := by
  subst hr
  simp only [State.unwrapChunk, hpages, State.withLines_clear hclear, State.withLines_clear hfree, Bool.false_and, Bool.false_eq_true, if_false]

end Content

end Unwrap

/-! ### The commands -/

theorem exec_tenderCopy (s : State) (te : Nat) (ecc : List (Nat × Nat × Nat)) (m : Met) :
    exec (.tenderCopy te ecc m) s = .next ((s.ungate 2 te).runCopy te ecc m) := rfl

theorem exec_tenderPut (s : State) (te : Nat) (ecc : List (Nat × Nat × Nat)) (m : Met) :
    exec (.tenderPut te ecc m) s = .next ((s.ungate 2 te).runPut te ecc m) := rfl

theorem exec_tenderGet (s : State) (te : Nat) (ecc : List (Nat × Nat × Nat)) :
    exec (.tenderGet te ecc) s = .next ((s.ungate 2 te).runGet te ecc) := rfl

theorem exec_hostIn (s : State) (te : Nat) (rd : HostRd) (m : Met) : exec (.hostIn te rd m) s = .next ((s.ungate 2 te).runHostIn te rd m) := rfl

theorem exec_hostOut (s : State) (te : Nat) (err : Bool) (m : Met) :
    exec (.hostOut te err m) s = .next ((s.ungate 2 te).runHostOut te err m) := rfl

theorem exec_unwrap (s : State) (te : Nat) (keyOk tagOk : Bool) (plain : Bytes) (ecc : List (Nat × Nat × Nat)) (m : Met) :
    exec (.unwrap te keyOk tagOk plain ecc m) s = .next ((s.ungate 2 te).runUnwrap te keyOk tagOk plain ecc m) := rfl

/-- Settles O30: each clause is the equation of its kind of operation for the chunk that the engine's round robin picks. -/
theorem enginesMoveChunks : Obligations.EnginesMoveChunks := by
  rintro s u te ecc m o k d rs rfl rfl
  refine ⟨?copy, ?put, ?get, ?hostIn, ?hostOut, fun hpick keyOk plain => ⟨?head, ?content⟩⟩
  case copy =>
    intro v trs a b hpick hpages ha hb hclear
    rw [exec_tenderCopy, State.runCopy_copies hpick hpages ha hb hclear]
  case put =>
    rintro v trs a w r x p hpick hpages ha hshaper hclear rfl hr hx hport
    rw [exec_tenderPut, State.runPut_sends hpick hpages ha hshaper hclear, State.sendPut_sends hr hx hport]
  case get =>
    rintro v trs w p hpick hpages rfl hport
    rw [exec_tenderGet, State.runGet_asks hpick hpages, State.sendGet_asks hport]
  case hostIn =>
    rintro rd x val hpick hlive hmoored hread rfl hclear
    rw [exec_hostIn]
    exact congrArg Host.Outcome.next (State.runHostIn_lands hpick hlive hmoored hread hclear)
  case hostOut =>
    intro x hpick hlive hmoored hclear
    rw [exec_hostOut, State.runHostOut_writes hpick hlive hmoored hclear]
  case head =>
    intro v trs r tagOk hnew hpages hclear hr
    rw [exec_unwrap, State.runUnwrap_head hpick hnew, State.unwrapHead_reads hpages hclear hr]
  case content =>
    rintro v trs r ws all hstarted hpages hclear rfl rfl hr
    rw [exec_unwrap, exec_unwrap, State.runUnwrap_chunk hpick hstarted, State.runUnwrap_chunk hpick hstarted]
    refine ⟨fun hsound hfree => ?_, fun hfree => ?_⟩
    · rw [State.unwrapChunk_lands hpages hclear hr hsound hfree, plainLines]
    · rw [State.unwrapChunk_zeroes hpages hclear hr hfree]

end Sys2Proof.Machine
end

section
/-! PROOFS. Migrations and placement (R305-R307, R341-R343): a record taken, the ends of a copy pass and of the final pass, the switch of the
extent's frames, the end of the move, and placement targets. -/

namespace Sys2Proof.Machine

open Sys2Proof

/-! ### A record is taken (R306) -/

/-- The first of an operation's pages that may move takes a record with its destination and leaves the pages still to move. -/
theorem State.migrationStart_page {s : State} {n f : Nat} {o : Tend} {d : Nat × Option Nat} (hop : s.op? n = some o)
    (hpage : o.pages.find? s.canMove = some f) (hdest : s.moveDest f o.migPlace.2 o.migPlace.1 [] = some d) :
    s.migrationStart 0 n = (s.beginMove f 0 n d).updOp n (fun y => { y with pages := y.pages.filter (· != f) }) := by
  simp only [State.migrationStart, hop, hpage, hdest]

/-! ### The ends of passes (R307 steps 2 to 6) -/

section Passes

variable {s : State} {f : Nat} {g : Mig} (hmig : s.migOf f = some g) (htodo : g.todo = [])
include hmig htodo

/-- Few dirty chunks, or the last pass allowed: the write hold begins. -/
theorem State.passEnd_holds {ds : List Nat} (hphase : g.phase = 1) (hds : ds = bitList g.dirty 16384)
    (hlast : ds.length ≤ s.ov O.mig_final_chunks ∨ s.ov O.mig_passes ≤ g.passes + 1) :
    s.passEnd f = s.updMig f (fun x => { x with passes := x.passes + 1, phase := 2, walk := 0 }) := by
  simp only [State.passEnd, hmig, hphase, htodo, ← hds, hlast, ne_eq, not_true_eq_false, or_self, if_false, if_true]

/-- Many dirty chunks with passes left: another pass goes over them. -/
theorem State.passEnd_repeats {ds : List Nat} (hphase : g.phase = 1) (hds : ds = bitList g.dirty 16384)
    (hmany : s.ov O.mig_final_chunks < ds.length) (hleft : g.passes + 1 < s.ov O.mig_passes) :
    s.passEnd f = s.updMig f (fun x => { x with passes := x.passes + 1, todo := ds }) := by
  simp only [State.passEnd, hmig, hphase, htodo, ← hds, Nat.not_le.mpr hmany, Nat.not_le.mpr hleft, ne_eq, not_true_eq_false, or_self, if_false]

/-- Chunks written meanwhile make the final pass go on. -/
theorem State.finalPassEnd_goes_on {m : Met} (hphase : g.phase = 3) (hdirty : g.dirty ≠ 0) :
    s.finalPassEnd f m = (s.meet m.errs).updMig f (fun x => { x with todo := bitList x.dirty 16384 }) := by
  simp only [State.finalPassEnd, hmig, hphase, htodo, hdirty, ne_eq, not_true_eq_false, not_false_eq_true, or_self, if_false, if_true]

theorem State.finalPassEnd_switches {m : Met} (hphase : g.phase = 3) (hclean : g.dirty = 0) :
    s.finalPassEnd f m = (s.meet m.errs).switchFrames g := by
  simp only [State.finalPassEnd, hmig, hphase, htodo, hclean, ne_eq, not_true_eq_false, or_self, if_false]

end Passes

/-- An extent whose frame at a position has moved: the mirror list changes, or the frame list with the mirror that moved with it. -/
def Ext.switched (x : Ext) (pos : Nat) (g : Mig) : Ext :=
  if g.isMirror then { x with mirrors := x.mirrors.set pos g.dst } else { x with
    frames := x.frames.set pos g.dst, mirrors := (match g.mdst with | some d => x.mirrors.set pos d | none => x.mirrors) }

/-- The switch: the extent's lists change, and every window that may name the frame has its commit. -/
theorem State.switchFrames_eq (s : State) (g : Mig) :
    s.switchFrames g = ((s.setExt (s.frame g.src).ext ((s.ext (s.frame g.src).ext).switched (s.frame g.src).pos g)).addInternals (.migration g.src)
      (s.rewriteWindows (s.moveWindows g))).updMig g.src (fun y => { y with phase := 4, todo := [] }) := rfl

/-! ### The end of a move (R307 step 7) -/

/-- A MIGRATE's move of a frame without a mirror, with no target of a placement to keep, gives its record up and frees the source. -/
theorem State.migrationDone_frees {s : State} {f : Nat} {g : Mig} (hmig : s.migOf f = some g) (hphase : g.phase = 4)
    (hdrained : s.chart.commits.any (fun k => k.internal == some (.migration f)) = false) (hkind : g.kind = 0) (hmirror : g.mdst = none)
    (htarget : (s.frame f).target = 0) :
    s.migrationDone f = ((({ s with migs := s.migs.filter (fun m => m.src != f) } : State).freeFrame f).bump O.migrations_done).mirrorFields g.dst := by
  have hplacement : g.kind ≠ 1 := by omega
  have hdrain : g.kind ≠ 2 := by omega
  have hrelayout : g.kind ≠ 3 := by omega
  simp only [State.migrationDone, hmig, hphase, hdrained, hplacement, hdrain, hrelayout, hmirror, htarget, ne_eq, not_true_eq_false, Bool.false_eq_true,
    or_self, ite_self, false_and, if_false, decide_false, Bool.false_and]

/-! ### Placement (R341-R343) -/

section Placement

variable {s : State}

theorem State.placeStart_first (henable : s.ob O.place_enable = true) (hroom : (s.migs.filter (fun g => g.kind == 1)).length < s.ov O.place_max) :
    s.placeStart = s.placeFirst s.placeable := if_pos ⟨henable, hroom⟩

/-- PLACE of pages within the window of an ACTIVE context sets their targets (R341). -/
theorem State.place_sets (hctx : s.ov O.place_ctx < 1024) (hwindow : s.ov O.place_vpn + s.ov O.place_count ≤ s.ov O.win_count (s.ov O.place_ctx))
    (hactive : (s.ctx (s.ov O.place_ctx)).st = .active) : s.place =
      (s.placePages (s.ov O.place_ctx) (s.ov O.place_target) (s.ov O.place_vpn) (s.ov O.place_count)).setOv O.place_result 0 := by
  simp only [State.place, Nat.not_le.mpr hctx, Nat.not_lt.mpr hwindow, hactive, ne_eq, not_true_eq_false, or_self, and_false, if_false]

end Placement

/-! ### The commands -/

theorem exec_migrationStart (s : State) (kind n : Nat) : exec (.migrationStart kind n) s = .next (s.migrationStart kind n) := rfl

theorem exec_migrationPassEnd (s : State) (f : Nat) : exec (.migrationPassEnd f) s = .next (s.passEnd f) := rfl

theorem exec_migrationFinalPassEnd (s : State) (f : Nat) (m : Met) : exec (.migrationFinalPassEnd f m) s = .next (s.finalPassEnd f m) := rfl

theorem exec_migrationDone (s : State) (f : Nat) : exec (.migrationDone f) s = .next (s.migrationDone f).rekeyChecks := rfl

theorem exec_placementMigrationStart (s : State) : exec .placementMigrationStart s = .next s.placeStart := rfl

theorem exec_place (s : State) : exec .place s = .next s.place := rfl

theorem exec_placeEnableWrite (s : State) (v : Nat) : exec (.placeEnableWrite v) s = .next (s.setOv O.place_enable v) := rfl

/-- Settles O31: each clause is the equation of its operation for the migration or the pages the clause names. -/
theorem migrationRowsComplete : Obligations.MigrationRowsComplete := by
  intro s
  refine ⟨?start, ?pass, ?final, ?done, ?placement, ?place, exec_placeEnableWrite s⟩
  case start =>
    intro n o f d hop hpage hdest
    rw [exec_migrationStart, State.migrationStart_page hop hpage hdest]
  case pass =>
    intro f g ds hmig hphase htodo hds
    rw [exec_migrationPassEnd]
    refine ⟨fun hlast => ?_, fun hmany hleft => ?_⟩
    · rw [State.passEnd_holds hmig htodo hphase hds hlast]
    · rw [State.passEnd_repeats hmig htodo hphase hds hmany hleft]
  case final =>
    rintro f g m u r x v hmig hphase htodo rfl rfl rfl rfl
    rw [exec_migrationFinalPassEnd]
    refine ⟨fun hdirty => ?_, fun hclean => ?_⟩
    · rw [State.finalPassEnd_goes_on hmig htodo hphase hdirty]
    · rw [State.finalPassEnd_switches hmig htodo hphase hclean]
      exact congrArg Host.Outcome.next (State.switchFrames_eq _ g)
  case done =>
    rintro f g u hmig hphase hdrained hkind hmirror htarget rfl
    rw [exec_migrationDone, State.migrationDone_frees hmig hphase hdrained hkind hmirror htarget]
  case placement =>
    intro henable hroom
    rw [exec_placementMigrationStart, State.placeStart_first henable hroom]
  case place =>
    intro hctx hwindow hactive
    rw [exec_place, State.place_sets hctx hwindow hactive]

end Sys2Proof.Machine
end

section
/-! PROOFS. Sweeps, shootdowns and scrubs (R293-R295, R319-R331, R375, R378, R390, R395-R399): a frame takes a sweep record, its chunks and its end,
the acknowledgements of units, corrected write-backs, rate buckets and merge holds, and the operator's scrub. -/

namespace Sys2Proof.Machine

open Sys2Proof

/-! ### Sweeps of frames (R293-R295, R319-R328) -/

section Sweeps

variable {s u : State} {i : Nat} {w : Sweep}

/-- The first pending frame takes a free record, and its held write-backs are then written (R321, R322). -/
theorem State.sweepTake_takes {f : Nat} (hpending : s.sweepQueue.head? = some f) (hrecord : s.takeRecord f = some u) :
    s.sweepTake = u.settleExempt ((u.coh.merge.filter (fun p => p.2.exempt && frameOf (p.1 * 128) == f)).map (·.1)) := by
  simp only [State.sweepTake, hpending, hrecord]

/-- An engine whose round robin serves the frame's owner does the sweep's chunk and is charged for it (R293, R294). -/
theorem State.sweepChunk_sweeps {te k : Nat} {m : Met} {d : Drr} (hu : u = s.meet m.errs) (hsweep : u.sweepers.find? (fun p => p.1 == i) = some (k, w))
    (hpick : u.pickCtx te = some (w.ctx, d)) (hserves : u.slcServes (hsLine (w.frame * 2 ^ 19 + w.mark)) = true) :
    s.sweepChunk te i m = ((u.sweepStep i w).charge te d).bump O.te_chunks 0 te := by
  subst hu
  simp only [State.sweepChunk, hsweep, hpick, hserves, and_self, if_true]

/-- A rekey reads the chunk under the old slot, passes it, stores it under the new and sends it to a partner (R315, R327). -/
theorem State.sweepStep_rekey {q : List (Nat × Cw) × State} {ppa : Nat} (hrekey : w.rekey = true) (hppa : ppa = w.frame * 2 ^ 26 + w.mark * 128)
    (hq : q = s.readCws ((List.range 64).map (fun k => ppa / 64 + k))) :
    s.sweepStep i w = (frameLines w.frame (w.mark / 32)).foldl (fun t l => t.peerLine l 0) ((q.2.passChunk i w).storeCws q.1) := by
  subst hppa hq
  simp only [State.sweepStep, hrekey, if_true]

/-- A scrub zero-fills the chunk where its bit is clear and passes it (R322). -/
theorem State.sweepStep_scrub {ppa : Nat} (hscrub : w.rekey = false) (hppa : ppa = w.frame * 2 ^ 26 + w.mark * 128) :
    s.sweepStep i w =
      ((if s.scrubbing ppa = true then s.zeroChunk ppa else s).settleExempt (frameLines w.frame (w.mark / 32))).passChunk i w := by
  subst hppa
  simp only [State.sweepStep, hscrub, Bool.false_eq_true, if_false]

section Done

variable {k : Nat} (hsweep : s.chart.sweeps.find? (fun p => p.1 == i) = some (k, w)) (hend : 524288 ≤ w.mark)
  (hu : u = ({ s with chart := { s.chart with sweeps := Tab.del i s.chart.sweeps } } : State))
include hsweep hend hu

/-- The end of a rekeyed frame: its record is free and it is in the new slot (R328). -/
theorem State.sweepFrameDone_rekey (hrekey : w.rekey = true) : s.sweepFrameDone i = (u.setFrame w.frame { s.frame w.frame with
    rcd := none, rekey := false, slot := 1 - (s.frame w.frame).slot }).rekeyCheck w.ctx := by
  subst hu
  simp only [State.sweepFrameDone, hsweep, Nat.not_lt.mpr hend, hrekey, if_false, if_true]

/-- The end of a scrubbed frame: its record is free and nothing of it is pending (R319). -/
theorem State.sweepFrameDone_scrub (hscrub : w.rekey = false) : s.sweepFrameDone i = u.setFrame w.frame { s.frame w.frame with
    rcd := none, scrub := false, chunks := 0, touched := false } := by
  subst hu
  simp only [State.sweepFrameDone, hsweep, Nat.not_lt.mpr hend, hscrub, Bool.false_eq_true, if_false]

end Done

end Sweeps

/-- A tile or engine with a unit that has not acknowledged is fenced, and the withdrawal goes on (R331). -/
theorem State.ackMissed_fences {s : State} {n : Nat} {m : Met} (hn : n < 80) (hwaits : s.chart.commits.any (fun k => k.acks.testBit n) = true)
    (hphys : s.physOf (if n < 64 then 1 else 2) (if n < 64 then n else n - 64) ≠ 255) :
    s.ackMissed n m = (s.unitFence (if n < 64 then 1 else 2) (s.physOf (if n < 64 then 1 else 2) (if n < 64 then n else n - 64)) m 4).shootdownAck n := by
  simp only [State.ackMissed, Nat.not_le.mpr hn, hwaits, hphys, Bool.not_true, Bool.false_eq_true, or_self, if_false]

/-! ### Corrected code words, rate buckets and merge holds (R375, R378, R390) -/

/-- A corrected code word whose line has not been written since is written back. -/
theorem State.ceWriteback_writes {s : State} {cw : Nat} (hwaits : s.ces.contains cw = true) (hcorrected : Tab.get 0 s.dramBad cw < 256) :
    s.ceWriteback cw = { s with ces := s.ces.filter (· != cw), dramBad := Tab.put 0 s.dramBad cw 0 } := by
  simp only [State.ceWriteback, hwaits, hcorrected, if_true]

/-- An entry that no sweep keeps is written at its hold, half by half. -/
theorem State.mergeExpire_writes {s : State} {line : Nat} {e : Merge} (hentry : s.mergeAt line = some e) (hexempt : e.exempt = false) :
    s.mergeExpire line = (((s.setMerge line { e with mask := 0 }).pageHint line true 0).rmwHalf line 0 e).rmwHalf line 1 e := by
  simp only [State.mergeExpire, State.flushMerge, hentry, hexempt, Bool.false_eq_true, if_false]

/-! ### The operator's scrub (R395-R399) -/

section Scrub

variable {s : State}

theorem State.scrubStart_busy (hruns : s.scrub.running = true) : s.scrubStart = (2, s) := if_pos hruns

section Idle

variable (hidle : s.scrub.running = false)
include hidle

theorem State.scrubStart_bad
    (hbad : s.ov O.scrub_base % 4096 ≠ 0 ∨ s.ov O.scrub_len % 4096 ≠ 0 ∨ 200704 * 2 ^ 26 < s.ov O.scrub_base + s.ov O.scrub_len) :
    s.scrubStart = (1, { s with scrub := { Scrub.start (s.ov O.scrub_base) (s.ov O.scrub_len) with status := 1, running := false } }) := by
  simp only [State.scrubStart, hidle, hbad, Bool.false_eq_true, if_false, if_true]

/-- A scrub of a good range begins, or is empty. -/
theorem State.scrubStart_good (hbase : s.ov O.scrub_base % 4096 = 0) (hlen : s.ov O.scrub_len % 4096 = 0)
    (hrange : s.ov O.scrub_base + s.ov O.scrub_len ≤ 200704 * 2 ^ 26) :
    s.scrubStart = if s.ov O.scrub_len = 0 then
        (0, { s with scrub := { Scrub.start (s.ov O.scrub_base) (s.ov O.scrub_len) with empty := true, running := false } })
      else (0, { s.setOv O.scrub_state 1 with scrub := Scrub.start (s.ov O.scrub_base) (s.ov O.scrub_len) }) := by
  have hgood : ¬(s.ov O.scrub_base % 4096 ≠ 0 ∨ s.ov O.scrub_len % 4096 ≠ 0 ∨ 200704 * 2 ^ 26 < s.ov O.scrub_base + s.ov O.scrub_len) := by omega
  simp only [State.scrubStart, hidle, if_neg hgood, Bool.false_eq_true, if_false]

end Idle

theorem State.scrubCancel_running (hruns : s.scrub.running = true) :
    s.scrubCancel = { s.setOv O.scrub_state 0 with scrub := { s.scrub with running := false, cancelled := true } } := if_pos hruns

section Line

variable {m : Met} {p : Nat} (hp : p = s.scrub.pos) (hruns : s.scrub.running = true)
include hp hruns

/-- A line that nothing holds, or that is withdrawn or lost, is skipped (R396). -/
theorem State.scrubLine_skips (hgone : s.populated (frameOf p) = false ∨ s.withdrawn (frameOf p) = true ∨ s.lost p = true) :
    s.scrubLine m = State.scrubEnd { s with scrub := { s.scrub with skipped := s.scrub.skipped + 1, pos := p + 128 } } := by
  subst hp
  have hskip : (!s.populated (frameOf s.scrub.pos) || s.withdrawn (frameOf s.scrub.pos) || s.lost s.scrub.pos) = true := by
    simpa only [Bool.or_eq_true, Bool.not_eq_true', or_assoc] using hgone
  simp only [State.scrubLine, hruns, hskip, Bool.not_true, Bool.false_eq_true, if_false, if_true]

section Held

variable (hpop : s.populated (frameOf p) = true) (hin : s.withdrawn (frameOf p) = false) (hkept : s.lost p = false)
include hpop hin hkept

theorem State.scrubLine_waits (hfog : s.ob O.fog_state 0 (sectorOf (frameOf p)) = true) : s.scrubLine m = s.setOv O.scrub_state 2 := by
  subst hp
  simp only [State.scrubLine, hruns, hpop, hin, hkept, hfog, Bool.not_true, Bool.or_self, Bool.false_eq_true, if_false, if_true]

/-- A line whose home slice serves, with Foghorn down, is checked code word by code word and entered in the summary (R397, R400). -/
theorem State.scrubLine_checks {a b : Found × State} (hclear : s.ob O.fog_state 0 (sectorOf (frameOf p)) = false) (hserves : s.slcServes (hsOf p) = true)
    (ha : a = (((s.meet m.errs).setOv O.scrub_state 1).flushMerge (p / 128)).scrubCw (p / 64)) (hb : b = a.2.scrubCw (p / 64 + 1)) :
    s.scrubLine m = State.scrubEnd { b.2 with scrub := b.2.scrub.enter p a.1 b.1 } := by
  subst hp hb ha
  simp only [State.scrubLine, hruns, hpop, hin, hkept, hclear, hserves, Bool.not_true, Bool.or_self, Bool.false_eq_true, if_false]

end Held

end Line

end Scrub

/-! ### The commands -/

theorem exec_sweepRecordTake (s : State) : exec .sweepRecordTake s = .next s.sweepTake := rfl

theorem exec_sweepChunk (s : State) (te i : Nat) (m : Met) : exec (.sweepChunk te i m) s = .next ((s.ungate 2 te).sweepChunk te i m) := rfl

theorem exec_sweepFrameDone (s : State) (i : Nat) : exec (.sweepFrameDone i) s = .next (s.sweepFrameDone i) := rfl

theorem exec_engineShootdownAck (s : State) (n : Nat) : exec (.engineShootdownAck n) s = .next (s.shootdownAck n) := rfl

theorem exec_teAckTimeout (s : State) (n : Nat) (m : Met) : exec (.teAckTimeout n m) s = .next (s.ackMissed n m) := rfl

theorem exec_ceWriteback (s : State) (cw : Nat) : exec (.ceWriteback cw) s = .next (s.ceWriteback cw) := rfl

theorem exec_ueBucketRoll (s : State) : exec .ueBucketRoll s = .next s.rollRates := rfl

theorem exec_mergeHoldExpiry (s : State) (line : Nat) (errs : List DramErr) :
    exec (.mergeHoldExpiry line errs) s = .next ((s.meet errs).mergeExpire line) := rfl

theorem exec_scrubStart (s : State) : exec .scrubStart s = .next s.scrubStart.2 := rfl

theorem exec_scrubCancel (s : State) : exec .scrubCancel s = .next s.scrubCancel := rfl

theorem exec_scrubLine (s : State) (m : Met) : exec (.scrubLine m) s = .next (s.scrubLine m) := rfl

/-- Settles O33: each clause is the equation of its operation for the sweep, the unit, the code word or the scrub the clause names. -/
theorem sweepsAndScrubs : Obligations.SweepsAndScrubs := by
  refine ⟨fun s => ⟨?take, ?chunk, ?step, ?ends, ?ack, ?missed⟩, fun s => ⟨?corrected, ?buckets, ?hold, ?busy, ?refused, ?starts, ?line⟩⟩
  case take =>
    intro f u hpending hrecord
    rw [exec_sweepRecordTake, State.sweepTake_takes hpending hrecord]
  case chunk =>
    intro te i m w u k d hu hsweep hpick hserves
    rw [exec_sweepChunk, State.sweepChunk_sweeps hu hsweep hpick hserves]
  case step =>
    rintro i w ppa ls hppa rfl
    exact ⟨fun hrekey q hq => State.sweepStep_rekey hrekey hppa hq, fun hscrub => State.sweepStep_scrub hscrub hppa⟩
  case ends =>
    intro i k w u hsweep hend hu
    rw [exec_sweepFrameDone]
    refine ⟨fun hrekey => ?_, fun hscrub => ?_⟩
    · rw [State.sweepFrameDone_rekey hsweep hend hu hrekey]
    · rw [State.sweepFrameDone_scrub hsweep hend hu hscrub]
  case ack =>
    intro n
    rw [exec_engineShootdownAck, State.shootdownAck]
  case missed =>
    intro n hn m hwaits hphys
    rw [exec_teAckTimeout, State.ackMissed_fences hn hwaits hphys]
  case corrected =>
    intro cw hwaits hcorrected
    rw [exec_ceWriteback, State.ceWriteback_writes hwaits hcorrected]
  case buckets =>
    rw [exec_ueBucketRoll, State.rollRates]
  case hold =>
    rintro line errs e u rfl hentry hexempt
    rw [exec_mergeHoldExpiry, State.mergeExpire_writes hentry hexempt]
  case busy =>
    intro hruns
    rw [exec_scrubStart, State.scrubStart_busy hruns, exec_scrubCancel, State.scrubCancel_running hruns]
    exact ⟨rfl, rfl⟩
  case refused =>
    intro hidle hbad
    rw [exec_scrubStart, State.scrubStart_bad hidle hbad]
  case starts =>
    intro hidle hbase hlen hrange
    rw [exec_scrubStart, State.scrubStart_good hidle hbase hlen hrange]
    refine ⟨fun hsome => ?_, fun hnone => ?_⟩
    · rw [if_neg hsome]
    · rw [if_pos hnone]
  case line =>
    intro m p hp hruns
    rw [exec_scrubLine]
    refine ⟨fun hgone => ?_, fun hpop hin hkept => ⟨fun hfog => ?_, fun hclear hserves a b ha hb => ?_⟩⟩
    · rw [State.scrubLine_skips hp hruns hgone]
    · rw [State.scrubLine_waits hp hruns hpop hin hkept hfog]
    · rw [State.scrubLine_checks hp hruns hpop hin hkept hclear hserves ha hb]

end Sys2Proof.Machine
end

section
/-! PROOFS. Channel controllers (R344-R348, R350-R352, R354, R355): a request enters its queue, a queued request is served, rows close, banks
are refreshed, channels retrain and ranks power down. -/

namespace Sys2Proof.Machine

open Sys2Proof

/-! ### A request enters its queue (R344, R345, R348, R355) -/

/-- What is answered only when there is room is answered because there is room. -/
theorem of_room {x y : Chan} {len cap : Nat} (h : (if len < cap then some x else none) = some y) : len < cap ∧ y = x := by
  by_cases hroom : len < cap
  · rw [if_pos hroom] at h
    exact ⟨hroom, (Option.some.inj h).symm⟩
  · rw [if_neg hroom] at h
    exact absurd h.symm (Option.some_ne_none y)

/-- A queue that takes a request has a free slot, and the request stands last in it. -/
theorem Chan.take_some {x y : Chan} {q : Nat} {r : Dreq} (htake : x.take q r = some y) :
    (q = 0 ∧ x.l.length < 64 ∧ y = { x with l := x.l ++ [r] }) ∨ (q = 1 ∧ x.n.length < 128 ∧ y = { x with n := x.n ++ [r] }) ∨
    (q = 2 ∧ x.b.length < 64 ∧ y = { x with b := x.b ++ [r] }) ∨ (3 ≤ q ∧ x.w.length < 64 ∧ y = { x with w := x.w ++ [r] }) := by
  unfold Chan.take at htake
  by_cases h0 : q = 0
  · rw [if_pos h0] at htake
    exact .inl ⟨h0, of_room htake⟩
  by_cases h1 : q = 1
  · rw [if_neg h0, if_pos h1] at htake
    exact .inr (.inl ⟨h1, of_room htake⟩)
  by_cases h2 : q = 2
  · rw [if_neg h0, if_neg h1, if_pos h2] at htake
    exact .inr (.inr (.inl ⟨h2, of_room htake⟩))
  · rw [if_neg h0, if_neg h1, if_neg h2] at htake
    exact .inr (.inr (.inr ⟨by omega, of_room htake⟩))

/-- What entering does to a channel besides its queue: the next request comes after this one, the rank of the line leaves power-down, and a retrain
whose window has come is done (R354, R355). -/
def Chan.entered (x y : Chan) (line ltc : Nat) : Chan :=
  { y with seq := x.seq + 1, down := clrBit x.down (rankOf line), due := x.due && !(x.all.isEmpty && decide (x.emptyAt + usTicks 2 ≤ ltc)) }

section Enter

variable {s : State} {line cls ctx c : Nat} {x : Chan}

theorem State.queueEnter_elsewhere (h : s.chanFor line ≠ c) : s.queueEnter line cls ctx c = s := if_pos (.inl h)

variable (hc : c = s.chanFor line) (hx : x = s.chan c) (hkept : s.lost (line * 128) = false)
include hc hx hkept

theorem State.queueEnter_from_write (hread : cls < 3) (hwritten : x.w.any (fun y => y.line == line) = true) :
    s.queueEnter line cls ctx c = s.pageHint line false 0 := by
  subst hx
  have hhere : ¬(s.chanFor line ≠ c ∨ s.lost (line * 128) = true) := by simp [hc, hkept]
  have hwrite : decide (3 ≤ cls) = false := decide_eq_false (Nat.not_le.mpr hread)
  simp only [State.queueEnter, if_neg hhere, hread, hwritten, and_self, if_true, hwrite]

theorem State.queueEnter_takes {h : Nat} {y : Chan} (hh : h = (if cls = 2 then 1 else Tab.get 0 s.dram.hints (2 * line + b2n (decide (3 ≤ cls)))))
    (hmiss : 3 ≤ cls ∨ x.w.any (fun y => y.line == line) = false) (htake : x.take (s.queueFor cls ctx) ⟨line, ctx, h, x.seq⟩ = some y) :
    s.queueEnter line cls ctx c =
      ((s.setChan c (x.entered y line s.ltc)).pageHint line (decide (3 ≤ cls)) 0).foghorn (chanSector c) := by
  subst hx hh
  have hhere : ¬(s.chanFor line ≠ c ∨ s.lost (line * 128) = true) := by simp [hc, hkept]
  have hqueued : ¬(cls < 3 ∧ (s.chan c).w.any (fun y => y.line == line) = true) := fun ⟨hread, hhit⟩ =>
    hmiss.elim (fun hwrite => Nat.not_le.mpr hread hwrite) (fun hno => Bool.false_ne_true (hno.symm.trans hhit))
  simp only [State.queueEnter, if_neg hhere, if_neg hqueued]
  obtain ⟨hq, hroom, rfl⟩ | ⟨hq, hroom, rfl⟩ | ⟨hq, hroom, rfl⟩ | ⟨hq, hroom, rfl⟩ := Chan.take_some htake
  case inl | inr.inl | inr.inr.inl => simp only [hq, if_pos hroom, Chan.entered]
  case inr.inr.inr =>
    obtain ⟨n, hn⟩ := Nat.exists_eq_add_of_le' hq
    simp only [hn, if_pos hroom, Chan.entered]

end Enter

/-! ### A queued request is served (R346-R348, R350) -/

section Serve

variable {s : State} {c : Nat} {x : Chan} (hx : x = s.chan c)

section Turn

include hx

/-- W is served while it drains and when no read is queued (R347). -/
theorem State.channelServe_write {r : Dreq} {d : Bool} (hd : d = (x.drain || decide (s.ov O.wq_high ≤ x.w.length)))
    (hturn : d = true ∨ x.l = [] ∧ x.n = [] ∧ x.b = []) (hpick : s.frFcfs c { x with drain := d } x.w = some r) :
    s.channelServe c = s.access c { x with w := dropDreq r x.w, drain := d && decide (s.ov O.wq_low < (dropDreq r x.w).length) } r := by
  subst hx hd
  have hwrites : s.channelServe c = s.serveWrite c { s.chan c with drain := (s.chan c).drain || decide (s.ov O.wq_high ≤ (s.chan c).w.length) } :=
    if_pos hturn
  rw [hwrites]
  simp only [State.serveWrite, hpick]

theorem State.channelServe_read (hfew : x.w.length < s.ov O.wq_high) (hdrain : x.drain = false) (hreads : ¬(x.l = [] ∧ x.n = [] ∧ x.b = [])) :
    s.channelServe c = s.serveRead c x := by
  subst hx
  have hkeeps : decide (s.ov O.wq_high ≤ (s.chan c).w.length) = false := decide_eq_false (Nat.not_le.mpr hfew)
  simp only [State.channelServe, hdrain, hkeeps, Bool.or_self, Bool.false_eq_true, false_or, if_neg hreads]

theorem State.rowClose_closes {b : Nat} (hauto : x.autos.testBit b = true) (hnone : x.all.any (fun r => bankOf r.line == b && x.openRow r.line) = false) :
    s.rowClose c b = s.setChan c { x with rows := Tab.put 0 x.rows b 0, autos := clrBit x.autos b } := by
  subst hx
  exact if_pos ⟨hauto, by rw [hnone]; rfl⟩

end Turn

section Group

variable {gs : List Nat} {k : Nat} {d : Tab Nat} {y : Chan} {r : Dreq} (hgroups : s.readGroups c x = (false, gs))
  (hturn : drrTurn (fun g => s.ov O.sg_quantum g) (fun g => if gs.contains g then some 128 else none) 192 x.drr.group (!x.drr.entered) x.drr.deficit = some (k, d))
  (hy : y = { x with drr := Drr.settle ⟨k, true, d, x.drr.turn⟩ (decide (1 < (s.groupOf k x.l ++ s.groupOf k x.n ++ s.groupOf k x.b).length)) })
include hgroups hturn hy

theorem State.serveRead_l (hl : s.frFcfs c y (s.groupOf k x.l) = some r) : s.serveRead c x = s.access c { y with l := dropDreq r x.l } r := by
  subst hy
  simp only [State.serveRead, hgroups, hturn, Bool.false_eq_true, if_false, hl]

variable (hl : s.frFcfs c y (s.groupOf k x.l) = none)
include hl

theorem State.serveRead_n (hn : s.frFcfs c y (s.groupOf k x.n) = some r) : s.serveRead c x = s.access c { y with n := dropDreq r x.n } r := by
  subst hy
  simp only [State.serveRead, hgroups, hturn, Bool.false_eq_true, if_false, hl, hn]

theorem State.serveRead_b (hn : s.frFcfs c y (s.groupOf k x.n) = none) (hb : s.frFcfs c y (s.groupOf k x.b) = some r) :
    s.serveRead c x = s.access c { y with b := dropDreq r x.b } r := by
  subst hy
  simp only [State.serveRead, hgroups, hturn, Bool.false_eq_true, if_false, hl, hn, hb]

end Group

end Serve

/-! ### Refresh, retraining, power-down (R351, R352, R354, R355) -/

section Times

variable {s : State} {c b : Nat} {x : Chan} (hx : x = s.chan c)
include hx

section Lit

variable (hlit : s.chanLit c = true)
include hlit

theorem State.refreshDue_postponed (hbusy : (x.wants b || s.ob O.fog_state 0 (chanSector c)) = true) :
    s.refreshDue c b = if Tab.get 0 x.debt b < debtLimit c then s.setChan c { x with debt := Tab.put 0 x.debt b (Tab.get 0 x.debt b + 1) }
      else s.refreshNow c b (Tab.get 0 x.debt b) := by
  subst hx
  rw [Chan.wants] at hbusy
  simp only [State.refreshDue, hlit, Bool.not_true, Bool.false_eq_true, if_false, hbusy, if_true]

theorem State.refreshDue_idle (hidle : (x.wants b || s.ob O.fog_state 0 (chanSector c)) = false) :
    s.refreshDue c b = s.setChan c (x.refreshed b 0) := by
  subst hx
  rw [Chan.wants] at hidle
  simp only [State.refreshDue, hlit, Bool.not_true, Bool.false_eq_true, if_false, hidle]

theorem State.retrainDue_lit : s.retrainDue c = s.setChan c { x with due := x.all != [] } := by
  subst hx
  exact if_pos hlit

theorem State.rankDown_idle {r : Nat} (hon : s.ov O.pd_idle ≠ 0) (hnone : x.all.any (fun y => rankOf y.line == r) = false) :
    s.rankDown c r = s.setChan c { x with down := setBit x.down r } := by
  subst hx
  exact if_pos ⟨hlit, hon, by rw [hnone]; rfl⟩

end Lit

theorem State.refreshForced_ddr (hddr : c < 24) (hdebt : Tab.get 0 x.debt b ≠ 0) (hlimit : debtLimit c ≤ Tab.get 0 x.debt b) :
    s.refreshForced c b = (s.setChan c (x.refreshed b (Tab.get 0 x.debt b - 1))).bump O.dc_refresh_forced 0 c := by
  subst hx
  have hforced : s.refreshForced c b = s.refreshNow c b (Tab.get 0 (s.chan c).debt b - 1) := if_pos ⟨hdebt, hlimit⟩
  rw [hforced]
  exact if_pos hddr

section Due

variable (hdue : x.due = true)
include hdue

theorem State.retrainForce_window (hwindow : x.all = [] ∧ x.emptyAt + usTicks 2 ≤ s.ltc) :
    s.retrainForce c = s.setChan c { x with due := false } := by
  subst hx
  obtain ⟨hempty, hlong⟩ := hwindow
  exact if_pos (by simp [hdue, hempty, hlong])

theorem State.retrainForce_made (hbusy : x.all ≠ [] ∨ s.ltc < x.emptyAt + usTicks 2) :
    s.retrainForce c = if c < 24 then (s.setChan c { x with due := false }).bump O.dc_retrain_forced 0 c
      else (s.setChan c { x with due := false }).bump O.hbch_retrain_forced ((c - 24) / 32) ((c - 24) % 32) := by
  subst hx
  have hnone : ¬((s.chan c).due && (s.chan c).all.isEmpty && decide ((s.chan c).emptyAt + usTicks 2 ≤ s.ltc)) = true := by
    simp only [Bool.and_eq_true, List.isEmpty_iff, decide_eq_true_eq]
    rintro ⟨⟨-, hempty⟩, hlong⟩
    exact hbusy.elim (fun hsome => hsome hempty) (fun hshort => Nat.not_le.mpr hshort hlong)
  exact (if_neg hnone).trans (if_pos hdue)

end Due

end Times

theorem State.rankDown_off {s : State} {c r : Nat} (hoff : s.ov O.pd_idle = 0) : s.rankDown c r = s :=
  if_neg fun ⟨_, hon, _⟩ => hon hoff

/-! ### The commands -/

theorem exec_dramQueueEnter (s : State) (line cls ctx c : Nat) : exec (.dramQueueEnter line cls ctx c) s = .next (s.queueEnter line cls ctx c) := rfl

theorem exec_channelServe (s : State) (c : Nat) : exec (.channelServe c) s = .next (s.channelServe c) := rfl

theorem exec_rowAutoClose (s : State) (c b : Nat) : exec (.rowAutoClose c b) s = .next (s.rowClose c b) := rfl

theorem exec_refreshDue (s : State) (c b : Nat) : exec (.refreshDue c b) s = .next (s.refreshDue c b) := rfl

theorem exec_refreshDebtLimit (s : State) (c b : Nat) : exec (.refreshDebtLimit c b) s = .next (s.refreshForced c b) := rfl

theorem exec_retrainPeriod (s : State) (c : Nat) : exec (.retrainPeriod c) s = .next (s.retrainDue c) := rfl

theorem exec_retrainForce (s : State) (c : Nat) : exec (.retrainForce c) s = .next (s.retrainForce c) := rfl

theorem exec_rankPowerDown (s : State) (c r : Nat) : exec (.rankPowerDown c r) s = .next (s.rankDown c r) := rfl

/-- Settles O34: each clause is the equation of its operation for the request, the bank or the channel the clause names. -/
theorem channelsServeTheirQueues : Obligations.ChannelsServeTheirQueues := by
  simp only [Obligations.ChannelsServeTheirQueues, exec_dramQueueEnter, exec_channelServe, exec_rowAutoClose, exec_refreshDue, exec_refreshDebtLimit,
    exec_retrainPeriod, exec_retrainForce, exec_rankPowerDown, Host.Outcome.next.injEq]
  refine ⟨?enter, ?serve, ?times⟩
  case enter =>
    intro s line cls ctx c x hc hx hkept
    exact ⟨fun d hd => State.queueEnter_elsewhere (hc ▸ hd), State.queueEnter_from_write hc hx hkept, fun h y => State.queueEnter_takes hc hx hkept⟩
  case serve =>
    intro s c x hx
    refine ⟨fun r d => State.channelServe_write hx, fun hdrain hfew hreads gs k d y hgroups hturn hy => ?_, fun b => State.rowClose_closes hx⟩
    rw [State.channelServe_read hx hfew hdrain hreads]
    exact ⟨fun r => State.serveRead_l hgroups hturn hy, fun r => State.serveRead_n hgroups hturn hy, fun r => State.serveRead_b hgroups hturn hy⟩
  case times =>
    intro s c b x hx
    exact ⟨State.refreshDue_postponed hx, State.refreshDue_idle hx, State.refreshForced_ddr hx, State.retrainDue_lit hx,
      fun hdue => ⟨State.retrainForce_window hx hdue, State.retrainForce_made hx hdue⟩, fun r hlit => State.rankDown_idle hx hlit, State.rankDown_off⟩

end Sys2Proof.Machine
end

section
/-! PROOFS. DIMMs and channel pairs (R353, R359, R366-R369): a pair goes dark, its DIMMs lose and gain power, settle and are checked, and its channels
are trained. -/

namespace Sys2Proof.Machine

open Sys2Proof

/-! ### The two channels of a pair (R335) -/

theorem channel_pair {m k : Nat} (hk : k < 2) : (2 * m + k) / 2 = m := by omega

theorem channel_side {m k : Nat} (hk : k < 2) : (2 * m + k) % 2 = k := by omega

section Pairs

variable {s : State} {m k : Nat} (hm : m < 12)
include hm

/-! ### OFFLINE and ONLINE of a pair (R366) -/

theorem State.offline_refused (h : s.pairHolds m = true ∨ s.pairSt m = 2) : s.offline m = s.setOv O.dcp_result 1 m := by
  unfold State.offline
  rw [if_neg (Nat.not_le.mpr hm), if_pos h]
  rfl

theorem State.offline_lit (hempty : s.pairHolds m = false) (hst : s.pairSt m ≠ 2) (hlit : s.pairLit m = true) :
    s.offline m = (s.pairDark m 1).setOv O.dcp_result 0 m := by
  unfold State.offline
  rw [if_neg (Nat.not_le.mpr hm), if_neg (not_or_intro (Bool.eq_false_iff.mp hempty) hst), if_pos hlit]
  rfl

theorem State.online_trains (hst : s.pairSt m = 2) (hpresent : s.ov O.dimm_present m % 4 = 3) (hpower : s.ov O.dimm_pwr m % 4 = 3)
    (hsettled : Tab.get 0 s.dram.settling m = 0) (hgood : Tab.get 0 s.dram.spdBad m = 0) {u : State} (hu : u = s.setUnitSt O.dcp_state 3 m) :
    s.online m = { u with dram := { u.dram with trained := Tab.put 0 u.dram.trained m 0 } } := by
  subst hu
  unfold State.online
  rw [if_neg (Nat.not_le.mpr hm), if_neg (by omega), if_neg (not_not_intro hgood)]

variable (hk : k < 2)
include hk

/-! ### Power of a slot (R366) -/

theorem State.pwrOff_refused (hst : s.pairSt m ≠ 2) : s.pwrOff m k = s.setOv O.dcp_result 1 m := by
  unfold State.pwrOff
  rw [if_neg (by omega), if_pos (.inl hst)]
  rfl

theorem State.pwrOff_dark {u : State} (hst : s.pairSt m = 2) (hempty : s.pairHolds m = false)
    (hu : u = (s.setOv O.dimm_pwr (clrBit (s.ov O.dimm_pwr m) k) m).setOv O.dcp_result 0 m) :
    s.pwrOff m k = { u with dram := { u.dram with settling := flipMask u.dram.settling m k false } } := by
  subst hu
  unfold State.pwrOff
  rw [if_neg (by omega), if_neg (not_or_intro (not_not_intro hst) (Bool.eq_false_iff.mp hempty))]
  rfl

theorem State.pwrOn_refused (hst : s.pairSt m ≠ 2) : s.pwrOn m k = s.setOv O.dcp_result 1 m := by
  unfold State.pwrOn
  rw [if_neg (by omega), if_pos (.inl hst)]
  rfl

theorem State.pwrOn_dark (hst : s.pairSt m = 2) (hpresent : (s.ov O.dimm_present m).testBit k = true) :
    s.pwrOn m k = { s.setOv O.dimm_pwr (setBit (s.ov O.dimm_pwr m) k) m with dram := { s.dram with settling := flipMask s.dram.settling m k true } } := by
  unfold State.pwrOn
  rw [if_neg (by omega), if_neg (by simp [hst, hpresent])]
  rfl

/-! ### Training, parity and presence of the pair's two channels (R353, R359, R368) -/

theorem State.trainingDone_lit_fails (hst : s.pairSt m ≠ 2) (hlit : s.pairLit m = true) : s.trainingDone (2 * m + k) false = s.pairDark m 2 := by
  unfold State.trainingDone
  rw [if_neg (by omega), if_neg (by omega), channel_pair hk]
  dsimp only
  rw [if_neg hst]
  exact (if_pos rfl).trans (if_pos hlit)

theorem State.trainingDone_repair_fails (hst : s.pairSt m = 3) (hdark : s.pairLit m = false) : s.trainingDone (2 * m + k) false =
    (((s.setUnitSt O.dcp_state 2 m).setOv O.dcp_cause 2 m).event 0x41 0 m noCtx 0).setOv O.dcp_result 2 m := by
  unfold State.trainingDone
  rw [if_neg (by omega), if_neg (by omega), channel_pair hk]
  dsimp only
  rw [if_neg (by omega)]
  exact (if_pos rfl).trans (if_neg (Bool.eq_false_iff.mp hdark))

theorem State.trainingDone_passes {t : Nat} {u : State} (hst : s.pairSt m = 3) (ht : t = setBit (Tab.get 0 s.dram.trained m) k)
    (hu : u = { s with dram := { s.dram with trained := Tab.put 0 s.dram.trained m t } }) :
    s.trainingDone (2 * m + k) true = if t = 3 then
      (((u.setUnitSt O.dcp_state 0 m).setOv O.dcp_cause 0 m).setOv O.dcp_frames (min 16384 (u.pairFramesFor m)) m).setOv O.dcp_result 0 m else u := by
  subst hu ht
  unfold State.trainingDone
  rw [if_neg (by omega), if_neg (by omega), channel_pair hk, channel_side hk]
  dsimp only
  rw [if_neg (by omega), if_neg (by decide), if_pos hst]
  rfl

theorem State.caParity_counts {x : Chan} {u : State} (hx : x = s.chan (2 * m + k))
    (hu : u = (s.setChan (2 * m + k) { x with parity := x.parity + 1 }).bump O.dc_ca_parity 0 (2 * m + k)) :
    s.caParity (2 * m + k) = if s.ov O.ca_retry_limit < x.parity + 1 then u.pairDark m 4 else u := by
  subst hu hx
  unfold State.caParity
  rw [if_neg (by omega), channel_pair hk]

theorem State.presentChange_pulled {u : State} (hu : u = s.setOv O.dimm_present (clrBit (s.ov O.dimm_present m) k) m) (hlit : u.pairLit m = true) :
    s.presentChange (2 * m + k) false = (u.setOv O.dimm_pwr (clrBit (u.ov O.dimm_pwr m) k) m).pairDark m 3 := by
  subst hu
  unfold State.presentChange
  rw [if_neg (by omega), channel_pair hk, channel_side hk]
  exact if_pos ⟨rfl, hlit⟩

theorem State.presentChange_fitted : s.presentChange (2 * m + k) true = s.setOv O.dimm_present (setBit (s.ov O.dimm_present m) k) m := by
  unfold State.presentChange
  rw [if_neg (by omega), channel_pair hk, channel_side hk]
  exact if_neg fun ⟨habsent, _⟩ => Bool.false_ne_true habsent

end Pairs

/-- The SPD of a settled DIMM is read and checked (R366, R369). -/
theorem State.settleEnd_checks {s u : State} {m k mts cap ranks serial : Nat} {form : Bool} (hsettles : (Tab.get 0 s.dram.settling m).testBit k = true)
    (hu : u = ({ s with dram := { s.dram with settling := flipMask s.dram.settling m k false,
                                              spdBad := flipMask s.dram.spdBad m k !spdOk form mts cap } } : State).setOct
      O.dimm_info (dimmInfo cap ranks mts serial) m k) :
    s.settleEnd m k form mts cap ranks serial =
      if spdOk form mts cap = true then u.setOv O.dcp_result 0 m else (u.setOv O.dcp_cause 6 m).setOv O.dcp_result 3 m := by
  subst hu
  exact if_pos hsettles

/-! ### The commands -/

theorem exec_offline (s : State) (m : Nat) : exec (.offline m) s = .next (s.offline m) := rfl

theorem exec_pwrOff (s : State) (m k : Nat) : exec (.pwrOff m k) s = .next (s.pwrOff m k) := rfl

theorem exec_pwrOn (s : State) (m k : Nat) : exec (.pwrOn m k) s = .next (s.pwrOn m k) := rfl

theorem exec_dimmSettleExpiry (s : State) (m k : Nat) (form : Bool) (mts cap ranks serial : Nat) :
    exec (.dimmSettleExpiry m k form mts cap ranks serial) s = .next (s.settleEnd m k form mts cap ranks serial) := rfl

theorem exec_online (s : State) (m : Nat) : exec (.online m) s = .next (s.online m) := rfl

theorem exec_channelTrainingDone (s : State) (c : Nat) (ok : Bool) : exec (.channelTrainingDone c ok) s = .next (s.trainingDone c ok) := rfl

theorem exec_caParityAlert (s : State) (c : Nat) : exec (.caParityAlert c) s = .next (s.caParity c) := rfl

theorem exec_dimmPresentChange (s : State) (dimm : Nat) (present : Bool) :
    exec (.dimmPresentChange dimm present) s = .next (s.presentChange dimm present) := rfl

/-- Settles O35: each clause is the equation of its operation for the state of the pair or the slot the clause names. -/
theorem dimmsAreReplaced : Obligations.DimmsAreReplaced := by
  intro s m k hm hk
  simp only [exec_offline, exec_pwrOff, exec_pwrOn, exec_dimmSettleExpiry, exec_online, exec_channelTrainingDone, exec_caParityAlert,
    exec_dimmPresentChange, Host.Outcome.next.injEq]
  refine ⟨State.offline_refused hm, State.offline_lit hm, ?pwrOff, ?refused, State.pwrOn_dark hm hk, ?settle, ?online, ?trained,
    State.trainingDone_lit_fails hm hk, State.trainingDone_repair_fails hm hk, ?parity, ?pulled, fun _ => State.presentChange_fitted hm hk⟩
  case pwrOff => exact fun hst hempty u => State.pwrOff_dark hm hk hst hempty
  case refused => exact fun hst => ⟨State.pwrOff_refused hm hk hst, State.pwrOn_refused hm hk hst⟩
  case settle => exact fun form mts cap ranks serial u => State.settleEnd_checks
  case online => exact fun hst hpresent hpower hsettled hgood u => State.online_trains hm hst hpresent hpower hsettled hgood
  case trained => exact fun t u => State.trainingDone_passes hm hk
  case parity => exact fun x u => State.caParity_counts hm hk
  case pulled => exact fun u => State.presentChange_pulled hm hk

end Sys2Proof.Machine
end

section
/-! PROOFS. HBM channel fences and the re-layout of a stack (R361-R365): the operator's fence, a channel that is fenced, frames that leave the fenced
channel's range and kept frames that are re-established. -/

namespace Sys2Proof.Machine

open Sys2Proof

/-! ### Fences (R361-R363) -/

section Fence

variable {s : State} {n k : Nat}

theorem State.hbchFence_refused (hn : n < 4) (hk : k < 32)
    (h : s.ov O.hbch_state n k = 2 ∨ s.ov O.hbm_fenced_ch n ≠ 255 ∧ s.ob O.hbch_confirm = false) :
    (s.hbchFence n k).2 = s.setOv O.hbch_confirm 0 := by
  unfold State.hbchFence
  rw [if_neg (by omega)]
  dsimp only
  rw [if_pos (h.imp_right fun ⟨hfenced, hno⟩ => ⟨hfenced, by rw [hno]; rfl⟩)]

theorem State.hbchFence_fences (hn : n < 4) (hk : k < 32) (hlit : s.ov O.hbch_state n k ≠ 2)
    (h : s.ov O.hbm_fenced_ch n = 255 ∨ s.ob O.hbch_confirm = true) :
    (s.hbchFence n k).2 = (s.setOv O.hbch_confirm 0).fenceHbm n k := by
  have hloses : ¬(s.ov O.hbm_fenced_ch n ≠ 0xFF ∧ (!s.ob O.hbch_confirm) = true) := fun ⟨hfenced, hno⟩ =>
    h.elim hfenced fun hyes => by simp [hyes] at hno
  unfold State.hbchFence
  rw [if_neg (by omega)]
  dsimp only
  rw [if_neg (not_or_intro hlit hloses)]

/-- The first fenced channel of a stack starts its re-layout, and a second loses the stack. -/
theorem State.fenceHbm_lit {u v : State} (hlit : s.ov O.hbch_state n k ≠ 2)
    (hv : v = ((s.setUnitSt O.hbch_state 2 n k).event 0x41 0 n noCtx 0).dropChan (24 + 32 * n + k))
    (hu : u = { v with jobs := { v.jobs with journal := v.jobs.journal.filter (fun p => p.1 / 34 != n) } }) :
    s.fenceHbm n k = if s.ov O.hbm_fenced_ch n ≠ 255 then ((u.setOv O.hbm_state 5 n).setOv O.hbm_frames 0 n).abandonGone
      else ((u.setOv O.hbm_fenced_ch k n).setOv O.hbm_state (if u.rangeFrames n = [] then 3 else 1) n).setOv O.hbm_relaid 0 n := by
  subst hu hv
  exact if_neg hlit

end Fence

/-! ### Re-layout (R364) -/

section Relayout

variable {s : State} {n : Nat}

section Move

variable (hst : s.ov O.hbm_state n = 1 ∨ s.ov O.hbm_state n = 2)
include hst

theorem State.relayMove_begins {f : Nat} {e : Nat × Option Nat} (hfind : (s.rangeFrames n).find? (fun f => s.canMove f && !s.claimed f) = some f)
    (hdest : s.moveDest f 0 (allSecs.filter (· != n)) [] = some e) : s.relayMove n = (s.setOv O.hbm_state 1 n).beginMove f 3 n e := by
  unfold State.relayMove
  rw [if_neg (by omega), hfind]
  dsimp only
  rw [hdest]

theorem State.relayMove_emptied (hnone : s.rangeFrames n = []) : s.relayMove n = s.setOv O.hbm_state 3 n := by
  have hfind : (s.rangeFrames n).find? (fun f => s.canMove f && !s.claimed f) = none := by rw [hnone, List.find?_nil]
  unfold State.relayMove
  rw [if_neg (by omega), hfind]
  exact if_pos hnone

end Move

theorem State.relayoutDone_next {u : State} (hst : s.ov O.hbm_state n = 3) (hleft : s.ov O.hbm_relaid n < 992)
    (hu : u = (s.setOv O.hbm_relaid (s.ov O.hbm_relaid n + 1) n).reestablish
      (channelCws (1024 * n + rankFrame (s.ov O.hbm_relaid n)) (s.ov O.hbm_fenced_ch n))) :
    s.relayoutDone n = if s.ov O.hbm_relaid n + 1 = 992 then (u.setOv O.hbm_state 4 n).setOv O.hbm_frames 990 n else u := by
  have hgoes : ¬(s.ov O.hbm_state n ≠ 3 ∨ 992 ≤ s.ov O.hbm_relaid n) := by omega
  rw [hu, State.relayoutDone, if_neg hgoes]

end Relayout

/-! ### The commands -/

theorem exec_hbchFence (s : State) (n k : Nat) : exec (.hbchFence n k) s = .next (s.hbchFence n k).2 := rfl

theorem exec_hbmChannelFenced (s : State) (n k : Nat) : exec (.hbmChannelFenced n k) s = .next (s.fenceHbm n k) := rfl

theorem exec_relayoutFrameFreed (s : State) (n : Nat) : exec (.relayoutFrameFreed n) s = .next (s.relayMove n) := rfl

theorem exec_relayoutFrameDone (s : State) (n : Nat) : exec (.relayoutFrameDone n) s = .next (s.relayoutDone n) := rfl

/-- Settles O36: each clause is the equation of its operation for the channel or the frame the clause names. -/
theorem hbmChannelsAreFencedAndRelaid : Obligations.HbmChannelsAreFencedAndRelaid := by
  intro s n k hn hk
  simp only [exec_hbchFence, exec_hbmChannelFenced, exec_relayoutFrameFreed, exec_relayoutFrameDone, Host.Outcome.next.injEq]
  refine ⟨State.hbchFence_refused hn hk, State.hbchFence_fences hn hk, ?fenced, ?moves, State.relayMove_emptied, ?done⟩
  case fenced => exact fun v u => State.fenceHbm_lit
  case moves => exact fun f e hst => State.relayMove_begins hst
  case done => exact fun u => State.relayoutDone_next

end Sys2Proof.Machine
end

section
/-! PROOFS. The invariant (R373, R380, R455, R624) and the frame of pool memory (R380, R381, R455): the state after reset meets the invariant,
and each command keeps what `keeps` names, the stored memory among it unless the command is one that may store. -/

namespace Sys2Proof.Machine

open Sys2Proof

/-! ### The state after reset -/

theorem State.reset_inv : State.reset.Inv := by
  refine ⟨⟨rfl, rfl, rfl, rfl⟩, ?objects, Nat.two_pow_pos 64⟩
  unfold State.objsOk
  rw [State.reset_objs, State.reset_octs]
  exact reset_objs_rise

/-- Settles O3: no command waits after reset, so none waits with operands out of range. -/
theorem resetMeetsTheInvariant : Obligations.ResetMeetsTheInvariant :=
  ⟨State.reset_inv, List.forall_mem_nil _, rfl⟩

/-! ### What each command keeps -/

/-- The next state of an outcome, where it gives one, keeps what is to be kept. -/
def keepsNext (k : Kept) (o : Host.Outcome State Fault Refusal) : Prop := ∀ t, o = .next t → keeps k t

theorem keepsNext_next {k : Kept} {t : State} (h : keeps k t) : keepsNext k (.next t) := by
  intro u hu
  cases hu
  exact h

/-- Each command goes by operations that keep what is to be kept; only one that may store asks that stored memory be no part of it. -/
theorem exec_keeps {K : Kept} {s : State} (c : Instr) (hm : storesPool c = true → K.stored = none) (h : keeps K s) : keepsNext K (exec c s) := by
  cases c with
  -- requests of agents and their completion
  | rds | rdx | upg | rdOnce | wrFull | wrPart | evc | wbd | acc | atomFetchAdd | atomSwap | atomCompareSwap | hintPreferHbm | hintPreferDdr5
    | hintExpectReads | dbell | fenceC | fenceO =>
    exact keepsNext_next (State.receive_keeps h)
  | fenceClose => exact keepsNext_next (State.closeFence_keeps h)
  | ptcFetchDone => exact keepsNext_next (State.fetchDone_keeps h)
  -- the home slices: serialising, snoops, responses, grants and census reports
  | homeSliceSerialise => exact keepsNext_next (State.serialise_keeps (hm rfl) h)
  | snoopEgress => exact keepsNext_next (State.snpEgress_keeps h)
  | rspI | rspS | rspDI | rspDS | rspDO | rspDK | rspWB => exact keepsNext_next (State.respond_keeps (hm rfl) h)
  | gntAck => exact keepsNext_next (State.gntAck_keeps (hm rfl) h)
  | evictDataAccepted => exact keepsNext_next (State.evictAccepted_keeps (hm rfl) h)
  | directoryWalkDone => exact keepsNext_next (State.walkDone_keeps (hm rfl) h)
  | snoopTimeout => exact keepsNext_next (State.snoopTimeout_keeps (hm rfl) h)
  | gntAckTimeout => exact keepsNext_next (State.ackTimeout_keeps (hm rfl) h)
  | completionEgress => exact keepsNext_next (State.completionLeaves_keeps h)
  | censusReport => exact keepsNext_next (State.censusReport_keeps h)
  -- accumulate-stores and INT8 scales
  | accFillArrives => exact keepsNext_next (State.accFill_keeps (hm rfl) (State.meet_keeps h))
  | accIdleFlush => exact keepsNext_next (State.accIdle_keeps (hm rfl) h)
  | int8ScaleWrite => exact keepsNext_next (State.int8Write_keeps h)
  -- the chart: commits, windows, bindings and extents
  | stgCommit | stgReadback | stgClear => exact keepsNext_next (State.stgCmd_keeps (State.wake_keeps h))
  | commitTurn => exact keepsNext_next (State.commitTurn_keeps h)
  | applyPoint => exact keepsNext_next (State.unparkStrips_keeps (hm rfl) (State.applyPoint_keeps h))
  | shootdownDrainDone => exact keepsNext_next (State.drainDone_keeps h)
  | internalCommit => exact keepsNext_next (State.unparkStrips_keeps (hm rfl) (State.internalCommit_keeps h))
  | windowGeometryWrite => exact keepsNext_next (State.writeGeometry_keeps h)
  | bindingWrite => exact keepsNext_next (State.writeBinding_keeps h)
  | moor | revoke | share | unshare | grantRevoke => exact keepsNext_next (State.extOp_keeps h)
  | grantIssue => exact keepsNext_next (State.grantIssue_keeps h)
  | probe | probeAns => exact keepsNext_next (State.blkArrive_keeps (hm rfl) h)
  -- jobs of the compute tiles
  | jobDbell => exact keepsNext_next (State.jobBell_keeps (State.wake_keeps h))
  | jobFetch => exact keepsNext_next (State.jobFetch_keeps (hm rfl) h)
  | jobStep | jobReduce | jobConvert | jobFill | jobCopy | jobChecksum | jobNorm => exact keepsNext_next (State.compute_keeps (hm rfl) h)
  | jobPublish => exact keepsNext_next (State.publish_keeps h)
  | publishComplete => exact keepsNext_next (State.publishDone_keeps h)
  | stripStart => exact keepsNext_next (State.stripStart_keeps (hm rfl) (State.ungate_keeps h))
  | stripCommit => exact keepsNext_next (State.stripCommit_keeps h)
  | stripApplyDone => exact keepsNext_next (State.stripApply_keeps (hm rfl) h)
  | reductionAccComplete => exact keepsNext_next (State.redComplete_keeps (hm rfl) h)
  | jobComplete => exact keepsNext_next (State.jobComplete_keeps (hm rfl) h)
  | jobFaultTimeout => exact keepsNext_next (keeps_ite (State.tenderTimeout_keeps h) (State.jobTimeout_keeps (hm rfl) h))
  | jqEnableWrite => exact keepsNext_next (State.jqEnable_keeps h)
  | recipeLoad => exact keepsNext_next (State.recipeLoad_keeps h)
  | recipeUnload => exact keepsNext_next (State.recipeUnload_keeps h)
  -- tender operations, migration and the BLK exchanges
  | trDbell => exact keepsNext_next (State.trBell_keeps (State.wake_keeps h))
  | trEnableWrite => exact keepsNext_next (State.trEnable_keeps h)
  | tenderFetch => exact keepsNext_next (State.tenderFetch_keeps h)
  | tenderCopy => exact keepsNext_next (State.runCopy_keeps (hm rfl) (State.ungate_keeps h))
  | tenderMigrate => exact keepsNext_next (State.runMigrate_keeps (State.ungate_keeps h))
  | tenderPut => exact keepsNext_next (State.runPut_keeps (hm rfl) (State.ungate_keeps h))
  | tenderGet => exact keepsNext_next (State.runGet_keeps (State.ungate_keeps h))
  | hostIn => exact keepsNext_next (State.runHostIn_keeps (hm rfl) (State.ungate_keeps h))
  | hostOut => exact keepsNext_next (State.runHostOut_keeps (hm rfl) (State.ungate_keeps h))
  | unwrap => exact keepsNext_next (State.runUnwrap_keeps (hm rfl) (State.ungate_keeps h))
  | drain => exact keepsNext_next (State.runDrain_keeps h)
  | tenderChunkDone => exact keepsNext_next (State.chunkDone_keeps (hm rfl) h)
  | tenderComplete => exact keepsNext_next (State.tenderComplete_keeps h)
  | migrationStart => exact keepsNext_next (State.migrationStart_keeps h)
  | migrationPassEnd => exact keepsNext_next (State.passEnd_keeps h)
  | migrationFinalPassEnd => exact keepsNext_next (State.finalPassEnd_keeps h)
  | migrationDone => exact keepsNext_next (State.rekeyChecks_keeps (State.migrationDone_keeps h))
  | placementMigrationStart => exact keepsNext_next (State.placeStart_keeps h)
  | place => exact keepsNext_next (State.place_keeps h)
  | placeEnableWrite => exact keepsNext_next (State.setOv_keeps h)
  | blkPut | blkGet | blkGetData | blkMwr | blkAns => exact keepsNext_next (State.blkArrive_keeps (hm rfl) h)
  | remoteChunkResend => exact keepsNext_next (State.resend_keeps (hm rfl) h)
  | remoteTimeout => exact keepsNext_next (State.remoteTimeout_keeps h)
  | pmResync => exact keepsNext_next (State.startResync_keeps h)
  -- sweeps
  | sweepRecordTake => exact keepsNext_next (State.sweepTake_keeps (hm rfl) h)
  | sweepChunk => exact keepsNext_next (State.sweepChunk_keeps (hm rfl) (State.ungate_keeps h))
  | sweepFrameDone => exact keepsNext_next (State.sweepFrameDone_keeps h)
  | engineShootdownAck => exact keepsNext_next (State.shootdownAck_keeps h)
  | teAckTimeout => exact keepsNext_next (State.ackMissed_keeps (hm rfl) h)
  -- the DRAM channels, DIMMs, HBM channels and the scrub
  | dramQueueEnter => exact keepsNext_next (State.queueEnter_keeps h)
  | channelServe => exact keepsNext_next (State.channelServe_keeps h)
  | rowAutoClose => exact keepsNext_next (State.rowClose_keeps h)
  | refreshDue => exact keepsNext_next (State.refreshDue_keeps h)
  | refreshDebtLimit => exact keepsNext_next (State.refreshForced_keeps h)
  | retrainPeriod => exact keepsNext_next (State.retrainDue_keeps h)
  | retrainForce => exact keepsNext_next (State.retrainForce_keeps h)
  | rankPowerDown => exact keepsNext_next (State.rankDown_keeps h)
  | channelTrainingDone => exact keepsNext_next (State.trainingDone_keeps h)
  | caParityAlert => exact keepsNext_next (State.caParity_keeps h)
  | dimmPresentChange => exact keepsNext_next (State.presentChange_keeps h)
  | offline => exact keepsNext_next (State.offline_keeps h)
  | pwrOff => exact keepsNext_next (State.pwrOff_keeps h)
  | pwrOn => exact keepsNext_next (State.pwrOn_keeps h)
  | dimmSettleExpiry => exact keepsNext_next (State.settleEnd_keeps h)
  | online => exact keepsNext_next (State.online_keeps h)
  | hbchFence => exact keepsNext_next (State.hbchFence_keeps h)
  | hbmChannelFenced => exact keepsNext_next (State.fenceHbm_keeps h)
  | relayoutFrameDone => exact keepsNext_next (State.relayoutDone_keeps (hm rfl) h)
  | relayoutFrameFreed => exact keepsNext_next (State.relayMove_keeps h)
  | ceWriteback => exact keepsNext_next (State.ceWriteback_keeps h)
  | ueBucketRoll => exact keepsNext_next (State.rollRates_keeps h)
  | mergeHoldExpiry => exact keepsNext_next (State.mergeExpire_keeps (hm rfl) (State.meet_keeps h))
  | scrubStart => exact keepsNext_next (State.scrubStart_keeps h)
  | scrubCancel => exact keepsNext_next (State.scrubCancel_keeps h)
  | scrubLine => exact keepsNext_next (State.scrubLine_keeps (hm rfl) h)
  -- contexts, policers and notifications
  | ctxAlloc => exact keepsNext_next (State.ctxAlloc_keeps h)
  | ctxActivate => exact keepsNext_next (State.ctxActivate_keeps h)
  | ctxReset => exact keepsNext_next (State.ctxReset_keeps h)
  | ctxFree => exact keepsNext_next (State.ctxFree_keeps h)
  | contextResetDrainEnd => exact keepsNext_next (State.resetDrainEnd_keeps (hm rfl) h)
  | contextResetDone => exact keepsNext_next (State.resetDone_keeps h)
  | contextSweepDone => exact keepsNext_next (State.ctxSweepDone_keeps h)
  | frzRelease => exact keepsNext_next (State.frzRelease_keeps h)
  | policerRefill => exact keepsNext_next (State.policerRefill_keeps h)
  | shaperRefill => exact keepsNext_next (State.shaperRefill_keeps h)
  | ntfBucketRefill => exact keepsNext_next (State.ntfRefill_keeps h)
  | ntfRaise => exact keepsNext_next (State.ntfRaise_keeps h)
  | notificationDeliver => exact keepsNext_next (State.deliverNtf_keeps h)
  | vfFlr => exact keepsNext_next (State.functionReset_keeps h)
  -- life cycle, keys, attestation, link sessions and device sets
  | enterService => exact keepsNext_next (State.enterService_keeps h)
  | enterMaintenance => exact keepsNext_next (State.enterMaintenance_keeps h)
  | decommission => exact keepsNext_next (State.decommission_keeps h)
  | arbCommit => exact keepsNext_next (State.arbCommit_keeps h)
  | keyGenerate => exact keepsNext_next (State.generate_keeps h)
  | keyRekey => exact keepsNext_next (State.rekey_keeps h)
  | rekeyChunk => exact keepsNext_next (State.sweepChunk_keeps (hm rfl) (State.ungate_keeps h))
  | dmExtend => exact keepsNext_next (State.dmExtend_keeps h)
  | attestDevice | attestContext => exact keepsNext_next (State.attest_keeps h)
  | reportReady => exact keepsNext_next (State.reportReady_keeps h)
  | lsHello => exact keepsNext_next (State.lsHello_keeps (hm rfl) h)
  | lsReply => exact keepsNext_next (State.lsReply_keeps (hm rfl) h)
  | lsFinish => exact keepsNext_next (State.lsFinish_keeps (hm rfl) h)
  | lsDone => exact keepsNext_next (State.lsDone_keeps (hm rfl) h)
  | lsAbort => exact keepsNext_next (State.lsAbort_keeps (hm rfl) h)
  | linkRekeyDue => exact keepsNext_next (State.rekeyDue_keeps h)
  | lkOffer => exact keepsNext_next (State.lkOffer_keeps (hm rfl) h)
  | lkAccept => exact keepsNext_next (State.lkAccept_keeps (hm rfl) h)
  | oldKeyExpire => exact keepsNext_next (State.oldKeyExpire_keeps h)
  | laneCountLimit => exact keepsNext_next (State.laneCountLimit_keeps (hm rfl) h)
  | linkRelease => exact keepsNext_next (State.linkRelease_keeps h)
  | setForm => exact keepsNext_next (State.setForm_keeps h)
  | setDestroy => exact keepsNext_next (State.setDestroy_keeps h)
  | joinReq => exact keepsNext_next (State.joinReq_keeps h)
  | joinAck => exact keepsNext_next (State.joinAck_keeps h)
  | joinKey => exact keepsNext_next (State.joinKey_keeps h)
  | joinDone => exact keepsNext_next (State.joinDone_keeps h)
  | joinTimeout => exact keepsNext_next (State.joinTimeout_keeps h)
  | dbgNonceRead => exact keepsNext_next (State.dbgNonceRead_keeps h)
  | dbgToken => exact keepsNext_next (State.dbgToken_keeps h)
  | dbgNonceExpire => exact keepsNext_next (State.dbgNonceExpire_keeps h)
  | jtagExtestSelect => exact keepsNext_next (State.extest_keeps h)
  | ideKmRequest => exact keepsNext_next (State.ideKm_keeps h)
  -- the Boroc link layer
  | idleFlit | dataFlit | contFlit | handshakeFlit => exact keepsNext_next (State.flitIn_keeps (hm rfl) h)
  | trainFlit => exact keepsNext_next (State.trainFrame_keeps h)
  | flitTime => exact keepsNext_next (State.flitTime_keeps h)
  | rtxTimer => exact keepsNext_next (State.rtxTimer_keeps h)
  | creditReturnDue => exact keepsNext_next (State.creditDue_keeps h)
  | beaconIdle => exact keepsNext_next (State.beaconIdle_keeps h)
  | driftRetrain => exact keepsNext_next (State.driftRetrain_keeps h)
  | fastRetrain => exact keepsNext_next (State.startRetrain_keeps h)
  | fastRetrainDone => exact keepsNext_next (State.retrainDone_keeps h)
  | retrainLimitExpiry => exact keepsNext_next (State.retrainAgain_keeps h)
  | fullTraining | linkDownRetry => exact keepsNext_next (State.fullTraining_keeps h)
  | fullTrainingDone => exact keepsNext_next (State.fullDone_keeps (hm rfl) h)
  | laneFail => exact keepsNext_next (State.laneFail_keeps (hm rfl) h)
  | portLossTimeout => exact keepsNext_next (State.leaseCheck_keeps (State.portLossTimeout_keeps (hm rfl) h))
  | narrowIdle => exact keepsNext_next (State.narrowIdle_keeps h)
  | widthChangeEffect => exact keepsNext_next (State.widthEffect_keeps h)
  | portFence => exact keepsNext_next (State.leaseCheck_keeps (State.portFence_keeps (hm rfl) h))
  | portRepair => exact keepsNext_next (State.portRepair_keeps h)
  | portRetrain => exact keepsNext_next (State.portRetrain_keeps h)
  | portRestart => exact keepsNext_next (State.leaseCheck_keeps (State.portRestart_keeps (hm rfl) h))
  -- fault rings and the closing of extents
  | faultRecordPost => exact keepsNext_next (State.postWaiting_keeps h)
  | faultBudgetRefill => exact keepsNext_next (State.faultRefill_keeps h)
  | frCoalExpiry => exact keepsNext_next (State.frCoal_keeps h)
  | frRepost => exact keepsNext_next (State.frRepost_keeps h)
  | closeDone => exact keepsNext_next (State.closeDone_keeps h)
  | drainCounterFree => exact keepsNext_next (State.counterFree_keeps h)
  | revokeDrainDone => exact keepsNext_next (State.revokeDrained_keeps h)
  | drainTimeout => exact keepsNext_next (State.drainTimeout_keeps h)
  | recallDone => exact keepsNext_next (State.dropShares_keeps (State.rekeyChecks_keeps (State.recallDone_keeps h)))
  -- loss of agents and the fail-over of slices
  | agentLossTime => exact keepsNext_next (State.agentLossTime_keeps (hm rfl) h)
  | agtFence => exact keepsNext_next (State.agtFence_keeps (hm rfl) h)
  | purgeWalkDone => exact keepsNext_next (State.purgeWalk_keeps (hm rfl) h)
  | agtRejoin => exact keepsNext_next (State.agtRejoin_keeps h)
  | sliceFailover => exact keepsNext_next (State.sliceFailover_keeps (hm rfl) h)
  | censusClose => exact keepsNext_next (State.censusClose_keeps h)
  | failoverHoldEnd => exact keepsNext_next (State.holdEnd_keeps (hm rfl) h)
  | unkRelease => exact keepsNext_next (State.unkRelease_keeps h)
  -- units, routers, Keepers, lost ports, firmware and the log
  | unitFence => exact keepsNext_next (State.criticalError_keeps (hm rfl) h)
  | routerFailure => exact keepsNext_next (State.routerFailed_keeps (hm rfl) h)
  | routeDrainDone => exact keepsNext_next (State.routeDrained_keeps (hm rfl) h)
  | unitCmdFence => exact keepsNext_next (State.cmdFence_keeps (hm rfl) h)
  | quiesceDone => exact keepsNext_next (State.quiesceDone_keeps (hm rfl) h)
  | unitCmdRepair => exact keepsNext_next (State.cmdRepair_keeps h)
  | repairSelftestDone => exact keepsNext_next (State.selftestDone_keeps (hm rfl) h)
  | unitCmdSwap => exact keepsNext_next (State.cmdSwap_keeps h)
  | swapDone => exact keepsNext_next (State.swapDone_keeps (hm rfl) h)
  | keeperHeartbeat => exact keepsNext_next (State.heartbeat_keeps h)
  | keeperFailover => exact keepsNext_next (State.keeperFail_keeps h)
  | keeperSwap => exact keepsNext_next (State.keeperSwap_keeps h)
  | keeperRepair => exact keepsNext_next (State.keeperRepair_keeps h)
  | portLost => exact keepsNext_next (State.leaseCheck_keeps (State.portLost_keeps (hm rfl) h))
  | linkSync => exact keepsNext_next (State.linkSync_keeps (hm rfl) h)
  | linkSyncTimeout => exact keepsNext_next (State.linkSyncTimeout_keeps (hm rfl) h)
  | pciePortLost => exact keepsNext_next (State.leaseCheck_keeps (State.pcieLost_keeps h))
  | fwErase => exact keepsNext_next (State.fwErase_keeps h)
  | fwBlockWrite => exact keepsNext_next (State.fwBlock_keeps h)
  | fwVerify => exact keepsNext_next (State.fwVerify_keeps h)
  | fwActivate => exact keepsNext_next (keeps_ite (State.softReset_keeps (hm rfl) (State.fwActivate_keeps h)) (State.fwActivate_keeps h))
  | logAck => exact keepsNext_next (State.logAck_keeps h)
  -- resets and start-up
  | pwrgoodAonLow => exact keepsNext_next (State.aonLow_keeps (hm rfl) h)
  | coreBrownOut => exact keepsNext_next (State.coreFall_keeps (hm rfl) h)
  | rstNInput => exact keepsNext_next (State.rstInput_keeps (hm rfl) h)
  | watchdogExpiry => exact keepsNext_next (State.watchdog_keeps (hm rfl) h)
  | rstCmdCore | rstCmdSystem => exact keepsNext_next (State.softReset_keeps (hm rfl) h)
  | dbgReq => exact keepsNext_next (State.dbgReq_keeps (hm rfl) h)
  | clockFailure | lockup => exact keepsNext_next (State.assertSrc_keeps (hm rfl) h)
  | perst => exact keepsNext_next (State.leaseCheck_keeps (State.perst_keeps h))
  | episodeEnd => exact keepsNext_next (State.episodeEnd_keeps h)
  | rstNSample => exact keepsNext_next (State.rstSample_keeps (hm rfl) h)
  | trimLoadDone => exact keepsNext_next (State.trimDone_keeps h)
  | oscDlyWaitEnd => exact keepsNext_next (State.oscDone_keeps h)
  | powerOnBistDone => exact keepsNext_next (State.bistDone_keeps h)
  | keeperBootDone => exact keepsNext_next (State.bootDone_keeps (hm rfl) h)
  -- clocks
  | pllLockLoss => exact keepsNext_next (State.pllLockLoss_keeps h)
  | pllEdgeLoss => exact keepsNext_next (State.pllEdgeLoss_keeps h)
  | rootCmd => exact keepsNext_next (State.rootCmd_keeps h)
  | srefLoss => exact keepsNext_next (State.srefLoss_keeps (hm rfl) h)
  | pcieRefclkLoss => exact keepsNext_next (State.leaseCheck_keeps (State.refclkLoss_keeps h))
  | arithDivStep => exact keepsNext_next (State.divStep_keeps h)
  | fcStart => exact keepsNext_next (State.fcStart_keeps h)
  | fcDone => exact keepsNext_next (State.fcDone_keeps h)
  -- power states and thermal limits
  | pstateTargetWrite => exact keepsNext_next (State.setTarget3_keeps h)
  | p1GateIdle => exact keepsNext_next (State.gateIdle_keeps h)
  | p2Idle => exact keepsNext_next (State.enterP2_keeps (hm rfl) h)
  | wakeEvent => exact keepsNext_next (State.wake_keeps h)
  | p3Entry => exact keepsNext_next (State.enterP3_keeps (hm rfl) h)
  | p3IdleTimeout => exact keepsNext_next (State.p3Timeout_keeps h)
  | p3Exit => exact keepsNext_next (State.exitP3_keeps (hm rfl) h)
  | p3LinkGraceEnd => exact keepsNext_next (State.graceEnd_keeps h)
  | thermalSample => exact keepsNext_next (State.thermal_keeps h)
  | thermtrip => exact keepsNext_next (State.thermtrip_keeps h)
  | energyBucketUpdate => exact keepsNext_next (State.energy_keeps h)
  | governorTick => exact keepsNext_next (State.governor_keeps h)
  | wearLedgerTick => exact keepsNext_next (State.wearTick_keeps h)
  -- the Light List
  | llRead | llWrite | llReadBlock | llWriteBlock | llSubscribe | llUnsubscribe | llPing => exact keepsNext_next (State.serveMsg_keeps (hm rfl) h)
  | llAck => exact keepsNext_next (State.llAck_keeps h)
  | subscriptionCheck => exact keepsNext_next (State.checkSubs_keeps h)
  | eventResend => exact keepsNext_next (State.resendEvent_keeps h)
  | leaseAcquire => exact keepsNext_next (State.leaseAcquire_keeps h)
  | leaseRenew => exact keepsNext_next (State.leaseRenew_keeps h)
  | leaseRelease => exact keepsNext_next (State.leaseRelease_keeps h)
  | leaseExpire => exact keepsNext_next (State.leaseExpire_keeps h)
  | ssHello => exact keepsNext_next (State.ssHello_keeps h)
  | ssFinish => exact keepsNext_next (State.ssFinish_keeps h)
  | llpHandshakeTimeout => exact keepsNext_next (State.hsTimeout_keeps h)
  | llpIdleTimeout => exact keepsNext_next (State.endSession_keeps h)
  | llpDatagram => exact keepsNext_next (State.datagram_keeps (hm rfl) h)
  | mbCmd => exact keepsNext_next (State.boxCmd_keeps (hm rfl) (State.wake_keeps h))
  | llm => exact keepsNext_next (State.llm_keeps (hm rfl) h)
  | nvFlashWriteDone => exact keepsNext_next (State.nvDone_keeps h)
  -- board inputs and the host windows
  | pwrgoodDramRise => exact keepsNext_next (State.dramRise_keeps h)
  | pwrgoodCoreRise => exact keepsNext_next (State.coreRise_keeps h)
  | pcieLinkTraining => exact keepsNext_next (State.leaseCheck_keeps (State.pcieTrained_keeps h))
  | pwrgoodAonRise => exact keepsNext_next (State.aonRise_keeps h)
  | pwrgoodDramFall => exact keepsNext_next (State.dramFall_keeps h)
  | rstNRelease | dbgReqNRelease => exact keepsNext_next (State.releaseSrc_keeps h)
  | keeperHeartbeatTimeout => exact keepsNext_next (State.romSilent_keeps h)
  | mgmtLinkDown => exact keepsNext_next (State.mgmtDown_keeps h)
  | frHeadWrite => exact keepsNext_next (State.frHeadWrite_keeps (State.wake_keeps h))
  | ntfHeadWrite => exact keepsNext_next (State.ntfHeadWrite_keeps (State.wake_keeps h))
  | mbBufWrite => exact keepsNext_next (State.boxWrite_keeps (State.wake_keeps h))
  -- the arm left is RECALL's, whose name is also a word of Lean's own
  | _ => exact keepsNext_next (State.recallLine_keeps (hm rfl) h)

/-! ### Steps and stored memory -/

theorem State.inv_of_keeps {K : Kept} {s : State} (hok : K.ok = true) (h : keeps K s) : s.Inv := by
  obtain ⟨_, _, _, _, hinv, _⟩ := h
  exact hinv hok

/-- A state that keeps the stored memory of another has it. -/
theorem State.sameStored_of_keeps {s t : State} {ok : Bool} (h : keeps (s.kept ok true) t) : s.sameStored t := by
  obtain ⟨_, _, _, _, _, hstored⟩ := h
  have hsame : (t.mem, t.poison, t.chunkKey) = (s.mem, s.poison, s.chunkKey) := hstored _ rfl
  exact ⟨congrArg (·.1) hsame, congrArg (·.2.1) hsame, congrArg (·.2.2) hsame⟩

/-- Settles O5: a step is a tick, which keeps the LTC in its 64 bits, or the front command, which keeps the invariant. -/
theorem everyStepKeepsTheInvariant : Obligations.EveryStepKeepsTheInvariant := by
  intro s t hinv hstep
  unfold step at hstep
  split at hstep
  next =>
    cases hstep
    exact State.inv_of_keeps rfl (State.clockTick_keeps (s.keeps_self true false fun _ => hinv))
  next c rest _ =>
    have hrest : keeps (({ s with pending := rest } : State).kept true false) { s with pending := rest } := State.keeps_self _ _ _ fun _ => hinv
    exact State.inv_of_keeps rfl (exec_keeps c (fun _ => rfl) hrest t hstep)

/-- Settles O7: a command that may not store keeps the stored memory with all else that is kept. -/
theorem poolMemoryIsKept : Obligations.PoolMemoryIsKept := by
  intro c s t hstores hexec
  have hself : keeps (s.kept false true) s := s.keeps_self false true fun hok => absurd hok Bool.false_ne_true
  exact State.sameStored_of_keeps (exec_keeps c (fun hmay => absurd (hstores.symm.trans hmay) Bool.false_ne_true) hself t hexec)

end Sys2Proof.Machine
end

section
/-! PROOFS. Stored code words (R373, R380, R381, R455): what a store leaves of the stored memory, and what a code word then reads as. -/

namespace Sys2Proof.Machine

open Sys2Proof

/-! ### How a code word reads -/

section Reads

variable {s t : State} {v : Nat}

theorem State.cwStored_poison {r : Nat} (hpoison : Tab.get 0 s.poison v = r) (hr : r ≠ 0) : s.cwStored v = .poison r := by
  unfold State.cwStored
  rw [hpoison]
  split
  · contradiction
  · rfl

theorem State.cwStored_data (hclean : Tab.get 0 s.poison v = 0) (hkey : Tab.get 0 s.chunkKey (v / 64) = s.frameKey (v * 64)) :
    s.cwStored v = .data (s.rawBytes (v * 64) 64) := by
  simp only [State.cwStored, hclean, hkey, true_or, if_true]

/-- A code word reads alike where its poison, its bytes, and the keys it is stored and read under are alike. -/
theorem State.cwStored_congr (hpoison : Tab.get 0 t.poison v = Tab.get 0 s.poison v)
    (hstored : Tab.get 0 t.chunkKey (v / 64) = Tab.get 0 s.chunkKey (v / 64)) (hread : t.frameKey (v * 64) = s.frameKey (v * 64))
    (hbytes : t.rawBytes (v * 64) 64 = s.rawBytes (v * 64) 64) : t.cwStored v = s.cwStored v := by
  simp only [State.cwStored, hpoison, hstored, hread, hbytes]

end Reads

/-! ### What a store leaves -/

section Store

variable (s : State) (w : Nat) (bs : Bytes) (r : Nat)

@[simp] theorem State.cwStore_poison_data : (s.cwStore w (.data bs)).poison = Tab.put 0 s.poison w 0 := rfl

@[simp] theorem State.cwStore_poison_poison : (s.cwStore w (.poison r)).poison = Tab.put 0 s.poison w r := rfl

@[simp] theorem State.cwStore_chunkKey_data : (s.cwStore w (.data bs)).chunkKey = Tab.put 0 s.chunkKey (w / 64) (s.frameKey (w * 64)) := rfl

@[simp] theorem State.cwStore_chunkKey_poison : (s.cwStore w (.poison r)).chunkKey = s.chunkKey := rfl

@[simp] theorem State.cwStore_frameKey (c : Cw) (ppa : Nat) : (s.cwStore w c).frameKey ppa = s.frameKey ppa := by cases c <;> rfl

@[simp] theorem State.cwStore_rawBytes_poison (ppa n : Nat) : (s.cwStore w (.poison r)).rawBytes ppa n = s.rawBytes ppa n := rfl

variable {s} (hmem : s.memOk)
include hmem

theorem State.cwStore_rawBytes_self : (s.cwStore w (.data bs)).rawBytes (w * 64) 64 = fitTo 64 bs :=
  rawBytes_put_self s hmem.1 (w * 64) (fitTo 64 bs) (fitTo_len 64 bs)

theorem State.cwStore_rawBytes_other {v : Nat} (hv : v ≠ w) : (s.cwStore w (.data bs)).rawBytes (v * 64) 64 = s.rawBytes (v * 64) 64 :=
  rawBytes_put_other s hmem.1 v w (fitTo 64 bs) (fitTo_len 64 bs) hv

end Store

/-! ### A code word read after a store -/

section Stored

variable {s : State} (hmem : s.memOk) {w : Nat}
include hmem

theorem State.cwStored_cwStore_data (bs : Bytes) : (s.cwStore w (.data bs)).cwStored w = .data (fitTo 64 bs) := by
  have ⟨_, hpoison, hkeys, _⟩ := hmem
  rw [State.cwStored_data, State.cwStore_rawBytes_self w bs hmem]
  · rw [State.cwStore_poison_data, Tab.get_put hpoison, if_pos rfl]
  · rw [State.cwStore_chunkKey_data, Tab.get_put hkeys, if_pos rfl, State.cwStore_frameKey]

theorem State.cwStored_cwStore_poison {r : Nat} (hr : r ≠ 0) : (s.cwStore w (.poison r)).cwStored w = .poison r := by
  obtain ⟨_, hpoison, _, _⟩ := hmem
  exact State.cwStored_poison (by rw [State.cwStore_poison_poison, Tab.get_put hpoison, if_pos rfl]) hr

theorem State.cwStored_cwStore_data_other {v : Nat} (bs : Bytes) (hv : v ≠ w)
    (hchunk : v / 64 ≠ w / 64 ∨ Tab.get 0 s.chunkKey (w / 64) = s.frameKey (w * 64)) :
    (s.cwStore w (.data bs)).cwStored v = s.cwStored v := by
  refine State.cwStored_congr ?poison ?key (State.cwStore_frameKey ..) (State.cwStore_rawBytes_other w bs hmem hv)
  case poison => rw [State.cwStore_poison_data, Tab.get_put_ne hv.symm]
  case key =>
    obtain ⟨_, _, hkeys, _⟩ := hmem
    rw [State.cwStore_chunkKey_data, Tab.get_put hkeys]
    split
    next hsame => exact (hchunk.resolve_left fun hne => hne hsame.symm).symm.trans (congrArg _ hsame)
    next => rfl

end Stored

/-- The poison of one code word is stored beside its chunk's bytes and key, and changes neither. -/
theorem State.cwStored_cwStore_poison_other (s : State) {v w : Nat} (r : Nat) (hv : v ≠ w) :
    (s.cwStore w (.poison r)).cwStored v = s.cwStored v :=
  State.cwStored_congr (by rw [State.cwStore_poison_poison, Tab.get_put_ne hv.symm]) (by rw [State.cwStore_chunkKey_poison])
    (State.cwStore_frameKey ..) (State.cwStore_rawBytes_poison ..)

/-- Settles O8: a store writes the poison of its own code word, the bytes of its own place and the key of its own chunk. -/
theorem codeWordsReadBack : Obligations.CodeWordsReadBack := by
  intro s w v bs r hmem hr
  exact ⟨State.cwStored_cwStore_data hmem bs, State.cwStored_cwStore_poison hmem hr, State.cwStored_cwStore_poison_other s r,
    State.cwStored_cwStore_data_other hmem bs⟩

end Sys2Proof.Machine
end

section
/-! PROOFS. Agents and home slices lost (R394, R547-R563, R569): when an agent is declared lost, when its purge ends and it rejoins, what a
spare makes of the slice whose role it takes, and how the census and the hold end. -/

namespace Sys2Proof.Machine

open Sys2Proof

/-! ### Agents (R547-R553) -/

section Agents

variable {s : State} {a : Nat}

theorem State.agentLossTime_noRoute (ha : a < 4096) (hroute : s.noRoute a = true) (hgrace : s.pwr.grace = false) :
    s.agentLossTime a = s.declareLost a 1 := by
  simp only [State.agentLossTime, ha, hroute, hgrace, Bool.not_false, and_self, if_true]

theorem State.agtFence_present (ha : a < 4096) (hlife : (s.agent a).life = .present) : s.agtFence a = (true, s.declareLost a 4) :=
  if_pos ⟨ha, hlife⟩

theorem State.agtRejoin_absent (ha : a < 4096) (hlife : (s.agent a).life = .absent) :
    s.agtRejoin a = (true, s.setAgent a { s.agent a with life := .present }) :=
  if_pos ⟨ha, hlife⟩

/-- An agent that holds no CAN is recorded in no directory: a slice's walk finds nothing, and the last slice's makes the agent ABSENT. -/
theorem State.purgeWalk_noCans {hs : Nat} (hhs : hs < 32) (hlife : (s.agent a).life = .purging) (hserves : s.slcServes hs = true)
    (hcans : s.cansOf a = []) :
    s.purgeWalk hs a =
      if setBit (s.agent a).purge hs = allSlices then
        (s.setAgent a { s.agent a with purge := setBit (s.agent a).purge hs, life := .absent }).setOv O.purge_time
          (ticksUs (s.ltc - (s.agent a).purgeAt) % 2 ^ 32) a
      else s.setAgent a { s.agent a with purge := setBit (s.agent a).purge hs } := by
  have hruns : ¬((s.agent a).life ≠ .purging ∨ 32 ≤ hs ∨ (!s.slcServes hs) = true) := by
    simp only [hlife, hserves, Nat.not_le.mpr hhs, ne_eq, not_true_eq_false, Bool.not_true, Bool.false_eq_true, or_self, not_false_eq_true]
  unfold State.purgeWalk
  rw [if_neg hruns, hcans]
  rfl

end Agents

/-! ### Home slices (R394, R556-R563) -/

section Slices

variable {s : State} {h : Nat}

theorem State.censusClose_counting (hphase : (s.slc h).phase = 2) :
    s.censusClose h = s.setSlc h { s.slc h with
      phase := 3, laggards := ((s.slc h).laggards ++ (s.slc h).queried).eraseDups, queried := [], unsent := [] } :=
  if_pos hphase

theorem State.holdEnd_answered (hphase : (s.slc h).phase = 3) (hsnoops : s.coh.snoops.any (fun y => y.hs == h) = false) :
    s.holdEnd h = ((((s.freeCopies h).setSlc h { s.slc h with phase := 0, retained := [] }).reissue h (s.slc h).retained).bump O.reissued h 0
      (s.reqs.filter (fun r => r.phase == .holding && (s.slc h).retained.contains r.id)).length).setOv O.hold_time_last
      (ticksUs (s.ltc - (s.slc h).since) % 2 ^ 32) h := by
  have hends : ¬((s.slc h).phase ≠ 3 ∨ s.coh.snoops.any (fun y => y.hs == h) = true) := by
    rw [hphase, hsnoops]
    decide
  unfold State.holdEnd
  exact if_neg hends

/-- What the lost slice `h` held leaves the merge buffer and the accumulator lines. -/
def State.emptySlice (s : State) (h : Nat) : State :=
  { s with coh := { s.coh with
    merge := s.coh.merge.filter (fun p => hsLine p.1 != h), acc := s.coh.acc.filter (fun p => hsLine p.1 != h) } }

/-- The accumulator lines of slice `h` whose sums memory does not hold. -/
def State.dirtyAccs (s : State) (h : Nat) : List Nat :=
  (s.coh.acc.filter (fun p => hsLine p.1 == h && (p.2.dirty || p.2.pend != []))).map (·.1)

/-- The ACCs and ATOMs that slice `h` retained. -/
def State.retainedAccs (s : State) (h : Nat) : List Req :=
  s.reqs.filter (fun r => (s.slc h).retained.contains r.id && r.phase == .holding && (r.kind == .acc || r.kind == .atom))

theorem State.sliceFailover_lit {v w : State} (hphase : (s.slc h).phase = 1) (hlit : s.lit 0 h = true)
    (hv : v = ((((s.emptySlice h).poisonMerge (s.coh.merge.filter (fun p => hsLine p.1 == h))).poisonLines 4
      (s.dirtyAccs h ++ (s.retainedAccs h).map (fun r => r.ppa / 128))).failAccs h (s.retainedAccs h)).setOv O.acc_tags_poisoned (s.dirtyAccs h).length h)
    (hw : w = (v.setOv O.replayed 0 h).replayCopies (s.coh.repl.filter (fun p => p.2.1 == h))) :
    s.sliceFailover h = (w.setSlc h { w.slc h with
      phase := 2, census := ((s.slc h).census + 1) % 65536, counted := true, queried := w.presentCans, unsent := w.presentCans, laggards := [],
      full := [], noSpare := false }).sendQueries h := by
  have hruns : ¬((s.slc h).phase ≠ 1 ∨ (!s.lit 0 h) = true) := by
    rw [hphase, hlit]
    decide
  rw [hw, hv]
  unfold State.sliceFailover
  exact if_neg hruns

end Slices

/-! ### The commands -/

theorem exec_agentLossTime (s : State) (a : Nat) : exec (.agentLossTime a) s = .next (s.agentLossTime a) := rfl

theorem exec_agtFence (s : State) (a : Nat) : exec (.agtFence a) s = .next (s.agtFence a).2 := rfl

theorem exec_purgeWalkDone (s : State) (hs a : Nat) : exec (.purgeWalkDone hs a) s = .next (s.purgeWalk hs a) := rfl

theorem exec_agtRejoin (s : State) (a : Nat) : exec (.agtRejoin a) s = .next (s.agtRejoin a).2 := rfl

theorem exec_sliceFailover (s : State) (h : Nat) : exec (.sliceFailover h) s = .next (s.sliceFailover h) := rfl

theorem exec_censusClose (s : State) (h : Nat) : exec (.censusClose h) s = .next (s.censusClose h) := rfl

theorem exec_failoverHoldEnd (s : State) (h : Nat) : exec (.failoverHoldEnd h) s = .next (s.holdEnd h) := rfl

theorem exec_unkRelease (s : State) (h can : Nat) : exec (.unkRelease h can) s = .next (s.unkRelease h can) := rfl

/-- Settles O50: each clause is the equation of its operation for the agent or the slice the clause names. -/
theorem agentsAndSlicesAreLost : Obligations.AgentsAndSlicesAreLost := by
  refine ⟨fun s => ⟨?loss, ?fence, ?rejoin, ?purge, ?census, ?hold, ?release⟩, ?failover⟩
  case loss =>
    intro a ha hroute hgrace
    rw [exec_agentLossTime, State.agentLossTime_noRoute ha hroute hgrace]
  case fence =>
    intro a ha hlife
    rw [exec_agtFence, State.agtFence_present ha hlife]
  case rejoin =>
    intro a ha hlife
    rw [exec_agtRejoin, State.agtRejoin_absent ha hlife]
  case purge =>
    intro hs hhs a hlife hserves hcans
    rw [exec_purgeWalkDone, State.purgeWalk_noCans hhs hlife hserves hcans]
    refine ⟨fun hlast => ?_, fun hmore => ?_⟩
    · rw [if_pos hlast, hlast]
    · rw [if_neg hmore]
  case census =>
    intro hs hphase
    rw [exec_censusClose, State.censusClose_counting hphase]
  case hold =>
    intro hs hphase hsnoops
    rw [exec_failoverHoldEnd, State.holdEnd_answered hphase hsnoops]
  case release => exact fun hs can => exec_unkRelease s hs can
  case failover =>
    intro s h x acc rs u v w hx hphase hlit hacc hrs hu hv hw
    subst hx hacc hrs hu
    rw [exec_sliceFailover, State.sliceFailover_lit hphase hlit hv hw]

end Sys2Proof.Machine
end

section
/-! PROOFS. Contexts (R402-R407): the checks of the context commands in their order, the steps of a context reset, and the end of a sweep. -/

namespace Sys2Proof.Machine

open Sys2Proof

/-! ### The commands of a context (R402-R404) -/

section Commands

variable {s : State} {c : Nat}

theorem State.ctxBusy_iff : s.ctxBusy c = true ↔ (s.ctx c).cmd ≠ 0 := bne_iff_ne

theorem State.not_ctxBusy (hidle : (s.ctx c).cmd = 0) : ¬s.ctxBusy c = true := fun hbusy => State.ctxBusy_iff.mp hbusy hidle

theorem State.hasKey_iff : s.hasKey c = true ↔ s.keyId c (s.ctx c).active ≠ 0 := bne_iff_ne

variable (hc : c < 1024)
include hc

theorem State.ctxAlloc_busy (hbusy : (s.ctx c).cmd ≠ 0) : s.ctxAlloc c = s.ctxResult c 4 := by
  rw [State.ctxAlloc, if_neg (Nat.not_le.mpr hc), if_pos (State.ctxBusy_iff.mpr hbusy)]

theorem State.ctxAlloc_free (hidle : (s.ctx c).cmd = 0) (hst : (s.ctx c).st = .free) :
    s.ctxAlloc c = State.setCtx { s.defaultScope c with pol := (s.defaultScope c).pol.filter (fun p => p.1 % 1024 != c) } c
      { Ctx.dflt with st := .configuring } := by
  rw [State.ctxAlloc, if_neg (Nat.not_le.mpr hc), if_neg (State.not_ctxBusy hidle), if_neg (not_not_intro hst)]

theorem State.ctxActivate_busy (hbusy : (s.ctx c).cmd ≠ 0) : s.ctxActivate c = s.ctxResult c 4 := by
  rw [State.ctxActivate, if_neg (Nat.not_le.mpr hc), if_pos (State.ctxBusy_iff.mpr hbusy)]

theorem State.ctxActivate_badState (hidle : (s.ctx c).cmd = 0) (hst : (s.ctx c).st ≠ .configuring) :
    s.ctxActivate c = s.ctxResult c 1 := by
  rw [State.ctxActivate, if_neg (Nat.not_le.mpr hc), if_neg (State.not_ctxBusy hidle), if_pos hst]

/-- A configured context has its window checked first and its key second (R403). -/
theorem State.ctxActivate_configured (hidle : (s.ctx c).cmd = 0) (hst : (s.ctx c).st = .configuring) {u : State}
    (hu : u = s.daymark c 1 (natLe 1 (s.ov O.enclave c) ++ zeros 31)) :
    s.ctxActivate c =
      if s.ov O.win_count c = 0 then s.ctxResult c 2
      else if s.keyId c (s.ctx c).active = 0 then s.ctxResult c 3
      else ((u.setCtx c { u.ctx c with st := .active }).raiseSys c 2).ctxResult c 0 := by
  have hkey : (!s.hasKey c) = true ↔ s.keyId c (s.ctx c).active = 0 := by
    rw [Bool.not_eq_true', ← Bool.not_eq_true, State.hasKey_iff, Decidable.not_not]
  rw [State.ctxActivate, if_neg (Nat.not_le.mpr hc), if_neg (State.not_ctxBusy hidle), if_neg (not_not_intro hst), hu]
  simp only [hkey]

theorem State.ctxReset_busy (hbusy : (s.ctx c).cmd ≠ 0) : s.ctxReset c = s.ctxResult c 4 := by
  rw [State.ctxReset, if_neg (Nat.not_le.mpr hc), if_pos (State.ctxBusy_iff.mpr hbusy)]

theorem State.ctxReset_begins (hidle : (s.ctx c).cmd = 0) (hst : (s.ctx c).st = .configuring ∨ (s.ctx c).st = .active) :
    s.ctxReset c = s.beginReset c 3 := by
  rw [State.ctxReset, if_neg (Nat.not_le.mpr hc), if_neg (State.not_ctxBusy hidle)]
  obtain hst | hst := hst <;> rw [hst]

theorem State.ctxFree_begins (hst : (s.ctx c).st = .configuring ∨ (s.ctx c).st = .active) : s.ctxFree c = s.beginReset c 4 := by
  rw [State.ctxFree, if_neg (Nat.not_le.mpr hc)]
  obtain hst | hst := hst <;> rw [hst]

theorem State.ctxFree_quiescing (hst : (s.ctx c).st = .quiescing) : s.ctxFree c = s.setCtx c { s.ctx c with endFree := true, cmd := 4 } := by
  rw [State.ctxFree, if_neg (Nat.not_le.mpr hc), hst]

end Commands

/-! ### The context reset and the sweep (R405-R407) -/

section Reset

variable {s u v w : State} {c : Nat} {m : Met}

theorem State.resetDrainEnd_draining (hphase : (s.ctx c).rphase = 1)
    (hu : u = (s.meet m.errs).failStragglers ((s.meet m.errs).reqs.filter (resetStraggler c)))
    (hv : v = ((u.cancelJobs m c).cancelOps c).defaultX c)
    (hw : w = (State.zeroDeficit { v with jobs := { v.jobs with
      qwait := (List.range 4).foldl (fun t i => Tab.put none t (4 * c + i) none) v.jobs.qwait } } c).fillBuckets c) :
    s.resetDrainEnd c m = w.setCtx c { w.ctx c with vecs := [], rphase := 2, rwalk := 0 } := by
  rw [State.resetDrainEnd, if_neg (not_not_intro hphase), hw, hv, hu]

/-- A reset is done when the recall has walked every slice and nothing of the context's work is left (R406 step 6). -/
theorem State.resetDone_walked (hphase : (s.ctx c).rphase = 2) (hwalk : (s.ctx c).rwalk = 2 ^ 32 - 1) (hgone : s.workGone c = true)
    (hu : u = ((s.clearPends c).bump O.ctx_resets c).setOv O.ctx_reset_time (ticksUs (s.ltc - (s.ctx c).rstart) % 2 ^ 32) c) :
    s.resetDone c = if (s.ctx c).endFree then u.enterSweeping c
      else ((u.setCtx c { u.ctx c with st := .configuring, rphase := 0, cmd := 0 }).raiseSys c 2).ctxResult c 0 := by
  have hdone : ¬((s.ctx c).rphase ≠ 2 ∨ (s.ctx c).rwalk ≠ 2 ^ 32 - 1 ∨ (!s.workGone c) = true) := by
    rw [hphase, hwalk, hgone]
    decide
  rw [State.resetDone, if_neg hdone, hu]

theorem State.ctxSweepDone_swept (hst : (s.ctx c).st = .sweeping) (hswept : s.sweptOut c = true) :
    s.ctxSweepDone c = (((s.clearWindow c).defaultScope c).setCtx c Ctx.dflt).resolveFree :=
  if_pos ⟨hst, hswept⟩

end Reset

/-! ### The commands -/

theorem exec_ctxAlloc (s : State) (c : Nat) : exec (.ctxAlloc c) s = .next (s.ctxAlloc c) := rfl

theorem exec_ctxActivate (s : State) (c : Nat) : exec (.ctxActivate c) s = .next (s.ctxActivate c) := rfl

theorem exec_ctxReset (s : State) (c : Nat) : exec (.ctxReset c) s = .next (s.ctxReset c) := rfl

theorem exec_ctxFree (s : State) (c : Nat) : exec (.ctxFree c) s = .next (s.ctxFree c) := rfl

theorem exec_contextResetDrainEnd (s : State) (c : Nat) (m : Met) : exec (.contextResetDrainEnd c m) s = .next (s.resetDrainEnd c m) := rfl

theorem exec_contextResetDone (s : State) (c : Nat) : exec (.contextResetDone c) s = .next (s.resetDone c) := rfl

theorem exec_contextSweepDone (s : State) (c : Nat) : exec (.contextSweepDone c) s = .next (s.ctxSweepDone c) := rfl

/-- Settles O37: the checks of ACTIVATE one after the other, the running command first, then the state, the window and the key. -/
theorem activateNeedsWindowAndKey : Obligations.ActivateNeedsWindowAndKey := by
  intro s c hc
  simp only [exec_ctxActivate, Host.Outcome.next.injEq]
  refine ⟨State.ctxActivate_busy hc, State.ctxActivate_badState hc, fun hidle hst => ⟨fun hwin => ?_, fun hwin hkey => ?_, fun hwin hkey u hu => ?_⟩⟩
  · rw [State.ctxActivate_configured hc hidle hst rfl, if_pos hwin, State.ctxResult]
  · rw [State.ctxActivate_configured hc hidle hst rfl, if_neg hwin, if_pos hkey, State.ctxResult]
  · rw [State.ctxActivate_configured hc hidle hst hu, if_neg hwin, if_neg hkey, State.ctxResult]

/-- Settles O38: each clause is the equation of its command for the state of the context the clause names. -/
theorem contextsLiveInOrder : Obligations.ContextsLiveInOrder := by
  simp only [Obligations.ContextsLiveInOrder, exec_ctxAlloc, exec_ctxReset, exec_ctxFree, exec_contextResetDrainEnd, exec_contextResetDone,
    exec_contextSweepDone, Host.Outcome.next.injEq]
  refine ⟨?life, ?busy⟩
  case life =>
    intro s c x hc hx
    subst hx
    refine ⟨fun hidle hst u hu => hu ▸ State.ctxAlloc_free hc hidle hst, State.ctxReset_begins hc, State.ctxFree_begins hc, State.ctxFree_quiescing hc,
      fun m u v hphase hu hv w hw => State.resetDrainEnd_draining hphase hu hv hw, fun u hphase hwalk hgone hu => ?_, State.ctxSweepDone_swept⟩
    rw [State.resetDone_walked hphase hwalk hgone hu]
    exact ⟨fun hend => if_pos hend, fun hend => if_neg (Bool.eq_false_iff.mp hend)⟩
  case busy =>
    intro s c hc hbusy i hi
    simp only [List.mem_cons, List.not_mem_nil, or_false] at hi
    obtain rfl | rfl | rfl := hi
    · exact congrArg Host.Outcome.next (State.ctxAlloc_busy hc hbusy)
    · exact congrArg Host.Outcome.next (State.ctxActivate_busy hc hbusy)
    · exact congrArg Host.Outcome.next (State.ctxReset_busy hc hbusy)

end Sys2Proof.Machine
end

section
/-! PROOFS. Notifications and quality of service (R414, R417-R430, R679): when a pending vector is delivered and when it waits, the release of a
frozen agent, and the function-level resets. -/

namespace Sys2Proof.Machine

open Sys2Proof

/-! ### Delivery of a vector (R426, R427, R429) -/

/-- The tokens of a context's notification bucket; a rate of 0xFFFF keeps it full (R427). -/
def State.ntfTokens (s : State) (c : Nat) : Nat :=
  if s.ov O.ntf_rate c = 0xFFFF then s.ov O.ntf_burst c else tokens (s.ctx c).ntfTok (s.ov O.ntf_burst c)

/-- A vector that is not delivered now and does not wait for it either: it has no cause or no type, its coalescing time runs (R426), or its function
may not send (R469). -/
def State.ntfRests (s : State) (c v : Nat) : Prop :=
  (Tab.get Vec.dflt (s.ctx c).vecs v).count = 0 ∨ bits (s.ov O.ntf_vec c v) 62 2 = 0 ∨ bits (s.ov O.ntf_vec c v) 62 2 = 3 ∨
    ((Tab.get Vec.dflt (s.ctx c).vecs v).seen ∧ s.ltc < (Tab.get Vec.dflt (s.ctx c).vecs v).last + usTicks (s.ov O.ntf_coal c v)) ∨
    (bits (s.ov O.ntf_vec c v) 62 2 = 1 ∧ s.ov O.ntf_func c ≠ 0 ∧ s.ideSilent c (s.ov O.ntf_func c / 256))

/-- A vector waits for a token, a function, room in the ring or a port to its agent (R427). -/
def State.ntfWaits (s : State) (c v : Nat) : Prop :=
  s.ntfTokens c = 0 ∨ (bits (s.ov O.ntf_vec c v) 62 2 = 1 ∧ (s.ov O.ntf_func c = 0 ∨ (s.ob O.ntf_ring_en c ∧ s.ntfRingFull c))) ∨
    (bits (s.ov O.ntf_vec c v) 62 2 = 2 ∧ (s.ntfPort (bits (s.ov O.ntf_vec c v) 48 12)).isNone)

section Deliver

variable {s : State} {c v : Nat} {q : Vec}

theorem State.not_ntfRests (hq : q = Tab.get Vec.dflt (s.ctx c).vecs v) (hcount : q.count ≠ 0)
    (hcoal : q.seen = false ∨ q.last + usTicks (s.ov O.ntf_coal c v) ≤ s.ltc)
    (hmode : bits (s.ov O.ntf_vec c v) 62 2 = 1 ∧ s.ideSilent c (s.ov O.ntf_func c / 256) = false ∨ bits (s.ov O.ntf_vec c v) 62 2 = 2) :
    ¬s.ntfRests c v := by
  subst hq
  rintro (hnone | hoff | hresv | ⟨hseen, hlt⟩ | ⟨hmsix, -, hsilent⟩)
  · exact hcount hnone
  · omega
  · omega
  · exact hcoal.elim (Bool.eq_false_iff.mp · hseen) (Nat.not_le.mpr hlt)
  · exact hmode.elim (fun h => Bool.eq_false_iff.mp h.2 hsilent) (fun h => by omega)

theorem State.not_ntfWaits_msix (htok : s.ntfTokens c ≠ 0) (hmode : bits (s.ov O.ntf_vec c v) 62 2 = 1) (hfn : s.ov O.ntf_func c ≠ 0)
    (hring : s.ob O.ntf_ring_en c = false) : ¬s.ntfWaits c v := by
  rintro (hempty | ⟨-, hunbound | ⟨hon, -⟩⟩ | ⟨hntf, -⟩)
  · exact htok hempty
  · exact hfn hunbound
  · exact Bool.eq_false_iff.mp hring hon
  · omega

theorem State.not_ntfWaits_ntf {p : Nat} (htok : s.ntfTokens c ≠ 0) (hmode : bits (s.ov O.ntf_vec c v) 62 2 = 2)
    (hport : s.ntfPort (bits (s.ov O.ntf_vec c v) 48 12) = some p) : ¬s.ntfWaits c v := by
  rintro (hempty | ⟨hmsix, -⟩ | ⟨-, hnone⟩)
  · exact htok hempty
  · omega
  · rw [hport] at hnone
    exact Bool.false_ne_true hnone

theorem State.deliverNtf_waits (hq : q = Tab.get Vec.dflt (s.ctx c).vecs v) (hpends : ¬s.ntfRests c v) (hwaits : s.ntfWaits c v)
    (hheld : q.held = false) :
    s.deliverNtf c v = (s.setCtx c { s.ctx c with vecs := Tab.put Vec.dflt (s.ctx c).vecs v { q with held := true } }).bump O.ntf_held c := by
  subst hq
  exact (if_neg hpends).trans ((if_pos hwaits).trans (if_neg (Bool.eq_false_iff.mp hheld)))

/-- The vector is delivered: a token is taken, the vector is clear, and the delivery is counted (R426, R427). -/
def State.ntfTaken (s : State) (c v : Nat) : State :=
  (s.setCtx c { s.ctx c with
    ntfTok := some (s.ntfTokens c - 1), vecs := Tab.put Vec.dflt (s.ctx c).vecs v ⟨0, 0, s.ltc, true, false⟩ }).bump O.ntf_sent c

/-- With its ring off, a vector of type MSI-X leaves as an MSI-X of its function. -/
theorem State.deliverNtf_msix (hpends : ¬s.ntfRests c v) (hready : ¬s.ntfWaits c v) (hmode : bits (s.ov O.ntf_vec c v) 62 2 = 1)
    (hring : s.ob O.ntf_ring_en c = false) :
    s.deliverNtf c v = (s.ntfTaken c v).emit (.msix (s.ov O.ntf_func c / 256) (s.ov O.ntf_func c % 256) v) := by
  refine (if_neg hpends).trans ((if_neg hready).trans ?_)
  simp only [hring, Bool.and_false, Bool.false_eq_true, if_false, if_pos hmode]
  rfl

/-- A vector of type NTF leaves as an NTF message by the port that reaches its agent (R429). -/
theorem State.deliverNtf_ntf {p : Nat} (hq : q = Tab.get Vec.dflt (s.ctx c).vecs v) (hpends : ¬s.ntfRests c v) (hready : ¬s.ntfWaits c v)
    (hmode : bits (s.ov O.ntf_vec c v) 62 2 = 2) (hport : s.ntfPort (bits (s.ov O.ntf_vec c v) 48 12) = some p) :
    s.deliverNtf c v = (s.ntfTaken c v).send p
      ⟨2, packNtf (bits (s.ov O.ntf_vec c v) 48 12) c v (bits (s.ov O.ntf_vec c v) 0 48), [⟨natLe 8 (ntfRecord c v q s.ltc) ++ zeros 24, false⟩],
        bits (s.ov O.ntf_vec c v) 48 12, none, 32⟩ := by
  subst hq
  have hntf : ¬bits (s.ov O.ntf_vec c v) 62 2 = 1 := by omega
  refine (if_neg hpends).trans ((if_neg hready).trans ?_)
  simp only [beq_false_of_ne hntf, Bool.false_and, Bool.false_eq_true, if_false, if_neg hntf, hport]
  rfl

end Deliver

/-! ### Agents and functions (R414, R428, R679) -/

theorem State.frzRelease_frozen {s u : State} {a : Nat} (hfrozen : (s.agent a).frozen = true)
    (hu : u = (s.setAgent a { s.agent a with frozen := false }).setOv O.frozen_agents (s.ov O.frozen_agents - 1)) :
    (s.frzRelease a).2 = if (u.ctx (leNat (((s.agent a).frz.drop 2).take 2))).st = .free then u
      else u.raiseSys (leNat (((s.agent a).frz.drop 2).take 2)) 3 := by
  rw [State.frzRelease, if_pos hfrozen, hu]

section Functions

variable {s : State} {port vf : Nat}

theorem State.functionReset_bound {u : State} {c : Nat} (hu : u = s.bump O.pcie_flr 0 port) (hvf : vf ≠ 0) (hbound : u.vfCtx port vf = some c) :
    s.functionReset port vf = (u.setOv O.ntf_ring_en 0 c).setCtx c { u.ctx c with ntfHead := 0, ntfTail := 0 } := by
  subst hu
  simp only [State.functionReset, if_neg hvf, State.vfFlr, hbound]

theorem State.functionReset_unbound (hvf : vf ≠ 0) (hbound : (s.bump O.pcie_flr 0 port).vfCtx port vf = none) :
    s.functionReset port vf = s.bump O.pcie_flr 0 port := by
  simp only [State.functionReset, if_neg hvf, State.vfFlr, hbound]

theorem State.functionReset_pf : s.functionReset port 0 = ((s.bump O.pcie_flr 0 port).muteWaits (32 + port)).idleBox port := if_pos rfl

end Functions

/-! ### The commands -/

theorem exec_policerRefill (s : State) : exec .policerRefill s = .next (s.refillPols s.liveCtxs) := rfl

theorem exec_shaperRefill (s : State) : exec .shaperRefill s = .next s.shaperRefill := rfl

theorem exec_ntfBucketRefill (s : State) : exec .ntfBucketRefill s = .next s.ntfRefill := rfl

theorem exec_ntfRaise (s : State) (c v : Nat) : exec (.ntfRaise c v) s = .next (s.raiseVec c (v % 64) 5) := rfl

theorem exec_notificationDeliver (s : State) (c v : Nat) : exec (.notificationDeliver c v) s = .next (s.deliverNtf c v) := rfl

theorem exec_frzRelease (s : State) (a : Nat) : exec (.frzRelease a) s = .next (s.frzRelease a).2 := rfl

theorem exec_vfFlr (s : State) (port vf : Nat) : exec (.vfFlr port vf) s = .next (s.functionReset port vf) := rfl

/-- Settles O39: each clause is the equation of its operation for the bucket, the vector, the agent or the function the clause names. -/
theorem notificationsAndBucketsComplete : Obligations.NotificationsAndBucketsComplete := by
  intro s
  simp only [exec_notificationDeliver, exec_frzRelease, exec_vfFlr, Host.Outcome.next.injEq]
  refine ⟨exec_policerRefill s, exec_shaperRefill s, exec_ntfBucketRefill s, ?raise, ?msix, ?ntf, ?unreached, fun a u => State.frzRelease_frozen,
    fun port vf c u => State.functionReset_bound, fun port vf => State.functionReset_unbound, fun port => State.functionReset_pf⟩
  case raise =>
    intro c v q hq
    rw [hq]
    exact exec_ntfRaise s c v
  case msix =>
    intro c v q x tok hx hq hmode hcount hcoal htok hne hfn hring hsends
    subst hx htok
    exact State.deliverNtf_msix (State.not_ntfRests hq hcount hcoal (.inl ⟨hmode, hsends⟩)) (State.not_ntfWaits_msix hne hmode hfn hring) hmode hring
  case ntf =>
    intro c v q x tok p hx hq hmode hcount hcoal htok hne hport
    subst hx htok
    exact State.deliverNtf_ntf hq (State.not_ntfRests hq hcount hcoal (.inr hmode)) (State.not_ntfWaits_ntf hne hmode hport) hmode hport
  case unreached =>
    intro c v q x hx hq hmode hcount hheld hcoal hport
    subst hx
    have hwaits : s.ntfWaits c v := .inr (.inr ⟨hmode, Option.isNone_iff_eq_none.mpr hport⟩)
    exact State.deliverNtf_waits hq (State.not_ntfRests hq hcount hcoal (.inr hmode)) hwaits hheld

end Sys2Proof.Machine
end

section
/-! PROOFS. The board and the direct window (R430, R431, R528, R598, R604, R615, R677, R678, R688-R690, R698): supplies and pins, the links of the
PCIe and management ports, a silent Keeper, and the writes of a port's direct window. -/

namespace Sys2Proof.Machine

open Sys2Proof

/-! ### Supplies, links and Keepers (R575, R615, R689, R690, R698) -/

section Board

variable {s : State} {n : Nat}

theorem State.aonRise_off {straps : Nat} (hoff : s.rst.aon = false) :
    s.aonRise straps =
      State.releaseSrc { s.setOv O.osc_dly (straps % 8) with rst := { s.rst with aon := true, dramEn := true, oscDone := false } } 0 :=
  if_neg (Bool.eq_false_iff.mp hoff)

theorem State.dramFall_lit (hstate : s.ov O.pstate ≠ 3) : s.dramFall = { s with rst := { s.rst with dramGood := false } } := if_neg hstate

/-- In P3 the fall of the DRAM rail discards the checkpoint and its key (R690). -/
theorem State.dramFall_dark (hstate : s.ov O.pstate = 3) :
    s.dramFall = { s with rst := { s.rst with dramGood := false }, pwr := { s.pwr with ckpt := false, wrapKey := 0 } } :=
  if_pos hstate

theorem State.pcieTrained_lit {flit : Bool} {rate width : Nat} (hn : n < 2) (hgood : s.rst.coreGood = true) :
    s.pcieTrained n flit rate width =
      if flit then s.setOv O.pcie_link (2 ^ 15 + rate % 16 * 2 ^ 8 + width % 32) 0 n else (s.bump O.pcie_noflit 0 n).pcieDown n := by
  have hheard : ¬(2 ≤ n ∨ (!s.rst.coreGood) = true) := by
    rw [hgood]
    exact fun h => h.elim (Nat.not_le.mpr hn) Bool.false_ne_true
  rw [State.pcieTrained, if_neg hheard]

theorem State.romSilent_inRom (hn : n < 2) (hrom : s.rst.roms.testBit n = true) :
    s.romSilent n = { s.setKeeper n 2 with rst := { s.rst with roms := clrBit s.rst.roms n } } :=
  if_pos ⟨hn, hrom⟩

theorem State.romSilent_released (hrom : s.rst.roms.testBit n = false) : s.romSilent n = s :=
  if_neg fun h => Bool.eq_false_iff.mp hrom h.2

theorem State.mgmtDown_port (hn : n < 2) :
    s.mgmtDown n = { s.event 0x13 3 n noCtx 0 with ll := { s.ll with mgmtDown := setBit s.ll.mgmtDown n } } :=
  if_neg (Nat.not_le.mpr hn)

end Board

/-! ### Writes of the direct window (R430, R431, R528, R677, R678) -/

section Window

variable {s : State} {p : Nat}

/-- How far value `v` lies past the head of fault ring `r`, modulo the counters' 16 bits. -/
def State.pastHead (s : State) (r v : Nat) : Nat := (v + 65536 - s.ov O.fr_head r) % 65536

theorem State.frHeadWrite_within {r v : Nat} (hr : r < 8) (hport : s.ov O.fr_port r = p)
    (hpending : s.pastHead r (v % 65536) ≤ s.pastHead r (s.ov O.fr_tail r)) : s.frHeadWrite p r v = s.setOv O.fr_head (v % 65536) r := by
  have hown : ¬(s.ov O.fr_port r ≠ p ∨ 8 ≤ r) := not_or.mpr ⟨not_not_intro hport, Nat.not_le.mpr hr⟩
  rw [State.frHeadWrite, if_neg hown]
  exact if_pos hpending

/-- A head written by another port, or past the tail, is ignored. -/
theorem State.frHeadWrite_ignored {r v : Nat} (h : s.ov O.fr_port r ≠ p ∨ s.pastHead r (s.ov O.fr_tail r) < s.pastHead r (v % 65536)) :
    s.frHeadWrite p r v = s := by
  unfold State.frHeadWrite
  split
  next => rfl
  next hown => exact if_neg (Nat.not_le.mpr (h.resolve_left fun hport => hown (.inl hport)))

section Heads

variable {vf c v : Nat} {keyed : Bool} (hbound : s.vfCtx p vf = some c)
include hbound

theorem State.ntfHeadWrite_taken (hopen : s.ideRefuses c keyed = false) :
    s.ntfHeadWrite p vf v keyed = s.setCtx c { s.ctx c with ntfHead := v % 65536 } := by
  rw [State.ntfHeadWrite, hbound]
  exact if_neg (Bool.eq_false_iff.mp hopen)

theorem State.ntfHeadWrite_refused (hide : s.ideRefuses c keyed = true) : s.ntfHeadWrite p vf v keyed = s.bump O.ide_rejects 0 p := by
  rw [State.ntfHeadWrite, hbound]
  exact if_pos hide

end Heads

section Mailbox

variable {w : DwWrite} (hp : p < 2)
include hp

theorem State.boxWrite_length (hoff : w.off = 0x1008) :
    s.boxWrite p w = s.setBox p { s.box p with ready := false, reqLen := leNat (slice 0 4 w.val) } := by
  rw [State.boxWrite, if_neg (Nat.not_le.mpr hp), if_pos hoff]

theorem State.boxWrite_buffer (hlo : 0x1040 ≤ w.off) (hhi : w.off < 0x2000) :
    s.boxWrite p w = s.setBox p { s.box p with ready := false, buf := splice (w.off - 0x1040) w.val (s.box p).buf } := by
  have hoff : w.off ≠ 0x1008 := by omega
  rw [State.boxWrite, if_neg (Nat.not_le.mpr hp), if_neg hoff, if_pos ⟨hlo, hhi⟩]

end Mailbox

end Window

/-! ### The commands -/

theorem exec_pwrgoodAonRise (s : State) (straps : Nat) : exec (.pwrgoodAonRise straps) s = .next (s.aonRise straps) := rfl

theorem exec_pwrgoodDramRise (s : State) : exec .pwrgoodDramRise s = .next s.dramRise := rfl

theorem exec_pwrgoodCoreRise (s : State) : exec .pwrgoodCoreRise s = .next s.coreRise := rfl

theorem exec_pwrgoodDramFall (s : State) : exec .pwrgoodDramFall s = .next s.dramFall := rfl

theorem exec_rstNRelease (s : State) : exec .rstNRelease s = .next (s.releaseSrc 4) := rfl

theorem exec_dbgReqNRelease (s : State) : exec .dbgReqNRelease s = .next (s.releaseSrc 5) := rfl

theorem exec_pcieLinkTraining (s : State) (n : Nat) (flit : Bool) (rate width : Nat) :
    exec (.pcieLinkTraining n flit rate width) s = .next (s.pcieTrained n flit rate width).leaseCheck := rfl

theorem exec_keeperHeartbeatTimeout (s : State) (n : Nat) : exec (.keeperHeartbeatTimeout n) s = .next (s.romSilent n) := rfl

theorem exec_mgmtLinkDown (s : State) (n : Nat) : exec (.mgmtLinkDown n) s = .next (s.mgmtDown n) := rfl

theorem exec_frHeadWrite (s : State) (p r v : Nat) : exec (.frHeadWrite p r v) s = .next (s.wake.frHeadWrite p r v) := rfl

theorem exec_ntfHeadWrite (s : State) (p vf v : Nat) (keyed : Bool) :
    exec (.ntfHeadWrite p vf v keyed) s = .next (s.wake.ntfHeadWrite p vf v keyed) := rfl

theorem exec_mbBufWrite (s : State) (p : Nat) (w : DwWrite) : exec (.mbBufWrite p w) s = .next (s.wake.boxWrite p w) := rfl

/-- Settles O58: each clause is the equation of its operation for the supply, the port, the ring or the mailbox the clause names. -/
theorem boardAndWindowWrites : Obligations.BoardAndWindowWrites := by
  simp only [Obligations.BoardAndWindowWrites, exec_pwrgoodAonRise, exec_pwrgoodDramFall, exec_pcieLinkTraining, exec_keeperHeartbeatTimeout,
    exec_mgmtLinkDown, exec_frHeadWrite, exec_ntfHeadWrite, exec_mbBufWrite, Host.Outcome.next.injEq]
  refine ⟨?board, ?window⟩
  case board =>
    intro s n hn
    refine ⟨fun straps => State.aonRise_off, fun u hu => hu ▸ exec_pwrgoodDramRise s, exec_pwrgoodCoreRise s, State.dramFall_lit, State.dramFall_dark,
      exec_rstNRelease s, exec_dbgReqNRelease s, fun rate width hgood => ?flits, fun rate width hgood => ?noFlits, State.romSilent_inRom hn,
      State.romSilent_released, State.mgmtDown_port hn⟩
    case flits => rw [State.pcieTrained_lit hn hgood, if_pos rfl]
    case noFlits => rw [State.pcieTrained_lit hn hgood, if_neg Bool.false_ne_true]
  case window =>
    intro s u p hp hu
    rw [← hu]
    exact ⟨fun r v => State.frHeadWrite_within, fun r v => State.frHeadWrite_ignored, fun vf c v keyed => State.ntfHeadWrite_taken,
      fun vf c v keyed => State.ntfHeadWrite_refused, fun w => State.boxWrite_length hp, fun w => State.boxWrite_buffer hp⟩

end Sys2Proof.Machine
end

section
/-! PROOFS. What no command takes back (R434, R453): what has left the node, the random draws and the key numbers. -/

namespace Sys2Proof.Machine

open Sys2Proof

/-- A state that keeps what another asks for has that one's queue and has taken back nothing of it. -/
theorem State.forward_of_keeps {s t : State} {ok stored : Bool} (h : keeps (s.kept ok stored) t) : t.pending = s.pending ∧ s.forward t := by
  obtain ⟨hqueue, hsent, hdraws, hkeys, _, _⟩ := h
  exact ⟨hqueue, hsent, hdraws, hkeys⟩

/-- Settles O6: each command keeps the queue, what has left, the draws and the key numbers, whether it may store or not. -/
theorem nothingSentIsTakenBack : Obligations.NothingSentIsTakenBack := by
  intro c s t hexec
  have hself : keeps (s.kept false false) s := s.keeps_self false false fun hok => absurd hok Bool.false_ne_true
  exact State.forward_of_keeps (exec_keeps c (fun _ => rfl) hself t hexec)

end Sys2Proof.Machine
end

section
/-! PROOFS. The lifecycle (R438-R440, R446): the checks of its commands in their order, and that a core reset and a Keeper fail-over leave the
lifecycle state as it is (R439). -/

namespace Sys2Proof

/-- Dropping other keys leaves what a key of any table reads as. -/
theorem Tab.get_keep {α : Type} {d : α} {p : Nat → α → Bool} {k : Nat} {t : Tab α} (h : ∀ v, p k v = true) :
    Tab.get d (Tab.keep p t) k = Tab.get d t k := by
  induction t with
  | nil => rfl
  | cons x t ih =>
    obtain ⟨j, v⟩ := x
    unfold Tab.keep at ih ⊢
    rw [List.filter_cons]
    by_cases hj : j = k
    · subst hj
      simp only [h, if_true, Tab.get]
    · split
      · simp only [Tab.get, if_neg hj, ih]
      · simp only [Tab.get, if_neg hj, ih]

end Sys2Proof

namespace Sys2Proof.Machine

open Sys2Proof

/-! ### The lifecycle commands (R438, R440, R446) -/

section Lifecycle

variable {s : State}

theorem State.allFree_iff : s.allFree = true ↔ ∀ p ∈ s.ctxs, p.2.st = .free := by simp only [State.allFree, List.all_eq_true, beq_iff_eq]

theorem State.debugClean_iff : s.debugClean = true ↔ s.sec.invasive = false ∧ s.sec.intruded = false := by
  simp only [State.debugClean, Bool.and_eq_true, Bool.not_eq_true']

section Checks

theorem State.serviceCheck_units (hunits : s.unitsReady = false) : s.serviceCheck = 2 := by
  simp only [State.serviceCheck, hunits, Bool.not_false, if_true]

variable (hunits : s.unitsReady = true)
include hunits

theorem State.serviceCheck_trims (htrims : (s.ov O.trim_state).testBit 0 = false) : s.serviceCheck = 3 := by
  simp only [State.serviceCheck, hunits, htrims, Bool.not_true, Bool.false_eq_true, Bool.not_false, if_false, if_true]

variable (htrims : (s.ov O.trim_state).testBit 0 = true)
include htrims

theorem State.serviceCheck_debug (hdebug : s.debugClean = false) : s.serviceCheck = 4 := by
  simp only [State.serviceCheck, hunits, htrims, hdebug, Bool.not_true, Bool.false_eq_true, Bool.not_false, if_false, if_true]

variable (hdebug : s.debugClean = true)
include hdebug

/-- The contexts are looked at last (Table 3). -/
theorem State.serviceCheck_contexts : s.serviceCheck = if s.allFree then 0 else 5 := by
  simp only [State.serviceCheck, hunits, htrims, hdebug, Bool.not_true, Bool.false_eq_true, if_false]
  cases s.allFree <;> rfl

end Checks

theorem State.enterService_badState (hst : s.ov O.lc_state ≠ 1) : s.enterService = s.setOv O.lc_result 1 := if_pos hst

section Service

variable (hst : s.ov O.lc_state = 1)
include hst

theorem State.enterService_passes (hcheck : s.serviceCheck = 0) : s.enterService = (s.setOv O.lc_state 2).setOv O.lc_result 0 :=
  (if_neg (not_not_intro hst)).trans (if_pos hcheck)

theorem State.enterService_fails {r : Nat} (hcheck : s.serviceCheck = r) (hr : r ≠ 0) : s.enterService = s.setOv O.lc_result r := by
  subst hcheck
  exact (if_neg (not_not_intro hst)).trans (if_neg hr)

end Service

theorem State.enterMaintenance_badState (hst : s.ov O.lc_state ≠ 2) : s.enterMaintenance = s.setOv O.lc_result 1 := if_pos hst

theorem State.enterMaintenance_inService (hst : s.ov O.lc_state = 2) :
    s.enterMaintenance = if s.allFree then (s.setOv O.lc_state 1).setOv O.lc_result 0 else s.setOv O.lc_result 5 :=
  if_neg (not_not_intro hst)

theorem State.decommission_badState (hst : s.ov O.lc_state ≠ 1) : s.decommission = s.setOv O.lc_result 1 := if_pos hst

theorem State.decommission_inMaintenance (hst : s.ov O.lc_state = 1) :
    s.decommission = if s.ov O.lc_confirm ≠ 0xDEC00001 then s.setOv O.lc_result 6 else (s.loseSetKeys.setOv O.lc_state 3).setOv O.lc_result 0 :=
  if_neg (not_not_intro hst)

theorem State.arbCommit_raises (hless : s.ov O.arb_fused < s.sec.arb) : s.arbCommit.2 = s.setOv O.arb_fused (min s.sec.arb 128) := by
  rw [State.arbCommit, if_pos hless]

theorem State.arbCommit_keeps_fused (hle : s.sec.arb ≤ s.ov O.arb_fused) : s.arbCommit.2 = s := by
  rw [State.arbCommit, if_neg (Nat.not_lt.mpr hle)]

end Lifecycle

theorem exec_enterService (s : State) : exec .enterService s = .next s.enterService := rfl

theorem exec_enterMaintenance (s : State) : exec .enterMaintenance s = .next s.enterMaintenance := rfl

theorem exec_decommission (s : State) : exec .decommission s = .next s.decommission := rfl

theorem exec_arbCommit (s : State) : exec .arbCommit s = .next s.arbCommit.2 := rfl

/-- Settles O40: each command's checks one after the other; the checks of entering SERVICE are those of `serviceCheck`. -/
theorem lifecycleCommandsAreChecked : Obligations.LifecycleCommandsAreChecked := by
  intro s
  simp only [exec_enterService, exec_enterMaintenance, exec_decommission, exec_arbCommit, Host.Outcome.next.injEq]
  refine ⟨fun hst => ⟨State.enterService_badState hst, State.decommission_badState hst⟩,
    fun hst => ⟨?service, ?units, ?trims, ?debug, ?contexts, ?unconfirmed, ?confirmed⟩,
    State.enterMaintenance_badState, ?free, ?used, State.arbCommit_raises, State.arbCommit_keeps_fused⟩
  case service =>
    intro hunits htrims hinvasive hintruded hfree
    have hcheck := State.serviceCheck_contexts hunits htrims (State.debugClean_iff.mpr ⟨hinvasive, hintruded⟩)
    exact State.enterService_passes hst (hcheck.trans (if_pos (State.allFree_iff.mpr hfree)))
  case units => exact fun hunits => State.enterService_fails hst (State.serviceCheck_units hunits) (by decide)
  case trims => exact fun hunits htrims => State.enterService_fails hst (State.serviceCheck_trims hunits htrims) (by decide)
  case debug =>
    intro hunits htrims hopened
    have hdebug : s.debugClean = false := by
      rw [← Bool.not_eq_true, State.debugClean_iff, not_and_or, Bool.not_eq_false, Bool.not_eq_false]
      exact hopened
    exact State.enterService_fails hst (State.serviceCheck_debug hunits htrims hdebug) (by decide)
  case contexts =>
    intro hunits htrims hinvasive hintruded hused
    have hcheck := State.serviceCheck_contexts hunits htrims (State.debugClean_iff.mpr ⟨hinvasive, hintruded⟩)
    exact State.enterService_fails hst (hcheck.trans (if_neg (Bool.eq_false_iff.mp hused))) (by decide)
  case unconfirmed => exact fun hconfirm => (State.decommission_inMaintenance hst).trans (if_pos hconfirm)
  case confirmed => exact fun hconfirm => (State.decommission_inMaintenance hst).trans (if_neg (not_not_intro hconfirm))
  case free => exact fun hst hfree => (State.enterMaintenance_inService hst).trans (if_pos (State.allFree_iff.mpr hfree))
  case used => exact fun hst hused => (State.enterMaintenance_inService hst).trans (if_neg (Bool.eq_false_iff.mp hused))

/-! ### What a core reset leaves of the lifecycle state (R439, R597, R616) -/

section Fields

variable (t : State) {o : Obj} {a b : Nat}

theorem State.ov_with_rst (r : Rst) : ({ t with rst := r } : State).ov o a b = t.ov o a b := rfl

theorem State.ov_with_sec (x : Sec) : ({ t with sec := x } : State).ov o a b = t.ov o a b := rfl

theorem State.ov_with_log (l : Log) : ({ t with log := l } : State).ov o a b = t.ov o a b := rfl

theorem State.ov_with_ll (l : Ll) : ({ t with ll := l } : State).ov o a b = t.ov o a b := rfl

end Fields

/-- A write of any other object leaves the lifecycle state. -/
theorem State.lcState_setOv {s : State} {o : Obj} {v a b : Nat} (ho : o.id ≠ O.lc_state.id := by decide) (ha : a < 2 ^ 24 := by decide)
    (hb : b < 2 ^ 8 := by decide) : (s.setOv o v a b).ov O.lc_state = s.ov O.lc_state :=
  State.ov_setOv_ne s (Obj.key_ne_of_id ho ha hb (by decide) (by decide))

theorem State.lcState_bump {s : State} {o : Obj} {a b n : Nat} (ho : o.id ≠ O.lc_state.id := by decide) (ha : a < 2 ^ 24 := by decide)
    (hb : b < 2 ^ 8 := by decide) : (s.bump o a b n).ov O.lc_state = s.ov O.lc_state :=
  State.lcState_setOv ho ha hb

/-- Steps that each leave the lifecycle state leave it together. -/
theorem State.lcState_foldl {α : Type} {s : State} {l : List α} {f : State → α → State}
    (hf : ∀ t x, (f t x).ov O.lc_state = t.ov O.lc_state) : (l.foldl f s).ov O.lc_state = s.ov O.lc_state :=
  List.foldlRecOn l f (motive := fun t => t.ov O.lc_state = s.ov O.lc_state) rfl fun t ht x _ => (hf t x).trans ht

section CoreReset

variable {s : State}

/-- The lifecycle state is no session's own copy of a selector. -/
theorem copyOf_lcState (sess : Nat → Bool) : copyOf sess (O.lc_state.key 0 0) = false := by
  have hcopied : O.lc_state.key 0 0 / 2 ^ 32 ∉ O.dm_log_index.id :: O.lease_result.id :: selectors.map Obj.id := by decide
  simp only [List.mem_cons, not_or] at hcopied
  obtain ⟨hlog, hlease, hselectors⟩ := hcopied
  simp only [copyOf, beq_false_of_ne hlog, beq_false_of_ne hlease, List.contains_eq_mem, hselectors, decide_false, Bool.and_false, Bool.false_and,
    Bool.or_self]

theorem State.lcState_dropCopies {sess : Nat → Bool} : (s.dropCopies sess).ov O.lc_state = s.ov O.lc_state :=
  Tab.get_keep (p := fun k _ => !copyOf sess k) (k := O.lc_state.key 0 0) fun _ => congrArg not (copyOf_lcState sess)

theorem State.lcState_endLlp : s.endLlp.ov O.lc_state = s.ov O.lc_state := by
  unfold State.endLlp
  dsimp only
  refine (State.lcState_foldl fun t i => t.setOct_read_ov _ _ _ _ _ _ _).trans ?_
  refine (State.lcState_setOv).trans ((State.lcState_setOv).trans ?_)
  exact (State.ov_with_ll _ _).trans State.lcState_dropCopies

theorem State.lcState_attResult {c r : Nat} : (s.attResult c r).ov O.lc_state = s.ov O.lc_state := by
  unfold State.attResult
  split
  next => exact State.lcState_setOv
  next =>
    split
    next hc => exact State.lcState_setOv (ha := hc.trans (by decide))
    next => rfl

theorem State.lcState_dropReports : s.dropReports.ov O.lc_state = s.ov O.lc_state :=
  (State.lcState_foldl fun _ _ => State.lcState_attResult).trans (State.ov_with_sec s _)

theorem State.lcState_coreReset : s.coreReset.ov O.lc_state = s.ov O.lc_state := by
  calc
    _ = (s.endLlp.dropReports.setOv O.lc_confirm 0).ov O.lc_state := State.ov_with_sec _ _
    _ = s.endLlp.dropReports.ov O.lc_state := State.lcState_setOv
    _ = s.ov O.lc_state := State.lcState_dropReports.trans State.lcState_endLlp

theorem State.lcState_cause {bit : Nat} : (s.cause bit).ov O.lc_state = s.ov O.lc_state := State.lcState_setOv

theorem State.lcState_causeReach : s.causeReach.ov O.lc_state = s.ov O.lc_state := State.lcState_setOv

theorem State.lcState_abortLoad : s.abortLoad.ov O.lc_state = s.ov O.lc_state := by
  unfold State.abortLoad
  split
  next => exact (State.ov_with_rst (s.cause 12) _).trans State.lcState_cause
  next => rfl

/-- An episode of reach 1 resets the core alone (R604). -/
theorem State.lcState_widen_core : (s.widen 1).ov O.lc_state = s.ov O.lc_state := by
  unfold State.widen
  lift_lets
  intro first counted r held _ _ _ _ _
  rw [if_pos rfl]
  have hcounted : counted.ov O.lc_state = s.ov O.lc_state := by
    unfold counted
    split
    next => exact (State.lcState_bump).trans State.lcState_abortLoad
    next => rfl
  calc
    _ = held.coreReset.ov O.lc_state := State.ov_with_rst held.coreReset _
    _ = held.ov O.lc_state := State.lcState_coreReset
    _ = counted.ov O.lc_state := State.ov_with_rst counted _
    _ = s.ov O.lc_state := hcounted

/-- A source whose reach is the core's leaves the lifecycle state (R439). -/
theorem State.lcState_assertSrc_core {bit : Nat} (hreach : reachOf bit = 1) : (s.assertSrc bit false).ov O.lc_state = s.ov O.lc_state := by
  unfold State.assertSrc
  rw [hreach]
  refine State.lcState_causeReach.trans (State.lcState_cause.trans ?_)
  split
  next => exact State.lcState_widen_core
  next => rfl

theorem State.lcState_softReset_core : (s.softReset 1).ov O.lc_state = s.ov O.lc_state :=
  (State.lcState_assertSrc_core rfl).trans (State.ov_with_rst s _)

/-- A first expiry of the watchdog resets the core, if it resets anything (R599). -/
theorem State.lcState_watchdog_first (hfirst : s.rst.armed = false) : s.watchdog.ov O.lc_state = s.ov O.lc_state := by
  unfold State.watchdog
  split
  next => rfl
  next =>
    rw [if_neg (Bool.eq_false_iff.mp hfirst)]
    exact (State.ov_with_rst (s.assertSrc 8 false) _).trans (State.lcState_assertSrc_core rfl)

end CoreReset

/-! ### What a Keeper fail-over leaves of it (R439, R580) -/

section Failover

variable {s : State}

theorem State.lcState_event {code kind src ctx detail : Nat} : (s.event code kind src ctx detail).ov O.lc_state = s.ov O.lc_state := by
  unfold State.event
  lift_lets
  intro window counts n log seq sev record logged numbered signalled
  split
  next => exact (State.lcState_bump).trans (State.ov_with_log s _)
  next =>
    have hnumbered : numbered.ov O.lc_state = s.ov O.lc_state := (State.lcState_setOv).trans (State.ov_with_log s _)
    have hsignalled : signalled.ov O.lc_state = s.ov O.lc_state := by
      unfold signalled
      split
      next => exact hnumbered
      next => simpa only [State.emit_read_ov] using hnumbered
    split
    next => simpa only [State.emit_read_ov] using hsignalled
    next => exact hsignalled

theorem State.lcState_setKeeper {k v : Nat} : (s.setKeeper k v).ov O.lc_state = s.ov O.lc_state := State.lcState_setOv

theorem State.lcState_keeperPass {v : Nat} : (s.keeperPass v).ov O.lc_state = s.ov O.lc_state := by
  unfold State.keeperPass
  dsimp only
  refine State.lcState_event.trans ((State.lcState_bump).trans ((State.lcState_setOv).trans ?_))
  exact State.lcState_setKeeper.trans State.lcState_setKeeper

theorem State.lcState_keeperFail : s.keeperFail.ov O.lc_state = s.ov O.lc_state := by
  unfold State.keeperFail
  dsimp only
  split
  next => rfl
  next =>
    split
    next => exact State.lcState_keeperPass
    next => exact State.lcState_setKeeper

end Failover

theorem exec_rstCmdCore (s : State) : exec .rstCmdCore s = .next (s.softReset 1) := rfl

theorem exec_watchdogExpiry (s : State) : exec .watchdogExpiry s = .next s.watchdog := rfl

theorem exec_keeperFailover (s : State) : exec .keeperFailover s = .next s.keeperFail := rfl

/-- Settles O46: a core reset and a fail-over write other objects alone. -/
theorem coreResetsKeepTheLifecycle : Obligations.CoreResetsKeepTheLifecycle := by
  intro s t h
  simp only [exec_rstCmdCore, exec_watchdogExpiry, exec_keeperFailover, Host.Outcome.next.injEq] at h
  obtain rfl | ⟨hfirst, rfl⟩ | rfl := h
  · exact State.lcState_softReset_core
  · exact State.lcState_watchdog_first hfirst
  · exact State.lcState_keeperFail

end Sys2Proof.Machine
end

section
/-! PROOFS. Keys of contexts, the tenant's Daymark and attestation (R325, R327, R448, R451-R453): GENERATE and REKEY, and a report that is refused,
waits, or is built. -/

namespace Sys2Proof.Machine

open Sys2Proof

/-! ### Keys (R453) -/

section Keys

variable {s : State} {c : Nat}

theorem State.generate_configuring {a b : Nat × State} (hst : (s.ctx c).st = .configuring) (hkeys : (s.ctx c).keys = (0, 0)) (ha : a = s.newKey)
    (hb : b = a.2.newKey) : s.generate c =
      (b.2.setCtx c { s.ctx c with keys := (a.1, 0), hostKey := b.1, active := 0 }).setOv O.key_result 0 c := by
  subst ha hb
  exact if_pos ⟨hst, hkeys⟩

theorem State.generate_badState (hst : (s.ctx c).st ≠ .configuring) : s.generate c = s.setOv O.key_result 1 c := if_neg fun h => hst h.1

theorem State.rekey_busy (hruns : (s.ctx c).rekeying = true) : s.rekey c = s.setOv O.key_result 2 c := if_pos hruns

section Rekey

variable (hidle : (s.ctx c).rekeying = false)
include hidle

theorem State.rekey_badState (hst : (s.ctx c).st ≠ .active) : s.rekey c = s.setOv O.key_result 1 c :=
  (if_neg (Bool.eq_false_iff.mp hidle)).trans (if_pos hst)

/-- The inactive slot is filled and becomes the active one, and the frames of the context are pending rekey (R325). -/
theorem State.rekey_active {a : Nat × State} (hst : (s.ctx c).st = .active) (ha : a = s.newKey) : s.rekey c =
    (((a.2.setCtx c { s.ctx c with keys := setKey (s.ctx c).keys (1 - (s.ctx c).active) a.1, active := 1 - (s.ctx c).active, rekeying := true }).setOv
      O.key_result 0 c).pendRekey c).rekeyCheck c := by
  subst ha
  exact (if_neg (Bool.eq_false_iff.mp hidle)).trans (if_neg (not_not_intro hst))

end Rekey

theorem State.dmExtend_tenant {bs : Bytes} (hc : c < 1024) (hst : (s.ctx c).st ≠ .free) : s.dmExtend c bs = s.daymark c 5 (fitTo 32 bs) :=
  if_pos ⟨hc, hst⟩

end Keys

/-! ### Attestation (R451, R452) -/

section Attestation

variable {s : State} {c : Nat}

/-- A context's number is not the one that stands for the device. -/
theorem ne_noCtx (hc : c < 1024) : c ≠ noCtx := Nat.ne_of_lt (hc.trans (by decide))

theorem State.attResult_device (r : Nat) : s.attResult noCtx r = s.setOv O.att_result r := if_pos rfl

theorem State.attResult_context (hc : c < 1024) (r : Nat) : s.attResult c r = s.setOv O.ctx_att_result r c :=
  (if_neg (ne_noCtx hc)).trans (if_pos hc)

theorem State.attest_decommissioned (hst : s.ov O.lc_state = 3) : s.attest noCtx = s.setOv O.att_result 1 :=
  (if_pos (.inl hst)).trans (State.attResult_device 1)

/-- A FREE context has nothing to report (R452). -/
theorem State.attest_free (hc : c < 1024) (hfree : (s.ctx c).st = .free) : s.attest c = s.setOv O.ctx_att_result 1 c :=
  (if_pos (.inr ⟨ne_noCtx hc, .inr hfree⟩)).trans (State.attResult_context hc 1)

section Asked

variable (hst : s.ov O.lc_state ≠ 3)
include hst

theorem State.attest_device_waits (hplace : s.sec.att.length < 9) :
    s.attest noCtx = { s with sec := { s.sec with att := s.sec.att ++ [(noCtx, s.oct O.att_nonce)] } } :=
  (if_neg (not_or.mpr ⟨hst, fun h => h.1 rfl⟩)).trans (if_neg (Nat.not_le.mpr hplace))

variable (hc : c < 1024) (hlive : (s.ctx c).st ≠ .free)
include hc hlive

/-- A report of a live context waits while there is a place for it. -/
theorem State.attest_context : s.attest c = if 9 ≤ s.sec.att.length then s.setOv O.ctx_att_result 2 c
    else { s with sec := { s.sec with att := s.sec.att ++ [(c, s.oct O.ctx_att_nonce c)] } } := by
  have hallowed : ¬(s.ov O.lc_state = 3 ∨ (c ≠ noCtx ∧ (1024 ≤ c ∨ (s.ctx c).st = .free))) :=
    not_or.mpr ⟨hst, fun h => h.2.elim (Nat.not_le.mpr hc) hlive⟩
  rw [State.attest, if_neg hallowed, State.attResult_context hc, if_neg (ne_noCtx hc)]

end Asked

section Built

variable {nonce : Bytes} {rest : List (Nat × Bytes)} {u : State} (hu : u = ({ s with sec := { s.sec with att := rest } } : State))
include hu

theorem State.reportReady_device (hnext : s.sec.att = (noCtx, nonce) :: rest) :
    s.reportReady = (u.setOct O.att_report (u.report none nonce)).setOv O.att_result 0 := by
  subst hu
  rw [State.reportReady, hnext]
  exact (if_pos rfl).trans (State.attResult_device 0)

theorem State.reportReady_context (hnext : s.sec.att = (c, nonce) :: rest) (hc : c < 1024) (hlive : (u.ctx c).st ≠ .free) :
    s.reportReady = (u.setOct O.ctx_att_report (u.report (some c) nonce) c).setOv O.ctx_att_result 0 c := by
  subst hu
  rw [State.reportReady, hnext]
  exact (if_neg (ne_noCtx hc)).trans ((if_neg hlive).trans (State.attResult_context hc 0))

end Built

end Attestation

/-! ### The commands -/

theorem exec_keyGenerate (s : State) (c : Nat) : exec (.keyGenerate c) s = .next (s.generate c) := rfl

theorem exec_keyRekey (s : State) (c : Nat) : exec (.keyRekey c) s = .next (s.rekey c) := rfl

theorem exec_rekeyChunk (s : State) (te i : Nat) (m : Met) : exec (.rekeyChunk te i m) s = .next ((s.ungate 2 te).sweepChunk te i m) := rfl

theorem exec_dmExtend (s : State) (c : Nat) (bs : Bytes) : exec (.dmExtend c bs) s = .next (s.dmExtend c bs) := rfl

theorem exec_attestDevice (s : State) : exec .attestDevice s = .next (s.attest noCtx) := rfl

theorem exec_attestContext (s : State) (c : Nat) : exec (.attestContext c) s = .next (s.attest c) := rfl

theorem exec_reportReady (s : State) : exec .reportReady s = .next s.reportReady := rfl

/-- Settles O45: a FREE context's report is refused before its place in the queue is looked at. -/
theorem freeContextsAreNotReported : Obligations.FreeContextsAreNotReported := by
  intro s c hc hfree
  rw [exec_attestContext, State.attest_free hc hfree]

/-- Settles O41: each clause is the equation of its command for the state of the context or of the queue of reports the clause names. -/
theorem contextKeysAndReports : Obligations.ContextKeysAndReports := by
  intro s c
  simp only [exec_keyGenerate, exec_keyRekey, exec_rekeyChunk, exec_dmExtend, exec_attestDevice, exec_attestContext, exec_reportReady,
    Host.Outcome.next.injEq]
  refine ⟨?generate, State.generate_badState, State.rekey_busy, State.rekey_badState, ?rekey, ?chunk, fun bs => State.dmExtend_tenant,
    State.attest_device_waits, ?asked, State.attest_decommissioned, ?ready⟩
  case generate =>
    rintro x a b rfl hst hkeys ha hb
    exact State.generate_configuring hst hkeys ha hb
  case rekey =>
    rintro x a rfl hidle hst ha
    exact State.rekey_active hidle hst ha
  case chunk =>
    intro te i k m w u r d ppa hu hsweep hrekey hpick hserves hppa hr
    rw [State.sweepChunk_sweeps hu hsweep hpick hserves, State.sweepStep_rekey hrekey hppa hr]
  case asked =>
    intro hst hc hlive
    rw [State.attest_context hst hc hlive]
    exact ⟨fun hplace => if_neg (Nat.not_le.mpr hplace), fun hfull => if_pos hfull⟩
  case ready => exact fun nonce rest u hu => ⟨State.reportReady_device hu, State.reportReady_context hu⟩

end Sys2Proof.Machine
end

section
/-! PROOFS. Debug and IDE (R468, R470, R475-R478): the checks of a debug token in their order, a boundary scan, and requests for IDE keys. -/

namespace Sys2Proof.Machine

open Sys2Proof

/-! ### Debug tokens (R475-R477) -/

section Token

variable {s : State} {tok : Bytes} {k : Vouch}

theorem State.dbgToken_noNonce (hnonce : s.sec.nonce = none) : s.dbgToken tok k = s.setOv O.dbg_result 3 := by
  rw [State.dbgToken, hnonce, State.dbgResult]

/-- A token is a valid one of this node's over nonce `n`, with its scope. -/
def tokenValid (tok : Bytes) (k : Vouch) (n : Bytes) (sc : Nat) : Prop :=
  slice 0 1 tok = [1] ∧ (sc = 1 ∨ sc = 2) ∧ tok.length = 29856 ∧ slice 8 32 tok = idDigest ∧ slice 40 16 tok = n ∧ k.sig = true

variable {n : Bytes} {at_ sc : Nat} (hnonce : s.sec.nonce = some (n, at_)) (hsc : sc = leNat (slice 1 1 tok))
include hnonce hsc

theorem State.dbgToken_invalid (hinvalid : ¬tokenValid tok k n sc) : s.dbgToken tok k = s.setOv O.dbg_result 1 := by
  subst hsc
  rw [State.dbgToken, hnonce]
  refine if_pos (Classical.not_not.mp fun hpasses => hinvalid ?_)
  simpa only [tokenValid, not_or, not_and_or, Classical.not_not, ne_eq, Bool.not_eq_true', Bool.not_eq_false] using hpasses

/-- The scope of a valid token is opened where the lifecycle state allows it (R477). -/
theorem State.dbgToken_valid (hvalid : tokenValid tok k n sc) {u : State}
    (hu : u = ({ s with sec := { s.sec with nonce := none, invasive := s.sec.invasive || sc == 2 } } : State)) : s.dbgToken tok k =
      if s.ov O.lc_state = 3 ∨ sc = 2 ∧ s.ov O.lc_state ≠ 1 then s.setOv O.dbg_result 2
      else (u.setOv O.dbg_state (max (u.ov O.dbg_state) sc)).setOv O.dbg_result 0 := by
  subst hsc hu
  rw [State.dbgToken, hnonce]
  refine if_neg fun hfails => ?_
  obtain ⟨hversion, hscope, hlen, hnode, hover, hsig⟩ := hvalid
  rw [hversion, hlen, hnode, hover, hsig] at hfails
  simp only [ne_eq, not_true_eq_false, Bool.not_true, Bool.false_eq_true, or_false, false_or] at hfails
  omega

end Token

/-! ### Boundary scan (R478) and IDE keys (R468, R470) -/

section Guards

variable {s : State}

theorem State.extest_inMaintenance (hst : s.ov O.lc_state = 1) : s.extest = s := if_pos hst

theorem State.extest_outside {u : State} (hst : s.ov O.lc_state ≠ 1) (hu : u = s.dropAllKeys) :
    s.extest = { u.setOv O.dbg_state 3 with sec := { u.sec with intruded := true } } := by
  subst hu
  exact if_neg hst

variable {port st : Nat} {go auth : Bool} (hport : port < 2)
include hport

theorem State.ideKm_refused (hclosed : auth = false ∨ s.sec.bootKey = 0) : s.ideKm port st go auth = s.emit (.ideKm port false) := by
  refine (if_neg (Nat.not_le.mpr hport)).trans (if_pos ?_)
  obtain rfl | hkey := hclosed
  · exact .inl rfl
  · exact .inr (.inl hkey)

theorem State.ideKm_honoured (hauth : auth = true) (hkey : s.sec.bootKey ≠ 0) (hst : st < 4) : s.ideKm port st go auth =
    (s.setIde port (if go = true then setBit (Tab.get 0 s.sec.ide port) st else clrBit (Tab.get 0 s.sec.ide port) st)).emit (.ideKm port true) := by
  subst hauth
  refine (if_neg (Nat.not_le.mpr hport)).trans (if_neg ?_)
  rintro (hno | hnone | hstream)
  · exact Bool.false_ne_true hno
  · exact hkey hnone
  · exact Nat.not_le.mpr hst hstream

end Guards

/-! ### The commands -/

theorem exec_dbgNonceRead (s : State) : exec .dbgNonceRead s = .next s.dbgNonceRead.2 := rfl

theorem exec_dbgToken (s : State) (tok : Bytes) (k : Vouch) : exec (.dbgToken tok k) s = .next (s.dbgToken tok k) := rfl

theorem exec_dbgNonceExpire (s : State) : exec .dbgNonceExpire s = .next s.dbgNonceExpire := rfl

theorem exec_jtagExtestSelect (s : State) : exec .jtagExtestSelect s = .next s.extest := rfl

theorem exec_ideKmRequest (s : State) (port st : Nat) (go auth : Bool) :
    exec (.ideKmRequest port st go auth) s = .next (s.ideKm port st go auth) := rfl

/-- Settles O44: each clause is the equation of its command for the nonce, the token or the requester the clause names. -/
theorem debugAndIdeAreGuarded : Obligations.DebugAndIdeAreGuarded := by
  intro s
  simp only [exec_dbgNonceRead, exec_dbgToken, exec_dbgNonceExpire, exec_jtagExtestSelect, exec_ideKmRequest, Host.Outcome.next.injEq]
  refine ⟨?issue, rfl, fun tok k => State.dbgToken_noNonce, ?invalid, ?valid, State.extest_inMaintenance, fun u => State.extest_outside, ?ide⟩
  case issue =>
    rintro q rfl
    rfl
  case invalid =>
    intro tok k n at_ sc hnonce hfault hsc
    refine State.dbgToken_invalid hnonce hsc fun ⟨_, hscope, _, hnode, hover, hsig⟩ => ?_
    obtain hunsigned | hother | hforeign | hnoScope := hfault
    · exact Bool.false_ne_true (hunsigned.symm.trans hsig)
    · exact hother hover
    · exact hforeign hnode
    · omega
  case valid =>
    intro tok k n at_ sc hnonce hversion hsc hscope hlen hnode hover hsig
    have hvalid : tokenValid tok k n sc := ⟨hversion, hscope, hlen, hnode, hover, hsig⟩
    refine ⟨fun hbarred => ?_, fun u hlive hallowed hu => ?_⟩
    · rw [State.dbgToken_valid hnonce hsc hvalid rfl, if_pos hbarred]
    · have hopen : ¬(s.ov O.lc_state = 3 ∨ sc = 2 ∧ s.ov O.lc_state ≠ 1) := by omega
      rw [State.dbgToken_valid hnonce hsc hvalid hu, if_neg hopen]
  case ide => exact fun port st go auth hport => ⟨State.ideKm_refused hport, State.ideKm_honoured hport⟩

end Sys2Proof.Machine
end

section
/-! PROOFS. Link sessions (R458-R463, R466): the checks of each handshake message in their order and the answer to one that passes, rekeys, and the
release of a quarantined port. -/

namespace Sys2Proof.Machine

open Sys2Proof

/-! ### The handshake (R458, R459) -/

section Handshake

variable {s : State} {p : Nat} {body : Bytes} {k : Vouch} (hup : s.ov O.link_state p = 2)
include hup

section Hello

variable (hidle : (s.session p).step = 0)
include hidle

/-- A session that has not begun gives way to any hello. -/
theorem State.hello_not_ignored (partner : Bytes) : ¬(s.ov O.link_state p ≠ 2 ∨ (!givesWay (s.session p) partner) = true) := by
  rw [givesWay, hidle, beq_self_eq_true, Bool.true_or]
  exact not_or.mpr ⟨not_not_intro hup, Bool.false_ne_true⟩

theorem State.lsHello_malformed (hform : slice 0 1 body ≠ [1] ∨ body.length ≠ 1608 + leNat (slice 1604 4 body)) :
    s.lsHello p body k = s.lsRefuse p 5 :=
  (if_neg (State.hello_not_ignored hup hidle _)).trans (if_pos hform)

variable (hversion : slice 0 1 body = [1]) (hlen : body.length = 1608 + leNat (slice 1604 4 body))
include hversion hlen

/-- What the checks of a hello's signers decide: the first that fails names the reason. -/
theorem State.lsHello_formed {n c : Bytes × State} {part reply : Bytes} (hn : n = s.freeBytes 32) (hc : c = n.2.freeBytes 1568)
    (hpart : part = [1, 2, 0, 0] ++ n.1 ++ c.1 ++ natLe 4 (c.2.akCert ++ idCert).length ++ (c.2.akCert ++ idCert))
    (hreply : reply = part ++ c.2.sign 49856 (sha body ++ part)) :
    s.lsHello p body k =
      if k.chain = false then s.lsRefuse p 1
      else if k.sig = false then s.lsRefuse p 2
      else if slice 1 1 (slice 1608 144 body) ≠ [1] then s.lsRefuse p 4
      else (((((c.2.setSession p { c.2.session p with init := false, step := 2, tr := body ++ reply, asm := [] }).deriveKeys p false).setOv
        O.link_sec_state 1 0 p).setPartner p 1 0 (slice 80 64 (slice 1608 144 body))).sendHs p 2 0 0 reply) := by
  subst hn hc hpart hreply
  have hform : ¬(slice 0 1 body ≠ [1] ∨ body.length ≠ 1608 + leNat (slice 1604 4 body)) :=
    not_or.mpr ⟨not_not_intro hversion, not_not_intro hlen⟩
  simp only [← Bool.not_eq_true']
  exact (if_neg (State.hello_not_ignored hup hidle _)).trans (if_neg hform)

end Hello

section Step

variable {n : Nat} (hstep : (s.session p).step = n)
include hstep

/-- The message of a session's next step is not passed over. -/
theorem State.message_not_ignored : ¬(s.ov O.link_state p ≠ 2 ∨ (s.session p).step ≠ n) :=
  not_or.mpr ⟨not_not_intro hup, not_not_intro hstep⟩

end Step

section Reply

variable (hstep : (s.session p).step = 1)
include hstep

theorem State.lsReply_badVersion (hversion : slice 0 1 body ≠ [1]) : s.lsReply p body k = s.lsRefuse p 5 :=
  (if_neg (State.message_not_ignored hup hstep)).trans (if_pos (.inl hversion))

/-- What the checks of a reply's signers decide: the first that fails names the reason. -/
theorem State.lsReply_formed {certs fin : Bytes} {u : State} {y : Sess} (hversion : slice 0 1 body = [1]) (hmin : 1 ≤ leNat (slice 1 1 body))
    (hmax : leNat (slice 1 1 body) ≤ 4) (hcerts : certs = slice 1608 (leNat (slice 1604 4 body)) body)
    (hlen : body.length = 1608 + leNat (slice 1604 4 body) + (if leNat (slice 2 1 certs) = 1 then 29792 else 49856))
    (hu : u = s.deriveKeys p true) (hy : y = u.session p)
    (hfin : fin = [1, 0, 0, 0] ++ natLe 32 y.confI ++ u.sign 49856 (sha ((s.session p).tr ++ body))) :
    s.lsReply p body k =
      if k.chain = false then s.lsRefuse p 1
      else if k.sig = false then s.lsRefuse p 2
      else if leafKind certs ≠ 1 ∧ leafKind certs ≠ 16 ∧ leafKind certs ≠ 17 then s.lsRefuse p 4
      else ((u.setSession p { y with step := 3, tr := (s.session p).tr ++ body ++ fin }).setPartner p (leafKind certs) (leNat (slice 4 2 certs))
        (slice 80 64 certs)).sendHs p 3 0 0 fin := by
  subst hfin hy hu hcerts
  simp only [← Bool.not_eq_true']
  refine (if_neg (State.message_not_ignored hup hstep)).trans (if_neg ?_)
  rintro (hother | hnone | hmany | hcut)
  · exact hother hversion
  · exact Nat.not_lt.mpr hmin hnone
  · exact Nat.not_lt.mpr hmax hmany
  · exact hcut hlen

end Reply

section Finish

variable (hstep : (s.session p).step = 2)
include hstep

theorem State.lsFinish_badVersion (hversion : slice 0 1 body ≠ [1]) : s.lsFinish p body k = s.lsRefuse p 5 :=
  (if_neg (State.message_not_ignored hup hstep)).trans (if_pos (.inl hversion))

/-- A finish that is signed and confirmed brings the session up. -/
theorem State.lsFinish_formed (hversion : slice 0 1 body = [1]) (hlen : body.length = 49892) :
    s.lsFinish p body k =
      if k.sig = false then s.lsRefuse p 2
      else if k.conf = false then s.lsRefuse p 3
      else (s.sendHs p 4 0 0 ([1, 0, 0, 0] ++ natLe 32 (s.session p).confR)).sessionUp p := by
  simp only [← Bool.not_eq_true']
  exact (if_neg (State.message_not_ignored hup hstep)).trans (if_neg (not_or.mpr ⟨not_not_intro hversion, not_not_intro hlen⟩))

end Finish

section Done

variable (hstep : (s.session p).step = 3)
include hstep

theorem State.lsDone_badVersion (hversion : slice 0 1 body ≠ [1]) : s.lsDone p body k = s.lsRefuse p 5 :=
  (if_neg (State.message_not_ignored hup hstep)).trans (if_pos (.inl hversion))

theorem State.lsDone_formed (hversion : slice 0 1 body = [1]) (hlen : body.length = 36) :
    s.lsDone p body k = if k.conf = false then s.lsRefuse p 3 else s.sessionUp p := by
  simp only [← Bool.not_eq_true']
  exact (if_neg (State.message_not_ignored hup hstep)).trans (if_neg (not_or.mpr ⟨not_not_intro hversion, not_not_intro hlen⟩))

end Done

theorem State.lsAbort_begun (hstep : (s.session p).step ≠ 0) : s.lsAbort p = s.sessFail p := if_neg (not_or.mpr ⟨not_not_intro hup, hstep⟩)

end Handshake

/-! ### Rekeys and releases (R461-R463) -/

section Rekey

variable {s : State} {p : Nat} {body : Bytes}

theorem State.rekeyDue_offers {k : Bytes × State} (hsec : s.ov O.link_sec_state 0 p = 2) (hinit : (s.session p).init = true)
    (hk : k = s.freeBytes 1568) (hbody : body = [1, BitVec.ofNat 8 (b2n !(s.session p).txPhase), 0, 0] ++ k.1) :
    s.rekeyDue p = ((k.2.setSession p { s.session p with offer := body }).setOv O.link_sec_state 3 0 p).sendHs p 6 0 0 body := by
  subst hbody hk
  refine if_neg (not_or.mpr ⟨not_not_intro hsec, ?_⟩)
  rw [hinit]
  exact Bool.false_ne_true

theorem State.lkOffer_accepted {k : Bytes × State} (hsec : s.ov O.link_sec_state 0 p = 2) (hinit : (s.session p).init = false)
    (hversion : slice 0 1 body = [1]) (hlen : body.length = 1572) (hk : k = s.freeBytes 1568) :
    s.lkOffer p body = (k.2.sendHs p 7 0 0 ([1, BitVec.ofNat 8 (b2n !(s.session p).txPhase), 0, 0] ++ k.1)).switchKeys p := by
  subst hk
  refine (if_neg (not_or.mpr ⟨not_not_intro hsec, Bool.eq_false_iff.mp hinit⟩)).trans (if_neg ?_)
  exact not_or.mpr ⟨not_not_intro hversion, not_not_intro hlen⟩

/-- An accept that answers this side's offer switches the keys if it is of its length. -/
theorem State.lkAccept_offered (hsec : s.ov O.link_sec_state 0 p = 3) (hinit : (s.session p).init = true) (hoffer : (s.session p).offer ≠ [])
    (hversion : slice 0 1 body = [1]) : s.lkAccept p body = if body.length ≠ 1572 then s.lsRefuse p 5 else s.switchKeys p := by
  have hturn : ¬(s.ov O.link_sec_state 0 p ≠ 3 ∨ (!(s.session p).init) = true ∨ (s.session p).offer = []) := by
    rw [hinit]
    exact not_or.mpr ⟨not_not_intro hsec, not_or.mpr ⟨Bool.false_ne_true, hoffer⟩⟩
  refine (if_neg hturn).trans ?_
  simp only [hversion, ne_eq, not_true_eq_false, false_or]

theorem State.laneCountLimit_reached
    (hlimit : (∃ c ∈ (s.lport p).txCount, laneLimit ≤ c.2) ∨ (∃ c ∈ (s.lport p).rxCount, laneLimit ≤ c.2)) :
    s.laneCountLimit p = s.linkDown p := by
  refine if_pos ?_
  simpa only [Bool.or_eq_true, List.any_eq_true, decide_eq_true_eq] using hlimit

theorem State.linkRelease_quarantined (hp : p < 24) (hst : s.ov O.link_state p = 5) :
    (s.linkRelease p).2 = ((s.setOv O.link_state 0 p).setOv O.link_sec_state 0 0 p).setSession p Sess.dflt := by
  rw [State.linkRelease, if_pos ⟨hp, hst⟩]

end Rekey

/-! ### The commands -/

theorem exec_lsHello (s : State) (p : Nat) (body : Bytes) (k : Vouch) : exec (.lsHello p body k) s = .next (s.lsHello p body k) := rfl

theorem exec_lsReply (s : State) (p : Nat) (body : Bytes) (k : Vouch) : exec (.lsReply p body k) s = .next (s.lsReply p body k) := rfl

theorem exec_lsFinish (s : State) (p : Nat) (body : Bytes) (k : Vouch) : exec (.lsFinish p body k) s = .next (s.lsFinish p body k) := rfl

theorem exec_lsDone (s : State) (p : Nat) (body : Bytes) (k : Vouch) : exec (.lsDone p body k) s = .next (s.lsDone p body k) := rfl

theorem exec_lsAbort (s : State) (p : Nat) : exec (.lsAbort p) s = .next (s.lsAbort p) := rfl

theorem exec_linkRekeyDue (s : State) (p : Nat) : exec (.linkRekeyDue p) s = .next (s.rekeyDue p) := rfl

theorem exec_lkOffer (s : State) (p : Nat) (body : Bytes) : exec (.lkOffer p body) s = .next (s.lkOffer p body) := rfl

theorem exec_lkAccept (s : State) (p : Nat) (body : Bytes) : exec (.lkAccept p body) s = .next (s.lkAccept p body) := rfl

theorem exec_oldKeyExpire (s : State) (p : Nat) : exec (.oldKeyExpire p) s = .next (s.oldKeyExpire p) := rfl

theorem exec_laneCountLimit (s : State) (p : Nat) : exec (.laneCountLimit p) s = .next (s.laneCountLimit p) := rfl

theorem exec_linkRelease (s : State) (p : Nat) : exec (.linkRelease p) s = .next (s.linkRelease p).2 := rfl

/-- Settles O42: each message is judged by the equation of its row for a session at that step, and each rekey by its own. -/
theorem linkSessionsAndKeys : Obligations.LinkSessionsAndKeys := by
  simp only [Obligations.LinkSessionsAndKeys, exec_lsHello, exec_lsReply, exec_lsFinish, exec_lsDone, exec_lsAbort, exec_linkRekeyDue, exec_lkOffer,
    exec_lkAccept, exec_oldKeyExpire, exec_laneCountLimit, exec_linkRelease, Host.Outcome.next.injEq]
  refine ⟨?handshake, ?rekey⟩
  case handshake =>
    rintro s p body k x hup rfl
    refine ⟨?hello, State.lsHello_malformed hup, ?reply, ?version, ?finish, ?done, State.lsAbort_begun hup⟩
    case hello =>
      intro hidle hversion hlen
      refine ⟨fun hchain hsig hkind n c part reply hn hc hpart hreply => ?_, fun hchain => ?_, fun hchain hsig => ?_, fun hchain hsig hkind => ?_⟩
      · rw [State.lsHello_formed hup hidle hversion hlen hn hc hpart hreply]
        simp only [hchain, hsig, hkind, Bool.true_eq_false, ne_eq, not_true_eq_false, if_false]
      all_goals rw [State.lsHello_formed hup hidle hversion hlen rfl rfl rfl rfl]
      · exact if_pos hchain
      · simp only [hchain, hsig, Bool.true_eq_false, if_false, if_true]
      · simp only [hchain, hsig, hkind, Bool.true_eq_false, ne_eq, not_false_eq_true, if_false, if_true]
    case reply =>
      intro certs u y fin hstep hversion hmin hmax hcerts hlen
      refine ⟨fun hchain hsig hkind hu hy hfin => ?_, fun hchain => ?_, fun hchain hsig => ?_, fun hchain hsig hnode hagent hmanager => ?_⟩
      · have hknown : ¬(leafKind certs ≠ 1 ∧ leafKind certs ≠ 16 ∧ leafKind certs ≠ 17) := by omega
        rw [State.lsReply_formed hup hstep hversion hmin hmax hcerts hlen hu hy hfin]
        simp only [hchain, hsig, Bool.true_eq_false, if_false, if_neg hknown]
      all_goals rw [State.lsReply_formed hup hstep hversion hmin hmax hcerts hlen rfl rfl rfl]
      · exact if_pos hchain
      · simp only [hchain, hsig, Bool.true_eq_false, if_false, if_true]
      · simp only [hchain, hsig, Bool.true_eq_false, if_false, if_pos (And.intro hnode (And.intro hagent hmanager))]
    case version =>
      exact fun hversion => ⟨fun hstep => State.lsReply_badVersion hup hstep hversion, fun hstep => State.lsFinish_badVersion hup hstep hversion,
        fun hstep => State.lsDone_badVersion hup hstep hversion⟩
    case finish =>
      intro hstep hversion hlen
      rw [State.lsFinish_formed hup hstep hversion hlen]
      refine ⟨fun hsig hconf => ?_, fun hsig => if_pos hsig, fun hsig hconf => ?_⟩
      · simp only [hsig, hconf, Bool.true_eq_false, if_false]
      · simp only [hsig, hconf, Bool.true_eq_false, if_false, if_true]
    case done =>
      intro hstep hversion hlen
      rw [State.lsDone_formed hup hstep hversion hlen]
      exact ⟨fun hconf => if_neg (Bool.not_eq_false _ ▸ hconf), fun hconf => if_pos hconf⟩
  case rekey =>
    rintro s p x rfl
    refine ⟨fun k body => State.rekeyDue_offers, fun body k => State.lkOffer_accepted, fun body hsec hinit hoffer hversion => ?_, rfl,
      State.laneCountLimit_reached, State.linkRelease_quarantined⟩
    rw [State.lkAccept_offered hsec hinit hoffer hversion]
    exact ⟨fun hlen => if_neg (not_not_intro hlen), fun hlen => if_pos hlen⟩

end Sys2Proof.Machine
end

section
/-! PROOFS. Device sets (R467, R471, R472): SET_FORM on the founder, the JOIN messages as each side judges them, and the ends of a formation. -/

namespace Sys2Proof.Machine

open Sys2Proof

/-! ### The founder begins or drops a set (R471, R472) -/

section Founder

variable {s : State} {i : Nat}

theorem State.setForm_busy (hst : (s.devSet i).st ≠ 0) : s.setForm i = s.setOv O.set_result 1 i := if_pos (.inr hst)

variable (hi : i < 16)
include hi

section Fresh

variable (hst : (s.devSet i).st = 0)
include hst

/-- An unused set slot may be formed. -/
theorem State.setForm_not_busy : ¬(16 ≤ i ∨ (s.devSet i).st ≠ 0) := not_or.mpr ⟨Nat.not_le.mpr hi, not_not_intro hst⟩

variable {list : Bytes} {ns : List Nat} (hlist : list = fitTo 128 (s.oct O.set_members i)) (hns : ns = memberNodes list)
include hlist hns

theorem State.setForm_notMember (hme : s.ov O.node_number = 0xFFF ∨ ns.contains (s.ov O.node_number) = false) :
    s.setForm i = s.setOv O.set_result 2 i := by
  subst hns hlist
  refine (if_neg (State.setForm_not_busy hi hst)).trans (if_pos ?_)
  rwa [Bool.not_eq_true']

/-- A founder among the members draws the set's key and asks the others by its port, if it has others to ask and a port (R471). -/
theorem State.setForm_asks {q : Nat × State} {e n : Bytes × State} {v u : State} {others : List Nat} {certs : Bytes}
    (hme : s.ov O.node_number ≠ 0xFFF) (hmember : ns.contains (s.ov O.node_number) = true) (hq : q = s.newKey) (he : e = q.2.freeBytes 1568)
    (hn : n = e.2.freeBytes 32) (hothers : others = (ns.filter (· != s.ov O.node_number)).eraseDups)
    (hv : v = n.2.setOct O.set_record (fitTo 16 (s.oct O.set_id i) ++ list ++ e.1) i)
    (hu : u = v.setDevSet i ⟨1, q.1, others.map (fun m => ⟨m, 0, []⟩), s.ov O.node_number, n.1, v.nodePort.getD 24⟩)
    (hcerts : certs = idCert ++ u.akCert) :
    s.setForm i =
      if others = [] then u.formDone i
      else if u.nodePort = none then u.formFail i 4 (others.headD 0)
      else others.foldl (fun t m => t.sendJoin 8 m ([1] ++ natLe 1 ns.length ++ natLe 2 (s.ov O.node_number) ++ fitTo 16 (s.oct O.set_id i) ++ list
        ++ n.1 ++ natLe 4 certs.length ++ certs)) u := by
  subst hcerts hu hv hothers hn he hq hns hlist
  refine (if_neg (State.setForm_not_busy hi hst)).trans (if_neg ?_)
  rw [hmember]
  exact not_or.mpr ⟨hme, Bool.false_ne_true⟩

end Fresh

theorem State.setDestroy_formed (hst : (s.devSet i).st = 2) :
    s.setDestroy i = ((s.setDevSet i DevSet.dflt).setOct O.set_record [] i).setOv O.set_result 0 i :=
  if_neg (not_or.mpr ⟨Nat.not_le.mpr hi, not_not_intro hst⟩)

end Founder

/-! ### JOIN messages as a member judges them (R471) -/

section Member

variable {s : State} {i src : Nat} {body : Bytes} {k : Vouch}

/-- The slot in which a member joins a founder's set: the one it has asked for it before, or the first unused. -/
def State.joinSlot (s : State) (src : Nat) : Option Nat :=
  ((List.range 16).find? (fun i => (s.devSet i).st == 3 && (s.devSet i).founder == src)).or
    ((List.range 16).find? (fun i => (s.devSet i).st == 0))

/-- A member that has a slot for the set answers a sound request with its nonce, its key and its report. -/
theorem State.joinReq_answers {n e : Bytes × State} {u : State} {certs : Bytes} (hslot : s.joinSlot src = some i) (hchain : k.chain = true)
    (hsig : k.sig = true) (hversion : slice 0 1 body = [1])
    (hmember : (memberNodes (slice 20 128 body)).contains (s.ov O.node_number) = true) (hlen : body.length = 184 + leNat (slice 180 4 body))
    (hsrc : leNat (slice 2 2 body) = src) (hn : n = s.freeBytes 32) (he : e = n.2.freeBytes 1568)
    (hu : u = e.2.setDevSet i ⟨3, 0, [], src, n.1, e.2.nodePort.getD 24⟩) (hcerts : certs = idCert ++ u.akCert) :
    s.joinReq src body k = u.sendJoin 9 src ([1, 0] ++ natLe 2 (s.ov O.node_number) ++ n.1 ++ e.1 ++ u.report none (slice 148 32 body)
      ++ natLe 4 certs.length ++ certs) := by
  subst hcerts hu he hn
  unfold State.joinSlot at hslot
  rw [State.joinReq, hslot]
  refine if_pos ?_
  rw [hchain, hsig, hversion, hmember, hlen, hsrc]
  simp only [beq_self_eq_true, Bool.and_self]

/-- A request whose signature fails is refused, with a slot for the set or without. -/
theorem State.joinReq_unsigned (hsig : k.sig = false) :
    s.joinReq src body k = s.sendJoin 9 src ([1, 1] ++ natLe 2 (s.ov O.node_number) ++ zeros 51716) := by
  unfold State.joinReq
  simp only [hsig, Bool.and_false, Bool.false_and, Bool.false_eq_true, if_false]
  split
  next => rfl
  next => rfl

section Key

variable {x : DevSet} (hset : s.sec.sets.find? (fun p => p.2.st == 3 && p.2.founder == src) = some (i, x))
include hset

/-- A member seals the key of a JOIN_KEY that is sound, in SERVICE (R471, R472). -/
theorem State.joinKey_seals {q : Nat × State} {r : Bytes} (hr : r = slice 51684 1712 body) (hversion : slice 0 1 body = [1])
    (hlen : body.length = 56580) (hsig : k.sig = true) (hopens : k.opens = true) (hreport : s.goodReport x.nonce (slice 1572 256 body) = true)
    (hst : s.ov O.lc_state = 2) (hq : q = s.newKey) :
    s.joinKey src body k = ((((q.2.setOct O.set_record r i).setDevSet i { x with st := 2, key := q.1 }).setOct O.set_id (slice 0 16 r) i).setOct
      O.set_members (slice 16 128 r) i).sendJoin 11 src ([1, 0] ++ natLe 2 (s.ov O.node_number) ++ sha r) := by
  subst hq hr
  rw [State.joinKey, hset]
  refine if_neg ?_
  rw [hsig, hopens, hreport]
  simp only [hversion, hlen, hst, ne_eq, not_true_eq_false, Bool.not_true, Bool.false_eq_true, or_self, not_false_eq_true]

/-- A member that cannot vouch for the founder, or is not in SERVICE, refuses and gives its slot up. -/
theorem State.joinKey_refuses
    (hfault : k.sig = false ∨ k.opens = false ∨ s.goodReport x.nonce (slice 1572 256 body) = false ∨ s.ov O.lc_state ≠ 2) :
    s.joinKey src body k = (s.setDevSet i DevSet.dflt).sendJoin 11 src ([1, 1] ++ natLe 2 (s.ov O.node_number) ++ zeros 32) := by
  rw [State.joinKey, hset]
  refine if_pos (.inr (.inr ?_))
  simpa only [Bool.not_eq_true'] using hfault

end Key

end Member

/-! ### JOIN messages as the founder judges them (R471) -/

section Answers

variable {s : State} {i src : Nat} {body : Bytes} {k : Vouch} {x : DevSet}

/-- The founder gives its key to a member whose answer, report and chain check. -/
theorem State.joinAck_accepts {c e : Bytes × State} {u : State} (hwaits : s.formingWith src 0 = some (i, x)) (hversion : slice 0 1 body = [1])
    (hagrees : slice 1 1 body = [0]) (hsrc : leNat (slice 2 2 body) = src) (hlen : body.length = 51720 + leNat (slice 51716 4 body))
    (hchain : k.chain = true) (hsig : k.sig = true) (hreport : s.goodReport x.nonce (slice 1604 256 body) = true) (hc : c = s.freeBytes 1568)
    (he : e = c.2.freeBytes 3184) (hu : u = e.2.setDevSet i (x.advance src 1 (slice 4 32 body))) :
    s.joinAck src body k = u.sendJoin 10 src ([1, 0, 0, 0] ++ c.1 ++ u.report none (slice 4 32 body) ++ fitTo 1712 (u.oct O.set_record i)
      ++ e.1) := by
  subst hu he hc
  rw [State.joinAck, hwaits]
  refine if_neg ?_
  rw [hchain, hsig, hreport]
  simp only [hversion, hagrees, hsrc, hlen, ne_eq, not_true_eq_false, Bool.not_true, Bool.false_eq_true, or_self, not_false_eq_true]

theorem State.joinAck_fails (hwaits : s.formingWith src 0 = some (i, x))
    (hfault : k.sig = false ∨ k.chain = false ∨ slice 1 1 body ≠ [0] ∨ s.goodReport x.nonce (slice 1604 256 body) = false) :
    s.joinAck src body k = s.formFail i 3 src := by
  rw [State.joinAck, hwaits]
  refine if_pos ?_
  simp only [Bool.not_eq_true']
  tauto

/-- The last member that confirms forms the set. -/
theorem State.joinDone_confirms {y : DevSet} (hwaits : s.formingWith src 1 = some (i, x)) (hversion : slice 0 1 body = [1])
    (hagrees : slice 1 1 body = [0]) (hsrc : leNat (slice 2 2 body) = src) (hlen : body.length = 36)
    (hrecord : slice 4 32 body = sha (fitTo 1712 (s.oct O.set_record i))) (hy : y = x.advance src 2 []) :
    s.joinDone src body = if y.mems.all (fun m => m.st == 2) = true then (s.setDevSet i y).formDone i else s.setDevSet i y := by
  subst hy
  rw [State.joinDone, hwaits]
  refine if_neg ?_
  simp only [hversion, hagrees, hsrc, hlen, hrecord, ne_eq, not_true_eq_false, or_self, not_false_eq_true]

theorem State.joinDone_fails (hwaits : s.formingWith src 1 = some (i, x))
    (hfault : slice 1 1 body ≠ [0] ∨ slice 4 32 body ≠ sha (fitTo 1712 (s.oct O.set_record i))) : s.joinDone src body = s.formFail i 3 src := by
  rw [State.joinDone, hwaits]
  refine if_pos (.inr ?_)
  exact hfault.elim .inl fun hrecord => .inr (.inr (.inr hrecord))

theorem State.joinTimeout_fails
    (hwaits : s.sec.sets.find? (fun p => p.2.st == 1 && p.2.mems.any (fun m => m.node == src && m.st != 2)) = some (i, x)) :
    s.joinTimeout src = s.formFail i 4 src := by
  rw [State.joinTimeout, hwaits]

end Answers

/-! ### The commands -/

theorem exec_setForm (s : State) (i : Nat) : exec (.setForm i) s = .next (s.setForm i) := rfl

theorem exec_setDestroy (s : State) (i : Nat) : exec (.setDestroy i) s = .next (s.setDestroy i) := rfl

theorem exec_joinReq (s : State) (src : Nat) (body : Bytes) (k : Vouch) : exec (.joinReq src body k) s = .next (s.joinReq src body k) := rfl

theorem exec_joinAck (s : State) (src : Nat) (body : Bytes) (k : Vouch) : exec (.joinAck src body k) s = .next (s.joinAck src body k) := rfl

theorem exec_joinKey (s : State) (src : Nat) (body : Bytes) (k : Vouch) : exec (.joinKey src body k) s = .next (s.joinKey src body k) := rfl

theorem exec_joinDone (s : State) (src : Nat) (body : Bytes) : exec (.joinDone src body) s = .next (s.joinDone src body) := rfl

theorem exec_joinTimeout (s : State) (src : Nat) : exec (.joinTimeout src) s = .next (s.joinTimeout src) := rfl

/-- Settles O43: each clause is the equation of its command or message for the set slot the clause names. -/
theorem deviceSetsAreFormed : Obligations.DeviceSetsAreFormed := by
  rintro s i src me body k rfl
  simp only [exec_setForm, exec_setDestroy, exec_joinReq, exec_joinAck, exec_joinKey, exec_joinDone, exec_joinTimeout, Host.Outcome.next.injEq]
  refine ⟨fun _ => State.setForm_busy, ?form, State.setDestroy_formed, fun n e u certs => State.joinReq_answers, State.joinReq_unsigned,
    ?ack, ?key, ?done, fun x => State.joinTimeout_fails⟩
  case form =>
    intro list ns q e n v u others certs hi hst hlist hns
    refine ⟨State.setForm_notMember hi hst hlist hns, fun hme hmember hq he hn hothers hv hu hcerts => ?_⟩
    rw [State.setForm_asks hi hst hlist hns hme hmember hq he hn hothers hv hu hcerts]
    refine ⟨fun halone => if_pos halone, fun hsome hnoPort => ?_, fun hsome hport => ?_⟩
    · rw [if_neg hsome, if_pos hnoPort]
    · rw [if_neg hsome, if_neg hport]
  case ack => exact fun x c e u hwaits => ⟨State.joinAck_accepts hwaits, State.joinAck_fails hwaits⟩
  case key => exact fun x q r hset hr => ⟨State.joinKey_seals hset hr, State.joinKey_refuses hset⟩
  case done => exact fun x y hwaits => ⟨State.joinDone_confirms hwaits, State.joinDone_fails hwaits⟩

end Sys2Proof.Machine
end

section
/-! PROOFS. Flits received (R457, R505, R520, R521): the checks a flit passes before its acknowledgements are taken, and a sequenced flit delivered,
dropped or kept by its place after the number expected. -/

namespace Sys2Proof.Machine

open Sys2Proof

/-! ### A flit that passes its checks (R457, R505, R520, R521) -/

section Checks

variable {s : State} {p : Nat} {f : Flit}

/-- Counting a flit on its lane leaves the port's session as it was. -/
@[simp] theorem State.countRx_read_session (q : Nat) : (s.countRx p f).session q = s.session q := by
  unfold State.countRx
  split
  next => rfl
  next => rfl

@[simp] theorem State.countRx_sessUp (q : Nat) : (s.countRx p f).sessUp q = s.sessUp q := by
  unfold State.countRx
  split
  next => rfl
  next => rfl

@[simp] theorem State.countRx_phaseHeld (q : Nat) (g : Flit) : (s.countRx p f).phaseHeld q g = s.phaseHeld q g := by
  simp only [State.phaseHeld, State.countRx_read_session]

/-- `flitCounted` is the model's count of a flit, followed by the note of a lane's first flit under a new key. -/
theorem State.flitCounted_eq : s.flitCounted p f =
    if s.freshLane p f = true then
      (s.countRx p f).setSession p { (s.countRx p f).session p with lanes := ((s.countRx p f).session p).lanes ++ [f.lane] }
    else s.countRx p f := by
  rw [State.countRx_read_session]
  rfl

/-- A flit that passes its checks has its acknowledgements taken; then an IDLE flit is compared with the number expected, and another goes by its
turn. -/
theorem State.flitIn_passes {m : Met} {k : Vouch} {t : State} (h : s.FlitPasses p f) (ht : t = (s.flitCounted p f).takeAck p f.ack f.sack) :
    s.flitIn p f m k =
      if f.fkind = 0 then (if precedes (s.lport p).expected f.seq then t.askNak p (s.lport p).expected else t) else t.sequenced p f m k := by
  obtain ⟨hport, hruns, hcrc, hsealed, hlane, hearly⟩ := h
  have hrun : ¬(24 ≤ p ∨ (s.ov O.link_state p ≠ 2 ∧ s.ov O.link_state p ≠ 3)) := by omega
  have hgood : ¬((!f.crcOk) = true) := by rw [hcrc]; exact Bool.false_ne_true
  have hnear : ¬(s.freshLane p f = true ∧ 16 < f.gap) := fun ⟨hfresh, hfar⟩ =>
    hlane.elim (fun hold => Bool.false_ne_true (hold.symm.trans hfresh)) (Nat.not_le.mpr hfar)
  have htagged : ¬((s.countRx p f).sessUp p = true ∧ f.fkind ≠ 7 ∧ ((!f.tagOk) = true ∨ (!(s.countRx p f).phaseHeld p f) = true)) := by
    rw [State.countRx_sessUp, State.countRx_phaseHeld]
    rintro ⟨hup, hkind, hfault⟩
    obtain ⟨htag, hphase⟩ := hsealed hup hkind
    rw [htag, hphase] at hfault
    exact hfault.elim Bool.false_ne_true Bool.false_ne_true
  have hallowed : ¬((!(s.countRx p f).sessUp p) = true ∧ f.fkind ≠ 7 ∧ f.fkind ≠ 0) := by
    rw [State.countRx_sessUp, Bool.not_eq_true']
    rintro ⟨hdown, hhandshake, hidle⟩
    exact (hearly hdown).elim hhandshake hidle
  subst ht
  rw [State.flitCounted_eq]
  exact (if_neg hrun).trans ((if_neg hgood).trans ((if_neg hnear).trans ((if_neg htagged).trans (if_neg hallowed))))

end Checks

/-! ### A sequenced flit by its turn (R505) -/

section Turn

variable {s : State} {p d : Nat} {f : Flit} {m : Met} {k : Vouch} (hd : d = (f.seq + 4096 - (s.lport p).expected) % 4096)
include hd

theorem State.sequenced_next (h : d = 0) :
    s.sequenced p f m k =
      if (s.deliverFlit p f m k).1 then (s.deliverFlit p f m k).2.drainReorder p m k 256 else (s.deliverFlit p f m k).2 := by
  have hnew : ¬2048 ≤ d := by omega
  subst hd
  exact (if_neg hnew).trans (if_pos h)

/-- A flit more than half the numbers ahead is one that has come before. -/
theorem State.sequenced_duplicate (h : 2048 ≤ d) : s.sequenced p f m k = s.bump O.dup_dropped p := by
  subst hd
  exact if_pos h

/-- A flit ahead of its turn, and near enough for the reorder buffer, is kept there unless it is there already, and the one expected is asked for. -/
theorem State.sequenced_early (hlo : 1 ≤ d) (hhi : d ≤ 256) :
    s.sequenced p f m k =
      (if (s.lport p).reorder.any (fun g => g.seq == f.seq) then s.bump O.dup_dropped p
      else s.setLport p { s.lport p with reorder := (s.lport p).reorder ++ [f] }).askNak p (s.lport p).expected := by
  have hnew : ¬2048 ≤ d := by omega
  have hahead : d ≠ 0 := by omega
  subst hd
  exact (if_neg hnew).trans ((if_neg hahead).trans (if_pos hhi))

theorem State.sequenced_tooFar (hlo : 256 < d) (hhi : d < 2048) :
    s.sequenced p f m k = (s.bump O.reorder_dropped p).askNak p (s.lport p).expected := by
  have hnew : ¬2048 ≤ d := by omega
  have hahead : d ≠ 0 := by omega
  have hfar : ¬d ≤ 256 := by omega
  subst hd
  exact (if_neg hnew).trans ((if_neg hahead).trans (if_neg hfar))

end Turn

/-! ### The commands -/

/-- Each command that brings a sequenced flit is the arrival of the flit it stands for. -/
theorem exec_sequencedRows {s : State} {p : Nat} {f : Flit} {m : Met} {k : Vouch} {x : Instr × Flit} (hx : x ∈ sequencedRows p f m k) :
    exec x.1 s = .next (s.flitIn p x.2 m k) := by
  simp only [sequencedRows, List.mem_cons, List.not_mem_nil, or_false] at hx
  obtain rfl | rfl | rfl := hx
  · rfl
  · rfl
  · rfl

theorem exec_idleFlit (s : State) (p : Nat) (f : Flit) :
    exec (.idleFlit p f) s = .next (s.flitIn p { f with fkind := 0 } ⟨[]⟩ ⟨false, false, false, false⟩) := rfl

/-- Settles O47: past its checks a sequenced flit goes by the equation of `sequenced` for its turn, an IDLE flit by that of `flitIn`. -/
theorem receivedFlitsAreOrdered : Obligations.ReceivedFlitsAreOrdered := by
  refine fun s p f m k => ⟨fun x hx hpasses hkind t d ht hd => ?sequenced, fun hpasses t ht => ?idle⟩
  case sequenced =>
    simp only [exec_sequencedRows hx, State.flitIn_passes hpasses ht, if_neg hkind, Host.Outcome.next.injEq]
    refine ⟨State.sequenced_next hd, State.sequenced_duplicate hd, fun hlo hhi hheld => ?held, fun hlo hhi hnew => ?kept, State.sequenced_tooFar hd⟩
    case held => rw [State.sequenced_early hd hlo hhi, if_pos hheld]
    case kept => rw [State.sequenced_early hd hlo hhi, if_neg (Bool.eq_false_iff.mp hnew)]
  case idle => rw [exec_idleFlit, State.flitIn_passes hpasses ht, if_pos rfl]

end Sys2Proof.Machine
end

section
/-! PROOFS. The transmitter of a port whose link is UP (R498, R503, R506, R508, R510, R519): what goes in a flit time, its timers, and the changes of
its width. -/

namespace Sys2Proof.Machine

open Sys2Proof

/-! ### Flit times (R503, R506) -/

/-- The flit of the replay buffer that is first in line to be sent again. -/
def State.nextAgain (s : State) (p : Nat) : Option RFlit :=
  (s.lport p).rtxq.findSome? (fun n => (s.lport p).replay.find? (fun g => g.seq == n))

section FlitTime

variable {s u : State} {p : Nat} (hp : p < 24) (hup : s.ov O.link_state p = 3) (hu : u = s.widenIfReady p)
include hp hup hu

/-- A port whose link is UP sends again what waits for it; else something new while its window is open, and only IDLE flits once it is full. -/
theorem State.flitTime_up : s.flitTime p = (u.nextAgain p).elim
    (if 2048 ≤ (u.lport p).replay.length then
      (if u.needsControl p ∨ (u.lport p).cur.isSome ∨ Tab.get [] u.txq p ≠ [] then u.bump O.window_stall p else u).putIdle p
    else u.putNew p) (u.putAgain p) := by
  have hrun : ¬(24 ≤ p ∨ (s.ov O.link_state p ≠ 2 ∧ s.ov O.link_state p ≠ 3)) := by omega
  subst hu
  refine (if_neg hrun).trans ?_
  unfold State.nextAgain
  split
  next hnext => rw [hnext, Option.elim_some]
  next hnone => rw [hnone, Option.elim_none]

theorem State.flitTime_again {f : RFlit} (hnext : u.nextAgain p = some f) : s.flitTime p = u.putAgain p f := by
  rw [State.flitTime_up hp hup hu, hnext, Option.elim_some]

section Nothing

variable (hnone : u.nextAgain p = none)
include hnone

theorem State.flitTime_new (hopen : (u.lport p).replay.length < 2048) : s.flitTime p = u.putNew p := by
  rw [State.flitTime_up hp hup hu, hnone, Option.elim_none]
  exact if_neg (Nat.not_le.mpr hopen)

variable (hfull : 2048 ≤ (u.lport p).replay.length)
include hfull

theorem State.flitTime_idle (hctl : u.needsControl p = false) (hcur : (u.lport p).cur = none) (hqueue : Tab.get [] u.txq p = []) :
    s.flitTime p = u.putIdle p := by
  have hquiet : ¬(u.needsControl p = true ∨ (u.lport p).cur.isSome = true ∨ Tab.get [] u.txq p ≠ []) := by
    simp only [hctl, hcur, hqueue, Option.isSome_none, Bool.false_eq_true, ne_eq, not_true_eq_false, or_self, not_false_eq_true]
  rw [State.flitTime_up hp hup hu, hnone, Option.elim_none]
  refine (if_pos hfull).trans ?_
  rw [if_neg hquiet]

/-- With a full window, what waits to be sent makes the port count a stall. -/
theorem State.flitTime_stalled (hwaits : u.needsControl p = true ∨ (u.lport p).cur ≠ none ∨ Tab.get [] u.txq p ≠ []) :
    s.flitTime p = (u.bump O.window_stall p).putIdle p := by
  rw [← Option.isSome_iff_ne_none] at hwaits
  rw [State.flitTime_up hp hup hu, hnone, Option.elim_none]
  refine (if_pos hfull).trans ?_
  rw [if_pos hwaits]

end Nothing

end FlitTime

/-! ### Timers and widths (R498, R506, R508, R510, R519) -/

section Timers

variable {s : State} {p : Nat}

theorem State.driftRetrain_due (hdue : (s.lport p).driftDue = true) : s.driftRetrain p = s.startRetrain p := if_pos hdue

variable (hp : p < 24)
include hp

theorem State.creditDue_owed (howed : ∃ i < 9, s.toReturn p i ≠ 0) : s.creditDue p = s.setLport p { s.lport p with due := true } := by
  obtain ⟨i, hi, hfreed⟩ := howed
  exact if_pos ⟨hp, List.any_eq_true.mpr ⟨i, List.mem_range.mpr hi, bne_iff_ne.mpr hfreed⟩⟩

theorem State.widthEffect_sender (hnew : (s.lport p).newWidth ≠ 0) (hsent : (s.lport p).wreq = 0) :
    s.widthEffect p true = (s.setLport p { s.lport p with newWidth := 0, flitNo := 0 }).setWidth p (s.lport p).newWidth (s.rxWidth p) :=
  (if_neg (Nat.not_le.mpr hp)).trans ((if_pos rfl).trans (if_neg (not_or.mpr ⟨hnew, not_not_intro hsent⟩)))

variable (hup : s.ov O.link_state p = 3)
include hup

theorem State.rtxTimer_up {t : State} (hreplay : (s.lport p).replay ≠ [])
    (ht : t = (s.setLport p { s.lport p with
      rtxq := if (s.lport p).rtxq.contains (s.lport p).oldest then (s.lport p).rtxq else (s.lport p).rtxq ++ [(s.lport p).oldest],
      misses := (s.lport p).misses + 1 }).bump O.rtx_timeouts p) :
    s.rtxTimer p = if (s.lport p).misses + 1 = s.ov O.rtx_limit p then t.startRetrain p else t := by
  subst ht
  exact if_neg (not_or.mpr ⟨Nat.not_le.mpr hp, not_or.mpr ⟨hreplay, fun hdown => hdown.2 hup⟩⟩)

theorem State.beaconIdle_placed {pool : Nat} (hpool : pool < 9) (hnew : (s.lport p).bcns.contains pool = false) :
    s.beaconIdle p pool = s.setLport p { s.lport p with bcns := (s.lport p).bcns ++ [pool] } := by
  refine if_pos ⟨hp, hpool, hup, ?_⟩
  rw [hnew]
  rfl

/-- A wide transmitter with nothing to send narrows in P1. -/
theorem State.narrowIdle_wide (hstate : s.ov O.pstate = 1) (hmay : s.ob O.narrow_enable p = true) (hwide : 2 < s.txWidth p)
    (hsettled : (s.lport p).newWidth = 0) (hcur : (s.lport p).cur = none) (hqueue : Tab.get [] s.txq p = []) :
    s.narrowIdle p = s.setLport p { s.lport p with newWidth := 2, wreq := 1 } :=
  if_pos ⟨hp, hup, hstate, hmay, hwide, hsettled, Option.isNone_iff_eq_none.mpr hcur, hqueue⟩

end Timers

/-! ### The commands -/

theorem exec_flitTime (s : State) (p : Nat) : exec (.flitTime p) s = .next (s.flitTime p) := rfl

theorem exec_rtxTimer (s : State) (p : Nat) : exec (.rtxTimer p) s = .next (s.rtxTimer p) := rfl

theorem exec_creditReturnDue (s : State) (p : Nat) : exec (.creditReturnDue p) s = .next (s.creditDue p) := rfl

theorem exec_beaconIdle (s : State) (p pool : Nat) : exec (.beaconIdle p pool) s = .next (s.beaconIdle p pool) := rfl

theorem exec_driftRetrain (s : State) (p : Nat) : exec (.driftRetrain p) s = .next (s.driftRetrain p) := rfl

theorem exec_narrowIdle (s : State) (p : Nat) : exec (.narrowIdle p) s = .next (s.narrowIdle p) := rfl

theorem exec_widthChangeEffect (s : State) (p : Nat) (tx : Bool) : exec (.widthChangeEffect p tx) s = .next (s.widthEffect p tx) := rfl

/-- Settles O48: each clause is the equation of its operation for the port and the time the clause names. -/
theorem transmitterTimesComplete : Obligations.TransmitterTimesComplete := by
  intro s p hp hup
  simp only [exec_flitTime, exec_rtxTimer, exec_creditReturnDue, exec_beaconIdle, exec_driftRetrain, exec_narrowIdle, exec_widthChangeEffect,
    Host.Outcome.next.injEq]
  exact ⟨fun u hu => ⟨fun f => State.flitTime_again hp hup hu, fun hnone => ⟨State.flitTime_new hp hup hu hnone,
      State.flitTime_idle hp hup hu hnone, State.flitTime_stalled hp hup hu hnone⟩⟩,
    fun hreplay t => State.rtxTimer_up hp hup hreplay, State.creditDue_owed hp, fun pool => State.beaconIdle_placed hp hup,
    State.driftRetrain_due, State.narrowIdle_wide hp hup, State.widthEffect_sender hp⟩

end Sys2Proof.Machine
end

section
/-! PROOFS. Training (R511-R517, R520): fast retrains and full training with their frames and ends, and lanes that fail. -/

namespace Sys2Proof.Machine

open Sys2Proof

/-! ### Fast retrains and the start of full training (R511, R513, R514, R522) -/

section Begin

variable {s : State} {p : Nat}

theorem State.portRetrain_notUp (hdown : s.ov O.link_state p ≠ 3) : (s.portRetrain p).2 = s := by
  rw [State.portRetrain, if_neg (fun h => hdown h.2)]

variable (hp : p < 24)
include hp

theorem State.startRetrain_up {u : State} (hup : s.ov O.link_state p = 3)
    (hu : u = (s.setOv O.link_state 4 p).setLport p { s.lport p with
      reorder := [], rtxq := [], frame := none, done := false, rtReq := 0, nak := none, driftDue := false, newWidth := 0,
      rxNew := 0, leftAt := s.ltc }) : s.startRetrain p = u.sendFrames p 2 := by
  subst hu
  exact if_neg (not_or.mpr ⟨Nat.not_le.mpr hp, not_not_intro hup⟩)

theorem State.portRetrain_up (hup : s.ov O.link_state p = 3) : (s.portRetrain p).2 = s.startRetrain p := by
  rw [State.portRetrain, if_pos ⟨hp, hup⟩]

theorem State.retrainAgain_running (hst : s.ov O.link_state p = 4) :
    s.retrainAgain p = (s.setLport p { s.lport p with frame := none, done := false }).sendFrames p 2 := if_pos ⟨hp, hst⟩

theorem State.fullTraining_lit {u : State}
    (hu : u = (((List.range 9).foldl (fun t l => t.setOv O.rx_lane 0 p l) s).setOv O.rx_map (laneMap (List.range 8)) p))
    (hdown : s.ov O.link_state p = 0) (hlit : s.ov O.port_state p = 0) (hpower : s.ov O.pstate ≠ 3) :
    s.fullTraining p = ((u.setLport p { LPort.dflt with leftAt := s.ltc }).setOv O.link_state 1 p).sendFrames p 1 := by
  subst hu
  refine if_neg ?_
  rintro (hnone | hlink | hunit | hdark)
  · exact Nat.not_le.mpr hp hnone
  · exact hlink hdown
  · exact hunit hlit
  · exact hpower hdark

end Begin

/-! ### Training frames (R505, R514, R520) -/

section Frames

variable {s : State} {p : Nat} {f : Train} (hp : p < 24)
include hp

/-- A frame that is not a FAST frame begins no retrain. -/
theorem State.trainFrame_notFast (hkind : f.kind ≠ 2) :
    s.trainFrame p f =
      if f.kind = 3 ∧ (s.ov O.link_state p = 1 ∨ s.ov O.link_state p = 4) then s.setLport p { s.lport p with done := true }
      else if f.kind = 1 ∧ s.ov O.link_state p = 1 then s.setLport p { s.lport p with frame := some f }
      else s := by
  simp only [State.trainFrame, hkind, Nat.not_le.mpr hp, and_false, false_and, if_false]

theorem State.trainFrame_done (hkind : f.kind = 3) (hst : s.ov O.link_state p = 1 ∨ s.ov O.link_state p = 4) :
    s.trainFrame p f = s.setLport p { s.lport p with done := true } := by
  rw [State.trainFrame_notFast hp (by omega), if_pos ⟨hkind, hst⟩]

theorem State.trainFrame_full (hkind : f.kind = 1) (hst : s.ov O.link_state p = 1) :
    s.trainFrame p f = s.setLport p { s.lport p with frame := some f } := by
  rw [State.trainFrame_notFast hp (by omega), if_neg (by omega), if_pos ⟨hkind, hst⟩]

/-- A FAST frame brings a port that is UP into the retrain; the first of an attempt is answered. -/
theorem State.trainFrame_fast {u v : State} (hkind : f.kind = 2) (hu : u = if s.ov O.link_state p = 3 then s.startRetrain p else s)
    (hst : u.ov O.link_state p = 4)
    (hv : v = u.setLport p { u.lport p with frame := some f, rxCount := Tab.put 0 (u.lport p).rxCount f.lane f.count }) :
    s.trainFrame p f = if (u.lport p).frame = none then v.sendFrames p 3 else v := by
  have hjoins : u = if s.ov O.link_state p = 3 ∧ f.kind = 2 then s.startRetrain p else s := by simp only [hu, hkind, and_true]
  have hnotDone : ¬(f.kind = 3 ∧ (u.ov O.link_state p = 1 ∨ u.ov O.link_state p = 4)) := by omega
  have hnotFull : ¬(f.kind = 1 ∧ u.ov O.link_state p = 1) := by omega
  subst hv
  simp only [← Option.isNone_iff_eq_none, State.trainFrame, ← hjoins]
  rw [if_neg (Nat.not_le.mpr hp), if_neg hnotDone, if_neg hnotFull, if_pos ⟨hkind, hst⟩]

end Frames

/-! ### The ends of training (R512-R514, R517) -/

section FullDone

variable {s x : State} {p : Nat} {bad ls : List Nat} (hp : p < 24) (hst : s.ov O.link_state p = 1) (hx : x = s.failLanes p 3 bad)
include hp hst

/-- The end of full training is not passed over on a port that trains. -/
theorem State.fullDone_not_ignored : ¬(24 ≤ p ∨ s.ov O.link_state p ≠ 1) := not_or.mpr ⟨Nat.not_le.mpr hp, not_not_intro hst⟩

include hx

theorem State.fullDone_failed : s.fullDone p false bad = x.linkDown p := by
  subst hx
  refine (if_neg (State.fullDone_not_ignored hp hst)).trans ?_
  cases hframe : (s.lport p).frame with
  | none => simp only [hframe]
  | some f =>
    simp only [hframe]
    exact if_pos (.inl rfl)

variable (hls : ls = nextMap [0, 1, 2, 3, 4, 5, 6, 7] (fun l => !x.laneFailed p l))
include hls

/-- Training that ends well without the partner's frames, or with too few lanes, takes the link DOWN all the same. -/
theorem State.fullDone_unfit (h : (s.lport p).frame = none ∨ (s.lport p).done = false ∨ ls.length < 2) : s.fullDone p true bad = x.linkDown p := by
  subst hls hx
  refine (if_neg (State.fullDone_not_ignored hp hst)).trans ?_
  cases hframe : (s.lport p).frame with
  | none => simp only [hframe]
  | some f =>
    simp only [hframe]
    have hfault := h.resolve_left (hframe ▸ Option.some_ne_none f)
    refine if_pos (.inr (hfault.elim (fun hdone => .inl ?_) (fun hfew => .inr (.inr hfew))))
    rw [hdone]
    rfl

theorem State.fullDone_fit {f : Train} (hframe : (s.lport p).frame = some f) (hkind : f.kind = 1) (hdone : (s.lport p).done = true)
    (hlanes : 2 ≤ ls.length) :
    s.fullDone p true bad = ((((((((x.setRxMap p ls).setOv O.tx_map f.map p).setLport p { LPort.dflt with credits := poolSizes }).setWidth
      p (if (mapLanes f.map).length = 0 then 8 else widthOf (mapLanes f.map).length) ls.length).bump
      O.full_trainings p).sendFrames p 1).sendFrames p 3).setOv O.link_state 2 p).lsBegin p := by
  subst hls hx
  refine (if_neg (State.fullDone_not_ignored hp hst)).trans ?_
  simp only [hframe]
  refine if_neg ?_
  rw [hdone]
  simp only [hkind, Nat.not_lt.mpr hlanes, Bool.not_true, Bool.false_eq_true, ne_eq, not_true_eq_false, or_self, not_false_eq_true]

end FullDone

/-- A retrain whose frames have come from both sides ends: what the partner's FAST frame says is taken over, and the port is UP again. -/
theorem State.retrainDone_framed {s u v : State} {p : Nat} {f : Train} {x : List RFlit} (hp : p < 24) (hst : s.ov O.link_state p = 4)
    (hframe : (s.lport p).frame = some f) (hkind : f.kind = 2) (hdone : (s.lport p).done = true)
    (hx : x = (keepFrom f.expected (s.lport p).replay).map (fun r => { r with sacked := false }))
    (hu : u = ((s.setLport p { s.lport p with
      replay := x, rtxq := x.map (·.seq), oldest := (x.head?.map (·.seq)).getD (s.lport p).next, misses := 0, credits := f.free,
      flitNo := 0, frame := none, done := false }).setOv O.tx_map f.map p).setWidth
      p (heldWidth (if s.txWidth p = 0 then 8 else s.txWidth p) f.map) (heldWidth f.width (s.ov O.rx_map p)))
    (hv : v = if f.kphase = (s.session p).rxPhase then u.setSession p { s.session p with lanes := List.range 9 } else u) :
    s.retrainDone p = ((v.bump O.fast_retrains p).setOv O.link_state 3 p).rerouteAll.sendAllQueries := by
  subst hv hu hx
  unfold State.retrainDone
  simp only [hframe]
  refine if_neg ?_
  rw [hdone]
  simp only [hst, hkind, Nat.not_le.mpr hp, Bool.not_true, Bool.false_eq_true, ne_eq, not_true_eq_false, or_self, not_false_eq_true]

/-! ### Lanes that fail (R516, R517) -/

section Lanes

variable {s x : State} {p l c : Nat} {cur ls : List Nat} (hp : p < 24) (hl : l < 9)
  (hst : s.ov O.link_state p = 2 ∨ s.ov O.link_state p = 3 ∨ s.ov O.link_state p = 4) (hworks : s.laneFailed p l = false)
  (hcause : c ≠ 2 ∨ s.ov O.lane_ue_limit p ≠ 0xFFFF) (hx : x = s.failLanes p c [l]) (hcur : cur = mapLanes (s.ov O.rx_map p))
include hp hl hst hworks hcause

/-- A working lane of a link that runs does fail. -/
theorem State.laneFail_not_ignored : ¬(24 ≤ p ∨ 9 ≤ l ∨ (s.ov O.link_state p ≠ 3 ∧ s.ov O.link_state p ≠ 4 ∧ s.ov O.link_state p ≠ 2) ∨
    s.laneFailed p l = true ∨ (c = 2 ∧ s.ov O.lane_ue_limit p = 0xFFFF)) := by
  simp only [hworks, Bool.false_eq_true, false_or]
  omega

include hx hcur

theorem State.laneFail_unmapped (hnone : (List.range 8).find? (fun i => cur[i]? == some l) = none) : s.laneFail p l c = x := by
  subst hcur hx
  refine (if_neg (State.laneFail_not_ignored hp hl hst hworks hcause)).trans ?_
  simp only [hnone]

variable (hls : ls = nextMap cur (fun k => !x.laneFailed p k)) {i : Nat} (hi : (List.range 8).find? (fun i => cur[i]? == some l) = some i)
include hls hi

theorem State.laneFail_down (h : ls.length < 2 ∨ s.ov O.link_state p = 2) : s.laneFail p l c = x.linkDown p := by
  subst hls hcur hx
  refine (if_neg (State.laneFail_not_ignored hp hl hst hworks hcause)).trans ?_
  simp only [hi]
  exact if_pos h

/-- Lanes enough are left: the partner is asked to move the lane, and a fast retrain begins with the map that follows. -/
theorem State.laneFail_up {u v : State} (hlanes : 2 ≤ ls.length) (hup : s.ov O.link_state p = 3) (hu : u = (x.askMove p i).setRxMap p ls)
    (hv : v = if ls.length = cur.length ∧ cur.length = 8 then (u.bump O.lane_moves p).event 0x22 3 p noCtx 0 else u) :
    s.laneFail p l c = (v.setWidth p (v.txWidth p) ls.length).startRetrain p := by
  have hfit : ¬(ls.length < 2 ∨ s.ov O.link_state p = 2) := by omega
  subst hv hu hls hcur hx
  refine (if_neg (State.laneFail_not_ignored hp hl hst hworks hcause)).trans ?_
  simp only [hi]
  refine (if_neg hfit).trans ?_
  simp only [if_pos hup, Bool.and_eq_true, beq_iff_eq, decide_eq_true_eq]

end Lanes

end Sys2Proof.Machine
end

section
/-! PROOFS. Boroc ports lost, fenced and repaired (R518, R522, R577, R585), and the commands of training and of ports. -/

namespace Sys2Proof.Machine

open Sys2Proof

/-! ### Ports lost, fenced and repaired (R518, R522, R585) -/

section Ports

variable {s : State} {p : Nat} (hp : p < 24)
include hp

theorem State.portLossTimeout_retraining (hst : s.ov O.link_state p = 4) : s.portLossTimeout p = s.linkDown p := if_pos ⟨hp, hst⟩

theorem State.portRestart_free (hst : s.ov O.link_state p ≠ 5) : s.portRestart p = s.linkDown p := if_pos ⟨hp, hst⟩

theorem State.portFence_lit (hunit : s.ov O.port_state p ≠ 2) : (s.portFence p).2 = s.portDark p := by
  rw [State.portFence, if_pos ⟨hp, hunit⟩]

theorem State.portRepair_dark (hunit : s.ov O.port_state p = 2) : (s.portRepair p).2 = s.setUnitSt O.port_state 3 p := by
  rw [State.portRepair, if_pos ⟨hp, hunit⟩]

end Ports

/-! ### The commands -/

theorem exec_trainFlit (s : State) (p : Nat) (f : Train) : exec (.trainFlit p f) s = .next (s.trainFrame p f) := rfl

theorem exec_fastRetrain (s : State) (p : Nat) : exec (.fastRetrain p) s = .next (s.startRetrain p) := rfl

theorem exec_fastRetrainDone (s : State) (p : Nat) : exec (.fastRetrainDone p) s = .next (s.retrainDone p) := rfl

theorem exec_retrainLimitExpiry (s : State) (p : Nat) : exec (.retrainLimitExpiry p) s = .next (s.retrainAgain p) := rfl

theorem exec_fullTraining (s : State) (p : Nat) : exec (.fullTraining p) s = .next (s.fullTraining p) := rfl

theorem exec_linkDownRetry (s : State) (p : Nat) : exec (.linkDownRetry p) s = .next (s.fullTraining p) := rfl

theorem exec_fullTrainingDone (s : State) (p : Nat) (ok : Bool) (bad : List Nat) :
    exec (.fullTrainingDone p ok bad) s = .next (s.fullDone p ok bad) := rfl

theorem exec_laneFail (s : State) (p l c : Nat) : exec (.laneFail p l c) s = .next (s.laneFail p l c) := rfl

theorem exec_portRetrain (s : State) (p : Nat) : exec (.portRetrain p) s = .next (s.portRetrain p).2 := rfl

theorem exec_portLossTimeout (s : State) (p : Nat) : exec (.portLossTimeout p) s = .next (s.portLossTimeout p).leaseCheck := rfl

theorem exec_portRestart (s : State) (p : Nat) : exec (.portRestart p) s = .next (s.portRestart p).leaseCheck := rfl

theorem exec_portFence (s : State) (p : Nat) : exec (.portFence p) s = .next (s.portFence p).2.leaseCheck := rfl

theorem exec_portRepair (s : State) (p : Nat) : exec (.portRepair p) s = .next (s.portRepair p).2 := rfl

/-- Settles O49: each clause is the equation of its operation for the state of the link or of the port's unit the clause names. -/
theorem trainingAndPortCommands : Obligations.TrainingAndPortCommands := by
  simp only [Obligations.TrainingAndPortCommands, exec_trainFlit, exec_fastRetrain, exec_fastRetrainDone, exec_retrainLimitExpiry,
    exec_fullTraining, exec_linkDownRetry, exec_fullTrainingDone, exec_laneFail, exec_portRetrain, exec_portLossTimeout, exec_portRestart,
    exec_portFence, exec_portRepair, Host.Outcome.next.injEq]
  refine ⟨fun s p hp => ⟨fun u hu hup => ?retrain, State.portRetrain_notUp, State.retrainAgain_running hp, fun u hu hdown hlit hpower => ?full,
    fun f => State.trainFrame_done hp, fun f => State.trainFrame_full hp, fun f u hkind hu hst v => State.trainFrame_fast hp hkind hu hst,
    fun bad ls x hst hx hls => ?fullDone, fun f x hst hframe hkind hdone hx u v => State.retrainDone_framed hp hst hframe hkind hdone hx,
    fun l hl c x cur ls hst hworks hcause hx hcur hls => ?lane⟩, fun s p hp => ?port⟩
  case retrain =>
    have hstart := State.startRetrain_up hp hup hu
    exact ⟨hstart, (State.portRetrain_up hp hup).trans hstart⟩
  case full =>
    have hbegins := State.fullTraining_lit hp hu hdown hlit hpower
    exact ⟨hbegins, hbegins⟩
  case fullDone =>
    exact ⟨fun f => State.fullDone_fit hp hst hx hls, State.fullDone_unfit hp hst hx hls, State.fullDone_failed hp hst hx⟩
  case lane =>
    exact ⟨State.laneFail_unmapped hp hl hst hworks hcause hx hcur, fun i hi => ⟨State.laneFail_down hp hl hst hworks hcause hx hcur hls hi,
      fun hlanes hup u v => State.laneFail_up hp hl hst hworks hcause hx hcur hls hi hlanes hup⟩⟩
  case port =>
    refine ⟨fun hst => ?loss, fun hst => ?restart, fun hunit t u ht hu => ?fence, State.portRepair_dark hp⟩
    case loss => rw [State.portLossTimeout_retraining hp hst]
    case restart => rw [State.portRestart_free hp hst]
    case fence =>
      rw [State.portFence_lit hp hunit, hu, ht]
      rfl

end Sys2Proof.Machine
end

section
/-! PROOFS. Steps (R624) and the reset state (R438, R604, R609, R624): what a step runs, what a word spells, and what objects read as after reset. -/

namespace Sys2Proof.Machine

open Sys2Proof

/-! ### Steps (R624) -/

theorem step_of_pending {s : State} {c : Instr} {rest : List Instr} (h : s.pending = c :: rest) : step s = exec c { s with pending := rest } := by
  rw [step, h]

theorem step_of_no_pending {s : State} (h : s.pending = []) : step s = .next { s with ltc := (s.ltc + 1) % 2 ^ 64 } := by
  rw [step]
  split
  next => rfl
  next hpending => exact absurd (h.symm.trans hpending) (List.cons_ne_nil _ _).symm

/-- No arm of `exec` refuses or faults: every command has a meaning that answers a next state. -/
theorem exec_answers (c : Instr) (s : State) : ∃ t, exec c s = .next t := by
  cases c <;> exact ⟨_, rfl⟩

/-- Settles O1: the queue has a front, whose command answers a next state, or it is empty and a tick passes. -/
theorem stepTakesTheFrontCommand : Obligations.StepTakesTheFrontCommand := fun s =>
  ⟨fun _ _ => step_of_pending, fun c => exec_answers c s, step_of_no_pending⟩

theorem State.withFetchWord_none {s : State} {nbits w : Nat} (h : decodeTableWord nbits w = none) : s.withFetchWord nbits w = s := by
  rw [State.withFetchWord, h]

/-- Settles O2: a word that spells no command puts none in the queue. -/
theorem theTableGivesNoBits : Obligations.TheTableGivesNoBits := by
  intro s nbits w
  have hspells : decodeTableWord nbits w = none := rfl
  exact ⟨hspells, State.withFetchWord_none hspells⟩

/-! ### The state after reset (R438, R604, R609, R624) -/

/-- What writes to other keys leave is left by any number of them. -/
theorem Tab.get_foldl_other {α β : Type} {d : α} {f : Tab α → β → Tab α} {l : List β} {t : Tab α} {k : Nat}
    (hf : ∀ t, ∀ x ∈ l, Tab.get d (f t x) k = Tab.get d t k) : Tab.get d (l.foldl f t) k = Tab.get d t k :=
  List.foldlRecOn l f (motive := fun u => Tab.get d u k = Tab.get d t k) rfl fun u hu x hx => (hf u x hx).trans hu

/-- The objects whose value after reset is not the default of their table. -/
def resetListed : List Obj := [O.fr_port, O.dcp_frames, O.dimm_present, O.dimm_pwr]

/-- An object that `resetObjs` does not list reads its table's default after reset. -/
theorem State.reset_ov_default {o : Obj} {a b : Nat} (hnot : ∀ p ∈ resetListed, p.id ≠ o.id) (ha : a < 2 ^ 24) (hb : b < 2 ^ 8) :
    State.reset.ov o a b = o.dflt := by
  have hother (p : Obj) (hp : p ∈ resetListed) {c : Nat} (hc : c < 2 ^ 24) : p.key c 0 ≠ o.key a b :=
    Obj.key_ne_of_id (hnot p hp) hc (Nat.two_pow_pos 8) ha hb
  rw [State.ov, State.reset_objs, resetObjs, Tab.get_foldl_other, Tab.get_foldl_other]
  · rfl
  · intro t r hr
    have hr : r < 2 ^ 24 := by simp only [List.mem_cons, List.not_mem_nil, or_false] at hr; omega
    rw [Tab.get_put_ne (hother O.fr_port (by decide) hr)]
  · intro t m hm
    have hm : m < 2 ^ 24 := by rw [List.mem_range] at hm; omega
    rw [Tab.get_put_ne (hother O.dimm_pwr (by decide) hm), Tab.get_put_ne (hother O.dimm_present (by decide) hm),
      Tab.get_put_ne (hother O.dcp_frames (by decide) hm)]

/-- Settles O4: `resetObjs` lists none of the objects named, and every other piece is as `State.reset` gives it. -/
theorem resetLeavesWhatTheSpecGives : Obligations.ResetLeavesWhatTheSpecGives := by
  have h0 : 0 < 2 ^ 24 := Nat.two_pow_pos 24
  have hb : 0 < 2 ^ 8 := Nat.two_pow_pos 8
  exact ⟨rfl, State.reset_ov_default (by decide) h0 hb, State.reset_ov_default (by decide) h0 hb, State.reset_ov_default (by decide) h0 hb,
    State.reset_ov_default (by decide) h0 hb, State.reset_ov_default (by decide) h0 hb, State.reset_ov_default (by decide) h0 hb,
    fun n hn => State.reset_ov_default (by decide) (by omega) hb, fun p hp => State.reset_ov_default (by decide) (by omega) hb,
    State.reset_ov_default (by decide) h0 hb, rfl, rfl, rfl, rfl, rfl, rfl⟩

/-! ### Objects read after a write or a count (R651, R652) -/

/-- Values of two objects, or of one object for two items or places, lie at two keys. -/
theorem Obj.key_ne {o p : Obj} {a b c d : Nat} (ha : a < 2 ^ 24) (hb : b < 256) (hc : c < 2 ^ 24) (hd : d < 256)
    (h : o.id ≠ p.id ∨ (o = p ∧ (a ≠ c ∨ b ≠ d))) : o.key a b ≠ p.key c d := by
  obtain hid | ⟨rfl, hitem⟩ := h
  · exact Obj.key_ne_of_id hid ha hb hc hd
  · exact Obj.key_ne_of_item hitem hb hd

/-- Settles O9: a write and a count are read back at their own key, and every other value lies at another key. -/
theorem objectsReadBack : Obligations.ObjectsReadBack := by
  intro s o p a b c d v n hok
  refine ⟨State.ov_setOv_self hok o v a b, State.ov_bump_self hok o a b n, fun ha hb hc hd hother => ?_⟩
  have hkey := Obj.key_ne ha hb hc hd hother
  exact ⟨s.ov_setOv_ne hkey, s.ov_bump_ne hkey⟩

end Sys2Proof.Machine
end

section
/-! PROOFS. Reset sources (R598-R604, R609): a source begins or widens an episode, and what holds it off. -/

namespace Sys2Proof.Machine

open Sys2Proof

/-! ### Sources and the episode (R604, R609) -/

section Sources

variable {s : State}

theorem State.assertSrc_pulse (s : State) (b : Nat) :
    s.assertSrc b false = ((if s.rst.reach < reachOf b then s.widen (reachOf b) else s).cause b).causeReach := rfl

/-- A level source does what a pulse does, and is held besides until it is released. -/
theorem State.assertSrc_level (s : State) (b : Nat) : s.assertSrc b true =
    { s.assertSrc b false with rst := { (s.assertSrc b false).rst with
      asserted := setBit (s.assertSrc b false).rst.asserted b, sample := false } } := rfl

/-! ### Power-good and pins (R598, R601, R607) -/

theorem State.coreFall_outside (h : s.ov O.pstate = 3 ∨ s.rst.coreEn = false) :
    s.coreFall = { s with rst := { s.rst with coreGood := false } } := by
  rw [State.coreFall, if_pos]
  simpa only [Bool.not_eq_true'] using h

theorem State.coreFall_inside (hlit : s.ov O.pstate ≠ 3) (hen : s.rst.coreEn = true) :
    s.coreFall = { s.assertSrc 3 true with rst := { (s.assertSrc 3 true).rst with coreGood := false } } := by
  rw [State.coreFall, if_neg]
  simp only [hlit, hen, Bool.not_true, Bool.false_eq_true, or_self, not_false_eq_true]

theorem State.rstInput_released (h : s.rst.rstDrive = false) : s.rstInput = s.assertSrc 4 true := if_neg (Bool.eq_false_iff.mp h)

/-- While the controller drives RST_N low itself, a low pin is no source. -/
theorem State.rstInput_driven (h : s.rst.rstDrive = true) : s.rstInput = s := if_pos h

theorem State.dbgReq_invasive (h : s.ov O.dbg_state = 2) : s.dbgReq = s.assertSrc 5 true := if_pos h

theorem State.dbgReq_ignored (h : s.ov O.dbg_state ≠ 2) : s.dbgReq = s.bump O.dbg_req_ignored := if_neg h

/-! ### The watchdog (R599) -/

/-- In a wide episode, and until the Keeper ROM starts, the watchdog is stopped. -/
theorem State.watchdog_stopped (h : 2 ≤ s.rst.reach ∨ s.rst.stage < 3) : s.watchdog = s := if_pos (h.imp_right .inl)

theorem State.watchdog_first (hreach : s.rst.reach < 2) (hstage : 3 ≤ s.rst.stage) (harmed : s.rst.armed = false) :
    s.watchdog = { s.assertSrc 8 false with rst := { (s.assertSrc 8 false).rst with armed := true } } := by
  rw [State.watchdog, if_neg, if_neg (Bool.eq_false_iff.mp harmed)]
  simp only [harmed, Bool.false_eq_true, false_and, or_false]
  omega

/-- After the core episode that an expiry caused has ended, the next expiry resets the system. -/
theorem State.watchdog_again (hreach : s.rst.reach = 0) (hstage : 3 ≤ s.rst.stage) (harmed : s.rst.armed = true) :
    s.watchdog = s.assertSrc 9 false := by
  rw [State.watchdog, if_neg, if_pos harmed]
  omega

/-! ### PERST (R603) -/

theorem State.perst_lit {n : Nat} (hn : n < 2) (hgood : s.rst.coreGood = true) :
    s.perst n = ((s.bump O.pcie_perst 0 n).resetFunctions n).pcieLost n := by
  rw [State.perst, if_neg]
  simp only [hgood, Nat.not_le.mpr hn, Bool.not_true, Bool.false_eq_true, or_self, not_false_eq_true]

end Sources

/-! ### The commands -/

theorem exec_clockFailure (s : State) : exec .clockFailure s = .next (s.assertSrc 6 false) := rfl

theorem exec_lockup (s : State) : exec .lockup s = .next (s.assertSrc 7 false) := rfl

theorem exec_pwrgoodAonLow (s : State) : exec .pwrgoodAonLow s = .next s.aonLow := rfl

theorem exec_coreBrownOut (s : State) : exec .coreBrownOut s = .next s.coreFall := rfl

theorem exec_rstNInput (s : State) : exec .rstNInput s = .next s.rstInput := rfl

theorem exec_dbgReq (s : State) : exec .dbgReq s = .next s.dbgReq := rfl

theorem exec_rstCmdSystem (s : State) : exec .rstCmdSystem s = .next (s.softReset 2) := rfl

theorem exec_perst (s : State) (n : Nat) : exec (.perst n) s = .next (s.perst n).leaseCheck := rfl

/-- Settles O54: `f` and `g` are what a pulse and a level source assert, and each clause is its source's equation. -/
theorem resetSourcesWidenTheEpisode : Obligations.ResetSourcesWidenTheEpisode := by
  intro s f g hf hg
  have hpulse (b : Nat) : s.assertSrc b false = f b := (State.assertSrc_pulse s b).trans (hf b).symm
  have hlevel (b : Nat) : s.assertSrc b true = g b := by rw [State.assertSrc_level, hpulse, hg]
  simp only [exec_clockFailure, exec_lockup, exec_pwrgoodAonLow, exec_coreBrownOut, exec_rstNInput, exec_dbgReq, exec_watchdogExpiry,
    exec_rstCmdCore, exec_rstCmdSystem, exec_perst, Host.Outcome.next.injEq, ← hpulse, ← hlevel]
  refine ⟨trivial, trivial, rfl, State.coreFall_inside, State.coreFall_outside, State.rstInput_released, State.rstInput_driven, State.dbgReq_invasive,
    State.dbgReq_ignored, State.watchdog_first, State.watchdog_again, State.watchdog_stopped, ?_, fun n hn hgood => ?_⟩
  · rintro u rfl
    exact ⟨rfl, rfl⟩
  · rw [State.perst_lit hn hgood]

/-- Settles O55: outside INVASIVE the request is counted and nothing else (R601). -/
theorem debugRequestsAreIgnored : Obligations.DebugRequestsAreIgnored := by
  intro s hstate
  rw [exec_dbgReq, State.dbgReq_ignored hstate]

end Sys2Proof.Machine
end

section
/-! PROOFS. Start-up (R447, R604-R606, R610-R615, R627, R634): the end of an episode, RST_N sampled, trim loads, power-on BIST and the
Keeper's boot. -/

namespace Sys2Proof.Machine

open Sys2Proof

/-! ### The end of an episode (R604-R606) -/

section EpisodeEnd

variable {s : State} {straps : Nat}

theorem State.episodeEnd_asserted (h : s.rst.asserted ≠ 0) : s.episodeEnd straps = s := if_pos (.inr (.inl h))

/-- A core episode restarts the Keepers, the one active before first; a trim load it cut off would start again. -/
theorem State.episodeEnd_core {u : State} (hreach : s.rst.reach = 1) (hfree : s.rst.asserted = 0) (hsample : s.rst.sample = false)
    (hstage : s.rst.stage ≠ 1)
    (hu : u = { s with rst := { s.rst with reach := 0, roms := 3, stage := min s.rst.stage 3, warm := s.rst.stage == 4 || s.rst.warm } }) :
    s.episodeEnd straps = (u.setKeeper s.rst.pref 0).setKeeper (1 - s.rst.pref) 1 := by
  have hends : ¬(s.rst.reach = 0 ∨ s.rst.asserted ≠ 0 ∨ s.rst.sample = true) := by
    rw [hreach, hfree, hsample]
    decide
  subst hu
  exact (if_neg hends).trans ((if_pos hreach).trans (if_neg hstage))

/-- A wider episode releases RST_N, and goes on until the pin has been sampled. -/
theorem State.episodeEnd_wide {u : State} (hreach : 2 ≤ s.rst.reach) (hfree : s.rst.asserted = 0) (hsample : s.rst.sample = false)
    (haon : s.rst.aon = true) (hcore : s.rst.coreGood = true)
    (hu : u = if s.rst.oscDone = true then (s.setOv O.osc_dly (straps % 8)).chooseRoot else s.setOv O.osc_dly (straps % 8)) :
    s.episodeEnd straps =
      { u with ltc := if s.rst.reach = 3 then 0 else s.ltc, rst := { s.rst with rstDrive := false, sample := true, stage := 1 } } := by
  have hends : ¬(s.rst.reach = 0 ∨ s.rst.asserted ≠ 0 ∨ s.rst.sample = true) := by
    rw [hfree, hsample]
    simp only [ne_eq, not_true_eq_false, Bool.false_eq_true, or_self, or_false]
    omega
  have hcoreReach : ¬s.rst.reach = 1 := by omega
  have hpowered : ¬((!s.rst.aon) = true ∨ (!s.rst.coreGood) = true) := by
    rw [haon, hcore]
    decide
  subst hu
  exact (if_neg hends).trans ((if_neg hcoreReach).trans (if_neg hpowered))

end EpisodeEnd

/-! ### RST_N sampled, and the trim load (R606, R610-R612) -/

section Load

variable {s : State}

section Sample

variable (h : s.rst.sample = true)
include h

theorem State.rstSample_high : s.rstSample false = ({ s with rst := { s.rst with sample := false, reach := 0 } } : State).startLoad := by
  simp only [State.rstSample, h, Bool.not_true, Bool.false_eq_true, if_false]

theorem State.rstSample_low :
    s.rstSample true = { s.assertSrc 4 true with rst := { (s.assertSrc 4 true).rst with rstDrive := true, stage := 0 } } := by
  simp only [State.rstSample, h, Bool.not_true, Bool.false_eq_true, if_false, if_true]

end Sample

variable (h : s.rst.loading = true)
include h

theorem State.trimDone_loaded :
    s.trimDone true = { s.setOv O.trim_state 1 with rst := { s.rst with loading := false, trimFails := 0, stage := 2 } } := by
  simp only [State.trimDone, h, Bool.not_true, Bool.false_eq_true, if_false, if_true]

theorem State.trimDone_repeats (hfirst : s.rst.trimFails = 0) :
    s.trimDone false = { s.bump O.trim_loads with rst := { s.rst with trimFails := 1 } } := by
  simp only [State.trimDone, h, hfirst, Bool.not_true, Bool.false_eq_true, if_false, if_true]

theorem State.trimDone_defaults {u : State} (hagain : s.rst.trimFails ≠ 0) (hu : u = (s.setOv O.trim_state 2).cause 13) :
    s.trimDone false = { u with rst := { s.rst with loading := false, trimFails := 0, stage := 2 } } := by
  simp only [State.trimDone, h, hagain, hu, Bool.not_true, Bool.false_eq_true, if_false]

end Load

/-! ### The reference wait, BIST and the boot (R447, R613-R615, R634) -/

section Boot

variable {s : State}

theorem State.oscDone_waits {locks : Nat} (hosc : s.rst.oscDone = false) (haon : s.rst.aon = true) :
    s.oscDone locks = State.chooseRoot { s.setOv O.pll_lock (locks % 4) with rst := { s.rst with oscDone := true } } := by
  simp only [State.oscDone, hosc, haon, Bool.not_true, Bool.false_eq_true, or_self, if_false]

theorem State.bistDone_due {fails : List (Nat × Nat)} (hstage : s.rst.stage = 2) (hreach : s.rst.reach = 0) :
    s.bistDone fails = { s.bistFail fails with rst := { s.rst with stage := 3 } } := by
  rw [State.bistDone, if_neg]
  omega

section KeeperBoot

variable {a b idOk : Bool} {bad : List Nat} {k u v : State} (hstage : s.rst.stage = 3) (hreach : s.rst.reach = 0)
  (hk : k = (bad.foldl (fun t k => if k < 2 then t.setKeeper k 2 else t) s).pickKeeper) (hlit : k.keeper 0 ≠ 2 ∨ k.keeper 1 ≠ 2)
  (hu : u = if k.rst.warm = true then k else k.bump O.boot_count)
include hstage hreach hk hlit hu

/-- With a Keeper left, the boot goes by the part whose image is accepted. -/
theorem State.keeperBoot_lit : s.keeperBoot a b idOk bad =
    (u.bootPart a b).1.elim (u.bootPart a b).2.toRecovery
      (fun p => if (u.bootPart a b).2.rst.warm then (u.bootPart a b).2.warmBoot p else (u.bootPart a b).2.coldBoot p idOk) := by
  have hdue : ¬(s.rst.stage ≠ 3 ∨ s.rst.reach ≠ 0) := by omega
  have hsome : ¬(k.keeper 0 = 2 ∧ k.keeper 1 = 2) := by omega
  simp only [State.keeperBoot, ← hk, if_neg hdue, if_neg hsome, ← hu]
  cases hpart : u.bootPart a b with
  | mk part v => cases part <;> rfl

theorem State.keeperBoot_cold {p : Nat} (hpart : u.bootPart a b = (some p, v)) (hwarm : v.rst.warm = false) :
    s.keeperBoot a b idOk bad = v.coldBoot p idOk := by
  rw [State.keeperBoot_lit hstage hreach hk hlit hu, hpart, Option.elim_some, if_neg (Bool.eq_false_iff.mp hwarm)]

theorem State.keeperBoot_warm {p : Nat} (hpart : u.bootPart a b = (some p, v)) (hwarm : v.rst.warm = true) :
    s.keeperBoot a b idOk bad = v.warmBoot p := by
  rw [State.keeperBoot_lit hstage hreach hk hlit hu, hpart, Option.elim_some, if_pos hwarm]

theorem State.keeperBoot_recovery (hpart : u.bootPart a b = (none, v)) : s.keeperBoot a b idOk bad = v.toRecovery := by
  rw [State.keeperBoot_lit hstage hreach hk hlit hu, hpart, Option.elim_none]

end KeeperBoot

end Boot

/-! ### The commands -/

theorem exec_episodeEnd (s : State) (straps : Nat) : exec (.episodeEnd straps) s = .next (s.episodeEnd straps) := rfl

theorem exec_rstNSample (s : State) (low : Bool) : exec (.rstNSample low) s = .next (s.rstSample low) := rfl

theorem exec_trimLoadDone (s : State) (ok : Bool) : exec (.trimLoadDone ok) s = .next (s.trimDone ok) := rfl

theorem exec_oscDlyWaitEnd (s : State) (locks : Nat) : exec (.oscDlyWaitEnd locks) s = .next (s.oscDone locks) := rfl

theorem exec_powerOnBistDone (s : State) (fails : List (Nat × Nat)) : exec (.powerOnBistDone fails) s = .next (s.bistDone fails) := rfl

theorem exec_keeperBootDone (s : State) (a b idOk : Bool) (bad : List Nat) :
    exec (.keeperBootDone a b idOk bad) s = .next (s.keeperBoot a b idOk bad).serveWaits := rfl

/-- Settles O56: each clause is the equation of its operation for the stage of start-up the clause names. -/
theorem startUpRunsInOrder : Obligations.StartUpRunsInOrder := by
  intro s
  simp only [exec_episodeEnd, exec_rstNSample, exec_trimLoadDone, exec_oscDlyWaitEnd, exec_powerOnBistDone, exec_keeperBootDone,
    Host.Outcome.next.injEq]
  refine ⟨fun straps u v hreach hfree hsample hstage hu hv => ?core, fun straps u => State.episodeEnd_wide, fun straps => State.episodeEnd_asserted,
    fun hsample => ⟨State.rstSample_high hsample, State.rstSample_low hsample⟩,
    fun hload => ⟨State.trimDone_loaded hload, State.trimDone_repeats hload, fun hagain u => State.trimDone_defaults hload hagain⟩,
    fun locks => State.oscDone_waits, fun fails => State.bistDone_due, fun a b idOk bad k u p v hstage hreach hk hlit hu => ?boot⟩
  case core => rw [hv, State.episodeEnd_core hreach hfree hsample hstage hu]
  case boot =>
    refine ⟨fun hpart hwarm => ?cold, fun hpart hwarm => ?warm, fun hpart => ?recovery⟩
    case cold => rw [State.keeperBoot_cold hstage hreach hk hlit hu hpart hwarm]
    case warm => rw [State.keeperBoot_warm hstage hreach hk hlit hu hpart hwarm]
    case recovery => rw [State.keeperBoot_recovery hstage hreach hk hlit hu hpart]

end Sys2Proof.Machine
end

section
/-! PROOFS. Keepers (R580, R577, R599, R615) and lost ports (R585-R589): a fail-over and a swap, a dark Keeper repaired, link synchronisation, and a
PCI Express port that is lost. -/

namespace Sys2Proof.Machine

open Sys2Proof

/-! ### Keepers (R577, R580, R599, R615) -/

section Keepers

variable {s : State} {a : Nat}

/-- What a Keeper that is not DARK shows by its heartbeat ends what its silence armed. -/
theorem State.heartbeat_lit {k : Nat} (hk : k < 2) (hlit : s.keeper k ≠ 2) :
    s.heartbeat k = { s with rst := { s.rst with armed := false, roms := clrBit s.rst.roms k } } := if_pos ⟨hk, hlit⟩

section Active

variable (ha : a = s.ov O.keeper_active % 2)
include ha

theorem State.keeperPass_eq (v : Nat) : s.keeperPass v =
    ((((s.setKeeper a v).setKeeper (1 - a) 0).setOv O.keeper_active (1 - a)).bump O.keeper_failovers).event 0x10 2 a noCtx 0 := by
  subst ha
  rfl

variable (hactive : s.keeper a = 0)
include hactive

theorem State.keeperFail_passes (hstandby : s.keeper (1 - a) = 1) : s.keeperFail = s.keeperPass 2 := by
  subst ha
  exact (if_neg (not_not_intro hactive)).trans (if_pos hstandby)

/-- With no standby to take over, both Keepers are silent. -/
theorem State.keeperFail_alone (halone : s.keeper (1 - a) ≠ 1) : s.keeperFail = s.setKeeper a 2 := by
  subst ha
  exact (if_neg (not_not_intro hactive)).trans (if_neg halone)

theorem State.keeperSwap_passes (hstandby : s.keeper (1 - a) = 1) : s.keeperSwap.2 = s.keeperPass 3 := by
  subst ha
  rw [State.keeperSwap, if_pos ⟨hactive, hstandby⟩]

theorem State.keeperSwap_refused (halone : s.keeper (1 - a) ≠ 1) : s.keeperSwap.2 = s := by
  subst ha
  rw [State.keeperSwap, if_neg (fun h => halone h.2)]

end Active

theorem State.keeperRepair_first (h : s.keeper 0 = 2) : s.keeperRepair.2 = s.setKeeper 0 3 := by
  rw [State.keeperRepair, if_pos h]

theorem State.keeperRepair_second (h0 : s.keeper 0 ≠ 2) (h1 : s.keeper 1 = 2) : s.keeperRepair.2 = s.setKeeper 1 3 := by
  rw [State.keeperRepair, if_neg h0, if_pos h1]

theorem State.keeperRepair_none (h0 : s.keeper 0 ≠ 2) (h1 : s.keeper 1 ≠ 2) : s.keeperRepair.2 = s := by
  rw [State.keeperRepair, if_neg h0, if_neg h1]

end Keepers

/-! ### Lost ports (R585-R589) -/

section LostPorts

variable {s : State} {p q expected salt : Nat}

theorem State.syncAnswer_lost {l : Lost} (h : s.lostPorts.find? (fun x => x.1 == p && x.2.via == q) = some (p, l)) :
    s.syncAnswer q p expected =
      ((({ s with lostPorts := Tab.del p s.lostPorts } : State).resendLost p q (l.msgs expected)).bump O.port_syncs 0 p).rerouteAll := by
  rw [State.syncAnswer, h]

/-- An answer for a port that waits for none is an error of its channel. -/
theorem State.syncAnswer_unasked (h : s.lostPorts.find? (fun x => x.1 == p && x.2.via == q) = none) :
    s.syncAnswer q p expected = s.bump O.chan_errors q := by
  rw [State.syncAnswer, h]

/-- A partner that asks about a link names it by the salt of its direction. -/
theorem State.syncAsk_named {n : Nat} {u : State}
    (hn : (List.range 24).find? (fun n => n != q && s.portUp q && s.partnerKey n == s.partnerKey q && (s.session n).rxSalt == salt
      && (s.session n).rxKey != 0) = some n)
    (hu : u = (s.send q { chan := 4, hdr := packSync p (s.lport n).expected 1 salt, slots := [] }).linkDown n) :
    s.syncAsk q p expected salt = ({ u with lostPorts := Tab.del n u.lostPorts } : State).resendLost n q
      (Lost.msgs ⟨q, (s.lport n).replay, (s.lport n).cur.map (·.1), (s.lport n).expected, 0, 0, []⟩ expected) := by
  subst hu
  rw [State.syncAsk, hn]

theorem State.linkSyncTimeout_lost {l : Lost} (h : s.lostPorts.find? (fun x => x.1 == p) = some (p, l)) : s.linkSyncTimeout p = s.syncFail p l := by
  rw [State.linkSyncTimeout, h]

/-- The loss of a port whose link is up silences its ring and moves its contexts to the other port. -/
theorem State.pcieLost_lit {n : Nat} {u v : State} (hn : n < 2) (hup : (s.ov O.pcie_link 0 n).testBit 15 = true) (hlit : s.ov O.pstate ≠ 3)
    (hv : v = { s with tends := { s.tends with ops := s.tends.ops.map (fun o => if o.ring = n then { o with mute := true } else o) } })
    (hu : u = ((v.pcieDown n).bump O.pcie_losses 0 n).event 0x60 3 n noCtx 0) :
    s.pcieLost n = if (u.ov O.pcie_link 0 (1 - n)).testBit 15 = true then u.moveOwners n u.liveCtxs else u := by
  have hlost : ¬(2 ≤ n ∨ (!(s.ov O.pcie_link 0 n).testBit 15) = true) := by
    rw [hup]
    exact not_or.mpr ⟨Nat.not_le.mpr hn, Bool.false_ne_true⟩
  subst hu hv
  exact (if_neg hlost).trans (if_neg hlit)

end LostPorts

/-! ### The commands -/

theorem exec_keeperHeartbeat (s : State) (k : Nat) : exec (.keeperHeartbeat k) s = .next (s.heartbeat k) := rfl

theorem exec_keeperSwap (s : State) : exec .keeperSwap s = .next s.keeperSwap.2 := rfl

theorem exec_keeperRepair (s : State) : exec .keeperRepair s = .next s.keeperRepair.2 := rfl

theorem exec_portLost (s : State) {p : Nat} (hp : p < 24) : exec (.portLost p) s = .next (s.linkDown p).leaseCheck :=
  congrArg (fun t : State => Host.Outcome.next t.leaseCheck) (if_pos hp)

/-- An answer of a LINK_SYNC exchange. -/
theorem exec_linkSync_answer (s : State) (q p expected salt : Nat) : exec (.linkSync q p expected 1 salt) s = .next (s.syncAnswer q p expected) := rfl

/-- A question of a LINK_SYNC exchange. -/
theorem exec_linkSync_ask (s : State) (q p expected salt : Nat) : exec (.linkSync q p expected 0 salt) s = .next (s.syncAsk q p expected salt) := rfl

theorem exec_linkSyncTimeout (s : State) (p : Nat) : exec (.linkSyncTimeout p) s = .next (s.linkSyncTimeout p) := rfl

theorem exec_pciePortLost (s : State) (n : Nat) : exec (.pciePortLost n) s = .next (s.pcieLost n).leaseCheck := rfl

/-- Settles O52: each clause is the equation of its operation for the Keepers or the port the clause names. -/
theorem keepersAndLostPorts : Obligations.KeepersAndLostPorts := by
  simp only [Obligations.KeepersAndLostPorts, exec_keeperHeartbeat, exec_keeperFailover, exec_keeperSwap, exec_keeperRepair, exec_linkSync_answer,
    exec_linkSync_ask, exec_linkSyncTimeout, exec_pciePortLost, Host.Outcome.next.injEq]
  refine ⟨fun s a ha => ⟨fun k => State.heartbeat_lit, fun hactive hstandby => ?fails, State.keeperFail_alone ha,
      fun hactive hstandby => ?swaps, State.keeperSwap_refused ha, State.keeperRepair_first, State.keeperRepair_second, State.keeperRepair_none⟩,
    fun s p q hp => ⟨exec_portLost s hp, fun expected salt l => State.syncAnswer_lost, fun expected salt => State.syncAnswer_unasked,
      fun expected salt n u => State.syncAsk_named, fun l => State.linkSyncTimeout_lost, fun n v u hn hup hlit hv hu => ?pcie⟩⟩
  case fails => rw [State.keeperFail_passes ha hactive hstandby, State.keeperPass_eq ha]
  case swaps => rw [State.keeperSwap_passes ha hactive hstandby, State.keeperPass_eq ha]
  case pcie => rw [State.pcieLost_lit hn hup hlit hv hu]

end Sys2Proof.Machine
end

section
/-! PROOFS. Firmware in flash and the log's acknowledgement (R590, R591, R595). -/

namespace Sys2Proof.Machine

open Sys2Proof

/-! ### Blocks of a flash part (R590) -/

section Blocks

variable {s : State}

/-- The part that holds the running image is not erased. -/
theorem State.fwErase_running (h : s.fwRunning = true) : s.fwErase = s.setOv O.fw_result 1 := if_pos h

theorem State.fwErase_other (h : s.fwRunning = false) : s.fwErase = (s.setFlash (s.ov O.fw_part) ⟨[], false, false⟩).setOv O.fw_result 0 :=
  if_neg (Bool.eq_false_iff.mp h)

variable {bs : Bytes}

theorem State.fwBlock_unaligned (h : s.ov O.fw_offset % 4096 ≠ 0) : (s.fwBlock bs).2 = s := by
  rw [State.fwBlock, if_pos h]

variable (haligned : s.ov O.fw_offset % 4096 = 0)
include haligned

theorem State.fwBlock_running (h : s.fwRunning = true) : (s.fwBlock bs).2 = s.setOv O.fw_result 1 := by
  rw [State.fwBlock, if_neg (not_not_intro haligned), if_pos h]
  rfl

/-- A block written leaves its part unverified. -/
theorem State.fwBlock_other (h : s.fwRunning = false) : (s.fwBlock bs).2 = (s.setFlash (s.ov O.fw_part) ⟨Tab.put (List.replicate 4096 0xFF)
    (s.flash (s.ov O.fw_part)).blocks (s.ov O.fw_offset / 4096) (fitTo 4096 bs), false, false⟩).setOv O.fw_result 0 := by
  rw [State.fwBlock, if_neg (not_not_intro haligned), if_neg (Bool.eq_false_iff.mp h)]
  rfl

end Blocks

/-! ### An image verified and activated (R447, R591) -/

section Image

variable {s : State} {p : Nat}

theorem State.verifyImage_badHeader {sg : Bool} (h : s.headerOk p = false) : s.verifyImage p sg = 2 := by
  rw [State.verifyImage, h, if_pos Bool.not_false]

section Header

variable (hheader : s.headerOk p = true)
include hheader

theorem State.verifyImage_rollback {sg : Bool} (hold : (s.image p).arb < s.ov O.arb_fused) : s.verifyImage p sg = 3 := by
  simp only [State.verifyImage, hheader, hold, Bool.not_true, Bool.false_eq_true, if_false, if_true]

theorem State.verifyImage_signature (sg : Bool) (hnew : s.ov O.arb_fused ≤ (s.image p).arb) : s.verifyImage p sg = if sg = true then 0 else 2 := by
  simp only [State.verifyImage, hheader, Nat.not_lt.mpr hnew, Bool.not_true, Bool.false_eq_true, if_false]

end Header

variable (hp : p = s.ov O.fw_part)
include hp

theorem State.fwVerify_good {sg : Bool} (h : s.verifyImage p sg = 0) :
    s.fwVerify sg = ((s.setFlash p { s.flash p with verified := true }).setOv O.fw_staged_version (s.image p).version).setOv O.fw_result 0 := by
  subst hp
  exact if_pos h

/-- An image that is not verified leaves the reason alone. -/
theorem State.fwVerify_bad {sg : Bool} {r : Nat} (h : s.verifyImage p sg = r) (hr : r ≠ 0) : s.fwVerify sg = s.setOv O.fw_result r := by
  subst h hp
  exact if_neg hr

theorem exec_fwActivate_unverified (h : (s.flash p).verified = false) : exec .fwActivate s = .next (s.setOv O.fw_result 4) := by
  subst hp
  have hact : s.fwActivate = (false, s.setOv O.fw_result 4) := if_neg (Bool.eq_false_iff.mp h)
  change execFwActivate s = _
  rw [execFwActivate, hact, if_neg Bool.false_ne_true]

/-- A verified image is measured and preferred, and the core is reset. -/
theorem exec_fwActivate_verified (h : (s.flash p).verified = true) : exec .fwActivate s = .next (State.softReset
    ((((s.setOct O.boot_meas (s.image p).meas).setOv O.boot_pref p).event 0x71 0 0 noCtx 0).setOv O.fw_result 0) 1) := by
  subst hp
  have hact : s.fwActivate = (true, (((s.setOct O.boot_meas (s.image (s.ov O.fw_part)).meas).setOv O.boot_pref (s.ov O.fw_part)).event
    0x71 0 0 noCtx 0).setOv O.fw_result 0) := if_pos h
  change execFwActivate s = _
  rw [execFwActivate, hact, if_pos rfl]

end Image

/-! ### The commands -/

theorem exec_fwErase (s : State) : exec .fwErase s = .next s.fwErase := rfl

theorem exec_fwBlockWrite (s : State) (bs : Bytes) : exec (.fwBlockWrite bs) s = .next (s.fwBlock bs).2 := rfl

theorem exec_fwVerify (s : State) (sg : Bool) : exec (.fwVerify sg) s = .next (s.fwVerify sg) := rfl

theorem exec_logAck (s : State) (v : Nat) : exec (.logAck v) s = .next (s.logAck v) := rfl

/-- Settles O53: each clause is the equation of its operation, a VERIFY that of what the verification finds. -/
theorem firmwareIsStaged : Obligations.FirmwareIsStaged := by
  intro s p hp
  simp only [exec_fwErase, exec_fwBlockWrite, exec_fwVerify, exec_logAck, Host.Outcome.next.injEq]
  refine ⟨State.fwErase_running, fun hother => ?erase, fun bs => State.fwBlock_unaligned, fun bs => State.fwBlock_running,
    fun bs haligned hother => ?block, fun sg hheader => State.fwVerify_bad hp (State.verifyImage_badHeader hheader) (by decide),
    fun sg hheader hold => State.fwVerify_bad hp (State.verifyImage_rollback hheader hold) (by decide),
    fun hheader hnew => State.fwVerify_bad hp (State.verifyImage_signature hheader false hnew) (by decide),
    fun hheader hnew => State.fwVerify_good hp (State.verifyImage_signature hheader true hnew),
    exec_fwActivate_unverified hp, exec_fwActivate_verified hp, fun v => rfl⟩
  case erase => rw [hp, State.fwErase_other hother]
  case block => rw [hp, State.fwBlock_other haligned hother]

end Sys2Proof.Machine
end

section
/-! PROOFS. Fault records (R528-R535) and the steps of a revocation (R540-R545, R71, R82). -/

namespace Sys2Proof.Machine

open Sys2Proof

/-! ### Fault records (R528-R535) -/

section Records

variable {s : State} {c g : Nat} {r : FRec} (hr : s.postable c = some r) (hring : s.ringOf c = some g)
include hr hring

theorem State.postWaiting_alone (hnone : r.req = none) : s.postWaiting c = ({ s with frecs := s.frecs.erase r } : State).postRec r g := by
  simp only [State.postWaiting, hr, hring, hnone]

/-- The request that waits with its record completes, and those that wait behind its page are translated again. -/
theorem State.postWaiting_request {i : Nat} {q : Req} {u v : State} {ids : List Nat} (hreq : r.req = some i)
    (hu : u = ({ s with frecs := s.frecs.erase r } : State).postRec r g) (hq : u.req? i = some q) (hv : v = u.finish q .fault)
    (hids : ids = (v.reqs.filter (fun z => z.phase == .slotted && !z.slot && z.port == q.port && z.h.ctx == c
      && z.h.cva / 2 ^ 26 == q.h.cva / 2 ^ 26)).map (·.id)) :
    s.postWaiting c = ({ v with reqs := v.reqs.map (fun z =>
      if ids.contains z.id then { z with phase := .fetching } else z) } : State).retranslate ids := by
  simp only [State.postWaiting, hr, hring, hreq, ← hu, hq, ← hv, ← hids]

end Records

/-- A vector that `fr_coal` held back is raised when it has passed. -/
theorem State.frCoal_waiting {s : State} {r t : Nat} (h : Tab.get (0, false) s.frMsi r = (t, true)) :
    s.frCoal r = { s.emit (.msix (s.ov O.fr_port r) 0 r) with frMsi := Tab.put (0, false) s.frMsi r (s.ltc, false) } := by
  rw [State.frCoal, h]
  exact if_pos rfl

theorem State.frRepost_live {s : State} {c : Nat} (h : (s.ctx c).st ≠ .free) :
    (s.frRepost c).2 = s.repostAll c ((s.chart.ents.filter (fun p =>
      decide (s.ov O.win_base c ≤ p.1 ∧ p.1 < s.ov O.win_base c + s.ov O.win_count c) && p.2.faultPend)).map
        (fun p => (p.1 - s.ov O.win_base c, p.2))) := by
  rw [State.frRepost, if_neg h]

/-! ### The steps of a revocation (R540-R545) -/

section Revocation

variable {s : State} {slot : Nat} {x : Ext} (hx : x = s.ext slot)
include hx

/-- The close of an extent for all its contexts makes it DRAINING. -/
theorem State.closeDone_drains (hphase : x.phase = 1) (hended : s.closeEnded slot = true) (hall : x.closingFor = none) :
    s.closeDone slot = s.setExt slot { x with phase := 2, st := .draining } := by
  subst hx
  refine (if_pos ⟨hphase, hended⟩).trans ?_
  rw [hall, if_pos Option.isNone_none]

theorem State.counterFree_starts (hroom : s.countersUsed < 64) (hwaits : s.closeWaiter = some slot) :
    s.counterFree = (s.setExt slot { x with waitSince := 0 }).startClose slot := by
  subst hx
  rw [State.counterFree, if_pos hroom, hwaits]

theorem State.revokeDrained_empty (hphase : x.phase = 2) (hempty : s.counted slot = false) : s.revokeDrained slot = s.startRecallPhase slot := by
  subst hx
  rw [State.revokeDrained, hempty]
  exact if_pos ⟨hphase, rfl⟩

theorem State.drainTimeout_closes {t : State} (hphase : x.phase = 2) (ht : t = s.closeFrames x.closingFor (x.frames ++ x.mirrors)) :
    s.drainTimeout slot = (t.failClosed t.heldClosed).startRecallPhase slot := by
  subst ht hx
  exact if_pos hphase

/-- Every slice has walked, nothing is counted or mirrored any more, and the records find room: the extent is freed. -/
theorem State.recallDone_frees (hphase : x.phase = 3) (hwalk : x.walk = 2 ^ 32 - 1) (hempty : s.counted slot = false)
    (hmirror : s.mwrs.any (fun m => m.slot == slot) = false) (hroom : s.islandQueue + x.names.length ≤ 8192)
    (hall : x.closingFor = none) (hends : x.remoor = false) :
    s.recallDone slot = (((s.freeFrames (x.frames ++ x.mirrors)).setExt slot { Ext.dflt with tag := (x.tag + 1) % 16, epoch := x.epoch }).postRevokes
      (x.handle slot) x.stragglers (if x.freed then 3 else 0) x.names).endExtCmd x.cmd 0 := by
  have hdue : ¬(x.phase ≠ 3 ∨ x.walk ≠ 2 ^ 32 - 1 ∨ s.counted slot = true ∨ s.mwrs.any (fun m => m.slot == slot) = true ∨
      8192 < s.islandQueue + x.names.length) := by
    rw [hempty, hmirror]
    simp only [hphase, hwalk, ne_eq, not_true_eq_false, Bool.false_eq_true, false_or]
    omega
  subst hx
  refine (if_neg hdue).trans ?_
  simp only [hall, hends, Bool.false_eq_true, false_and, if_false]

end Revocation

/-! ### The commands -/

theorem exec_faultRecordPost (s : State) (c : Nat) : exec (.faultRecordPost c) s = .next (s.postWaiting c) := rfl

theorem exec_faultBudgetRefill (s : State) (c : Nat) : exec (.faultBudgetRefill c) s = .next (s.faultRefill c) := rfl

theorem exec_frCoalExpiry (s : State) (r : Nat) : exec (.frCoalExpiry r) s = .next (s.frCoal r) := rfl

theorem exec_frRepost (s : State) (c : Nat) : exec (.frRepost c) s = .next (s.frRepost c).2 := rfl

theorem exec_closeDone (s : State) (slot : Nat) : exec (.closeDone slot) s = .next (s.closeDone slot) := rfl

theorem exec_drainCounterFree (s : State) : exec .drainCounterFree s = .next s.counterFree := rfl

theorem exec_revokeDrainDone (s : State) (slot : Nat) : exec (.revokeDrainDone slot) s = .next (s.revokeDrained slot) := rfl

theorem exec_drainTimeout (s : State) (slot : Nat) : exec (.drainTimeout slot) s = .next (s.drainTimeout slot) := rfl

theorem exec_recallDone (s : State) (slot : Nat) : exec (.recallDone slot) s = .next (s.recallDone slot).rekeyChecks.dropShares := rfl

/-- Settles O23: each clause is the equation of its operation for the record or the stage of the revocation the clause names. -/
theorem revocationAndFaultRecords : Obligations.RevocationAndFaultRecords := by
  simp only [Obligations.RevocationAndFaultRecords, exec_faultRecordPost, exec_faultBudgetRefill, exec_frCoalExpiry, exec_frRepost, exec_closeDone,
    exec_drainCounterFree, exec_revokeDrainDone, exec_drainTimeout, exec_recallDone, Host.Outcome.next.injEq]
  refine ⟨fun s => ⟨fun c r g => State.postWaiting_alone, fun c r g i q u v ids hr hring => State.postWaiting_request hr hring, fun c b hb => ?refill,
      fun r t => State.frCoal_waiting, fun c => State.frRepost_live⟩,
    fun s slot x hx => ⟨State.closeDone_drains hx, State.counterFree_starts hx, State.revokeDrained_empty hx,
      fun t => State.drainTimeout_closes hx, fun hphase hwalk hempty hmirror hroom hall hends => ?freed⟩⟩
  case refill => rw [State.faultRefill, hb]
  case freed => rw [State.recallDone_frees hx hphase hwalk hempty hmirror hroom hall hends]

end Sys2Proof.Machine
end

section
/-! PROOFS. Power states (R636-R642): what `pstate_target` seeks, idle units gated, P2 and P3 entered and left. -/

namespace Sys2Proof.Machine

open Sys2Proof

/-! ### What `pstate_target` seeks (R637, R640) -/

section Target

variable {s : State} {v : Nat} {llp : Bool}

theorem State.setTarget3_range (h : 4 ≤ v) : (s.setTarget3 v llp).2 = s := by
  rw [State.setTarget3, if_pos h]

section Dark

variable (hv : v < 3) (hdark : s.ov O.pstate = 3)
include hv hdark

/-- In P3 a write over LLP of another state starts the exit. -/
theorem State.setTarget3_exits : (s.setTarget3 v true).2 = { s.setOv O.pstate_target v with rst := { s.rst with coreEn := true } } := by
  rw [State.setTarget3, if_neg (by omega), if_pos hdark, if_pos ⟨rfl, hv⟩]

theorem State.setTarget3_ignored : (s.setTarget3 v false).2 = s := by
  rw [State.setTarget3, if_neg (by omega), if_pos hdark, if_neg (fun h => Bool.false_ne_true h.1)]

end Dark

variable {u : State} (hlit : s.ov O.pstate ≠ 3)
include hlit

section Island

variable (hu : u = s.wake)
include hu

/-- P3 needs an engine of the island. -/
theorem State.setTarget3_noEngine (h : u.islandEngine = false) : (s.setTarget3 3 llp).2 = u.pstateResult 3 := by
  subst hu
  simp only [State.setTarget3, hlit, h, Nat.reduceLeDiff, Bool.false_eq_true, if_false, if_true]

theorem State.setTarget3_seeks (h : u.islandEngine = true) : (s.setTarget3 3 llp).2 =
    { u.setOv O.pstate_target 3 with pwr := { u.pwr with seek3 := some (u.pwr.seek3.getD (u.ov O.pstate_target)) } } := by
  subst hu
  simp only [State.setTarget3, hlit, h, Nat.reduceLeDiff, if_false, if_true]

end Island

theorem State.setTarget3_sets (hv : v < 3) (hu : u = s.wake.setOv O.pstate (min v 1)) : (s.setTarget3 v llp).2 =
    { (u.setOv O.pstate_target v).pstateResult 0 with pwr := { u.pwr with seek3 := none, gated := if v = 0 then [] else u.pwr.gated } } := by
  have hrange : ¬4 ≤ v := by omega
  have hother : ¬v = 3 := by omega
  subst hu
  simp only [State.setTarget3, hlit, hrange, hother, if_false]

end Target

/-! ### P1 and P2 (R636, R638, R639) -/

section Idle

variable {s : State}

theorem State.gateIdle_gates {kind p n : Nat} (hrole : s.roleOf kind p = some n) (hkind : kind = 1 ∨ kind = 2) (hlit : s.lit kind n = true)
    (hidle : s.unitIdle kind n = true) (hstate : s.ov O.pstate = 1) (hpowered : s.pwr.gated.contains (kind, p) = false) :
    s.gateIdle kind p = { s with pwr := { s.pwr with gated := s.pwr.gated ++ [(kind, p)] } } := by
  simp only [State.gateIdle, hrole]
  refine if_pos ⟨hkind, hlit, hidle, hstate, ?_⟩
  rw [hpowered]
  rfl

theorem State.enterP2_idle (hstate : s.ov O.pstate = 1) (htarget : s.ov O.pstate_target = 2) (hidle : s.idle = true) :
    s.enterP2 = { (s.flushMerges.setOv O.arith_div 0).setOv O.pstate 2 with pwr := { s.flushMerges.pwr with selfRef := true } } :=
  if_pos ⟨hstate, htarget, hidle⟩

theorem State.wake_fromP2 (hentering : s.pwr.entering = false) (hstate : s.ov O.pstate = 2) :
    s.wake = { (s.setOv O.pstate 1).setOv O.arith_div 16 with pwr := { s.pwr with selfRef := false } } :=
  (if_neg (Bool.eq_false_iff.mp hentering)).trans (if_pos hstate)

end Idle

/-! ### P3 (R640-R642) -/

section Entry

variable {s : State} {old : Nat} (hseek : s.pwr.seek3 = some old)
include hseek

section Begun

variable (hlit : s.ov O.pstate ≠ 3) (hengine : s.islandEngine = true) {m : Met}
include hlit hengine

/-- An idle node that seeks P3 flushes its caches and recalls every line. -/
theorem State.enterP3_begins {u w : State} (hentering : s.pwr.entering = false) (hidle : s.idle = true) (hu : u = (s.meet m.errs).flushAll)
    (hw : w = ((u.coh.dir.filter (fun d => d.2.way)).map (·.1)).foldl State.recallLine { u with pwr := { u.pwr with entering := true } }) :
    s.enterP3 m = if w.noCopies = true then w.finishP3 else w := by
  subst hw hu
  simp only [State.enterP3, hseek, hlit, hengine, hentering, hidle, Option.isNone_some, Bool.not_true, Bool.or_true, Bool.false_eq_true, or_self,
    if_false]

/-- An entry that has begun ends when the last copy has come home. -/
theorem State.enterP3_entering (hentering : s.pwr.entering = true) : s.enterP3 m = if s.noCopies = true then s.finishP3 else s := by
  simp only [State.enterP3, hseek, hlit, hengine, hentering, Option.isNone_some, Bool.not_true, Bool.true_or, Bool.false_eq_true, or_self,
    if_false, if_true]

end Begun

theorem State.stopP3_seeking :
    s.stopP3 = { (s.setOv O.pstate_target old).pstateResult 2 with pwr := { s.pwr with seek3 := none, entering := false } } := by
  rw [State.stopP3, hseek]

theorem State.p3Timeout_waiting (hentering : s.pwr.entering = false) :
    s.p3Timeout = { (s.setOv O.pstate_target old).pstateResult 2 with pwr := { s.pwr with seek3 := none, entering := false } } :=
  (if_neg (Bool.eq_false_iff.mp hentering)).trans (State.stopP3_seeking hseek)

theorem State.wake_entering (hentering : s.pwr.entering = true) :
    s.wake = { (s.setOv O.pstate_target old).pstateResult 2 with pwr := { s.pwr with seek3 := none, entering := false } } :=
  (if_pos hentering).trans (State.stopP3_seeking hseek)

end Entry

/-- What P3 entry does once no copy is left: links down, the checkpoint written, and the core rail off. -/
theorem State.finishP3_eq {s u v : State} {b : Nat × State}
    (hu : u = ((((List.range 24).foldl State.linkSleep s.flushAll).pcieDown 0).pcieDown 1).saveWear) (hb : b = u.freeBelow (2 ^ 22 + 1))
    (hv : v = ((((b.2.setOv O.ckpt_bytes b.1).bump O.p3_entries).setOv O.pstate 3).pstateResult 0).setOv O.hbch_confirm 0) :
    s.finishP3 = { v with
      nextKey := v.nextKey + 1, rst := { v.rst with coreEn := false },
      pwr := { v.pwr with seek3 := none, entering := false, ckpt := true, wrapKey := v.nextKey, selfRef := true, grace := true, gated := [] } } := by
  subst hv hb hu
  rfl

section Exit

variable {s : State} {fails : List (Nat × Nat)} (hdark : s.ov O.pstate = 3) (hgood : s.rst.coreGood = true) (hen : s.rst.coreEn = true)
include hdark hgood hen

/-- Without a checkpoint the core rail's return is a start-up. -/
theorem State.exitP3_restarts (hckpt : s.pwr.ckpt = false) : s.exitP3 fails = s.assertSrc 3 false := by
  simp only [State.exitP3, hdark, hgood, hen, hckpt, ne_eq, not_true_eq_false, Bool.not_true, Bool.not_false, Bool.false_eq_true, or_self, if_false,
    if_true]

theorem State.exitP3_restores {u v : State} (hckpt : s.pwr.ckpt = true)
    (hu : u = ((s.bistFail (fails.filter (fun f => f.1 != 3))).applySparing.resetFunctions 0).resetFunctions 1)
    (hv : v = (u.setOv O.pstate (min (u.ov O.pstate_target) 1)).setOv O.arith_div u.govDiv) :
    s.exitP3 fails = { v with pwr := { v.pwr with ckpt := false, wrapKey := 0, selfRef := false } } := by
  subst hv hu
  simp only [State.exitP3, hdark, hgood, hen, hckpt, ne_eq, not_true_eq_false, Bool.not_true, Bool.false_eq_true, or_self, if_false]

end Exit

theorem State.graceEnd_lit {s : State} (hlit : s.ov O.pstate ≠ 3) : s.graceEnd = { s with pwr := { s.pwr with grace := false } } := if_neg hlit

/-! ### The commands of power states -/

theorem exec_pstateTargetWrite (s : State) (v : Nat) (llp : Bool) : exec (.pstateTargetWrite v llp) s = .next (s.setTarget3 v llp).2 := rfl

theorem exec_p1GateIdle (s : State) (kind p : Nat) : exec (.p1GateIdle kind p) s = .next (s.gateIdle kind p) := rfl

theorem exec_p2Idle (s : State) : exec .p2Idle s = .next s.enterP2 := rfl

theorem exec_wakeEvent (s : State) : exec .wakeEvent s = .next s.wake := rfl

theorem exec_p3Entry (s : State) (m : Met) : exec (.p3Entry m) s = .next (s.enterP3 m) := rfl

theorem exec_p3IdleTimeout (s : State) : exec .p3IdleTimeout s = .next s.p3Timeout := rfl

theorem exec_p3Exit (s : State) (fails : List (Nat × Nat)) : exec (.p3Exit fails) s = .next (s.exitP3 fails) := rfl

theorem exec_p3LinkGraceEnd (s : State) : exec .p3LinkGraceEnd s = .next s.graceEnd := rfl

end Sys2Proof.Machine
end

section
/-! PROOFS. Temperatures, energy, the governor and the wear ledger (R644-R649), the root clock, references and the frequency counter (R625-R635), and
the commands of power, clocks and heat. -/

namespace Sys2Proof.Machine

open Sys2Proof

/-! ### Temperatures, energy and the governor (R644-R649) -/

section Heat

variable {s : State}

/-- The hottest sensor is found from the first on, and its reading is the peak when it is above it. -/
theorem State.thermal_eq {ts : List Nat} {u v : State} {h : Nat × Nat}
    (hu : u = (List.range (ts.take 72).length).foldl (fun t i => t.setOv O.temp ((ts.take 72).getD i 0) 0 i) s)
    (hh : h = hotSpot ((List.range 71).map (fun i => u.ov O.temp 0 (i + 1))) 1 (0, u.ov O.temp 0 0))
    (hv : v = (u.setOv O.temp_max h.2).setOv O.temp_max_sensor h.1) :
    s.thermal ts = if f32Lt (v.ov O.temp_peak) h.2 = true then v.setOv O.temp_peak h.2 else v := by
  have hsensors : (List.range 72).map (fun i => u.ov O.temp 0 i) = u.ov O.temp 0 0 :: (List.range 71).map (fun i => u.ov O.temp 0 (i + 1)) := by
    rw [List.range_succ_eq_map, List.map_cons, List.map_map]
    rfl
  simp only [State.thermal, ← hu, hsensors, ← hh, ← hv]

theorem State.energy_eq {rails : List (Bool × Nat)} {p : Nat} {b : Int} {u : State} (hp : p = (rails.map (·.2)).foldl (· + ·) 0)
    (hb : b = min 12000000000 (s.pwr.bucket + (780000 - (p : Int))))
    (hu : u = s.bump O.pmbus_fallbacks 0 0 (rails.filter (fun r => !r.1)).length) :
    s.energy rails =
      { (u.setOv O.power_w (f32Of p 1000)).setOv O.bucket_j (f32Of b 1000000) with pwr := { u.pwr with bucket := b, mw := p } } := by
  subst hu hb hp
  rfl

section Governor

variable {hot limit : Val} {l : Nat} {up down : Bool} (hl : l = s.ov O.gov_level) (hhot : hot = f32 (s.ov O.temp_max))
  (hlimit : limit = f32 (s.ov O.hot_limit))
  (hup : up = (decide (s.pwr.bucket ≤ 0) || !(hot.lt? limit).getD false || decide (1050000 < s.pwr.mw)))
  (hdown : down = (decide ((s.ov O.gov_release : Int) * 1000000 ≤ s.pwr.bucket) &&
    !((limit.lt? (Val.add hot (.fin false 5 0))).getD true) && decide (s.pwr.mw ≤ 1050000)))
include hl hhot hlimit hup hdown

/-- The governor's next level is one up, one down or the same, and only a change is counted and logged. -/
theorem State.governor_level {l' : Nat} (hl' : l' = if up = true then min 10 (l + 1) else if down = true then l - 1 else l) :
    s.governor = if l' = l then s else ((s.setOv O.gov_level l').bump O.gov_actions).event 0x70 0 0 noCtx 0 := by
  subst hl' hdown hup hlimit hhot hl
  rfl

theorem State.governor_up (h : up = true) (hlow : l < 10) :
    s.governor = ((s.setOv O.gov_level (l + 1)).bump O.gov_actions).event 0x70 0 0 noCtx 0 := by
  rw [State.governor_level hl hhot hlimit hup hdown (l' := l + 1) (by rw [if_pos h]; omega), if_neg (by omega)]

theorem State.governor_down (hnot : up = false) (h : down = true) (hpos : 0 < l) :
    s.governor = ((s.setOv O.gov_level (l - 1)).bump O.gov_actions).event 0x70 0 0 noCtx 0 := by
  rw [State.governor_level hl hhot hlimit hup hdown (l' := l - 1) (by rw [if_neg (Bool.eq_false_iff.mp hnot), if_pos h]), if_neg (by omega)]

theorem State.governor_holds (h : up = true ∧ l = 10 ∨ up = false ∧ (down = false ∨ l = 0)) : s.governor = s := by
  rw [State.governor_level hl hhot hlimit hup hdown rfl, if_pos]
  obtain ⟨hraise, hmax⟩ | ⟨hnot, hkeep⟩ := h
  · rw [if_pos hraise]
    omega
  · rw [if_neg (Bool.eq_false_iff.mp hnot)]
    obtain hsame | hmin := hkeep
    · exact if_neg (Bool.eq_false_iff.mp hsame)
    · split <;> omega

end Governor

theorem State.wearTick_eq {v : Nat} {u x y : State} (hu : u = s.bump O.wear_bins 0 (8 * (v % 4) + tempBin (s.ov O.temp_max)))
    (hx : x = u.setOv O.wear_used (u.wearUsed % 2 ^ 32)) (hy : y = { x with pwr := { x.pwr with wearSecs := x.pwr.wearSecs + 1 } }) :
    s.wearTick v = if x.pwr.wearSecs + 1 = 3600 then y.saveWear else y := by
  subst hy hx hu
  rfl

end Heat

/-! ### The root, references and the frequency counter (R625-R635) -/

section Clocks

variable {s : State} {n : Nat}

theorem State.pllLockLoss_pll (hn : n < 2) :
    s.pllLockLoss n = if s.ov O.root_sel = n then (s.pllUnlock n).switchRoot false else s.pllUnlock n := if_neg (Nat.not_le.mpr hn)

theorem State.pllEdgeLoss_pll (hn : n < 2) :
    s.pllEdgeLoss n = if s.ov O.root_sel = n then (s.pllUnlock n).switchRoot true else s.pllUnlock n := if_neg (Nat.not_le.mpr hn)

theorem State.rootCmd_locked (h : (s.ov O.pll_lock).testBit (1 - s.ov O.root_sel % 2) = true) : s.rootCmd.2 = s.switchRoot false := by
  rw [State.rootCmd, if_pos h]

/-- A reference of the Boroc ports that stops moves the ports that run on it. -/
theorem State.srefLoss_ports (hn : n < 4) :
    s.srefLoss n = ((List.range 24).filter (fun p => s.srefOf p == n)).foldl State.moveSref (s.setOv O.sref_state 1 0 n) := by
  have hexists : ¬6 ≤ n := by omega
  simp only [State.srefLoss, hexists, hn, decide_true, Bool.true_and, if_false]

theorem State.srefLoss_noPort (hlo : 4 ≤ n) (hhi : n < 6) : s.srefLoss n = s.setOv O.sref_state 1 0 n := by
  simp only [State.srefLoss, Nat.not_le.mpr hhi, Nat.not_lt.mpr hlo, decide_false, Bool.false_and, List.filter_false, List.foldl_nil, if_false]

theorem State.divStep_up (hrun : s.ov O.arith_div ≠ 0) (hbelow : s.ov O.arith_div < s.govDiv) :
    s.divStep = s.setOv O.arith_div (s.ov O.arith_div + 1) := (if_neg hrun).trans (if_pos hbelow)

theorem State.divStep_down (habove : s.govDiv < s.ov O.arith_div) : s.divStep = s.setOv O.arith_div (s.ov O.arith_div - 1) :=
  (if_neg (Nat.ne_zero_of_lt habove)).trans ((if_neg habove.asymm).trans (if_pos habove))

theorem State.fcStart_counts (hstill : s.ov O.fc_state ≠ 1) (hcount : s.ov O.fc_count ≠ 0) : s.fcStart.2 = s.setOv O.fc_state 1 := by
  rw [State.fcStart, if_neg hstill, if_neg hcount]

theorem State.fcStart_empty (hstill : s.ov O.fc_state ≠ 1) (hcount : s.ov O.fc_count = 0) : s.fcStart.2 = s.setOv O.fc_result (2 ^ 63) := by
  rw [State.fcStart, if_neg hstill, if_pos hcount]

theorem State.fcDone_running {noEdge : Bool} (hrun : s.ov O.fc_state = 1) :
    s.fcDone n noEdge = (s.setOv O.fc_result (if noEdge = true then 2 ^ 62 else n % 2 ^ 48)).setOv O.fc_state 0 := if_pos hrun

end Clocks

/-! ### The commands of heat and clocks -/

theorem exec_thermalSample (s : State) (ts : List Nat) : exec (.thermalSample ts) s = .next (s.thermal ts) := rfl

theorem exec_thermtrip (s : State) : exec .thermtrip s = .next { s with rst := { s.rst with thermtrip := true } } := rfl

theorem exec_energyBucketUpdate (s : State) (rails : List (Bool × Nat)) : exec (.energyBucketUpdate rails) s = .next (s.energy rails) := rfl

theorem exec_governorTick (s : State) : exec .governorTick s = .next s.governor := rfl

theorem exec_wearLedgerTick (s : State) (v : Nat) : exec (.wearLedgerTick v) s = .next (s.wearTick v) := rfl

theorem exec_pllLockLoss (s : State) (n : Nat) : exec (.pllLockLoss n) s = .next (s.pllLockLoss n) := rfl

theorem exec_pllEdgeLoss (s : State) (n : Nat) : exec (.pllEdgeLoss n) s = .next (s.pllEdgeLoss n) := rfl

theorem exec_rootCmd (s : State) : exec .rootCmd s = .next s.rootCmd.2 := rfl

theorem exec_srefLoss (s : State) (n : Nat) : exec (.srefLoss n) s = .next (s.srefLoss n) := rfl

theorem exec_pcieRefclkLoss (s : State) (n : Nat) : exec (.pcieRefclkLoss n) s = .next (s.pcieLost n).leaseCheck := rfl

theorem exec_arithDivStep (s : State) : exec .arithDivStep s = .next s.divStep := rfl

theorem exec_fcStart (s : State) : exec .fcStart s = .next s.fcStart.2 := rfl

theorem exec_fcDone (s : State) (n : Nat) (noEdge : Bool) : exec (.fcDone n noEdge) s = .next (s.fcDone n noEdge) := rfl

/-- Settles O57: each clause is the equation of its operation for the power state, the reading or the clock the clause names. -/
theorem powerClocksAndHeat : Obligations.PowerClocksAndHeat := by
  simp only [Obligations.PowerClocksAndHeat, exec_pstateTargetWrite, exec_p1GateIdle, exec_p2Idle, exec_wakeEvent, exec_p3Entry, exec_p3IdleTimeout,
    exec_p3Exit, exec_p3LinkGraceEnd, exec_thermalSample, exec_thermtrip, exec_energyBucketUpdate, exec_governorTick, exec_wearLedgerTick,
    exec_pllLockLoss, exec_pllEdgeLoss, exec_rootCmd, exec_srefLoss, exec_pcieRefclkLoss, exec_arithDivStep, exec_fcStart, exec_fcDone,
    Host.Outcome.next.injEq]
  refine ⟨fun s => ?states, fun s => ?heat, fun s => ?clocks⟩
  case states =>
    refine ⟨fun v llp => State.setTarget3_range, fun v hv hdark => ⟨State.setTarget3_exits hv hdark, State.setTarget3_ignored hv hdark⟩,
      fun llp u hlit hu => ⟨State.setTarget3_noEngine hlit hu, State.setTarget3_seeks hlit hu⟩, fun v llp u hv hlit => State.setTarget3_sets hlit hv,
      fun kind p n => State.gateIdle_gates, State.enterP2_idle, State.wake_fromP2, fun old hseek hlit hengine m => ?entry,
      fun u b v => State.finishP3_eq, fun old u hseek hu => ?stopped,
      fun fails u v hdark hgood hen => ⟨State.exitP3_restarts hdark hgood hen, State.exitP3_restores hdark hgood hen⟩, State.graceEnd_lit⟩
    case entry =>
      refine ⟨fun hentering hidle u w => State.enterP3_begins hseek hlit hengine hentering hidle,
        fun hentering => ⟨fun hnone => ?home, fun hcopies => ?waits⟩⟩
      case home => rw [State.enterP3_entering hseek hlit hengine hentering, if_pos hnone]
      case waits => rw [State.enterP3_entering hseek hlit hengine hentering, if_neg (Bool.eq_false_iff.mp hcopies)]
    case stopped =>
      subst hu
      exact ⟨State.p3Timeout_waiting hseek, State.wake_entering hseek⟩
  case heat =>
    exact ⟨fun ts u h hu hh v => State.thermal_eq hu hh, trivial, fun rails p b u => State.energy_eq,
      fun l hot limit up down hl hhot hlimit hup hdown => ⟨State.governor_up hl hhot hlimit hup hdown,
        State.governor_down hl hhot hlimit hup hdown, State.governor_holds hl hhot hlimit hup hdown⟩,
      fun v u x hu hx y => State.wearTick_eq hu hx⟩
  case clocks =>
    exact ⟨fun n => State.pllLockLoss_pll, fun n => State.pllEdgeLoss_pll, State.rootCmd_locked, fun n => State.srefLoss_ports,
      fun n => State.srefLoss_noPort, fun n => trivial, State.divStep_up, State.divStep_down, State.fcStart_counts, State.fcStart_empty,
      fun n hrun => ⟨State.fcDone_running hrun, State.fcDone_running hrun⟩⟩

end Sys2Proof.Machine
end

section
/-! PROOFS. Messages of the Light List (R656, R663-R667, R673, R674): a session's message served, kept or turned away, and its items carried out. -/

namespace Sys2Proof.Machine

open Sys2Proof

/-! ### A message of a session (R656, R663, R665, R673) -/

section Serve

variable {s : State} {n msg port op : Nat} {l : List LlItem} {k : Vouch}

/-- A session that acts for a principal is served while a Keeper serves; while none does its message waits, once, and behind seven others at most. -/
theorem State.serveMsg_acting (hacts : s.principal n ≠ 0) (hrom : 32 ≤ n ∨ s.rst.recovery = false) {mine : List LlWait}
    (hmine : mine = s.ll.waits.filter (fun w => w.sess == n)) :
    s.serveMsg n msg port op l k =
      if s.llReady = true then (s.carry n port op l k).2.answerTo n msg port (s.carry n port op l k).1
      else if n < 32 ∧ mine.any (fun w => w.msg == msg) = true then s
      else if 8 ≤ mine.length then s.answerTo n msg port (msgHead op 8 0)
      else { s with ll := { s.ll with waits := s.ll.waits ++ [⟨n, msg, port, op, l, k, false⟩] } } := by
  have hserved : ¬(s.principal n = 0 ∨ (n < 32 ∧ s.rst.recovery = true)) := by
    rintro (hnone | ⟨hllp, hrecovery⟩)
    · exact hacts hnone
    · exact hrom.elim (Nat.not_le.mpr hllp) (Bool.eq_false_iff.mp · hrecovery)
  subst hmine
  refine (if_neg hserved).trans ?_
  cases hready : s.llReady with
  | true => rw [if_neg (by decide), if_pos rfl]
  | false => rw [if_pos (by decide), if_neg Bool.false_ne_true]

/-- The lease is renewed by its holder's write of a device-scope object, and an answer past the route's limit is BAD_MSG. -/
theorem State.carry_eq {u : State} {c : MsgCtx} {q : Bytes × State}
    (hu : u = if s.holds (s.principal n) = true ∧ writesDevice op l = true then s.renewLease else s)
    (hc : c = ⟨n, s.holds (s.principal n), decide (64 ≤ n) && (s.agent (n - 64)).frozen, decide (64 ≤ n) && s.nodeAt port, k⟩)
    (hq : q = u.items c op l) :
    s.carry n port op l k = (if routeLimit n < 8 + q.1.length then msgHead op 0xA 0 else msgHead op 0 l.length ++ q.1, q.2) := by
  subst hq hc hu
  exact (apply_ite (fun b : Bytes => (b, _)) _ _ _).symm

end Serve

/-! ### Items (R664-R667, R674) -/

/-- What the operation of a message does with an item that no check stops: its status, its answer's value, and the state after. -/
def State.carryOut (s : State) (c : MsgCtx) (op : Nat) (r : Ref) (x : LlItem) : Nat × Bytes × State :=
  match op with
  | 1 => (0, (s.readObj c.sess r).1, (s.readObj c.sess r).2)
  | 2 => ((s.writeObj c.sess r x.val c.vouch).1, [], (s.writeObj c.sess r x.val c.vouch).2)
  | 3 => s.readBlock c.sess r x
  | 4 => ((s.writeBlock c r x).1, [], (s.writeBlock c r x).2)
  | 5 => ((s.subscribe c.sess r x).1, [], (s.subscribe c.sess r x).2)
  | _ => (0, [], s.unsubscribe c.sess x)

section Items

variable {s : State} {c : MsgCtx} {op : Nat} {x : LlItem}

theorem State.items_cons {t : List LlItem} {q : Nat × Bytes × State} (hq : q = s.item c op x) :
    s.items c op (x :: t) = (itemBytes op x q.1 q.2.1 ++ (q.2.2.items c op t).1, (q.2.2.items c op t).2) := by
  subst hq
  rfl

/-- An item that names no object changes nothing. -/
theorem State.item_unresolved {e : Nat} (h : resolve x.scope x.index x.sub = .error e) : s.item c op x = (e, [], s) := by
  rw [State.item, h]

variable {r : Ref} (hr : resolve x.scope x.index x.sub = .ok r)
include hr

/-- An item that a check stops changes nothing. -/
theorem State.item_stopped (h : s.stops c op r x ≠ 0) : s.item c op x = (s.stops c op r x, [], s) := by
  simp only [State.item, hr]
  exact if_pos h

/-- An item that no check stops is carried out. -/
theorem State.item_unstopped (h : s.stops c op r x = 0) : s.item c op x = s.carryOut c op r x := by
  simp only [State.item, hr]
  exact if_neg (not_not_intro h)

end Items

end Sys2Proof.Machine
end

section
/-! PROOFS. The lease (R661, R662), the other routes of the Light List (R654, R677-R681), and the commands of both and of its messages. -/

namespace Sys2Proof.Machine

open Sys2Proof

/-! ### The lease (R661, R662) -/

section Lease

variable {s : State} {n who : Nat}

theorem State.holds_iff : s.holds who = true ↔ who ≠ 0 ∧ s.ov O.lease_holder = who ∧ s.ltc < s.ll.leaseAt + s.leaseTicks := by
  simp only [State.holds, Bool.and_eq_true, bne_iff_ne, ne_eq, beq_iff_eq, decide_eq_true_eq, and_assoc]

/-- A principal that may hold the lease does, from its last renewal until the lease lapses. -/
theorem State.holds_of_holder (hlo : 3 ≤ who) (hholder : s.ov O.lease_holder = who) (hlive : s.ltc < s.ll.leaseAt + s.leaseTicks) :
    s.holds who = true := State.holds_iff.mpr ⟨by omega, hholder, hlive⟩

theorem State.not_holds_of_other (hother : s.ov O.lease_holder ≠ who) : ¬s.holds who = true := fun hheld =>
  hother (State.holds_iff.mp hheld).2.1

variable (hwho : who = s.principal n)
include hwho

/-- Every other session is refused by role. -/
theorem State.lease_role (hrole : who < 3 ∨ 5 < who) : s.leaseAcquire n = s.setOv O.lease_result 3 n ∧
    s.leaseRenew n = s.setOv O.lease_result 3 n ∧ s.leaseRelease n = s.setOv O.lease_result 3 n := by
  subst hwho
  exact ⟨if_pos hrole, if_pos hrole, if_pos hrole⟩

variable (hlo : 3 ≤ who) (hhi : who ≤ 5)
include hlo hhi

/-- HOST0, HOST1 and FABRIC take a lease that is free, theirs, or held by no one any more. -/
theorem State.leaseAcquire_may :
    s.leaseAcquire n = if s.ov O.lease_holder = 0 ∨ s.ov O.lease_holder = who ∨ (!s.holds (s.ov O.lease_holder)) = true then
      (s.setOv O.lease_holder who).renewLease.setOv O.lease_result 0 n else s.setOv O.lease_result 1 n := by
  subst hwho
  exact if_neg (by omega)

theorem State.leaseAcquire_free (h : s.ov O.lease_holder = 0 ∨ s.ov O.lease_holder = who ∨ s.ll.leaseAt + s.leaseTicks ≤ s.ltc) :
    s.leaseAcquire n = (s.setOv O.lease_holder who).renewLease.setOv O.lease_result 0 n := by
  rw [State.leaseAcquire_may hwho hlo hhi, if_pos]
  refine h.imp_right (Or.imp_right fun hlapsed => ?_)
  rw [Bool.not_eq_true', Bool.eq_false_iff]
  intro hheld
  obtain ⟨_, _, hlive⟩ := State.holds_iff.mp hheld
  exact hlive.not_ge hlapsed

theorem State.leaseAcquire_held (hnone : s.ov O.lease_holder ≠ 0) (hother : s.ov O.lease_holder ≠ who)
    (hlive : s.ltc < s.ll.leaseAt + s.leaseTicks) : s.leaseAcquire n = s.setOv O.lease_result 1 n := by
  have hheld : s.holds (s.ov O.lease_holder) = true := State.holds_iff.mpr ⟨hnone, rfl, hlive⟩
  rw [State.leaseAcquire_may hwho hlo hhi, if_neg]
  simp only [hnone, hother, hheld, Bool.not_true, Bool.false_eq_true, or_self, not_false_eq_true]

theorem State.leaseRenew_may :
    s.leaseRenew n = if s.holds who = true then s.renewLease.setOv O.lease_result 0 n else s.setOv O.lease_result 2 n := by
  subst hwho
  exact if_neg (by omega)

theorem State.leaseRelease_may :
    s.leaseRelease n = if s.holds who = true then (s.setOv O.lease_holder 0).setOv O.lease_result 0 n else s.setOv O.lease_result 2 n := by
  subst hwho
  exact if_neg (by omega)

end Lease

/-! ### The mailbox, MGT and flash (R654, R677-R681) -/

section Routes

variable {s : State} {p : Nat} {x : Mbox} {k : Vouch} (hx : x = s.box p)
include hx

theorem State.boxAnswer_eq (body : Bytes) : s.boxAnswer p body = State.setBox (s.emit (.mailbox p body)) p
    { x with busy := false, ready := true, ansLen := body.length, buf := splice 0 body x.buf } := by
  subst hx
  rfl

theorem State.boxCmd_ignored {v : Nat} (h : v ≠ 1 ∨ x.busy = true) : s.boxCmd p v k = s := by
  subst hx
  exact if_pos (.inr h)

section Submitted

variable {u : State} (hp : p < 2) (hfree : x.busy = false) (hu : u = s.setBox p { x with busy := true })
include hp hfree hu

/-- A submitted message keeps the mailbox busy until it is answered, and one of a length it may not have is BAD_MSG. -/
theorem State.boxCmd_submits : s.boxCmd p 1 k =
    if x.reqLen < 8 ∨ 4032 < x.reqLen then u.boxAnswer p (msgHead 0 0xA 0)
    else if byteAt x.buf 0 = 9 then (u.message (32 + p) 0 0 (x.buf.take x.reqLen) k).setBox p
        { (u.message (32 + p) 0 0 (x.buf.take x.reqLen) k).box p with busy := false }
      else u.message (32 + p) 0 0 (x.buf.take x.reqLen) k := by
  subst hu hx
  refine if_neg ?_
  rw [hfree]
  simp only [Nat.not_le.mpr hp, ne_eq, not_true_eq_false, Bool.false_eq_true, or_self, not_false_eq_true]

theorem State.boxCmd_badLength (h : x.reqLen < 8 ∨ 4032 < x.reqLen) : s.boxCmd p 1 k = u.boxAnswer p (msgHead 0 0xA 0) := by
  rw [State.boxCmd_submits hx hp hfree hu, if_pos h]

theorem State.boxCmd_message {v : State} (hlo : 8 ≤ x.reqLen) (hhi : x.reqLen ≤ 4032)
    (hv : v = u.message (32 + p) 0 0 (x.buf.take x.reqLen) k) :
    s.boxCmd p 1 k = if byteAt x.buf 0 = 9 then v.setBox p { v.box p with busy := false } else v := by
  rw [State.boxCmd_submits hx hp hfree hu, if_neg (by omega), hv]

end Submitted

end Routes

section Mgt

variable {s : State} {port tag agt len : Nat} {slots : List Slot} {k : Vouch} (hport : port < 24) (hagt : agt < 4096)
include hport hagt

theorem State.llm_taken (h : (s.ll.waits.filter (fun w => w.sess == 64 + agt)).length < 4) :
    s.llm port tag agt len slots k = s.message (64 + agt) tag port ((slotBytes slots).take len) k := by
  rw [State.llm, if_neg (by omega), if_neg (Nat.not_le.mpr h)]

/-- An agent has four messages waiting at most. -/
theorem State.llm_busy (h : 4 ≤ (s.ll.waits.filter (fun w => w.sess == 64 + agt)).length) :
    s.llm port tag agt len slots k = s.llmAnswer agt tag port (msgHead (byteAt ((slotBytes slots).take len) 0) 8 0) := by
  rw [State.llm, if_neg (by omega), if_pos h]

end Mgt

/-! ### The commands -/

/-- Each command that brings a message of one operation is that message of its session. -/
theorem exec_messageRows (s : State) (n msg port : Nat) (l : List LlItem) (k z : Vouch) (hz : z = ⟨false, false, false, false⟩) :
    exec (.llRead n msg port l) s = .next (s.serveMsg n msg port 1 l z) ∧ exec (.llWrite n msg port l k) s = .next (s.serveMsg n msg port 2 l k) ∧
      exec (.llReadBlock n msg port l) s = .next (s.serveMsg n msg port 3 l z) ∧
      exec (.llWriteBlock n msg port l k) s = .next (s.serveMsg n msg port 4 l k) ∧
      exec (.llSubscribe n msg port l) s = .next (s.serveMsg n msg port 5 l z) ∧
      exec (.llUnsubscribe n msg port l) s = .next (s.serveMsg n msg port 6 l z) ∧
      exec (.llPing n msg port) s = .next (s.serveMsg n msg port 7 [] z) := by
  subst hz
  exact ⟨rfl, rfl, rfl, rfl, rfl, rfl, rfl⟩

theorem exec_leaseAcquire (s : State) (n : Nat) : exec (.leaseAcquire n) s = .next (s.leaseAcquire n) := rfl

theorem exec_leaseRenew (s : State) (n : Nat) : exec (.leaseRenew n) s = .next (s.leaseRenew n) := rfl

theorem exec_leaseRelease (s : State) (n : Nat) : exec (.leaseRelease n) s = .next (s.leaseRelease n) := rfl

theorem exec_leaseExpire (s : State) : exec .leaseExpire s = .next (s.setOv O.lease_holder 0) := rfl

theorem exec_mbCmd (s : State) (p v : Nat) (k : Vouch) : exec (.mbCmd p v k) s = .next (s.wake.boxCmd p v k) := rfl

theorem exec_llm (s : State) (port tag agt len : Nat) (slots : List Slot) (k : Vouch) :
    exec (.llm port tag agt len slots k) s = .next (s.llm port tag agt len slots k) := rfl

theorem exec_nvFlashWriteDone (s : State) : exec .nvFlashWriteDone s = .next { s with ll := { s.ll with nv := [] } } := rfl

/-- Settles O59: a message goes by the equation of `serveMsg` and its items by that of `item`, the lease by what its holder is, and the other
routes by the equations of theirs. -/
theorem lightListAndLease : Obligations.LightListAndLease := by
  refine ⟨fun s n msg port l k z f mine hacts hrom hz hmine hf => ?messages, fun s n who hwho => ?lease, fun s w p x k hw hx hp => ?routes⟩
  case messages =>
    have hserve (op : Nat) (l : List LlItem) (k : Vouch) : f op l k = s.serveMsg n msg port op l k :=
      (hf op l k).trans (State.serveMsg_acting hacts hrom hmine).symm
    obtain ⟨hread, hwrite, hreadBlock, hwriteBlock, hsub, hunsub, hping⟩ := exec_messageRows s n msg port l k z hz
    simp only [hserve]
    refine ⟨hread, hwrite, hreadBlock, hwriteBlock, hsub, hunsub, hping, fun op u c q => State.carry_eq, fun c op x t q => State.items_cons,
      fun c op x e => State.item_unresolved, fun c op x r hr => ⟨State.item_stopped hr, State.item_unstopped hr, State.item_unstopped hr,
        State.item_unstopped hr, State.item_unstopped hr, State.item_unstopped hr, State.item_unstopped hr⟩⟩
  case lease =>
    simp only [exec_leaseAcquire, exec_leaseRenew, exec_leaseRelease, exec_leaseExpire, Host.Outcome.next.injEq]
    refine ⟨State.lease_role hwho,
      fun hlo hhi => ⟨State.leaseAcquire_free hwho hlo hhi, fun hnone hother hlive =>
        ⟨State.leaseAcquire_held hwho hlo hhi hnone hother hlive, ?notRenewed, ?notReleased⟩, fun hholder hlive => ⟨?renewed, ?released⟩⟩, trivial⟩
    case notRenewed => rw [State.leaseRenew_may hwho hlo hhi, if_neg (State.not_holds_of_other hother)]
    case notReleased => rw [State.leaseRelease_may hwho hlo hhi, if_neg (State.not_holds_of_other hother)]
    case renewed => rw [State.leaseRenew_may hwho hlo hhi, if_pos (State.holds_of_holder hlo hholder hlive)]
    case released => rw [State.leaseRelease_may hwho hlo hhi, if_pos (State.holds_of_holder hlo hholder hlive)]
  case routes =>
    simp only [exec_mbCmd, ← hw, exec_llm, exec_nvFlashWriteDone, Host.Outcome.next.injEq]
    exact ⟨fun v => State.boxCmd_ignored hx, fun u hfree hu => ⟨State.boxCmd_badLength hx hp hfree hu,
        fun hlo hhi v hv => State.boxCmd_message hx hp hfree hu hlo hhi hv⟩,
      State.boxAnswer_eq hx, fun port tag agt len slots hport hagt => ⟨State.llm_taken hport hagt, State.llm_busy hport hagt⟩, trivial⟩

end Sys2Proof.Machine
end
